-- ==== Sys2Proof/Word.lean ====
section
/-! DEFINITION. The word types of the model: bytes, 32-bit and 64-bit registers (R10), and the vector and mask
registers of a core (R127). -/
namespace Sys2Proof

/-- One byte of memory. -/
abbrev Byte := BitVec 8

/-- A 32-bit register or field (R10). -/
abbrev Word32 := BitVec 32

/-- A 64-bit register, time or counter (R10). -/
abbrev Word64 := BitVec 64

/-- A 4,096-bit vector register (R127). -/
abbrev VReg := BitVec 4096

/-- A 512-bit mask register (R127). -/
abbrev MReg := BitVec 512

end Sys2Proof
end

