-- ==== Sys2Proof/Syntax.lean ====
section
/-! DEFINITION. The commands of the block: one constructor for each row of spec/opcode_table.json, with the row's
operands, and the operand types. -/
namespace Sys2Proof

/-- An op record (R165): a little-endian 256-bit value. Its fields are read by the accessors of Machine/Operands.lean. -/
abbrev OpRecord := BitVec 256

/-- An op list by agent number (R407): 0 to 191 logical core, 192 to 383 Marrow list (192 + stack × 16 + engine). -/
abbrev ListId := Nat

/-- A Swizax transaction: the header fields of R315 and the data. -/
structure Tx where
  /-- [3:0] of byte 0x00: the transaction type of R317 -/
  type : Nat
  /-- [7:4] of byte 0x00: operation within the type -/
  op : Nat
  latCrit : Bool
  retry : Bool
  ranked : Bool
  fillReq : Bool
  tileCrc : Bool
  /-- source and destination global device numbers -/
  src : Nat
  dst : Nat
  /-- sequence number and source stream (R316) -/
  seq : Nat
  stream : Nat
  hops : Nat
  /-- [9:0] of bytes 0x02: data length in bytes; of a read, the length to read -/
  len : Nat
  /-- global address, or queue number in [19:0] -/
  addr : Nat
  /-- operation word at 0x18 -/
  word : Nat
  data : List Byte
  deriving DecidableEq, Repr

/-- The PTP messages the device distinguishes (R36). -/
inductive PtpKind where
  | announce | sync | followUp | delayReq | delayResp | pdelayReq | pdelayResp | pdelayRespFollowUp
  | management
  deriving DecidableEq, Repr

/-- How a PTP message travels (R36, R72). -/
inductive PtpTransport where
  | udp4 | udp6 | ethernet
  deriving DecidableEq, Repr

/-- What the best master clock algorithm compares of a clock, in the order of its comparison: priority1, the clock's quality (class,
accuracy and variance as one number), priority2 and identity; the lower is better. -/
structure PtpRank where
  priority1 : Nat
  quality : Nat
  priority2 : Nat
  identity : Nat
  deriving DecidableEq, Repr

/-- A PTP message received at a MAC (R36). `announce` is what an announce message says of its grandmaster; `offset` is the offset from
the source, in ns, that the message lets the device measure, where it completes a measurement. -/
structure PtpMsg where
  port : Nat
  kind : PtpKind
  domain : Nat
  transport : PtpTransport
  announce : Option PtpRank
  offset : Option Int
  deriving DecidableEq, Repr

/-- A UDP datagram received on an Ethernet port (R61): the arrival time is the MAC's time stamp. -/
structure Datagram where
  port : Nat
  arrival : Nat
  fragment : Bool
  ipv6 : Bool
  srcIp : Nat
  srcPort : Nat
  dstPort : Nat
  bytes : List Byte
  deriving DecidableEq, Repr

/-- An ARP, neighbour discovery or ICMP echo message (R417). -/
structure NetQuery where
  port : Nat
  vlan : Nat
  srcMac : Nat
  srcIp : Nat
  targetIp : Nat
  payload : List Byte
  deriving DecidableEq, Repr

/-- What the scrubber finds in one line (R223, R224, R231). -/
inductive ScrubFinding where
  /-- no error -/
  | clean
  /-- a single symbol in error, corrected and rewritten -/
  | corrected
  /-- the rewritten line needs correction again: the row fails (R231) -/
  | correctedAgain
  /-- two or more symbols in error: the row fails (R231) and the tile follows R228 -/
  | uncorrectable
  deriving DecidableEq, Repr

/-- How a lane leaves its port (R307). -/
inductive LaneFault where
  | lossOfLock
  | fecThreshold
  deriving DecidableEq, Repr

/-- What the receiver's FEC says of the codewords of a flit (R302, R305). -/
inductive FecResult where
  | clean
  | corrected
  | uncorrectable
  deriving DecidableEq, Repr

/-- The inputs of time whose loss moves time to HOLDOVER (R39, R489). -/
inductive TimeInput where
  | source
  | tenMhz
  | pps
  deriving DecidableEq, Repr

/-- A write or read of a register in BAR0 (R390, R391). -/
structure Bar0Access where
  write : Bool
  offset : Nat
  size : Nat
  value : Nat
  deriving DecidableEq, Repr

/-- Writes to PCIe configuration space that the device acts on (R386, R389, R408). -/
inductive PcieConfig where
  | busMaster (enable : Bool)
  | powerD3hot (d3 : Bool)
  /-- BAR2 size as a multiple of 1 GiB -/
  | resizeBar2 (gib : Nat)
  | msixEnable (enable : Bool)
  deriving DecidableEq, Repr

/-- The result of a physical unit's BIST (R472). -/
inductive Verdict where
  | pass
  | fail
  deriving DecidableEq, Repr

/-- The straps of R491. -/
structure Straps where
  slot : Nat
  width : Nat
  testEn : Bool
  deriving DecidableEq, Repr

/-- Which supply leaves tolerance (R485). -/
inductive Supply where
  | vin12
  | v3p3sb
  deriving DecidableEq, Repr

/-- A unit in which a self-test found a fault that sparing absorbs (R475): a physical core, a Marrow engine, an HBM row with an
address in it, a module of a die-to-die link, a lane of a port. -/
inductive TestUnit where
  | core (die phys : Nat)
  | engine (s phys : Nat)
  | row (s ch pc row addr : Nat)
  | module (link m : Nat)
  | lane (p lane : Nat)
  deriving DecidableEq, Repr

/-- What a boot stage found when it ended (R413, R414, R475). `d2dFailed`, `stackFailed` and `selfTestFailed` are
losses of R15 that training or self-test found; `noFirmware` is a stage 1 at which no slot verifies; `absorbed` are units that the
self-test of stage 5 retires. -/
inductive BootFinding where
  | ok
  | noFirmware
  | d2dFailed
  | stackFailed
  | selfTestFailed
  | absorbed (units : List TestUnit)
  deriving DecidableEq, Repr

/-- Where a long command ends when its outcome lies outside the device (module, storage, peers): the status of R405
and its detail. -/
structure Ending where
  status : Nat
  detail : Nat
  deriving DecidableEq, Repr

/-- The commands: one constructor for each row of the table, in the table's order. The operand types are those above;
`l` is an op list, `r` an op record, `k` a mailbox, `s` a stack, `p` a port, `q` a queue, `id` an op in flight. -/
inductive Instr where
  -- sequencer records
  | nop (l : ListId) (r : OpRecord)
  | wait (l : ListId) (r : OpRecord)
  | setc (l : ListId) (r : OpRecord)
  | addc (l : ListId) (r : OpRecord)
  | subc (l : ListId) (r : OpRecord)
  | loop (l : ListId) (r : OpRecord)
  | opListRefetchDone (l : ListId)
  | fence (l : ListId) (r : OpRecord)
  | signal (l : ListId) (r : OpRecord)
  | phaseDone (l : ListId) (r : OpRecord)
  | endStep (l : ListId) (r : OpRecord)
  -- matrix and vector ops
  | matmul (l : ListId) (r : OpRecord)
  | matmulPart (l : ListId) (r : OpRecord)
  | anchorGather (l : ListId) (r : OpRecord)
  | partCombine (l : ListId) (r : OpRecord)
  | vop (l : ListId) (r : OpRecord)
  | setvl (l : ListId) (r : OpRecord)
  -- transfers and collectives
  | xferCopy (l : ListId) (r : OpRecord)
  | xferStridedCopy (l : ListId) (r : OpRecord)
  | xferEnqueue (l : ListId) (r : OpRecord)
  | xferDequeue (l : ListId) (r : OpRecord)
  | xferAtomic (l : ListId) (r : OpRecord)
  | xferFill (l : ListId) (r : OpRecord)
  | collectiveAllReduce (l : ListId) (r : OpRecord)
  | collectiveReduceToRoot (l : ListId) (r : OpRecord)
  | collectiveBroadcast (l : ListId) (r : OpRecord)
  | collectiveAllGather (l : ListId) (r : OpRecord)
  | collectiveBarrier (l : ListId) (r : OpRecord)
  -- Marrow ops
  | mstream (l : ListId) (r : OpRecord)
  | mstencil (l : ListId) (r : OpRecord)
  | mreduce (l : ListId) (r : OpRecord)
  | mindexGather (l : ListId) (r : OpRecord)
  | mindexScatter (l : ListId) (r : OpRecord)
  | mindexAtomicScatter (l : ListId) (r : OpRecord)
  | mtileSeal (l : ListId) (r : OpRecord)
  | mtileVerify (l : ListId) (r : OpRecord)
  | mtileZeroFill (l : ListId) (r : OpRecord)
  | mtileMigrate (l : ListId) (r : OpRecord)
  -- op completion
  | opCompletion (id : Nat)
  /-- request `req` of transfer op `id`; `data` is what a host-window read returns, `ok` whether it completed -/
  | transferRequestComplete (id : Nat) (req : Nat) (data : List Byte) (ok : Bool)
  | tagGrant
  | queueWaitReread (l : ListId)
  -- tick
  | tick
  | phaseRelease (p : Nat)
  | phaseWarning (p : Nat)
  | phaseLate (p : Nat)
  | overrunDecision
  | overrunTrigger (tx : Tx)
  | jobStoppedTrigger (tx : Tx)
  | undoCopyDone (granule : Nat)
  | restorationDone
  | tickStopBoundary
  | tckCtrlRunClear
  | effectiveTickReached
  | slowNoticeRepeat
  | slowNotice (tx : Tx)
  | slowNoticeExpiry (src : Nat)
  -- time
  | ptpMessage (m : PtpMsg)
  | ptpSyncSend (p : Nat)
  | timeTransaction (p : Nat) (lead : Nat) (offset : Int) (locked : Bool)
  | fabricTimeSend
  | timeSourceLoss (i : TimeInput)
  | leadConflictExpiry
  | time1ppsEdge (tenMhzPresent : Bool) (spacingOk : Bool) (offset : Int)
  | ppsOutEdge
  -- plant I/O and network
  | measurementFrame (d : Datagram)
  | actuationFrameSend (stream : Nat)
  | arpRequest (q : NetQuery)
  | neighbourDiscovery (q : NetQuery)
  | icmpEcho (q : NetQuery)
  -- memory
  | lineCommit (line : Nat)
  | cbwCopyDone (granule : Nat)
  | scrub (s ch pc row : Nat) (addr : Nat) (f : ScrubFinding)
  | pageMigrationDone (s ch page : Nat)
  | channelMigrationDone (s ch : Nat)
  /-- the reload of tile `tile` for op `id`: whether the reloaded tile verifies -/
  | checksumReloadDone (id : Nat) (tile : Nat) (verifies : Bool)
  | producerReplay (id : Nat) (tile : Nat) (verifies : Bool)
  | thermalSample (s : Nat) (celsius : Nat)
  | thermalStepExit (s : Nat)
  -- queues
  | reservationGrant (q : Nat)
  | entryLanding (q : Nat) (pos : Nat)
  | windowFetchDone (q : Nat)
  | slotGrant (q : Nat)
  | trackerGrant (q : Nat)
  | headWindowRefill (q : Nat)
  | hostEnqueue (offset : Nat) (data : List Byte)
  | hostEnqueueDrop
  -- online test and faults
  | coreRotationStart (n : Nat)
  | migrationCopyDone (n : Nat)
  | coreBistDone (die phys : Nat) (v : Verdict)
  | marrowEngineTestStart (m : Nat)
  | marrowBistDone (m : Nat) (v : Verdict)
  | hbmPageTestStart (s ch page : Nat)
  | hbmPageTestDone (s ch page : Nat) (v : Verdict)
  | laneTestStart (p lane : Nat)
  | laneTestDone (p lane : Nat) (v : Verdict)
  | coreCheckerFailure (die phys : Nat)
  | marrowCheckerFailure (s phys : Nat)
  | managementMismatch (bist : Verdict)
  | serviceCoreFault (c : Nat)
  -- fabric
  | laneLoss (p lane : Nat) (f : LaneFault)
  | laneRetrainDone (p : Nat)
  | flitReceive (p : Nat) (fec : FecResult) (flit : List Byte)
  | linkUp (p : Nat) (peer : Nat) (lanes : Nat)
  | readRequest (tx : Tx)
  | writeRequest (tx : Tx)
  | atomicRequest (tx : Tx)
  | creditRequest (tx : Tx)
  | enqueueTransaction (tx : Tx)
  | dequeueTransaction (tx : Tx)
  | collectiveContribution (tx : Tx)
  | pendingNotice (tx : Tx)
  | portStateAnnouncement (tx : Tx)
  | peerManagement (tx : Tx)
  | congestionNotice (tx : Tx)
  | lostNotice (tx : Tx)
  | launchHeartbeat (tx : Tx)
  | launchReattach (tx : Tx)
  | launchAdopt (tx : Tx)
  | launchDone (tx : Tx)
  | invalidation (tx : Tx)
  | invalidationAck (tx : Tx)
  | coherentFill (tx : Tx)
  | fabricReply (tx : Tx)
  | replyDeadline (peer : Nat) (seq : Nat)
  | pendingNoticeSend (peer : Nat)
  | fabricWaitDeadline (peer : Nat)
  | rankedAtomicApply (addr : Nat)
  | rankWaitDeadline (addr : Nat) (rank : Nat)
  | congestionNoticeExpiry (home : Nat)
  | throttleGap (home : Nat)
  | cressWindowClose (line : Nat)
  | leekEntryExpiry
  | launchChunkForward (id : Nat) (child : Nat)
  | launchHeartbeatSend (id : Nat)
  | launchParentSilence (id : Nat)
  | launchAdoptTimeout (id : Nat)
  -- checkpoint events
  | checkpointCapture
  | queueWritebackDone (q : Nat)
  | parsnipGranuleDone (granule : Nat)
  | checkpointCommit
  | moduleCommandTimeout
  -- host interface
  | mbxDoorbell (k : Nat)
  | mailboxPageWrite (k : Nat) (offset : Nat) (data : List Byte)
  | mbxDoneClear (mask : Nat)
  | longCommandDone (k : Nat) (e : Ending)
  | mbxEvtEnable (value : Nat)
  | mbxEvtHeadWrite (value : Nat)
  | registerWrite (offset : Nat) (size : Nat) (value : Nat)
  | bar0RefusedAccess (a : Bar0Access)
  | bar2Read (offset : Nat) (len : Nat) (uncorrectable : Bool)
  | bar2Write (offset : Nat) (data : List Byte)
  | hostCompletionTimeout (id : Nat) (req : Nat)
  | poisonedTlp (write : Bool) (id : Nat) (req : Nat)
  | pcieLinkDown
  | pcieLinkUp (hostRate : Nat)
  | functionLevelReset
  | pcieHotReset
  | remoteMailboxDatagram (d : Datagram)
  -- mailbox commands and their timed events; `ext` is what the command reads outside the device
  | devCapabilities (k : Nat)
  | devIdentify (k : Nat)
  | devStatus (k : Nat)
  | netConfig (k : Nat)
  | storageTargetSet (k : Nat)
  | storageTargetStatus (k : Nat)
  | jobAdmit (k : Nat) (ext : List Byte)
  | jobReset (k : Nat)
  | jobStatus (k : Nat)
  | queueStatus (k : Nat)
  | queueEngineStatus (k : Nat)
  | timeSetSource (k : Nat)
  | timeStatus (k : Nat)
  | tickArm (k : Nat)
  | tickStop (k : Nat)
  | tickStatus (k : Nat)
  | streamAdd (k : Nat)
  | streamRemove (k : Nat)
  | streamStatus (k : Nat)
  | ckpStart (k : Nat)
  | ckpStatus (k : Nat)
  | ckpAbandon (k : Nat)
  | ckpExport (k : Nat)
  | ckpRestore (k : Nat) (sources : List (List Byte))
  | ckpManifestRead (k : Nat)
  | ckpDiscard (k : Nat)
  | snapArm (k : Nat)
  | snapTrigger (k : Nat)
  | snapStatus (k : Nat)
  | snapshotTickMatch
  | snapshotTimeMatch
  | snapshotEventMatch (event : Nat) (source : Nat)
  | snapshotTrigger (tx : Tx)
  | tagRead (k : Nat)
  | debugUnlock (k : Nat) (ext : List Byte)
  | debugLock (k : Nat)
  | stepHalt (k : Nat)
  | stepResume (k : Nat)
  | stepHaltTick
  | stepResumeTick
  | d2TokenExpiry
  | unlockLockoutExpiry
  | secStatus (k : Nat)
  | fwStage (k : Nat) (ext : List Byte)
  | fwActivate (k : Nat)
  | fwActivateWarmReset
  | configRecordWrite (k : Nat) (ext : List Byte)
  | ownerKeySet (k : Nat)
  | certRead (k : Nat)
  | powerStateSet (k : Nat)
  | powerCapSet (k : Nat)
  | powerStatus (k : Nat)
  /-- `found` is the bitmap of mask bits that will find a fault, `ending` those whose fault ends the device, `units` the units
  whose faults sparing absorbs -/
  | selfTest (k : Nat) (found : Nat) (ending : Nat) (units : List TestUnit)
  | onlineTestSet (k : Nat)
  | testStatus (k : Nat)
  | memRepairApply (k : Nat)
  | memHealth (k : Nat)
  | faultLogRead (k : Nat)
  | fabricSetIdentity (k : Nat)
  | fabricStatus (k : Nat)
  | peerAdd (k : Nat)
  | peerRemove (k : Nat)
  | peerStatus (k : Nat)
  | groupSet (k : Nat) (ext : List Byte)
  | routeSetOptical (k : Nat)
  | portStatus (k : Nat)
  | portRetrain (k : Nat)
  | launchBroadcast (k : Nat)
  | launchStatus (k : Nat)
  -- power-up, power, storage, security protocols, board
  | standbySupplyGood
  | coldResetRelease (st : Straps)
  | coldRstNAssert
  | supplyFault (v : Supply)
  | perstAssert (micros : Nat)
  | perstDeassert
  /-- the end of the boot stage in progress, `ms` after the release from reset; `ext`: what an autoload at READY reads from its
  storage target -/
  | bootStageComplete (f : BootFinding) (ms : Nat) (ext : List Byte)
  /-- input power over the last 1 ms, watts -/
  | powerEvaluation (watts : Nat)
  /-- 12 V input current over the last 10 µs, in 0.1 A -/
  | fastCurrentLimit (deciamps : Nat)
  | fastLimitRelease (deciamps : Nat)
  | pwrBrakeAssert
  | pwrBrakeRelease
  | brakeHoldExpiry
  | junctionLimit (die : Nat) (celsius : Nat)
  | modPrsntChange (present : Bool)
  | nvmeKeepAlive
  | storageCommandTimeout (k : Nat)
  | recoveryImageStream (image : List Byte)
  | recoveryD3Grant (grant : List Byte)
  | getVersion
  | getCapabilities
  | negotiateAlgorithms (hash : Nat) (asym : Nat)
  | getDigests
  | getCertificate (slot : Nat) (offset : Nat) (len : Nat)
  | challenge (slot : Nat) (nonce : List Byte)
  | getMeasurements (index : Nat) (signed : Bool) (nonce : List Byte)
  | chunkGet (handle : Nat) (seq : Nat)
  | vendorDefinedRequest (wantCert : Bool) (nonce : List Byte)
  | i3cSetdasa (static : Nat) (addr : Nat)
  | i3cEntdaa (addr : Nat)
  | i3cPrivateWrite (addr : Nat) (data : List Byte)
  | i3cPrivateRead (addr : Nat) (len : Nat)
  | bypass
  | idcode
  | samplePreload (pins : Nat) (preload : Nat)
  | extest
  | clamp
  | unknownCommand (k : Nat)
  | internalResetRelease
  | ps3BoardControllerExit
  | pcieConfigurationWrite (c : PcieConfig)
  | dieToDieReplay (link : Nat)
  | dieToDieLaneFailure (link : Nat) (module : Nat) (repairable : Bool)
  | spdmUnsupportedRequest (code : Nat)
  | spareCoreBistStart (die phys : Nat)
  | delayRequestSend (p : Nat)
  | linkDelayMeasurement (p : Nat) (ns : Nat)
  | storageConnectionDone (target : Nat) (p : Nat) (connected : Bool)
  deriving DecidableEq, Repr

end Sys2Proof
end

