-- ==== Sys2Proof/Machine/Bits.lean ====
section
/-! DEFINITION. Bytes, bit fields and the checksums of the spec: little-endian values (R10), CRC-32C (R225), CRC-64
(R375) and mix64 (R194). -/
namespace Sys2Proof.Machine

/-- The value of little-endian bytes. -/
def ofLE : List Byte → Nat
  | [] => 0
  | b :: r => b.toNat + 256 * ofLE r

/-- The `n` little-endian bytes of a value, which wraps modulo 256^n. -/
def toLE : Nat → Nat → List Byte
  | 0, _ => []
  | n + 1, v => BitVec.ofNat 8 v :: toLE n (v / 256)

/-- Bits [hi:lo] of a value. -/
def bitsOf (v hi lo : Nat) : Nat := (v >>> lo) % 2 ^ (hi - lo + 1)

/-- Bit `i` of a value. -/
def bitOf (v i : Nat) : Bool := (v >>> i) % 2 = 1

/-- `v` with bit `i` set. -/
def setBit (v i : Nat) : Nat := v ||| 1 <<< i

/-- `v` with bit `i` clear. -/
def clearBit (v i : Nat) : Nat := if bitOf v i then v - 1 <<< i else v

/-- Two's complement value of a `w`-bit pattern. -/
def signedOf (w v : Nat) : Int := if v < 2 ^ (w - 1) then (v : Int) else (v : Int) - (2 ^ w : Nat)

/-- The `w`-bit pattern of an integer, wrapping. -/
def patternOf (w : Nat) (i : Int) : Nat := (i % ((2 ^ w : Nat) : Int)).toNat

/-- `n` bytes from offset `off`. -/
def slice (bs : List Byte) (off n : Nat) : List Byte := (bs.drop off).take n

/-- The little-endian field of `n` bytes at offset `off`. -/
def fieldLE (bs : List Byte) (off n : Nat) : Nat := ofLE (slice bs off n)

/-- Bytes `n` long: cut, or filled with zeros. -/
def padTo (n : Nat) (bs : List Byte) : List Byte := bs.take n ++ List.replicate (n - bs.length) 0

/-- `bs` with the bytes `v` written at offset `off`; `bs` is extended with zeros where it is too short. -/
def overlay (bs : List Byte) (off : Nat) (v : List Byte) : List Byte :=
  padTo off bs ++ v ++ bs.drop (off + v.length)

/-- The list cut into pieces of `n` (the last may be shorter); `fuel` bounds the number of pieces. -/
def chunksOf {α : Type} (n : Nat) : Nat → List α → List (List α)
  | 0, _ => []
  | _, [] => []
  | fuel + 1, l => l.take n :: chunksOf n fuel (l.drop n)

/-- One bit of a reflected CRC of polynomial `p`. -/
def crcShift (p : Nat) : Nat → Nat → Nat
  | 0, c => c
  | n + 1, c => crcShift p n (if c % 2 = 1 then (c / 2) ^^^ p else c / 2)

/-- CRC-32C of a byte string: the Castagnoli polynomial, reflected, start and end 0xFFFF_FFFF (R225). -/
def crc32c (bs : List Byte) : Word32 :=
  BitVec.ofNat 32 ((bs.foldl (fun c b => crcShift 0x82F63B78 8 (c ^^^ b.toNat)) 0xFFFFFFFF) ^^^ 0xFFFFFFFF)

/-- One bit of a CRC-64 that shifts left, polynomial 0x42F0_E1EB_A9EA_3693. -/
def crc64Shift : Nat → Nat → Nat
  | 0, c => c
  | n + 1, c =>
    crc64Shift n
      (if c / 2 ^ 63 % 2 = 1 then (c * 2 % 2 ^ 64) ^^^ 0x42F0E1EBA9EA3693 else c * 2 % 2 ^ 64)

/-- The CRC-64 of the checkpoint records and fingerprints, whose value for "123456789" is 0x62EC_59E3_F1A4_F00A. -/
def crc64 (bs : List Byte) : Word64 :=
  BitVec.ofNat 64 ((bs.foldl (fun c b => crc64Shift 8 (c ^^^ (b.toNat * 2 ^ 56))) 0xFFFFFFFFFFFFFFFF)
    ^^^ 0xFFFFFFFFFFFFFFFF)

/-- mix64 of R194, modulo 2^64. -/
def mix64 (x : Nat) : Nat :=
  let x := x ^^^ (x >>> 33)
  let x := x * 0xFF51AFD7ED558CCD % 2 ^ 64
  let x := x ^^^ (x >>> 33)
  let x := x * 0xC4CEB9FE1A85EC53 % 2 ^ 64
  x ^^^ (x >>> 33)

/-- The 24-bit draw of R194. -/
def srDraw (seed tensorId step index : Nat) : Nat :=
  let h := mix64 (seed ^^^ (tensorId * 0x9E3779B97F4A7C15 % 2 ^ 64))
  let h := mix64 (h ^^^ step % 2 ^ 64)
  let h := mix64 (h ^^^ index % 2 ^ 64)
  h >>> 40

end Sys2Proof.Machine
end

