-- ==== Sys2Proof/Machine/Number.lean ====
section
/-! DEFINITION. Numbers as the spec's formats hold them: exact values, the format codes of R73, decoding, and exact
arithmetic. Rounding and conversion are in Machine/Convert.lean. -/
namespace Sys2Proof.Machine

/-- A value of a format: NaN, an infinity, or (−1)^neg × m × 2^e exactly; a zero keeps its sign. -/
inductive Num where
  | nan
  | inf (neg : Bool)
  | fin (neg : Bool) (m : Nat) (e : Int)
  deriving DecidableEq, Repr

/-- A floating format (R73): exponent and mantissa field widths, bias, whether it has infinities, NaN. -/
structure FloatFmt where
  ebits : Nat
  mbits : Nat
  bias : Int
  hasInf : Bool
  hasNan : Bool
  deriving DecidableEq, Repr

/-- Codes 0x0 to 0x8 of R73. -/
def floatFmt? : Nat → Option FloatFmt
  | 0 => some ⟨11, 52, 1023, true, true⟩
  | 1 => some ⟨8, 23, 127, true, true⟩
  | 2 => some ⟨8, 7, 127, true, true⟩
  | 3 => some ⟨5, 10, 15, true, true⟩
  | 4 => some ⟨4, 3, 7, false, true⟩
  | 5 => some ⟨5, 2, 15, true, true⟩
  | 6 => some ⟨3, 2, 3, false, false⟩
  | 7 => some ⟨2, 3, 1, false, false⟩
  | 8 => some ⟨2, 1, 1, false, false⟩
  | _ => none

def FloatFmt.width (f : FloatFmt) : Nat := 1 + f.ebits + f.mbits

/-- Largest exponent field of a finite value. -/
def FloatFmt.topExp (f : FloatFmt) : Nat := if f.hasInf then 2 ^ f.ebits - 2 else 2 ^ f.ebits - 1

/-- Significand of the largest finite value: all ones, but 0b1110 for E4M3, whose all-ones code is NaN. -/
def FloatFmt.topMant (f : FloatFmt) : Nat :=
  if f.hasNan && !f.hasInf then 2 ^ (f.mbits + 1) - 2 else 2 ^ (f.mbits + 1) - 1

/-- Exponent of the unit of a subnormal, and of the smallest normal. -/
def FloatFmt.minUnit (f : FloatFmt) : Int := 1 - f.bias - f.mbits
def FloatFmt.minNormal (f : FloatFmt) : Int := 1 - f.bias

/-- The largest finite magnitude, as significand and exponent. -/
def FloatFmt.maxFinite (f : FloatFmt) : Nat × Int := (f.topMant, (f.topExp : Int) - f.bias - f.mbits)

/-- The value of a bit pattern; every NaN encoding is NaN (R90). -/
def FloatFmt.decode (f : FloatFmt) (v : Nat) : Num :=
  let neg := bitOf v (f.width - 1)
  let ex := bitsOf v (f.width - 2) f.mbits
  let man := v % 2 ^ f.mbits
  if ex = 2 ^ f.ebits - 1 ∧ f.hasInf then (if man = 0 then .inf neg else .nan)
  else if ex = 2 ^ f.ebits - 1 ∧ f.hasNan ∧ man = 2 ^ f.mbits - 1 then .nan
  else if ex = 0 then .fin neg man f.minUnit
  else .fin neg (man + 2 ^ f.mbits) ((ex : Int) - f.bias - f.mbits)

/-- The canonical NaN pattern (R90). -/
def FloatFmt.canonNan (f : FloatFmt) : Nat :=
  if f.hasInf then (2 ^ f.ebits - 1) <<< f.mbits ||| 2 ^ (f.mbits - 1) else 2 ^ (f.ebits + f.mbits) - 1

def FloatFmt.signBit (f : FloatFmt) (neg : Bool) : Nat := if neg then 2 ^ (f.width - 1) else 0

def FloatFmt.infBits (f : FloatFmt) (neg : Bool) : Nat := f.signBit neg + (2 ^ f.ebits - 1) <<< f.mbits

def FloatFmt.maxBits (f : FloatFmt) (neg : Bool) : Nat :=
  f.signBit neg + (f.topExp <<< f.mbits) + f.topMant % 2 ^ f.mbits

/-- The pattern of (−1)^neg × m × 2^e, a value the format holds exactly. -/
def FloatFmt.encode (f : FloatFmt) (neg : Bool) (m : Nat) (e : Int) : Nat :=
  if m = 0 then f.signBit neg
  else
    let top := (m.log2 : Int) + e
    let unit := max (top - f.mbits) f.minUnit
    let man := if unit ≤ e then m <<< (e - unit).toNat else m >>> (unit - e).toNat
    if man < 2 ^ f.mbits then f.signBit neg + man
    else f.signBit neg + ((unit - f.minUnit + 1).toNat <<< f.mbits) + (man - 2 ^ f.mbits)

/-- Conversion controls of one operand (R83): fmt, sgn, q, scale_mode. -/
structure Ctl where
  fmt : Nat
  sgn : Bool
  q : Nat
  mode : Nat
  deriving DecidableEq, Repr

/-- The controls in the 16-bit layout of R172. -/
def Ctl.of16 (v : Nat) : Ctl := ⟨bitsOf v 15 12, bitOf v 11, bitsOf v 10 3, bitsOf v 2 1⟩

/-- Container width of a q byte (R75); the reserved code reads as 16. -/
def qWidth (q : Nat) : Nat := if bitsOf q 7 6 = 1 then 8 else if bitsOf q 7 6 = 2 then 32 else 16

/-- Element width in bits (R73). -/
def Ctl.width (c : Ctl) : Nat :=
  match floatFmt? c.fmt with
  | some f => f.width
  | none =>
    if c.fmt = 0x9 ∨ c.fmt = 0xD then 8 else if c.fmt = 0xA then 4 else if c.fmt = 0xB then 32
    else if c.fmt = 0xC then 64 else if c.fmt = 0xE then qWidth c.q else 8

/-- Fraction bits of an integer or Q element; 6 for MXINT8 (R78). -/
def Ctl.frac (c : Ctl) : Nat :=
  if c.fmt = 0xE then bitsOf c.q 5 0 else if c.fmt = 0x9 ∧ c.mode = 1 then 6 else 0

def Ctl.isFloat (c : Ctl) : Bool := (floatFmt? c.fmt).isSome

/-- An integer × 2^e as a number. -/
def Num.ofInt (i : Int) (e : Int) : Num := .fin (decide (i < 0)) i.natAbs e

/-- The value of an element before its scale (R73, R75, R78). -/
def Ctl.decode (c : Ctl) (v : Nat) : Num :=
  match floatFmt? c.fmt with
  | some f => f.decode v
  | none =>
    if c.fmt = 0xD then (if v = 0xFF then .nan else .fin false 1 ((v : Int) - 127))
    else Num.ofInt (if c.sgn then signedOf c.width v else (v : Int)) (-(c.frac : Int))

/-- `x × 2^k`. -/
def Num.shift (x : Num) (k : Int) : Num :=
  match x with
  | .fin s m e => .fin s m (e + k)
  | y => y

/-- The element's value under the scale that covers it (R77, R78). -/
def Num.scaled (x : Num) (s : Nat) : Num := if s = 0xFF then .nan else x.shift ((s : Int) - 127)

def Num.isNan : Num → Bool
  | .nan => true
  | _ => false

def Num.isZero : Num → Bool
  | .fin _ 0 _ => true
  | _ => false

def Num.isNeg : Num → Bool
  | .nan => false
  | .inf s => s
  | .fin s _ _ => s

def Num.negate : Num → Num
  | .nan => .nan
  | .inf s => .inf (!s)
  | .fin s m e => .fin (!s) m e

def Num.abs : Num → Num
  | .nan => .nan
  | .inf _ => .inf false
  | .fin _ m e => .fin false m e

/-- floor(log2 |x|) of a finite non-zero value (R107). -/
def Num.exponent? : Num → Option Int
  | .fin _ m e => if m = 0 then none else some ((m.log2 : Int) + e)
  | _ => none

/-- The signed integer that a finite value is in units of 2^k, for k at most its exponent. -/
def Num.units (k : Int) : Num → Int
  | .fin s m e => if s then -((m <<< (e - k).toNat : Nat) : Int) else ((m <<< (e - k).toNat : Nat) : Int)
  | _ => 0

/-- Exact product; 0 × ∞ is NaN (R90). -/
def Num.mul (x y : Num) : Num :=
  match x, y with
  | .nan, _ | _, .nan => .nan
  | .inf a, .inf b => .inf (a ^^ b)
  | .inf a, .fin b m _ => if m = 0 then .nan else .inf (a ^^ b)
  | .fin a m _, .inf b => if m = 0 then .nan else .inf (a ^^ b)
  | .fin a m e, .fin b n f => .fin (a ^^ b) (m * n) (e + f)

/-- Exact sum; ∞ − ∞ is NaN. A zero sum of unlike signs, or of cancelling terms, is −0 under rnd 3 and +0 otherwise
(IEEE 754, R119). -/
def Num.add (rnd : Nat) (x y : Num) : Num :=
  match x, y with
  | .nan, _ | _, .nan => .nan
  | .inf a, .inf b => if a = b then .inf a else .nan
  | .inf a, .fin _ _ _ => .inf a
  | .fin _ _ _, .inf b => .inf b
  | .fin a m e, .fin b n f =>
    let k := min e f
    let t := Num.units k (.fin a m e) + Num.units k (.fin b n f)
    if t = 0 then
      (if m = 0 ∧ n = 0 ∧ a = b then .fin a 0 0 else .fin (decide (rnd = 3)) 0 0)
    else Num.ofInt t k

/-- Order of two values, none where one is NaN; ±0 compare equal (R139). -/
def Num.cmp? (x y : Num) : Option Ordering :=
  match x, y with
  | .nan, _ | _, .nan => none
  | .inf a, .inf b => some (if a = b then .eq else if a then .lt else .gt)
  | .inf a, .fin _ _ _ => some (if a then .lt else .gt)
  | .fin _ _ _, .inf b => some (if b then .gt else .lt)
  | .fin a m e, .fin b n f =>
    let k := min e f
    some (compare (Num.units k (.fin a m e)) (Num.units k (.fin b n f)))

def Num.lt (x y : Num) : Bool := x.cmp? y = some .lt
def Num.le (x y : Num) : Bool := x.cmp? y = some .lt || x.cmp? y = some .eq

/-- x orders below y for minimum and maximum: −0 below +0 (R141). -/
def Num.below (x y : Num) : Bool :=
  x.lt y || (x.cmp? y = some .eq && x.isNeg && !y.isNeg)

/-- minimum and maximum of IEEE 754-2019 (R141). -/
def Num.minimum (x y : Num) : Num := if x.isNan || y.isNan then .nan else if y.below x then y else x
def Num.maximum (x y : Num) : Num := if x.isNan || y.isNan then .nan else if x.below y then y else x

/-- minimumNumber and maximumNumber (R141). -/
def Num.minNumber (x y : Num) : Num := if x.isNan then y else if y.isNan then x else Num.minimum x y
def Num.maxNumber (x y : Num) : Num := if x.isNan then y else if y.isNan then x else Num.maximum x y

end Sys2Proof.Machine
end

