-- ==== Sys2Proof/Machine/Convert.lean ====
section
/-! DEFINITION. Rounding and conversion (R83 to R97): one function decides every element, wherever the conversion
takes place (R84). -/
namespace Sys2Proof.Machine

/-- The rounding controls of an op (R83). -/
structure Rounding where
  rnd : Nat
  flush : Bool
  ieee : Bool
  deriving DecidableEq, Repr

/-- Which counter an element lands in (R94). -/
inductive Tally where
  | none | nan | saturated | flushed | inexact
  deriving DecidableEq, Repr

/-- The first of two in the order of R94. -/
def Tally.first (a b : Tally) : Tally :=
  if a = .nan ∨ b = .nan then .nan
  else if a = .saturated ∨ b = .saturated then .saturated
  else if a = .flushed ∨ b = .flushed then .flushed
  else if a = .inexact ∨ b = .inexact then .inexact
  else .none

/-- m × 2^e in units of 2^k, rounded (R85, R86); `draw` is r of R86. -/
def roundMag (rnd : Nat) (neg : Bool) (m : Nat) (e k : Int) (draw : Nat) : Nat :=
  if k ≤ e then m <<< (e - k).toNat
  else
    let d := (k - e).toNat
    let q := m >>> d
    let rem := m % 2 ^ d
    let half := 2 ^ (d - 1)
    let up : Bool :=
      match rnd with
      | 0 => decide (rem > half) || (decide (rem = half) && decide (q % 2 = 1))
      | 1 => false
      | 2 => !neg && decide (rem ≠ 0)
      | 3 => neg && decide (rem ≠ 0)
      | 4 => decide (rem ≥ half)
      | _ => decide (rem * 2 ^ 24 + draw * 2 ^ d ≥ 2 ^ (d + 24))
    if up then q + 1 else q

/-- a × 2^e = b × 2^f. -/
def sameMag (a : Nat) (e : Int) (b : Nat) (f : Int) : Bool :=
  let k := min e f
  a <<< (e - k).toNat = b <<< (f - k).toNat

/-- a × 2^e > b × 2^f. -/
def aboveMag (a : Nat) (e : Int) (b : Nat) (f : Int) : Bool :=
  let k := min e f
  decide (a <<< (e - k).toNat > b <<< (f - k).toNat)

/-- Range of an integer or Q target, in its content (R87). -/
def Ctl.intMax (c : Ctl) : Int := if c.sgn then (2 ^ (c.width - 1) : Nat) - 1 else (2 ^ c.width : Nat) - 1
def Ctl.intMin (c : Ctl) : Int := if c.sgn then -((2 ^ (c.width - 1) : Nat) : Int) else 0

/-- The pattern a NaN converts to (R87, R90). -/
def Ctl.nanBits (c : Ctl) : Nat :=
  match floatFmt? c.fmt with
  | some f => if f.hasNan then f.canonNan else f.maxBits false
  | none => if c.fmt = 0xD then 0xFF else patternOf c.width c.intMax

/-- IEEE overflow of a finite value beyond the range (R89). -/
def ieeeOverflow (f : FloatFmt) (rnd : Nat) (neg : Bool) : Nat :=
  let toInf : Bool :=
    match rnd with
    | 0 | 4 => true
    | 2 => !neg
    | 3 => neg
    | _ => false
  if toInf then f.infBits neg else f.maxBits neg

/-- The magnitude rounded to the format's precision with the exponent unbounded, as units of 2^k. -/
def roundUnbounded (rd : Rounding) (f : FloatFmt) (neg : Bool) (m : Nat) (e : Int) (draw : Nat) : Nat × Int :=
  let k := (m.log2 : Int) + e - f.mbits
  (roundMag rd.rnd neg m e k draw, k)

/-- Conversion of a finite value to a floating format (R87, R89, R91). -/
def convertFloat (rd : Rounding) (f : FloatFmt) (neg : Bool) (m : Nat) (e : Int) (draw : Nat) : Nat × Tally :=
  if m = 0 then (f.signBit neg, .none)
  else
    let (q, k) := roundUnbounded rd f neg m e draw
    if aboveMag q k f.maxFinite.1 f.maxFinite.2 then
      (if rd.ieee then ieeeOverflow f rd.rnd neg else f.maxBits neg, .saturated)
    else if rd.flush && decide (q ≠ 0) && !aboveMag q k 1 f.minNormal && !sameMag q k 1 f.minNormal then
      (f.signBit neg, .flushed)
    else
      let k' := max k f.minUnit
      let q' := roundMag rd.rnd neg m e k' draw
      (f.encode neg q' k', if !sameMag q' k' m e && decide (f.width ≤ 16) then .inexact else .none)

/-- Conversion of a finite value to an integer or Q format (R87, R88). -/
def convertInt (rd : Rounding) (c : Ctl) (neg : Bool) (m : Nat) (e : Int) (draw : Nat) : Nat × Tally :=
  let k := -(c.frac : Int)
  let q := roundMag rd.rnd neg m e k draw
  let v : Int := if neg then -(q : Int) else (q : Int)
  if v > c.intMax then (patternOf c.width c.intMax, .saturated)
  else if v < c.intMin then (patternOf c.width c.intMin, .saturated)
  else (patternOf c.width v, if !sameMag q k m e && decide (c.width ≤ 16) then .inexact else .none)

/-- convert of R87: the target's pattern and the counter. `s` is the scale that covers the target, 127 if unscaled. -/
def convert (rd : Rounding) (c : Ctl) (s draw : Nat) (x : Num) : Nat × Tally :=
  match x with
  | .nan => (c.nanBits, .nan)
  | .inf neg =>
    if s = 0xFF then (c.nanBits, .nan)
    else
      match floatFmt? c.fmt with
      | some f => if f.hasInf then (f.infBits neg, .none) else (f.maxBits neg, .saturated)
      | none => (patternOf c.width (if neg then c.intMin else c.intMax), .saturated)
  | .fin neg m e =>
    if s = 0xFF then (c.nanBits, .nan)
    else
      let e' := e + (127 - (s : Int))
      match floatFmt? c.fmt with
      | some f => convertFloat rd f neg m e' draw
      | none => convertInt rd c neg m e' draw

/-- Two operands' controls name the same format: a conversion between them is the identity. -/
def Ctl.same (a b : Ctl) : Bool :=
  a.fmt = b.fmt && a.sgn = b.sgn && a.q = b.q && a.mode = b.mode

/-- Whether every value of floating source `f` is one of floating target `g`'s (class E of R92). -/
def floatExact (f g : FloatFmt) : Bool :=
  f.mbits ≤ g.mbits && f.minUnit ≥ g.minUnit && !aboveMag f.maxFinite.1 f.maxFinite.2 g.maxFinite.1 g.maxFinite.2

/-- Whether R92 marks the conversion E or =, source row and target column by format code; a Q entry holds for any
widths. -/
def r92Exact (src dst : Nat) : Bool :=
  match src, dst with
  | 0xE, d => d = 0
  | 0xC, d => d = 0xC
  | 0xB, d => d = 0 || d = 0xB || d = 0xC
  | 0xA, d => d ≤ 4 || d = 0x9 || d = 0xA || d = 0xB || d = 0xC
  | 0x9, d => d ≤ 3 || d = 0x9 || d = 0xB || d = 0xC
  | s, d =>
    match floatFmt? s, floatFmt? d with
    | some f, some g => floatExact f g
    | _, _ => false

/-- Narrowing (R93). -/
def narrowing (src dst : Ctl) : Bool :=
  if dst.mode ≠ 0 then true
  else if src.fmt = 0xD then false
  else if src.fmt = 0xE ∧ dst.fmt = 0xE then src.q ≠ dst.q || src.sgn ≠ dst.sgn
  else if 0x9 ≤ src.fmt ∧ src.fmt ≤ 0xC ∧ 0x9 ≤ dst.fmt ∧ dst.fmt ≤ 0xC ∧ src.sgn ≠ dst.sgn then
    !(!src.sgn && dst.sgn && decide (src.width < dst.width))
  else !r92Exact src.fmt dst.fmt

/-- |x| as FP32 rounded up, for amax (R95, R96): infinities and what lies beyond FP32 give +infinity; NaN gives 0. -/
def amaxBits (x : Num) : Nat :=
  match floatFmt? 1 with
  | none => 0
  | some f =>
    match x with
    | .nan => 0
    | .inf _ => f.infBits false
    | .fin _ m e => (convertFloat ⟨2, false, true⟩ f false m e 0).1

/-- emax of R79. -/
def mxEmax (fmt : Nat) : Int :=
  match fmt with
  | 4 => 8
  | 5 => 15
  | 6 => 4
  | 7 => 2
  | 8 => 2
  | _ => 0

/-- The scale of an MX block from its source elements (R79). -/
def mxScale (fmt : Nat) (xs : List Num) : Nat :=
  let top := xs.foldl (fun (t : Option Int) x =>
    match x.exponent?, t with
    | some a, some b => some (max a b)
    | some a, none => some a
    | none, t => t) none
  match top with
  | none => 127
  | some l => (min (max (l - mxEmax fmt + 127) 0) 254).toNat

/-- maxf of R149 as significand and exponent. -/
def maxFinite (fmt : Nat) (sgn : Bool) : Nat × Int :=
  match floatFmt? fmt with
  | some f => f.maxFinite
  | none => ((if fmt = 0xA then (if sgn then 7 else 15) else (if sgn then 127 else 255)), 0)

/-- Scale derivation (R97) from an amax held as FP32 bits. -/
def deriveScale (fmt : Nat) (sgn : Bool) (amax prev : Nat) : Nat :=
  match Ctl.decode ⟨1, false, 0, 0⟩ amax with
  | .fin _ m e =>
    if m = 0 then prev
    else
      let (mm, me) := maxFinite fmt sgn
      let t0 : Int := (m.log2 : Int) + e - ((mm.log2 : Int) + me)
      let t := if aboveMag m e mm (me + t0) then t0 + 1 else t0
      (min (max (127 + t) 0) 254).toNat
  | _ => prev

/-- One statistics entry being gathered (R95): amax as FP32 bits, saturated and NaN elements. -/
structure Stat where
  amax : Nat
  sat : Nat
  nans : Nat
  deriving DecidableEq, Repr

/-- A statistics entry with one more element. -/
def Stat.note (t : Stat) (x : Num) (h : Tally) : Stat :=
  ⟨max t.amax (amaxBits x), t.sat + (if h = .saturated then 1 else 0), t.nans + (if h = .nan then 1 else 0)⟩

/-- The 8 bytes of an entry. -/
def Stat.bytes (t : Stat) : List Byte := toLE 4 t.amax ++ toLE 2 (min t.sat 0xFFFF) ++ toLE 2 (min t.nans 0xFFFF)

/-- The entry merged into what the array holds (R96). -/
def Stat.merge (t : Stat) (old : List Byte) : Stat :=
  ⟨max t.amax (fieldLE old 0 4), t.sat + fieldLE old 4 2, t.nans + fieldLE old 6 2⟩

end Sys2Proof.Machine
end

