-- ==== Sys2Proof/Machine/Operands.lean ====
section
/-! DEFINITION. Operand forms: the fields of an op record (R165 to R168) and the descriptors it points to (R134 to
R138, R172, R173, R253 to R272, R328). -/
namespace Sys2Proof

/-- Bits [hi:lo] of an op record (R165). -/
def OpRecord.bits (r : OpRecord) (hi lo : Nat) : Nat := Machine.bitsOf r.toNat hi lo

def OpRecord.unit (r : OpRecord) : Nat := r.bits 255 253
def OpRecord.opcode (r : OpRecord) : Nat := r.bits 252 248
def OpRecord.phase (r : OpRecord) : Nat := r.bits 247 244
def OpRecord.mayVary (r : OpRecord) : Bool := r.bits 243 243 = 1
def OpRecord.weightUpdate (r : OpRecord) : Bool := r.bits 242 242 = 1
def OpRecord.ckPolicy (r : OpRecord) : Nat := r.bits 241 240
def OpRecord.prio (r : OpRecord) : Nat := r.bits 239 238
def OpRecord.rnd (r : OpRecord) : Nat := r.bits 237 235
def OpRecord.flush (r : OpRecord) : Bool := r.bits 234 234 = 1
def OpRecord.ieeeOvf (r : OpRecord) : Bool := r.bits 233 233 = 1
def OpRecord.waitKind (r : OpRecord) : Nat := r.bits 232 231
def OpRecord.waitObj (r : OpRecord) : Nat := r.bits 230 211
def OpRecord.waitValue (r : OpRecord) : Nat := r.bits 210 179
def OpRecord.sigTgt (r : OpRecord) : Nat := r.bits 178 171
def OpRecord.sigCnt (r : OpRecord) : Nat := r.bits 170 165
def OpRecord.sigEn (r : OpRecord) : Bool := r.bits 164 164 = 1
def OpRecord.crIndex (r : OpRecord) : Nat := r.bits 163 148
def OpRecord.sigMarrow (r : OpRecord) : Bool := r.bits 147 147 = 1
def OpRecord.reserved (r : OpRecord) : Nat := r.bits 146 128
/-- The argument bits of sequencer records (R167). -/
def OpRecord.imm (r : OpRecord) : Nat := r.bits 127 96
def OpRecord.src (r : OpRecord) : Bool := r.bits 95 95 = 1
def OpRecord.srcReg (r : OpRecord) : Nat := r.bits 94 89
def OpRecord.ew (r : OpRecord) : Nat := r.bits 88 87
def OpRecord.dst (r : OpRecord) : Nat := r.bits 5 0
def OpRecord.loopCnt (r : OpRecord) : Nat := r.bits 31 26
def OpRecord.loopTarget (r : OpRecord) : Nat := r.bits 19 0
def OpRecord.fenceMask (r : OpRecord) : Nat := r.bits 3 0
/-- The argument bits of R168. -/
def OpRecord.tensorId (r : OpRecord) : Nat := r.bits 127 96
def OpRecord.digest (r : OpRecord) : Bool := r.bits 95 95 = 1
def OpRecord.idxCnt (r : OpRecord) : Nat := r.bits 31 26
def OpRecord.idxEn (r : OpRecord) : Bool := r.bits 25 25 = 1
def OpRecord.desc (r : OpRecord) : Nat := r.bits 22 0

def OpRecord.rounding (r : OpRecord) : Machine.Rounding := ⟨r.rnd, r.flush, r.ieeeOvf⟩

namespace Machine

/-- The chain word (R134). -/
structure Chain where
  wfmt : Nat
  wsgn : Bool
  wq : Nat
  mul : Nat
  add : Nat
  addSrc : Nat
  cmp : Nat
  cmpSrc : Nat
  cmpMask : Nat
  sel : Bool
  selSrc : Nat
  selMask : Nat
  minmax : Nat
  minmaxSrc : Nat
  sfu : Nat
  fxp : Nat
  sh : Nat
  wmask : Nat
  zeroMasked : Bool
  derive : Bool
  reserved : Nat
  deriving DecidableEq, Repr

def Chain.of (v : Nat) : Chain where
  wfmt := bitsOf v 63 60
  wsgn := bitOf v 59
  wq := bitsOf v 58 51
  mul := bitsOf v 50 49
  add := bitsOf v 48 46
  addSrc := bitsOf v 45 44
  cmp := bitsOf v 43 41
  cmpSrc := bitsOf v 40 39
  cmpMask := bitsOf v 38 36
  sel := bitOf v 35
  selSrc := bitsOf v 34 33
  selMask := bitsOf v 32 30
  minmax := bitsOf v 29 27
  minmaxSrc := bitsOf v 26 25
  sfu := bitsOf v 24 22
  fxp := bitsOf v 21 20
  sh := bitsOf v 19 14
  wmask := bitsOf v 13 11
  zeroMasked := bitOf v 10
  derive := bitOf v 9
  reserved := bitsOf v 8 0

/-- The working format's controls. -/
def Chain.ctl (c : Chain) : Ctl := ⟨c.wfmt, c.wsgn, c.wq, 0⟩

/-- The stage that reduces: 3, 6 or none (R131). -/
def Chain.reduceStage (c : Chain) : Nat :=
  if c.add = 5 then 3 else if c.minmax = 5 ∨ c.minmax = 6 then 6 else 0

/-- An operand of a chain op: a vector register (kind 1), a stream (kind 2) or absent. `addr` is a register number,
or a device-local address. -/
structure Opnd where
  kind : Nat
  addr : Nat
  scaleAddr : Nat
  stride : Int
  ctl : Ctl
  /-- core-store offsets, for the operand's bounds -/
  reserved : Nat
  deriving DecidableEq, Repr

/-- A vector operand entry (R138) of the core whose store starts at `base`. -/
def Opnd.ofVec (base v : Nat) : Opnd where
  kind := bitsOf v 127 126
  addr := if bitsOf v 127 126 = 1 then bitsOf v 4 0 else base + bitsOf v 22 0
  scaleAddr := base + bitsOf v 122 100
  stride := signedOf 32 (bitsOf v 63 32)
  ctl := ⟨bitsOf v 99 96, bitOf v 95, bitsOf v 94 87, bitsOf v 86 85⟩
  reserved := bitsOf v 125 123 + bitsOf v 84 64 + bitsOf v 31 23

/-- A Marrow operand entry (R253): 24 bytes. -/
def Opnd.ofMarrow (b : List Byte) : Opnd where
  kind := bitsOf (fieldLE b 0x14 4) 31 30
  addr := bitsOf (fieldLE b 0 8) 47 0
  scaleAddr := bitsOf (fieldLE b 8 8) 47 0
  stride := signedOf 32 (fieldLE b 0x10 4)
  ctl := Ctl.of16 (fieldLE b 0x14 2)
  reserved := bitsOf (fieldLE b 0 8) 63 48 + bitsOf (fieldLE b 8 8) 63 48 + bitsOf (fieldLE b 0x14 4) 29 16
    + fieldLE b 0x14 2 % 2

/-- A chain op: a vector op (R137) or an MSTREAM op (R255). -/
structure ChainOp where
  chain : Chain
  g : Nat
  r : Nat
  count : Nat
  statBase : Nat
  a : Opnd
  b : Opnd
  c : Opnd
  d : Opnd
  reserved : Nat
  deriving DecidableEq, Repr

def ChainOp.ofVec (base : Nat) (t : List Byte) : ChainOp where
  chain := Chain.of (fieldLE t 0 8)
  g := bitsOf (fieldLE t 8 8) 63 52 + 1
  r := bitsOf (fieldLE t 8 8) 51 40 + 1
  count := bitsOf (fieldLE t 8 8) 24 0
  statBase := bitsOf (fieldLE t 0x10 8) 47 0
  a := Opnd.ofVec base (fieldLE t 0x20 16)
  b := Opnd.ofVec base (fieldLE t 0x30 16)
  c := Opnd.ofVec base (fieldLE t 0x40 16)
  d := Opnd.ofVec base (fieldLE t 0x50 16)
  reserved := bitsOf (fieldLE t 8 8) 39 25 + bitsOf (fieldLE t 0x10 8) 63 48 + fieldLE t 0x18 8

def ChainOp.ofStream (t : List Byte) : ChainOp where
  chain := Chain.of (fieldLE t 0 8)
  g := bitsOf (fieldLE t 8 8) 63 52 + 1
  r := bitsOf (fieldLE t 8 8) 51 40 + 1
  count := bitsOf (fieldLE t 8 8) 31 0
  statBase := bitsOf (fieldLE t 0x10 8) 47 0
  a := Opnd.ofMarrow (slice t 0x20 24)
  b := Opnd.ofMarrow (slice t 0x38 24)
  c := Opnd.ofMarrow (slice t 0x50 24)
  d := Opnd.ofMarrow (slice t 0x68 24)
  reserved := bitsOf (fieldLE t 8 8) 39 32 + bitsOf (fieldLE t 0x10 8) 63 48 + fieldLE t 0x18 8

/-- A matrix op descriptor (R173); offsets become addresses of the core whose store starts at `base`. -/
structure MatOp where
  m : Nat
  n : Nat
  k : Nat
  kOffset : Nat
  passes : Nat
  addC : Bool
  importAnchor : Bool
  chunk64 : Bool
  parts : Nat
  a : Nat
  b : Nat
  c : Nat
  d : Nat
  ctlA : Ctl
  ctlB : Ctl
  ctlC : Ctl
  ctlD : Ctl
  scaleA : Nat
  scaleB : Nat
  ea : Nat
  eb : Nat
  /-- 0 for none -/
  anchorOut : Nat
  records : Nat
  statBase : Nat
  /-- whatever must be zero -/
  reserved : Nat
  deriving DecidableEq, Repr

def MatOp.of (base : Nat) (t : List Byte) : MatOp where
  m := fieldLE t 0 2 + 1
  n := fieldLE t 2 2 + 1
  k := bitsOf (fieldLE t 4 4) 19 0 + 1
  kOffset := fieldLE t 8 4
  passes := fieldLE t 0xC 1
  addC := bitOf (fieldLE t 0xD 1) 0
  importAnchor := bitOf (fieldLE t 0xD 1) 1
  chunk64 := bitOf (fieldLE t 0xD 1) 2
  parts := fieldLE t 0xE 2 + 1
  a := base + fieldLE t 0x10 4
  b := base + fieldLE t 0x14 4
  c := base + fieldLE t 0x18 4
  d := base + fieldLE t 0x1C 4
  ctlA := Ctl.of16 (fieldLE t 0x20 2)
  ctlB := Ctl.of16 (fieldLE t 0x22 2)
  ctlC := Ctl.of16 (fieldLE t 0x24 2)
  ctlD := Ctl.of16 (fieldLE t 0x26 2)
  scaleA := base + fieldLE t 0x28 4
  scaleB := base + fieldLE t 0x2C 4
  ea := base + fieldLE t 0x30 4
  eb := base + fieldLE t 0x34 4
  anchorOut := if fieldLE t 0x38 4 = 0 then 0 else base + fieldLE t 0x38 4
  records := base + fieldLE t 0x3C 4
  statBase := bitsOf (fieldLE t 0x40 8) 47 0
  reserved := bitsOf (fieldLE t 4 4) 31 20 + bitsOf (fieldLE t 0xD 1) 7 3 + bitsOf (fieldLE t 0x40 8) 63 48
    + ofLE (slice t 0x48 56)
    + ([0x10, 0x14, 0x18, 0x1C, 0x28, 0x2C, 0x30, 0x34, 0x38, 0x3C].foldl (fun n x => n + fieldLE t x 4 / 2 ^ 23) 0)
    + ([0x20, 0x22, 0x24, 0x26].foldl (fun n x => n + fieldLE t x 2 % 2) 0)

/-- Padded to a multiple of 32 (R103). -/
def pad32 (n : Nat) : Nat := (n + 31) / 32 * 32

/-- A transfer descriptor (R172) and, for a collective, its extension (R328). -/
structure XferOp where
  src : Nat
  dst : Nat
  kind : Nat
  srcGlobal : Bool
  dstGlobal : Bool
  kindTop : Nat
  atomic : Nat
  ctlS : Ctl
  ctlD : Ctl
  rowBytes : Nat
  rows : Nat
  srcStride : Int
  dstStride : Int
  idxStep : Int
  statBase : Nat
  scaleAddr : Nat
  reserved : Nat
  ext : List Byte
  deriving DecidableEq, Repr

def XferOp.of (t : List Byte) : XferOp where
  src := fieldLE t 0 8
  dst := fieldLE t 8 8
  kind := bitsOf (fieldLE t 0x10 1) 3 0
  srcGlobal := bitOf (fieldLE t 0x10 1) 4
  dstGlobal := bitOf (fieldLE t 0x10 1) 5
  kindTop := bitsOf (fieldLE t 0x10 1) 7 6
  atomic := fieldLE t 0x11 1
  ctlS := Ctl.of16 (fieldLE t 0x12 2)
  ctlD := Ctl.of16 (fieldLE t 0x14 2)
  rowBytes := fieldLE t 0x18 4
  rows := fieldLE t 0x1C 4
  srcStride := signedOf 32 (fieldLE t 0x20 4)
  dstStride := signedOf 32 (fieldLE t 0x24 4)
  idxStep := signedOf 32 (fieldLE t 0x28 4)
  statBase := bitsOf (fieldLE t 0x30 8) 47 0
  scaleAddr := bitsOf (fieldLE t 0x38 8) 47 0
  reserved := fieldLE t 0x16 2 + fieldLE t 0x2C 4 + bitsOf (fieldLE t 0x30 8) 63 48
    + bitsOf (fieldLE t 0x38 8) 63 48 + fieldLE t 0x12 2 % 2 + fieldLE t 0x14 2 % 2
  ext := slice t 0x40 64

/-- The atomic byte of R172: operation, width in bytes, signed. -/
def atomicOp (b : Nat) : Nat := bitsOf b 3 0
def atomicWidth (b : Nat) : Nat := if bitOf b 4 then 8 else 4
def atomicSigned (b : Nat) : Bool := bitOf b 5

/-- A stencil descriptor (R257). -/
structure StencilOp where
  chain : Chain
  statBase : Nat
  a : Opnd
  b : Opnd
  c : Opnd
  d : Opnd
  nx : Nat
  ny : Nat
  nz : Nat
  inRow : Nat
  inPlane : Nat
  ox : Nat
  oy : Nat
  oz : Nat
  ex : Nat
  ey : Nat
  ez : Nat
  outRow : Nat
  outPlane : Nat
  table : Nat
  terms : Nat
  boundary : Nat
  reserved : Nat
  deriving DecidableEq, Repr

def StencilOp.of (t : List Byte) : StencilOp where
  chain := Chain.of (fieldLE t 0 8)
  statBase := bitsOf (fieldLE t 8 8) 47 0
  a := Opnd.ofMarrow (slice t 0x10 24)
  b := Opnd.ofMarrow (slice t 0x28 24)
  c := Opnd.ofMarrow (slice t 0x40 24)
  d := Opnd.ofMarrow (slice t 0x58 24)
  nx := fieldLE t 0x70 4
  ny := fieldLE t 0x74 4
  nz := fieldLE t 0x78 4
  inRow := fieldLE t 0x80 8
  inPlane := fieldLE t 0x88 8
  ox := fieldLE t 0x90 4
  oy := fieldLE t 0x94 4
  oz := fieldLE t 0x98 4
  ex := fieldLE t 0x9C 4
  ey := fieldLE t 0xA0 4
  ez := fieldLE t 0xA4 4
  outRow := fieldLE t 0xA8 8
  outPlane := fieldLE t 0xB0 8
  table := fieldLE t 0xB8 4
  terms := fieldLE t 0xBC 1
  boundary := bitsOf (fieldLE t 0xBD 1) 1 0
  reserved := bitsOf (fieldLE t 8 8) 63 48 + fieldLE t 0x7C 4 + bitsOf (fieldLE t 0xBD 1) 7 2 + fieldLE t 0xBE 2

/-- A reduction descriptor (R265). -/
structure ReduceOp where
  fn : Nat
  mode : Nat
  count : Nat
  a : Opnd
  b : Opnd
  anchor : Nat
  d : Opnd
  reserved : Nat
  deriving DecidableEq, Repr

def ReduceOp.of (t : List Byte) : ReduceOp where
  fn := fieldLE t 0 1
  mode := fieldLE t 1 1
  count := fieldLE t 8 8
  a := Opnd.ofMarrow (slice t 0x10 24)
  b := Opnd.ofMarrow (slice t 0x28 24)
  anchor := bitsOf (fieldLE t 0x40 8) 47 0
  d := Opnd.ofMarrow (slice t 0x48 24)
  reserved := fieldLE t 2 6 + bitsOf (fieldLE t 0x40 8) 63 48

/-- A gather or scatter descriptor (R269). -/
structure IndexOp where
  kind : Nat
  esize : Nat
  wide : Bool
  skipNeg : Bool
  atomic : Nat
  ctl : Ctl
  count : Nat
  index : Nat
  base : Nat
  limit : Nat
  dense : Opnd
  rank : Nat
  statBase : Nat
  reserved : Nat
  deriving DecidableEq, Repr

def IndexOp.of (t : List Byte) : IndexOp where
  kind := fieldLE t 0 1
  esize := 4 * 2 ^ bitsOf (fieldLE t 1 1) 1 0
  wide := bitOf (fieldLE t 1 1) 2
  skipNeg := bitOf (fieldLE t 1 1) 3
  atomic := fieldLE t 2 1
  ctl := Ctl.of16 (fieldLE t 4 2)
  count := fieldLE t 8 8
  index := bitsOf (fieldLE t 0x10 8) 47 0
  base := bitsOf (fieldLE t 0x18 8) 47 0
  limit := fieldLE t 0x20 8
  dense := Opnd.ofMarrow (slice t 0x28 24)
  rank := bitsOf (fieldLE t 0x40 8) 47 0
  statBase := bitsOf (fieldLE t 0x48 8) 47 0
  reserved := bitsOf (fieldLE t 1 1) 7 4 + fieldLE t 3 1 + fieldLE t 6 2 + fieldLE t 4 2 % 2
    + bitsOf (fieldLE t 0x10 8) 63 48 + bitsOf (fieldLE t 0x18 8) 63 48 + bitsOf (fieldLE t 0x40 8) 63 48
    + bitsOf (fieldLE t 0x48 8) 63 48 + ofLE (slice t 0x50 16)

/-- A tile op descriptor (R272). -/
structure TileOp where
  kind : Nat
  first : Nat
  dst : Nat
  count : Nat
  reserved : Nat
  deriving DecidableEq, Repr

def TileOp.of (t : List Byte) : TileOp where
  kind := fieldLE t 0 1
  first := fieldLE t 8 8
  dst := fieldLE t 0x10 8
  count := fieldLE t 0x18 8
  reserved := fieldLE t 1 7

end Machine
end Sys2Proof
end

