-- ==== Sys2Proof/Config.lean ====
section
/-! DEFINITION. What the spec leaves to the part or leaves open: opaque constants (nothing can be proved of their
values), and the cryptographic functions that the spec names by their standards. -/
namespace Sys2Proof

/-- Silicon stepping, "per part" (R392, R499). -/
opaque Config.stepping : BitVec 8

/-- The running firmware's version (R392): major, minor, build. -/
opaque Config.fwVersion : BitVec 32

/-- The 16-byte serial number (R440, R453) and the 16 bytes of the ordering code that DEV_IDENTIFY returns (R404). -/
opaque Config.serial : BitVec 128
opaque Config.orderingCode : BitVec 128

/-- The host NQN, derived from the serial number (R418). -/
opaque Config.hostNqn : List Byte

/-- Umaler's JEDEC manufacturer code (R499). -/
opaque Config.jedec : BitVec 11

/-- The entries of the region guard table that firmware keeps in the internal register range: address and length (R31). -/
opaque Config.guards : List (Nat × Nat)

/-- Boot ROM version (R450). -/
opaque Config.bootRom : BitVec 32

/-- The DER certificates of R445, by index 0 to 5. -/
opaque Config.certificate : Nat → List Byte

/-- Umaler's public keys in the layout of an owner key set (R446), used for firmware images and D3 grants. -/
opaque Config.umalerKeys : List Byte

/-- SHA-384 (R435). -/
opaque Config.sha384 : List Byte → BitVec 384

/-- Whether an RSASSA-PSS signature verifies (R435): keys in the layout of R446 (exponent, modulus, SLH-DSA key), the
message and the 384-byte signature. -/
opaque Config.rsaVerifies : List Byte → List Byte → List Byte → Bool

/-- Whether an SLH-DSA signature verifies (R435): keys, message, signature. -/
opaque Config.slhVerifies : List Byte → List Byte → List Byte → Bool

/-- The device's own signatures over a message (R448, R449). -/
opaque Config.rsaSign : List Byte → BitVec 3072
opaque Config.slhSign : List Byte → List Byte

/-- Which of the results within the bound of R143 a special function gives: function, working format and input bits. -/
opaque Config.sfuValue : Nat → Nat → Nat → Int

/-- Where firmware lays a segment's share in a stack's own space, in 64 KiB granules: base() of R210, by segment and stack. -/
opaque Config.segBase : Nat → Nat → Nat

/-- Where firmware would lay a body that the image leaves to it (R181, R182), by block and image digest. -/
opaque Config.bodyPlace : Nat → Nat → Nat

/-- The quality and identity of the device's own PTP clock, which the spec does not give (R36). -/
opaque Config.ptpQuality : Nat
opaque Config.ptpIdentity : Nat

/-- Cycles that an op of a list spends in a wait which the spec counts and does not compute (R180, R276): list, counter, op. -/
opaque Config.stallCycles : Nat → Nat → Nat → Nat

/-- The E8M0 scale of a block of a scaled operand C, for which no descriptor names a place (R103, R173): by C's address and
block. -/
opaque Config.scaleC : Nat → Nat → BitVec 8

/-- A fresh 256-bit value: the nonce of R453 and every other value the spec leaves open, keyed by a counter. -/
opaque Config.freeValue : Nat → BitVec 256

/-- Of n candidates the spec does not order, which one is named (R110), keyed by a counter. -/
opaque Config.freeChoice : Nat → Nat → Nat

end Sys2Proof
end

