-- ==== Sys2Proof/Machine/State.lean ====
section
/-! DEFINITION. The state of the block as plain data, its reset value, and the reasons a command can stop. Registers
that the spec lays out at an address all live in `State.regs`; everything else the spec gives the device has a field
of its own. -/
namespace Sys2Proof.Machine

/-- A table by number in one canonical form: numbers strictly rising, no entry at the default value. Read and written
by the operations of Machine/Tab.lean. -/
abbrev Tab (α : Type) := List (Nat × α)

/-- A tile's tag (R164, R225, R242). -/
structure Tag where
  crc : Word32
  isSealed : Bool
  stamped : Bool
  /-- producer as a list id (R407 numbering) and record index -/
  producer : ListId
  index : Nat
  /-- low 32 bits of the producer's step index -/
  step : Word32
  deriving DecidableEq, Repr

/-- The tag of a tile nothing has sealed or stamped. -/
def Tag.none : Tag := ⟨0, false, false, 0, 0, 0⟩

/-- The four counters of R94 and the two counts of R176. -/
structure Counters where
  saturated : Nat
  flushed : Nat
  nan : Nat
  inexact : Nat
  truncated : Nat
  overflowed : Nat
  deriving DecidableEq, Repr

def Counters.zero : Counters := ⟨0, 0, 0, 0, 0, 0⟩

/-- Who waits for a queue entry, a write or a request to finish. -/
inductive Origin where
  /-- an op in flight of this device -/
  | op (id : Nat)
  /-- a transaction of a peer: source device, sequence number, source stream -/
  | remote (src seq stream : Nat)
  /-- the host path (BAR2, BAR4) -/
  | host
  /-- the plant framer -/
  | framer
  /-- a queue engine's write to a queue body -/
  | queue
  /-- firmware and the service cores -/
  | firmware
  deriving DecidableEq, Repr

/-- Where a request of a transfer op goes (R174). -/
inductive ReqPath where
  | memory | hostRead | hostWrite | remote (tx : Tx)
  deriving DecidableEq, Repr

/-- One request of a transfer op: at most 512 bytes, none crossing a 4 KiB boundary (R174). -/
structure Request where
  num : Nat
  path : ReqPath
  /-- device-local or global address and length -/
  addr : Nat
  len : Nat
  data : List Byte
  /-- it holds a tag and has been sent (R175) -/
  sent : Bool
  deriving DecidableEq, Repr

/-- What an op in flight still has to do once its data has come (remote and host reads). -/
inductive Pending where
  /-- nothing: its outputs are written -/
  | done
  /-- a transfer whose source data is still arriving: the whole descriptor, kept as issued (source displaced) -/
  | transfer (desc : List Byte) (src dst : Nat)
  /-- a remote atomic waiting for its old value, to be written at the address given -/
  | atomic (at_ : Nat) (width : Nat)
  /-- an enqueue waiting for its packets to land -/
  | enqueue
  /-- a remote enqueue: packet entries kept until the credit is granted; `asked` once its request has been made -/
  | credit (queue : Nat) (home : Nat) (entries : List (List Byte)) (asked : Bool)
  /-- a dequeue: home where remote, destination, entries, entries already written -/
  | dequeue (queue : Nat) (home : Option Nat) (dst n : Nat) (got : List Nat)
  /-- whole tiles to seal and the digest to take once every write has been performed -/
  | sealing (addr len : Nat)
  /-- a collective waiting for contributions or for its result -/
  | collective (group : Nat) (inst : Nat)
  deriving DecidableEq, Repr

/-- An op that its sequencer has issued and that has not completed (R153, R176). -/
structure InFlight where
  id : Nat
  list : ListId
  index : Nat
  record : OpRecord
  status : Nat
  flags : Nat
  cnt : Counters
  /-- issue time, ns after the step's tick -/
  issue : Nat
  digest : Word64
  fault : Nat
  requests : List Request
  /-- data that requests have brought, by request number -/
  got : Tab (List Byte)
  /-- tile CRCs that replies of those requests carried (R315) -/
  crcs : Tab Word32
  pending : Pending
  /-- input fingerprint and replayability of R229 -/
  fingerprint : Word64
  replayable : Bool
  /-- verifications of these tiles failed and their reload has not come back (R228); the op has not run -/
  reloading : List Nat
  /-- those of them whose reload failed too, and that wait for their producer's replay -/
  replaying : List Nat
  /-- issued and not started: an older op of its engine still runs (R153, R250) -/
  queued : Bool
  /-- the completion record has been handed to its slot -/
  recorded : Bool
  /-- the index register's value at issue (R168); for SETVL the request, then the grant (R129) -/
  idx : Nat
  deriving DecidableEq, Repr

/-- A replay log entry (R229). -/
structure Replay where
  fingerprint : Word64
  ok : Bool
  record : OpRecord
  /-- the index that displaced its addresses (R168) -/
  idx : Nat
  deriving DecidableEq, Repr

/-- A tick record in progress (R50). -/
structure TickRec where
  number : Nat
  time : Nat
  completion : Nat
  flags : Nat
  late : Nat
  warning : Nat
  excursions : Nat
  landed : Nat
  dropped : Nat
  actSent : Nat
  actLate : Nat
  refresh : Nat
  replays : Nat
  slow : Nat
  deriving DecidableEq, Repr

def TickRec.zero : TickRec := ⟨0, 0, 0xFFFFFFFF, 0, 0, 0, 0, 0, 0, 0, 0, 0, 0, 0⟩

/-- The tick machine (R42 to R56, R161, R457). -/
structure TickSt where
  /-- number of the next tick to fire -/
  next : Nat
  /-- a step is in progress, and the number and time of the tick it started at -/
  stepRunning : Bool
  stepTick : Nat
  stepTime : Nat
  /-- the overrun point of the running tick has passed -/
  pointPassed : Bool
  /-- policy to apply at the next tick: 0 complete-and-skip, 1 abort-step -/
  overrun : Option Nat
  /-- a rerun waits for restoration -/
  rerun : Bool
  /-- tick at whose boundary the tick stops -/
  stopAt : Option Nat
  /-- ticks named by STEP_HALT (true) and STEP_RESUME (false), in command order -/
  marks : List (Nat × Bool)
  halted : Bool
  /-- the job-stopped state and the device whose fault began it (R161) -/
  stopped : Option Nat
  /-- base of the step index set by a restore (R195, R382) -/
  record : TickRec
  /-- the last record written -/
  newest : TickRec
  deriving DecidableEq, Repr

def TickSt.zero : TickSt :=
  ⟨0, false, 0, 0, false, none, false, none, [], false, none, TickRec.zero, TickRec.zero⟩

/-- A plant stream (R63, R65, R72): the 64-byte body of STREAM_ADD by field, its last sequence number and its five
counters. -/
structure Stream where
  type : Nat
  flags : Nat
  queue : Nat
  offset : Nat
  udpPort : Nat
  ip : Nat
  /-- last sequence number landed or sent, if any -/
  last : Option Nat
  /-- tick of the step whose one frame has been taken (R65) -/
  taken : Option Nat
  c0 : Nat
  c1 : Nat
  c2 : Nat
  c3 : Nat
  c4 : Nat
  deriving DecidableEq, Repr

/-- A peer entry (R327). -/
structure Peer where
  gdn : Nat
  collective : Bool
  queue : Bool
  deriving DecidableEq, Repr

/-- A change held for its effective tick (R69). -/
inductive Change where
  | streamAdd (id : Nat) (st : Stream)
  | streamRemove (id : Nat)
  | peerAdd (ps : List Peer)
  | peerRemove (gdns : List Nat)
  | groupSet (id : Nat) (members : List Nat)
  deriving DecidableEq, Repr

/-- A slow notice in force (R57, R58). -/
structure Slow where
  src : Nat
  factor : Nat
  cause : Nat
  expiry : Nat
  deriving DecidableEq, Repr

/-- A slowdown of this device: cause and delay factor (R57). `unit` names the stack of a thermal step, or the failed unit of an
absorption, whose end is known: a device time. -/
structure OwnSlow where
  cause : Nat
  unit : Nat
  factor : Nat
  ends : Option Nat
  deriving DecidableEq, Repr

/-- The time base beside its registers (R36 to R41, R72, R489). -/
structure TimeSt where
  /-- consecutive sync intervals or pulses with the offset within ±20 ns -/
  good : Nat
  offset : Int
  holdoverStart : Nat
  /-- global device number of the lead followed -/
  lead : Option Nat
  /-- device time at which a lower lead's time last reached this device (R38) -/
  lowerLead : Option Nat
  ptpRole : Nat
  ptpProfile : Nat
  ptpDomain : Nat
  ptpPorts : Nat
  ptpLogSync : Nat
  ptpPriority1 : Nat
  ptpPriority2 : Nat
  /-- the best clock announced, and the Ethernet port on which it was (R36) -/
  best : Option (Nat × PtpRank)
  /-- frequency correction in parts per 10^9, at most 50,000 either way (R40) -/
  rate : Int
  /-- what the steering has gathered short of a whole nanosecond, in units of 10⁻⁹ ns -/
  phase : Int
  deriving DecidableEq, Repr

def TimeSt.zero : TimeSt := ⟨0, 0, 0, none, none, 0, 0, 0, 0, 0, 0, 0, none, 0, 0⟩

/-- A queue definition (R278). -/
structure QDef where
  home : Nat
  pin : Bool
  log2cap : Nat
  threshold : Nat
  body : Nat
  producer : Nat
  consumer : Nat
  prodCtl : Nat
  landCtl : Nat
  landConv : Nat
  statBase : Nat
  /-- where the queue's 64-byte state record lies in its stack's state area -/
  stateAddr : Nat
  deriving DecidableEq, Repr

/-- A packet reserved and not wholly released (R285, R286). Positions are landing entries; `arrived` holds the
producer entries that have reached the home, by their place in the packet. -/
structure Packet where
  start : Nat
  size : Nat
  prod : Nat
  arrived : Tab (List Byte)
  /-- offsets in the packet of the landed entries -/
  landed : List Nat
  origin : Origin
  deriving DecidableEq, Repr

/-- A reservation waiting at the home for room, a tracker or a slot (R284, R285, R287, R290). -/
structure Reservation where
  size : Nat
  prod : Nat
  entries : List (List Byte)
  origin : Origin
  /-- device time at which it came -/
  since : Nat
  /-- ns that it has lacked room, and since when it lacks it (R297) -/
  room : Nat
  roomSince : Option Nat
  deriving DecidableEq, Repr

/-- A reservation as it comes. -/
def Reservation.of (size prod : Nat) (entries : List (List Byte)) (origin : Origin) (since : Nat) : Reservation :=
  ⟨size, prod, entries, origin, since, 0, none⟩

/-- A dequeue that has claimed entries and not completed (R292). -/
structure Dequeue where
  first : Nat
  n : Nat
  read : List Nat
  origin : Origin
  deriving DecidableEq, Repr

/-- The positions of a queue (R281). -/
structure Pos where
  p : Nat
  l : Nat
  c : Nat
  f : Nat
  deriving DecidableEq, Repr

/-- An actuation frame that lies whole in its queue (R65, R294): its entries, the tick and tick time of the step that
enqueued it, and the device time at which it had landed. -/
structure ActFrame where
  start : Nat
  size : Nat
  step : Nat
  stepTime : Nat
  time : Nat
  deriving DecidableEq, Repr

/-- The engine's state of one defined queue (R281 to R296). -/
structure Queue where
  pos : Pos
  /-- L and F as latched at the last tick (measurement queues, R64, R295) -/
  latL : Nat
  latF : Nat
  /-- L as latched for the running step, which reads no later one (R52, R64) -/
  seenL : Nat
  /-- positions and window at the running step's tick (R296) -/
  tickPos : Pos
  tickWin : Tab (List Byte)
  packets : List Packet
  waiting : List Reservation
  deqs : List Dequeue
  resident : Bool
  /-- a window fetch is under way -/
  fetching : Bool
  /-- entries held in the slot's windows and not in the body, by position -/
  win : Tab (List Byte)
  /-- positions of the tail window: the newest landed entries, oldest first (R283) -/
  tail : List Nat
  /-- entries of the head window read from the body, by position (R283) -/
  head : Tab (List Byte)
  /-- device time since which an access waits for a slot (R284) -/
  slotSince : Option Nat
  /-- capture write-back of a checkpoint not yet done (R367) -/
  writeback : Bool
  /-- frames of an actuation queue that the framer has not taken -/
  frames : List ActFrame
  deriving DecidableEq, Repr

def Pos.zero : Pos := ⟨0, 0, 0, 0⟩
def Queue.empty : Queue := ⟨Pos.zero, 0, 0, 0, Pos.zero, [], [], [], [], false, false, [], [], [], none, false, []⟩

/-- A write waiting for a granule copy (R54, R369): the copies still to come, in order. -/
structure WaitWrite where
  granule : Nat
  addr : Nat
  data : List Byte
  /-- the tag that a write of the whole tile gives it -/
  tag : Option Tag
  /-- the writer -/
  origin : Origin
  /-- device time since which it has waited for room in a full reserve share (R370) -/
  since : Option Nat
  deriving DecidableEq, Repr

/-- The image of one 64 KiB granule: its non-zero bytes and its tags. -/
structure Image where
  cells : List Host.Cell
  tags : Tab Tag
  deriving DecidableEq, Repr

/-- A step undo copy (R54): `done` once the copy has completed. -/
structure Undo where
  image : Image
  done : Bool
  deriving DecidableEq, Repr

/-- A granule of the current checkpoint (R368). Granules of the checkpoint that are not listed are copied. -/
inductive Gran where
  | pending
  | saving (image : Image)
  | saved (image : Image)
  deriving DecidableEq, Repr

/-- A checkpoint slot on the module (R373 to R375). -/
structure Slot where
  committed : Bool
  gen : Nat
  captureTick : Nat
  stepIndex : Nat
  captureTime : Nat
  /-- while the slot is written: piece data by granule, and the context record -/
  data : Tab Image
  context : List Byte
  /-- commit record, data and tag streams, and manifest as they lie on the module -/
  commit : List Byte
  shard : List Byte
  manifest : List Byte
  deriving DecidableEq, Repr

def Slot.empty : Slot := ⟨false, 0, 0, 0, 0, [], [], [], [], []⟩

/-- A piece of the logical coordinate table (R362). -/
structure Piece where
  raw : List Byte
  base : Nat
  span : Nat
  deriving DecidableEq, Repr

/-- Checkpoint state beside the registers (R366 to R382). -/
structure Ckpt where
  /-- generation and capture tick named by CKP_START -/
  gen : Nat
  tick : Nat
  grans : Tab Gran
  slotA : Slot
  slotB : Slot
  /-- target slot whose commit record is zeroed and whose records are being written -/
  writing : Option Nat
  exporting : Option Nat
  modulePresent : Bool
  deriving DecidableEq, Repr

def Ckpt.zero : Ckpt := ⟨0, 0, [], Slot.empty, Slot.empty, none, none, false⟩

/-- A request of this device to a peer, not yet acknowledged (R316, R320, R321). -/
structure OutReq where
  dst : Nat
  seq : Nat
  tx : Tx
  /-- op and request number it serves -/
  op : Nat
  req : Nat
  resends : Nat
  deadline : Nat
  /-- not yet sent: waits for its turn under a congestion notice or for a place among 1,024 -/
  waiting : Bool
  deriving DecidableEq, Repr

/-- A receive record (R320). -/
structure RxRec where
  low : Nat
  /-- performed sequence numbers above `low` -/
  above : List Nat
  deriving DecidableEq, Repr

/-- A Leek journal entry (R346). -/
structure Leek where
  src : Nat
  stream : Nat
  seq : Nat
  old : Nat
  addr : Nat
  opByte : Nat
  ranked : Bool
  time : Nat
  deriving DecidableEq, Repr

/-- A Cress entry (R343): reads of one address and length, or atomics of one address and operation. -/
structure Cress where
  line : Nat
  members : List Tx
  opened : Nat
  deriving DecidableEq, Repr

/-- Requests being served together at this home (R336, R344): one, or the members of a closed Cress entry. `lines` are
the lines whose commit queue they have not left; `data` is what a read has found, by line. -/
structure Serve where
  id : Nat
  members : List Tx
  lines : List Nat
  data : Tab (List Byte)
  /-- device time at which it came -/
  since : Nat
  deriving DecidableEq, Repr

/-- A float-add atomic waiting for its rank (R198). -/
structure RankWait where
  addr : Nat
  rank : Nat
  origin : Origin
  operand : Nat
  opByte : Nat
  /-- where the old value goes for a local transfer; 0 for an atomic scatter, which returns none (R271) -/
  oldAt : Nat
  since : Nat
  deriving DecidableEq, Repr

/-- A credit granted to a remote producer (R290). -/
structure Credit where
  queue : Nat
  src : Nat
  seq : Nat
  start : Nat
  size : Nat
  deriving DecidableEq, Repr

/-- A congestion notice held from a home (R340). -/
structure Congest where
  home : Nat
  gap : Nat
  expiry : Nat
  /-- device time at which the last request to the home left -/
  last : Nat
  deriving DecidableEq, Repr

/-- A cross-pod route entry (R335). -/
structure Route where
  pod : Nat
  gw1 : Option (Nat × Nat)
  gw2 : Option (Nat × Nat)
  deriving DecidableEq, Repr

/-- A collective in progress at this member (R329, R330). -/
structure Coll where
  group : Nat
  inst : Nat
  kind : Nat
  oper : Nat
  fmt : Nat
  sgn : Bool
  count : Nat
  root : Nat
  /-- op in flight, and the destination -/
  op : Nat
  dst : Nat
  rnd : Nat
  /-- whole contributions in the order in which they became whole: rank and data -/
  parts : List (Nat × List Byte)
  /-- pieces of contributions not yet whole, and of the result -/
  chunks : List Tx
  deriving DecidableEq, Repr

/-- A launch broadcast at this node (R355 to R359). -/
structure Launch where
  mbx : Nat
  rank : Nat
  parent : Option Nat
  grandparent : Option Nat
  children : List Nat
  length : Nat
  dest : Nat
  sha : List Byte
  held : Nat
  /-- next chunk to send, by child -/
  next : Tab Nat
  /-- bytes of the chunk being received, as written so far -/
  gotBytes : Nat
  done : Nat
  failed : Nat
  /-- children that have sent done -/
  finished : List Nat
  ended : Bool
  refused : List Nat
  reattaching : Bool
  doneSent : Bool
  lastHeard : Nat
  deriving DecidableEq, Repr

/-- The link state of a port beside its registers (R300, R305, R307). -/
structure Port where
  expect : Nat
  txSeq : Nat
  unacked : List (Nat × List Byte)
  consecutive : Nat
  lanesLost : List Nat
  /-- lane under a planned test (R472) -/
  testing : Option Nat
  /-- it retrains onto other lanes and carries nothing meanwhile (R307) -/
  retraining : Bool
  /-- transactions that wait for the port or for room in its replay buffer (R305, R307) -/
  backlog : List Tx
  /-- slots sent by virtual channel whose credits have not come back, and credits to return: channel and slots (R303, R306) -/
  used : Tab Nat
  owed : List (Nat × Nat)
  /-- the channels of 0 to 7 and of 8 to 15 served last (R306) -/
  turnLow : Nat
  turnHigh : Nat
  deriving DecidableEq, Repr

def Port.zero : Port := ⟨0, 0, [], 0, [], none, false, [], [], [], 0, 0⟩

/-- The fabric beside its registers. -/
structure Fabric where
  peers : Tab Peer
  groups : Tab (List Nat)
  waitDeadline : Nat
  routes : List Route
  /-- announced state × 16 + lanes of port p of device g, keyed g × 64 + p (R312) -/
  announced : Tab Nat
  ports : Tab Port
  /-- slots whose traffic runs on the spare port (R300) -/
  spareUsed : List Nat
  /-- the route in use to a device, as (device, port it leaves by) (R312) -/
  chosen : Tab (List (Nat × Nat))
  seqNext : Tab Nat
  out : List OutReq
  rx : Tab RxRec
  leek : List Leek
  /-- atomics that wait for journal space, and since when (R347) -/
  leekWait : List (Nat × Tx)
  cress : List Cress
  /-- commit queues: what waits at a line, by the numbers of `serving`, oldest first (R336) -/
  commit : Tab (List Nat)
  /-- device time until which a line is committing -/
  busy : Tab Nat
  serving : List Serve
  nextServe : Nat
  /-- requests that have arrived and may not start yet: no tag is free, their core's store moves, or an earlier request of
  their stream goes first; with the time they came (R20, R175, R318) -/
  held : List (Nat × Tx)
  /-- entries returned to remote dequeues, kept for a repeated request: source, sequence number, entries (R320) -/
  deqKept : List (Nat × Nat × List (List Byte))
  /-- holders (global device numbers) whose acknowledgement a write to a line awaits, by line (R325) -/
  invalWait : Tab (List Nat)
  /-- home directory: presence vector by line (R325) -/
  directory : Tab Nat
  /-- remote-line cache, most recently used first: line address and data (R324) -/
  rlc : List (Nat × List Byte)
  rankNext : Tab Nat
  rankWait : List RankWait
  credits : List Credit
  congestIn : List Congest
  /-- device time of the last congestion notice by source, with a gap above 0 (R339) -/
  congestOut : Tab Nat
  /-- lines that have held more than 64 requests and not fallen to 16 since (R339) -/
  congestLines : List Nat
  lost : List Nat
  instances : Tab Nat
  tickInstances : Tab Nat
  colls : List Coll
  /-- contributions that came before this member's own op: group, instance, transaction -/
  early : List (Nat × Nat × Tx)
  launches : Tab Launch
  deriving DecidableEq, Repr

def Fabric.zero : Fabric where
  peers := []
  groups := []
  waitDeadline := 0
  routes := []
  announced := []
  ports := []
  spareUsed := []
  chosen := []
  seqNext := []
  out := []
  rx := []
  leek := []
  leekWait := []
  cress := []
  commit := []
  busy := []
  serving := []
  nextServe := 0
  held := []
  deqKept := []
  invalWait := []
  directory := []
  rlc := []
  rankNext := []
  rankWait := []
  credits := []
  congestIn := []
  congestOut := []
  congestLines := []
  lost := []
  instances := []
  tickInstances := []
  colls := []
  early := []
  launches := []

/-- Row repair, page retirement and thermal state of the stacks (R231 to R238, R472). -/
structure Memory where
  /-- region guard table: base and length (R31) -/
  guards : List (Nat × Nat)
  /-- single-stack segments: segment ↦ stack + 1; the rest are interleaved (R210) -/
  segStack : Tab Nat
  /-- soft-repaired rows: stack, channel, pseudo-channel, row (R232) -/
  remapped : List (Nat × Nat × Nat × Nat)
  /-- rows marked for hard repair -/
  hardPending : List (Nat × Nat × Nat × Nat)
  /-- pages migrating to the pool: stack, channel, page (R233) -/
  pageMig : List (Nat × Nat × Nat)
  retired : List (Nat × Nat × Nat)
  /-- channels migrating out (R234) and those that could not be (R235) -/
  chanMig : List (Nat × Nat)
  chanStuck : List (Nat × Nat)
  pageTest : List (Nat × Nat × Nat)
  /-- pages of each stack's own reserve slices that are in use (R208, R233) -/
  used : Tab Nat
  /-- since when a stack has been 3 °C below its step's threshold, plus 1 (R238) -/
  coolSince : Tab Nat
  /-- step undo copies of the running step, by granule (R54) -/
  undo : Tab Undo
  undoFull : Bool
  waits : List WaitWrite
  /-- lines (address div 64) with an uncorrectable error that nothing has rewritten, and the channel, pseudo-channel and
  row they lie in (R223, R231) -/
  bad : List (Nat × Nat × Nat × Nat)
  /-- ops in flight and tiles that they have begun to write piece by piece (R226) -/
  begun : List (Nat × Nat)
  /-- those of them that another writer has reached since (R226) -/
  spoiled : List (Nat × Nat)
  /-- what a peer's stream found at the first line of a tile that it reads: source, stream, tile, CRC if sealed then and not
  written since (R227) -/
  reading : List (Nat × Nat × Nat × Option Word32)
  deriving DecidableEq, Repr

def Memory.zero : Memory := ⟨[], [], [], [], [], [], [], [], [], [], [], [], false, [], [], [], [], []⟩

/-- Per-core and per-list state beside the register pages (R127 to R130, R153, R167, R175, R177). -/
structure Cores where
  /-- vector registers keyed core × 32 + i -/
  vregs : Tab VReg
  /-- mask registers keyed core × 8 + i; m0 is never stored -/
  mregs : Tab MReg
  vl : Tab Nat
  lists : Tab (List OpRecord)
  /-- first record of the run in the op buffer, by list -/
  bufFirst : Tab Nat
  /-- lists whose refetch is under way -/
  refetching : List ListId
  /-- completion slots first written in this step: list and slot -/
  firstDone : List (ListId × Nat)
  /-- replay log keyed list × 65,536 + slot -/
  replay : Tab Replay
  /-- phase bitmap of PHASE_DONE records passed, by list -/
  passed : Tab Nat
  inflight : List InFlight
  nextId : Nat
  /-- transfer unit the next freed tag is offered to first (R175) -/
  tagTurn : Nat
  deriving DecidableEq, Repr

def Cores.zero : Cores := ⟨[], [], [], [], [], [], [], [], [], [], 0, 0⟩

/-- A tensor declaration (R185). -/
structure Tensor where
  scaleMode : Nat
  storage : Nat
  fmt : Nat
  sgn : Bool
  id : Nat
  origin : Nat
  base : Nat
  held : Nat
  first : Nat
  cores : Nat
  q : Nat
  scaleBase : Nat
  bitmapBase : Nat
  deriving DecidableEq, Repr

/-- What the device keeps of the admitted image (R181 to R185, R362). -/
structure Job where
  digest : List Byte
  abortStep : Bool
  signed : Bool
  undoPerStack : Nat
  cbwPerStack : Nat
  tickLogBase : Nat
  tickLogN : Nat
  /-- completion arrays: list ↦ (slots, base) -/
  arrays : Tab (Nat × Nat)
  tensors : List Tensor
  pieces : List Piece
  restorable : Bool
  /-- the owner key set bound at admission (R385, R446) -/
  owner : List Byte
  deriving DecidableEq, Repr

/-- A long command running (R400, R402). -/
structure Long where
  mbx : Nat
  code : Nat
  seq : Nat
  irq : Bool
  /-- result reached and waiting for its event (R408) -/
  ended : Option (Nat × Nat)
  /-- its body, and what it has read outside the device -/
  body : List Byte
  ext : List Byte
  deriving DecidableEq, Repr

/-- An event (R407) before it is placed in the ring. -/
structure Event where
  type : Nat
  status : Nat
  source : Nat
  severity : Nat
  seq : Nat
  code : Nat
  tick : Nat
  detail : Nat
  /-- MSI-X vector signalled once the entry is written (R409) -/
  vector : Option Nat
  deriving DecidableEq, Repr

/-- State of one mailbox (R398). -/
inductive Mbx where
  | idle | posted | executing | done
  deriving DecidableEq, Repr

/-- An NVMe/TCP storage target (R419): its body and, for ports 0 and 1, the connection state. -/
structure Target where
  body : List Byte
  conn0 : Nat
  conn1 : Nat
  lastStatus : Nat
  read : Nat
  written : Nat
  deriving DecidableEq, Repr

/-- A posted write of the host: to a register page of BAR0 by name or by offset, to BAR2, or of one producer slot of BAR4. -/
inductive HostWrite where
  | doorbell (mailbox : Nat)
  | page (mailbox offset : Nat) (data : List Byte)
  | doneClear (mask : Nat)
  | evtEnable (value : Nat)
  | evtHead (value : Nat)
  | bar0 (a : Bar0Access)
  | bar2 (offset : Nat) (data : List Byte)
  | slot (offset : Nat) (data : List Byte)
  deriving DecidableEq, Repr

/-- The host interface beside its registers (R386 to R410), network and storage settings (R417, R419). -/
structure HostIf where
  mbx : Tab Mbx
  /-- mailbox page bytes keyed mailbox × 4,096 + offset -/
  pages : Tab Byte
  /-- posted mailboxes in doorbell order -/
  order : List Nat
  longs : List Long
  held : List Event
  /-- bytes of kept remote responses, by mailbox (R403), with the datagram that caused them -/
  remoteKept : Tab (List Byte × List Byte)
  /-- sender of the request being served on a remote mailbox: address and port -/
  remoteFrom : Tab (Nat × Nat)
  /-- last counter accepted, keyed key × 64 + mailbox, plus 1 (R451) -/
  remoteCount : Tab Nat
  linkUp : Bool
  busMaster : Bool
  d3hot : Bool
  bar2Gib : Nat
  msixOn : Bool
  /-- MSI-X table words keyed by byte offset div 4, and pending bits by vector -/
  msixTable : Tab Word32
  msixPending : List Nat
  /-- device time of the last HOST_ACCESS event, plus 1 (R393) -/
  lastHostEvent : Nat
  /-- NET_CONFIG body (R417) -/
  net : List Byte
  targets : Tab Target
  ipFragments : Nat
  /-- device time at which the last actuation frame of an Ethernet port ends (R66) -/
  macEnd : Tab Nat
  /-- posted writes of the host that wait behind a held one, oldest first (R291) -/
  posted : List HostWrite
  deriving DecidableEq, Repr

def HostIf.zero : HostIf := ⟨[], [], [], [], [], [], [], [], false, false, false, 1, false, [], [], 0, [], [], 0, [], []⟩

/-- A step the power manager can take down (R429). -/
inductive DownStep where
  /-- lowered these dies by 50 MHz -/
  | clocks (dies : List Nat)
  | duty
  | bandwidth
  deriving DecidableEq, Repr

/-- The power manager beside its registers (R428 to R432, R487). -/
structure Power where
  /-- duty in sixteenths and bandwidth in tenths that R429 holds -/
  duty : Nat
  bandwidth : Nat
  /-- 50 MHz steps below the ceiling that R429 holds, by die -/
  below : Tab Nat
  downs : List DownStep
  upCount : Nat
  /-- cap and ceiling set by command, in force from the next evaluation -/
  next : Option (Nat × Nat)
  /-- device time at which the fast limit began -/
  fastSince : Option Nat
  brakeLow : Bool
  /-- device time of the brake's release while its hold lasts -/
  brakeHold : Option Nat
  /-- dies whose junction limit is in force (R487) -/
  junction : List Nat
  /-- device time up to which the running intervention has been counted -/
  since : Option Nat
  /-- quarters of a millijoule not yet counted in PWR_ENERGY -/
  quarters : Nat
  deriving DecidableEq, Repr

def Power.zero : Power := ⟨16, 10, [], [], 0, none, none, false, none, [], none, 0⟩

/-- A firmware slot in MRAM (R438, R442). -/
structure FwSlot where
  valid : Bool
  svn : Nat
  image : List Byte
  deriving DecidableEq, Repr

/-- A fault log entry (R477). -/
structure FaultEntry where
  time : Nat
  tick : Nat
  cls : Nat
  unit : Nat
  sub : Nat
  outcome : Nat
  absorb : Nat
  detail : Nat
  deriving DecidableEq, Repr

/-- The MRAM (R438): kept by every reset. -/
structure Mram where
  slotA : FwSlot
  slotB : FwSlot
  active : Nat
  /-- configuration records keyed kind × 2 + copy, and the copy in force by kind -/
  records : Tab (List Byte)
  newest : Tab Nat
  counters : Tab Word32
  /-- retired cores (die × 64 + phys) and failed Marrow engines (stack × 16 + engine) -/
  retiredCores : List Nat
  failedMarrow : List Nat
  faultLog : List FaultEntry
  hardPending : List (Nat × Nat × Nat × Nat)
  deriving DecidableEq, Repr

def FwSlot.empty : FwSlot := ⟨false, 0, []⟩
def Mram.empty : Mram := ⟨FwSlot.empty, FwSlot.empty, 0, [], [], [], [], [], [], []⟩

/-- Security state beside the SEC page (R446 to R456). -/
structure Sec where
  /-- key set in force: bytes 0x004 to 0x1B7 of OWNER_KEY_SET -/
  ownerKeys : Option (List Byte)
  fails : Nat
  /-- device time at which the lockout ends, while it lasts -/
  lockout : Option Nat
  /-- configuration records in force since the boot: header and body by kind (R440, R441) -/
  records : Tab (List Byte)
  /-- large SPDM response being fetched: the bytes and the next chunk (R449) -/
  chunks : List Byte
  chunkNext : Nat
  chunkHandle : Nat
  /-- nonces and messages of signed responses, for VENDOR_DEFINED_REQUEST -/
  signed : List (List Byte × List Byte)
  deriving DecidableEq, Repr

def Sec.zero : Sec := ⟨none, 0, none, [], [], 0, 0, []⟩

/-- The arming of a snapshot (R459). -/
structure SnapArm where
  source : Nat
  propagate : Bool
  event : Nat
  eventSrc : Nat
  match_ : Nat
  id : Nat
  deriving DecidableEq, Repr

/-- The snapshot (R458): the arming, and the latched registers and queue counts. -/
structure Snap where
  arm : Option SnapArm
  held : Bool
  regs : Tab Word64
  counts : Tab Word64
  deriving DecidableEq, Repr

def Snap.zero : Snap := ⟨none, false, [], []⟩

/-- Board pins and sideband (R490 to R499). -/
structure Board where
  standbyGood : Bool
  coldRstLow : Bool
  perstLow : Bool
  modPerstLow : Bool
  pwrOffOk : Bool
  /-- the last boot in progress is a warm boot -/
  warmBoot : Bool
  /-- a release of COLD_RST_N came before VIN12 and the clocks were good (R492) -/
  internalHold : Bool
  vin12Good : Bool
  straps : Straps
  /-- FW_ACTIVATE's warm reset is due at this device time (R425) -/
  warmDue : Option Nat
  i3cAddr : Option Nat
  i3cOffset : Option Nat
  jtag : Nat
  boundary : Nat
  pins : Nat
  deriving DecidableEq, Repr

def Board.zero : Board :=
  ⟨true, false, true, true, false, false, false, true, ⟨0, 3, false⟩, none, none, none, 1, 0, 0⟩

/-- A logical core that migrates (R20): to which physical core of its die, and whether for a fault or for a rotation. -/
structure Migration where
  core : Nat
  target : Nat
  fault : Bool
  deriving DecidableEq, Repr

/-- Online test, sparing and die-to-die links (R24 to R26, R470 to R473). -/
structure Tests where
  /-- ONLINE_TEST_SET value waiting for the next tick boundary -/
  setting : Option Nat
  migrating : List Migration
  /-- physical core out for online test: die × 64 + phys -/
  coreTest : Option Nat
  /-- spares under BIST, the same way -/
  spareTests : List Nat
  /-- Marrow engines out for online test, as stack × 16 + engine -/
  marrowTest : List Nat
  /-- Marrow lists to move at the next tick boundary: to a host before a test, or back to their own engine -/
  marrowOut : List Nat
  marrowReturn : List Nat
  /-- units tested in this cycle, by class (R471, R478) -/
  tested : Tab Nat
  standby : Bool
  /-- repaired lanes keyed link × 16 + module, bitmap of modules out and replays, by link -/
  d2dLanes : Tab Nat
  d2dOut : Tab Nat
  d2dReplays : Tab Nat
  /-- what the running SELF_TEST finds: its bitmaps of faults found and of those that end the device, and units to retire -/
  self : Option (Nat × Nat × List TestUnit)
  deriving DecidableEq, Repr

def Tests.zero : Tests := ⟨none, [], none, [], [], [], [], [], true, [], [], [], none⟩

/-- What the device has sent out: the record of its outward effects (the model's own, not the spec's state). -/
inductive Sent where
  /-- a Swizax transaction, and the port it leaves by -/
  | fabric (p : Nat) (tx : Tx)
  /-- a flit acknowledgement or nak on port p: nak, and the last sequence accepted -/
  | linkAck (p : Nat) (nak : Bool) (seq : Nat)
  /-- unacknowledged flits replayed on port p -/
  | linkReplay (p : Nat) (flits : List (Nat × List Byte))
  /-- a PCIe write to host memory -/
  | hostWrite (addr : Nat) (data : List Byte)
  /-- a PCIe read of host memory -/
  | hostRead (addr : Nat) (len : Nat)
  /-- the completion of a host read: the data, or Completer Abort / Unsupported Request -/
  | hostCompletion (data : List Byte)
  | completerAbort
  | unsupportedRequest
  /-- an AER report of a poisoned TLP -/
  | aer
  | msix (vector : Nat)
  /-- an actuation datagram: stream, Ethernet port, time, destination and source (address and UDP port), and the plant frame -/
  | actuation (stream : Nat) (port : Nat) (time : Nat) (dst src : Nat × Nat) (bytes : List Byte)
  | arpReply (q : NetQuery)
  | ndReply (q : NetQuery)
  | echoReply (q : NetQuery)
  | ptp (p : Nat) (kind : PtpKind) (time : Nat)
  | datagram (ip port : Nat) (bytes : List Byte)
  /-- NVMe/TCP or module command -/
  | keepAlive (target : Nat) (p : Nat)
  | connect (target : Nat) (p : Nat)
  | storageWrite (target : Nat) (ns : Nat) (offset : Nat) (data : List Byte)
  | moduleWrite (slot : Nat) (what : Nat)
  | moduleFlush
  | moduleDeallocate (slot : Nat)
  /-- TIME_PPS_OUT edge -/
  | pps (time : Nat)
  /-- SPDM response -/
  | spdm (bytes : List Byte)
  /-- I3C: in-band interrupt with its mandatory byte, read data, address acknowledged -/
  | i3cIbi (byte : Nat)
  | i3cData (bytes : List Byte)
  | i3cAddr (addr : Nat)
  /-- JTAG data register shifted out -/
  | jtag (width : Nat) (value : Nat)
  deriving DecidableEq, Repr

/-- Why a command can stop the block. Raised by the meanings that take a unit's number as an operand. -/
inductive Fault where
  /-- The command names a list, mailbox, stack, port, core, die or link outside the spec's numbering: no such unit
  exists. Safe: the device has no such event. -/
  | noSuchUnit
  deriving DecidableEq, Repr

/-- Why a command has no meaning. -/
inductive Refusal where
  /-- Raised by an arm of exec whose command has no meaning yet. Safe. -/
  | notModelled (mnemonic : String)
  deriving DecidableEq, Repr

/-- The state of the device. -/
structure State where
  /-- commands waiting, first in first out -/
  pending : List Instr
  /-- every register of the internal register range, keyed by device-local address − 0x0300_0000_0000, and every BAR0
  register that lies only in BAR0, keyed 0x1_0000_0000 + BAR0 offset. A register not listed holds its reset value. -/
  regs : Tab Word64
  /-- job HBM, core stores and Marrow scratch by device-local address; a byte not listed reads 0 -/
  mem : List Host.Cell
  /-- tile tags keyed by device-local address div 4,096 -/
  tags : Tab Tag
  job : Option Job
  cores : Cores
  tick : TickSt
  time : TimeSt
  streams : Tab Stream
  /-- accepted changes with their effective ticks, in command order -/
  changes : List (Nat × Change)
  slow : List Slow
  ownSlow : List OwnSlow
  qdefs : Tab QDef
  queues : Tab Queue
  /-- resident queues by stack, least recently used first -/
  slots : Tab (List Nat)
  memory : Memory
  ckpt : Ckpt
  fabric : Fabric
  host : HostIf
  power : Power
  mram : Mram
  sec : Sec
  snap : Snap
  board : Board
  tests : Tests
  /-- counter that keys free values (the model's own) -/
  freeCount : Nat
  /-- what the device has sent, oldest first (the model's own) -/
  sent : List Sent
  deriving DecidableEq, Repr

/-- The device at the release of a cold reset: every register at its reset value, no job, memory with nothing listed,
DEV_STATE booting, the queue of commands empty. -/
def State.reset : State where
  pending := []
  regs := []
  mem := []
  tags := []
  job := none
  cores := Cores.zero
  tick := TickSt.zero
  time := TimeSt.zero
  streams := []
  changes := []
  slow := []
  ownSlow := []
  qdefs := []
  queues := []
  slots := []
  memory := Memory.zero
  ckpt := Ckpt.zero
  fabric := Fabric.zero
  host := HostIf.zero
  power := Power.zero
  mram := Mram.empty
  sec := Sec.zero
  snap := Snap.zero
  board := Board.zero
  tests := Tests.zero
  freeCount := 0
  sent := []

end Sys2Proof.Machine
end

