-- ==== Sys2Proof/Machine/Tab.lean ====
section
/-! DEFINITION. Reading and writing tables by number (`Tab`) and keeping their one canonical form. -/
namespace Sys2Proof.Machine

/-- The entry at number `k`, if listed. -/
def Tab.find? {α : Type} (t : Tab α) (k : Nat) : Option α :=
  match t with
  | [] => none
  | (a, v) :: r => if a = k then some v else Tab.find? r k

/-- The value at number `k`, `d` where nothing is listed. -/
def Tab.get {α : Type} (d : α) (t : Tab α) (k : Nat) : α := (Tab.find? t k).getD d

/-- `t` without an entry at `k`. -/
def Tab.del {α : Type} (k : Nat) (t : Tab α) : Tab α :=
  match t with
  | [] => []
  | (a, v) :: r => if a = k then Tab.del k r else (a, v) :: Tab.del k r

/-- `t` with `(k, v)` in front of the first entry whose number is above `k`. -/
def Tab.insert {α : Type} (k : Nat) (v : α) (t : Tab α) : Tab α :=
  match t with
  | [] => [(k, v)]
  | (a, w) :: r => if k < a then (k, v) :: (a, w) :: r else (a, w) :: Tab.insert k v r

/-- `t` with the value `v` at `k`. -/
def Tab.put {α : Type} (k : Nat) (v : α) (t : Tab α) : Tab α := Tab.insert k v (Tab.del k t)

/-- `t` with the value `v` at `k`, where an unlisted number holds `d`: writing `d` removes the entry. -/
def Tab.set {α : Type} [DecidableEq α] (d : α) (k : Nat) (v : α) (t : Tab α) : Tab α :=
  if v = d then Tab.del k t else Tab.put k v t

/-- Numbers strictly rising, all above `lo` where given. -/
def Tab.rising {α : Type} (lo : Option Nat) (t : Tab α) : Bool :=
  match t with
  | [] => true
  | (a, _) :: r => (match lo with | none => true | some b => decide (b < a)) && Tab.rising (some a) r

/-- The canonical form: numbers strictly rising and no entry at the default `d`. -/
def Tab.wf {α : Type} [DecidableEq α] (d : α) (t : Tab α) : Bool :=
  Tab.rising none t && t.all (fun e => decide (e.2 ≠ d))

/-- The canonical form of memory: addresses strictly rising, no byte listed at 0. -/
def Memory.wf (m : List Host.Cell) : Bool := Tab.wf (0 : BitVec 8) m

end Sys2Proof.Machine
end

