-- ==== Sys2Proof/Machine/Regs.lean ====
section
/-! DEFINITION. The register file: where each register of the spec lies, its reset value, its fields, and the two
operations that read and write it. -/
namespace Sys2Proof.Machine

/-- Base of the keys of the registers that lie only in BAR0 (R390). -/
def Reg.bar0 : Nat := 0x100000000

/-- Bits [hi:lo] of a register. -/
structure Fld where
  key : Nat
  hi : Nat
  lo : Nat
  deriving DecidableEq, Repr

-- organisation (R22, R23)
def Reg.coreMap (n : Nat) : Nat := 0x10000 + n * 4
def Reg.dieCore (d : Nat) : Nat := 0x10400 + d * 4
def Fld.coreMoves (n : Nat) : Fld := ⟨Reg.coreMap n, 31, 24⟩
def Fld.coreState (n : Nat) : Fld := ⟨Reg.coreMap n, 19, 18⟩
def Fld.coreDie (n : Nat) : Fld := ⟨Reg.coreMap n, 17, 16⟩
def Fld.corePhys (n : Nat) : Fld := ⟨Reg.coreMap n, 5, 0⟩
def Fld.dieRetired (d : Nat) : Fld := ⟨Reg.dieCore d, 23, 16⟩
def Fld.dieSpares (d : Nat) : Fld := ⟨Reg.dieCore d, 15, 8⟩
def Fld.dieUnderTest (d : Nat) : Fld := ⟨Reg.dieCore d, 7, 0⟩

-- tick (R45, R46, R47)
def Reg.tckCtrl : Nat := 0x20000
def Reg.tckStatus : Nat := 0x20004
def Reg.tckPeriod : Nat := 0x20008
def Reg.tckPlanClk : Nat := 0x2000C
def Reg.tckGuard : Nat := 0x20010
def Reg.tckStart : Nat := 0x20018
def Reg.tckNumber : Nat := 0x20020
def Reg.tckTime : Nat := 0x20028
def Reg.tckPhase (p : Nat) : Nat := 0x20100 + p * 8
def Fld.run : Fld := ⟨Reg.tckCtrl, 31, 31⟩
def Fld.tickBound : Fld := ⟨Reg.tckCtrl, 30, 30⟩
def Fld.overrunPolicy : Fld := ⟨Reg.tckCtrl, 29, 28⟩
def Fld.timeSrc : Fld := ⟨Reg.tckCtrl, 27, 26⟩
def Fld.warnFrac : Fld := ⟨Reg.tckCtrl, 15, 8⟩
def Fld.timeState : Fld := ⟨Reg.tckStatus, 31, 29⟩
def Fld.running : Fld := ⟨Reg.tckStatus, 28, 28⟩
def Fld.stopPending : Fld := ⟨Reg.tckStatus, 27, 27⟩
def Fld.leadConflict : Fld := ⟨Reg.tckStatus, 26, 26⟩
def Fld.overrunCount : Fld := ⟨Reg.tckStatus, 15, 0⟩
def Fld.period : Fld := ⟨Reg.tckPeriod, 26, 0⟩
def Fld.planMult : Fld := ⟨Reg.tckPlanClk, 6, 0⟩
def Fld.guard : Fld := ⟨Reg.tckGuard, 19, 0⟩
def Fld.startTime : Fld := ⟨Reg.tckStart, 63, 0⟩
def Fld.tickNumber : Fld := ⟨Reg.tckNumber, 63, 0⟩
def Fld.now : Fld := ⟨Reg.tckTime, 63, 0⟩
def Fld.phaseValid (p : Nat) : Fld := ⟨Reg.tckPhase p, 63, 63⟩
def Fld.phaseDeadline (p : Nat) : Fld := ⟨Reg.tckPhase p, 58, 32⟩
def Fld.phaseStart (p : Nat) : Fld := ⟨Reg.tckPhase p, 26, 0⟩

-- numerics (R196)
def Reg.numCtrl : Nat := 0x30000
def Reg.stepIndex : Nat := 0x30008
def Reg.jobSeed : Nat := 0x30010
def Reg.numVary : Nat := 0x30018
def Fld.repro : Fld := ⟨Reg.numCtrl, 31, 31⟩
def Fld.varSeen : Fld := ⟨Reg.numCtrl, 30, 30⟩

-- sequencer pages (R178, R179, R180, R276), by list id
def Reg.seqPage (l : Nat) : Nat := if l < 192 then 0x100000 + l * 0x1000 else 0x200000 + (l - 192) * 0x1000
def Reg.seqStatus (l : Nat) : Nat := Reg.seqPage l
def Reg.seqPhase (l : Nat) : Nat := Reg.seqPage l + 4
def Reg.count (l i : Nat) : Nat := Reg.seqPage l + 0x100 + i * 4
def Reg.seqCounter (l j : Nat) : Nat := Reg.seqPage l + 0x200 + j * 8

/-- The list and the number of the sequencer counter at this key (R178, R180). -/
def Reg.seqCounter? (k : Nat) : Option (Nat × Nat) :=
  if 0x200 ≤ k % 0x1000 ∧ k % 0x1000 < 0x280 then
    if 0x100000 ≤ k ∧ k < 0x1C0000 then some ((k - 0x100000) / 0x1000, (k % 0x1000 - 0x200) / 8)
    else if 0x200000 ≤ k ∧ k < 0x2C0000 then some (192 + (k - 0x200000) / 0x1000, (k % 0x1000 - 0x200) / 8)
    else none
  else none

/-- Device time up to which the waiting cycles of a list's sequencer have been counted: the model's own mark, at a key past
every register (log entry 18). -/
def Reg.waited (l : Nat) : Nat := 0x400000000 + l
def Fld.seqState (l : Nat) : Fld := ⟨Reg.seqStatus l, 31, 30⟩
def Fld.seqWait (l : Nat) : Fld := ⟨Reg.seqStatus l, 29, 27⟩
def Fld.seqNext (l : Nat) : Fld := ⟨Reg.seqStatus l, 19, 0⟩
def Fld.finished (l : Nat) : Fld := ⟨Reg.seqPhase l, 31, 16⟩
def Fld.released (l : Nat) : Fld := ⟨Reg.seqPhase l, 15, 0⟩

-- memory (R240, R241, R242)
def Reg.hbmPage (s : Nat) : Nat := 0x40000 + s * 0x1000
def Reg.stackStatus (s : Nat) : Nat := Reg.hbmPage s
def Reg.stackPool (s : Nat) : Nat := Reg.hbmPage s + 0x4
def Reg.stackCap (s : Nat) : Nat := Reg.hbmPage s + 0x8
def Reg.errCorr (s : Nat) : Nat := Reg.hbmPage s + 0x10
def Reg.errUncorr (s : Nat) : Nat := Reg.hbmPage s + 0x14
def Reg.ckFail (s : Nat) : Nat := Reg.hbmPage s + 0x18
def Reg.ckReplay (s : Nat) : Nat := Reg.hbmPage s + 0x1C
def Reg.segMap (j : Nat) : Nat := 0x4F000 + j * 4
def Reg.reserve : Nat := 0x4F100
def Reg.chanStatus (s c : Nat) : Nat := Reg.hbmPage s + 0x100 + c * 4
def Fld.temp (s : Nat) : Fld := ⟨Reg.stackStatus s, 31, 24⟩
def Fld.tstep (s : Nat) : Fld := ⟨Reg.stackStatus s, 23, 22⟩
def Fld.chanOut (s : Nat) : Fld := ⟨Reg.stackStatus s, 21, 16⟩
def Fld.stackRetired (s : Nat) : Fld := ⟨Reg.stackStatus s, 15, 0⟩
def Fld.poolFree (s : Nat) : Fld := ⟨Reg.stackPool s, 12, 0⟩
def Fld.capNext (s : Nat) : Fld := ⟨Reg.stackCap s, 31, 16⟩
def Fld.capNow (s : Nat) : Fld := ⟨Reg.stackCap s, 15, 0⟩
def Fld.freePages : Fld := ⟨Reg.reserve, 18, 0⟩
def Fld.chanState (s c : Nat) : Fld := ⟨Reg.chanStatus s c, 31, 30⟩
def Fld.softPending (s c : Nat) : Fld := ⟨Reg.chanStatus s c, 23, 16⟩
def Fld.chanRetired (s c : Nat) : Fld := ⟨Reg.chanStatus s c, 7, 0⟩

-- Marrow (R274, R275)
def Reg.mrwMap (m : Nat) : Nat := 0x50000 + m * 4
def Reg.mrwDie (s : Nat) : Nat := 0x50400 + s * 4
def Fld.mrwMoves (m : Nat) : Fld := ⟨Reg.mrwMap m, 31, 24⟩
def Fld.mrwState (m : Nat) : Fld := ⟨Reg.mrwMap m, 19, 18⟩
def Fld.mrwPhys (m : Nat) : Fld := ⟨Reg.mrwMap m, 3, 0⟩
def Fld.mrwFailed (s : Nat) : Fld := ⟨Reg.mrwDie s, 23, 16⟩
def Fld.mrwHosted (s : Nat) : Fld := ⟨Reg.mrwDie s, 15, 8⟩
def Fld.mrwUnderTest (s : Nat) : Fld := ⟨Reg.mrwDie s, 7, 0⟩

-- queue engines (R297); QUE_COUNT_q is computed (R282)
def Reg.quePage (s : Nat) : Nat := 0x60000 + s * 0x1000
def Reg.queStatus (s : Nat) : Nat := Reg.quePage s
def Reg.quePackets (s : Nat) : Nat := Reg.quePage s + 4
def Reg.queEvict (s : Nat) : Nat := Reg.quePage s + 0x10
def Reg.queFetch (s : Nat) : Nat := Reg.quePage s + 0x18
def Reg.queSpill (s : Nat) : Nat := Reg.quePage s + 0x20
def Reg.queRoomWait (s : Nat) : Nat := Reg.quePage s + 0x28
def Reg.queCreditWait (s : Nat) : Nat := Reg.quePage s + 0x30
def Reg.queSlotWait (s : Nat) : Nat := Reg.quePage s + 0x38
def Reg.queHostDrop (s : Nat) : Nat := Reg.quePage s + 0x40
def Reg.queCount (q : Nat) : Nat := 0x1000000 + q * 8
def Fld.queResident (s : Nat) : Fld := ⟨Reg.queStatus s, 31, 16⟩
def Fld.quePinned (s : Nat) : Fld := ⟨Reg.queStatus s, 15, 0⟩
def Fld.queOpen (s : Nat) : Fld := ⟨Reg.quePackets s, 11, 0⟩

-- fabric (R332, R333, R360)
def Reg.fabDevId : Nat := 0x7F000
def Reg.fabResent : Nat := 0x7F008
def Reg.fabDup : Nat := 0x7F010
def Reg.fabRlcHit : Nat := 0x7F018
def Reg.fabRlcFill : Nat := 0x7F020
def Reg.fabInval : Nat := 0x7F028
def Reg.fabMalformed : Nat := 0x7F030
def Reg.portPage (p : Nat) : Nat := 0x70000 + p * 0x100
def Reg.portStatus (p : Nat) : Nat := Reg.portPage p
def Reg.portDelay (p : Nat) : Nat := Reg.portPage p + 4
def Reg.portTx (p : Nat) : Nat := Reg.portPage p + 8
def Reg.portRx (p : Nat) : Nat := Reg.portPage p + 0x10
def Reg.portReplay (p : Nat) : Nat := Reg.portPage p + 0x18
def Reg.portFecCorr (p : Nat) : Nat := Reg.portPage p + 0x20
def Reg.portFecUncorr (p : Nat) : Nat := Reg.portPage p + 0x28
def Reg.cressStatus : Nat := 0x7F100
def Reg.leekStatus : Nat := 0x7F104
def Reg.fabLost : Nat := 0x7F108
def Reg.cressReads : Nat := 0x7F110
def Reg.cressAtomics : Nat := 0x7F118
def Reg.cressBypass : Nat := 0x7F120
def Reg.leekHit : Nat := 0x7F128
def Reg.leekUnknown : Nat := 0x7F130
def Reg.leekFullWait : Nat := 0x7F138
def Reg.congSent : Nat := 0x7F140
def Reg.congRecv : Nat := 0x7F148
def Reg.throttleWait : Nat := 0x7F150
def Reg.fabLate : Nat := 0x7F158
def Fld.pod : Fld := ⟨Reg.fabDevId, 31, 24⟩
def Fld.sled : Fld := ⟨Reg.fabDevId, 23, 19⟩
def Fld.slot : Fld := ⟨Reg.fabDevId, 18, 16⟩
def Fld.idValid : Fld := ⟨Reg.fabDevId, 15, 15⟩
def Fld.timeLead : Fld := ⟨Reg.fabDevId, 14, 14⟩
def Fld.portState (p : Nat) : Fld := ⟨Reg.portStatus p, 31, 29⟩
def Fld.portLanes (p : Nat) : Fld := ⟨Reg.portStatus p, 28, 25⟩
def Fld.portPeer (p : Nat) : Fld := ⟨Reg.portStatus p, 15, 0⟩
def Fld.cressOpen : Fld := ⟨Reg.cressStatus, 12, 0⟩
def Fld.leekUsed : Fld := ⟨Reg.leekStatus, 18, 0⟩
def Fld.lostPeers : Fld := ⟨Reg.fabLost, 16, 0⟩

-- checkpoint (R383)
def Reg.ckpStatus : Nat := 0x80000
def Reg.ckpDone : Nat := 0x80004
def Reg.ckpTotal : Nat := 0x80008
def Reg.ckpGenA : Nat := 0x80010
def Reg.ckpGenB : Nat := 0x80018
def Reg.ckpCaptureTick : Nat := 0x80020
def Reg.cbwUsed (s : Nat) : Nat := 0x80040 + s * 4
def Reg.cbwCopies : Nat := 0x80080
def Reg.cbwStall : Nat := 0x80088
def Reg.moduleBytes : Nat := 0x80090
def Fld.ckpState : Fld := ⟨Reg.ckpStatus, 31, 29⟩
def Fld.ckpSlot : Fld := ⟨Reg.ckpStatus, 28, 28⟩
def Fld.moduleReady : Fld := ⟨Reg.ckpStatus, 27, 27⟩
def Fld.ckpLast : Fld := ⟨Reg.ckpStatus, 15, 0⟩

-- power, boot, board (R416, R433, R493)
def Reg.pwrCap : Nat := 0x90000
def Reg.pwrStatus : Nat := 0x90004
def Reg.pwrClk (d : Nat) : Nat := 0x90010 + d * 4
def Reg.pwrInput : Nat := 0x90020
def Reg.pwrEnergy : Nat := 0x90028
def Reg.pwrIntervene : Nat := 0x90030
def Reg.pwrFastlim : Nat := 0x90038
def Reg.boot : Nat := 0x90800
def Reg.boardStatus : Nat := 0x90900
def Fld.ceilMult : Fld := ⟨Reg.pwrCap, 22, 16⟩
def Fld.cap : Fld := ⟨Reg.pwrCap, 15, 0⟩
def Fld.pstate : Fld := ⟨Reg.pwrStatus, 31, 29⟩
def Fld.intervening : Fld := ⟨Reg.pwrStatus, 28, 28⟩
def Fld.fastLimit : Fld := ⟨Reg.pwrStatus, 27, 27⟩
def Fld.brake : Fld := ⟨Reg.pwrStatus, 26, 26⟩
def Fld.capUnmet : Fld := ⟨Reg.pwrStatus, 25, 25⟩
def Fld.duty : Fld := ⟨Reg.pwrStatus, 24, 20⟩
def Fld.bwCap : Fld := ⟨Reg.pwrStatus, 19, 16⟩
def Fld.clkReason (d : Nat) : Fld := ⟨Reg.pwrClk d, 9, 7⟩
def Fld.clkMult (d : Nat) : Fld := ⟨Reg.pwrClk d, 6, 0⟩
def Fld.inputPower : Fld := ⟨Reg.pwrInput, 31, 16⟩
def Fld.inputCurrent : Fld := ⟨Reg.pwrInput, 15, 0⟩
def Fld.bootStage : Fld := ⟨Reg.boot, 31, 28⟩
def Fld.lockAtReady : Fld := ⟨Reg.boot, 27, 27⟩
def Fld.bootSlot : Fld := ⟨Reg.boot, 26, 26⟩
def Fld.fallback : Fld := ⟨Reg.boot, 25, 25⟩
def Fld.warm : Fld := ⟨Reg.boot, 24, 24⟩
def Fld.bootFail : Fld := ⟨Reg.boot, 23, 16⟩
def Fld.readyMs : Fld := ⟨Reg.boot, 15, 0⟩
def Fld.boardSlot : Fld := ⟨Reg.boardStatus, 31, 29⟩
def Fld.boardWidth : Fld := ⟨Reg.boardStatus, 28, 27⟩
def Fld.modPresent : Fld := ⟨Reg.boardStatus, 26, 26⟩
def Fld.boardBrake : Fld := ⟨Reg.boardStatus, 25, 25⟩
def Fld.tenMhz : Fld := ⟨Reg.boardStatus, 24, 24⟩
def Fld.pps : Fld := ⟨Reg.boardStatus, 23, 23⟩
def Fld.alert : Fld := ⟨Reg.boardStatus, 22, 22⟩

-- security (R463), snapshot (R462), test (R478)
def Reg.secStatus : Nat := 0xA0000
def Reg.secFwA : Nat := 0xA0004
def Reg.secFwB : Nat := 0xA0008
def Reg.secFloor : Nat := 0xA000C
def Reg.d2Expiry : Nat := 0xA0010
def Reg.nonce (i : Nat) : Nat := 0xA0020 + i * 4
def Reg.ownerDigest (i : Nat) : Nat := 0xA0040 + i * 4
def Reg.snpStatus : Nat := 0xB0000
def Reg.snpId : Nat := 0xB0004
def Reg.snpMatch : Nat := 0xB0008
def Reg.snpTime : Nat := 0xB0010
def Reg.snpTick : Nat := 0xB0018
def Reg.testCtrl : Nat := 0xC0000
def Reg.testStatus : Nat := 0xC0004
def Reg.faultLogged : Nat := 0xC0008
def Reg.faultAbsorbed : Nat := 0xC0010
def Reg.testFail : Nat := 0xC0018
def Reg.cycleTime : Nat := 0xC0020
def Fld.sstate : Fld := ⟨Reg.secStatus, 31, 29⟩
def Fld.secDebug : Fld := ⟨Reg.secStatus, 28, 27⟩
def Fld.policy : Fld := ⟨Reg.secStatus, 26, 25⟩
def Fld.ownerKeys : Fld := ⟨Reg.secStatus, 24, 24⟩
def Fld.siteKey : Fld := ⟨Reg.secStatus, 23, 23⟩
def Fld.imageSigned : Fld := ⟨Reg.secStatus, 22, 22⟩
def Fld.keysErased : Fld := ⟨Reg.secStatus, 21, 21⟩
def Fld.halted : Fld := ⟨Reg.secStatus, 20, 20⟩
def Fld.authFail : Fld := ⟨Reg.secStatus, 15, 0⟩
def Fld.fwValid (slot : Nat) : Fld := ⟨Reg.secFwA + slot * 4, 31, 31⟩
def Fld.fwSvn (slot : Nat) : Fld := ⟨Reg.secFwA + slot * 4, 15, 0⟩
def Fld.floor : Fld := ⟨Reg.secFloor, 15, 0⟩
def Fld.snpState : Fld := ⟨Reg.snpStatus, 31, 30⟩
def Fld.snpSource : Fld := ⟨Reg.snpStatus, 29, 27⟩
def Fld.snpPropagated : Fld := ⟨Reg.snpStatus, 26, 26⟩
def Fld.snpMissed : Fld := ⟨Reg.snpStatus, 15, 0⟩
def Fld.testPeriod : Fld := ⟨Reg.testCtrl, 23, 8⟩
def Fld.testEnable : Fld := ⟨Reg.testCtrl, 3, 0⟩
def Fld.testCycles : Fld := ⟨Reg.testStatus, 31, 16⟩
def Fld.testDeferred : Fld := ⟨Reg.testStatus, 15, 8⟩
def Fld.testActive : Fld := ⟨Reg.testStatus, 3, 0⟩

-- BAR0 only (R392, R399, R406, R461)
def Reg.identity : Nat := Reg.bar0
def Reg.devState : Nat := Reg.bar0 + 0x4
def Reg.fwVersion : Nat := Reg.bar0 + 0x8
def Reg.link : Nat := Reg.bar0 + 0xC
def Reg.bar2Base : Nat := Reg.bar0 + 0x10
def Reg.hostWinBase : Nat := Reg.bar0 + 0x18
def Reg.hostErr : Nat := Reg.bar0 + 0x20
def Reg.doorbell : Nat := Reg.bar0 + 0x1000
def Reg.mbxBusy : Nat := Reg.bar0 + 0x1008
def Reg.mbxDone : Nat := Reg.bar0 + 0x1010
def Reg.mbxErr : Nat := Reg.bar0 + 0x1018
def Reg.evtBase : Nat := Reg.bar0 + 0x100000
def Reg.evtCtrl : Nat := Reg.bar0 + 0x100008
def Reg.evtHead : Nat := Reg.bar0 + 0x10000C
def Reg.evtTail : Nat := Reg.bar0 + 0x100010
def Reg.evtLost : Nat := Reg.bar0 + 0x100014
def Reg.evtHeld : Nat := Reg.bar0 + 0x100018
def Reg.winSel : Nat := Reg.bar0 + 0x2C00000
def Fld.state : Fld := ⟨Reg.devState, 31, 28⟩
def Fld.devPstate : Fld := ⟨Reg.devState, 27, 25⟩
def Fld.debug : Fld := ⟨Reg.devState, 24, 23⟩
def Fld.remoteMbx : Fld := ⟨Reg.devState, 22, 22⟩
def Fld.linkWidth : Fld := ⟨Reg.link, 31, 28⟩
def Fld.linkRate : Fld := ⟨Reg.link, 27, 24⟩
def Fld.denied : Fld := ⟨Reg.hostErr, 63, 32⟩
def Fld.bar2Fault : Fld := ⟨Reg.hostErr, 31, 0⟩
def Fld.ringIgnored : Fld := ⟨Reg.mbxErr, 31, 16⟩
def Fld.writeDropped : Fld := ⟨Reg.mbxErr, 15, 0⟩
def Fld.evtEnable : Fld := ⟨Reg.evtCtrl, 31, 31⟩
def Fld.evtLog2 : Fld := ⟨Reg.evtCtrl, 4, 0⟩
def Fld.held : Fld := ⟨Reg.evtHeld, 10, 0⟩
def Fld.winKind : Fld := ⟨Reg.winSel, 63, 62⟩
def Fld.winIndex : Fld := ⟨Reg.winSel, 55, 48⟩
def Fld.winBase : Fld := ⟨Reg.winSel, 47, 0⟩

/-- Reset values of the registers that are an array of one layout. -/
def Reg.resetArray (k : Nat) : Nat :=
  if 0x10000 ≤ k ∧ k < 0x10300 then
    let n := (k - 0x10000) / 4
    (n / 48) * 2 ^ 16 + n % 48
  else if 0x10400 ≤ k ∧ k < 0x10410 then 0x000004FF
  else if 0x50000 ≤ k ∧ k < 0x50300 then ((k - 0x50000) / 4) % 16
  else if 0x50400 ≤ k ∧ k < 0x50430 then 0xFF
  else if 0x40000 ≤ k ∧ k < 0x4C000 ∧ k % 0x1000 = 4 then 0x1000
  else if 0x40000 ≤ k ∧ k < 0x4C000 ∧ k % 0x1000 = 8 then 0xB800B800
  else if 0x70000 ≤ k ∧ k < 0x73000 ∧ k % 0x100 = 0 then 0xC0000000
  else if 0x90010 ≤ k ∧ k < 0x90020 ∧ k % 4 = 0 then 0x50
  else if 0x100000 ≤ k ∧ k < 0x1C0000 ∧ k % 0x1000 = 0 then 0x80000000
  else if 0x200000 ≤ k ∧ k < 0x2C0000 ∧ k % 0x1000 = 0 then 0x80000000
  else 0

/-- The reset value of every register: the Reset columns of the spec's register tables. Straps (R332, R493) read as
left open (R483) until they are sampled; the nonce is a free value (R463). -/
def Reg.resetValue (k : Nat) : Word64 :=
  if k = Reg.tckCtrl then 0x0C00C000
  else if k = Reg.tckPeriod then 0x7D0
  else if k = Reg.tckPlanClk then 0x40
  else if k = Reg.tckGuard then 0x3E8
  else if k = Reg.reserve then 0x60000
  else if k = Reg.pwrCap then 0x00500E10
  else if k = Reg.pwrStatus then 0x010A0000
  else if k = Reg.testCtrl then 0x180F
  else if k = Reg.boardStatus then 0x18000000
  else if k = Reg.identity then 0x04000000#64 ||| ((Config.stepping.zeroExtend 64) <<< 16)
  else if k = Reg.evtCtrl then 0x8
  else if 0xA0020 ≤ k ∧ k < 0xA0040 ∧ k % 4 = 0 then
    (Config.freeValue 0 >>> ((k - 0xA0020) / 4 * 32)).zeroExtend 64 &&& 0xFFFFFFFF#64
  else BitVec.ofNat 64 (Reg.resetArray k)

/-- A register's value (R10, R12). -/
def State.reg (s : State) (k : Nat) : Word64 := (Tab.find? s.regs k).getD (Reg.resetValue k)

/-- The registers with `v` at `k`, in canonical form. -/
def Reg.write (t : Tab Word64) (k : Nat) (v : Word64) : Tab Word64 :=
  if v = Reg.resetValue k then Tab.del k t else Tab.put k v t

/-- The state with register `k` at `v`. -/
def State.setReg (s : State) (k : Nat) (v : Word64) : State := { s with regs := Reg.write s.regs k v }

/-- Bits [hi:lo] of a 64-bit value. -/
def getBits (r : Word64) (hi lo : Nat) : Nat := (r.toNat >>> lo) % 2 ^ (hi - lo + 1)

/-- `r` with bits [hi:lo] at `v`, the rest unchanged. -/
def setBits (r : Word64) (hi lo v : Nat) : Word64 :=
  let m : Word64 := BitVec.ofNat 64 ((2 ^ (hi - lo + 1) - 1) <<< lo)
  (r &&& ~~~m) ||| BitVec.ofNat 64 ((v % 2 ^ (hi - lo + 1)) <<< lo)

/-- A field's value. -/
def State.fld (s : State) (f : Fld) : Nat := getBits (s.reg f.key) f.hi f.lo

/-- The state with a field at `v`; the register's other bits are unchanged. -/
def State.setFld (s : State) (f : Fld) (v : Nat) : State :=
  s.setReg f.key (setBits (s.reg f.key) f.hi f.lo v)

/-- A field that counts and saturates at its largest value. -/
def State.bump (s : State) (f : Fld) (n : Nat) : State :=
  s.setFld f (min (s.fld f + n) (2 ^ (f.hi - f.lo + 1) - 1))

/-- A 32-bit or 64-bit counter register that saturates (R180, R240, R332). -/
def State.bump32 (s : State) (k n : Nat) : State := s.bump ⟨k, 31, 0⟩ n
def State.bump64 (s : State) (k n : Nat) : State := s.bump ⟨k, 63, 0⟩ n

/-- `n` microseconds in ns. -/
def us (n : Nat) : Nat := n * 1000

/-- Device time, in ns since the PTP epoch (R35). -/
def State.now (s : State) : Nat := (s.reg Reg.tckTime).toNat

/-- Device time moved forward to `t`, where `t` lies ahead: a timed command is the event at its time. -/
def State.at_ (s : State) (t : Nat) : State := if s.now < t then s.setReg Reg.tckTime (BitVec.ofNat 64 t) else s

/-- The state with one more thing sent out. -/
def State.send (s : State) (x : Sent) : State := { s with sent := s.sent ++ [x] }

/-- DEV_STATE.state set; ALERT_N is low in protective stop and needs service (R392, R490, R493). -/
def State.setDevState (s : State) (v : Nat) : State := (s.setFld Fld.state v).setFld Fld.alert (if v = 6 ∨ v = 8 then 1 else 0)

/-- A fresh free value, and the state with the counter advanced. -/
def State.fresh (s : State) : BitVec 256 × State :=
  (Config.freeValue (s.freeCount + 1), { s with freeCount := s.freeCount + 1 })

/-- A value up to `bound` that the spec leaves open, and the state with the counter of free values advanced. -/
def State.upTo (s : State) (bound : Nat) : Nat × State :=
  let (v, s1) := s.fresh
  (v.toNat % (bound + 1), s1)

end Sys2Proof.Machine
end

