-- ==== Sys2Proof/Machine/Routes.lean ====
section
/-! DEFINITION. Global device numbers and routes (R299, R300, R309 to R313), and sending a transaction by its port: flits,
the replay buffer and what waits for it (R303 to R307, R315). -/
namespace Sys2Proof.Machine

/-- This device's global device number (R299, R332). -/
def State.gdn (s : State) : Nat := s.fld Fld.pod * 256 + s.fld Fld.sled * 8 + s.fld Fld.slot

/-- Pod, sled and slot of a global device number (R309). -/
def podOf (g : Nat) : Nat := g / 256
def sledOf (g : Nat) : Nat := g / 8 % 32
def slotOf (g : Nat) : Nat := g % 8

/-- The in-sled port from slot x to slot y and the cross-sled port from sled a to sled b (R299). -/
def inSledPort (x y : Nat) : Nat := (y + 7 - x) % 8
def crossSledPort (a b : Nat) : Nat := 7 + (b + 31 - a) % 32

/-- State and lanes of a port of a device of the pod: its own registers, or what was announced; a port of which nothing
was announced is in service (R312). -/
def State.portOf (s : State) (g p : Nat) : Nat × Nat :=
  if g = s.gdn then (s.fld (Fld.portState p), s.fld (Fld.portLanes p))
  else
    match Tab.find? s.fabric.announced (g * 64 + p) with
    | some v => (v / 16, v % 16)
    | none => (2, 2)

def State.port (s : State) (p : Nat) : Port := Tab.get Port.zero s.fabric.ports p
def State.setPort (s : State) (p : Nat) (x : Port) : State :=
  { s with fabric := { s.fabric with ports := Tab.set Port.zero p x s.fabric.ports } }

/-- In service: active or degraded; a spare port also while it stands by (R300, R333). A port that retrains onto fewer lanes,
which are one or more, stays in service: its traffic waits (R307). -/
def State.inService (s : State) (g p : Nat) : Bool :=
  let (st, lanes) := s.portOf g p
  decide (st = 2 ∨ st = 3) || (decide (st = 5) && (p = 38 || p = 39)) ||
    (decide (st = 1) && decide (1 ≤ lanes))

/-- The spare port of slot x that leads to slot y, if any (R299). -/
def sparePort (x y : Nat) : Option Nat :=
  if y = (x + 1) % 8 then some 38 else if y = (x + 7) % 8 then some 39 else none

/-- The spare port carries the traffic of device `g` to slot `y`: the in-sled port is down, as a miswired one is (R308), or has
one lane, and the move is not undone before a job reset (R300). -/
def State.useSpare (s : State) (g y : Nat) : Bool :=
  let (st, lanes) := s.portOf g (inSledPort (slotOf g) y)
  (g = s.gdn && decide (y ∈ s.fabric.spareUsed)) || decide (st = 0 ∨ st = 4) || (decide (st = 3) && decide (lanes = 1))

/-- The port by which device `u` reaches its neighbour `v` of the same pod, where both ends are in service. -/
def State.link? (s : State) (u v : Nat) : Option Nat :=
  let ok (p q : Nat) : Bool := s.inService u p && s.inService v q
  if sledOf u = sledOf v then
    let p := inSledPort (slotOf u) (slotOf v)
    let spare : Option Nat :=
      match sparePort (slotOf u) (slotOf v), sparePort (slotOf v) (slotOf u) with
      | some a, some b => if s.useSpare u (slotOf v) && ok a b then some a else none
      | _, _ => none
    match spare with
    | some a => some a
    | none => if ok p (inSledPort (slotOf v) (slotOf u)) then some p else none
  else
    let p := crossSledPort (sledOf u) (sledOf v)
    if ok p (crossSledPort (sledOf v) (sledOf u)) then some p else none

/-- A path as (device, port it leaves by). -/
abbrev Path := List (Nat × Nat)

def State.hop? (s : State) (u v : Nat) : Option Path := (s.link? u v).map (fun p => [(u, p)])

/-- Two paths joined where both exist. -/
def joinPath (a b : Option Path) : Option Path :=
  match a, b with
  | some p, some q => some (p ++ q)
  | _, _ => none

def devOf (pod a x : Nat) : Nat := pod * 256 + a * 8 + x

/-- From `u` to a device `v` of its sled or of its slot: straight, or round the lowest third device (R311). -/
def State.leg? (s : State) (u v : Nat) : Option Path :=
  if u = v then some []
  else
    match s.hop? u v with
    | some p => some p
    | none =>
      let mids :=
        if sledOf u = sledOf v then
          ((List.range 8).filter (fun z => z ≠ slotOf u ∧ z ≠ slotOf v)).map (fun z => devOf (podOf u) (sledOf u) z)
        else
          ((List.range 32).filter (fun k => k ≠ sledOf u ∧ k ≠ sledOf v)).map (fun k => devOf (podOf u) k (slotOf u))
      mids.findSome? (fun m => joinPath (s.hop? u m) (s.hop? m v))

/-- The route of R311 inside a pod. -/
def State.podRoute? (s : State) (u v : Nat) : Option Path :=
  if sledOf u = sledOf v ∨ slotOf u = slotOf v then s.leg? u v
  else
    let viaB := devOf (podOf u) (sledOf v) (slotOf u)
    let viaA := devOf (podOf u) (sledOf u) (slotOf v)
    [joinPath (s.hop? u viaB) (s.hop? viaB v), joinPath (s.hop? u viaA) (s.hop? viaA v),
      joinPath (s.leg? u viaB) (s.leg? viaB v), joinPath (s.leg? u viaA) (s.leg? viaA v)].findSome? id

/-- The route from a device of the own pod to another device, by the ports as they are now: inside the pod, or through the
first gateway in service that is at most two hops away (R313). -/
def State.routeFrom? (s : State) (own dst : Nat) : Option Path :=
  if podOf dst = podOf own then s.podRoute? own dst
  else
    match s.fabric.routes.find? (fun r => r.pod = podOf dst) with
    | none => none
    | some r =>
      [r.gw1, r.gw2].findSome? (fun g => g.bind (fun (d, p) =>
        if s.inService d p then
          match s.podRoute? own d with
          | some path => if path.length ≤ 2 then some (path ++ [(d, p)]) else none
          | none => none
        else none))

/-- One hop of a route holds: both ports are in service, and an in-sled port does not have to leave its traffic to the spare. An
optical port's far end lies in another pod. -/
def State.hopHolds (s : State) (u p v : Nat) : Bool :=
  if 40 ≤ p then s.inService u p
  else if p = 38 ∨ p = 39 then s.inService u p && s.inService v (if p = 38 then 39 else 38)
  else s.link? u v = some p

/-- A route holds from device to device up to `dst`. -/
def State.pathHolds (s : State) (dst : Nat) : Path → Bool
  | [] => true
  | [(u, p)] => s.hopHolds u p dst
  | (u, p) :: (v, q) :: r => s.hopHolds u p v && s.pathHolds dst ((v, q) :: r)

/-- The route to a device: the one in use while it holds, since a route changes only when a port on it goes out of service
(R312), and otherwise the one that the ports give now. -/
def State.route? (s : State) (dst : Nat) : Option Path :=
  match Tab.find? s.fabric.chosen dst with
  | some path => if s.pathHolds dst path then some path else s.routeFrom? s.gdn dst
  | none => s.routeFrom? s.gdn dst

/-- The port by which this device passes on a request of `src` to `dst` (R312, R313): its port on the source's route. A request on
a route that this device cannot work out goes straight on, cross-sled first, and a request from another pod takes a route of
R311. -/
def State.passPort (s : State) (src dst : Nat) : Option Nat :=
  if podOf src ≠ podOf s.gdn then (s.routeFrom? s.gdn dst).bind (fun p => p.head?.map (fun h => h.2))
  else
    match ((s.routeFrom? src dst).getD []).find? (fun h => h.1 = s.gdn) with
    | some h => some h.2
    | none =>
      if podOf dst ≠ podOf s.gdn then none
      else if sledOf dst = sledOf s.gdn then s.link? s.gdn dst
      else s.link? s.gdn (devOf (podOf s.gdn) (sledOf dst) (slotOf s.gdn))

/-- The port a transaction to `dst` leaves by. -/
def State.portTo (s : State) (dst : Nat) : Option Nat := (s.route? dst).bind (fun p => p.head?.map (fun h => h.2))

-- flits (R303 to R305, R315)

/-- The 32-byte header of a transaction (R315). -/
def txHeader (t : Tx) : List Byte :=
  toLE 1 (t.type % 16 + t.op % 16 * 16)
    ++ toLE 1 ((if t.latCrit then 1 else 0) + (if t.retry then 2 else 0) + (if t.ranked then 4 else 0)
        + (if t.fillReq then 8 else 0) + (if t.tileCrc then 16 else 0))
    ++ toLE 2 t.len ++ toLE 2 t.src ++ toLE 2 t.dst ++ toLE 4 t.seq ++ toLE 2 t.stream ++ toLE 2 t.hops
    ++ toLE 8 t.addr ++ toLE 4 t.word ++ toLE 4 0

/-- A transaction in slots, 240 bytes to a flit; each transaction starts a flit of its own (DESIGN CHOICE, log entry 12). -/
def txSlots (t : Tx) : List (List Byte) :=
  let bs := txHeader t ++ t.data
  (chunksOf 240 (bs.length / 240 + 1) bs).map (padTo 240)

/-- A flit: its sequence, the last sequence accepted from the other side, the credits it returns (channel and slots), the start
map, the slots and the CRC-64. A nak goes out alone, at once (log entry 101), so no flit with slots carries one. -/
def flit (seq ack : Nat) (credit : Nat × Nat) (start : Bool) (slots : List Byte) : List Byte :=
  let bs := toLE 8 (seq % 2 ^ 16 * 2 ^ 48 + ack % 2 ^ 16 * 2 ^ 32 + 2 ^ 31 + credit.1 % 16 * 2 ^ 26 + credit.2 % 256 * 2 ^ 18
    + (if start then 1 else 0)) ++ slots
  bs ++ toLE 8 (crc64 bs).toNat

/-- The virtual channel of a transaction (R306): requests by the hops they have made, replies, coherence and control messages 8
above. -/
def channelOf (t : Tx) : Nat := (if t.type < 8 then 0 else 8) + t.hops % 8

/-- Slots of a transaction: its header and its data (R303). -/
def slotsOf (t : Tx) : Nat := 2 + (t.data.length + 15) / 16

/-- Flits that a port's replay buffer holds (R305). -/
def replayCap (p : Nat) : Nat := if p < 40 then 256 else 8192

/-- A transaction given to the port: its flits sent and kept until they are acknowledged. -/
def State.injectTx (s : State) (p : Nat) (tx : Tx) : State :=
  let x := s.port p
  let fs := (txSlots tx).zipIdx.map (fun e =>
    ((x.txSeq + e.2) % 2 ^ 16, flit (x.txSeq + e.2) (x.expect + 2 ^ 16 - 1) (x.owed.getD e.2 (0, 0)) (e.2 = 0) e.1))
  let c := channelOf tx
  ((s.setPort p { x with
      txSeq := (x.txSeq + fs.length) % 2 ^ 16, unacked := x.unacked ++ fs, owed := x.owed.drop fs.length
      used := Tab.set 0 c (Tab.get 0 x.used c + slotsOf tx) x.used }).bump64 (Reg.portTx p) fs.length).send (.fabric p tx)

/-- The port takes a transaction now: it carries traffic, nothing waits for it, and its buffer has room. -/
def State.portTakes (s : State) (p : Nat) (tx : Tx) : Bool :=
  let x := s.port p
  !x.retraining && x.backlog.isEmpty && decide (x.unacked.length + (txSlots tx).length ≤ replayCap p)

/-- A transaction sent by a port, or waiting for it. -/
def State.sendBy (s : State) (p : Nat) (tx : Tx) : State :=
  if s.portTakes p tx then s.injectTx p tx
  else
    let x := s.port p
    s.setPort p { x with backlog := x.backlog ++ [tx] }

/-- A transaction sent by this device's route to its destination, which is the route in use from then on (R312). -/
def State.sendTx (s : State) (tx : Tx) : State :=
  match s.route? tx.dst with
  | some ((u, p) :: r) =>
    let s1 : State := { s with fabric := { s.fabric with chosen := Tab.set [] tx.dst ((u, p) :: r) s.fabric.chosen } }
    s1.sendBy p tx
  | _ => s

/-- The channel that an output port serves next (R306): time transactions first, 8 to 15 before 0 to 7, and within a group
round-robin after the one served last. -/
def Port.nextChannel (x : Port) : Option Nat :=
  let waits (c : Nat) : Bool := x.backlog.any (fun t => channelOf t = c)
  let turn (base last : Nat) : List Nat := (List.range 8).map (fun i => base + (last + 1 + i) % 8)
  match x.backlog.find? (fun t => t.type = 9) with
  | some t => some (channelOf t)
  | none => (turn 8 x.turnHigh ++ turn 0 x.turnLow).find? waits

/-- The oldest transaction of a channel taken from what waits, and the port after it. -/
def Port.pick (x : Port) : Option (Tx × Port) :=
  match x.nextChannel with
  | none => none
  | some c =>
    (x.backlog.find? (fun t => channelOf t = c)).map (fun t =>
      (t, { x with
        backlog := x.backlog.erase t
        turnHigh := if c < 8 then x.turnHigh else c % 8
        turnLow := if c < 8 then c else x.turnLow }))

/-- What waits for a port sent as far as it can be; `n` bounds how much. -/
def State.flushPort (s : State) (p : Nat) : Nat → State
  | 0 => s
  | n + 1 =>
    match (s.port p).pick with
    | none => s
    | some (tx, x) =>
      if !x.retraining && decide (x.unacked.length + (txSlots tx).length ≤ replayCap p) then
        ((s.setPort p x).injectTx p tx).flushPort p n
      else s

/-- A transaction of this device without a sequence number: types 0x8 to 0xB and replies. -/
def State.mkTx (s : State) (type op dst addr word : Nat) (data : List Byte) : Tx :=
  ⟨type, op, false, false, false, false, false, s.gdn, dst, 0, 0x8000, 0, data.length, addr, word, data⟩

/-- The port's state announced to every device of the pod (R312, R341). -/
def State.announce (s : State) (p : Nat) : State :=
  let word := p + s.fld (Fld.portState p) * 2 ^ 6 + s.fld (Fld.portLanes p) * 2 ^ 9
  (((List.range 256).map (fun i => podOf s.gdn * 256 + i)).filter (fun g => g ≠ s.gdn)).foldl
    (fun s g => s.sendTx (s.mkTx 8 2 g 0 word [])) s

/-- Slots whose traffic has moved to a spare port are remembered; that port then no longer stands by, and the pod
is told (R300, R312). -/
def State.noteSpares (s : State) : State :=
  let x := slotOf s.gdn
  [((x + 1) % 8, 38), ((x + 7) % 8, 39)].foldl (fun s e =>
    if s.useSpare s.gdn e.1 && !(e.1 ∈ s.fabric.spareUsed) && s.fld Fld.idValid = 1 then
      let s1 : State := { s with fabric := { s.fabric with spareUsed := s.fabric.spareUsed ++ [e.1] } }
      if s1.fld (Fld.portState e.2) = 5 then
        (s1.setFld (Fld.portState e.2) (if s1.fld (Fld.portLanes e.2) = 2 then 2 else 3)).announce e.2
      else s1
    else s) s

/-- Numbers of this device's peers, itself left out (R327). -/
def State.peerNumbers (s : State) : List Nat := (s.fabric.peers.map (fun p => p.2.gdn)).filter (fun g => g ≠ s.gdn)

/-- The entry of a peer, by global device number. -/
def State.peer? (s : State) (g : Nat) : Option Peer := (List.find? (fun p => decide (p.2.gdn = g)) s.fabric.peers).map (fun p => p.2)

end Sys2Proof.Machine
end

