-- ==== Sys2Proof/Machine/Ops.lean ====
section
/-! DEFINITION. The named operations over memory, tags and registers that the meanings share: address ranges (R29),
placement (R210), the access rules (R30, R31, R247), reads, and the one write path with its granule copies (R54, R369). -/
namespace Sys2Proof.Machine

/-- What a step answers. -/
abbrev Result := Host.Outcome State Fault Refusal

/-- The next state where the operands name units the spec numbers; the fault where they name none. -/
def ifUnit (ok : Bool) (s : State) : Result := if ok then .next s else .fault .noSuchUnit

-- memory as bytes

/-- The byte at an address: 0 where nothing is listed (DESIGN CHOICE, log entry 2). -/
def Mem.byte (m : List Host.Cell) (a : Nat) : Byte := Tab.get 0 m a

/-- `n` bytes from `a`, ascending. -/
def Mem.read (m : List Host.Cell) (a : Nat) : Nat → List Byte
  | 0 => []
  | n + 1 => Mem.byte m a :: Mem.read m (a + 1) n

/-- Memory with the bytes `bs` from `a` on. -/
def Mem.write (m : List Host.Cell) (a : Nat) : List Byte → List Host.Cell
  | [] => m
  | b :: r => Mem.write (Tab.set 0 a b m) (a + 1) r

/-- The bytes the memory holds from `a` on. -/
def State.rd (s : State) (a n : Nat) : List Byte := Mem.read s.mem a n

/-- The little-endian value of `n` bytes at `a`. -/
def State.rdLE (s : State) (a n : Nat) : Nat := ofLE (s.rd a n)

-- ranges and placement

def hbmSize : Nat := 0x8A00000000
def storeBase : Nat := 0x10000000000
def storeSize : Nat := 0x800000
def scratchBase : Nat := 0x18000000000
def scratchSize : Nat := 0x400000
def producerBase : Nat := 0x20000000000
def internalBase : Nat := 0x30000000000
def hostBase : Nat := 0x40000000000
def segSize : Nat := 0x60000000

/-- The ranges of R29. -/
inductive Range where
  | hbm | store | scratch | producer | internal | host | unmapped
  deriving DecidableEq, Repr

def rangeOf (a : Nat) : Range :=
  if a < hbmSize then .hbm
  else if storeBase ≤ a ∧ a < storeBase + 192 * storeSize then .store
  else if scratchBase ≤ a ∧ a < scratchBase + 12 * scratchSize then .scratch
  else if producerBase ≤ a ∧ a < producerBase + 0x4000000 then .producer
  else if internalBase ≤ a ∧ a < internalBase + 0x100000000 then .internal
  else if hostBase ≤ a ∧ a < hostBase + 0x10000000000 then .host
  else .unmapped

/-- The start of a logical core's store (R17) and of a stack's scratch (R29). -/
def coreStore (n : Nat) : Nat := storeBase + n * storeSize
def stackScratch (t : Nat) : Nat := scratchBase + t * scratchSize

/-- Segment of a job HBM address (R210), and whether it is backed (R212, R240). -/
def segOf (a : Nat) : Nat := a / segSize
def State.backed (s : State) (seg : Nat) : Bool := bitOf (s.reg (Reg.segMap (seg / 32))).toNat (seg % 32)

/-- Stack and stack-local offset in the segment's share (place of R210, before base()). -/
def State.place (s : State) (a : Nat) : Nat × Nat :=
  let seg := segOf a
  let off := a % segSize
  match Tab.get 0 s.memory.segStack seg with
  | 0 =>
    let t := off / 4096
    (t % 12, (t / 12) * 4096 + off % 4096)
  | k + 1 => (k, off)

/-- The logical channel of a job HBM address and its offset in the channel (R210). -/
def State.channel (s : State) (a : Nat) : Nat × Nat :=
  let (t, l) := s.place a
  let u := (Config.segBase (segOf a) t * 65536 + l) / 4096
  (u % 32, u / 32 * 4096 + l % 4096)

/-- The stack that homes an address: the place of R210 for job HBM, the stack itself for scratch. -/
def State.stackOf (s : State) (a : Nat) : Nat :=
  match rangeOf a with
  | .hbm => (s.place a).1
  | .scratch => (a - scratchBase) / scratchSize
  | _ => 0

/-- The number of the 64 KiB granule of one stack's own space that holds an address (R54). -/
def State.granuleOf (s : State) (a : Nat) : Nat :=
  let (t, l) := s.place a
  (segOf a * 12 + t) * 24576 + l / 65536

/-- Numbers from here on stand for the cores' stores among the granules that a write can wait for (R20). -/
def storeGranule : Nat := 2 ^ 40

/-- The address lies in the store of a core that migrates: every access to it is held (R20). -/
def State.moving (s : State) (a : Nat) : Bool := rangeOf a = .store && s.fld (Fld.coreState ((a - storeBase) / storeSize)) = 1

/-- The stack of a granule. -/
def granuleStack (g : Nat) : Nat := g / 24576 % 12

-- who may reach what

/-- Who makes an access (R30). -/
inductive Agent where
  | coreEngine (n : Nat) | coreXfer (n : Nat) | marrow (stack : Nat) | remote | host | firmware | framer
  deriving DecidableEq, Repr

/-- The access table of R30, refined by R247 for a Marrow engine; `write` includes atomics. -/
def reaches (g : Agent) (write : Bool) (a : Nat) : Bool :=
  match rangeOf a, g with
  | _, .firmware => true
  | .hbm, .coreEngine _ => false
  | .hbm, _ => true
  | .store, .coreEngine n => coreStore n ≤ a && decide (a < coreStore n + storeSize)
  | .store, .coreXfer _ => true
  | .store, .remote => true
  | .scratch, .coreXfer _ => true
  | .scratch, .marrow t => stackScratch t ≤ a && decide (a < stackScratch t + scratchSize)
  | .internal, .coreXfer _ => !write
  | .host, .coreXfer _ => true
  | _, _ => false

/-- Two byte ranges meet. -/
def overlaps (a n b m : Nat) : Bool := decide (a < b + m) && decide (b < a + n) && decide (0 < n) && decide (0 < m)

/-- The range hits a region of the guard table (R31): those of the admitted job, and in the internal register range those
that firmware guards always, which the spec does not list (`Config.guards`). -/
def State.guarded (s : State) (a n : Nat) : Bool :=
  s.memory.guards.any (fun e => overlaps a n e.1 e.2) ||
  (rangeOf a = .internal && Config.guards.any (fun e => overlaps a n e.1 e.2))

/-- Every byte of [a, a + n) may be reached by the agent: one range, backed, not guarded (R31). -/
def State.mayReach (s : State) (g : Agent) (write : Bool) (a n : Nat) : Bool :=
  let last := a + (n - 1)
  reaches g write a && reaches g write last && decide (rangeOf a = rangeOf last) &&
  (rangeOf a != .hbm || (List.range (segOf last - segOf a + 1)).all (fun i => s.backed (segOf a + i))) &&
  (g = .firmware || !s.guarded a n)

-- registers as op lists and the host read them

/-- Registers of 64 bits, by key (the spec's tables). -/
def Reg.is64 (k : Nat) : Bool :=
  decide ((k = Reg.tckStart ∨ k = Reg.tckNumber ∨ k = Reg.tckTime)
    ∨ (0x20100 ≤ k ∧ k < 0x20180)
    ∨ (k = Reg.stepIndex ∨ k = Reg.jobSeed ∨ k = Reg.numVary)
    ∨ (0x100000 ≤ k ∧ k < 0x1C0000 ∧ 0x200 ≤ k % 0x1000 ∧ k % 0x1000 < 0x280)
    ∨ (0x200000 ≤ k ∧ k < 0x2C0000 ∧ 0x200 ≤ k % 0x1000 ∧ k % 0x1000 < 0x280)
    ∨ (0x60000 ≤ k ∧ k < 0x6C000 ∧ 0x10 ≤ k % 0x1000 ∧ k % 0x1000 < 0x48)
    ∨ (0x1000000 ≤ k ∧ k < 0x1800000)
    ∨ (0x7F008 ≤ k ∧ k < 0x7F038) ∨ (0x7F110 ≤ k ∧ k < 0x7F160)
    ∨ (0x70000 ≤ k ∧ k < 0x73000 ∧ 8 ≤ k % 0x100 ∧ k % 0x100 < 0x30)
    ∨ (0x80010 ≤ k ∧ k < 0x80028) ∨ (0x80080 ≤ k ∧ k < 0x80098)
    ∨ (0x90028 ≤ k ∧ k < 0x90040) ∨ k = Reg.d2Expiry
    ∨ (0xB0008 ≤ k ∧ k < 0xB0020) ∨ (0xC0008 ≤ k ∧ k < 0xC0028)
    ∨ (Reg.bar0 + 0x10 ≤ k ∧ k < Reg.bar0 + 0x28)
    ∨ (Reg.bar0 + 0x1008 ≤ k ∧ k < Reg.bar0 + 0x1018)
    ∨ (Reg.bar0 + 0x100000 ≤ k ∧ k < Reg.bar0 + 0x100008)
    ∨ (Reg.winSel ≤ k ∧ k < Reg.winSel + 8))

/-- Agent kinds of R279 in a queue definition. -/
def QDef.measurement (q : QDef) : Bool := q.producer >>> 30 = 3
def QDef.actuation (q : QDef) : Bool := q.consumer >>> 30 = 3
def QDef.cap (q : QDef) : Nat := 2 ^ q.log2cap

def State.qdef? (s : State) (q : Nat) : Option QDef := Tab.find? s.qdefs q
def State.queue (s : State) (q : Nat) : Queue := (Tab.find? s.queues q).getD Queue.empty

/-- The count and the room of a queue as its agents see them (R281, R295). During a step, the count of a measurement queue is the
one latched as the step started: what lands in an overrun belongs to the next step (R52, R64). -/
def State.qCount (s : State) (q : Nat) : Nat :=
  match s.qdef? q with
  | none => 0
  | some d => (if d.measurement then (if s.tick.stepRunning then (s.queue q).seenL else (s.queue q).latL)
      else (s.queue q).pos.l) - (s.queue q).pos.c

def State.qRoom (s : State) (q : Nat) : Nat :=
  match s.qdef? q with
  | none => 0
  | some d => d.cap - ((s.queue q).pos.p - (if d.measurement then (s.queue q).latF else (s.queue q).pos.f))

/-- QUE_COUNT_q (R282): a queue whose window fetch runs holds its slot already. -/
def State.queCount (s : State) (q : Nat) : Nat :=
  match s.qdef? q with
  | none => 0
  | some d =>
    (if (s.queue q).resident || (s.queue q).fetching then 2 ^ 63 else 0) + (if d.measurement then 2 ^ 62 else 0)
      + (s.qRoom q % 2 ^ 25) * 2 ^ 32 + s.qCount q % 2 ^ 32

/-- The tag of a tile, by address (R164, R225). -/
def State.tag (s : State) (a : Nat) : Tag := Tab.get Tag.none s.tags (a / 4096)

/-- The 16 bytes of a tag window entry (R242); zero for an unbacked segment. -/
def State.tagEntry (s : State) (a : Nat) : List Byte :=
  if s.backed (segOf a) then
    let t := s.tag a
    toLE 4 t.crc.toNat ++ toLE 1 ((if t.isSealed then 1 else 0) + (if t.stamped then 2 else 0))
      ++ toLE 1 (t.producer % 192) ++ toLE 1 (t.producer / 192) ++ toLE 1 0 ++ toLE 4 t.index
      ++ toLE 4 t.step.toNat
  else List.replicate 16 0

/-- The stall or idle counter in which the waiting cycles of a list's sequencer count (R180). -/
def State.waitCounter (s : State) (l : ListId) : Option Nat :=
  if s.job.isNone then none
  else
    match s.fld (Fld.seqState l), s.fld (Fld.seqWait l) with
    | 1, 1 => some 7
    | 1, 2 => some 8
    | 1, 3 => some 9
    | 1, 4 => some 8
    | 1, 5 => some 10
    | 1, 6 => some 11
    | 1, 7 => some 15
    | 2, _ => some 14
    | _, _ => none

/-- The clock that a list's counters count, in MHz: the arithmetic clock of the core's die, and the 2.0 GHz of a Marrow
engine (R28, R180, R244). -/
def State.listClock (s : State) (l : ListId) : Nat := if l < 192 then s.fld (Fld.clkMult (l / 48)) * 50 else 2000

/-- Cycles of the wait in progress that no counter holds yet. -/
def State.waitCycles (s : State) (l : ListId) : Nat := (s.now - (s.reg (Reg.waited l)).toNat) * s.listClock l / 1000

/-- A register as it reads now: a sequencer counter with the cycles of the wait in progress (R180). -/
def State.regNow (s : State) (k : Nat) : Word64 :=
  match Reg.seqCounter? k with
  | some (l, j) =>
    if s.waitCounter l = some j then BitVec.ofNat 64 (min ((s.reg k).toNat + s.waitCycles l) (2 ^ 64 - 1)) else s.reg k
  | none => s.reg k

/-- The 32-bit word at a 4-byte-aligned offset of the internal register range. -/
def State.regWord (s : State) (x : Nat) : Nat :=
  if 0x40000000 ≤ x ∧ x < 0x40000000 + (hbmSize / 4096) * 16 then
    fieldLE (s.tagEntry ((x - 0x40000000) / 16 * 4096)) (x % 16) 4
  else if 0x1000000 ≤ x ∧ x < 0x1800000 then
    (s.queCount ((x - 0x1000000) / 8) >>> (x % 8 * 8)) % 2 ^ 32
  else if x % 8 = 4 ∧ Reg.is64 (x - 4) then (s.regNow (x - 4)).toNat >>> 32
  else (s.regNow x).toNat % 2 ^ 32

/-- `n` bytes of the internal register range from offset `x`. -/
def State.regBytes (s : State) (x : Nat) : Nat → List Byte
  | 0 => []
  | n + 1 => BitVec.ofNat 8 (s.regWord (x / 4 * 4) >>> (x % 4 * 8)) :: s.regBytes (x + 1) n

/-- `n` bytes as an agent of the device reads them at a local address. -/
def State.readLocal (s : State) (a n : Nat) : List Byte :=
  if rangeOf a = .internal then s.regBytes (a - internalBase) n else s.rd a n

-- the write path

/-- The image of a granule: its bytes and its tiles' tags (R54, R368). -/
def State.imageOf (s : State) (g : Nat) : Image :=
  ⟨s.mem.filter (fun c => decide (c.1 < hbmSize) && s.granuleOf c.1 = g),
   s.tags.filter (fun t => decide (t.1 * 4096 < hbmSize) && s.granuleOf (t.1 * 4096) = g)⟩

/-- A granule put back as its image has it (R56). -/
def State.restoreImage (s : State) (g : Nat) (im : Image) : State :=
  { s with
    mem := im.cells.foldl (fun m c => Tab.set 0 c.1 c.2 m)
      (s.mem.filter (fun c => !(decide (c.1 < hbmSize) && s.granuleOf c.1 = g)))
    tags := im.tags.foldl (fun m c => Tab.set Tag.none c.1 c.2 m)
      (s.tags.filter (fun t => !(decide (t.1 * 4096 < hbmSize) && s.granuleOf (t.1 * 4096) = g))) }

/-- The tag of a tile at tile number `t` set. -/
def State.setTag (s : State) (t : Nat) (g : Tag) : State := { s with tags := Tab.set Tag.none t g s.tags }

/-- The number under which a writer's begun tiles are remembered: an op of this device, or a stream of a peer. -/
def Origin.writer : Origin → Option Nat
  | .op i => some i
  | .remote src _ stream => some (2 ^ 80 + src * 2 ^ 16 + stream)
  | _ => none

/-- Tiles begun once `o` writes at `a` without a tag: an op's, and for a peer's stream those written from their first byte. -/
def Origin.begin_ (o : Origin) (a : Nat) (begun : List (Nat × Nat)) : List (Nat × Nat) :=
  match o.writer with
  | none => begun
  | some i =>
    if (i, a / 4096) ∈ begun ∨ (2 ^ 80 ≤ i ∧ a % 4096 ≠ 0) then begun else begun ++ [(i, a / 4096)]

/-- Bytes of one tile stored by `o`: any write clears the sealed bit (R164, R226), and the sealing op's write of the whole
tile gives the tile the tag it carries. Lines written whole are good again (R223). A tile that a writer has begun to write
in part is remembered, and so is every other write that reaches it meanwhile (R226); reads of it under way have met an
unsealed tile (R227). -/
def State.store (s : State) (o : Origin) (a : Nat) (bs : List Byte) (tag : Option Tag) : State :=
  let t := a / 4096
  let old := s.tag a
  let others := s.memory.begun.filter (fun e => e.2 = t && o.writer ≠ some e.1 && !(e ∈ s.memory.spoiled))
  ({ s with
      mem := Mem.write s.mem a bs
      memory := { s.memory with
        bad := s.memory.bad.filter (fun l => !(decide (a ≤ l.1 * 64) && decide (l.1 * 64 + 64 ≤ a + bs.length)))
        begun := if tag.isNone then o.begin_ a s.memory.begun else s.memory.begun
        spoiled := s.memory.spoiled ++ others
        reading := s.memory.reading.map (fun (r : Nat × Nat × Nat × Option Word32) =>
          if r.2.2.1 = t then (r.1, r.2.1, t, none) else r) } }).setTag t
    (match tag with
     | some g => g
     | none => { old with isSealed := false })

/-- Excursion bit `i` and flag bit `i` of the running tick's record (R50). -/
def State.excursion (s : State) (i : Nat) : State :=
  { s with tick := { s.tick with record := { s.tick.record with excursions := setBit s.tick.record.excursions i } } }
def State.recordFlag (s : State) (i : Nat) : State :=
  { s with tick := { s.tick with record := { s.tick.record with flags := setBit s.tick.record.flags i } } }

/-- The tick record in progress changed. -/
def State.onRecord (s : State) (f : TickRec → TickRec) : State :=
  { s with tick := { s.tick with record := f s.tick.record } }


/-- Trigger operations of R460 to every peer of the job. -/
def State.triggerPeers (s : State) (op addr word : Nat) : State :=
  s.peerNumbers.foldl (fun s g => s.sendTx (s.mkTx 0xA op g addr word [])) s

/-- Undo copies held for a stack. -/
def State.undoUsed (s : State) (t : Nat) : Nat := (s.memory.undo.filter (fun e => granuleStack e.1 = t)).length

/-- A checkpoint is copying (R366 to R368): states 0b010 and 0b011 of CKP_STATUS. -/
def State.ckpCopying (s : State) : Bool := s.fld Fld.ckpState = 2 || s.fld Fld.ckpState = 3

/-- What a write to job HBM still waits for. -/
inductive WriteNeed where
  /-- nothing -/
  | none
  /-- a copy in progress, or room in the copy-before-write reserve -/
  | wait
  /-- a copy-before-write copy (R369), a full reserve (R370), a step undo copy (R54), a full undo reserve (R55) -/
  | cbw | cbwFull | undo | undoFull
  deriving DecidableEq, Repr

/-- The next thing a write to granule `g` by `o` needs: the end of a migration (R20); checkpoint copy first (R371). -/
def State.writeNeed (s : State) (g : Nat) (o : Origin) : WriteNeed :=
  let t := granuleStack g
  let undoNeed : WriteNeed :=
    match s.job with
    | none => .none
    | some j =>
      if j.abortStep && s.tick.stepRunning && !s.memory.undoFull && o != .framer && o != .firmware then
        match Tab.find? s.memory.undo g with
        | some u => if u.done then .none else .wait
        | none => if s.undoUsed t < j.undoPerStack then .undo else .undoFull
      else .none
  if storeGranule ≤ g then (if s.fld (Fld.coreState (g - storeGranule)) = 1 then .wait else .none)
  else if s.ckpCopying then
    match Tab.find? s.ckpt.grans g with
    | some .pending =>
      if (s.reg (Reg.cbwUsed t)).toNat < (match s.job with | some j => j.cbwPerStack | none => 0) then .cbw
      else .cbwFull
    | some (.saving _) => .wait
    | _ => undoNeed
  else undoNeed

/-- The write has waited for room in the reserve: the wait counted (R370). -/
def State.countStall (s : State) (w : WaitWrite) : State :=
  match w.since with
  | some t => s.bump64 Reg.cbwStall (s.now - t)
  | none => s

/-- The lines that a range of bytes meets, as address div 64. -/
def linesOf (a n : Nat) : List Nat := if n = 0 then [] else (List.range ((a + n - 1) / 64 - a / 64 + 1)).map (fun i => a / 64 + i)

/-- The device of this sled that bit `x` of a presence vector names (R325). -/
def State.sledPeer (s : State) (x : Nat) : Nat := devOf (podOf s.gdn) (sledOf s.gdn) x

/-- Invalidations sent to every holder of a line (R325): type 0xB, operation 0 (log entry 29). -/
def State.invalidate (s : State) (line : Nat) : State :=
  let v := Tab.get 0 s.fabric.directory line
  let gs := ((List.range 8).filter (fun x => bitOf v x)).map s.sledPeer
  if gs = [] then s
  else
    let s1 : State := { s with fabric := { s.fabric with
      directory := Tab.set 0 line 0 s.fabric.directory
      invalWait := Tab.set [] line (Tab.get [] s.fabric.invalWait line ++ gs) s.fabric.invalWait } }
    (gs.foldl (fun s g => s.sendTx (s.mkTx 0xB 0 g (s.gdn * 2 ^ 48 + line * 64) 0 [])) s1).bump64 Reg.fabInval gs.length

/-- A line of the range is held by remote-line caches, or its holders have not all acknowledged. -/
def State.heldLines (s : State) (a n : Nat) : Bool :=
  (linesOf a n).any (fun l => decide (Tab.get 0 s.fabric.directory l ≠ 0) || decide (Tab.get [] s.fabric.invalWait l ≠ []))

/-- A write that needs no copy: performed, or kept until the holders of its lines have dropped them (R325). -/
def State.commitWrite (s : State) (w : WaitWrite) : State × Option WaitWrite :=
  if s.heldLines w.addr w.data.length then
    ((linesOf w.addr w.data.length).foldl (fun s l => s.invalidate l) s, some w)
  else (s.store w.origin w.addr w.data w.tag, none)

/-- The undo reserve has filled (R55): the step is unprotected, and where its abort has been decided, this device and its peers fall back
to complete-and-skip. -/
def State.undoFills (s : State) : State :=
  let s1 := ({ s with memory := { s.memory with undoFull := true } }).recordFlag 4
  if s1.tick.overrun = some 1 then { s1 with tick := { s1.tick with overrun := some 0 } }.triggerPeers 0 0 1 else s1

/-- One queued write served as far as it can go now: performed, or a copy begun. The write that still waits is answered. -/
def State.serveWrite (s : State) (w : WaitWrite) : State × Option WaitWrite :=
  match s.writeNeed w.granule w.origin with
  | .none => s.commitWrite w
  | .undoFull => s.undoFills.commitWrite w
  | .wait => (s, some w)
  | .cbwFull => (s.excursion 3, some { w with since := some (w.since.getD s.now) })
  | .cbw =>
    (({ s.countStall w with ckpt := { s.ckpt with
          grans := Tab.put w.granule (.saving (s.imageOf w.granule)) s.ckpt.grans } }).bump32
      (Reg.cbwUsed (granuleStack w.granule)) 1 |>.bump64 Reg.cbwCopies 1 |>.excursion 3, some { w with since := none })
  | .undo =>
    ({ s with memory := { s.memory with
        undo := Tab.put w.granule ⟨s.imageOf w.granule, false⟩ s.memory.undo } }, some w)

/-- The queued writes served in order. A write behind another waiting write of its granule waits too. -/
def State.serveWrites (s : State) : List WaitWrite → State
  | [] => s
  | w :: r =>
    if s.memory.waits.any (fun v => v.granule = w.granule) then
      State.serveWrites { s with memory := { s.memory with waits := s.memory.waits ++ [w] } } r
    else
      match s.serveWrite w with
      | (s1, none) => State.serveWrites s1 r
      | (s1, some w1) => State.serveWrites { s1 with memory := { s1.memory with waits := s1.memory.waits ++ [w1] } } r

/-- The waiting writes tried again after a copy has completed. -/
def State.retryWrites (s : State) : State :=
  State.serveWrites { s with memory := { s.memory with waits := [] } } s.memory.waits

/-- Pieces of a range that lie each in one tile. -/
def tilePieces (a : Nat) (bs : List Byte) : List (Nat × List Byte) :=
  let head := 4096 - a % 4096
  if bs.length ≤ head then (if bs = [] then [] else [(a, bs)])
  else
    (a, bs.take head) ::
      ((chunksOf 4096 (bs.length / 4096 + 1) (bs.drop head)).zipIdx.map (fun p => (a + head + p.2 * 4096, p.1)))

/-- A piece of one tile written by `o`: through the granule copies in job HBM, and elsewhere at once, unless the core whose
store it lies in migrates (R20). -/
def State.writePiece (s : State) (o : Origin) (tag : Option Tag) (a : Nat) (bs : List Byte) : State :=
  if rangeOf a = .hbm then s.serveWrites [⟨s.granuleOf a, a, bs, tag, o, none⟩]
  else if s.moving a then s.serveWrites [⟨storeGranule + (a - storeBase) / storeSize, a, bs, tag, o, none⟩]
  else s.store o a bs tag

/-- Bytes written by `o`; the tiles written are left unsealed. -/
def State.write (s : State) (o : Origin) (a : Nat) (bs : List Byte) : State :=
  (tilePieces a bs).foldl (fun s p => s.writePiece o none p.1 p.2) s

/-- The tag a writer leaves on a tile that it writes completely: `seal` by its checksum policy, and its stamp. -/
def tagOf (bs : List Byte) (sealed_ : Bool) (stamp : Option (ListId × Nat × Nat)) : Tag :=
  match stamp with
  | some (l, i, step) => ⟨if sealed_ then crc32c bs else 0, sealed_, true, l, i, BitVec.ofNat 32 step⟩
  | none => ⟨if sealed_ then crc32c bs else 0, sealed_, false, 0, 0, 0⟩

/-- Bytes written by an op that seals the tiles it writes completely where `sealed_` holds and stamps them (R225,
R226). -/
def State.writeSealed (s : State) (o : Origin) (sealed_ : Bool) (stamp : Option (ListId × Nat × Nat)) (a : Nat)
    (bs : List Byte) : State :=
  (tilePieces a bs).foldl
    (fun s p => s.writePiece o
      (if p.1 % 4096 = 0 ∧ p.2.length = 4096 then some (tagOf p.2 sealed_ stamp) else none) p.1 p.2) s

/-- Memory as it will stand once the waiting writes have been performed: what an atomic or a merge reads. -/
def State.rdNew (s : State) (a n : Nat) : List Byte :=
  Mem.read (s.memory.waits.foldl (fun m w => Mem.write m w.addr w.data) s.mem) a n

/-- A waiting write of this origin. -/
def State.hasWaits (s : State) (o : Origin) : Bool := s.memory.waits.any (fun w => w.origin = o)

-- tensor declarations

def State.tensor? (s : State) (id : Nat) : Option Tensor :=
  match s.job with
  | some j => j.tensors.find? (fun t => t.id = id)
  | none => none

/-- Element width of a declaration (R186). -/
def Tensor.width (t : Tensor) : Nat := Ctl.width ⟨t.fmt, t.sgn, t.q, t.scaleMode⟩

/-- The element index at bit address `b` (R186). -/
def Tensor.index (t : Tensor) (b : Nat) : Nat :=
  if t.storage = 0 then t.origin + (b - t.base * 8) / t.width
  else
    let n := (b / 8 - storeBase) / storeSize
    t.origin + (n - t.first) * t.held + (b - (coreStore n + t.base) * 8) / t.width

/-- The element index of a destination element, 0 without a declaration. -/
def State.elemIndex (s : State) (id b : Nat) : Nat :=
  match s.tensor? id with
  | some t => t.index b
  | none => 0

/-- The tile index of R186. -/
def State.tileIndex (s : State) (id a : Nat) : Nat :=
  match s.tensor? id with
  | some t => t.index (a * 8) * t.width / 32768
  | none => 0

/-- The stochastic draw of R194 for element index `i`. -/
def State.draw (s : State) (id i : Nat) : Nat :=
  srDraw (s.reg Reg.jobSeed).toNat id (s.reg Reg.stepIndex).toNat i

-- atomics (R172)

/-- An atomic's new value from the old one, the operand and the compare value; integers of `w` bytes. -/
def atomicInt (op w : Nat) (sgn : Bool) (old x cmp : Nat) : Nat :=
  let b := 8 * w
  let less (p q : Nat) : Bool := if sgn then decide (signedOf b p < signedOf b q) else decide (p < q)
  match op with
  | 0 => (old + x) % 2 ^ b
  | 1 => old &&& x
  | 2 => old ||| x
  | 3 => old ^^^ x
  | 4 => if less x old then x else old
  | 5 => if less old x then x else old
  | 6 => x
  | _ => if old = cmp then x else old

/-- The format of a float atomic of `w` bytes: FP32 or FP64. -/
def atomicCtl (w : Nat) : Ctl := ⟨if w = 8 then 0 else 1, false, 0, 0⟩

/-- A float atomic and the counter it lands in (R94): add rounds under `rd`, min and max are IEEE minimum and maximum
(R141, R197), which never round; `dr` is the draw of a stochastic rounding (R86); a NaN that an operand brings is not counted again (R133). -/
def atomicFloat (rd : Rounding) (dr op w : Nat) (old x : Nat) : Nat × Tally :=
  let c := atomicCtl w
  let a := c.decode old
  let b := c.decode x
  if op = 8 then
    let r := Num.add rd.rnd a b
    let (v, t) := convert rd c 127 dr r
    (v, if r.isNan && (a.isNan || b.isNan) then .none else t)
  else ((convert ⟨0, false, false⟩ c 127 0 (if op = 9 then Num.minimum a b else Num.maximum a b)).1, .none)

/-- The new value of the atomic with operation byte `opByte`, and its counter. -/
def atomicNew (rd : Rounding) (dr opByte old x cmp : Nat) : Nat × Tally :=
  if atomicOp opByte < 8 then (atomicInt (atomicOp opByte) (atomicWidth opByte) (atomicSigned opByte) old x cmp, .none)
  else atomicFloat rd dr (atomicOp opByte) (atomicWidth opByte) old x

/-- The rounding controls of whoever sends an atomic: the op's own (R83); a remote request carries none, and rounds to
nearest even without overflow to infinity (DEDUCED: R317 has no field for them). -/
def State.roundingOf (s : State) (o : Origin) : Rounding :=
  match o with
  | .op id => ((s.cores.inflight.find? (fun p => p.id = id)).map (fun p => p.record.rounding)).getD ⟨0, false, false⟩
  | _ => ⟨0, false, false⟩

/-- The draw of the rounding of an atomic at address `a` (R86, R194): that of the element there, where the op that sends it
rounds stochastically. -/
def State.atomicDraw (s : State) (o : Origin) (a : Nat) : Nat :=
  match o with
  | .op id =>
    match s.cores.inflight.find? (fun p => p.id = id) with
    | some p => if p.record.rnd = 5 then s.draw p.record.tensorId (s.elemIndex p.record.tensorId (a * 8)) else 0
    | none => 0
  | _ => 0

/-- An atomic performed at a local address: the old value, and the state after. -/
def State.atomic (s : State) (o : Origin) (opByte a x cmp : Nat) : Nat × State :=
  let w := atomicWidth opByte
  let old := ofLE (s.rdNew a w)
  (old, s.write o a (toLE w (atomicNew (s.roundingOf o) (s.atomicDraw o a) opByte old (x % 2 ^ (8 * w)) (cmp % 2 ^ (8 * w))).1))

/-- The counter the rounding of that atomic lands in. -/
def State.atomicTally (s : State) (o : Origin) (opByte a x : Nat) : Tally :=
  let w := atomicWidth opByte
  (atomicNew (s.roundingOf o) (s.atomicDraw o a) opByte (ofLE (s.rdNew a w)) (x % 2 ^ (8 * w)) 0).2

end Sys2Proof.Machine
end

