-- ==== Sys2Proof/Machine/Events.lean ====
section
/-! DEFINITION. Status codes (R405), the event ring and MSI-X (R406 to R409), and the transactions that several
families send (R315, R460). -/
namespace Sys2Proof.Machine

-- status codes of R405
def Status.success : Nat := 0x0000
def Status.accepted : Nat := 0x0001
def Status.unknownCommand : Nat := 0x0010
def Status.badLength : Nat := 0x0011
def Status.badField : Nat := 0x0012
def Status.busy : Nat := 0x0013
def Status.wrongState : Nat := 0x0014
def Status.tickTooSoon : Nat := 0x0015
def Status.timeNotLocked : Nat := 0x0016
def Status.denied : Nat := 0x0017
def Status.tableFull : Nat := 0x0018
def Status.abandoned : Nat := 0x0019
def Status.notFound : Nat := 0x001A
def Status.imageFormat : Nat := 0x0020
def Status.imageDigest : Nat := 0x0021
def Status.imageSignature : Nat := 0x0022
def Status.imageGeneration : Nat := 0x0023
def Status.imageLayout : Nat := 0x0024
def Status.imageRule : Nat := 0x0025
def Status.moduleError : Nat := 0x0030
def Status.storageError : Nat := 0x0031
def Status.restoreDigest : Nat := 0x0032
def Status.restoreCoverage : Nat := 0x0033
def Status.orphaned : Nat := 0x0034
def Status.addressFault : Nat := 0x0040
def Status.anchorFault : Nat := 0x0041
def Status.integrityFault : Nat := 0x0042
def Status.outcomeUnknown : Nat := 0x0043
def Status.targetLost : Nat := 0x0044
def Status.internalError : Nat := 0x00F0

-- MSI-X (R409)

/-- The vector control word of MSI-X vector `v`: masked after reset (PRESUMED, log entry 9). -/
def State.msixMasked (s : State) (v : Nat) : Bool := (Tab.get 1 s.host.msixTable (v * 4 + 3)).toNat % 2 = 1

/-- Vector `v` signalled, or its pending bit set while it is masked. -/
def State.signalVector (s : State) (v : Nat) : State :=
  if !s.host.msixOn then s
  else if s.msixMasked v then
    (if v ∈ s.host.msixPending then s else { s with host := { s.host with msixPending := s.host.msixPending ++ [v] } })
  else s.send (.msix v)

-- the event ring (R406 to R408)

/-- The tick number an event carries: TCK_NUMBER, 0 while the tick is not running. -/
def State.eventTick (s : State) : Nat := if s.fld Fld.running = 1 then s.fld Fld.tickNumber else 0

/-- Source field of R407. -/
def srcMailbox (k : Nat) : Nat := k
def srcAgent (l : ListId) : Nat := 0x4000 + l
def srcPeer (g : Nat) : Nat := 0x8000 + g % 0x4000
def srcDevice : Nat := 0xC000

/-- Vector of an event type (R409): 64 + a for the agents' events, 448 + (type mod 64) for the other error events. -/
def eventVector (type source : Nat) : Nat :=
  if type = 0x11 ∨ type = 0x15 then 64 + source % 0x4000 else 448 + type % 64

/-- An event other than COMMAND_DONE. -/
def State.newEvent (s : State) (type status source severity detail : Nat) : Event :=
  ⟨type, status, source, severity, 0, 0, s.eventTick, detail, some (eventVector type source)⟩

def State.ringSize (s : State) : Nat := 2 ^ s.fld Fld.evtLog2
def State.ringUsed (s : State) : Nat :=
  ((s.reg Reg.evtTail).toNat + 2 ^ 32 - (s.reg Reg.evtHead).toNat) % 2 ^ 32

/-- The ring can take an entry (R408, R427). -/
def State.ringOpen (s : State) : Bool :=
  s.fld Fld.evtEnable = 1 && s.host.linkUp && s.host.busMaster && !s.host.d3hot && decide (s.ringUsed < s.ringSize)

/-- The 32 bytes of an entry (R407). -/
def Event.bytes (e : Event) (phase : Nat) : List Byte :=
  toLE 2 e.type ++ toLE 2 e.status ++ toLE 2 e.source ++ toLE 1 phase ++ toLE 1 e.severity ++ toLE 4 e.seq
    ++ toLE 4 e.code ++ toLE 8 e.tick ++ toLE 8 e.detail

/-- One entry written to the ring, tail advanced, its vector signalled after it (R407, R409). -/
def State.writeEvent (s : State) (e : Event) : State :=
  let tail := (s.reg Reg.evtTail).toNat
  let a := (s.reg Reg.evtBase).toNat / 4096 * 4096 + tail % s.ringSize * 32
  let s1 := (s.send (.hostWrite a (e.bytes (tail / s.ringSize % 2)))).setReg Reg.evtTail
    (BitVec.ofNat 64 ((tail + 1) % 2 ^ 32))
  match e.vector with
  | some v => s1.signalVector v
  | none => s1

def State.setHeld (s : State) (es : List Event) : State :=
  ({ s with host := { s.host with held := es } }).setFld Fld.held es.length

/-- Held events written in order while the ring can take them (R408). -/
def State.writeHeld (s : State) : List Event → State
  | [] => s.setHeld []
  | e :: r => if s.ringOpen then (s.writeEvent e).writeHeld r else s.setHeld (e :: r)

/-- The body of the REMOTE_MAILBOX record in force (R440). Its parts are laid out in this order (log entry 13): 0x00 [0] enable;
0x01 number of operator keys; 0x02 [0] IPv6 event address; 0x04 event address, 16 bytes; 0x14 UDP port; 0x18 keys of 388 bytes,
exponent and modulus. -/
def State.remoteRecord (s : State) : List Byte := (Tab.get [] s.sec.records 8).drop 32

/-- Error events, and completions of commands received remotely and of autoloads, also go to the record's event address (R403,
R421). The phase byte of
such a datagram is open. -/
def State.eventDatagram (s : State) (e : Event) : State :=
  if s.fld Fld.remoteMbx = 1 ∧ (e.type ≠ 1 ∨ (48 ≤ e.source ∧ e.source < 64) ∨ e.source = srcDevice) then
    let (v, s1) := s.fresh
    s1.send (.datagram (fieldLE s.remoteRecord 4 16) (fieldLE s.remoteRecord 0x14 2) (e.bytes (v.toNat % 2)))
  else s

/-- The in-band interrupt of an event of severity 2 or 3 (R498). -/
def State.eventIbi (s : State) (e : Event) : State := if 2 ≤ e.severity then s.send (.i3cIbi (e.type % 256)) else s

/-- An event placed in the ring: written, held, or discarded and counted (R408). -/
def State.ringEvent (s : State) (e : Event) : State :=
  if s.ringOpen && s.host.held = [] then s.writeEvent e
  else if s.host.held.length < 1024 then s.setHeld (s.host.held ++ [e])
  else s.bump32 Reg.evtLost 1

/-- An event posted (R403, R408, R498). -/
def State.postEvent (s : State) (e : Event) : State := ((s.ringEvent e).eventIbi e).eventDatagram e

/-- COMMAND_DONE of a long command (R408): severity 1 if its status is an error. -/
def State.doneEvent (s : State) (l : Long) (status detail : Nat) : Event :=
  ⟨0x0001, status, srcMailbox l.mbx, if status = 0 then 0 else 1, l.seq, l.code, s.eventTick, detail,
    if l.irq then some l.mbx else none⟩

/-- A long command ended: its event posted, or kept with the command until it can be held (R408). -/
def State.endLong (s : State) (l : Long) (status detail : Nat) : State :=
  let rest := s.host.longs.filter (fun m => m ≠ l)
  if (s.ringOpen && s.host.held = []) || decide (s.host.held.length < 1024) then
    ({ s with host := { s.host with longs := rest } }).postEvent (s.doneEvent l status detail)
  else { s with host := { s.host with longs := rest ++ [{ l with ended := some (status, detail) }] } }

/-- The running long command with this code (at most one, R402). -/
def State.longOf? (s : State) (code : Nat) : Option Long :=
  s.host.longs.find? (fun l => decide (l.code = code) && decide (l.ended = none))

/-- The running long command of a code ended, where one runs. -/
def State.endLongCode (s : State) (code status detail : Nat) : State :=
  match s.longOf? code with
  | some l => s.endLong l status detail
  | none => s

/-- What waited for the ring: held events, then commands whose event could not be held. -/
def State.flushEvents (s : State) : State :=
  let s1 := s.writeHeld s.host.held
  (s1.host.longs.filter (fun l => l.ended ≠ none)).foldl
    (fun s l => match l.ended with
      | some (st, d) =>
        if s.host.held.length < 1024 then
          ({ s with host := { s.host with longs := s.host.longs.filter (fun m => m ≠ l) } }).postEvent (s.doneEvent l st d)
        else s
      | none => s) s1

-- transactions

/-- A slow notice to one peer (R57, R341): delay factor in [7:0] of the operation word, cause in [9:8]. -/
def State.slowNoticeTx (s : State) (dst factor cause : Nat) : Tx := s.mkTx 0x8 0 dst 0 (factor + 256 * cause) []

/-- The collective and queue partners among the peers (R57). -/
def State.partners (s : State) : List Nat :=
  ((s.fabric.peers.filter (fun p => (p.2.collective || p.2.queue) && p.2.gdn ≠ s.gdn)).map (fun p => p.2.gdn))

/-- Slow notices to every collective or queue partner, and excursion bit 7 where there is one (R57, R50). -/
def State.sendSlow (s : State) (factor cause : Nat) : State :=
  if s.partners = [] then s
  else (s.partners.foldl (fun s g => s.sendTx (s.slowNoticeTx g factor cause)) s).excursion 7

/-- The slowdown lasts at device time `now`. -/
def OwnSlow.lasts (o : OwnSlow) (now : Nat) : Bool :=
  match o.ends with
  | none => true
  | some t => decide (now < t)

/-- The delay factor of a cause: the largest of its slowdowns that last, 1.0 where none does (R57, R237). -/
def State.slowOf (s : State) (cause : Nat) : Nat :=
  s.ownSlow.foldl (fun m o => if o.cause = cause ∧ o.lasts s.now = true then max m o.factor else m) 0x10

/-- A slowdown of this device begun: remembered while it lasts, notices sent (R57). A slowdown of the same cause and
unit is replaced. -/
def State.startSlow (s : State) (o : OwnSlow) : State :=
  let s1 : State :=
    { s with ownSlow := s.ownSlow.filter (fun p => !(p.cause = o.cause && p.unit = o.unit)) ++ [o] }
  s1.sendSlow (s1.slowOf o.cause) o.cause

/-- A slowdown that lasts until it is ended. -/
def State.beginSlow (s : State) (cause unit factor : Nat) : State := s.startSlow ⟨cause, unit, factor, none⟩

/-- A slowdown ended: a notice with the factor of its cause that is left, 0x10 where none is, which clears it (R57, R238). -/
def State.endSlow (s : State) (cause unit : Nat) : State :=
  if s.ownSlow.any (fun o => o.cause = cause && o.unit = unit) then
    let s1 : State := { s with ownSlow := s.ownSlow.filter (fun o => !(o.cause = cause && o.unit = unit)) }
    s1.sendSlow (s1.slowOf cause) cause
  else s

end Sys2Proof.Machine
end

