-- ==== Sys2Proof/Machine/Seq.lean ====
section
/-! DEFINITION. The sequencer (R153 to R161, R177 to R180): when a record issues, what issuing and completing an op do,
signals, phases, completion records and the job-stopped state. -/
namespace Sys2Proof.Machine

/-- The records of a list, and whether it has one. -/
def State.list (s : State) (l : ListId) : List OpRecord := Tab.get [] s.cores.lists l

/-- Count register ci of a list's agent (R155, R178). -/
def State.count (s : State) (l i : Nat) : Nat := (s.reg (Reg.count l i)).toNat
def State.setCount (s : State) (l i v : Nat) : State := s.setReg (Reg.count l i) (BitVec.ofNat 64 (v % 2 ^ 32))

/-- Ops of a list in flight. -/
def State.listOps (s : State) (l : ListId) : List InFlight := s.cores.inflight.filter (fun o => o.list = l)

/-- Count registers a record reads (R154, R157, R167, R168). -/
def recReads (r : OpRecord) : List Nat :=
  (if r.waitKind = 1 then [r.waitObj % 64] else []) ++
  (if r.unit = 0 then
    (if r.opcode = 3 ∨ r.opcode = 4 then r.dst :: (if r.src then [r.srcReg] else [])
     else if r.opcode = 5 then [r.loopCnt] else [])
   else if r.unit = 3 ∧ r.opcode = 2 then (if r.src then [r.srcReg] else [])
   else if r.unit = 5 then []
   else if r.idxEn then [r.idxCnt] else [])

/-- Destinations of SETVL ops that have not completed (R154, R167). -/
def State.setvlPending (s : State) (l : ListId) : List Nat :=
  ((s.listOps l).filter (fun o => decide (o.record.unit = 3) && decide (o.record.opcode = 2))).map (fun o => o.record.dst)

/-- The target unit has room (R153, R250): an engine holds one running op and 8 not started (a Marrow engine 4), the
transfer unit 16 active ops. -/
def State.unitRoom (s : State) (l : ListId) (u : Nat) : Bool :=
  let n := ((s.listOps l).filter (fun o => o.record.unit = u)).length
  decide (u = 0 ∨ ((u = 1 ∨ u = 2 ∨ u = 3) ∧ n < 9) ∨ (u = 4 ∧ n < 16) ∨ (u = 5 ∧ n < 5))

/-- The capture instant of an armed checkpoint is this tick and has not been taken: it precedes every record of the step
(R366; DESIGN CHOICE, log entry 15). -/
def State.captureDue (s : State) : Bool :=
  s.fld Fld.ckpState = 1 && s.tick.stepRunning && decide (s.ckpt.tick ≤ s.tick.stepTick)

/-- The device lets sequencers issue: a step runs, and no stop holds them (R158, R161, R239, R457). -/
def State.issuing (s : State) : Bool :=
  s.tick.stepRunning && s.tick.stopped = none && !s.tick.halted && !s.captureDue &&
    decide (s.fld Fld.state ≠ 5 ∧ s.fld Fld.state ≠ 6 ∧ s.fld Fld.state ≠ 8)

/-- The core of a list migrates (R20). -/
def State.migrating (s : State) (l : ListId) : Bool := l < 192 && s.fld (Fld.coreState l) = 1

/-- What R154 says of a record: not its turn, held by a wait (code of R179 and stall counter of R180), or ready. -/
inductive Gate where
  | notNext
  | held (wait stall : Nat)
  | ready
  deriving DecidableEq, Repr

/-- A producer of the list is to replay its record, ahead of the list's next one (R229). -/
def State.replays (s : State) (l : ListId) : Bool :=
  s.cores.inflight.any (fun o => o.replaying.any (fun t => decide ((s.tag (t * 4096)).producer = l)))

/-- The record is the next of its list, and the list's sequencer issues. -/
def State.isNext (s : State) (l : ListId) (r : OpRecord) : Bool :=
  s.issuing && !s.replays l && decide (s.fld (Fld.seqState l) < 2) && !(l ∈ s.cores.refetching)
    && decide ((s.list l)[s.fld (Fld.seqNext l)]? = some r)

/-- The pre-wait of R157. -/
def State.preWait (s : State) (l : ListId) (r : OpRecord) : Bool :=
  if r.waitKind = 1 then decide (r.waitValue ≤ s.count l (r.waitObj % 64))
  else if r.waitKind = 2 then decide (r.waitValue ≤ s.qCount r.waitObj)
  else true

/-- The conditions of R154 in their order. -/
def State.gate (s : State) (l : ListId) (r : OpRecord) : Gate :=
  if !s.isNext l r then .notNext
  else if s.migrating l then .held 7 15
  else if !bitOf (s.fld (Fld.released l)) r.phase then .held 1 7
  else if !s.preWait l r then (if r.waitKind = 1 then .held 2 8 else .held 3 9)
  else if (recReads r).any (fun c => c ∈ s.setvlPending l) then .held 4 8
  else if !s.unitRoom l r.unit then .held 5 10
  else .ready

/-- The waiting cycles of a list's sequencer counted up to now (R180). -/
def State.countWait (s : State) (l : ListId) : State :=
  match s.waitCounter l with
  | some j => (s.bump64 (Reg.seqCounter l j) (s.waitCycles l)).setReg (Reg.waited l) (s.reg Reg.tckTime)
  | none => s

/-- The waiting cycles of every sequencer counted up to now: before the clock that counts them, or the time, changes. -/
def State.settleWaits (s : State) : State := (List.range 384).foldl (fun s l => s.countWait l) s

/-- Every sequencer's waiting is counted from now on. -/
def State.markWaits (s : State) : State :=
  (List.range 384).foldl (fun s l => s.setReg (Reg.waited l) (s.reg Reg.tckTime)) s

/-- State and wait code of a sequencer (R179); what it has waited till now is counted first. -/
def State.setSeq (s : State) (l state wait : Nat) : State :=
  (((s.countWait l).setFld (Fld.seqState l) state).setFld (Fld.seqWait l) wait).setReg (Reg.waited l) (s.reg Reg.tckTime)

/-- The sequencer waits: state 0b01 with the wait code (R179); its cycles count in counter `_stall` of R180 as they pass. -/
def State.holdSeq (s : State) (l wait _stall : Nat) : State := s.setSeq l 1 wait

/-- The record has issued: the sequencer issues on, from record `n`. -/
def State.seqTo (s : State) (l n : Nat) : State := (s.setSeq l 0 0).setFld (Fld.seqNext l) n

def State.advance (s : State) (l : ListId) : State := s.seqTo l (s.fld (Fld.seqNext l) + 1)

/-- A sequencer record: held, or issued with its effect `f` on the state after the sequencer moved on. The unit and
opcode are those of the command (R166). -/
def State.seqRecord (s : State) (l : ListId) (r : OpRecord) (opcode : Nat) (f : State → State) : State :=
  if r.unit ≠ 0 ∨ r.opcode ≠ opcode then s
  else
    match s.gate l r with
    | .notNext => s
    | .held w j => s.holdSeq l w j
    | .ready => f (s.advance l)

-- phases (R159, R179)

/-- Phases finished for a list: passed or at the end-of-step wait, with no op of the phase in flight. -/
def State.finishedPhases (s : State) (l : ListId) : Nat :=
  let ended := s.fld (Fld.seqState l) = 2
  (List.range 16).foldl
    (fun b p =>
      if (ended ∨ bitOf (Tab.get 0 s.cores.passed l) p) ∧ !(s.listOps l).any (fun o => o.record.phase = p)
      then setBit b p else b) 0

def State.refreshPhases (s : State) (l : ListId) : State := s.setFld (Fld.finished l) (s.finishedPhases l)

/-- A phase is complete when it is finished on every core and every Marrow engine (R48, R159). -/
def State.phaseComplete (s : State) (p : Nat) : Bool :=
  (List.range 384).all (fun l => bitOf (s.finishedPhases l) p)

/-- Every sequencer has reached its end-of-step wait (R48). -/
def State.allEnded (s : State) : Bool := (List.range 384).all (fun l => s.fld (Fld.seqState l) = 2)

/-- A step that has become complete ends: its completion time goes to the tick record (R50), and the step index counts
it (R195). -/
def State.checkStepEnd (s : State) : State :=
  if s.tick.stepRunning && s.allEnded && s.cores.inflight.isEmpty then
    let c := (s.now - s.tick.stepTime) / 10
    let s1 : State := { s with tick := { s.tick with stepRunning := false } }
    let s2 := s1.setFld ⟨Reg.stepIndex, 63, 0⟩ (s.fld ⟨Reg.stepIndex, 63, 0⟩ + 1)
    if s.tick.stepTick = s.tick.record.number then
      { s2 with tick := { s2.tick with record := { s2.tick.record with completion := c } } }
    else
      let s3 : State :=
        if s.tick.stepTick = s.tick.newest.number then
          { s2 with tick := { s2.tick with newest := { s2.tick.newest with completion := c } } }
        else s2
      match s.job with
      | some j => s3.write .firmware (j.tickLogBase + s.tick.stepTick % 2 ^ j.tickLogN * 64 + 0x10) (toLE 4 c)
      | none => s3
  else s

/-- The sequencer reaches its end-of-step wait (R158). -/
def State.endOfStep (s : State) (l : ListId) : State :=
  ((s.setSeq l 2 0).refreshPhases l).checkStepEnd

-- signals (R156)

/-- The count register a signal increments, as list and index. -/
def sigTarget (r : OpRecord) (l : ListId) : ListId :=
  if r.sigTgt = 0xFF then l else if r.sigMarrow then 192 + r.sigTgt else r.sigTgt

def State.signalFrom (s : State) (l : ListId) (r : OpRecord) : State :=
  if r.sigEn then s.setCount (sigTarget r l) r.sigCnt (s.count (sigTarget r l) r.sigCnt + 1) else s

-- the job-stopped state (R161)

/-- The overrun point of the running step has passed: in this tick, or in an earlier one (R51). -/
def State.pointPast (s : State) : Bool :=
  s.tick.stepRunning && (s.tick.pointPassed || decide (s.tick.stepTick ≠ s.tick.record.number))

/-- The device enters the job-stopped state for the fault of device `src` (R161): every peer is told once, the event is
posted, and the record of a step that has reached its overrun point says so. No rerun follows. A device in protective stop or
in need of service is lost to its job and stays as it is (R239, R352; DEDUCED, log entry 34). -/
def State.enterStopped (s : State) (src : Nat) : State :=
  if s.tick.stopped.isSome ∨ s.fld Fld.state = 6 ∨ s.fld Fld.state = 8 then s
  else
    let s1 : State := { s with tick := { s.tick with stopped := some src, overrun := none, rerun := false } }
    let s2 := (s1.triggerPeers 2 0 src).setDevState 5
    let s3 := s2.postEvent (s2.newEvent 0x1C 0 srcDevice 2 src)
    if s.pointPast && decide (s.tick.stepTick = s.tick.record.number) then s3.recordFlag 0 else s3

/-- A fault stops the sequencer of a list (R160), and the device at once where the overrun point has passed (R161). -/
def State.stopSeq (s : State) (l : ListId) : State :=
  let s1 := s.setSeq l 3 0
  if s.pointPast then s1.enterStopped s1.gdn else s1

-- ops in flight

/-- A new op of a list for a record (R153). -/
def State.newOp (s : State) (l : ListId) (r : OpRecord) : InFlight where
  id := s.cores.nextId
  list := l
  index := s.fld (Fld.seqNext l)
  record := r
  status := 0
  flags := 0
  cnt := Counters.zero
  issue := s.now - s.tick.stepTime
  digest := 0
  fault := 0
  requests := []
  got := []
  crcs := []
  pending := .done
  fingerprint := 0
  replayable := false
  reloading := []
  replaying := []
  queued := false
  recorded := false
  idx :=
    if r.unit = 3 ∧ r.opcode = 2 then (if r.src then s.count l r.srcReg else r.imm)
    else if r.idxEn then s.count l r.idxCnt else 0

def State.pushOp (s : State) (o : InFlight) : State :=
  { s with cores := { s.cores with inflight := s.cores.inflight ++ [o], nextId := o.id + 1 } }

/-- The op with this identifier. -/
def State.op? (s : State) (id : Nat) : Option InFlight := s.cores.inflight.find? (fun o => o.id = id)

def State.setOp (s : State) (o : InFlight) : State :=
  { s with cores := { s.cores with inflight := s.cores.inflight.map (fun p => if p.id = o.id then o else p) } }

/-- An op gone, and with it what the device remembers of its writes. -/
def State.dropOp (s : State) (id : Nat) : State :=
  { s with
    cores := { s.cores with inflight := s.cores.inflight.filter (fun p => p.id ≠ id) }
    memory := { s.memory with
      begun := s.memory.begun.filter (fun e => e.1 ≠ id)
      spoiled := s.memory.spoiled.filter (fun e => e.1 ≠ id) } }

/-- An op that ends with a fault status; the first fault is kept. -/
def InFlight.failed (o : InFlight) (status fault : Nat) : InFlight :=
  if o.status = 0 then { o with status := status, fault := fault } else o

/-- What an op still waits for before its record can be written: its start, requests, queue or peer data, reloads, granule
copies. -/
def State.unfinished (s : State) (o : InFlight) : Bool :=
  o.queued || !o.requests.isEmpty || o.pending != .done || !o.reloading.isEmpty || s.hasWaits (.op o.id) ||
    s.fabric.rankWait.any (fun w => w.origin = .op o.id)

/-- The logical Marrow engines whose lists run on the engine that runs list `l`: itself, its guest or its host (R273). -/
def State.engineLists (s : State) (l : ListId) : List ListId :=
  if l < 192 then [l]
  else ((List.range 16).map (fun i => 192 + (l - 192) / 16 * 16 + i)).filter
    (fun m => s.fld (Fld.mrwPhys (m - 192)) = s.fld (Fld.mrwPhys (l - 192)))

/-- An engine runs its ops one after the other in issue order (R153, R250): an op waits while an older one of its list has not
started or waits for a reload, and on a Marrow engine while any op of the engine has not done all of its work. -/
def State.engineBusy (s : State) (o : InFlight) : Bool :=
  o.record.unit ≠ 4 &&
    s.cores.inflight.any (fun p => decide (p.id ≠ o.id) && decide (p.record.unit = o.record.unit) &&
      (if o.record.unit = 5 ∧ p.queued = false then decide (p.list ∈ s.engineLists o.list) && s.unfinished p
       else decide (p.list = o.list) && decide (p.id < o.id) && (p.queued || !p.reloading.isEmpty)))

/-- A record that a unit runs: held, or issued, and the op run by `run` once its engine is free. -/
def State.issueOp (s : State) (l : ListId) (r : OpRecord) (run : State → InFlight → State × InFlight) : State :=
  match s.gate l r with
  | .notNext => s
  | .held w j => s.holdSeq l w j
  | .ready =>
    let o := s.newOp l r
    let s1 := (s.advance l).pushOp o
    if s1.engineBusy o then s1.setOp { o with queued := true }
    else
      let (s2, o2) := run s1 o
      s2.setOp o2

-- counters (R94)

def Counters.count (c : Counters) (t : Tally) : Counters :=
  match t with
  | .none => c
  | .nan => { c with nan := c.nan + 1 }
  | .saturated => { c with saturated := c.saturated + 1 }
  | .flushed => { c with flushed := c.flushed + 1 }
  | .inexact => { c with inexact := c.inexact + 1 }

def Counters.addAll (c : Counters) (ts : List Tally) : Counters := ts.foldl Counters.count c

def Counters.plus (a b : Counters) : Counters :=
  ⟨a.saturated + b.saturated, a.flushed + b.flushed, a.nan + b.nan, a.inexact + b.inexact,
    a.truncated + b.truncated, a.overflowed + b.overflowed⟩

-- completion records (R176, R177)

/-- The largest value of a counter field. -/
def sat32 (n : Nat) : Nat := min n 0xFFFFFFFF

/-- The agent's completion array and slot address of an op, where its list has an array. -/
def State.slotAddr (s : State) (o : InFlight) : Nat :=
  match s.job with
  | some j => (Tab.get (0, 0) j.arrays o.list).2 + o.record.crIndex * 64
  | none => 0

/-- The completion record of an op (R176). -/
def State.recordBytes (s : State) (o : InFlight) : List Byte :=
  toLE 8 s.tick.stepTick
    ++ toLE 4 (o.index + o.record.unit * 2 ^ 20 + o.record.opcode * 2 ^ 23 + o.record.phase * 2 ^ 28)
    ++ toLE 2 o.status ++ toLE 2 o.flags
    ++ toLE 4 (sat32 o.cnt.saturated) ++ toLE 4 (sat32 o.cnt.flushed) ++ toLE 4 (sat32 o.cnt.nan)
    ++ toLE 4 (sat32 o.cnt.inexact) ++ toLE 4 (sat32 o.cnt.truncated) ++ toLE 4 (sat32 o.cnt.overflowed)
    ++ toLE 4 o.issue ++ toLE 4 (s.now - s.tick.stepTime) ++ toLE 8 o.digest.toNat ++ toLE 8 o.fault

/-- A later execution merged into the record in the slot (R177). -/
def mergeRecord (old new : List Byte) : List Byte :=
  let f (off n : Nat) := fieldLE old off n
  let g (off n : Nat) := fieldLE new off n
  let sum (off : Nat) := toLE 4 (sat32 (f off 4 + g off 4))
  slice new 0 0x0C
    ++ (if f 0x0C 2 ≠ 0 then slice old 0x0C 2 else slice new 0x0C 2)
    ++ toLE 2 (f 0x0E 2 ||| g 0x0E 2)
    ++ sum 0x10 ++ sum 0x14 ++ sum 0x18 ++ sum 0x1C ++ sum 0x20 ++ sum 0x24
    ++ slice old 0x28 4 ++ slice new 0x2C 4 ++ toLE 8 (f 0x30 8 + g 0x30 8)
    ++ (if f 0x0C 2 ≠ 0 then slice old 0x38 8 else slice new 0x38 8)

/-- The completion record written, or merged where the slot's first-execution bit is set (R177). -/
def State.writeRecord (s : State) (o : InFlight) : State :=
  let a := s.slotAddr o
  let new := s.recordBytes o
  if (o.list, o.record.crIndex) ∈ s.cores.firstDone then
    s.write (.op o.id) a (mergeRecord (s.rdNew a 64) new)
  else
    let s1 : State := { s with cores := { s.cores with firstDone := s.cores.firstDone ++ [(o.list, o.record.crIndex)] } }
    s1.write (.op o.id) a new

/-- The replay log entry of an execution (R229): replayable only if it executed once in the step. -/
def State.logReplay (s : State) (o : InFlight) : State :=
  let k := o.list * 65536 + o.record.crIndex
  let first := !((o.list, o.record.crIndex) ∈ s.cores.firstDone)
  { s with cores := { s.cores with
      replay := Tab.put k ⟨o.fingerprint, o.replayable && first && o.status = 0, o.record, o.idx⟩ s.cores.replay } }

/-- The op may have varied: may_vary with repro clear (R170, R200). -/
def State.varied (s : State) (o : InFlight) : Bool := o.record.mayVary && s.fld Fld.repro = 0

/-- Counters of the waits inside an op's run (R180, R276): a bank of the core store, or for a Marrow engine its own stack,
another stack, the host's other list, and its 64 requests. -/
def stallCounters (u : Nat) : List Nat := if u = 3 then [5] else if u = 4 then [6] else if u = 5 then [4, 5, 6, 12] else [4]

/-- The cycles an op has spent in those waits, which no rule gives: free values (log entry 18). -/
def State.countStalls (s : State) (o : InFlight) : State :=
  (stallCounters o.record.unit).foldl
    (fun s j => s.bump64 (Reg.seqCounter o.list j) (Config.stallCycles o.list j o.id)) s

/-- The rest of completion, after the record has been written: SETVL's count register, the phase, the variation
counters, then the signal or the stop (R156, R160, R167, R200). -/
def State.finishOp (s : State) (o : InFlight) : State :=
  let s1 := s.dropOp o.id
  let s2 := if o.record.unit = 3 ∧ o.record.opcode = 2 then
      s1.setCount o.list o.record.dst o.idx else s1
  let s3 := if s.varied o then (s2.bump64 Reg.numVary 1).setFld Fld.varSeen 1 else s2
  let s4 := s3.refreshPhases o.list
  (if o.status = 0 then (s4.signalFrom o.list o.record).checkStepEnd
  else
    let detail := o.index + o.record.crIndex * 2 ^ 20
    (s4.postEvent (s4.newEvent 0x11 o.status (srcAgent o.list) 2 detail)).stopSeq o.list).countStalls o

/-- An op whose work is done completes (R156, R176): its record is written, and once that has been performed the rest
follows. -/
def State.completeOp (s : State) (o : InFlight) : State :=
  if s.unfinished o then s
  else if o.recorded then s.finishOp o
  else
    let o1 : InFlight := { o with recorded := true, flags := if s.varied o then setBit o.flags 0 else o.flags }
    let s1 := ((s.logReplay o1).writeRecord o1).setOp o1
    if s1.hasWaits (.op o.id) then s1 else s1.finishOp o1

end Sys2Proof.Machine
end

