-- ==== Sys2Proof/Machine/Tiles.lean ====
section
/-! DEFINITION. What every op that reads and writes elements shares: reading elements and scales (R76 to R82), the tensor
declarations (R185, R186), converting to a destination (R84, R87, R95, R188 to R190), sealing and digests (R169, R204,
R205), and the verification of input tiles (R227 to R229). -/
namespace Sys2Proof.Machine

/-- `w` bits from bit address `b` (R76), read as the device reads local memory. -/
def State.rdBits (s : State) (b w : Nat) : Nat :=
  (ofLE (s.readLocal (b / 8) ((b % 8 + w + 7) / 8)) >>> (b % 8)) % 2 ^ w

/-- The scale that covers block `j` of an operand: 127 where unscaled (R78 to R82). -/
def State.scaleAt (s : State) (c : Ctl) (scaleAddr j : Nat) : Nat :=
  if c.mode = 0 then 127 else s.rdLE (scaleAddr + (if c.mode = 3 then 0 else j)) 1

/-- Block number of element `i` of rows of `row` elements (R79 to R82): rows count in mode 0b01 only. -/
def blockOf (c : Ctl) (row i : Nat) : Nat :=
  if c.mode = 1 then i / row * ((row + 31) / 32) + i % row / 32
  else if c.mode = 2 then i / 1024 else 0

/-- Scales that cover `rows` rows of `row` elements (R79 to R82). -/
def scalesOf (c : Ctl) (rows row : Nat) : Nat :=
  match c.mode with
  | 0 => 0
  | 1 => rows * ((row + 31) / 32)
  | 2 => (rows * row + 1023) / 1024
  | _ => 1

/-- The value of an element at bit address `b` under the scale of block `j` (R77, R78). -/
def State.element (s : State) (c : Ctl) (scaleAddr b j : Nat) : Num :=
  (c.decode (s.rdBits b c.width)).scaled (s.scaleAt c scaleAddr j)

-- destination elements

/-- One destination element: bit address, scale block and value; `none` is a zeroed element (R139). -/
structure OutElem where
  bit : Nat
  blk : Nat
  x : Option Num
  deriving DecidableEq, Repr

/-- Bits written: from bit address `bit`, `width` bits of value `val`. -/
structure BitRun where
  bit : Nat
  width : Nat
  val : Nat
  deriving DecidableEq, Repr

/-- A run put before the first that starts after it. -/
def insertRun (p : BitRun) : List BitRun → List BitRun
  | [] => [p]
  | q :: r => if p.bit < q.bit then p :: q :: r else q :: insertRun p r

/-- Runs in ascending order; equal starts keep their order. -/
def sortRuns (ps : List BitRun) : List BitRun := ps.foldl (fun acc p => insertRun p acc) []

/-- Adjacent runs joined. -/
def joinRuns : List BitRun → List BitRun
  | [] => []
  | p :: r =>
    match joinRuns r with
    | [] => [p]
    | q :: t =>
      if p.bit + p.width = q.bit then ⟨p.bit, p.width + q.width, p.val + q.val <<< p.width⟩ :: t else p :: q :: t

/-- A run as byte writes: a byte that the run covers in part is merged with what it holds (R76). -/
def State.runBytes (s : State) (p : BitRun) : List (Nat × List Byte) :=
  let hd := if p.bit % 8 = 0 then 0 else min p.width (8 - p.bit % 8)
  let body := (p.width - hd) / 8
  let tl := p.width - hd - body * 8
  let merge (a lo n v : Nat) : Nat × List Byte :=
    let old := ofLE (s.rdNew a 1)
    (a, toLE 1 (old - (bitsOf old (lo + n - 1) lo) <<< lo + v <<< lo))
  (if hd = 0 then [] else [merge (p.bit / 8) (p.bit % 8) hd (p.val % 2 ^ hd)])
    ++ (if body = 0 then [] else [((p.bit + hd) / 8, toLE body (p.val >>> hd))])
    ++ (if tl = 0 then [] else [merge ((p.bit + hd) / 8 + body) 0 tl (p.val >>> (hd + body * 8))])

/-- Bits of a run that lie in tile `t`. -/
def BitRun.inTile (p : BitRun) (t : Nat) : Nat :=
  min (p.bit + p.width) ((t + 1) * 32768) - max p.bit (t * 32768)

/-- Numbers in ascending order without repeats. -/
def insertNat (n : Nat) : List Nat → List Nat
  | [] => [n]
  | m :: r => if n < m then n :: m :: r else if n = m then m :: r else m :: insertNat n r
def ascending (l : List Nat) : List Nat := l.foldl (fun acc n => insertNat n acc) []

/-- Tiles a run touches. -/
def BitRun.tiles (p : BitRun) : List Nat :=
  if p.width = 0 then []
  else (List.range ((p.bit + p.width - 1) / 32768 - p.bit / 32768 + 1)).map (fun i => p.bit / 32768 + i)

def runTiles (ps : List BitRun) : List Nat := ascending (ps.flatMap BitRun.tiles)

/-- The tile is covered completely by the runs. -/
def wholeTile (ps : List BitRun) (t : Nat) : Bool := (ps.foldl (fun n p => n + p.inTile t) 0) ≥ 32768

/-- What converting to a destination gives: the runs to write, the tally of each written element, statistics by tile and
the statistics tiles it covers (R95), overflowed blocks (R188) and the scales computed in passing (R79). -/
structure ConvOut where
  runs : List BitRun
  tallies : List Tally
  stats : List (Nat × Num × Tally)
  covers : List Nat
  overflowed : List Nat
  scales : List (Nat × Nat)
  deriving DecidableEq, Repr

/-- The scale of each MX block among the elements, from the block's own source elements (R79). -/
def mxScales (fmt : Nat) (es : List OutElem) : Tab Nat :=
  let groups : Tab (List Num) := es.foldl
    (fun t e => match e.x with
      | some x => Tab.put e.blk (x :: Tab.get [] t e.blk) t
      | none => t) []
  groups.map (fun g => (g.1, mxScale fmt g.2))

/-- Elements converted to a destination's controls (R84, R87). `same`: the values are already in the destination's
format and nothing is converted. -/
def State.convertOut (s : State) (rd : Rounding) (src dst : Ctl) (scaleAddr tensorId : Nat) (same : Bool)
    (es : List OutElem) : ConvOut :=
  let mx := if dst.mode = 1 then mxScales dst.fmt es else []
  let narrow := !same && narrowing src dst
  let rd : Rounding := if same then ⟨0, false, true⟩ else rd
  let one (e : OutElem) : BitRun × Tally :=
    match e.x with
    | none => (⟨e.bit, dst.width, 0⟩, .none)
    | some x =>
      let sc := if dst.mode = 1 then Tab.get 127 mx e.blk else s.scaleAt dst scaleAddr e.blk
      let dr := if rd.rnd = 5 then s.draw tensorId (s.elemIndex tensorId e.bit) else 0
      let (v, t) := convert rd dst sc dr x
      (⟨e.bit, dst.width, v⟩, if same then .none else t)
  let rs := es.map (fun e => (e, one e))
  { runs := joinRuns (sortRuns (rs.map (fun p => p.2.1)))
    tallies := (rs.filter (fun p => p.1.x.isSome)).map (fun p => p.2.2)
    stats := if narrow then
        rs.filterMap (fun p => p.1.x.map (fun x => (p.1.bit / 32768, x, p.2.2))) else []
    covers := if narrow then ascending (es.map (fun e => e.bit / 32768)) else []
    overflowed := if dst.mode = 0 then [] else
        ascending ((rs.filter (fun p => p.2.2 = .saturated)).map (fun p => p.1.blk))
    scales := if dst.mode = 1 then mx.map (fun p => (scaleAddr + p.1, p.2)) else [] }

/-- Statistics written to the array at `base` (R95, R96): entry i belongs to the i-th statistics tile that the op covers,
`covers` and the tiles of its elements, in ascending order; a tile that the op covers whole replaces its entry. -/
def State.writeStats (s : State) (o : Origin) (base : Nat) (covers : List Nat) (stats : List (Nat × Num × Tally))
    (whole : Nat → Bool) : State :=
  let tiles := ascending (covers ++ stats.map (fun e => e.1))
  tiles.zipIdx.foldl
    (fun s p =>
      let st := (stats.filter (fun e => e.1 = p.1)).foldl (fun (t : Stat) e => t.note e.2.1 e.2.2) ⟨0, 0, 0⟩
      let a := base + 8 * p.2
      s.write o a ((if whole p.1 then st else st.merge (s.rdNew a 8)).bytes)) s

/-- One bit of a tensor's overflow bitmap set by an atomic OR at its home (R190). -/
def State.setOverflow (s : State) (o : Origin) (t : Tensor) (j : Nat) : State :=
  let a := t.bitmapBase + j / 8
  s.write o a (toLE 1 (setBit (ofLE (s.rdNew a 1)) (j % 8)))

/-- The bitmap bits of overflowed blocks (R190): block `blk` of an op's destination that starts at bit address `start`
is the tensor's block at the same place of the declared storage. -/
def State.markOverflow (s : State) (o : Origin) (tensorId start : Nat) (dst : Ctl) (blks : List Nat) : State :=
  match s.tensor? tensorId with
  | none => s
  | some t =>
    if dst.mode < 2 ∨ t.bitmapBase = 0 then s
    else blks.foldl
      (fun s k =>
        s.setOverflow o t (if dst.mode = 3 then 0 else (t.index start - t.origin) / 1024 + k)) s

/-- The stamp an op leaves on tiles (R225): its agent and record index, and the step index. -/
def State.stamp (s : State) (o : InFlight) : ListId × Nat × Nat :=
  (o.list, o.index, (s.reg Reg.stepIndex).toNat % 2 ^ 32)

/-- The digest of an op's runs (R204), and whether it is valid: every tile touched was written completely (R205). -/
def State.digestOf (s : State) (tensorId : Nat) (ps : List BitRun) (data : Nat → List Byte) : Nat × Bool :=
  let tiles := runTiles ps
  (tiles.foldl (fun d t => (d + mix64 (mix64 (s.tileIndex tensorId (t * 4096)) ^^^ (crc32c (data t)).toNat)) % 2 ^ 64) 0,
    !tiles.isEmpty && tiles.all (wholeTile ps))

/-- The digest of runs added to the op's, with flag bit 6, where the op asks for one and it is valid (R177, R205). -/
def InFlight.digested (o : InFlight) (digest : Bool) (d : Nat × Bool) : InFlight :=
  if digest && d.2 then { o with digest := o.digest + BitVec.ofNat 64 d.1, flags := setBit o.flags 6 } else o

/-- Flag bit 1: stochastic rounding applied (R176). -/
def InFlight.drawn (o : InFlight) : InFlight := if o.record.rnd = 5 then { o with flags := setBit o.flags 1 } else o

/-- Flag bit 5: an output tile left unsealed (R176). -/
def InFlight.leaves (o : InFlight) (unsealed : Bool) : InFlight :=
  if unsealed then { o with flags := setBit o.flags 5 } else o

/-- Bytes from an address on, as a run. -/
def byteRun (a : Nat) (bs : List Byte) : BitRun := ⟨a * 8, bs.length * 8, ofLE bs⟩

/-- The runs of an op written: whole tiles sealed by its checksum policy and stamped (R169, R225, R226), the digest
(R204), flag bit 5 where a tile is left unsealed, flag bit 6 for a digest. -/
def State.writeRuns (s : State) (o : InFlight) (digest : Bool) (ps : List BitRun) : State × InFlight :=
  let seals := o.record.ckPolicy = 0
  let s1 := (ps.flatMap s.runBytes).foldl
    (fun s p => s.writeSealed (.op o.id) seals (some (s.stamp o)) p.1 p.2) s
  let d := s.digestOf o.record.tensorId ps (fun t => s1.rdNew (t * 4096) 4096)
  (s1, (o.leaves ((runTiles ps).any (fun t => !seals || !wholeTile ps t))).digested digest d)

/-- The computed scales as runs: their tiles are sealed like any other (R80). -/
def ConvOut.scaleRuns (c : ConvOut) : List BitRun := joinRuns (sortRuns (c.scales.map (fun p => ⟨p.1 * 8, 8, p.2⟩)))

/-- The output of an op written whole: its runs, scales, statistics, counters and overflow bits. `inStats` are the
statistics of narrowing conversions on input (R95), `inWhole` the source tiles read whole. -/
def State.writeOut (s : State) (o : InFlight) (c : ConvOut) (dst : Ctl) (start statBase : Nat)
    (inStats : List (Nat × Num × Tally)) (inWhole : List Nat) : State × InFlight :=
  let (s1, o1) := s.writeRuns o o.record.digest c.runs
  let (s2, o1) := if c.scales.isEmpty then (s1, o1) else s1.writeRuns o1 false (c.scaleRuns)
  let s3 := if statBase = 0 then s2 else
    s2.writeStats (.op o.id) statBase c.covers (inStats ++ c.stats) (fun t => wholeTile c.runs t || t ∈ inWhole)
  let s4 := s3.markOverflow (.op o.id) o.record.tensorId start dst c.overflowed
  let cnt := o1.cnt.addAll c.tallies
  (s4, { o1 with cnt := { cnt with overflowed := cnt.overflowed + c.overflowed.length } }.drawn)

-- input tiles (R169, R227 to R229)

/-- Tiles that a byte range covers whole. -/
def wholeTiles (a n : Nat) : List Nat :=
  let first := (a + 4095) / 4096
  (List.range ((a + n) / 4096 - first)).map (fun i => first + i)

/-- Tiles that a byte range touches. -/
def touchedTiles (a n : Nat) : List Nat :=
  if n = 0 then [] else (List.range ((a + n - 1) / 4096 - a / 4096 + 1)).map (fun i => a / 4096 + i)

/-- The tile's stored bytes match its tag. -/
def State.verifies (s : State) (t : Nat) : Bool := crc32c (s.rd (t * 4096) 4096) = (s.tag (t * 4096)).crc

/-- What an op reads: whole tiles, and the tiles it touches. -/
structure Inputs where
  whole : List Nat
  touched : List Nat
  deriving DecidableEq, Repr

def Inputs.of (rs : List (Nat × Nat)) : Inputs :=
  ⟨ascending (rs.flatMap (fun r => wholeTiles r.1 r.2)), ascending (rs.flatMap (fun r => touchedTiles r.1 r.2))⟩

/-- The tile holds a line with an uncorrectable error (R223). -/
def State.badTile (s : State) (t : Nat) : Bool := s.memory.bad.any (fun l => l.1 / 64 = t)

/-- Tiles that fail: sealed tiles read whole that do not match their checksum, under the policy (R169, R227), and tiles
with an uncorrectable line, sealed or not (R223). -/
def State.failingTiles (s : State) (r : OpRecord) (i : Inputs) : List Nat :=
  i.touched.filter (fun t => s.badTile t ||
    ((r.ckPolicy = 0 || r.ckPolicy = 1) && decide (t ∈ i.whole) && (s.tag (t * 4096)).isSealed && !s.verifies t))

/-- The input fingerprint of R229 over tile numbers and CRCs. -/
def State.fingerprint (s : State) (ts : List Nat) : Word64 :=
  BitVec.ofNat 64 (ts.foldl (fun d t => (d + mix64 (mix64 t ^^^ (s.tag (t * 4096)).crc.toNat)) % 2 ^ 64) 0)

/-- Conditions 2 and 3 of R229 on an op and what it reads; `cls` says whether its class is one of condition 2. -/
def State.replayableWith (s : State) (cls : Bool) (i : Inputs) : Bool :=
  cls && decide (i.whole = i.touched) && i.whole.all (fun t => (s.tag (t * 4096)).isSealed && s.verifies t)

/-- Failed verifications counted on the tiles' stacks (R240). -/
def State.countFails (s : State) (ts : List Nat) : State :=
  ts.foldl (fun s t => if t * 4096 < hbmSize then s.bump32 (Reg.ckFail (s.stackOf (t * 4096))) 1 else s) s

/-- Uncorrectable lines met in these tiles counted on their stacks (R240). -/
def State.countBad (s : State) (ts : List Nat) : State :=
  (s.memory.bad.filter (fun l => l.1 / 64 ∈ ts)).foldl (fun s l => s.bump32 (Reg.errUncorr (s.stackOf (l.1 * 64))) 1) s

/-- The uncorrectable lines of tile `t` copied with their check bytes to tile `u` (R228). The row that the copy lies in is not
the failing one: the entry names none that a scrub can fail, and keeps the source's place (DESIGN CHOICE, log entry 116). -/
def State.copyBad (s : State) (t u : Nat) : State :=
  { s with memory := { s.memory with bad := s.memory.bad ++
      (s.memory.bad.filter (fun l => l.1 / 64 = t)).map (fun l => (u * 64 + l.1 % 64, l.2)) } }

/-- An op's inputs verified: where a tile fails, the op waits for its reload; otherwise `body` runs (R228). -/
def State.verified (s : State) (o : InFlight) (cls : Bool) (i : Inputs)
    (body : State → InFlight → State × InFlight) : State × InFlight :=
  let bad := s.failingTiles o.record i
  if bad ≠ [] then ((s.countBad bad).countFails bad, { o with reloading := bad })
  else body s { o with fingerprint := s.fingerprint i.whole, replayable := s.replayableWith cls i }

end Sys2Proof.Machine
end

