-- ==== Sys2Proof/Machine/MatrixOps.lean ====
section
/-! DEFINITION. The matrix engine's arithmetic (R98 to R121): anchored accumulation, chunked accumulation, the integer
path, and the four op kinds on a core's store. -/
namespace Sys2Proof.Machine

/-- Index of element (i, j) in the 32 × 32 blocked layout of a matrix of `cols` columns (R81, R103). -/
def blockedIndex (cols i j : Nat) : Nat :=
  ((i / 32) * (pad32 cols / 32) + j / 32) * 1024 + (i % 32) * 32 + j % 32

/-- The scale block of element (i, k) of a matrix of `cols` columns: MX blocks run along rows of padded length (R79). -/
def matBlock (c : Ctl) (cols i k : Nat) : Nat :=
  if c.mode = 1 then i * (pad32 cols / 32) + k / 32 else blockedIndex cols i k / 1024

/-- An operand element (i, k) of a matrix of `cols` columns at `addr` (R103). -/
def State.matElem (s : State) (c : Ctl) (addr scaleAddr cols i k : Nat) : Num :=
  s.element c scaleAddr (addr * 8 + blockedIndex cols i k * c.width) (matBlock c cols i k)

/-- The scales of a matrix of `rows` rows, as a byte range (R79 to R82). -/
def matScales (c : Ctl) (scaleAddr rows cols : Nat) : List (Nat × Nat) :=
  if c.mode = 0 then [] else
  [(scaleAddr, if c.mode = 1 then rows * (pad32 cols / 32) else if c.mode = 2 then pad32 rows / 32 * (pad32 cols / 32) else 1)]

/-- Elements of a matrix that a scale of 0xFF makes NaN as the engine widens them (R77). -/
def scaledNans (c : Ctl) (scale : Nat → Nat) (rows cols : Nat) : Nat :=
  if c.mode = 0 then 0 else
  ((List.range rows).flatMap (fun i => (List.range cols).filter (fun k => scale (matBlock c cols i k) = 0xFF))).length

/-- A's significand with the limbs of `passes` passes (R99, R100): extended to 54 bits, the low limbs dropped. A subnormal is
normalised first, without which its relative error would not keep within R100's bounds (DEDUCED, log entry 107). -/
def truncPasses (c : Ctl) (passes : Nat) (x : Num) : Num :=
  match x, floatFmt? c.fmt with
  | .fin s m e, some _ =>
    let low := 54 - 18 * passes
    .fin s (((m <<< (53 - m.log2)) >>> low) <<< low) (e - (53 - m.log2 : Nat))
  | y, _ => y

/-- The accumulator of one output element (R109, R115): content at 2^(P − 140), anchor and flags. -/
structure Acc where
  acc : Int
  p : Option Int
  nan : Bool
  pinf : Bool
  ninf : Bool
  trunc : Bool
  allNegZero : Bool
  fault : Bool
  deriving DecidableEq, Repr

def Acc.start (p : Option Int) : Acc := ⟨0, p, false, false, false, false, true, false⟩

/-- One term added (R109): `t` is its exponent where it is finite and non-zero. -/
def Acc.add (a : Acc) (x : Num) (t : Option Int) : Acc :=
  match x with
  | .nan => { a with nan := true, allNegZero := false }
  | .inf s => { a with pinf := a.pinf || !s, ninf := a.ninf || s, allNegZero := false }
  | .fin s m e =>
    if m = 0 then { a with allNegZero := a.allNegZero && s }
    else
      match a.p, t with
      | some p, some t =>
        if t > p then { a with fault := true, allNegZero := false }
        else
          let u := p - 140
          let q := roundMag 1 s m e u 0
          { a with
            acc := a.acc + (if s then -(q : Int) else (q : Int))
            trunc := a.trunc || !sameMag q u m e
            allNegZero := false }
      | _, _ => { a with fault := true, allNegZero := false }

/-- The accumulated value with the special values and signed zeros of R111. -/
def Acc.value (a : Acc) (rnd : Nat) : Num :=
  if a.nan || (a.pinf && a.ninf) then .nan
  else if a.pinf then .inf false
  else if a.ninf then .inf true
  else
    match a.p with
    | some p => if a.acc = 0 then .fin (a.allNegZero || decide (rnd = 3)) 0 0 else Num.ofInt a.acc (p - 140)
    | none => .fin (a.allNegZero || decide (rnd = 3)) 0 0

def maxOpt (a b : Option Int) : Option Int :=
  match a, b with
  | some x, some y => some (max x y)
  | some x, none => some x
  | none, y => y

/-- Largest exponent among values (R107). -/
def maxExponent (xs : List Num) : Option Int := xs.foldl (fun t x => maxOpt t x.exponent?) none

def addOpt (a b : Option Int) : Option Int :=
  match a, b with
  | some x, some y => some (x + y)
  | _, _ => none

/-- 16-bit anchor entries: 0x8000 is "no maximum" (R108). -/
def anchorBits : Option Int → Nat
  | some i => patternOf 16 i
  | none => 0x8000
def anchorOf (v : Nat) : Option Int := if v = 0x8000 then none else some (signedOf 16 v)

/-- The accumulator of the products of two rows under anchor `p`: pairs of A's value, A's reduced value, B's value. -/
def accumulate (p : Option Int) (terms : List (Num × Num × Num)) : Acc :=
  terms.foldl (fun a t => a.add (Num.mul t.2.1 t.2.2) (addOpt t.1.exponent? t.2.2.exponent?)) (Acc.start p)

/-- The partial record of R115. -/
def Acc.bytes (a : Acc) : List Byte :=
  toLE 24 (patternOf 192 a.acc) ++ toLE 2 (anchorBits a.p)
    ++ toLE 1 ((if a.nan then 1 else 0) + (if a.pinf then 2 else 0) + (if a.ninf then 4 else 0)
        + (if a.trunc then 8 else 0) + (if a.allNegZero then 16 else 0)) ++ toLE 5 0

def Acc.of (b : List Byte) : Acc where
  acc := signedOf 192 (fieldLE b 0 24)
  p := anchorOf (fieldLE b 0x18 2)
  nan := bitOf (fieldLE b 0x1A 1) 0
  pinf := bitOf (fieldLE b 0x1A 1) 1
  ninf := bitOf (fieldLE b 0x1A 1) 2
  trunc := bitOf (fieldLE b 0x1A 1) 3
  allNegZero := bitOf (fieldLE b 0x1A 1) 4
  fault := false

/-- Two records of one element summed (R115). -/
def Acc.plus (a b : Acc) : Acc :=
  ⟨a.acc + b.acc, a.p, a.nan || b.nan, a.pinf || b.pinf, a.ninf || b.ninf, a.trunc || b.trunc,
    a.allNegZero && b.allNegZero, a.fault || b.fault⟩

/-- C added after the parts (R115): the element is anchored at max(P_r, ec), and the sum is shifted there first. -/
def Acc.withC (a : Acc) (c : Num) : Acc :=
  let p := maxOpt a.p c.exponent?
  let a1 : Acc :=
    match a.p, p with
    | some old, some new =>
      let d := (new - old).toNat
      let q : Int := if a.acc < 0 then -((a.acc.natAbs >>> d : Nat) : Int) else ((a.acc.natAbs >>> d : Nat) : Int)
      { a with acc := q, p := p, trunc := a.trunc || decide (a.acc.natAbs % 2 ^ d ≠ 0) }
    | _, _ => { a with p := p }
  a1.add c c.exponent?

-- short float path

/-- Multiply-accumulates per cycle of an operand format (R101). -/
def kpc (fmt : Nat) : Nat :=
  if fmt = 2 ∨ fmt = 3 then 4 else if fmt = 4 ∨ fmt = 5 ∨ fmt = 9 then 8 else 16

/-- A chunk being accumulated (R117). -/
structure Chunk where
  q : Option Int
  acc : Int
  nan : Bool
  pinf : Bool
  ninf : Bool
  allNegZero : Bool
  trunc : Bool
  deriving DecidableEq, Repr

def Chunk.start : Chunk := ⟨none, 0, false, false, false, true, false⟩

/-- One k-group of terms: products with their exponents (R117). -/
def Chunk.group (c : Chunk) (ts : List (Num × Option Int)) : Chunk :=
  let qg := ts.foldl (fun t x => match x.1 with
    | .fin _ m _ => if m = 0 then t else maxOpt t x.2
    | _ => t) none
  let c1 : Chunk :=
    match qg, c.q with
    | some g, some q => if g > q then { c with acc := c.acc >>> (g - q).toNat, q := some g } else c
    | some g, none => { c with q := some g }
    | none, _ => c
  ts.foldl (fun c x =>
    match x.1 with
    | .nan => { c with nan := true, allNegZero := false }
    | .inf s => { c with pinf := c.pinf || !s, ninf := c.ninf || s, allNegZero := false }
    | .fin s m e =>
      if m = 0 then { c with allNegZero := c.allNegZero && s }
      else
        match c.q with
        | some q =>
          let v := roundMag 1 s m e (q - 49) 0
          { c with acc := c.acc + (if s then -(v : Int) else (v : Int)), allNegZero := false }
        | none => c) c1

/-- The chunk's value before its rounding, with the signs of R117. -/
def Chunk.value (c : Chunk) (rnd : Nat) : Num :=
  if c.nan || (c.pinf && c.ninf) then .nan
  else if c.pinf then .inf false
  else if c.ninf then .inf true
  else
    match c.q with
    | some q => if c.acc = 0 then .fin (c.allNegZero || decide (rnd = 3)) 0 0 else Num.ofInt c.acc (q - 49)
    | none => .fin (c.allNegZero || decide (rnd = 3)) 0 0

/-- chunk_fmt as controls. -/
def chunkCtl (c64 : Bool) : Ctl := ⟨if c64 then 0 else 1, false, 0, 0⟩

/-- A value rounded to a float format, and its tally; a NaN passes uncounted (R133, R119). -/
def roundTo (rd : Rounding) (c : Ctl) (dr : Nat) (x : Num) : Num × Tally :=
  if x.isNan then (.nan, .none)
  else
    let (v, t) := convert rd c 127 dr x
    (c.decode v, t)

/-- The chunks of an element's terms, in order: 4,096 positions each (R116), `g` positions to a k-group. A NaN chunk counts
as R111 counts an element (R117). -/
def chunkValues (rd : Rounding) (c64 : Bool) (g dr : Nat) (terms : List (Num × Option Int)) : List (Num × Tally) :=
  (chunksOf 4096 (terms.length / 4096 + 1) terms).map (fun ts =>
    let c := (chunksOf g (ts.length / g + 1) ts).foldl Chunk.group Chunk.start
    let v := c.value rd.rnd
    let (x, t) := roundTo rd (chunkCtl c64) dr v
    (x, if v.isNan then .nan else t))

/-- The chunks combined in ascending order from `s0` (R119). -/
def combineChunks (rd : Rounding) (c64 : Bool) (dr : Nat) (s0 : Num) (cs : List (Num × Tally)) : Num × Tally :=
  cs.foldl (fun p c =>
    let sum := Num.add rd.rnd p.1 c.1
    let made := sum.isNan && !p.1.isNan && !c.1.isNan
    let (x, t) := roundTo rd (chunkCtl c64) dr sum
    (x, (p.2.first c.2).first (if made then .nan else t))) (s0, .none)

-- the op kinds

/-- The paths of R102. -/
inductive MatPath where
  | multi | short | integer
  deriving DecidableEq, Repr

def MatOp.path (m : MatOp) : MatPath :=
  if m.ctlA.fmt < 2 then .multi
  else if (m.ctlA.fmt = 9 ∨ m.ctlA.fmt = 10) ∧ m.ctlA.mode = 0 then .integer else .short

def MatOp.mp (m : MatOp) : Nat := pad32 m.m
def MatOp.np (m : MatOp) : Nat := pad32 m.n
def MatOp.kp (m : MatOp) : Nat := pad32 m.k
def MatOp.groupK (m : MatOp) : Nat := min (kpc m.ctlA.fmt) (kpc m.ctlB.fmt)
/-- Chunks of the op's own k-range, and the size of a chunk value. -/
def MatOp.chunks (m : MatOp) : Nat := (m.k + 4095) / 4096
def MatOp.chunkSize (m : MatOp) : Nat := if m.chunk64 then 8 else 4

def State.rowA (s : State) (m : MatOp) (i : Nat) : List Num :=
  (List.range m.k).map (fun k => s.matElem m.ctlA m.a m.scaleA m.k i k)
def State.rowB (s : State) (m : MatOp) (j : Nat) : List Num :=
  (List.range m.k).map (fun k => s.matElem m.ctlB m.b m.scaleB m.k j k)
/-- The scale of a block of C. The descriptor has no place for the scales of a scaled C: they are free values (DESIGN CHOICE,
log entry 108). -/
def MatOp.scaleC (m : MatOp) (blk : Nat) : Nat := if m.ctlC.mode = 0 then 127 else (Config.scaleC m.c blk).toNat
def State.elemC (s : State) (m : MatOp) (i j : Nat) : Num :=
  (m.ctlC.decode (s.rdBits (m.c * 8 + blockedIndex m.n i j * m.ctlC.width) m.ctlC.width)).scaled
    (m.scaleC (matBlock m.ctlC m.n i j))

/-- Elements of a C that a scale of 0xFF makes NaN (R77); on the short path the conversion to chunk_fmt counts them. -/
def MatOp.nansC (m : MatOp) : Nat := if m.addC && m.path != .short then scaledNans m.ctlC m.scaleC m.m m.n else 0

/-- Elements of A and B, and of a C that does not go through a conversion of its own, that a scale of 0xFF makes NaN (R77). -/
def State.inputNans (s : State) (m : MatOp) (withC : Bool) : Nat :=
  scaledNans m.ctlA (s.scaleAt m.ctlA m.scaleA) m.m m.k + scaledNans m.ctlB (s.scaleAt m.ctlB m.scaleB) m.n m.k
    + (if withC then m.nansC else 0)

/-- EA and EB of the op: imported, or gathered by the prescan (R107, R108). -/
def State.anchorA (s : State) (m : MatOp) (i : Nat) : Option Int :=
  if m.importAnchor then anchorOf (s.rdLE (m.ea + 2 * i) 2) else maxExponent (s.rowA m i)
def State.anchorB (s : State) (m : MatOp) (j : Nat) : Option Int :=
  if m.importAnchor then anchorOf (s.rdLE (m.eb + 2 * j) 2) else maxExponent (s.rowB m j)

/-- The anchor vectors the op uses, EA padded to Mp entries and EB to Np after it (R108, R173). -/
def State.anchorVectors (s : State) (m : MatOp) : List Byte :=
  ((List.range m.mp).flatMap (fun i => toLE 2 (anchorBits (if i < m.m ∨ m.importAnchor then s.anchorA m i else none))))
    ++ ((List.range m.np).flatMap (fun j => toLE 2 (anchorBits (if j < m.n ∨ m.importAnchor then s.anchorB m j else none))))

/-- Terms of an output element on the multi-pass path: A, A reduced to its passes, B. -/
def State.multiTerms (s : State) (m : MatOp) (i j : Nat) : List (Num × Num × Num) :=
  ((s.rowA m i).zip (s.rowB m j)).map (fun t => (t.1, truncPasses m.ctlA m.passes t.1, t.2))

/-- The accumulator of an output element's products (R109), without C. -/
def State.multiAcc (s : State) (m : MatOp) (p : Option Int) (i j : Nat) : Acc := accumulate p (s.multiTerms m i j)

/-- MATMUL's accumulator on the multi-pass path: C is a term of the run (R107). -/
def State.multiFull (s : State) (m : MatOp) (i j : Nat) : Acc :=
  let p0 := addOpt (s.anchorA m i) (s.anchorB m j)
  if m.addC then
    let c := s.elemC m i j
    let p := maxOpt p0 c.exponent?
    (s.multiAcc m p i j).add c c.exponent?
  else s.multiAcc m p0 i j

/-- Terms of an output element on the short path. -/
def State.shortTerms (s : State) (m : MatOp) (i j : Nat) : List (Num × Option Int) :=
  ((s.rowA m i).zip (s.rowB m j)).map (fun t => (Num.mul t.1 t.2, addOpt t.1.exponent? t.2.exponent?))

/-- The draw of an output element's roundings (R133, R194). For the chunk records of MATMUL_PART, which are no elements of D,
it is that of the element at D's offset in the descriptor (DESIGN CHOICE, log entry 109). -/
def State.matDraw (s : State) (r : OpRecord) (m : MatOp) (i j : Nat) : Nat :=
  if r.rnd = 5 then
    s.draw r.tensorId (s.elemIndex r.tensorId (m.d * 8 + blockedIndex m.n i j * m.ctlD.width)) else 0

/-- The exact integer sum of an output element's products (R121). -/
def State.intSum (s : State) (m : MatOp) (i j : Nat) : Int :=
  ((s.rowA m i).zip (s.rowB m j)).foldl (fun t p => t + (Num.mul p.1 p.2).units 0) 0

/-- Record number `part` of an element (R115, R120): parts one after another, each in the blocked order of D. -/
def MatOp.recordAt (m : MatOp) (size part i j : Nat) : Nat :=
  m.records + (part * m.mp * m.np + blockedIndex m.n i j) * size

/-- The partial records of an element. -/
def State.partRecords (s : State) (m : MatOp) (i j : Nat) : List Acc :=
  (List.range m.parts).map (fun p => Acc.of (s.rd (m.recordAt 32 p i j) 32))

/-- What one output element comes to: its value for the final conversion, the tallies before it, truncation, and an
anchor fault with its address. -/
structure ElemOut where
  x : Num
  tallies : List Tally
  trunc : Bool
  fault : Option Nat
  deriving DecidableEq, Repr

def MatOp.addrD (m : MatOp) (i j : Nat) : Nat := m.d + blockedIndex m.n i j * m.ctlD.width / 8

/-- C converted to chunk_fmt, or +0 (R119). -/
def State.startC (s : State) (rd : Rounding) (m : MatOp) (dr i j : Nat) : Num × List Tally :=
  if m.addC then
    let (v, t) := convert rd (chunkCtl m.chunk64) 127 dr (s.elemC m i j)
    ((chunkCtl m.chunk64).decode v, if m.ctlC.same (chunkCtl m.chunk64) then [] else [t])
  else (.fin false 0 0, [])

/-- An output element of MATMUL. On the integer path C is added exactly before the one rounding, and a zero sum is +0 under
every rnd (DESIGN CHOICE, log entry 110). -/
def State.matElemOut (s : State) (r : OpRecord) (m : MatOp) (i j : Nat) : ElemOut :=
  match m.path with
  | .multi =>
    let a := s.multiFull m i j
    ⟨a.value r.rnd, [], a.trunc, if a.fault then some (m.addrD i j) else none⟩
  | .short =>
    let dr := s.matDraw r m i j
    let (c0, ts) := s.startC r.rounding m dr i j
    let (x, t) := combineChunks r.rounding m.chunk64 dr c0 (chunkValues r.rounding m.chunk64 m.groupK dr (s.shortTerms m i j))
    ⟨x, t :: ts, false, none⟩
  | .integer =>
    let v := Num.ofInt (s.intSum m i j) 0
    ⟨if m.addC then Num.add 0 v (s.elemC m i j) else v, [], false, none⟩

/-- An output element of PART_COMBINE (R115, R119, R121). -/
def State.combineElemOut (s : State) (r : OpRecord) (m : MatOp) (i j : Nat) : ElemOut :=
  match m.path with
  | .multi =>
    let recs := s.partRecords m i j
    match recs with
    | [] => ⟨.fin false 0 0, [], false, none⟩
    | first :: rest =>
      let bad := (recs.zipIdx.find? (fun p => p.1.p ≠ first.p)).map (fun p => m.recordAt 32 p.2 i j)
      let sum := rest.foldl Acc.plus first
      let a := if m.addC then sum.withC (s.elemC m i j) else sum
      ⟨a.value r.rnd, [], a.trunc, bad⟩
  | .short =>
    let dr := s.matDraw r m i j
    let (c0, ts) := s.startC r.rounding m dr i j
    let cs := (List.range m.parts).map (fun p =>
      ((chunkCtl m.chunk64).decode (s.rdLE (m.recordAt m.chunkSize p i j) m.chunkSize), Tally.none))
    let (x, t) := combineChunks r.rounding m.chunk64 dr c0 cs
    ⟨x, t :: ts, false, none⟩
  | .integer =>
    let v := (List.range m.parts).foldl (fun t p => t + signedOf 64 (s.rdLE (m.recordAt 8 p i j) 8)) 0
    ⟨if m.addC then Num.add 0 (Num.ofInt v 0) (s.elemC m i j) else Num.ofInt v 0, [], false, none⟩

/-- The format the final conversion starts from, for R93. -/
def MatOp.srcCtl (m : MatOp) : Ctl :=
  match m.path with
  | .multi => ⟨0, false, 0, 0⟩
  | .short => chunkCtl m.chunk64
  | .integer => ⟨0xC, true, 0, 0⟩

/-- Output positions in the blocked order of D, padding included. -/
def MatOp.positions (m : MatOp) : List (Nat × Nat) :=
  (List.range (m.mp / 32)).flatMap (fun bi => (List.range (m.np / 32)).flatMap (fun bj =>
    (List.range 32).flatMap (fun i => (List.range 32).map (fun j => (bi * 32 + i, bj * 32 + j)))))

/-- Statistics of the conversion of C to chunk_fmt, where it narrows, by C's tile (R95, R119). -/
def State.statsC (s : State) (r : OpRecord) (m : MatOp) : List (Nat × Num × Tally) :=
  if m.path = .short ∧ m.addC ∧ !m.ctlC.same (chunkCtl m.chunk64) ∧ narrowing m.ctlC (chunkCtl m.chunk64) then
    (List.range m.m).flatMap (fun i => (List.range m.n).map (fun j =>
      let x := s.elemC m i j
      ((m.c * 8 + blockedIndex m.n i j * m.ctlC.width) / 32768, x,
        (convert r.rounding (chunkCtl m.chunk64) 127 (s.matDraw r m i j) x).2)))
  else []

/-- Number of the 32 × 32 block of an output position. -/
def MatOp.blockNo (m : MatOp) (p : Nat × Nat) : Nat := p.1 / 32 * (m.np / 32) + p.2 / 32

/-- Of several anchor faults, as block and address, the one that is named: a free choice (R110). -/
def State.pickFault (s : State) (faults : List (Nat × Nat)) : Option (Nat × Nat) × State :=
  if faults = [] then (none, s)
  else (faults[Config.freeChoice (s.freeCount + 1) faults.length % faults.length]?, { s with freeCount := s.freeCount + 1 })

/-- A block is written: every block without a fault, and after a fault those before the named one (R110). -/
def blockKept (stop : Option (Nat × Nat)) (faults : List (Nat × Nat)) (b : Nat) : Bool :=
  match stop with
  | none => true
  | some f => decide (b < f.1) && !faults.any (fun g => g.1 = b)

/-- Output positions in runs of one block. -/
def blocksOf {α : Type} (l : List α) : List (List α) := chunksOf 1024 (l.length / 1024 + 1) l

/-- D written from the output elements (R111, R119, R121): padding elements are zero. On an anchor fault no further
block is written, and one faulting element is named, which the spec leaves open (R110). -/
def State.writeD (s : State) (o : InFlight) (m : MatOp) (elem : Nat → Nat → ElemOut) : State × InFlight :=
  let es := m.positions.map (fun p => (p, if p.1 < m.m ∧ p.2 < m.n then some (elem p.1 p.2) else none))
  let faults := es.filterMap (fun e => e.2.bind (fun x => x.fault.map (fun a => (m.blockNo e.1, a))))
  let (stop, s0) := s.pickFault faults
  let kept := es.filter (fun e => blockKept stop faults (m.blockNo e.1))
  let outs := kept.map (fun e => (OutElem.mk (m.d * 8 + blockedIndex m.n e.1.1 e.1.2 * m.ctlD.width) 0
    (e.2.map (fun x => x.x))))
  let c := s0.convertOut o.record.rounding m.srcCtl m.ctlD 0 o.record.tensorId false outs
  let sc := s.statsC o.record m
  let sizeC := m.mp * m.np * m.ctlC.width / 8
  let cover := if sc.isEmpty then [] else touchedTiles m.c sizeC
  let (s1, o1) := s0.writeOut o { c with covers := c.covers ++ cover } m.ctlD (m.d * 8) m.statBase sc (wholeTiles m.c sizeC)
  let pre := kept.flatMap (fun e => match e.2 with
    | some x => x.tallies
    | none => [])
  let truncs := (kept.filter (fun e => match e.2 with
    | some x => x.trunc
    | none => false)).length
  let cnt := o1.cnt.addAll pre
  let o2 : InFlight := { o1 with cnt := { cnt with truncated := cnt.truncated + truncs } }
  match stop with
  | some f => (s1, o2.failed Status.anchorFault f.2)
  | none => (s1, o2)

/-- The anchors an op used written where anchor_out names a place (R108), whole tiles sealed and, where they are the op's
destination, digested (R169, R204). -/
def State.writeAnchors (s : State) (o : InFlight) (m : MatOp) (digest : Bool) (anchors : List Byte) : State × InFlight :=
  if m.anchorOut = 0 then (s, o) else s.writeRuns o digest [byteRun m.anchorOut anchors]

/-- Flag bit 4: anchor imported (R176). -/
def markImport (m : MatOp) (o : InFlight) : InFlight :=
  if m.path = .multi ∧ m.importAnchor then { o with flags := setBit o.flags 4 } else o

/-- NaN elements counted (R77, R94). -/
def InFlight.addNans (o : InFlight) (n : Nat) : InFlight := { o with cnt := o.cnt.addAll (List.replicate n .nan) }

/-- MATMUL's computation (R105). -/
def runMatmul (m : MatOp) (s : State) (o : InFlight) : State × InFlight :=
  let anchors := s.anchorVectors m
  let (s1, o1) := s.writeD ((markImport m o).addNans (s.inputNans m true)) m (s.matElemOut o.record m)
  if m.path = .multi then s1.writeAnchors o1 m false anchors else (s1, o1)

/-- MATMUL_PART's computation: the records of the op's part (R115, R120, R121). -/
def runMatmulPart (m : MatOp) (s : State) (o : InFlight) : State × InFlight :=
  let o := (markImport m o).addNans (s.inputNans m false)
  match m.path with
  | .multi =>
    let accs := m.positions.map (fun p =>
      (p, if p.1 < m.m ∧ p.2 < m.n then s.multiAcc m (addOpt (s.anchorA m p.1) (s.anchorB m p.2)) p.1 p.2
          else { Acc.start none with allNegZero := false }))
    let faults := (accs.filter (fun a => a.2.fault)).map (fun a => (m.blockNo a.1, m.recordAt 32 0 a.1.1 a.1.2))
    let anchors := s.anchorVectors m
    let (stop, s0) := s.pickFault faults
    let kept := accs.filter (fun a => blockKept stop faults (m.blockNo a.1))
    let runs := (blocksOf kept).filterMap (fun b => match b with
      | [] => none
      | a :: _ => some (byteRun (m.recordAt 32 0 a.1.1 a.1.2) (b.flatMap (fun e => e.2.bytes))))
    let truncs := (kept.filter (fun a => a.2.trunc)).length
    let o1 : InFlight := { o with cnt := { o.cnt with truncated := o.cnt.truncated + truncs } }
    let (s1, o2) := s0.writeRuns o1 o.record.digest (joinRuns runs)
    let (s2, o3) := s1.writeAnchors o2 m false anchors
    (s2, match stop with
      | some f => o3.failed Status.anchorFault f.2
      | none => o3)
  | .short =>
    let vals := m.positions.map (fun p =>
      if p.1 < m.m ∧ p.2 < m.n then
        chunkValues o.record.rounding m.chunk64 m.groupK (s.matDraw o.record m p.1 p.2) (s.shortTerms m p.1 p.2)
      else List.replicate m.chunks (.fin false 0 0, .none))
    let enc (x : Num) : List Byte := toLE m.chunkSize (convert ⟨0, false, true⟩ (chunkCtl m.chunk64) 127 0 x).1
    let bytes := (List.range m.chunks).flatMap (fun c => vals.flatMap (fun v => match v[c]? with
      | some x => enc x.1
      | none => enc (.fin false 0 0)))
    let tallies := vals.map (fun v => v.foldl (fun t x => t.first x.2) .none)
    s.writeRuns (InFlight.drawn { o with cnt := o.cnt.addAll tallies }) o.record.digest
      [byteRun m.records bytes]
  | .integer =>
    s.writeRuns o o.record.digest [byteRun m.records (m.positions.flatMap (fun p =>
      toLE 8 (if p.1 < m.m ∧ p.2 < m.n then patternOf 64 (s.intSum m p.1 p.2) else 0)))]

/-- ANCHOR_GATHER's computation (R105, R108). -/
def runAnchorGather (m : MatOp) (s : State) (o : InFlight) : State × InFlight :=
  let m := { m with importAnchor := false }
  s.writeAnchors o m o.record.digest (s.anchorVectors m)

/-- PART_COMBINE's computation (R115, R120, R121). -/
def runPartCombine (m : MatOp) (s : State) (o : InFlight) : State × InFlight :=
  s.writeD (o.addNans m.nansC) m (s.combineElemOut o.record m)

-- inputs and time

def MatOp.bytesA (m : MatOp) : Nat := m.mp * m.kp * m.ctlA.width / 8
def MatOp.bytesB (m : MatOp) : Nat := m.np * m.kp * m.ctlB.width / 8

/-- The ranges an op kind reads: operands, their scales, and the anchor vectors it imports (R80, R103, R108). -/
def MatOp.reads (m : MatOp) (kind : Nat) : List (Nat × Nat) :=
  let c := if m.addC then [(m.c, m.mp * m.np * m.ctlC.width / 8)] else []
  if kind = 4 then
    let size := match m.path with
      | .multi => 32
      | .short => m.chunkSize
      | .integer => 8
    (m.records, m.parts * m.mp * m.np * size) :: c
  else [(m.a, m.bytesA), (m.b, m.bytesB)] ++ matScales m.ctlA m.scaleA m.m m.k ++ matScales m.ctlB m.scaleB m.n m.k
    ++ (if m.importAnchor ∧ kind ≠ 3 then [(m.ea, 2 * m.mp), (m.eb, 2 * m.np)] else []) ++ (if kind = 1 then c else [])

/-- The op's duration in arithmetic clock cycles (R123). -/
def MatOp.cycles (m : MatOp) (kind : Nat) : Nat :=
  let blocks := (m.mp / 32) * (m.np / 32)
  let scan := max (m.mp / 32) (m.np / 32) * m.kp
  let per : Nat := match m.path with
    | .multi => m.passes * m.kp
    | _ => m.kp / m.groupK
  let drain : Nat := if m.path = .multi then 40 else 32
  let prescan := if m.path = .multi ∧ !m.importAnchor then scan else 0
  let export_ : Nat := match m.path with
    | .multi => 64
    | .short => 8 * m.chunks
    | .integer => 16
  let record : Nat := match m.path with
    | .multi => 64
    | .short => 8
    | .integer => 16
  match kind with
  | 1 => 12 + prescan + blocks * per + drain
  | 2 => 12 + prescan + blocks * per + export_
  | 3 => 12 + scan
  | _ => 12 + blocks * (record * m.parts + 40)

/-- The matrix op of a record, from its descriptor in the core's store. -/
def State.matOp (s : State) (o : InFlight) : MatOp :=
  MatOp.of (coreStore o.list) (s.rd (coreStore o.list + o.record.desc) 128)

/-- A matrix op run without verification. -/
def matrixBody (s : State) (o : InFlight) : State × InFlight :=
  let m := s.matOp o
  let s1 := s.bump64 (Reg.seqCounter o.list (o.record.unit - 1)) (m.cycles o.record.opcode)
  match o.record.opcode with
  | 1 => runMatmul m s1 o
  | 2 => runMatmulPart m s1 o
  | 3 => runAnchorGather m s1 o
  | _ => runPartCombine m s1 o

/-- A matrix op: operand tiles verified, then the computation (R125). -/
def matrixRun (s : State) (o : InFlight) : State × InFlight :=
  s.verified o true (Inputs.of ((s.matOp o).reads o.record.opcode)) matrixBody

end Sys2Proof.Machine
end

