-- ==== Sys2Proof/Machine/ChainOps.lean ====
section
/-! DEFINITION. The stage chain (R126 to R149): what one element goes through, reductions, masks, scale derivation. The
vector engine and the Marrow stream and stencil ops run it. -/
namespace Sys2Proof.Machine

/-- Working values run through the chain as exact numbers; an integer or Q value is its content × 2^-f. -/
def Chain.isFloat (c : Chain) : Bool := c.wfmt < 4

/-- VLMAX of a datapath of `bits` bits (R126, R245). -/
def Chain.vlmax (c : Chain) (bits : Nat) : Nat := bits / c.ctl.width

/-- The binary scale of the intermediate: 2f fraction bits when stage 2 multiplied (R140, R145). -/
def Chain.scale (c : Chain) : Nat := if c.mul = 1 then 2 * c.ctl.frac else c.ctl.frac

/-- A float result rounded to the working format; a NaN made from non-NaN inputs counts (R133). -/
def Chain.round (c : Chain) (rd : Rounding) (dr : Nat) (made : Bool) (x : Num) : Num × Tally :=
  let (v, t) := roundTo rd c.ctl dr x
  (v, if made then .nan else t)

/-- Stage 2 (R131, R145). -/
def Chain.stage2 (c : Chain) (rd : Rounding) (dr : Nat) (a b : Num) : Num × Tally :=
  if c.mul = 0 then (a, .none)
  else
    let p := Num.mul a b
    let made := p.isNan && !a.isNan && !b.isNan
    if !c.isFloat then (p, .none)
    else if c.mul = 2 then (p, if made then .nan else .none)
    else c.round rd dr made p

/-- Stage 3 (R131, R145), but for a reduction. -/
def Chain.stage3 (c : Chain) (rd : Rounding) (dr : Nat) (t x : Num) : Num × Tally :=
  let sum : Option Num :=
    match c.add with
    | 1 | 4 => some (Num.add rd.rnd t x)
    | 2 => some (Num.add rd.rnd t x.negate)
    | 3 => some (Num.add rd.rnd x t.negate)
    | _ => none
  match sum with
  | none => (t, .none)
  | some s => if c.isFloat then c.round rd dr (s.isNan && !t.isNan && !x.isNan) s else (s, .none)

/-- Stage 4 (R139). -/
def compareBit (rel : Nat) (t x : Num) : Bool :=
  match t.cmp? x with
  | none => decide (rel = 2 ∨ rel = 7)
  | some o =>
    match rel with
    | 1 => o = .eq
    | 2 => o ≠ .eq
    | 3 => o = .lt
    | 4 => o = .lt || o = .eq
    | 5 => o = .gt
    | 6 => o = .gt || o = .eq
    | _ => false

/-- Stage 6, but for a reduction (R141). -/
def Chain.stage6 (c : Chain) (t x : Num) : Num :=
  match c.minmax with
  | 1 => Num.minimum t x
  | 2 => Num.maximum t x
  | 3 => Num.minNumber t x
  | 4 => Num.maxNumber t x
  | _ => t

/-- floor of √n by digits; `fuel` bounds the digits. -/
def natSqrt (n : Nat) : Nat → Nat → Nat
  | 0, r => r
  | k + 1, r => natSqrt n k (if (r + 2 ^ k) * (r + 2 ^ k) ≤ n then r + 2 ^ k else r)

/-- 2^(f / 2^p) × 2^p for f < 2^p, from the roots 2^(1/2), 2^(1/4), …; `r` is the last root taken. -/
def exp2Loop (p f : Nat) : Nat → Nat → Nat → Nat
  | 0, _, acc => acc
  | k + 1, r, acc =>
    let r1 := natSqrt (r <<< p) (p + 1) 0
    exp2Loop p f k r1 (if f / 2 ^ k % 2 = 1 then (acc * r1) >>> p else acc)

/-- The first bits of log2 y for y / 2^p in [1, 2), by squaring. -/
def log2Loop (p : Nat) : Nat → Nat → Nat → Nat
  | 0, _, acc => acc
  | k + 1, y, acc =>
    let z := (y * y) >>> p
    if 2 ^ (p + 1) ≤ z then log2Loop p k (z >>> 1) (acc * 2 + 1) else log2Loop p k z (acc * 2)

/-- t − t / (3 k²) + …: the arc tangent of 1/k from its first term on; `i` counts the terms. -/
def atanLoop (k2 : Nat) : Nat → Nat → Nat → Int
  | 0, _, _ => 0
  | n + 1, i, t => (t / (2 * i + 1) : Nat) - atanLoop k2 n (i + 1) (t / k2)

/-- Fraction bits in which sines and cosines are found: enough for every finite FP64 argument. -/
def trigBits : Nat := 1400

/-- π in units of 2^-1400, by Machin's formula. -/
def piFixed : Nat := (16 * atanLoop 25 320 0 (2 ^ trigBits / 5) - 4 * atanLoop 57121 320 0 (2 ^ trigBits / 239)).toNat

/-- The series of the sine (from i = 1, t the argument) or the cosine (from i = 0, t = 1); r2 is the argument's square. -/
def trigLoop (r2 : Nat) : Nat → Nat → Nat → Int
  | 0, _, _ => 0
  | k + 1, i, t => (t : Int) - trigLoop r2 k (i + 2) (((t * r2) >>> trigBits) / ((i + 1) * (i + 2)))

/-- A magnitude in units of 2^k cut to the format's spacing there, which is that of the subnormals below the smallest normal, with
`up` units of the spacing added. -/
def cutTo (f : FloatFmt) (neg : Bool) (v : Nat) (k : Int) (up : Int) : Num :=
  let u := max (k + v.log2 - f.mbits) f.minUnit
  let q : Nat := if k ≤ u then v >>> (u - k).toNat else v <<< (k - u).toNat
  .fin neg ((q : Int) + up).toNat u

/-- m × 2^e in units of 2^-p, cut. -/
def inUnits (m : Nat) (e : Int) (p : Nat) : Nat := if 0 ≤ e + p then m <<< (e + p).toNat else m >>> (-(e + p)).toNat

/-- The function value of stage 7 for a non-zero finite input (R143): exact points exactly; elsewhere a value of the format within
the bound, the free choice left open: one of the two neighbours of the exact value, one of the four next to it for FP64 sin and
cos, and for FP64 log2 near 1 the value nearest to any that keeps within 2^-62, or nearest to the exact one where the format's
spacing is wider. The choice depends on the input bits alone. The Bool says the result is exact. -/
def sfuFinite (fn : Nat) (f : FloatFmt) (bits : Nat) (neg : Bool) (m : Nat) (e : Int) : Num × Bool :=
  let free := Config.sfuValue fn (f.width * 16 + f.ebits) bits
  let pick : Nat := free.natAbs % 2
  let powerOf2 : Bool := m = 2 ^ m.log2
  match fn with
  | 1 =>
    if powerOf2 then (.fin neg 1 (-(m.log2 : Int) - e), true)
    else
      let k := f.mbits + 1 + m.log2
      (cutTo f neg (2 ^ k / m) (-(k : Int) - e) pick, false)
  | 2 =>
    if neg then (.nan, true)
    else
      let odd : Nat := if e % 2 = 0 then 0 else 1
      let m' := m <<< odd
      let h : Int := (e - odd) / 2
      let k := 2 * (f.mbits + 1) + m'.log2 + 2
      let k := if k % 2 = 0 then k else k + 1
      let n := 2 ^ k / m'
      let r := natSqrt n (n.log2 / 2 + 1) 0
      let exact := decide (r * r * m' = 2 ^ k)
      let drop := r.log2 - f.mbits
      let q := r >>> drop
      let exact := exact && decide (r % 2 ^ drop = 0)
      (.fin false (if exact then q else q + pick) (drop - (k / 2 : Nat) - h), exact)
  | 3 =>
    let isInt := decide (0 ≤ e) || decide (m % 2 ^ (-e).toNat = 0)
    if isInt then
      let i : Nat := if 0 ≤ e then m <<< (min e 16).toNat else m >>> (-e).toNat
      let x : Int := if neg then -(i : Int) else (i : Int)
      if f.minUnit ≤ x then (.fin false 1 x, true) else (cutTo f false 1 x pick, false)
    else
      -- rounded down: 2^x lies strictly between the neighbours that this names
      let v : Int := if neg then -(inUnits m e 128 : Int) - 1 else (inUnits m e 128 : Int)
      let i := v / 2 ^ 128
      (cutTo f false (exp2Loop 128 (v % 2 ^ 128).toNat 128 (2 ^ 129) (2 ^ 128)) (max (-65536) (min i 65536) - 128) pick, false)
  | 4 =>
    if neg then (.nan, true)
    else if powerOf2 then (Num.ofInt ((m.log2 : Int) + e) 0, true)
    else
      let v : Int := ((m.log2 : Int) + e) * 2 ^ 128 + (log2Loop 300 128 (m <<< (300 - m.log2)) 0 : Nat)
      let near := decide (15 * 2 ^ 60 ≤ inUnits m e 64 ∧ inUnits m e 64 ≤ 17 * 2 ^ 60)
      if f.width = 64 ∧ near then
        let room : Nat := 2 ^ 66 - 2 ^ (v.natAbs.log2 - 51)
        (Num.ofInt (v + free % (2 * room + 1 : Nat) - room) (-128), false)
      else (cutTo f (decide (v < 0)) v.natAbs (-128) pick, false)
  | _ =>
    let r := inUnits m e trigBits % (2 * piFixed)
    -- |sin r| < r and cos r < 1 strictly, which the cut series cannot show for a tiny argument
    let v := if fn = 5 then min (trigLoop ((r * r) >>> trigBits) 200 1 r) ((r : Int) - 1)
      else min (trigLoop ((r * r) >>> trigBits) 200 0 (2 ^ trigBits)) (2 ^ trigBits - 1)
    let up : Int := if f.width = 64 then ((free.natAbs % 4 : Nat) : Int) - 1 else pick
    (cutTo f (xor (decide (v < 0)) (neg && decide (fn = 5))) v.natAbs (-(trigBits : Int)) up, false)

/-- The special values of R143. -/
def sfuSpecial (fn : Nat) (x : Num) : Option Num :=
  match x with
  | .nan => some .nan
  | .inf s =>
    match fn with
    | 1 => some (.fin s 0 0)
    | 2 => some (if s then .nan else .fin false 0 0)
    | 3 => some (if s then .fin false 0 0 else .inf false)
    | 4 => some (if s then .nan else .inf false)
    | _ => some .nan
  | .fin s m _ =>
    if m ≠ 0 then none
    else
      match fn with
      | 1 => some (.inf s)
      | 2 => some (.inf s)
      | 3 => some (.fin false 1 0)
      | 4 => some (.inf true)
      | 5 => some (.fin s 0 0)
      | _ => some (.fin false 1 0)

/-- Stage 7 (R142, R143): the result, which rnd does not steer, then range handling under R87, in which a result beyond the range
follows R89; inexact counts for 16-bit working formats exactly where the result differs from the function's value. -/
def Chain.stage7 (c : Chain) (rd : Rounding) (t : Num) : Num × Tally :=
  match floatFmt? c.wfmt with
  | none => (t, .none)
  | some f =>
    if c.sfu = 0 then (t, .none)
    else
      let (r, exact) := match sfuSpecial c.sfu t with
        | some r => (r, true)
        | none =>
          match t with
          | .fin s m e => sfuFinite c.sfu f (f.encode s m e) s m e
          | y => (y, true)
      let made := r.isNan && !t.isNan
      let near := c.round { rd with rnd := 0 } 0 made r
      let (v, h) := if near.2 = .saturated then c.round rd 0 made r else near
      (v, match h with
        | .nan => .nan
        | .saturated => .saturated
        | .flushed => .flushed
        | _ => if !exact && decide (f.width ≤ 16) then .inexact else h)

/-- Stage 8 (R145): on the raw intermediate, in units of 2^-scale; off, its low w bits. -/
def Chain.stage8 (c : Chain) (rd : Rounding) (dr : Nat) (t : Num) : Num × Tally :=
  if c.isFloat then (t, .none)
  else
    let w := c.ctl
    let raw := t.units (-(c.scale : Int))
    let out (i : Int) : Num := Num.ofInt i (-(w.frac : Int))
    let clamp (i : Int) (h : Tally) : Num × Tally :=
      if i > w.intMax then (out w.intMax, .saturated) else if i < w.intMin then (out w.intMin, .saturated) else (out i, h)
    match c.fxp with
    | 0 =>
      let v := patternOf w.width raw
      (out (if w.sgn then signedOf w.width v else (v : Int)), .none)
    | 1 => clamp raw .none
    | 2 =>
      let neg := decide (raw < 0)
      let q := roundMag rd.rnd neg raw.natAbs 0 c.sh dr
      clamp (if neg then -(q : Int) else (q : Int))
        (if decide (q * 2 ^ c.sh ≠ raw.natAbs) && decide (w.width ≤ 16) then .inexact else .none)
    | _ => clamp (raw * (2 ^ c.sh : Nat)) .none

/-- One element in the chain: the running value, its tally so far and its fresh compare result. -/
structure Lane where
  t : Num
  tally : Tally
  fresh : Bool
  deriving DecidableEq, Repr

/-- The operands of a position after stage 1, and the mask bits it reads. -/
structure LaneIn where
  a : Num
  b : Num
  c : Num
  /-- bit of sel_mask, of wmask as the registers hold them -/
  selBit : Bool
  wBit : Bool
  /-- tallies of the input conversions -/
  tallies : List Tally
  deriving DecidableEq, Repr

def LaneIn.x (l : LaneIn) (src : Nat) : Num :=
  match src with
  | 0 => l.a
  | 1 => l.b
  | 2 => l.c
  | _ => .fin false 0 0

/-- Stages `lo` to `hi` of 2 to 8 on one element (R131). -/
def Chain.stages (c : Chain) (rd : Rounding) (dr lo hi : Nat) (i : LaneIn) (v : Lane) : Lane :=
  let on (n : Nat) : Bool := lo ≤ n && n ≤ hi
  let step (l : Lane) (p : Num × Tally) : Lane := { l with t := p.1, tally := l.tally.first p.2 }
  let v := if on 2 then step v (c.stage2 rd dr i.a i.b) else v
  let v := if on 3 && c.add ≠ 5 then step v (c.stage3 rd dr v.t (i.x c.addSrc)) else v
  let v := if on 4 && c.cmp ≠ 0 then { v with fresh := compareBit c.cmp v.t (i.x c.cmpSrc) } else v
  let v := if on 5 && c.sel then
      { v with t := if (if c.selMask ≠ 0 ∧ c.selMask = c.cmpMask ∧ c.cmp ≠ 0 then v.fresh else i.selBit) then v.t else i.x c.selSrc }
    else v
  let v := if on 6 then { v with t := c.stage6 v.t (i.x c.minmaxSrc) } else v
  let v := if on 7 then step v (c.stage7 rd v.t) else v
  if on 8 then step v (c.stage8 rd dr v.t) else v

/-- Whether the write mask leaves an element on (R139). -/
def Chain.writes (c : Chain) (i : LaneIn) (v : Lane) : Bool :=
  if c.wmask ≠ 0 ∧ c.wmask = c.cmpMask ∧ c.cmp ≠ 0 ∧ c.reduceStage ≠ 3 then v.fresh else i.wBit

-- reductions (R140)

/-- A reduction in progress: additions numbered so far, tally. -/
structure Red where
  k : Nat
  tally : Tally
  deriving DecidableEq, Repr

/-- A sum of exact intermediates in the 64-bit accumulator, saturated at its ends (R140). -/
def Chain.accumulate (c : Chain) (x : Num) (t : Tally) : Num × Tally :=
  let raw := x.units (-(c.scale : Int))
  let hi : Int := if c.wsgn then 2 ^ 63 - 1 else 2 ^ 64 - 1
  let lo : Int := if c.wsgn then -(2 ^ 63) else 0
  let cl := if raw > hi then hi else if raw < lo then lo else raw
  (Num.ofInt cl (-(c.scale : Int)), if cl = raw then t else t.first .saturated)

/-- Two nodes combined. `draw k` is the draw of the k-th addition. -/
def Chain.combine (c : Chain) (rd : Rounding) (draw : Nat → Nat) (r : Red) (x y : Num) : Num × Red :=
  if c.reduceStage = 6 then
    (if c.minmax = 5 then Num.minimum x y else Num.maximum x y, r)
  else
    let s := Num.add rd.rnd x y
    if c.isFloat then
      let (v, t) := c.round rd (draw (r.k + 1)) (s.isNan && !x.isNan && !y.isNan) s
      (v, ⟨r.k + 1, r.tally.first t⟩)
    else
      let (v, t) := c.accumulate s r.tally
      (v, ⟨r.k + 1, t⟩)

/-- One level of the tree: positions 2j and 2j + 1 combine; holes pass the other node up. -/
def Chain.level (c : Chain) (rd : Rounding) (draw : Nat → Nat) (r : Red) : List (Option Num) → List (Option Num) × Red
  | some x :: some y :: rest =>
    let (v, r1) := c.combine rd draw r x y
    let (vs, r2) := c.level rd draw r1 rest
    (some v :: vs, r2)
  | some x :: none :: rest =>
    let (vs, r1) := c.level rd draw r rest
    (some x :: vs, r1)
  | none :: y :: rest =>
    let (vs, r1) := c.level rd draw r rest
    (y :: vs, r1)
  | [x] => ([x], r)
  | [] => ([], r)

/-- The tree over one strip; `fuel` levels. -/
def Chain.tree (c : Chain) (rd : Rounding) (draw : Nat → Nat) : Nat → Red → List (Option Num) → Option Num × Red
  | 0, r, xs => (xs.head?.join, r)
  | n + 1, r, xs =>
    let (ys, r1) := c.level rd draw r xs
    c.tree rd draw n r1 ys

/-- The strips' results, and then their combination in ascending order (R140). -/
def Chain.reduce (c : Chain) (rd : Rounding) (draw : Nat → Nat) (strips : List (List (Option Num))) : Num × Tally :=
  let (parts, r) := strips.foldl
    (fun (p : List Num × Red) strip =>
      let (v, r1) := c.tree rd draw 10 p.2 strip
      (match v with
       | some x => p.1 ++ [x]
       | none => p.1, r1)) ([], ⟨0, .none⟩)
  match parts with
  | [] =>
    if c.reduceStage = 3 then (.fin false 0 0, .none)
    else if c.isFloat then (.nan, .nan)
    else (Num.ofInt c.ctl.intMax (-(c.ctl.frac : Int)), .nan)
  | x :: xs =>
    let (v, r2) := xs.foldl (fun p y => c.combine rd draw p.2 p.1 y) (x, r)
    -- a sum of one element has met no addition: the accumulator holds it all the same
    if c.reduceStage = 3 && !c.isFloat then c.accumulate v r2.tally else (v, r2.tally)

-- the whole chain on a list of positions

/-- What a chain op gives, by destination position: for each destination position, nothing where the element is kept, otherwise the value, `none`
for a zeroed element; the tallies; the fresh compare bits by position. -/
structure ChainOut where
  outs : List (Option (Option Num))
  tallies : List Tally
  fresh : List Bool
  /-- positions that the write mask leaves on -/
  live : List Bool
  deriving DecidableEq, Repr

/-- The chain over positions 0 to n − 1 in strips of `vlmax`; `dr i` is the draw of destination element i. The stages after a
reduction see `first`, element 0 of the operands, which is there even where no position is active (R140). -/
def Chain.run (c : Chain) (rd : Rounding) (vlmax : Nat) (dr : Nat → Nat) (redDraw : Nat → Nat)
    (first : LaneIn) (ins : List LaneIn) : ChainOut :=
  let rs := c.reduceStage
  let last := if rs = 0 then 8 else if rs = 3 then 2 else 5
  let lanes := ins.zipIdx.map (fun p => (p.1, c.stages rd (dr p.2) 2 last p.1 ⟨p.1.a, .none, false⟩))
  if rs = 0 then
    { outs := lanes.map (fun p =>
        if c.writes p.1 p.2 then some (some p.2.t) else if c.zeroMasked then some none else none)
      tallies := lanes.flatMap (fun p => if c.writes p.1 p.2 then p.2.tally :: p.1.tallies else [])
      fresh := lanes.map (fun p => p.2.fresh)
      live := lanes.map (fun p => c.writes p.1 p.2) }
  else
    let nodes := lanes.map (fun p => if c.writes p.1 p.2 then some p.2.t else none)
    let (v, h) := c.reduce rd redDraw (chunksOf vlmax (nodes.length / vlmax + 1) nodes)
    let l := c.stages rd (dr 0) (rs + 1) 8 first ⟨v, h, false⟩
    { outs := [some (some l.t)]
      tallies := l.tally :: lanes.flatMap (fun p => if c.writes p.1 p.2 then p.2.tally :: p.1.tallies else [])
      fresh := if rs = 6 then lanes.map (fun p => p.2.fresh) else [l.fresh]
      live := lanes.map (fun p => c.writes p.1 p.2) }

-- operands

/-- Bit address of element `i` of a stream operand. -/
def Opnd.bit (d : Opnd) (i : Nat) : Nat := ((d.addr * 8 : Nat) + (i : Int) * d.stride * (d.ctl.width : Int)).toNat

/-- The value of element `i` of a stream, unconverted: rows of `row` elements. -/
def State.streamElem (s : State) (d : Opnd) (row i : Nat) : Num :=
  s.element d.ctl d.scaleAddr (d.bit i) (blockOf d.ctl row i)

/-- Stage 1 on one value (R131, R84): converted where the controls differ from the working format's. -/
def Chain.input (c : Chain) (rd : Rounding) (ctl : Ctl) (dr : Nat) (x : Num) : Num × List Tally :=
  if ctl.same c.ctl then (x, [])
  else
    let (v, t) := convert rd c.ctl 127 dr x
    (c.ctl.decode v, [t])

/-- The byte range a stream of `n` elements touches, as first and last byte. -/
def Opnd.span (d : Opnd) (n : Nat) : Nat × Nat :=
  let e := if n = 0 then 0 else n - 1
  let b0 := d.bit 0
  let b1 := d.bit e
  (min b0 b1 / 8, (max b0 b1 + d.ctl.width + 7) / 8)

/-- The scales of an operand of one row of `n` elements, as a byte range (R79 to R82). -/
def Opnd.scales (d : Opnd) (n : Nat) : List (Nat × Nat) :=
  if d.kind = 0 ∨ d.ctl.mode = 0 ∨ n = 0 then []
  else [(d.scaleAddr, scalesOf d.ctl 1 n)]

/-- Elements a stream operand of the op holds: one where its stride is 0, or where it is a reduction's destination. -/
def ChainOp.extent (op : ChainOp) (n : Nat) (d : Opnd) (isDest : Bool) : Nat :=
  if n = 0 then 0 else if d.stride = 0 ∨ (isDest ∧ op.chain.reduceStage ≠ 0) then 1 else n

/-- Groups and replication of a scale derivation: without entries, one scale for each count (R149, R192). -/
def ChainOp.groups (op : ChainOp) : Nat := if op.a.kind = 0 then op.count else op.count / op.g
def ChainOp.copies (op : ChainOp) : Nat := if op.a.kind = 0 then 1 else op.r

/-- Operand a of a scale derivation as what it is: entries of 8 bytes, whatever format its controls name (R149); and operand c:
bits, eight to a byte (R192). -/
def Opnd.asEntries (d : Opnd) : Opnd := { d with ctl := ⟨0xC, false, 0, 0⟩ }
def Opnd.asBytes (d : Opnd) : Opnd := { d with ctl := ⟨9, false, 0, 0⟩, stride := 1 }

/-- The sources of a chain op on `k` positions and its destination, each with the elements it holds (R136, R149, R192). -/
def ChainOp.operands (op : ChainOp) (k : Nat) : List (Opnd × Nat) × (Opnd × Nat) :=
  if op.chain.derive then
    ([(op.a.asEntries, op.extent op.count op.a false), (op.b, op.extent op.groups op.b false),
      (op.c.asBytes, (op.groups * op.copies + 7) / 8)], (op.d, op.groups * op.copies))
  else
    ([(op.a, op.extent k op.a false), (op.b, op.extent k op.b false), (op.c, op.extent k op.c false)],
      (op.d, op.extent k op.d true))

/-- Byte ranges of a stream of `e` elements. -/
def Opnd.ranges (d : Opnd) (e : Nat) : List (Nat × Nat) :=
  if d.kind ≠ 2 ∨ e = 0 then []
  else if d.stride = 0 ∨ d.stride = 1 ∨ d.stride = -1 then [((d.span e).1, (d.span e).2 - (d.span e).1)]
  else (List.range e).map (fun i => (d.bit i / 8, (d.ctl.width + 7) / 8))

/-- The bytes of an operand of `e` elements, and its scales. -/
def Opnd.reads (d : Opnd) (e : Nat) : List (Nat × Nat) := if d.kind ≠ 2 then [] else d.ranges e ++ d.scales e

/-- Source tiles that a narrowing input conversion covers at `n` positions (R95). -/
def Chain.inTiles (c : Chain) (d : Opnd) (n : Nat) : List Nat :=
  if d.kind = 2 ∧ !d.ctl.same c.ctl ∧ narrowing d.ctl c.ctl then (List.range n).map (fun i => d.bit i / 32768) else []

/-- Statistics of a narrowing input conversion, by source tile (R95), over the positions that the write mask leaves on
(R139). -/
def Chain.inStats (c : Chain) (d : Opnd) (live : List Bool) (raw : List (Num × Tally)) : List (Nat × Num × Tally) :=
  if d.kind = 2 ∧ !d.ctl.same c.ctl ∧ narrowing d.ctl c.ctl then
    ((raw.zipIdx.zip live).filter (fun p => p.2)).map (fun p => (d.bit p.1.2 / 32768, p.1.1.1, p.1.1.2))
  else []

-- scale derivation (R149, R192)

/-- The scales a derivation op writes. `entries` are the amax values of operand a, absent where a is; `prev` the
previous scales; `flags` the overflow bits of operand c, by scale written. -/
def deriveScales (fmt : Nat) (sgn : Bool) (g r groups : Nat) (entries : Option (List Nat)) (prev : List Nat)
    (flags : List Bool) : List Nat :=
  ((List.range groups).flatMap (fun i => List.replicate r i)).zipIdx.map (fun p =>
    let old := prev.getD p.1 127
    let derived := match entries with
      | some es => deriveScale fmt sgn ((slice' es (p.1 * g) g).foldl max 0) old
      | none => old
    if flags.getD p.2 false then min 254 (max derived (old + 1)) else derived)
where
  slice' (l : List Nat) (off n : Nat) : List Nat := (l.drop off).take n

end Sys2Proof.Machine
end

