-- ==== Sys2Proof/Machine/Vector.lean ====
section
/-! DEFINITION. The vector engine's ops (R127 to R151): VOP and SETVL on a core's registers and store. -/
namespace Sys2Proof.Machine

def State.vreg (s : State) (n i : Nat) : VReg := Tab.get 0 s.cores.vregs (n * 32 + i)
def State.setVreg (s : State) (n i : Nat) (v : VReg) : State :=
  { s with cores := { s.cores with vregs := Tab.set 0 (n * 32 + i) v s.cores.vregs } }

/-- Mask registers: m0 reads as all ones and discards writes (R127). -/
def State.mreg (s : State) (n i : Nat) : MReg := if i = 0 then BitVec.allOnes 512 else Tab.get 0 s.cores.mregs (n * 8 + i)
def State.setMreg (s : State) (n i : Nat) (v : MReg) : State :=
  if i = 0 then s else { s with cores := { s.cores with mregs := Tab.set 0 (n * 8 + i) v s.cores.mregs } }

def State.vl (s : State) (n : Nat) : Nat := Tab.get 0 s.cores.vl n

/-- Displacement of R168 by elements `w` bits wide: the operand moved, or none where the displacement is no whole number of bytes
or leaves the store of core `n`. -/
def Opnd.displace (d : Opnd) (w n c : Nat) : Option Opnd :=
  if d.kind ≠ 2 ∨ d.stride = 0 then some d
  else
    let bits : Int := (c : Int) * d.stride * (w : Int)
    let a : Int := d.addr + bits / 8
    if bits % 8 ≠ 0 ∨ a < coreStore n ∨ a ≥ coreStore n + storeSize then none else some { d with addr := a.toNat }

/-- The address a faulting displacement names. -/
def Opnd.displacedAddr (d : Opnd) (w c : Nat) : Nat := ((d.addr : Int) + (c : Int) * d.stride * (w : Int) / 8).toNat

/-- A stream of `k` elements and its scales lie inside core `n`'s store (R136). -/
def Opnd.inStore (d : Opnd) (n k : Nat) : Bool :=
  (d.kind ≠ 2 || k = 0 || (coreStore n ≤ (d.span k).1 && (d.span k).2 ≤ coreStore n + storeSize
    && decide (0 ≤ (d.addr * 8 : Nat) + ((k : Int) - 1) * d.stride * (d.ctl.width : Int))))
  && (d.scales k).all (fun r => decide (r.1 + r.2 ≤ coreStore n + storeSize))

/-- The address an operand outside the store names: its first byte past the store, or its first byte. -/
def Opnd.outside (d : Opnd) (n k : Nat) : Nat :=
  if coreStore n + storeSize < (d.span k).2 ∨ (d.scales k).any (fun r => decide (coreStore n + storeSize < r.1 + r.2)) then
    coreStore n + storeSize
  else (d.span k).1

/-- Element `i` of a source of a vector op before stage 1: zero of the working format where absent. A register's elements lie one
after another, under the scales of the operand where it has any (R138); past bit 4,095 they read 0 (DESIGN CHOICE, log entry
111). -/
def State.vecSource (s : State) (n row : Nat) (d : Opnd) (i : Nat) : Num :=
  match d.kind with
  | 1 =>
    let k := if d.stride = 0 then 0 else i
    (d.ctl.decode (((s.vreg n d.addr).toNat >>> (k * d.ctl.width)) % 2 ^ d.ctl.width)).scaled
      (s.scaleAt d.ctl d.scaleAddr (blockOf d.ctl row k))
  | 2 => s.streamElem d row i
  | _ => .fin false 0 0

/-- A source of `n` positions after stage 1, with its raw values. -/
def Chain.source (ch : Chain) (rd : Rounding) (dr : Nat → Nat) (d : Opnd) (raw : Nat → Num) (n : Nat) :
    List (Num × List Tally) × List (Num × Tally) :=
  let vs := (List.range n).map (fun i =>
    let x := raw i
    let p := if d.kind = 0 then (x, []) else ch.input rd d.ctl (dr i) x
    (x, p))
  (vs.map (fun v => v.2), vs.map (fun v => (v.1, v.2.2.headD .none)))

/-- The read of two cycles when every operand is a register, and four otherwise; stages; reduction; write; strips
(R150). -/
def ChainOp.cycles (op : ChainOp) (n vlmax perCycle : Nat) (slow : Bool) (sealing : Bool) : Nat :=
  let ch := op.chain
  let fp64 := ch.wfmt = 0
  let used := [op.a, op.b, op.c].filter (fun d => d.kind ≠ 0)
  let read := if used.all (fun d => d.kind = 1) then 2 else 4
  let stage1 := if used.any (fun d => !d.ctl.same ch.ctl) then 2 else 0
  let stage9 := if ch.derive || sealing || (op.d.kind ≠ 0 && !op.d.ctl.same ch.ctl) then 3 else 0
  let lat := (if ch.mul ≠ 0 then (if fp64 then 4 else 3) else 0) + (if ch.add ≠ 0 then (if fp64 then 4 else 3) else 0)
    + (if ch.cmp ≠ 0 then 1 else 0) + (if ch.sel then 1 else 0) + (if ch.minmax ≠ 0 then 1 else 0)
    + (if ch.sfu ≠ 0 then (if fp64 then 14 else 8) else 0) + (if ch.fxp ≠ 0 then 2 else 0)
  let strip := min n vlmax
  let red := if ch.reduceStage = 0 ∨ strip ≤ 1 then 0 else 2 * ((strip - 1).log2 + 1)
  let strips := max 1 ((n + vlmax - 1) / vlmax)
  let sfuRate := if slow && fp64 && decide (ch.sfu ≠ 0) then (if ch.sfu ≥ 5 then 4 else 2) else 1
  let gather := if used.any (fun d => d.kind = 2 && d.stride ≠ 0 && d.stride ≠ 1 && d.stride ≠ -1)
    then (strip + perCycle - 1) / perCycle else 1
  read + stage1 + lat + stage9 + red + (if op.d.kind = 2 then 4 else 1) + (strips - 1) * max sfuRate gather

/-- The vector op of a record with its operands displaced; the address of a displacement that faults. -/
def State.vecOp (s : State) (o : InFlight) : Except Nat ChainOp :=
  let n := o.list
  let op := ChainOp.ofVec (coreStore n) (s.rd (coreStore n + o.record.desc) 96)
  -- the entries of a derivation are 64 bits wide, and its overflow bits one (R149, R192)
  let wa := if op.chain.derive then 64 else op.a.ctl.width
  let wc := if op.chain.derive then 1 else op.c.ctl.width
  if !o.record.idxEn then .ok op
  else
    match op.a.displace wa n o.idx, op.b.displace op.b.ctl.width n o.idx, op.c.displace wc n o.idx,
        op.d.displace op.d.ctl.width n o.idx with
    | some a, some b, some c, some d => .ok { op with a := a, b := b, c := c, d := d }
    | none, _, _, _ => .error (op.a.displacedAddr wa o.idx)
    | _, none, _, _ => .error (op.b.displacedAddr op.b.ctl.width o.idx)
    | _, _, none, _ => .error (op.c.displacedAddr wc o.idx)
    | _, _, _, none => .error (op.d.displacedAddr op.d.ctl.width o.idx)

/-- Positions an op processes (R128, R135). -/
def State.vecCount (s : State) (n : Nat) (op : ChainOp) : Nat :=
  if op.count = 0 then min (s.vl n) (op.chain.vlmax 4096) else op.count

/-- What a chain op on `n` positions reads, for verification: its sources and their scales (R80, R147). -/
def ChainOp.inputs (op : ChainOp) (n : Nat) : List (Nat × Nat) := (op.operands n).1.flatMap (fun p => p.1.reads p.2)

/-- Scale derivation (R149, R192): statistics entries, previous scales and overflow bits to E8M0 scales. -/
def State.runDerive (s : State) (o : InFlight) (op : ChainOp) : State × InFlight :=
  let haveA := op.a.kind ≠ 0
  let g := if haveA then op.g else 1
  let r := op.copies
  let groups := op.groups
  let entries : Option (List Nat) := if haveA then
      some ((List.range op.count).map (fun (i : Nat) => s.rdLE (((op.a.addr : Int) + (i : Int) * op.a.stride * 8).toNat) 4)) else none
  let prev := (List.range groups).map (fun i => if op.b.kind = 0 then 127 else s.rdBits (op.b.bit i) 8)
  let flags := (List.range (groups * r)).map (fun j =>
    if op.c.kind = 0 then false else bitOf (s.rdLE (op.c.addr + j / 8) 1) (j % 8))
  let out := deriveScales op.a.ctl.fmt op.a.ctl.sgn g r groups entries prev flags
  s.writeRuns o o.record.digest (joinRuns (sortRuns (out.zipIdx.map (fun p => ⟨op.d.bit p.2, 8, p.1⟩))))

/-- The values of a chain op's destination written to vector register `d` of core `n` (R128, R139), converted like any
destination; computed scales go to the operand's scale tiles (R79, R138). Positions past bit 4,095 are dropped (DESIGN CHOICE, log
entry 111). -/
def State.writeVreg (s : State) (o : InFlight) (n row : Nat) (op : ChainOp) (outs : List (Option (Option Num))) : State × InFlight :=
  let es := outs.zipIdx.filterMap (fun p =>
    p.1.map (fun x => OutElem.mk (op.d.ctl.width * p.2) (blockOf op.d.ctl row p.2) x))
  let cv := s.convertOut o.record.rounding op.chain.ctl op.d.ctl op.d.scaleAddr o.record.tensorId (op.d.ctl.same op.chain.ctl) es
  let v := cv.runs.foldl (fun v r => v - (bitsOf v (r.bit + r.width - 1) r.bit) <<< r.bit + r.val <<< r.bit)
    (s.vreg n op.d.addr).toNat
  let cnt := o.cnt.addAll cv.tallies
  let o1 : InFlight := { o with cnt := { cnt with overflowed := cnt.overflowed + cv.overflowed.length } }
  let s1 := s.setVreg n op.d.addr (BitVec.ofNat 4096 v)
  if cv.scales.isEmpty then (s1, o1) else s1.writeRuns o1 false cv.scaleRuns

/-- The mask register that stage 4 writes (R139, R140). -/
def State.writeCmpMask (s : State) (n : Nat) (op : ChainOp) (k : Nat) (fresh : List Bool) : State :=
  let ch := op.chain
  if ch.cmp = 0 ∨ ch.cmpMask = 0 then s
  else if ch.reduceStage = 3 then
    let old := (s.mreg n ch.cmpMask).toNat
    s.setMreg n ch.cmpMask (BitVec.ofNat 512 (if fresh.headD false then setBit old 0 else clearBit old 0))
  else
    let vm := ch.vlmax 4096
    let last := if k = 0 then 0 else (k - 1) / vm * vm
    let bits := (fresh.drop last).zipIdx.foldl (fun b p => if p.1 then setBit b p.2 else b) 0
    s.setMreg n ch.cmpMask (BitVec.ofNat 512 bits)

/-- The datapath of a list's stage chain: 4,096 bits in a core, 2,048 in a Marrow engine (R126, R244). -/
def datapath (l : ListId) : Nat := if l < 192 then 4096 else 2048

/-- What a chain op computes: its destination's values, tallies and fresh compare bits as the chain gives them, and the statistics
of its narrowing input conversions with the source tiles they cover and those read whole (R95). -/
structure ChainRun where
  outs : List (Option (Option Num))
  tallies : List Tally
  fresh : List Bool
  inStats : List (Nat × Num × Tally)
  inTiles : List Nat
  inWhole : List Nat
  deriving DecidableEq, Repr

/-- What a chain op computes on `k` positions, before anything is written. The roundings of the elements of a reduction in stages 1 and 2, which have no
destination element of their own, draw by the index that element i would have after the destination (DESIGN CHOICE, log entry
112). -/
def State.chainRun (s : State) (o : InFlight) (op : ChainOp) (k : Nat) : ChainRun :=
  let n := o.list
  let ch := op.chain
  let vm := ch.vlmax (datapath n)
  let rd := o.record.rounding
  let row := max 1 k
  let di := s.elemIndex o.record.tensorId (op.d.bit 0)
  let dr (i : Nat) : Nat :=
    if rd.rnd = 5 then s.draw o.record.tensorId (s.elemIndex o.record.tensorId (op.d.bit i)) else 0
  let redDr (j : Nat) : Nat := if rd.rnd = 5 then s.draw o.record.tensorId (mix64 di ^^^ j) else 0
  -- element 0 is read for the stages after a reduction even where no position is active (R140)
  let k1 := if ch.reduceStage ≠ 0 then row else k
  let src (d : Opnd) := ch.source rd dr d (s.vecSource n row d) k1
  let (a, ra) := src op.a
  let (b, rb) := src op.b
  let (c, rc) := src op.c
  let zero : Num × List Tally := (.fin false 0 0, [])
  let sm := s.mreg n ch.selMask
  let wm := s.mreg n ch.wmask
  let lane (i : Nat) : LaneIn :=
    let x := a.getD i zero
    let y := b.getD i zero
    let z := c.getD i zero
    LaneIn.mk x.1 y.1 z.1 (sm.getLsbD (i % vm)) (wm.getLsbD (i % vm)) (x.2 ++ y.2 ++ z.2)
  let res := ch.run rd vm dr redDr (lane 0) ((List.range k).map lane)
  { outs := res.outs
    tallies := res.tallies
    fresh := res.fresh
    inStats := ch.inStats op.a res.live ra ++ ch.inStats op.b res.live rb ++ ch.inStats op.c res.live rc
    inTiles := [op.a, op.b, op.c].flatMap (fun d => ch.inTiles d k)
    inWhole := [op.a, op.b, op.c].flatMap (fun d =>
      if d.kind = 2 ∧ d.stride = 1 then wholeTiles (d.span k).1 ((d.span k).2 - (d.span k).1) else []) }

/-- The values of a chain op's stream destination converted. A tile whose elements are all masked off is covered and gathers
nothing (R95, R139). -/
def State.chainConv (s : State) (o : InFlight) (op : ChainOp) (row : Nat) (outs : List (Option (Option Num))) : ConvOut :=
  let es := outs.zipIdx.filterMap (fun p => p.1.map (fun x => OutElem.mk (op.d.bit p.2) (blockOf op.d.ctl row p.2) x))
  let cv := s.convertOut o.record.rounding op.chain.ctl op.d.ctl op.d.scaleAddr o.record.tensorId (op.d.ctl.same op.chain.ctl) es
  { cv with covers := if cv.covers.isEmpty then [] else (List.range outs.length).map (fun i => op.d.bit i / 32768) }

/-- A chain op on `k` positions whose destination is a register, a stream in memory or absent. -/
def State.runChain (s : State) (o : InFlight) (op : ChainOp) (k : Nat) : State × InFlight :=
  let n := o.list
  let row := max 1 k
  let r := s.chainRun o op k
  let o1 : InFlight := { o with cnt := o.cnt.addAll r.tallies }
  let s1 := if n < 192 then s.writeCmpMask n op k r.fresh else s
  if op.d.kind = 1 then
    let (s2, o2) := s1.writeVreg o1 n row op r.outs
    (if op.statBase = 0 then s2 else s2.writeStats (.op o.id) op.statBase r.inTiles r.inStats (fun t => t ∈ r.inWhole), o2)
  else if op.d.kind = 2 then
    let cv := s1.chainConv o op row r.outs
    s1.writeOut o1 { cv with covers := r.inTiles ++ cv.covers } op.d.ctl (op.d.bit 0) op.statBase r.inStats r.inWhole
  else
    (if op.statBase = 0 then s1 else s1.writeStats (.op o.id) op.statBase r.inTiles r.inStats (fun t => t ∈ r.inWhole), o1)

/-- Stage 9 seals tiles of the op's destination (R131, R169). -/
def ChainOp.sealing (op : ChainOp) (r : OpRecord) (k : Nat) : Bool :=
  r.ckPolicy = 0 && op.d.kind = 2 && decide (op.d.stride = 1)
    && !(wholeTiles (op.d.span k).1 ((op.d.span k).2 - (op.d.span k).1)).isEmpty

/-- VOP without verification: displacement and bounds (R136, R168), then derivation or the chain. -/
def vopBody (s : State) (o : InFlight) : State × InFlight :=
  match s.vecOp o with
  | .error a => (s, o.failed Status.addressFault a)
  | .ok op =>
    let k := s.vecCount o.list op
    let ops := op.operands k
    match (ops.1 ++ [ops.2]).find? (fun d => !d.1.inStore o.list d.2) with
    | some d => (s, o.failed Status.addressFault (d.1.outside o.list d.2))
    | none =>
      let s1 := s.bump64 (Reg.seqCounter o.list 2)
        (op.cycles k (op.chain.vlmax 4096) 16 (op.count ≠ 0) (op.sealing o.record k))
      if op.chain.derive then s1.runDerive o op else s1.runChain o op k

/-- VOP: source tiles verified (R147, R169), then the computation. -/
def vopRun (s : State) (o : InFlight) : State × InFlight :=
  match s.vecOp o with
  | .error _ => vopBody s o
  | .ok op =>
    let k := s.vecCount o.list op
    s.verified o true (Inputs.of (op.inputs k)) vopBody

/-- SETVL (R129): vl := min(n, VLMAX(ew)); the grant reaches its count register when the op completes. -/
def setvlRun (s : State) (o : InFlight) : State × InFlight :=
  let g := min o.idx (4096 / (8 * 2 ^ o.record.ew))
  (({ s with cores := { s.cores with vl := Tab.set 0 o.list g s.cores.vl } }).bump64 (Reg.seqCounter o.list 2) 1,
    { o with idx := g })

/-- A core list and a record of the unit and opcode of a command. -/
def coreRecord (l : ListId) (r : OpRecord) (units : List Nat) (opcode : Nat) : Bool :=
  l < 192 && r.unit ∈ units && r.opcode = opcode

/-- VOP (R131 to R149). -/
def execVop (l : ListId) (r : OpRecord) (s : State) : Result :=
  ifUnit (l < 192) (if coreRecord l r [3] 1 then s.issueOp l r vopRun else s)

/-- SETVL (R129, R167). -/
def execSetvl (l : ListId) (r : OpRecord) (s : State) : Result :=
  ifUnit (l < 192) (if coreRecord l r [3] 2 then s.issueOp l r setvlRun else s)

end Sys2Proof.Machine
end

