-- ==== Sys2Proof/Machine/Finish.lean ====
section
/-! DEFINITION. The end of transfer ops: tiles that a dequeue filled are sealed, and every transfer whose work is done
completes (R169, R174, R176). -/
namespace Sys2Proof.Machine

/-- The tiles of a range that entries have filled one by one: sealed where the policy seals and no other write has reached them
since the first entry (R226), stamped, and digested (R169, R204, R225). -/
def State.sealRange (s : State) (o : InFlight) (a n : Nat) : State × InFlight :=
  let ws := wholeTiles a n
  let seals (t : Nat) : Bool := decide (o.record.ckPolicy = 0) && decide (t ∈ ws) && !((o.id, t) ∈ s.memory.spoiled)
  let s1 := ws.foldl (fun s t => s.setTag t (tagOf (s.rd (t * 4096) 4096) (seals t) (some (s.stamp o)))) s
  let o1 := o.leaves ((touchedTiles a n).any (fun t => !seals t))
  (s1, o1.digested o.record.digest (s1.digestOf o.record.tensorId [⟨a * 8, n * 8, 0⟩] (fun t => s1.rd (t * 4096) 4096)))

/-- An op in flight completes if its work is done: a transfer as soon as it is, any op once its record is out. -/
def State.settleOp (s : State) (o : InFlight) : State :=
  match o.pending with
  | .sealing a n =>
    if s.unfinished { o with pending := .done } then s
    else
      let (s1, o1) := if rangeOf a = .host then (s, o) else s.sealRange o a n
      let o2 : InFlight := { o1 with pending := .done }
      (s1.setOp o2).completeOp o2
  | _ => if o.recorded || o.record.unit = 4 then s.completeOp o else s

/-- Every op in flight that can complete does. -/
def State.settle (s : State) : State :=
  (s.cores.inflight.map (fun o => o.id)).foldl
    (fun s i => match s.op? i with
      | some o => s.settleOp o
      | none => s) s

/-- An op updated, and completed if that ends it. -/
def State.putOp (s : State) (o : InFlight) : State := (s.setOp o).settle

end Sys2Proof.Machine
end

