-- ==== Sys2Proof/Machine/Serve.lean ====
section
/-! DEFINITION. Requests of peers served at this home: receive records (R320), replies, commit queues (R336 to R338),
congestion notices (R339), Cress (R342 to R345) and the Leek journal (R346, R347). -/
namespace Sys2Proof.Machine

def State.onFabric (s : State) (f : Fabric → Fabric) : State := { s with fabric := f s.fabric }

/-- The fabric wait deadline in ns: four tick periods where the table gives 0 (R322, R327). -/
def State.waitDeadline (s : State) : Nat :=
  if s.fabric.waitDeadline = 0 then 40 * s.fld Fld.period else s.fabric.waitDeadline * 10000

-- replies

/-- A reply (type 0xF): its operation is the request's type (log entry 26); `word` and `data` as the request's type
needs. -/
def State.reply (s : State) (tx : Tx) (word : Nat) (data : List Byte) (crc : Bool) : State :=
  s.sendTx { s.mkTx 0xF tx.type tx.src tx.addr word data with seq := tx.seq, stream := tx.stream, tileCrc := crc }

/-- A refusal: operation 0, the status of R405 in the operation word (log entry 26). -/
def State.refuse (s : State) (tx : Tx) (status : Nat) : State :=
  s.sendTx { s.mkTx 0xF 0 tx.src tx.addr status [] with seq := tx.seq, stream := tx.stream }

-- receive records (R320)

def State.rxRec (s : State) (g : Nat) : RxRec := Tab.get ⟨0, []⟩ s.fabric.rx g

/-- The request with this sequence number has been performed (R320). -/
def State.marked (s : State) (g seq : Nat) : Bool :=
  let r := s.rxRec g
  decide (2 ^ 31 ≤ (seq + 2 ^ 32 - r.low % 2 ^ 32) % 2 ^ 32) || decide (seq ∈ r.above)

/-- The lowest number not performed, after the marks above it; `n` bounds the search. -/
def settleRx : Nat → RxRec → RxRec
  | 0, r => r
  | n + 1, r =>
    if r.low ∈ r.above then settleRx n ⟨(r.low + 1) % 2 ^ 32, r.above.filter (fun x => x ≠ r.low)⟩ else r

/-- The request marked as performed. -/
def State.mark (s : State) (g seq : Nat) : State :=
  if s.marked g seq then s
  else
    let r := s.rxRec g
    let r1 : RxRec := { r with above := r.above ++ [seq] }
    s.onFabric (fun f => { f with rx := Tab.put g (settleRx r1.above.length r1) f.rx })

def originOf (tx : Tx) : Origin := .remote tx.src tx.seq tx.stream

-- the journal

def leekCap : Nat := 262144

/-- The oldest entry may be evicted (R347). -/
def State.leekFree (s : State) : Bool :=
  decide (s.fabric.leek.length < leekCap) ||
    (match s.fabric.leek with
     | e :: _ => decide (e.time + us 500 ≤ s.now)
     | [] => true)

/-- An atomic need not wait for the journal: it has room, and no atomic waits that came before. -/
def State.leekReady (s : State) : Bool := s.leekFree && s.fabric.leekWait.isEmpty

/-- An entry written; the journal keeps its capacity by evicting the oldest (R346, R347). -/
def State.journal (s : State) (tx : Tx) (old : Nat) : State :=
  let e : Leek := ⟨tx.src, tx.stream, tx.seq, old, tx.addr % 2 ^ 48, tx.word, tx.ranked, s.now⟩
  let l := (if s.fabric.leek.length < leekCap then s.fabric.leek else s.fabric.leek.drop 1) ++ [e]
  (s.onFabric (fun f => { f with leek := l })).setFld Fld.leekUsed l.length

/-- The entry of a device's atomic with this sequence number. -/
def State.leekOf (s : State) (src seq : Nat) : Option Leek := s.fabric.leek.find? (fun e => decide (e.src = src) && decide (e.seq = seq))

/-- Operand and compare value of an atomic request (R317). -/
def txOperand (tx : Tx) : Nat := fieldLE tx.data 0 8
def txCompare (tx : Tx) : Nat := fieldLE tx.data 8 8

/-- A remote atomic applied and journalled (R346); it counts as performed once its write has been (R319). -/
def State.applyAtomic (s : State) (tx : Tx) : State :=
  let (old, s1) := s.atomic (originOf tx) tx.word (tx.addr % 2 ^ 48) (txOperand tx) (txCompare tx)
  s1.journal tx old

-- commit queues (R336)

/-- Local address range of a request at this home. -/
def txAddr (tx : Tx) : Nat := tx.addr % 2 ^ 48
def txLen (tx : Tx) : Nat := if tx.type = 3 then atomicWidth tx.word else tx.len
def txLines (tx : Tx) : List Nat := linesOf (txAddr tx) (txLen tx)

def State.queueAt (s : State) (line : Nat) : List Nat := Tab.get [] s.fabric.commit line
def State.busyUntil (s : State) (line : Nat) : Nat := Tab.get 0 s.fabric.busy line

/-- A request is committing or waiting at the line (R343). -/
def State.lineBusy (s : State) (line : Nat) : Bool := !(s.queueAt line).isEmpty || decide (s.now < s.busyUntil line)

/-- A write to the line has been committed and still waits for a copy or for a holder. -/
def State.lineWaits (s : State) (line : Nat) : Bool :=
  s.memory.waits.any (fun w => decide (line ∈ linesOf w.addr w.data.length))

def State.setServe (s : State) (v : Serve) : State :=
  s.onFabric (fun f => { f with serving := f.serving.map (fun u => if u.id = v.id then v else u) })

/-- A congestion notice to one source: gap in [15:0], validity of 20 µs in [31:16] (R339, R341). -/
def State.congestNotice (s : State) (g gap : Nat) : State :=
  ((s.onFabric (fun f => { f with congestOut := if gap = 0 then Tab.del g f.congestOut else Tab.put g s.now f.congestOut })).sendTx
    (s.mkTx 8 4 g 0 (gap + 20 * 2 ^ 16) [])).bump64 Reg.congSent 1

/-- Requests that wait for a line, and their sources. -/
def State.waitingAt (s : State) (line : Nat) : List Tx :=
  (s.fabric.serving.filter (fun v => v.id ∈ s.queueAt line)).flatMap (fun v => v.members)

/-- Congestion notices (R339): while more than 64 requests wait for a line, to every source in its queue, at most one to
a source every 10 µs. -/
def State.congested (s : State) (line : Nat) : State :=
  let ts := s.waitingAt line
  if ts.length ≤ 64 then s
  else
    ts.foldl (fun s t =>
      if (Tab.find? s.fabric.congestOut t.src).any (fun u => decide (s.now < u + us 10)) then s
      else s.congestNotice t.src (min 65535 (4 * ts.length)))
      (s.onFabric (fun f => { f with congestLines := if line ∈ f.congestLines then f.congestLines else f.congestLines ++ [line] }))

/-- The queue of a line that was congested has fallen to 16 requests: a notice with a gap of 0 to every source told in the last
20 µs. -/
def State.relieved (s : State) (line : Nat) : State :=
  if line ∈ s.fabric.congestLines ∧ (s.waitingAt line).length ≤ 16 then
    s.fabric.congestOut.foldl (fun s e => if s.now ≤ e.2 + us 20 then s.congestNotice e.1 0 else s)
      (s.onFabric (fun f => { f with congestLines := f.congestLines.filter (fun l => l ≠ line) }))
  else s

/-- The part of a write that lies in a line. -/
def linePart (tx : Tx) (line : Nat) : Nat × List Byte :=
  let a := txAddr tx
  let lo := max a (line * 64)
  let hi := min (a + tx.len) (line * 64 + 64)
  (lo, slice tx.data (lo - a) (hi - lo))

/-- A write or atomic committed at a line (R336, R337, R344): the members of an atomic entry in their order of arrival. -/
def State.commitAt (s : State) (v : Serve) (line : Nat) : State :=
  match v.members with
  | [] => s
  | t :: r =>
    if t.type = 3 then
      ((t :: r).foldl (fun s m => s.applyAtomic m) s).bump64 Reg.cressAtomics r.length
    else
      let p := linePart t line
      s.write (originOf t) p.1 p.2

/-- The tile's tag noted for a stream that reads its first line (R227). -/
def State.noteTile (s : State) (tx : Tx) (line : Nat) : State :=
  if line % 64 ≠ 0 then s
  else
    let t := line / 64
    let g := s.tag (line * 64)
    { s with memory := { s.memory with
      reading := s.memory.reading.filter (fun r => !(r.1 = tx.src && r.2.1 = tx.stream && r.2.2.1 = t)) ++
        [(tx.src, tx.stream, t, if g.isSealed then some g.crc else none)] } }

/-- The head of a line's queue served as far as it goes: a read takes the line, a write or atomic commits where the line
is free, at most one every 4 ns; `n` bounds how many. -/
def State.pull (s : State) (line : Nat) : Nat → State
  | 0 => s
  | n + 1 =>
    match s.queueAt line with
    | [] => s
    | id :: rest =>
      let pop (s : State) (v : Serve) : State :=
        ((s.setServe { v with lines := v.lines.filter (fun l => l ≠ line) }).onFabric (fun f => { f with
          commit := Tab.set [] line rest f.commit })).relieved line
      match s.fabric.serving.find? (fun v => v.id = id) with
      | none => (s.onFabric (fun f => { f with commit := Tab.set [] line rest f.commit })).pull line n
      | some v =>
        if s.lineWaits line then s
        else if v.members.all (fun t => t.type = 1) then
          (pop (v.members.foldl (fun s t => s.noteTile t line) s) { v with data := Tab.put line (s.rd (line * 64) 64) v.data }).pull line n
        else if s.now < s.busyUntil line then s
        else
          let s1 := (s.commitAt v line).onFabric (fun f => { f with
            busy := Tab.put line (s.now + 4) (f.busy.filter (fun e => decide (s.now < e.2))) })
          (pop s1 v).pull line n

/-- The bytes a read has found. -/
def servedData (v : Serve) (tx : Tx) : List Byte :=
  slice ((txLines tx).flatMap (fun l => Tab.get [] v.data l)) (txAddr tx % 64) tx.len

/-- The CRC that a reply with the last bytes of a sealed tile carries (R315): the one found when the tile's first line was
served to this stream, none where a write has reached the tile since (R227). -/
def State.lastCrc (s : State) (tx : Tx) : Option Nat :=
  let e := txAddr tx + tx.len
  if e % 4096 ≠ 0 ∨ tx.len = 0 then none
  else
    match s.memory.reading.find? (fun r => r.1 = tx.src && r.2.1 = tx.stream && r.2.2.1 = e / 4096 - 1) with
    | some r => r.2.2.2.map (fun c => c.toNat)
    | none => if (s.tag (e - 1)).isSealed then some (s.tag (e - 1)).crc.toNat else none

/-- A read answered, with the tile's CRC behind its last bytes, and a fill for each line where one was asked (R324). -/
def State.answerRead (s : State) (tx : Tx) (bs : List Byte) (lines : Tab (List Byte)) : State :=
  let c := s.lastCrc tx
  let s1 := (s.mark tx.src tx.seq).reply tx (c.getD 0) bs c.isSome
  if tx.fillReq ∧ tx.src / 8 = s.gdn / 8 then
    lines.foldl (fun s e =>
      ((s.onFabric (fun f => { f with
        directory := Tab.set 0 e.1 (setBit (Tab.get 0 f.directory e.1) (slotOf tx.src)) f.directory })).sendTx
        (s.mkTx 0xB 2 tx.src (s.gdn * 2 ^ 48 + e.1 * 64) 0 e.2))) s1
  else s1

/-- The tile whose last bytes a write brings. -/
def lastTile (tx : Tx) : Nat := (txAddr tx + tx.len) / 4096 - 1

/-- The request completes a whole tile and carries its CRC (R315). -/
def carriesTile (tx : Tx) : Bool := tx.tileCrc && decide ((txAddr tx + tx.len) % 4096 = 0) && decide (tx.len ≠ 0)

/-- Another writer has reached the tile since this stream began it (R226). -/
def State.tileSpoiled (s : State) (tx : Tx) : Bool :=
  (originOf tx).writer.any (fun i => decide ((i, lastTile tx) ∈ s.memory.spoiled))

/-- The tile that a request completes does not match the CRC that it carries, though no other write has reached it (R227). -/
def State.tileFails (s : State) (tx : Tx) : Bool :=
  carriesTile tx && !s.tileSpoiled tx && decide ((crc32c (s.rd (lastTile tx * 4096) 4096)).toNat ≠ tx.word)

/-- What is remembered of a stream's write of a tile is dropped with its last bytes. -/
def State.endTile (s : State) (tx : Tx) : State :=
  let keep (e : Nat × Nat) : Bool := !((originOf tx).writer = some e.1 && e.2 = lastTile tx)
  if (txAddr tx + tx.len) % 4096 = 0 then
    { s with memory := { s.memory with begun := s.memory.begun.filter keep, spoiled := s.memory.spoiled.filter keep } }
  else s

/-- A whole tile that a write completes and whose CRC the request carries is sealed, unless another write has reached it
(R226, R227, R315). -/
def State.sealRemote (s : State) (tx : Tx) : State :=
  if carriesTile tx && !s.tileSpoiled tx then s.setTag (lastTile tx) ⟨BitVec.ofNat 32 tx.word, true, false, 0, 0, 0⟩ else s

/-- A write answered once it has been performed (R319): acknowledged, with the tile's CRC where the tile was sealed (log
entry 113), or, where the tile does not verify, refused so that the sender sends the tile again (R228). -/
def State.answerWrite (s : State) (tx : Tx) : State :=
  if s.tileFails tx then ((s.endTile tx).mark tx.src tx.seq).refuse tx Status.integrityFault
  else
    let ok := carriesTile tx && !s.tileSpoiled tx
    (((s.sealRemote tx).endTile tx).mark tx.src tx.seq).reply tx (if ok then tx.word else 0) [] ok

/-- An atomic that has been performed: the old value, from its journal entry (R319, R346). -/
def State.answerAtomic (s : State) (tx : Tx) : State :=
  match s.leekOf tx.src tx.seq with
  | some e => (s.mark tx.src tx.seq).reply tx 0 (toLE 8 e.old) false
  | none => s.mark tx.src tx.seq

-- packets of the queues (R288, R293)

def QDef.prod (d : QDef) : Ctl := Ctl.of16 d.prodCtl
def QDef.land (d : QDef) : Ctl := Ctl.of16 d.landCtl
def QDef.converts (d : QDef) : Bool := !d.prod.same d.land

/-- Landing entries of a packet of n producer entries, where that is a whole number from 1 to 256. -/
def QDef.landing? (d : QDef) (n : Nat) : Option Nat :=
  if !d.converts then (if 1 ≤ n ∧ n ≤ 256 then some n else none)
  else
    let m := n * d.land.width
    if m % d.prod.width = 0 ∧ 1 ≤ m / d.prod.width ∧ m / d.prod.width ≤ 256 then some (m / d.prod.width) else none

/-- Elements of a packet of n producer entries that lie, at least in part, in landing entry j: the first and the one past the
last. Elements are packed without gaps on both sides (R76, R293). -/
def QDef.elems (d : QDef) (n j : Nat) : Nat × Nat :=
  let total := n * 512 / d.prod.width
  (min total (j * 512 / d.land.width), min total (((j + 1) * 512 - 1) / d.land.width + 1))

/-- Producer entries that contribute to landing entry j of a packet of n. -/
def QDef.contributes (d : QDef) (n j : Nat) : List Nat :=
  if !d.converts then [j]
  else
    let e := d.elems n j
    let lo := e.1 * d.prod.width / 512
    let hi := (e.2 * d.prod.width - 1) / 512
    ((List.range (hi - lo + 1)).map (fun i => lo + i)).filter (fun i => decide (i < n))

/-- Every landing entry to which the entries of an enqueue transaction contribute has landed (R288): its packet has been
released, or holds them all. -/
def State.enqueueLanded (s : State) (tx : Tx) : Bool :=
  let q := tx.addr % 2 ^ 20
  let first := tx.addr / 2 ^ 32 % 2 ^ 16
  match s.qdef? q, s.fabric.credits.find? (fun c => decide (c.queue = q) && decide (c.src = tx.src) && decide (c.seq = tx.word)) with
  | some d, some c =>
    match (s.queue q).packets.find? (fun k => k.start = c.start) with
    | some k => (List.range k.size).all (fun j => decide (j ∈ k.landed) ||
        !(d.contributes k.prod j).any (fun i => decide (first ≤ i ∧ i < first + tx.len / 64)))
    | none => true
  | _, _ => true

/-- Requests that have left every commit queue, and whose writes have been performed, answered (R319). -/
def State.finishServes (s : State) : State :=
  s.fabric.serving.foldl (fun s v =>
    if v.lines = [] ∧ v.members.all (fun t => (t.type ≠ 5 || s.enqueueLanded t) && !s.hasWaits (originOf t)) then
      let s1 := s.onFabric (fun f => { f with serving := f.serving.filter (fun u => u.id ≠ v.id) })
      let s2 := v.members.foldl (fun s t =>
        if t.type = 1 then s.answerRead t (servedData v t) v.data
        else if t.type = 2 then s.answerWrite t
        else if t.type = 5 then (s.mark t.src t.seq).reply t 0 (Tab.get [] v.data 0) false
        else s.answerAtomic t) s1
      if v.members.all (fun t => t.type = 1) then s2.bump64 Reg.cressReads (v.members.length - 1) else s2
    else s) s

/-- Every commit queue served as far as it goes. -/
def State.pullAll (s : State) : State :=
  s.fabric.commit.foldl (fun s e => s.pull e.1 (e.2.length + 1)) s

/-- After a write that had waited may have been performed: the queues behind it, the answers, the ops that waited. -/
def State.afterWrites (s : State) : State := ((s.retryWrites.pullAll).finishServes).settle

/-- Requests that join the commit queues of their lines together. -/
def State.joinQueues (s : State) (ms : List Tx) : State :=
  match ms with
  | [] => s
  | t :: _ =>
    let ls := txLines t
    let id := s.fabric.nextServe
    let s1 := s.onFabric (fun f => { f with
      nextServe := id + 1
      serving := f.serving ++ [⟨id, ms, ls, [], s.now⟩]
      commit := ls.foldl (fun c l => Tab.set [] l (Tab.get [] c l ++ [id]) c) f.commit })
    let s2 := ls.foldl (fun s l => (s.congested l).pull l ((s.queueAt l).length + 1)) s1
    s2.finishServes

-- Cress (R342 to R345)

def State.refreshCress (s : State) : State := s.setFld Fld.cressOpen s.fabric.cress.length

/-- A request that Cress may combine (R342). -/
def combinable (t : Tx) : Bool :=
  t.type = 1 || (t.type = 3 && !t.ranked && (atomicOp t.word < 6 || (8 ≤ atomicOp t.word && atomicOp t.word ≤ 10)))

/-- Requests that join one entry. -/
def combines (a b : Tx) : Bool :=
  a.type = b.type && a.addr = b.addr && (if a.type = 1 then a.len = b.len else a.word = b.word)

/-- An entry closed: it joins the commit queues (R343). -/
def State.closeCress (s : State) (e : Cress) : State :=
  ((s.onFabric (fun f => { f with cress := f.cress.filter (fun x => x ≠ e) })).refreshCress).joinQueues e.members

/-- The entry meets a line of the request. -/
def Cress.meets (e : Cress) (t : Tx) : Bool :=
  match e.members with
  | m :: _ => (txLines m).any (fun l => l ∈ txLines t)
  | [] => false

/-- The entry accepts the request: it matches, and the window of 64 ns is open. -/
def Cress.accepts (e : Cress) (t : Tx) (now : Nat) : Bool :=
  combinable t && decide (now < e.opened + 64) && decide (e.members.length < 64) &&
    (match e.members with
     | m :: _ => combines m t
     | [] => false)

/-- A read, write or atomic of job HBM arrives over the fabric (R336, R343). -/
def State.arrive (s : State) (t : Tx) : State :=
  match s.fabric.cress.find? (fun e => e.accepts t s.now) with
  | some e =>
    let e1 : Cress := { e with members := e.members ++ [t] }
    let s1 := s.onFabric (fun f => { f with cress := f.cress.map (fun x => if x = e then e1 else x) })
    if e1.members.length = 64 then s1.closeCress e1 else s1
  | none =>
    let s1 := (s.fabric.cress.filter (fun e => e.meets t)).foldl (fun s e => s.closeCress e) s
    if combinable t ∧ (txLines t).any (fun l => s1.lineBusy l) then
      if s1.fabric.cress.length < 4096 then
        (s1.onFabric (fun f => { f with cress := f.cress ++ [⟨(txLines t).headD 0, [t], s1.now⟩] })).refreshCress
      else (s1.bump64 Reg.cressBypass 1).joinQueues [t]
    else s1.joinQueues [t]

/-- The origin is a request with this source and sequence number. -/
def Origin.isRequest (o : Origin) (src seq : Nat) : Bool :=
  match o with
  | .remote g n _ => g = src && n = seq
  | _ => false

/-- The home holds a request with this sequence number: in a queue, an entry, the journal's or a rank's wait, before its
start, or as a reservation that waits. -/
def State.holding (s : State) (src seq : Nat) : Bool :=
  let same (t : Tx) : Bool := decide (t.src = src) && decide (t.seq = seq)
  s.fabric.serving.any (fun v => v.members.any same) || s.fabric.cress.any (fun e => e.members.any same) ||
    s.fabric.leekWait.any (fun w => same w.2) || s.fabric.held.any (fun w => same w.2) ||
    s.fabric.rankWait.any (fun w => w.origin.isRequest src seq) ||
    s.queues.any (fun e => e.2.waiting.any (fun w => w.origin.isRequest src seq))

-- requests that may not start yet (R20, R175, R318)

/-- Whether an origin is a peer's request. -/
def Origin.isRemote : Origin → Bool
  | .remote _ _ _ => true
  | _ => false

/-- Tags of the fabric die in use: requests that have started and are not answered (R175). -/
def State.remoteTags (s : State) : Nat :=
  s.fabric.serving.foldl (fun n v => n + v.members.length) 0 + s.fabric.cress.foldl (fun n e => n + e.members.length) 0 +
    s.fabric.leekWait.length + (s.fabric.rankWait.filter (fun w => w.origin.isRemote)).length +
    s.queues.foldl (fun n e => n + (e.2.waiting.filter (fun w => w.origin.isRemote)).length +
      (e.2.deqs.filter (fun d => d.origin.isRemote)).length) 0

/-- Request `b` of the stream that sent `a` comes after it (R318): two writes, or two requests that meet a line. -/
def behind (a b : Tx) : Bool :=
  a.src = b.src && a.stream = b.stream &&
    (decide (a.type = 2 ∧ b.type = 2) || decide (a.type < 4 ∧ b.type < 4) && (txLines a).any (fun l => l ∈ txLines b))

/-- Requests that wait in the commit queues of a memory-side die (R338). -/
def State.queuedAt (s : State) (stack : Nat) : Nat :=
  s.fabric.commit.foldl (fun n e => if s.stackOf (e.1 * 64) = stack then n + e.2.length else n) 0

/-- A request for job HBM of a memory-side die whose buffer of 4,096 waiting requests is full (R338). -/
def State.dieFull (s : State) (tx : Tx) : Bool :=
  decide (tx.type < 4) && decide (rangeOf (txAddr tx) = .hbm) && (txLines tx).any (fun l => decide (4096 ≤ s.queuedAt (s.stackOf (l * 64))))

/-- A request that may not start: every tag of the fabric die is in use (R175), its memory-side die's buffer is full (R338), its
core's store moves (R20), or an earlier request of its stream must be performed first: one that is itself held, a write that has not been performed, or an atomic
that waits for its rank at one of its lines (R318). -/
def State.mustHold (s : State) (tx : Tx) : Bool :=
  decide (8192 ≤ s.remoteTags) || s.dieFull tx || (decide (tx.type < 4) && s.moving (txAddr tx)) || s.fabric.held.any (fun w => behind w.2 tx) ||
    (tx.type = 2 && s.fabric.serving.any (fun v => v.members.any (fun t => t.type = 2 && behind t tx))) ||
    (decide (tx.type < 4) && s.fabric.rankWait.any (fun w => match w.origin with
      | .remote g _ st => g = tx.src && st = tx.stream && decide (w.addr / 64 ∈ txLines tx)
      | _ => false))

end Sys2Proof.Machine
end

