-- ==== Sys2Proof/Machine/Remote.lean ====
section
/-! DEFINITION. This device's requests to its peers: sequence numbers, turns, deadlines and resends (R316, R320, R321,
R340), lost peers (R351, R352), and the launch tree's bookkeeping (R356 to R359). -/
namespace Sys2Proof.Machine

/-- The source stream of a list (R316). -/
def streamOf (l : ListId) : Nat := if l < 192 then l else 0x4000 + (l - 192)

/-- Requests to a device that have been sent and not acknowledged. -/
def State.unacked (s : State) (g : Nat) : Nat := (s.fabric.out.filter (fun r => decide (r.dst = g) && !r.waiting)).length

/-- The congestion notice with a gap in force from a home (R340). -/
def State.spacing? (s : State) (home : Nat) : Option Congest :=
  s.fabric.congestIn.find? (fun c => decide (c.home = home) && decide (s.now < c.expiry) && decide (c.gap ≠ 0))

/-- A request to the home left now: the next one leaves at least the gap later (R340). -/
def State.spaced (s : State) (home : Nat) : State :=
  s.onFabric (fun f => { f with congestIn := f.congestIn.map (fun c => if c.home = home then { c with last := s.now } else c) })

/-- The gap to a home has not elapsed since the last request (R340). -/
def State.spacing (s : State) (home : Nat) : Bool := (s.spacing? home).any (fun c => decide (s.now < c.last + c.gap))

/-- DEV_STALL_XFER_CREDIT of a core's transfer unit (R180), MRW_STALL_CREDIT of a Marrow engine (R276). -/
def State.creditStall (s : State) (l : ListId) : State := s.bump64 (Reg.seqCounter l 13) 1

/-- A request of a stream made: numbered, and sent unless it waits for its turn (R316, R340); answers whether it waits. -/
def State.requestFrom (s : State) (stream op req : Nat) (tx : Tx) : State × Bool :=
  let g := tx.dst
  let seq := Tab.get 0 s.fabric.seqNext g
  let tx1 : Tx := { tx with seq := seq, stream := stream }
  let waits := decide (1024 ≤ s.unacked g) || s.spacing g || s.fabric.out.any (fun r => decide (r.dst = g) && r.waiting)
  let r : OutReq := ⟨g, seq, tx1, op, req, 0, s.now + us 100, waits⟩
  let s1 : State := { s with fabric := { s.fabric with
    seqNext := Tab.set 0 g ((seq + 1) % 2 ^ 32) s.fabric.seqNext
    out := s.fabric.out ++ [r] } }
  (if waits then s1 else (s1.sendTx tx1).spaced g, waits)

/-- A request of a list's op. -/
def State.request (s : State) (l : ListId) (op req : Nat) (tx : Tx) : State :=
  match s.requestFrom (streamOf l) op req tx with
  | (s1, waits) => if waits then s1.creditStall l else s1

/-- The first request to `g` that waits for its turn is sent. -/
def State.sendNext (s : State) (g : Nat) : State :=
  match s.fabric.out.find? (fun r => decide (r.dst = g) && r.waiting) with
  | none => s
  | some r =>
    let s1 : State := { s with fabric := { s.fabric with
      out := s.fabric.out.map (fun q => if q.dst = g ∧ q.seq = r.seq then { q with waiting := false, deadline := s.now + us 100 } else q) } }
    (s1.sendTx r.tx).spaced g

/-- Waiting requests sent while there is room and no notice spaces them; `n` bounds how many. -/
def State.sendWaiting (s : State) (g : Nat) : Nat → State
  | 0 => s
  | n + 1 =>
    if s.unacked g < 1024 ∧ !s.spacing g ∧ s.fabric.out.any (fun r => decide (r.dst = g) && r.waiting) then
      (s.sendNext g).sendWaiting g n
    else s

/-- Every unacknowledged request to `g` resent in sequence order with the retry flag (R320). `counted`: the resends of
an expired deadline, which R321 limits. -/
def State.resend (s : State) (g : Nat) (counted : Bool) : State :=
  let rs := s.fabric.out.filter (fun r => decide (r.dst = g) && !r.waiting)
  let s1 : State := { s with fabric := { s.fabric with
    out := s.fabric.out.map (fun r =>
      if r.dst = g ∧ !r.waiting then
        { r with resends := if counted then r.resends + 1 else r.resends, deadline := s.now + us 100 }
      else r) } }
  (rs.foldl (fun s r => s.sendTx { r.tx with retry := true }) s1).bump64 Reg.fabResent rs.length

-- launch trees (R355 to R359)

def State.setLaunch (s : State) (id : Nat) (l : Launch) : State :=
  { s with fabric := { s.fabric with launches := Tab.put id l s.fabric.launches } }

def Launch.chunks (l : Launch) : Nat := l.length / 65536

/-- A LAUNCH event (R408): cause 0 parent silent, 1 orphaned, 2 child dropped. -/
def State.launchEvent (s : State) (id g cause : Nat) : State :=
  s.postEvent (s.newEvent 0x16 (if cause = 1 then Status.orphaned else Status.targetLost) srcDevice 1
    (g + cause * 2 ^ 16 + id % 2 ^ 32 * 2 ^ 32))

/-- A launch control transaction (R341). -/
def State.launchTx (s : State) (op dst id low word : Nat) : State :=
  s.sendTx { s.mkTx 0x8 op dst (id % 2 ^ 32 * 2 ^ 32 + low) word [] with stream := 0x8000 }

/-- A node whose own command has ended and whose children are all finished sends done to its current parent; the root's command
completes with the totals, done in [31:0] and failed in [63:32] of the detail (R359, log entry 27). -/
def State.launchDoneCheck (s : State) (id : Nat) : State :=
  match Tab.find? s.fabric.launches id with
  | none => s
  | some l =>
    if l.ended && l.children.all (fun c => c ∈ l.finished) && !l.doneSent then
      let s1 := s.setLaunch id { l with doneSent := true }
      if l.rank = 0 then s1.endLongCode 0x080A Status.success (l.done % 2 ^ 32 + l.failed % 2 ^ 32 * 2 ^ 32)
      else
        match l.parent with
        | some p => s1.launchTx 9 p id (l.failed % 2 ^ 17) (l.done % 2 ^ 17)
        | none => s
    else s

/-- A node that holds every chunk checks the payload's SHA-384 and ends its own command; a root that verifies goes on to
wait for its subtree (R359). -/
def State.launchHeldCheck (s : State) (id : Nat) : State :=
  match Tab.find? s.fabric.launches id with
  | none => s
  | some l =>
    if l.held < l.chunks || l.ended then s
    else
      let good := Config.sha384 (s.rd l.dest l.length) = BitVec.ofNat 384 (ofLE l.sha.reverse)
      if good then
        let s1 := s.setLaunch id { l with ended := true, done := l.done + 1 }
        (if l.rank = 0 then s1 else s1.endLongCode 0x080A Status.success 0).launchDoneCheck id
      else
        let s1 := s.setLaunch id { l with ended := true, failed := l.failed + 1, doneSent := l.doneSent || decide (l.rank = 0) }
        (s1.endLongCode 0x080A Status.integrityFault l.dest).launchDoneCheck id

/-- A lost child is dropped: its subtree counts as one failed device (R358, R359). -/
def State.dropChild (s : State) (id g : Nat) : State :=
  match Tab.find? s.fabric.launches id with
  | none => s
  | some l =>
    if g ∈ l.children ∧ !(g ∈ l.finished) then
      ((s.setLaunch id { l with children := l.children.filter (fun c => c ≠ g), failed := l.failed + 1 }).launchEvent id g 2).launchDoneCheck id
    else s

-- lost peers (R351, R352)

def State.isLost (s : State) (g : Nat) : Bool := g ∈ s.fabric.lost

/-- The request goes to device `g`. -/
def Request.toPeer (r : Request) (g : Nat) : Bool :=
  match r.path with
  | .remote tx => tx.dst = g
  | _ => false

/-- The collective still needs the member of this rank: the root of a broadcast, a member that is to contribute to a reduction to the
root or an all-gather, and any member of an all-reduce or a barrier, whose result goes to all (R329). -/
def Coll.needs (c : Coll) (rank : Nat) : Bool :=
  if c.kind = 2 then decide (rank = c.root)
  else if c.kind = 1 ∨ c.kind = 3 then !(c.parts.any (fun p => p.1 = rank))
  else true

/-- The op waits on device `g`: a request outstanding to it, or a credit, a dequeue or a collective (R352). -/
def State.waitsOn (s : State) (o : InFlight) (g : Nat) : Bool :=
  s.fabric.out.any (fun r => decide (r.dst = g) && decide (r.op = o.id)) ||
  o.requests.any (fun r => r.toPeer g) ||
  (match o.pending with
   | .credit _ home _ _ => home = g
   | .dequeue _ (some home) _ _ _ => home = g
   | .collective grp inst =>
     (Tab.get [] s.fabric.groups grp).zipIdx.any (fun i => match Tab.find? s.fabric.peers i.1 with
       | some p => decide (p.gdn = g) &&
           s.fabric.colls.any (fun c => decide (c.group = grp) && decide (c.inst = inst) && c.needs i.2)
       | none => false)
   | _ => false)

/-- An op ended by the loss of `g`. -/
def InFlight.lostTo (o : InFlight) (g addr : Nat) : InFlight :=
  { o.failed Status.targetLost addr with
    requests := o.requests.filter (fun r => !r.toPeer g)
    pending := .done }

/-- A peer marked lost (R351, R352): cause 0 reply deadline, 1 wait deadline, 2 lost notice, 3 no route. -/
def State.markLost (s : State) (g cause : Nat) : State :=
  if s.isLost g then s
  else
    let s1 := ({ s with fabric := { s.fabric with lost := s.fabric.lost ++ [g] } }).bump Fld.lostPeers 1
    let s2 := s1.postEvent (s1.newEvent 0x14 Status.targetLost (srcPeer g) 2 (g + cause * 2 ^ 16))
    let hit := s2.cores.inflight.filter (fun o => s2.waitsOn o g)
    let s3 := hit.foldl (fun s o =>
      let addr := match s.fabric.out.find? (fun r => decide (r.dst = g) && decide (r.op = o.id)) with
        | some r => r.tx.addr
        | none => 0
      s.setOp (o.lostTo g addr)) s2
    let s4 := s3.onFabric (fun f => { f with
      out := f.out.filter (fun r => r.dst ≠ g)
      colls := f.colls.filter (fun c => !(hit.any (fun o => o.id = c.op)))
      invalWait := f.invalWait.foldl (fun t e => Tab.set [] e.1 (e.2.filter (fun h => h ≠ g)) t) [] })
    let s5 := (s4.fabric.launches.map (fun l => l.1)).foldl (fun s i => s.dropChild i g) s4
    s5.afterWrites

/-- A request made, or, where no route to the device is left, the device lost (R351). -/
def State.requestOrLose (s : State) (l : ListId) (op req : Nat) (tx : Tx) : State :=
  if (s.portTo tx.dst).isNone then (s.request l op req tx).markLost tx.dst 3 else s.request l op req tx

/-- The op number of requests that firmware makes. -/
def firmwareOp : Nat := 2 ^ 64

/-- Whether a request to a device may be made (R310, R352): the status that ends the op otherwise, `none` where it may. A
peer with no route left becomes lost (R351). -/
def State.mayRequest (s : State) (g : Nat) : Option Nat :=
  if (s.peer? g).isNone then some Status.addressFault
  else if s.isLost g then some Status.targetLost
  else none

end Sys2Proof.Machine
end

