-- ==== Sys2Proof/Machine/Slots.lean ====
section
/-! DEFINITION. The queue engines (R281 to R284): the slots of a stack, the windows of a queue, and its entries. -/
namespace Sys2Proof.Machine

def State.setQueue (s : State) (q : Nat) (x : Queue) : State := { s with queues := Tab.put q x s.queues }

/-- Home stack of a defined queue. -/
def State.qHome (s : State) (q : Nat) : Nat :=
  match s.qdef? q with
  | some d => d.home
  | none => 0

/-- Address of the entry at position x (R281). -/
def QDef.entryAddr (d : QDef) (x : Nat) : Nat := d.body + x % d.cap * 64

/-- Slots of a stack (R283). -/
def slotCap (t : Nat) : Nat := if t < 4 then 1366 else 1365

def State.slotsOf (s : State) (t : Nat) : List Nat := Tab.get [] s.slots t

/-- Open packets tracked by a stack's engine (R287). -/
def State.openPackets (s : State) (t : Nat) : Nat :=
  s.queues.foldl (fun n e => if s.qHome e.1 = t then n + e.2.packets.length else n) 0

/-- QUE_ENG_STATUS and QUE_ENG_PACKETS of a stack brought up to date (R297). -/
def State.refreshEngine (s : State) (t : Nat) : State :=
  ((s.setFld (Fld.queResident t) (s.slotsOf t).length).setFld (Fld.quePinned t)
    ((s.slotsOf t).filter (fun q => (s.qdef? q).any (fun d => d.pin))).length).setFld (Fld.queOpen t) (s.openPackets t)

/-- An entry written to the queue's body by `o` from its windows; `counted` where it comes from the tail window (R283, R297). -/
def State.spill (s : State) (o : Origin) (counted : Bool) (q x : Nat) (bs : List Byte) : State :=
  match s.qdef? q with
  | none => s
  | some d =>
    let s1 := s.write (if d.measurement then .framer else o) (d.entryAddr x) bs
    if counted then s1.bump64 (Reg.queSpill d.home) 1 else s1

/-- Every window entry of a queue written to its body by `o`: eviction and capture (R284, R367). Entries of the tail window
count. -/
def State.writeBack (s : State) (o : Origin) (q : Nat) : State :=
  let x := s.queue q
  let s1 := x.win.foldl (fun s e => s.spill o (decide (e.1 ∈ x.tail)) q e.1 e.2) s
  s1.setQueue q { x with win := [], tail := [] }

/-- The queue's positions written to its state record: P, L, C and F, 8 bytes each (log entry 14). -/
def State.saveRecord (s : State) (o : Origin) (q : Nat) : State :=
  match s.qdef? q with
  | none => s
  | some d =>
    let x := (s.queue q).pos
    s.write o d.stateAddr (toLE 8 x.p ++ toLE 8 x.l ++ toLE 8 x.c ++ toLE 8 x.f ++ List.replicate 32 0)

/-- A slot the engine may evict (R284). -/
def State.evictable (s : State) (q : Nat) : Bool :=
  let x := s.queue q
  !(s.qdef? q).any (fun d => d.pin) && x.resident && x.packets.isEmpty && x.deqs.isEmpty && !x.writeback

/-- The queue's slot taken away: windows to the body, positions to the state record. -/
def State.evict (s : State) (q : Nat) : State :=
  let t := s.qHome q
  let s1 := (s.writeBack .queue q).saveRecord .queue q
  let s2 := s1.setQueue q { s1.queue q with resident := false, head := [] }
  ({ s2 with slots := Tab.set [] t ((s2.slotsOf t).filter (fun p => p ≠ q)) s2.slots }).bump64 (Reg.queEvict t) 1

/-- The queue put last in its stack's order of use. -/
def State.touch (s : State) (q : Nat) : State :=
  let t := s.qHome q
  { s with slots := Tab.set [] t ((s.slotsOf t).filter (fun p => p ≠ q) ++ [q]) s.slots }

/-- A slot given to a queue that has none, evicting the least recently used evictable one where none is free; false
where no slot can be had (R284). -/
def State.giveSlot (s : State) (q : Nat) : State × Bool :=
  let t := s.qHome q
  if (s.slotsOf t).length < slotCap t then ((s.touch q).bump64 (Reg.queFetch t) 1, true)
  else
    match (s.slotsOf t).find? (fun p => s.evictable p) with
    | some p => (((s.evict p).touch q).bump64 (Reg.queFetch t) 1, true)
    | none => (s, false)

/-- A slot taken: its window fetch runs, and the time that an access has waited for it is counted (R284, R297). -/
def State.slotTaken (s : State) (q : Nat) : State :=
  let x := s.queue q
  let s1 := match x.slotSince with
    | some t => s.bump64 (Reg.queSlotWait (s.qHome q)) (s.now - t)
    | none => s
  s1.setQueue q { x with fetching := true, slotSince := none }

/-- An access that needs the queue's slot: nothing more where it is resident, otherwise a fetch begun or a wait for a
slot (R284). -/
def State.needSlot (s : State) (q : Nat) : State :=
  let x := s.queue q
  if x.resident then s.touch q
  else if x.fetching then s
  else
    match s.giveSlot q with
    | (s1, true) => (s1.slotTaken q).refreshEngine (s.qHome q)
    | (s1, false) => s1.setQueue q { x with slotSince := some (x.slotSince.getD s.now) }

/-- The bytes of the entry at position x. -/
def State.entryBytes (s : State) (q x : Nat) : List Byte :=
  match Tab.find? (s.queue q).win x, Tab.find? (s.queue q).head x, s.qdef? q with
  | some b, _, _ => b
  | none, some b, _ => b
  | none, none, some d => s.rdNew (d.entryAddr x) 64
  | none, none, none => []

/-- Positions the head window holds next: the next 8 entries to be read (R283). -/
def Queue.nextReads (x : Queue) : List Nat :=
  let unread := x.deqs.flatMap (fun d => ((List.range d.n).map (fun i => d.first + i)).filter (fun p => !(p ∈ d.read)))
  ((unread ++ (List.range 8).map (fun i => max x.pos.c x.pos.f + i)).filter (fun p => p < x.pos.p)).take 8

/-- The head window filled from the body with the next entries to be read that are not in a window. -/
def State.refillHead (s : State) (q : Nat) : State :=
  let x := s.queue q
  let landed (p : Nat) : Bool := decide (p < x.pos.l) || x.packets.any (fun k => k.start ≤ p && decide (p - k.start ∈ k.landed))
  let ps := x.nextReads.filter (fun p => landed p && (Tab.find? x.win p).isNone)
  s.setQueue q { x with head := ps.foldl (fun h p => Tab.put p (s.entryBytes q p) h) [] }

/-- The window fetch of a queue has come: it is resident. -/
def State.fetched (s : State) (q : Nat) : State :=
  ((s.setQueue q { s.queue q with resident := true, fetching := false }).refillHead q).refreshEngine (s.qHome q)

/-- Residency at once, for an access that does not wait; false where no slot can be had. -/
def State.residentNow (s : State) (q : Nat) : State × Bool :=
  if (s.queue q).resident then (s.touch q, true)
  else if (s.queue q).fetching then (s.fetched q, true)
  else
    match s.giveSlot q with
    | (s1, true) => (s1.fetched q, true)
    | (s1, false) => (s1, false)

end Sys2Proof.Machine
end

