-- ==== Sys2Proof/Machine/Framer.lean ====
section
/-! DEFINITION. The framer's side of the actuation queues (R61, R65 to R67, R72, R294): frames on the wire, the frame of each step,
and late frames. -/
namespace Sys2Proof.Machine

/-- A field of port p's entry of NET_CONFIG (R417). -/
def State.netField (s : State) (p off n : Nat) : Nat := fieldLE s.host.net (p * 64 + off) n

/-- The plant UDP port of Ethernet port p. -/
def State.plantPort (s : State) (p : Nat) : Nat :=
  let v := s.netField p 0x38 2
  if v = 0 then 47000 else v

def State.setStream (s : State) (id : Nat) (st : Stream) : State := { s with streams := Tab.put id st s.streams }

/-- The first entry keeps the layout of R294, for a packet of `size` entries. -/
def actForm (e : List Byte) (size : Nat) : Bool :=
  let n := fieldLE e 0 2
  decide (64 ≤ n ∧ n ≤ 8192 ∧ n % 64 = 0 ∧ size = 1 + n / 64) && fieldLE e 4 1 < 32
    && (fieldLE e 4 1 % 16 = 14 || fieldLE e 5 1 = 0) && (e.drop 6).all (fun b => b = 0)

/-- The plant frame that the framer sends (R61, R294): `late` sets flags bit 0 (R67). -/
def actBytes (id seq sched : Nat) (late : Bool) (e payload : List Byte) : List Byte :=
  toLE 2 0x5C47 ++ toLE 1 1 ++ toLE 1 2 ++ toLE 2 id ++ slice e 4 1 ++ slice e 5 1 ++ toLE 4 seq ++ slice e 0 2 ++ slice e 2 2
    ++ toLE 6 (sched / 1000000000) ++ toLE 4 (sched % 1000000000) ++ toLE 2 (if late then 1 else 0)
    ++ toLE 4 (crc32c payload).toNat ++ payload

/-- Bytes on the wire around a plant frame: preamble, Ethernet header and check, IP and UDP headers (PRESUMED, log entry
10). -/
def wireOver (ipv6 : Bool) : Nat := if ipv6 then 74 else 54

/-- Nanoseconds that a frame takes at 800 Gb/s, rounded up. -/
def wireTime (n : Nat) : Nat := (n + 99) / 100

/-- The address of Ethernet port p in the family given (R417). -/
def State.portIp (s : State) (p : Nat) (ipv6 : Bool) : Nat := if ipv6 then s.netField p 0x10 16 else s.netField p 8 4

/-- A frame leaves on port p for the address and UDP port `dst`, from the port's own address and plant UDP port (R66, R72): at its
scheduled time, or directly after the earlier frame and never before its own time (DEDUCED, log entry 136); true where it slipped. -/
def State.sendOnPort (s : State) (id p at_ : Nat) (ipv6 : Bool) (dst : Nat × Nat) (bs : List Byte) : State × Bool :=
  let e := Tab.get 0 s.host.macEnd p
  let slips := decide (e ≠ 0) && decide (at_ < e + 20)
  let t := if slips then max e at_ else at_
  (({ s with host := { s.host with macEnd := Tab.set 0 p (t + wireTime (bs.length + wireOver ipv6)) s.host.macEnd } }).send
    (.actuation id p t dst (s.portIp p ipv6, s.plantPort p) bs), slips)

/-- The first frame of a step sent (R65 to R67). The first frame of a stream has sequence number 0 (DESIGN CHOICE, log
entry 11). -/
def State.sendActuation (s : State) (id : Nat) (st : Stream) (sched : Nat) (late : Bool) (e payload : List Byte) : State :=
  let seq := match st.last with
    | some l => (l + 1) % 2 ^ 32
    | none => 0
  let bs := actBytes id seq sched late e payload
  let t := if late then max s.now sched else sched
  let (s1, slipped) := ((List.range 2).filter (fun p => bitOf st.flags p)).foldl
    (fun (a : State × Bool) p =>
      let r := a.1.sendOnPort id p t (bitOf st.flags 2) (st.ip, st.udpPort) bs
      (r.1, a.2 || r.2)) (s, false)
  let odd := late || slipped
  (s1.setStream id { st with last := some seq, c0 := st.c0 + 1, c1 := st.c1 + (if odd then 1 else 0) }).onRecord (fun r =>
    { r with actSent := r.actSent + 1, actLate := r.actLate + (if odd then 1 else 0) })

/-- F, and no other position, advances over a frame that the framer has taken (R281). -/
def State.freeFrame (s : State) (q : Nat) (k : ActFrame) : State :=
  let x := s.queue q
  let f := k.start + k.size
  s.setQueue q { x with
    pos := { x.pos with f := f }
    frames := x.frames.filter (fun g => g.start ≠ k.start)
    win := x.win.filter (fun e => decide (f ≤ e.1))
    tail := x.tail.filter (fun p => f ≤ p)
    head := x.head.filter (fun e => decide (f ≤ e.1)) }

/-- The frame lands less than 2 µs before its scheduled time `sched` (R66, R67). -/
def ActFrame.late (k : ActFrame) (sched : Nat) : Bool := decide (sched < k.time + 2000)

/-- One frame of the stream's queue taken: sent, dropped as late, or discarded as a further packet of its step or for its
form (R65, R67, R294). R294 names neither the stream's counter nor the step's frame for a packet whose first entry is malformed: it
counts as a discarded packet of the stream and is its step's one frame (DESIGN CHOICE, log entry 123). -/
def State.takeActuation (s : State) (id : Nat) (k : ActFrame) : State :=
  match Tab.find? s.streams id with
  | none => s
  | some st =>
    let q := st.queue
    let e := s.entryBytes q k.start
    let payload := (List.range (k.size - 1)).flatMap (fun i => s.entryBytes q (k.start + 1 + i))
    let sched := k.stepTime + st.offset * 10
    let st1 : Stream := { st with taken := some k.step }
    let lateDrop (s : State) : State := s.onRecord (fun r => { r with actLate := r.actLate + 1 })
    let s1 :=
      if st.taken = some k.step ∨ !actForm e k.size then lateDrop (s.setStream id { st1 with c3 := st.c3 + 1 })
      else if !k.late sched then s.sendActuation id st1 sched false e payload
      else if bitOf st.flags 3 then s.sendActuation id st1 sched true e payload
      else lateDrop (s.setStream id { st1 with c2 := st.c2 + 1 })
    s1.freeFrame q k

/-- The actuation stream that a queue feeds. -/
def State.streamOf (s : State) (q : Nat) : Option (Nat × Stream) :=
  List.find? (fun (e : Nat × Stream) => decide (e.2.type = 2) && decide (e.2.queue = q)) s.streams

/-- The oldest frame of a queue waits for nothing: it is late and its step's first, or its scheduled time has passed (R65, R67). -/
def State.due (s : State) (st : Stream) (k : ActFrame) : Bool :=
  let sched := k.stepTime + st.offset * 10
  decide (sched ≤ s.now) || (k.late sched && decide (st.taken ≠ some k.step))

/-- Frames of an actuation queue taken as long as the oldest waits for nothing, except in the job-stopped state (R161); `n` bounds how
many. -/
def State.takeDue (s : State) (q : Nat) : Nat → State
  | 0 => s
  | n + 1 =>
    match s.streamOf q, (s.queue q).frames with
    | some (id, st), k :: _ => if s.tick.stopped.isNone && s.due st k then (s.takeActuation id k).takeDue q n else s
    | _, _ => s

end Sys2Proof.Machine
end

