-- ==== Sys2Proof/Machine/Queues.lean ====
section
/-! DEFINITION. The queue engines (R285 to R297): reservations, landing with conversion, release, dequeues and frees. -/
namespace Sys2Proof.Machine

-- landing conversion (R293)

/-- Landing entry j of a packet of n producer entries: its bytes and, where it is converted, the source values of the elements
that begin in it with what their conversions counted. -/
def QDef.landBytes (d : QDef) (n : Nat) (arrived : Tab (List Byte)) (j : Nat) : List Byte × List (Num × Tally) :=
  if !d.converts then (Tab.get [] arrived j, [])
  else
    let e := d.elems n j
    let whole := ofLE ((List.range n).flatMap (fun i => padTo 64 (Tab.get [] arrived i)))
    let rd : Rounding := ⟨bitsOf d.landConv 2 0, bitOf d.landConv 3, bitOf d.landConv 4⟩
    let rs := (List.range (e.2 - e.1)).map (fun i =>
      let x := d.prod.decode (bitsOf whole ((e.1 + i) * d.prod.width + d.prod.width - 1) ((e.1 + i) * d.prod.width))
      (e.1 + i, x, convert rd d.land 127 0 x))
    let v := rs.foldl (fun v r => v + r.2.2.1 <<< ((r.1 - e.1) * d.land.width)) 0
    (toLE 64 (v >>> (j * 512 - e.1 * d.land.width)),
      (rs.filter (fun r => decide (j * 512 ≤ r.1 * d.land.width))).map (fun r => (r.2.1, r.2.2.2)))

/-- Statistics of a landing conversion: the entry of the body tile that holds position x (R293). -/
def State.landStats (s : State) (d : QDef) (x : Nat) (vs : List (Num × Tally)) : State :=
  if d.statBase = 0 ∨ vs = [] ∨ !narrowing d.prod d.land then s
  else
    let a := d.statBase + 8 * (x % d.cap * 64 / 4096)
    let st := vs.foldl (fun (t : Stat) v => t.note v.1 v.2) ⟨0, 0, 0⟩
    s.write .queue a (st.merge (s.rdNew a 8)).bytes

/-- The statistics entries of tiles whose last entry F has passed, cleared. -/
def State.clearStats (s : State) (d : QDef) (oldF newF : Nat) : State :=
  if d.statBase = 0 then s
  else
    ((List.range (newF - oldF)).filter (fun i => (oldF + i + 1) % 64 = 0)).foldl
      (fun s i => s.write .queue (d.statBase + 8 * ((oldF + i) % d.cap * 64 / 4096)) (List.replicate 8 0)) s

-- landing and release (R283, R286)

/-- The packet has reached its threshold (R286). -/
def Packet.isOpen (k : Packet) (threshold : Nat) : Bool :=
  if threshold = 0 then decide (k.landed.length = k.size)
  else (List.range (min threshold k.size)).all (fun i => i ∈ k.landed)

/-- L after following the contiguous landed prefix of open packets. -/
def advanceL (threshold : Nat) : List Packet → Nat → Nat
  | [], l => l
  | k :: r, l =>
    if k.start ≤ l ∧ l ≤ k.start + k.size ∧ k.isOpen threshold then
      let off := l - k.start
      let run := ((List.range (k.size - off)).takeWhile (fun i => (off + i) ∈ k.landed)).length
      if off + run = k.size then advanceL threshold r (l + run) else l + run
    else l

/-- Actuation frames that a packet wholly released leaves for the framer (R294). -/
def State.newFrames (s : State) (d : QDef) (ks : List Packet) : List ActFrame :=
  if d.actuation then ks.map (fun k => ⟨k.start, k.size, s.tick.stepTick, s.tick.stepTime, s.now⟩) else []

/-- Positions released, and the packets wholly released dropped (R287); the framer takes late frames at once (R67). -/
def State.release (s : State) (q : Nat) : State :=
  match s.qdef? q with
  | none => s
  | some d =>
    let x := s.queue q
    let l := advanceL d.threshold x.packets x.pos.l
    (s.setQueue q { x with
      pos := { x.pos with l := l }
      packets := x.packets.filter (fun k => decide (l < k.start + k.size))
      frames := x.frames ++ s.newFrames d (x.packets.filter (fun k => !decide (l < k.start + k.size)))
      }).refreshEngine d.home |>.takeDue q (x.frames.length + x.packets.length)

/-- An entry put in the tail window; the oldest leaves it, to the body where it lies beyond the head window (R283). The body is
written for `o`, whose landing it is: where that needs a copy, `o` waits for it (R54). -/
def State.putEntry (s : State) (o : Origin) (q pos : Nat) (bs : List Byte) : State :=
  let x := s.queue q
  let x1 : Queue := { x with win := Tab.put pos bs x.win, tail := x.tail ++ [pos] }
  if x1.tail.length ≤ 8 then s.setQueue q x1
  else
    match x1.tail with
    | [] => s.setQueue q x1
    | old :: rest =>
      if x1.pos.f + 8 ≤ old then
        let s1 := s.spill o true q old (Tab.get [] x1.win old)
        s1.setQueue q { x1 with tail := rest, win := Tab.del old x1.win }
      else s.setQueue q { x1 with tail := rest }

/-- The packet that holds a position. -/
def Queue.packetOf (x : Queue) (pos : Nat) : Option Packet :=
  x.packets.find? (fun k => k.start ≤ pos && decide (pos < k.start + k.size))

/-- A packet of the queue replaced. -/
def Queue.setPacket (x : Queue) (k : Packet) : Queue :=
  { x with packets := x.packets.map (fun p => if p.start = k.start then k else p) }

/-- Counters of a landing conversion added to the producing op (R293). -/
def State.countLanding (s : State) (o : Origin) (vs : List (Num × Tally)) : State :=
  match o with
  | .op id =>
    match s.op? id with
    | some op => s.setOp { op with cnt := op.cnt.addAll (vs.map (fun v => v.2)) }
    | none => s
  | _ => s

/-- The entry at `pos` lands (R286, R293), where every producer entry that contributes to it has arrived; `o` brought the last
of them. -/
def State.landAt (s : State) (o : Origin) (q pos : Nat) : State :=
  match s.qdef? q, (s.queue q).packetOf pos with
  | some d, some k =>
    let j := pos - k.start
    if (s.queue q).writeback ∨ j ∈ k.landed ∨ !(d.contributes k.prod j).all (fun i => (Tab.find? k.arrived i).isSome) then s
    else
      let (bs, vs) := d.landBytes k.prod k.arrived j
      let s1 := (s.landStats d pos vs).countLanding k.origin vs
      let s2 := s1.setQueue q ((s1.queue q).setPacket { k with landed := k.landed ++ [j] })
      s2.putEntry o q pos bs
  | _, _ => s

/-- The time that a reservation lacks room, brought up to date. -/
def Reservation.noted (w : Reservation) (lacks : Bool) (now : Nat) : Reservation :=
  match w.roomSince, lacks with
  | none, true => { w with roomSince := some now }
  | some t, false => { w with roomSince := none, room := w.room + (now - t) }
  | _, _ => w

/-- Which of a queue's reservations lack room noted (R297). -/
def State.noteRoom (s : State) (q : Nat) : State :=
  let x := s.queue q
  if x.waiting = [] then s
  else s.setQueue q { x with waiting := x.waiting.map (fun w => w.noted (x.resident && decide (s.qRoom q < w.size)) s.now) }

/-- Ns that a reservation has lacked room. -/
def Reservation.roomWait (w : Reservation) (now : Nat) : Nat := (w.noted false now).room

-- dequeues (R292)

/-- The dequeue's entry at `pos` delivered to its reader. -/
def State.deliver (s : State) (d : Dequeue) (pos : Nat) (bs : List Byte) : State :=
  match d.origin with
  | .op id =>
    match s.op? id with
    | some o =>
      match o.pending with
      | .dequeue q h dst n got =>
        let a := dst + (pos - d.first) * 64
        let s1 := if rangeOf a = .host then
            s.send (.hostWrite ((s.reg Reg.hostWinBase).toNat + (a - hostBase)) bs)
          else s.write (.op id) a bs
        let got1 := got ++ [pos - d.first]
        s1.setOp { o with pending := if got1.length = n then .sealing dst (n * 64) else .dequeue q h dst n got1 }
      | _ => s
    | none => s
  | .remote src seq stream =>
    let tx : Tx := { s.mkTx 6 0 0 0 0 [] with src := src, seq := seq, stream := stream }
    s.reply tx (pos - d.first) bs false
  | _ => s

/-- The body tile of an entry that lies in no window and has a line that the controller cannot correct (R223). -/
def State.badEntry (s : State) (q pos : Nat) : Option Nat :=
  match s.qdef? q with
  | some d =>
    if (Tab.find? (s.queue q).win pos).isNone && s.memory.bad.any (fun l => l.1 = d.entryAddr pos / 64) then
      some (d.entryAddr pos / 4096 * 4096)
    else none
  | none => none

/-- A dequeue that meets such a line ends with INTEGRITY_FAULT, which names the tile; its claim is dropped (R223, R228; log
entry 114). -/
def State.failDeq (s : State) (q : Nat) (d : Dequeue) (tile : Nat) : State :=
  let s0 := s.countBad [tile / 4096]
  let s1 := s0.setQueue q { s0.queue q with deqs := (s0.queue q).deqs.filter (fun e => e.first ≠ d.first) }
  match d.origin with
  | .op id =>
    match s1.op? id with
    | some o => s1.setOp { o.failed Status.integrityFault tile with pending := .done }
    | none => s1
  | .remote src seq stream =>
    (s1.mark src seq).refuse { s1.mkTx 6 0 0 0 0 [] with src := src, seq := seq, stream := stream } Status.integrityFault
  | _ => s1

/-- Entries of one dequeue that are released and in a window, read in order. -/
def State.serveDeq (s : State) (q : Nat) (first : Nat) (ps : List Nat) : State :=
  ps.foldl (fun s p =>
    let x := s.queue q
    match x.deqs.find? (fun d => d.first = first) with
    | none => s
    | some d =>
      if p ∈ d.read ∨ x.pos.l ≤ p ∨ !x.resident ∨ ((Tab.find? x.win p).isNone ∧ (Tab.find? x.head p).isNone) then s
      else if (s.badEntry q p).isSome then s.failDeq q d ((s.badEntry q p).getD 0)
      else
        let s1 := s.deliver d p (s.entryBytes q p)
        let x1 := s1.queue q
        s1.setQueue q { x1 with
          deqs := x1.deqs.map (fun e => if e.first = first then { e with read := e.read ++ [p] } else e)
          head := Tab.del p x1.head }) s

/-- F advanced over the dequeues at the front that have completed (R281, R292, R320); `n` bounds how many. The windows of a measurement queue
keep what the running step freed: a rerun reads it again (R295, R296). -/
def State.freeDone (s : State) (q : Nat) : Nat → State
  | 0 => s
  | n + 1 =>
    let x := s.queue q
    match x.deqs, s.qdef? q with
    | d :: rest, some df =>
      if d.read.length = d.n then
        let f := d.first + d.n
        let g := if df.measurement then min f x.latF else f
        let s1 : State := match d.origin with
          | .remote src seq _ =>
            State.mark { s with fabric := { s.fabric with deqKept := s.fabric.deqKept ++
              [(src, seq, (List.range d.n).map (fun i => s.entryBytes q (d.first + i)))] } } src seq
          | _ => s
        let s2 := (s1.setQueue q { x with
          pos := { x.pos with f := f }
          deqs := rest
          win := x.win.filter (fun e => decide (g ≤ e.1))
          tail := x.tail.filter (fun p => g ≤ p)
          head := x.head.filter (fun e => decide (f ≤ e.1)) }).clearStats df x.pos.f f
        s2.freeDone q n
      else s
    | _, _ => s

/-- Every outstanding dequeue of the queue served as far as it goes, then the frees. -/
def State.serveDeqs (s : State) (q : Nat) : State :=
  if (s.queue q).writeback then s
  else
  let s1 := (s.queue q).deqs.foldl
    (fun s d => s.serveDeq q d.first ((List.range d.n).map (fun i => d.first + i))) s
  ((s1.freeDone q (s1.queue q).deqs.length).noteRoom q).settle

/-- Some entry that op `id` enqueues has not landed yet, or still waits for its reservation. -/
def State.enqueueOpen (s : State) (id : Nat) : Bool :=
  s.queues.any (fun e =>
    e.2.waiting.any (fun w => w.origin = .op id) ||
    e.2.packets.any (fun k => k.origin = .op id && decide (k.landed.length < k.size)))

/-- An enqueue op whose every entry has landed is done (R288). -/
def State.enqueueCheck (s : State) (o : Origin) : State :=
  match o with
  | .op id =>
    match s.op? id with
    | some op =>
      if op.pending = .enqueue ∧ !s.enqueueOpen id then s.putOp { op with pending := .done } else s
    | none => s
  | _ => s

/-- After landings: release, dequeues that wait for the released entries, the producer's end, and the acknowledgements of the
entries of peers (R288). -/
def State.afterLanding (s : State) (q : Nat) (o : Origin) : State :=
  (((s.release q).serveDeqs q).enqueueCheck o).finishServes

/-- Every entry of the packet that starts at `start` lands. -/
def State.landAll (s : State) (q start size : Nat) (o : Origin) : State :=
  ((List.range size).foldl (fun s i => s.landAt o q (start + i)) s).afterLanding q o

-- reservations (R285, R287, R290)

/-- The reservation is granted: the packet takes its positions. -/
def State.reserve (s : State) (q : Nat) (w : Reservation) : State :=
  let x := s.queue q
  let t := s.qHome q
  let k : Packet := ⟨x.pos.p, w.size, w.prod, (w.entries.zipIdx.map (fun e => (e.2, e.1))), [], w.origin⟩
  let s1 := (s.setQueue q { x with pos := { x.pos with p := x.pos.p + w.size }, packets := x.packets ++ [k] }).refreshEngine t
  match w.origin with
  | .remote src seq stream =>
    let tx : Tx := { s1.mkTx 4 0 0 q 0 [] with src := src, seq := seq, stream := stream }
    ((({ s1 with fabric := { s1.fabric with credits := s1.fabric.credits ++ [Credit.mk q src seq k.start w.size] } }).bump64
      (Reg.queCreditWait t) (s.now - w.since)).bump64 (Reg.queRoomWait t) (w.roomWait s.now)).mark src seq |>.reply tx w.size [] false
  | .host => (s1.bump64 (Reg.queRoomWait t) (w.roomWait s.now)).landAll q k.start w.size .host
  | _ => s1.bump64 (Reg.queRoomWait t) (w.roomWait s.now)

/-- The conditions of a grant: a slot, a free tracker and room (R284, R285, R287). -/
def State.canReserve (s : State) (q : Nat) (size : Nat) : Bool :=
  (s.queue q).resident && decide (s.openPackets (s.qHome q) < 2048) && decide (size ≤ s.qRoom q) && !(s.queue q).writeback

/-- The reservation can be granted: one of the host not before the host's earlier BAR2 writes have been performed (R394). -/
def State.mayGrant (s : State) (q : Nat) (w : Reservation) : Bool :=
  s.canReserve q w.size && !(decide (w.origin = .host) && s.hasWaits .host)

/-- Waiting reservations granted in the order in which they came; `n` bounds how many. -/
def State.grantWaiting (s : State) (q : Nat) : Nat → State
  | 0 => s
  | n + 1 =>
    match (s.queue q).waiting with
    | [] => s
    | w :: rest =>
      if s.mayGrant q w then
        ((s.setQueue q { s.queue q with waiting := rest }).reserve q w).grantWaiting q n
      else s

/-- A reservation comes to the home: behind those that wait, and granted at once where it can be. -/
def State.ask (s : State) (q : Nat) (w : Reservation) : State :=
  let s1 := s.needSlot q
  let s2 := s1.setQueue q { s1.queue q with waiting := (s1.queue q).waiting ++ [w] }
  let s3 := (s2.grantWaiting q (s2.queue q).waiting.length).noteRoom q
  match w.origin with
  | .op id =>
    if (s3.queue q).waiting.any (fun v => v.origin = w.origin) then
      (match s3.op? id with
       | some o => s3.creditStall o.list
       | none => s3)
    else s3
  | _ => s3

/-- Reservations of the queue granted while they can be. One that waits while the queue holds no slot asks for it (R284, R287). -/
def State.grants (s : State) (q : Nat) : State :=
  if (s.queue q).waiting.isEmpty then s
  else
    let s1 := s.needSlot q
    (s1.grantWaiting q (s1.queue q).waiting.length).noteRoom q

/-- The agent word of a list of this device, and of a list of another device (R279). -/
def agentWord (l : ListId) : Nat := if l < 192 then l * 2 ^ 21 else 2 ^ 29 + (l - 192) * 2 ^ 21
def remoteAgentWord (g stream : Nat) : Nat :=
  2 ^ 30 + (if stream / 0x4000 = 1 then 2 ^ 29 else 0) + stream % 256 * 2 ^ 21 + g

end Sys2Proof.Machine
end

