-- ==== Sys2Proof/Machine/Xfer.lean ====
section
/-! DEFINITION. The transfer unit (R172 to R175): where a transfer reads and writes, its requests and their tags, copies
with conversion, fills, enqueues, dequeues and atomics. An op's effect on this device's memory is made when its data is
there; its requests then complete one by one. -/
namespace Sys2Proof.Machine

/-- One side of a transfer: a local address, or a global address of another device. -/
inductive Place where
  | here (a : Nat)
  | peer (g a : Nat)
  deriving DecidableEq, Repr

/-- A global address of this device is served locally (R310). -/
def State.resolve (s : State) (isGlobal : Bool) (a : Nat) : Place :=
  if isGlobal then (if a / 2 ^ 48 = s.gdn then .here (a % 2 ^ 48) else .peer (a / 2 ^ 48) a) else .here a

/-- An address displaced by c × idx_step (R168). -/
def displaced (a c : Nat) (step : Int) : Nat := patternOf 64 ((a : Int) + (c : Int) * step)

/-- The bytes of an op's descriptor with its extension. -/
def State.xferBytes (s : State) (o : InFlight) : List Byte := s.rd (coreStore o.list + o.record.desc) 128

/-- The descriptor of an op with its addresses displaced; a dequeue's source is not displaced (R168). -/
def State.xferOp (s : State) (o : InFlight) : XferOp :=
  let d := XferOp.of (s.xferBytes o)
  if !o.record.idxEn then d
  else { d with
    src := if d.kind = 3 then d.src else displaced d.src o.idx d.idxStep
    dst := displaced d.dst o.idx d.idxStep }

/-- Requests of a range: at most 512 bytes, none crossing a 4 KiB boundary (R174). `fuel` bounds their number. -/
def splitReq : Nat → Nat → Nat → List (Nat × Nat)
  | 0, _, _ => []
  | f + 1, a, n =>
    if n = 0 then []
    else
      let k := min n (min 512 (4096 - a % 4096))
      (a, k) :: splitReq f (a + k) (n - k)

/-- Rows of a transfer: source and destination address. -/
def XferOp.rowAddrs (d : XferOp) : List (Nat × Nat) :=
  (List.range (if d.kind = 1 then d.rows else 1)).map (fun (i : Nat) =>
    (patternOf 64 ((d.src : Int) + (i : Int) * d.srcStride), patternOf 64 ((d.dst : Int) + (i : Int) * d.dstStride)))

/-- Elements in a row, and the bytes of a destination row (R79). -/
def XferOp.rowElems (d : XferOp) : Nat := d.rowBytes * 8 / d.ctlS.width
def XferOp.converts (d : XferOp) : Bool := decide (d.kind < 2) && !d.ctlS.same d.ctlD
def XferOp.dstRow (d : XferOp) : Nat :=
  if d.converts then (d.rowElems * d.ctlD.width + 7) / 8 else d.rowBytes
/-- Bytes read from each source row. -/
def XferOp.srcRow (d : XferOp) : Nat := if d.kind = 5 then 8 else d.rowBytes

/-- The first address of a range that the agent may not reach. -/
def State.faultIn (s : State) (g : Agent) (wr : Bool) (a n : Nat) : Option Nat :=
  if s.mayReach g wr a n then none
  else ((splitReq n a n).find? (fun r => !s.mayReach g wr r.1 r.2)).bind (fun r =>
    ((List.range r.2).find? (fun i => !s.mayReach g wr (r.1 + i) 1)).map (fun i => r.1 + i))

/-- The host window can be reached: the link up, Bus Master Enable set (R396). -/
def State.hostOpen (s : State) : Bool := s.host.linkUp && s.host.busMaster

/-- The fault of an access to one row's source or destination, as status and address. -/
def State.sideFault (s : State) (l : ListId) (wr isGlobal : Bool) (a n : Nat) : Option (Nat × Nat) :=
  match s.resolve isGlobal a with
  | .peer g b => (s.mayRequest g).map (fun st => (st, b))
  | .here b =>
    if rangeOf b = .internal ∧ !wr ∧ (b % 4 ≠ 0 ∨ n % 4 ≠ 0) then some (Status.addressFault, b)
    else if rangeOf b = .host ∧ !s.hostOpen then some (Status.addressFault, b)
    else (s.faultIn (.coreXfer l) wr b n).map (fun x => (Status.addressFault, x))

/-- The first fault of a transfer's accesses, row by row; a destination in producer space is checked by the enqueue. -/
def State.xferFault (s : State) (l : ListId) (d : XferOp) : Option (Nat × Nat) :=
  d.rowAddrs.findSome? (fun r =>
    match s.sideFault l false d.srcGlobal r.1 d.srcRow with
    | some f => some f
    | none =>
      if rangeOf (if d.dstGlobal then r.2 % 2 ^ 48 else r.2) = .producer then none
      else s.sideFault l true d.dstGlobal r.2 d.dstRow)

-- requests

def mkReq (num : Nat) (path : ReqPath) (addr len : Nat) (data : List Byte) : Request := ⟨num, path, addr, len, data, false⟩

/-- Requests numbered in order. -/
def numbered (rs : List Request) : List Request := rs.zipIdx.map (fun p => { p.1 with num := p.2 })

/-- A request transaction of an op (R315): the priority class travels with it (R306). -/
def State.opTx (s : State) (o : InFlight) (type dst addr word len : Nat) (data : List Byte) : Tx :=
  { s.mkTx type 0 dst addr word data with latCrit := o.record.prio = 1, len := len }

/-- A read may fill the remote-line cache (R324). -/
def State.fillable (s : State) (o : InFlight) (g a len : Nat) : Bool :=
  decide (o.record.prio = 1) && decide (g / 8 = s.gdn / 8) && decide (rangeOf (a % 2 ^ 48) = .hbm) && decide (len ≤ 256)

/-- Read requests of a range of a remote device or of the host window. -/
def State.readReqs (s : State) (o : InFlight) (p : Place) (n : Nat) : List Request :=
  match p with
  | .here a => (splitReq n a n).map (fun r =>
      mkReq 0 (if rangeOf a = .host then .hostRead else .memory) r.1 r.2 [])
  | .peer g a => (splitReq n a n).map (fun r =>
      mkReq 0 (.remote { s.opTx o 1 g r.1 0 r.2 [] with fillReq := s.fillable o g r.1 r.2 }) r.1 r.2 [])

/-- Write requests of bytes to a remote device or to the host window. -/
def State.writeReqs (s : State) (o : InFlight) (p : Place) (bs : List Byte) : List Request :=
  match p with
  | .here a => (splitReq bs.length a bs.length).map (fun r => mkReq 0 .hostWrite r.1 r.2 (slice bs (r.1 - a) r.2))
  | .peer g a => (splitReq bs.length a bs.length).map (fun r =>
      mkReq 0 (.remote (s.opTx o 2 g r.1 0 r.2 (slice bs (r.1 - a) r.2))) r.1 r.2 [])

/-- An item put before the first with a greater key. -/
def insertBy {α : Type} (key : α → Nat) (x : α) : List α → List α
  | [] => [x]
  | y :: r => if key x < key y then x :: y :: r else y :: insertBy key x r

/-- A list in ascending order of a key; equal keys keep their order. -/
def sortBy {α : Type} (key : α → Nat) (xs : List α) : List α := xs.foldl (fun acc x => insertBy key x acc) []

-- data at the destination

/-- What a copy writes: converted elements, or the rows as they are. -/
def State.xferConv (s : State) (o : InFlight) (d : XferOp) (dsts : List Nat) (bytes : List Byte) : ConvOut :=
  if d.converts then
    let k := d.rowElems
    let v := ofLE bytes
    let es := dsts.zipIdx.flatMap (fun r => (List.range k).map (fun j =>
      let i := r.2 * k + j
      let raw := bitsOf v (r.2 * d.rowBytes * 8 + j * d.ctlS.width + d.ctlS.width - 1) (r.2 * d.rowBytes * 8 + j * d.ctlS.width)
      let x := (d.ctlS.decode raw).scaled (s.scaleAt d.ctlS d.scaleAddr (blockOf d.ctlS k i))
      OutElem.mk (r.1 * 8 + j * d.ctlD.width) (blockOf d.ctlD k i) (some x)))
    s.convertOut o.record.rounding d.ctlS d.ctlD d.scaleAddr o.record.tensorId false es
  else
    ⟨joinRuns (sortRuns (dsts.zipIdx.map (fun r => ⟨r.1 * 8, d.rowBytes * 8, ofLE (slice bytes (r.2 * d.rowBytes) d.rowBytes)⟩))),
      [], [], [], [], []⟩

/-- The tag of a tile, in place or with the waiting write that will give it. -/
def State.retag (s : State) (t : Nat) (g : Tag) : State :=
  if s.memory.waits.any (fun w => decide (w.addr = t * 4096) && decide (w.data.length = 4096)) then
    { s with memory := { s.memory with waits := s.memory.waits.map (fun w =>
        if w.addr = t * 4096 ∧ w.data.length = 4096 then { w with tag := some g } else w) } }
  else s.setTag t g

/-- CRCs of the sealed tiles that a copy without conversion takes whole, by destination tile (R174). `crcs` gives what
came with remote data. -/
def State.carried (s : State) (d : XferOp) (src : Place) (crcAt : Nat → Option Word32) : List (Nat × Word32) :=
  if d.converts ∨ 2 ≤ d.kind then []
  else
    d.rowAddrs.flatMap (fun r =>
      let dst := r.2 % 2 ^ 48
      if (r.1 % 4096 ≠ dst % 4096) then []
      else (wholeTiles dst d.rowBytes).filterMap (fun t =>
        let sa := r.1 + (t * 4096 - dst)
        match src with
        | .here _ => if rangeOf sa ≠ .host ∧ (s.tag sa).isSealed then some (t, (s.tag sa).crc) else none
        | .peer _ _ => (crcAt sa).map (fun c => (t, c))))

/-- The queue of a producer slot address. -/
def slotQueue (a : Nat) : Nat := (a - producerBase) / 64

/-- The op holds a credit on queue q of device g: asked for, or with entries not yet acknowledged (R290). -/
def InFlight.holdsCredit (o : InFlight) (g q : Nat) : Bool :=
  (match o.pending with
   | .credit q' h _ true => q' = q && h = g
   | _ => false) ||
  o.requests.any (fun r => match r.path with
    | .remote tx => decide (tx.type = 5) && decide (tx.dst = g) && decide (tx.addr % 2 ^ 20 = q)
    | _ => false)

/-- Credits that this device's ops hold on a queue. -/
def State.creditsOut (s : State) (g q : Nat) : Nat := (s.cores.inflight.filter (fun o => o.holdsCredit g q)).length

/-- Entries enqueued by an op: to a local queue a reservation, to a remote one a credit (R288 to R290). -/
def State.enqueueOp (s : State) (o : InFlight) (isGlobal : Bool) (slot : Nat) (bytes : List Byte) : State × InFlight :=
  let n := bytes.length / 64
  let entries := chunksOf 64 n bytes
  match s.resolve isGlobal slot with
  | .here a =>
    let bad := (s, o.failed Status.addressFault a)
    if rangeOf a ≠ .producer ∨ a % 64 ≠ 0 ∨ bytes.length % 64 ≠ 0 then bad
    else
      match s.qdef? (slotQueue a) with
      | none => bad
      | some d =>
        match d.landing? n with
        | none => bad
        | some m =>
          if d.producer ≠ agentWord o.list then bad
          else
            let o1 : InFlight := { o with pending := .enqueue }
            ((s.setOp o1).ask (slotQueue a) (.of m n entries (.op o.id) s.now), o1)
  | .peer g a =>
    let b := a % 2 ^ 48
    if rangeOf b ≠ .producer ∨ b % 64 ≠ 0 ∨ bytes.length % 64 ≠ 0 ∨ n = 0 ∨ 256 < n then (s, o.failed Status.addressFault a)
    else
      match s.mayRequest g with
      | some st => (s, o.failed st a)
      | none =>
        let q := slotQueue b
        if s.creditsOut g q < 4 then
          (s, { o with
            pending := .credit q g entries true
            requests := [mkReq 0 (.remote (s.opTx o 4 g q n 0 [])) a 0 []] })
        else (s.creditStall o.list, { o with pending := .credit q g entries false })

/-- `n` bytes from `a` on, where one run holds them all. -/
def runsAt (ps : List BitRun) (a n : Nat) : Option (List Byte) :=
  ((ps.filter (fun r => decide (r.bit ≤ a * 8 ∧ a * 8 + n * 8 ≤ r.bit + r.width))).getLast?).map
    (fun r => toLE n (r.val >>> (a * 8 - r.bit)))

/-- The write requests of a transfer's rows, in ascending source order (R174). -/
def State.rowReqs (s : State) (o : InFlight) (d : XferOp) (place : Nat → Place) (runs : List BitRun) : List Request :=
  let n := if d.converts then d.rowElems * d.ctlD.width / 8 else d.rowBytes
  (sortBy (fun r => r.1) d.rowAddrs).flatMap (fun r =>
    match place r.2 with
    | .here a => s.writeReqs o (.here a) ((runsAt runs a n).getD [])
    | .peer g a => s.writeReqs o (.peer g a) ((runsAt runs a n).getD []))

/-- The tile of which a write request brings the last bytes that the transfer has for it (R315). -/
def endsTile (runs : List BitRun) (r : Request) (later : List Request) : Option Nat :=
  let t := (r.addr + r.len) / 4096 - 1
  if (r.addr + r.len) % 4096 = 0 ∧ r.len ≠ 0 ∧ wholeTile runs t = true ∧
      later.all (fun q => q.addr / 4096 ≠ t) = true then some t
  else none

/-- The requests, each whole sealed tile's CRC carried by the one with its last bytes (R315). -/
def withCrcs (runs : List BitRun) (crc : Nat → Option Word32) : List Request → List Request
  | [] => []
  | r :: rest =>
    (match r.path, (endsTile runs r rest).bind crc with
     | .remote tx, some w => { r with path := .remote { tx with tileCrc := true, word := w.toNat } }
     | _, _ => r) :: withCrcs runs crc rest

/-- The request carries a tile's CRC. -/
def Request.carriesTile (r : Request) (t : Nat) : Bool :=
  match r.path with
  | .remote tx => tx.tileCrc && decide ((r.addr + r.len) / 4096 - 1 = t)
  | _ => false

/-- What a transfer leaves on this device beside its data where that goes elsewhere: scales computed in passing (R79, R80),
statistics (R95, R96), counters and overflowed blocks (R94, R189). -/
def State.writeAside (s : State) (o : InFlight) (d : XferOp) (c : ConvOut) : State × InFlight :=
  s.writeOut o { c with runs := [] } d.ctlD 0 d.statBase [] (c.covers.filter (wholeTile c.runs))

/-- A transfer's data sent to another device: tiles that its policy seals, or that it copies whole and sealed, carry their
CRC (R169, R226, R315); any other tile is left unsealed there. -/
def State.sendData (s : State) (o : InFlight) (d : XferOp) (c : ConvOut) (crcAt : Nat → Option Word32) : State × InFlight :=
  let cs := s.carried d (s.resolve d.srcGlobal d.src) crcAt
  let crc (t : Nat) : Option Word32 :=
    match cs.find? (fun e => decide (e.1 = t % 2 ^ 36)) with
    | some e => some e.2
    | none => if o.record.ckPolicy = 0 then (runsAt c.runs (t * 4096) 4096).map crc32c else none
  let reqs := withCrcs c.runs crc (s.rowReqs o d (s.resolve d.dstGlobal) c.runs)
  let (s1, o1) := s.writeAside o d c
  (s1, { o1 with requests := numbered reqs }.leaves ((runTiles c.runs).any (fun t => !(reqs.any (fun r => r.carriesTile t)))))

/-- Every tile was sealed after all: flag bit 5 as it was before. -/
def InFlight.notLeft (o before : InFlight) : InFlight :=
  if bitOf o.flags 5 && !bitOf before.flags 5 then { o with flags := o.flags - 32 } else o

/-- The data of a transfer has been read: it is written where it goes. `crcAt` gives the CRCs that came with it. -/
def State.deliverData (s : State) (o : InFlight) (d : XferOp) (bytes : List Byte) (crcAt : Nat → Option Word32) :
    State × InFlight :=
  let o0 : InFlight := { o with pending := .done }
  if d.kind = 2 then s.enqueueOp o0 d.dstGlobal d.dst bytes
  else
    let at_ (a : Nat) : Nat := match s.resolve d.dstGlobal a with
      | .here b => b
      | .peer _ b => b
    let bytes := if d.kind = 5 then
        (List.range d.rowBytes).map (fun i => bytes.getD (i % 8) 0) else bytes
    let c := s.xferConv o0 d (d.rowAddrs.map (fun r => at_ r.2)) bytes
    if rangeOf (if d.dstGlobal then d.dst % 2 ^ 48 else d.dst) = .producer then
      let out := c.runs.flatMap (fun r => toLE (r.width / 8) r.val)
      if out.length = 64 then
        let (s1, o1) := s.writeAside o0 d c
        s1.enqueueOp o1 d.dstGlobal d.dst out
      else (s, o0.failed Status.addressFault d.dst)
    else
      match s.resolve d.dstGlobal d.dst with
      | .here a =>
        if rangeOf a = .host then
          let (s1, o1) := s.writeAside o0 d c
          (s1, { o1 with requests := numbered (s.rowReqs o0 d (fun x => .here (at_ x)) c.runs) })
        else
          let (s1, o1) := s.writeOut o0 c d.ctlD (a * 8) d.statBase [] []
          let cs := s.carried d (s.resolve d.srcGlobal d.src) crcAt
          (cs.foldl
            (fun t e => t.retag e.1 ⟨e.2, true, true, o.list, o.index, BitVec.ofNat 32 (s.stamp o).2.2⟩) s1,
            if (runTiles c.runs).all (fun t => cs.any (fun e => e.1 = t)) then o1.notLeft o0 else o1)
      | .peer _ _ => s.sendData o0 d c crcAt

/-- A copy, strided copy, fill or enqueue without verification: faults first, then local data at once, remote and host
data by requests, issued in ascending source order (R174). -/
def xferMove (s : State) (o : InFlight) (d : XferOp) : State × InFlight :=
  match s.xferFault o.list d with
  | some f => (s, o.failed f.1 f.2)
  | none =>
    let reqs := sortBy (fun r => r.addr)
      (numbered (d.rowAddrs.flatMap (fun r => s.readReqs o (s.resolve d.srcGlobal r.1) d.srcRow)))
    if reqs.all (fun r => r.path = .memory) then
      let bytes := d.rowAddrs.flatMap (fun r => match s.resolve d.srcGlobal r.1 with
        | .here a => s.readLocal a d.srcRow
        | .peer _ _ => [])
      let (s1, o1) := s.deliverData o d bytes (fun _ => none)
      (s1, if o1.requests.isEmpty && o1.pending = .done && o1.status = 0 then { o1 with requests := reqs } else o1)
    else (s, { o with requests := reqs, pending := .transfer (s.xferBytes o) d.src d.dst })

-- dequeue (R172, R289, R292)

/-- A dequeue: its destination first, then the claim. -/
def xferDequeue (s : State) (o : InFlight) (d : XferOp) : State × InFlight :=
  let n := d.rowBytes / 64
  let dst := s.resolve d.dstGlobal d.dst
  let q := d.src % 2 ^ 20
  match dst with
  | .peer _ b => (s, o.failed Status.addressFault b)
  | .here a =>
    if rangeOf a = .producer then (s, o.failed Status.addressFault a)
    else
      match s.sideFault o.list true false a d.rowBytes with
      | some f => (s, o.failed f.1 f.2)
      | none =>
        match s.resolve d.srcGlobal d.src with
        | .peer g _ =>
          match s.mayRequest g with
          | some st => (s, o.failed st d.src)
          | none =>
            (s, { o with
              pending := .dequeue q (some g) a n []
              requests := [mkReq 0 (.remote (s.opTx o 6 g q n 0 [])) d.src 0 []] })
        | .here _ =>
          if (s.qdef? q).any (fun f => f.consumer = agentWord o.list) then
            let o1 : InFlight := { o with pending := .dequeue q none a n [] }
            let s1 := (s.setOp o1).needSlot q
            let x := s1.queue q
            let s2 := s1.setQueue q { x with
              pos := { x.pos with c := x.pos.c + n }
              deqs := x.deqs ++ [⟨x.pos.c, n, [], .op o.id⟩] }
            let s3 := (s2.refillHead q).serveDeqs q
            (s3, (s3.op? o.id).getD o1)
          else (s, o.failed Status.addressFault (producerBase + q * 64))

-- atomics (R172, R197 to R199)

/-- A float add, which repro orders by rank (R197, R198). -/
def ranksUnder (s : State) (opByte : Nat) : Bool := decide (atomicOp opByte = 8) && s.fld Fld.repro = 1

/-- What becomes of a ranked atomic that arrives at its home. -/
inductive Ranked where
  | applied (old : Nat) (t : Tally)
  | waits
  | duplicate
  deriving DecidableEq, Repr

/-- A ranked float add arrives (R198, R199): applied on its turn, kept until then, refused where its rank has been. -/
def State.rankArrive (s : State) (w : RankWait) : State × Ranked :=
  let next := Tab.get 0 s.fabric.rankNext w.addr
  if w.rank < next ∨ s.fabric.rankWait.any (fun v => decide (v.addr = w.addr) && decide (v.rank = w.rank)) then (s, .duplicate)
  else if w.rank = next then
    let (old, s1) := s.atomic w.origin w.opByte w.addr w.operand 0
    ({ s1 with fabric := { s1.fabric with rankNext := Tab.set 0 w.addr (next + 1) s1.fabric.rankNext } },
      .applied old (s.atomicTally w.origin w.opByte w.addr w.operand))
  else ({ s with fabric := { s.fabric with rankWait := s.fabric.rankWait ++ [w] } }, .waits)

/-- An atomic transfer (R172). It writes parts of tiles, which stay unsealed (R169, R176). -/
def xferAtomic (s : State) (o : InFlight) (d : XferOp) : State × InFlight :=
  let w := atomicWidth d.atomic
  if d.dst % w ≠ 0 then (s, o.failed Status.addressFault d.dst)
  else
    match s.resolve d.srcGlobal d.src with
    | .peer _ a => (s, o.failed Status.addressFault a)
    | .here a =>
      if a % 8 ≠ 0 ∨ a < coreStore o.list ∨ coreStore o.list + storeSize < a + 24 then (s, o.failed Status.addressFault a)
      else
        let x := s.rdLE a 8
        let cmp := s.rdLE (a + 8) 8
        let ranked := ranksUnder s d.atomic
        match s.resolve d.dstGlobal d.dst with
        | .here t =>
          if rangeOf t ≠ .hbm ∨ !s.mayReach (.coreXfer o.list) true t w then (s, o.failed Status.addressFault t)
          else if ranked then
            let (s1, r) := s.rankArrive ⟨t, cmp % 2 ^ 32, .op o.id, x % 2 ^ (8 * w), d.atomic, a + 16, s.now⟩
            match r with
            | .applied old c =>
              (s1.write (.op o.id) (a + 16) (toLE w old), { o with requests := [mkReq 0 .memory t w []], cnt := o.cnt.count c }.drawn.leaves true)
            | .waits => (s1, { o with requests := [mkReq 0 .memory t w []] }.leaves true)
            | .duplicate => (s1, o.failed Status.addressFault t)
          else
            let (old, s1) := s.atomic (.op o.id) d.atomic t x cmp
            (s1.write (.op o.id) (a + 16) (toLE w old), { o with
              requests := [mkReq 0 .memory t w []]
              cnt := o.cnt.count (s.atomicTally (.op o.id) d.atomic t x) }.drawn.leaves true)
        | .peer g t =>
          match s.mayRequest g with
          | some st => (s, o.failed st t)
          | none =>
            let tx := { s.opTx o 3 g t d.atomic 16 (toLE 8 x ++ toLE 8 cmp) with ranked := ranked }
            (s, { o with requests := [mkReq 0 (.remote tx) t w []], pending := .atomic (a + 16) w }.leaves true)

-- tags and outstanding requests (R174, R175)

/-- Requests of core l's transfer unit that hold a tag, and of all transfer units. -/
def State.outstanding (s : State) (l : ListId) : Nat :=
  s.cores.inflight.foldl (fun n o => if o.list = l ∧ o.record.unit = 4 then n + (o.requests.filter (fun r => r.sent)).length else n) 0
def State.tagsUsed (s : State) : Nat :=
  s.cores.inflight.foldl (fun n o => if o.record.unit = 4 then n + (o.requests.filter (fun r => r.sent)).length else n) 0

/-- The lines of a cached read, where the remote-line cache holds them all (R324). -/
def State.rlcRead (s : State) (a n : Nat) : Option (List Byte) :=
  let ls := (List.range ((a + n - 1) / 64 - a / 64 + 1)).map (fun i => a / 64 + i)
  let ds := ls.map (fun k => (s.fabric.rlc.find? (fun e => e.1 = k)).map (fun e => e.2))
  if n ≠ 0 ∧ ds.all (fun d => d.isSome) then some (slice (ds.flatMap (fun d => d.getD [])) (a % 64) n) else none

/-- Lines used: put first, as most recently used (R324). -/
def State.rlcTouch (s : State) (ls : List Nat) : State :=
  s.onFabric (fun f => { f with rlc := f.rlc.filter (fun e => e.1 ∈ ls) ++ f.rlc.filter (fun e => !(e.1 ∈ ls)) })

/-- The op's first unsent request, given its tag: sent, or served from the remote-line cache. -/
def State.sendReq (s : State) (o : InFlight) (r : Request) : State :=
  let keep : InFlight := { o with requests := o.requests.map (fun q => if q.num = r.num then { q with sent := true } else q) }
  match r.path with
  | .memory => s.setOp keep
  | .hostRead => (s.setOp keep).send (.hostRead ((s.reg Reg.hostWinBase).toNat + (r.addr - hostBase)) r.len)
  | .hostWrite => (s.setOp keep).send (.hostWrite ((s.reg Reg.hostWinBase).toNat + (r.addr - hostBase)) r.data)
  | .remote tx =>
    match (if tx.type = 1 ∧ tx.fillReq then s.rlcRead tx.addr tx.len else none) with
    | some bs =>
      ((s.setOp { o with
        requests := o.requests.filter (fun q => q.num ≠ r.num)
        got := Tab.put r.num bs o.got }).rlcTouch (linesOf tx.addr tx.len)).bump64 Reg.fabRlcHit 1
    | none => (s.setOp keep).requestOrLose o.list o.id r.num tx

/-- Reads of host memory outstanding (R388). -/
def State.hostReads (s : State) : Nat :=
  s.cores.inflight.foldl (fun n o => n + (o.requests.filter (fun r => decide (r.path = .hostRead) && r.sent)).length) 0

/-- The oldest unsent request of a list's transfer ops; none where it is a read of host memory and 768 are outstanding (R388). -/
def State.nextUnsent (s : State) (l : ListId) : Option (InFlight × Request) :=
  ((s.cores.inflight.filter (fun o => decide (o.list = l) && decide (o.record.unit = 4))).findSome? (fun o =>
    (o.requests.find? (fun r => !r.sent)).map (fun r => (o, r)))).filter (fun x => decide (x.2.path ≠ .hostRead) || decide (s.hostReads < 768))

/-- The lists whose transfer units wait for a tag of the pool (R175). -/
def State.tagWaiters (s : State) : List ListId :=
  (ascending ((s.cores.inflight.filter (fun o => decide (o.record.unit = 4) && o.requests.any (fun r => !r.sent))).map
    (fun o => o.list))).filter (fun l => decide (s.outstanding l < 256) && (s.nextUnsent l).isSome)

/-- The transfer unit that the next free tag goes to: the first waiting one in round-robin order (R175). -/
def State.tagNext (s : State) : Option ListId :=
  let ws := s.tagWaiters
  match ws.find? (fun l => decide (s.cores.tagTurn ≤ l)) with
  | some l => some l
  | none => ws.head?

/-- The waiting transfer units sent a request each in turn while the pool has tags (R174, R175); `n` bounds how many. -/
def State.pumpAll (s : State) : Nat → State
  | 0 => s
  | n + 1 =>
    if s.tagsUsed < 45056 then
      match s.tagNext with
      | none => s
      | some l =>
        match s.nextUnsent l with
        | none => s
        | some (o, r) =>
          let s1 := s.sendReq o r
          State.pumpAll { s1 with cores := { s1.cores with tagTurn := (l + 1) % 192 } } n
    else s

/-- Unsent requests sent after a change to core l's transfer unit; where some of its own cannot be, the wait counts (R180). -/
def State.pump (s : State) (l : ListId) (n : Nat) : State :=
  let s1 := s.pumpAll n
  if (s1.nextUnsent l).isSome then s1.bump64 (Reg.seqCounter l 12) 1 else s1

/-- What a transfer has read, in the order of its requests. -/
def InFlight.gathered (o : InFlight) : List Byte := o.got.flatMap (fun e => e.2)

/-- Source tiles that came whole with a CRC and do not match it (R227). -/
def badRemote (o : InFlight) (d : XferOp) : List Nat :=
  if o.record.ckPolicy = 3 then []
  else
    d.rowAddrs.zipIdx.flatMap (fun r =>
      ((wholeTiles r.1.1 d.srcRow).filter (fun t =>
        match Tab.find? o.crcs t with
        | some c => decide (crc32c (slice o.gathered (r.2 * d.srcRow + (t * 4096 - r.1.1)) 4096) ≠ c)
        | none => false)))

/-- Every request of the op has completed: remote data is verified, a tile that fails is asked for once more, and the data is written
(R174, R228). -/
def State.finishXfer (s : State) (o : InFlight) : State :=
  if !o.requests.isEmpty || o.queued then s
  else
    match o.pending with
    | .transfer bytes src dst =>
      if o.status ≠ 0 then s.putOp { o with pending := .done }
      else
        let d : XferOp := { XferOp.of bytes with src := src, dst := dst }
        let bad := badRemote o d
        let again := bad.filter (fun t => t ∈ o.reloading)
        if again ≠ [] then
          s.putOp { o.failed Status.integrityFault (again.headD 0 * 4096) with pending := .done, reloading := [] }
        else if bad ≠ [] then
          let reqs := (numbered (d.rowAddrs.flatMap (fun r => s.readReqs o (s.resolve d.srcGlobal r.1) d.srcRow))).filter
            (fun r => (r.addr / 4096) ∈ bad)
          s.setOp { o with reloading := o.reloading ++ bad, requests := reqs }
        else
          let o1 : InFlight := { o with
            flags := if o.reloading ≠ [] then setBit o.flags 2 else o.flags
            reloading := [] }
          let (s1, o2) := s.deliverData o1 d o.gathered (fun a => if a % 4096 = 0 then Tab.find? o.crcs (a / 4096) else none)
          s1.putOp o2
    | _ => s.settle

/-- Requests sent and ops finished after a change to core l's transfer ops. -/
def State.drive (s : State) (l : ListId) : State :=
  let count (s : State) : Nat := s.cores.inflight.foldl (fun n o => n + o.requests.length) 1
  let s1 := s.pump l (count s)
  let s2 := (s1.cores.inflight.map (fun o => o.id)).foldl
    (fun s i => match s.op? i with
      | some o => if o.list = l ∧ o.record.unit = 4 then s.finishXfer o else s
      | none => s) s1
  (s2.pump l (count s2)).settle

/-- A request of an op has completed, with the data it brings. -/
def State.requestDone (s : State) (o : InFlight) (num : Nat) (data : Option (List Byte)) : State :=
  let o1 : InFlight := { o with
    requests := o.requests.filter (fun r => r.num ≠ num)
    got := match data with
      | some bs => Tab.put num bs o.got
      | none => o.got }
  (s.setOp o1).drive o.list

/-- The classes of transfer that R229 admits as producers. -/
def replayableKind (k : Nat) : Bool := k = 0 || k = 1 || k = 5

/-- A transfer without verification. -/
def xferBody (s : State) (o : InFlight) : State × InFlight :=
  let d := s.xferOp o
  if d.kind = 3 then xferDequeue s o d
  else if d.kind = 4 then xferAtomic s o d
  else xferMove s o d

/-- The bytes of this device that a transfer reads: its source rows and the scales of a scaled source (R80, R169), and the
target of an atomic, of which a part of a tile is read (R223). -/
def State.xferReads (s : State) (d : XferOp) : List (Nat × Nat) :=
  let mem (a n : Nat) : List (Nat × Nat) := if rangeOf a = .host ∨ rangeOf a = .internal then [] else [(a, n)]
  let elems := d.rowAddrs.length * d.rowElems
  if d.kind = 3 then []
  else if d.kind = 4 then
    match s.resolve d.dstGlobal d.dst with
    | .here a => mem a (atomicWidth d.atomic)
    | .peer _ _ => []
  else
    d.rowAddrs.flatMap (fun r => match s.resolve d.srcGlobal r.1 with
      | .here a => mem a d.srcRow
      | .peer _ _ => []) ++
    (if d.converts ∧ d.ctlS.mode ≠ 0 ∧ elems ≠ 0 then
      [(d.scaleAddr, scalesOf d.ctlS d.rowAddrs.length d.rowElems)] else [])

/-- Every source row lies in a memory of this device, whose tiles can be told unchanged (R229). -/
def State.xferLocal (s : State) (d : XferOp) : Bool :=
  d.rowAddrs.all (fun r => match s.resolve d.srcGlobal r.1 with
    | .here a => decide (rangeOf a ≠ .host ∧ rangeOf a ≠ .internal)
    | .peer _ _ => false)

/-- A transfer: whole local source tiles verified first (R169, R174). It starts once no store that it reads moves (R20). -/
def xferRun (s : State) (o : InFlight) : State × InFlight :=
  let d := s.xferOp o
  if (s.xferReads d).any (fun r => s.moving r.1) then (s, { o with queued := true })
  else
    let o1 : InFlight := { o with queued := false }
    if (s.xferFault o.list d).isSome then xferBody s o1
    else s.verified o1 (replayableKind d.kind && s.xferLocal d) (Inputs.of (s.xferReads d)) xferBody

/-- The descriptor kind of a transfer record of list l. -/
def State.xferKind (s : State) (l : ListId) (r : OpRecord) : Nat := (XferOp.of (s.rd (coreStore l + r.desc) 128)).kind

/-- A transfer record whose descriptor is of the command's kind: issued, its requests sent. -/
def State.issueXfer (s : State) (l : ListId) (r : OpRecord) (kind : Nat) : State :=
  if r.unit = 4 ∧ r.opcode = 1 ∧ s.xferKind l r = kind then (s.issueOp l r xferRun).drive l else s

/-- XFER_COPY (R172, R174). -/
def execXferCopy (l : ListId) (r : OpRecord) (s : State) : Result := ifUnit (l < 192) (s.issueXfer l r 0)

/-- XFER_STRIDED_COPY (R172). -/
def execXferStridedCopy (l : ListId) (r : OpRecord) (s : State) : Result := ifUnit (l < 192) (s.issueXfer l r 1)

/-- XFER_ENQUEUE (R172, R288). -/
def execXferEnqueue (l : ListId) (r : OpRecord) (s : State) : Result := ifUnit (l < 192) (s.issueXfer l r 2)

/-- XFER_DEQUEUE (R172, R292). -/
def execXferDequeue (l : ListId) (r : OpRecord) (s : State) : Result := ifUnit (l < 192) (s.issueXfer l r 3)

/-- XFER_ATOMIC (R172, R197). -/
def execXferAtomic (l : ListId) (r : OpRecord) (s : State) : Result := ifUnit (l < 192) (s.issueXfer l r 4)

/-- XFER_FILL (R172). -/
def execXferFill (l : ListId) (r : OpRecord) (s : State) : Result := ifUnit (l < 192) (s.issueXfer l r 5)

end Sys2Proof.Machine
end

