-- ==== Sys2Proof/Machine/Marrow.lean ====
section
/-! DEFINITION. The Marrow engines' ops (R244 to R272): streams, stencils, reductions, gathers and scatters, tile ops. -/
namespace Sys2Proof.Machine

/-- Stack of a Marrow list (R244), and the agent that makes its accesses. -/
def marrowStack (l : ListId) : Nat := (l - 192) / 16
def marrowAgent (l : ListId) : Agent := .marrow (marrowStack l)

/-- `n` bytes of the op's descriptor, in its stack's scratch (R252). -/
def State.marrowDesc (s : State) (o : InFlight) (n : Nat) : List Byte :=
  s.rd (stackScratch (marrowStack o.list) + o.record.desc) n

/-- The first address of some ranges that a Marrow engine may not reach (R247). -/
def State.marrowFault (s : State) (l : ListId) (wr : Bool) (rs : List (Nat × Nat)) : Option Nat :=
  rs.findSome? (fun r => s.faultIn (marrowAgent l) wr r.1 r.2)

/-- The first address that an op's reads and writes may not reach (R247). -/
def State.marrowTouch (s : State) (l : ListId) (reads writes : List (Nat × Nat)) : Option Nat :=
  match s.marrowFault l false reads with
  | some a => some a
  | none => s.marrowFault l true writes

/-- The scales of a destination: read where the op names them, written where it computes them (R79 to R82). -/
def Ctl.scalesRead (c : Ctl) (rs : List (Nat × Nat)) : List (Nat × Nat) := if c.mode = 1 then [] else rs
def Ctl.scalesWritten (c : Ctl) (rs : List (Nat × Nat)) : List (Nat × Nat) := if c.mode = 1 then rs else []

/-- The statistics entries of `n` tiles (R95). -/
def statEntries (base n : Nat) : List (Nat × Nat) := if base = 0 ∨ n = 0 then [] else [(base, 8 * n)]

/-- MRW_BUSY_ENG (R276). -/
def State.marrowBusy (s : State) (l : ListId) (cycles : Nat) : State := s.bump64 (Reg.seqCounter l 0) cycles

-- MSTREAM (R255)

def State.streamOp (s : State) (o : InFlight) : ChainOp := ChainOp.ofStream (s.marrowDesc o 128)

/-- Cycles of R256: those of R150 with VLMAX of R245, whose read takes 4 cycles in every case, and 4 elements to a cycle of a
stream with a stride other than 0 or ±1. -/
def ChainOp.marrowCycles (op : ChainOp) (r : OpRecord) : Nat :=
  op.cycles op.count (op.chain.vlmax 2048) 4 false (op.sealing r op.count) +
    (if op.a.kind = 0 ∧ op.b.kind = 0 ∧ op.c.kind = 0 then 2 else 0)

/-- Statistics tiles of a chain op on `k` positions: those its narrowing conversions read or write (R95). -/
def ChainOp.statTiles (op : ChainOp) (k : Nat) : List Nat :=
  if op.chain.derive then []
  else
    ascending ([op.a, op.b, op.c].flatMap (fun d => op.chain.inTiles d k) ++
      (if !op.d.ctl.same op.chain.ctl && narrowing op.chain.ctl op.d.ctl then
        (List.range (op.extent k op.d true)).map (fun i => op.d.bit i / 32768) else []))

/-- An MSTREAM whose destination is a queue: its output as whole entries, 256 to a packet (R255, R288). Scales computed in
passing, statistics and counters are those of any destination. -/
def State.streamEnqueue (s : State) (o : InFlight) (op : ChainOp) : State × InFlight :=
  let slot := op.d.addr
  let q := slotQueue slot
  let r := s.chainRun o op op.count
  let cv := s.chainConv o op (max 1 op.count) r.outs
  let bytes := match cv.runs with
    | [r] => if r.width % 512 = 0 then toLE (r.width / 8) r.val else []
    | _ => []
  let packets := chunksOf 16384 (bytes.length / 16384 + 1) bytes
  let ok := slot % 64 = 0 && !bytes.isEmpty && (s.qdef? q).any (fun d => d.producer = agentWord o.list &&
    packets.all (fun p => (d.landing? (p.length / 64)).isSome))
  if !ok then (s, o.failed Status.addressFault slot)
  else
    let o1 : InFlight := { o with pending := .enqueue, cnt := o.cnt.addAll r.tallies }
    let (s1, o2) := s.writeOut o1 { cv with runs := [], covers := r.inTiles ++ cv.covers } op.d.ctl 0 op.statBase r.inStats
      (r.inWhole ++ cv.covers.filter (wholeTile cv.runs))
    let s2 := packets.foldl (fun s p =>
      let n := p.length / 64
      match (s.qdef? q).bind (fun d => d.landing? n) with
      | some m => s.ask q (.of m n (chunksOf 64 n p) (.op o.id) s.now)
      | none => s) (s1.setOp o2)
    (s2, (s2.op? o.id).getD o2)

/-- An MSTREAM op's destination is a queue. -/
def ChainOp.toQueue (op : ChainOp) : Bool := decide (op.d.kind = 2) && decide (rangeOf op.d.addr = .producer)

/-- The first access of an MSTREAM op that breaks R247: sources, scales, destination, statistics. -/
def State.streamFault (s : State) (l : ListId) (op : ChainOp) : Option Nat :=
  let d := (op.operands op.count).2
  s.marrowTouch l (op.inputs op.count ++ d.1.ctl.scalesRead (d.1.scales d.2))
    ((if op.toQueue then [] else d.1.ranges d.2) ++ d.1.ctl.scalesWritten (d.1.scales d.2) ++
      statEntries op.statBase (op.statTiles op.count).length)

/-- MSTREAM without verification. -/
def mstreamBody (s : State) (o : InFlight) : State × InFlight :=
  let op := s.streamOp o
  match s.streamFault o.list op with
  | some a => (s, o.failed Status.addressFault a)
  | none =>
    let s1 := s.marrowBusy o.list (op.marrowCycles o.record)
    if op.chain.derive then s1.runDerive o op
    else if op.toQueue then s1.streamEnqueue o op
    else s1.runChain o op op.count

def mstreamRun (s : State) (o : InFlight) : State × InFlight :=
  let op := s.streamOp o
  s.verified o (!op.toQueue)
    (Inputs.of ((op.inputs op.count).filter (fun r => s.mayReach (marrowAgent o.list) false r.1 r.2))) mstreamBody

-- MSTENCIL (R257 to R262)

def State.stencilOp (s : State) (o : InFlight) : StencilOp := StencilOp.of (s.marrowDesc o 192)

/-- A coefficient table entry (R258): offsets and coefficient. -/
structure Term where
  dx : Int
  dy : Int
  dz : Int
  coef : Num
  deriving DecidableEq, Repr

def State.terms (s : State) (o : InFlight) (op : StencilOp) : List Term :=
  (List.range op.terms).map (fun i =>
    let b := s.rd (stackScratch (marrowStack o.list) + op.table + 16 * i) 16
    ⟨signedOf 8 (fieldLE b 0 1), signedOf 8 (fieldLE b 1 1), signedOf 8 (fieldLE b 2 1),
      op.chain.ctl.decode (fieldLE b 8 8 % 2 ^ op.chain.ctl.width)⟩)

/-- A coordinate under the boundary mode (R260): none where the read gives +0. -/
def edgeCoord (mode : Nat) (extent : Nat) (x : Int) : Option Nat :=
  if 0 ≤ x ∧ x < extent then some x.toNat
  else if mode = 2 then some (if x < 0 then 0 else extent - 1)
  else if mode = 3 then some (x % (extent : Int)).toNat
  else none

/-- Byte address of input element (x, y, z). -/
def StencilOp.inAddr (op : StencilOp) (x y z : Nat) : Nat :=
  op.a.addr + x * op.a.ctl.width / 8 + y * op.inRow + z * op.inPlane

/-- Bit address of output element (x, y, z) of an operand. -/
def StencilOp.outBit (op : StencilOp) (d : Opnd) (x y z : Nat) : Nat :=
  (d.addr + y * op.outRow + z * op.outPlane) * 8 + x * d.ctl.width

/-- The input address that output point (x, y, z) reads at an offset, if it lies in the array. -/
def StencilOp.reads (op : StencilOp) (x y z : Nat) (dx dy dz : Int) : Option Nat :=
  match edgeCoord op.boundary op.nx ((op.ox + x : Nat) + dx), edgeCoord op.boundary op.ny ((op.oy + y : Nat) + dy),
    edgeCoord op.boundary op.nz ((op.oz + z : Nat) + dz) with
  | some i, some j, some k => some (op.inAddr i j k)
  | _, _, _ => none

/-- Output points with their numbers, x fastest. -/
def StencilOp.points (op : StencilOp) : List (Nat × Nat × Nat) :=
  (List.range op.ez).flatMap (fun z => (List.range op.ey).flatMap (fun y => (List.range op.ex).map (fun x => (x, y, z))))

/-- What statistics note of a narrowing input conversion: where the element lies, its value and the tally (R95). -/
structure Note where
  bit : Nat
  width : Nat
  x : Num
  tally : Tally
  deriving DecidableEq, Repr

/-- What the statistics of a stencil note of one element of operand `d` whose conversion gave `ts`. -/
def Chain.note (ch : Chain) (d : Opnd) (bit : Nat) (x : Num) (ts : List Tally) : List Note :=
  if narrowing d.ctl ch.ctl ∧ !d.ctl.same ch.ctl then [⟨bit, d.ctl.width, x, ts.headD .none⟩] else []

/-- The notes cover every element of a tile. -/
def wholeNotes (ns : List Note) (t : Nat) : Bool :=
  let here := ns.filter (fun n => decide (n.bit / 32768 = t))
  (ascending (here.map (fun n => n.bit))).foldl
    (fun k b => k + ((here.find? (fun n => n.bit = b)).map (fun n => n.width)).getD 0) 0 ≥ 32768

/-- v(d) of R259: the element's address, the working value, the tally of its conversion, and what statistics note. -/
structure Vd where
  addr : Option Nat
  v : Num
  tally : List Tally
  note : List Note
  deriving DecidableEq, Repr

def State.stencilRead (s : State) (op : StencilOp) (rd : Rounding) (dr : Nat) (addr : Option Nat) : Vd :=
  match addr with
  | none => ⟨none, .fin false 0 0, [], []⟩
  | some a =>
    let raw := op.a.ctl.decode (s.rdBits (a * 8) op.a.ctl.width)
    let (v, ts) := op.chain.input rd op.a.ctl dr raw
    ⟨addr, v, ts, op.chain.note op.a (a * 8) raw ts⟩

/-- The value of an operand aligned with the output at bit address `bit`, or +0 where it is absent (R257). -/
def State.stencilAligned (s : State) (op : StencilOp) (rd : Rounding) (dr : Nat) (d : Opnd) (bit : Nat) : Vd :=
  if d.kind = 2 then
    let raw := d.ctl.decode (s.rdBits bit d.ctl.width)
    let (v, ts) := op.chain.input rd d.ctl dr raw
    ⟨none, v, ts, op.chain.note d bit raw ts⟩
  else ⟨none, .fin false 0 0, [], []⟩

/-- The elements that an output point reads, each once: an element's conversion counts once for each point that reads it
(R259). -/
def distinctReads (vs : List Vd) : List Vd :=
  vs.foldl (fun acc v => if acc.any (fun w => w.addr = v.addr) then acc else acc ++ [v]) []

/-- A stage of the op reads operand a (R131, R259). -/
def Chain.usesA (c : Chain) : Bool :=
  (decide (1 ≤ c.add ∧ c.add ≤ 3) && c.addSrc = 0) || (decide (c.cmp ≠ 0) && c.cmpSrc = 0) || (c.sel && c.selSrc = 0) ||
  (decide (1 ≤ c.minmax ∧ c.minmax ≤ 4) && c.minmaxSrc = 0)

/-- The running value of R259 over the terms in table order. -/
def stencilSum (ch : Chain) (rd : Rounding) (dr : Nat) : List (Num × Num) → Num × Tally
  | [] => (.fin false 0 0, .none)
  | (c0, v0) :: rest =>
    let p := Num.mul c0 v0
    let (t0, h0) := ch.round rd dr (p.isNan && !c0.isNan && !v0.isNan) p
    rest.foldl (fun t cv =>
      let p := Num.mul cv.1 cv.2
      let x := Num.add rd.rnd p t.1
      let made := x.isNan && !t.1.isNan && !cv.1.isNan && !cv.2.isNan
      let (v, h) := ch.round rd dr made x
      (v, t.2.first h)) (t0, h0)

/-- Runs of consecutive numbers in an ascending list, by their first and last. -/
def runsOf : List Nat → List (Nat × Nat)
  | [] => []
  | n :: r =>
    match runsOf r with
    | [] => [(n, n)]
    | (a, b) :: t => if a = n + 1 then (n, b) :: t else (n, n) :: (a, b) :: t

def maxAbs (l : List Int) : Nat := l.foldl (fun m x => max m x.natAbs) 0

/-- Output rows of a band, for offsets that reach `ry` rows and `rz` planes (R261). -/
def StencilOp.bandHeight (op : StencilOp) (ry rz : Nat) : Nat :=
  min op.ey (524288 / ((2 * rz + 1) * (op.nx * op.a.ctl.width / 8)) - 2 * ry)

/-- Whole tiles that hold a byte range, as a byte range. -/
def tileSpan (a n : Nat) : Nat × Nat := (a / 4096 * 4096, ((a + n + 4095) / 4096 - a / 4096) * 4096)

/-- What the fetcher reads, as whole tiles: the byte span of each plane of each band, consecutive rows together (R261, R262). -/
def StencilOp.fetched (op : StencilOp) (ts : List Term) : List (Nat × Nat) :=
  let ry := maxAbs (ts.map (fun (t : Term) => t.dy))
  let rz := maxAbs (ts.map (fun (t : Term) => t.dz))
  let h := max 1 (op.bandHeight ry rz)
  let zs := ascending ((List.range (op.ez + 2 * rz)).filterMap (fun (i : Nat) =>
    edgeCoord op.boundary op.nz (((op.oz + i : Nat) : Int) - (rz : Int))))
  (List.range ((op.ey + h - 1) / h)).flatMap (fun j =>
    let rows := min h (op.ey - j * h)
    let ys := runsOf (ascending ((List.range (rows + 2 * ry)).filterMap (fun (i : Nat) =>
      edgeCoord op.boundary op.ny (((op.oy + j * h + i : Nat) : Int) - (ry : Int)))))
    zs.flatMap (fun z => ys.map (fun y =>
      tileSpan (op.inAddr 0 y.1 z) (op.inAddr 0 y.2 z + (op.nx * op.a.ctl.width + 7) / 8 - op.inAddr 0 y.1 z))))

def StencilOp.outRows (op : StencilOp) (d : Opnd) : List (Nat × Nat) :=
  if d.kind ≠ 2 then []
  else (List.range op.ez).flatMap (fun z => (List.range op.ey).map (fun y =>
    (op.outBit d 0 y z / 8, (op.ex * d.ctl.width + 7) / 8)))

/-- Statistics tiles of a stencil: those of its narrowing conversions (R95). -/
def StencilOp.statTiles (op : StencilOp) (ts : List Term) : List Nat :=
  let narrow (c d : Ctl) : Bool := narrowing c d && !c.same d
  let tiles (rs : List (Nat × Nat)) : List Nat := rs.flatMap (fun r => touchedTiles r.1 r.2)
  ascending ((if narrow op.a.ctl op.chain.ctl then tiles (op.fetched ts) else []) ++
    [op.b, op.c].flatMap (fun d => if narrow d.ctl op.chain.ctl then tiles (op.outRows d) else []) ++
    (if narrow op.chain.ctl op.d.ctl then tiles (op.outRows op.d) else []))

/-- The first access of a stencil op that breaks R247: the tiles fetched, b and c, the table, scales, destination,
statistics. -/
def State.stencilFault (s : State) (l : ListId) (op : StencilOp) (ts : List Term) : Option Nat :=
  let sc := if op.d.ctl.mode = 0 then [] else [(op.d.scaleAddr, scalesOf op.d.ctl (op.ey * op.ez) op.ex)]
  s.marrowTouch l
    ((stackScratch (marrowStack l) + op.table, 16 * op.terms) :: op.fetched ts ++ op.outRows op.b ++ op.outRows op.c ++
      op.d.ctl.scalesRead sc)
    (op.outRows op.d ++ op.d.ctl.scalesWritten sc ++ statEntries op.statBase (op.statTiles ts).length)

/-- What one output point gives: its place, its operands and result, and the notes of its input conversions. -/
structure StencilPoint where
  bit : Nat
  lane : LaneIn
  out : Lane
  notes : List Note
  deriving DecidableEq, Repr

/-- One output point (R259). -/
def State.stencilPoint (s : State) (o : InFlight) (op : StencilOp) (ts : List Term) (p : Nat × Nat × Nat) : StencilPoint :=
  let ch := op.chain
  let rd := o.record.rounding
  let (x, y, z) := p
  let bit := op.outBit op.d x y z
  let dr := if rd.rnd = 5 then s.draw o.record.tensorId (s.elemIndex o.record.tensorId bit) else 0
  let vs := ts.map (fun (t : Term) => s.stencilRead op rd dr (op.reads x y z t.dx t.dy t.dz))
  let (t, h) := stencilSum ch rd dr ((ts.map (fun (t : Term) => t.coef)).zip (vs.map (fun (v : Vd) => v.v)))
  let a := s.stencilRead op rd dr (op.reads x y z 0 0 0)
  let b := s.stencilAligned op rd dr op.b (op.outBit op.b x y z)
  let c := s.stencilAligned op rd dr op.c (op.outBit op.c x y z)
  let read := distinctReads (if ch.usesA then vs ++ [a] else vs) ++ [b, c]
  let i : LaneIn := ⟨a.v, b.v, c.v, true, true, read.flatMap (fun (v : Vd) => v.tally)⟩
  ⟨bit, i, ch.stages rd dr 3 8 i ⟨t, h, false⟩, read.flatMap (fun (v : Vd) => v.note)⟩

/-- What a stencil's points write: results, counters and statistics, those of b and c with their own. A tile whose elements are all
masked off is covered and gathers nothing (R95, R139). -/
def State.writeStencil (s : State) (o : InFlight) (op : StencilOp) (outs : List StencilPoint) : State × InFlight :=
  let ch := op.chain
  let kept := outs.filter (fun e => ch.writes e.lane e.out)
  let es := outs.zipIdx.filterMap (fun e =>
    let blk := blockOf op.d.ctl op.ex e.2
    if ch.writes e.1.lane e.1.out then some (OutElem.mk e.1.bit blk (some e.1.out.t))
    else if ch.zeroMasked then some (OutElem.mk e.1.bit blk none) else none)
  let o1 : InFlight := { o with cnt := o.cnt.addAll (kept.flatMap (fun e => e.out.tally :: e.lane.tallies)) }
  let cv := s.convertOut o.record.rounding ch.ctl op.d.ctl op.d.scaleAddr o.record.tensorId (op.d.ctl.same ch.ctl) es
  let cover := if cv.covers.isEmpty then [] else outs.map (fun e => e.bit / 32768)
  let noted := outs.flatMap (fun e => e.notes)
  let inTiles := noted.map (fun n => n.bit / 32768)
  s.writeOut o1 { cv with covers := inTiles ++ cover } op.d.ctl (op.outBit op.d 0 0 0) op.statBase
    (kept.flatMap (fun e => e.notes.map (fun n => (n.bit / 32768, n.x, n.tally)))) (inTiles.filter (wholeNotes noted))

/-- Cycles of a stencil in its engine (R263). -/
def StencilOp.cycles (op : StencilOp) : Nat :=
  64 + (op.ey * op.ez * ((op.ex + op.chain.vlmax 2048 - 1) / op.chain.vlmax 2048) * op.terms + 1) / 2

/-- MSTENCIL without verification. -/
def mstencilBody (s : State) (o : InFlight) : State × InFlight :=
  let op := s.stencilOp o
  let ts := s.terms o op
  let fault := s.stencilFault o.list op ts
  if fault.isSome then (s, o.failed Status.addressFault (fault.getD 0))
  else (s.marrowBusy o.list op.cycles).writeStencil o op (op.points.map (s.stencilPoint o op ts))

/-- MSTENCIL: each tile fetched is verified (R262), and what it reads of b and c. -/
def mstencilRun (s : State) (o : InFlight) : State × InFlight :=
  let op := s.stencilOp o
  let ts := s.terms o op
  if (s.stencilFault o.list op ts).isSome then mstencilBody s o
  else s.verified o true (Inputs.of (op.fetched ts ++ op.outRows op.b ++ op.outRows op.c)) mstencilBody

-- MREDUCE (R265 to R267)

def State.reduceOp (s : State) (o : InFlight) : ReduceOp := ReduceOp.of (s.marrowDesc o 96)

/-- Terms of a sum, dot or sum of squares after conversion to FP64, with the conversions' tallies. A stochastic conversion of
element i draws by the index that it would have after the destination (DESIGN CHOICE, log entry 112). -/
def State.reduceTerms (s : State) (o : InFlight) (op : ReduceOp) : List (Num × Num × Num) × List Tally :=
  let fp64 : Ctl := ⟨0, false, 0, 0⟩
  let rd := o.record.rounding
  let dr (i : Nat) : Nat :=
    if rd.rnd = 5 then s.draw o.record.tensorId (s.elemIndex o.record.tensorId (op.d.bit i)) else 0
  let get (d : Opnd) (i : Nat) : Num × List Tally :=
    let x := s.streamElem d (max 1 op.count) i
    if d.ctl.same fp64 then (x, [])
    else
      let (v, t) := convert rd fp64 127 (dr i) x
      (fp64.decode v, [t])
  let rs := (List.range op.count).map (fun i =>
    let a := get op.a i
    let b := if op.fn = 1 then get op.b i else if op.fn = 2 then (a.1, []) else (.fin false 1 0, [])
    ((a.1, a.1, b.1), a.2 ++ b.2))
  (rs.map (fun r => r.1), rs.flatMap (fun r => r.2))

/-- Elements that a scale of 0xFF makes NaN where a reduction takes them without a conversion (R77, R267). -/
def State.reduceNans (s : State) (op : ReduceOp) : Nat :=
  scaledNans op.a.ctl (s.scaleAt op.a.ctl op.a.scaleAddr) 1 op.count

/-- Min, max and amax (R267). -/
def reduceSelect (fn : Nat) (xs : List Num) : Num :=
  if fn = 5 then
    (xs.filter (fun x => !x.isNan)).foldl (fun t x => Num.maximum t x.abs) (.fin false 0 0)
  else
    match xs with
    | [] => .fin false 0 0
    | x :: r => r.foldl (fun t y => if fn = 3 then Num.minimum t y else Num.maximum t y) x

/-- The single result written to d (R266). -/
def State.reduceOut (s : State) (o : InFlight) (op : ReduceOp) (x : Num) (counted : Bool) : State × InFlight :=
  let cv := s.convertOut o.record.rounding ⟨0, false, 0, 0⟩ op.d.ctl 0 o.record.tensorId false [⟨op.d.bit 0, 0, some x⟩]
  s.writeOut o { cv with tallies := if counted then cv.tallies else [], stats := [], covers := [] } op.d.ctl (op.d.bit 0) 0 [] []

/-- What a reduction reads: records, or elements with their scales, and an imported anchor. -/
def ReduceOp.inputs (op : ReduceOp) : List (Nat × Nat) :=
  if op.mode = 4 then [(op.a.addr, op.count * 32)]
  else op.a.reads op.count ++ (if op.fn = 1 then op.b.reads op.count else [])
    ++ (if op.mode = 1 ∨ op.mode = 3 then [(op.anchor, 2)] else [])

/-- MREDUCE without verification. -/
def mreduceBody (s : State) (o : InFlight) : State × InFlight :=
  let op := s.reduceOp o
  let outLen := if op.mode = 2 then 2 else if op.mode = 3 then 32 else (op.d.ctl.width + 7) / 8
  match s.marrowTouch o.list op.inputs [(op.d.addr, outLen)] with
  | some a => (s, o.failed Status.addressFault a)
  | none =>
    let s0 := s.marrowBusy o.list (if op.mode = 4 then 2 * op.count + 40 else
      (if op.mode = 0 ∧ op.fn < 3 then 2 else 1) * ((op.count + 63) / 64))
    let o := if op.mode = 1 ∨ op.mode = 3 then { o with flags := setBit o.flags 4 } else o
    if 3 ≤ op.fn then
      let x := reduceSelect op.fn ((List.range op.count).map (fun i => s.streamElem op.a (max 1 op.count) i))
      s0.reduceOut (o.addNans (s.reduceNans op)) op x (!x.isNan)
    else if op.mode = 4 then
      let recs := (List.range op.count).map (fun i => (op.a.addr + 32 * i, Acc.of (s.rd (op.a.addr + 32 * i) 32)))
      match recs with
      | [] => (s0, o)
      | first :: rest =>
        match recs.find? (fun r => r.2.p ≠ first.2.p) with
        | some r => (s0, o.failed Status.anchorFault r.1)
        | none =>
          let sum := rest.foldl (fun a r => a.plus r.2) first.2
          s0.reduceOut { o with cnt := { o.cnt with truncated := o.cnt.truncated + (if sum.trunc then 1 else 0) } } op
            (sum.value o.record.rnd) true
    else
      let (terms, tallies) := s.reduceTerms o op
      let o1 : InFlight := { o with cnt := o.cnt.addAll tallies }
      let p := if op.mode = 1 ∨ op.mode = 3 then anchorOf (s.rdLE op.anchor 2)
        else terms.foldl (fun m t => maxOpt m (addOpt t.1.exponent? t.2.2.exponent?)) none
      if op.mode = 2 then s0.writeRuns o1 o1.record.digest [⟨op.d.addr * 8, 16, anchorBits p⟩]
      else
        let a := accumulate p terms
        if a.fault then (s0, o1.failed Status.anchorFault op.d.addr)
        else
          let o2 : InFlight :=
            { o1 with cnt := { o1.cnt with truncated := o1.cnt.truncated + (if a.trunc then 1 else 0) } }
          if op.mode = 3 then s0.writeRuns o2 o2.record.digest [⟨op.d.addr * 8, 256, ofLE a.bytes⟩]
          else s0.reduceOut o2 op (a.value o.record.rnd) true

def mreduceRun (s : State) (o : InFlight) : State × InFlight :=
  let op := s.reduceOp o
  s.verified o true (Inputs.of op.inputs) mreduceBody

-- MINDEX (R269 to R271)

def State.indexOp (s : State) (o : InFlight) : IndexOp := IndexOp.of (s.marrowDesc o 96)

/-- Index i of the index stream. -/
def State.indexAt (s : State) (op : IndexOp) (i : Nat) : Int :=
  if op.wide then signedOf 64 (s.rdLE (op.index + 8 * i) 8) else signedOf 32 (s.rdLE (op.index + 4 * i) 4)

/-- What becomes of one index (R270). -/
inductive Slot' where
  | record (a : Nat)
  | skip
  | fault (a : Nat)
  deriving DecidableEq, Repr

def State.indexSlot (s : State) (l : ListId) (op : IndexOp) (wr : Bool) (i : Nat) : Slot' :=
  let x := s.indexAt op i
  let a := patternOf 64 ((op.base : Int) + x * (op.esize : Int))
  if x < 0 ∧ op.skipNeg then .skip
  else if x < 0 ∨ (op.limit : Int) ≤ x then .fault a
  else if s.mayReach (marrowAgent l) wr a op.esize then .record a
  else .fault a

/-- Indices in stream order up to the first that faults, and that fault. -/
def State.indexSlots (s : State) (l : ListId) (op : IndexOp) (wr : Bool) : List (Nat × Slot') × Option Nat :=
  let all := (List.range op.count).map (fun i => (i, s.indexSlot l op wr i))
  let good := all.takeWhile (fun p => match p.2 with
    | .fault _ => false
    | _ => true)
  (good, match all[good.length]? with
    | some (_, .fault a) => some a
    | _ => none)

/-- Elements of the indexed format in one record. -/
def IndexOp.perRecord (op : IndexOp) : Nat := op.esize * 8 / op.ctl.width

/-- The records of indices that name one, each once. -/
def recordsOf (slots : List (Nat × Slot')) : List Nat :=
  ascending (slots.filterMap (fun p => match p.2 with
    | .record a => some a
    | _ => none))

/-- The index and dense streams of an index op, with the dense side's scales. -/
def IndexOp.streams (op : IndexOp) : List (Nat × Nat) :=
  (op.index, op.count * (if op.wide then 8 else 4)) ::
    (if op.kind = 0 then [] else op.dense.reads (op.count * op.perRecord))

/-- Statistics tiles of an index op: those it writes under a narrowing conversion (R95). -/
def IndexOp.statTiles (op : IndexOp) (records : List Nat) : List Nat :=
  let tiles (rs : List (Nat × Nat)) : List Nat := ascending (rs.flatMap (fun r => touchedTiles r.1 r.2))
  let narrow := if op.kind = 0 then narrowing op.ctl op.dense.ctl && !op.ctl.same op.dense.ctl
    else narrowing op.dense.ctl op.ctl && !op.dense.ctl.same op.ctl
  if !narrow then []
  else if op.kind = 0 then tiles (op.dense.ranges (op.count * op.perRecord))
  else tiles (records.map (fun a => (a, op.esize)))

/-- A fault before the indices are processed: the index stream, the dense side, the rank stream, scales or statistics out of
reach (R247). -/
def State.indexFault (s : State) (l : ListId) (op : IndexOp) (slots : List (Nat × Slot')) : Option Nat :=
  let n := op.count * op.perRecord
  let out (rs : List (Nat × Nat)) : List (Nat × Nat) := if op.kind = 0 then rs else []
  s.marrowTouch l
    (op.streams ++ (if op.rank = 0 then [] else [(op.rank, op.count * 4)]) ++ out (op.dense.ctl.scalesRead (op.dense.scales n)))
    (out (op.dense.ranges n ++ op.dense.ctl.scalesWritten (op.dense.scales n)) ++
      statEntries op.statBase (op.statTiles (recordsOf slots)).length)

def InFlight.failedIf (o : InFlight) (f : Option Nat) : InFlight :=
  match f with
  | some a => o.failed Status.addressFault a
  | none => o

/-- Gather: records to the dense stream; a skipped index gives zeros (R270). -/
def mindexGatherBody (s : State) (o : InFlight) : State × InFlight :=
  let op := s.indexOp o
  let (slots, f) := s.indexSlots o.list op false
  match s.indexFault o.list op slots with
  | some a => (s, o.failed Status.addressFault a)
  | none =>
    let k := op.perRecord
    let es := slots.flatMap (fun p => (List.range k).map (fun j =>
      let n := p.1 * k + j
      let x := match p.2 with
        | .record a => some (op.ctl.decode (s.rdBits (a * 8 + j * op.ctl.width) op.ctl.width))
        | _ => none
      OutElem.mk (op.dense.bit n) (blockOf op.dense.ctl (max 1 (op.count * k)) n) x))
    let same := op.ctl.same op.dense.ctl
    let cv := s.convertOut o.record.rounding op.ctl op.dense.ctl op.dense.scaleAddr o.record.tensorId same es
    (s.marrowBusy o.list op.count).writeOut (o.failedIf f) cv op.dense.ctl (op.dense.bit 0) op.statBase [] []

/-- The elements of one record from the dense positions of index `i`, converted to the indexed side's format (R270). -/
def State.recordConv (s : State) (o : InFlight) (op : IndexOp) (i a : Nat) : ConvOut :=
  let k := op.perRecord
  let es := (List.range k).map (fun j =>
    OutElem.mk (a * 8 + j * op.ctl.width) 0 (some (s.streamElem op.dense (max 1 (op.count * k)) (i * k + j))))
  s.convertOut o.record.rounding op.dense.ctl op.ctl 0 o.record.tensorId (op.ctl.same op.dense.ctl) es

/-- What an op leaves beside the records it has written one by one: statistics, counters, and the digest of the tiles that
the records cover (R95, R96, R204). The narrow path leaves every tile unsealed (R222). -/
def State.closeRecords (s : State) (o : InFlight) (op : IndexOp) (records : List Nat) (cvs : List ConvOut) : State × InFlight :=
  let runs := joinRuns (sortRuns (records.map (fun a => byteRun a (s.rdNew a op.esize))))
  let s1 := if op.statBase = 0 then s else
    s.writeStats (.op o.id) op.statBase (cvs.flatMap (fun c => c.covers)) (cvs.flatMap (fun c => c.stats)) (wholeTile runs)
  let o1 := { o with cnt := o.cnt.addAll (cvs.flatMap (fun (c : ConvOut) => c.tallies)) }.leaves (!records.isEmpty)
  (s1, o1.drawn.digested o.record.digest (s.digestOf o.record.tensorId runs (fun t => s.rdNew (t * 4096) 4096)))

/-- Scatter: the dense stream to records in stream order, so that a later position of a record overwrites an earlier one
(R270). -/
def mindexScatterBody (s : State) (o : InFlight) : State × InFlight :=
  let op := s.indexOp o
  let (slots, f) := s.indexSlots o.list op true
  match s.indexFault o.list op slots with
  | some a => (s, o.failed Status.addressFault a)
  | none =>
    let cvs := slots.filterMap (fun p => match p.2 with
      | .record a => some (s.recordConv o op p.1 a)
      | _ => none)
    let s1 := cvs.foldl (fun s c => c.runs.foldl (fun s r =>
      (s.runBytes r).foldl (fun s b => s.write (.op o.id) b.1 b.2) s) s) (s.marrowBusy o.list op.count)
    let (s2, o1) := s1.closeRecords o op (recordsOf slots) cvs
    (s2, o1.failedIf f)

/-- The atomic byte of R172 for an atomic scatter (R269). -/
def IndexOp.atomicByte (op : IndexOp) : Nat :=
  op.atomic % 16 + (if op.esize = 8 then 16 else 0) + (if bitOf op.atomic 4 then 32 else 0)

/-- Atomic scatter: one atomic at the home of each record, in stream order, or by rank under repro (R271). Its operand is the
record's width of dense elements of its index, in the indexed format (DEDUCED, log entry 115). -/
def mindexAtomicBody (s : State) (o : InFlight) : State × InFlight :=
  let op := s.indexOp o
  let (slots, f) := s.indexSlots o.list op true
  match s.indexFault o.list op slots with
  | some a => (s, o.failed Status.addressFault a)
  | none =>
    let by_ := op.atomicByte
    let (s1, o1, cvs) := slots.foldl (fun (p : State × InFlight × List ConvOut) e => match e.2 with
      | .record a =>
        if p.2.1.status ≠ 0 then p
        else
          let c := s.recordConv o op e.1 a
          let v := c.runs.foldl (fun n r => n + r.val <<< (r.bit - a * 8)) 0
          let o1 := p.2.1
          let cs := p.2.2 ++ [c]
          if ranksUnder p.1 by_ then
            match p.1.rankArrive ⟨a, s.rdLE (op.rank + 4 * e.1) 4, .op o.id, v, by_, 0, s.now⟩ with
            | (t, .duplicate) => (t, o1.failed Status.addressFault a, cs)
            | (t, .applied _ c) => (t, { o1 with cnt := o1.cnt.count c }, cs)
            | (t, _) => (t, o1, cs)
          else
            ((p.1.atomic (.op o.id) by_ a v 0).2, { o1 with cnt := o1.cnt.count (p.1.atomicTally (.op o.id) by_ a v) }, cs)
      | _ => p) (s.marrowBusy o.list op.count, o, [])
    let (s2, o2) := s1.closeRecords o1 op (recordsOf slots) cvs
    (s2, if o2.status ≠ 0 then o2 else o2.failedIf f)

/-- An index op: the dense and index streams verified where whole tiles of them are read; records are read in part, by the narrow
path (R222), and an uncorrectable line among them is a failure of its tile (R223). -/
def mindexRun (body : State → InFlight → State × InFlight) (s : State) (o : InFlight) : State × InFlight :=
  let op := s.indexOp o
  let i := Inputs.of (op.streams.filter (fun r => s.mayReach (marrowAgent o.list) false r.1 r.2))
  let read := if op.kind = 1 then [] else
    (recordsOf (s.indexSlots o.list op (op.kind ≠ 0)).1).flatMap (fun a => touchedTiles a op.esize)
  s.verified o false { i with touched := ascending (i.touched ++ read) } body

/-- The body of an index op by its kind. -/
def mindexBody (s : State) (o : InFlight) : State × InFlight :=
  let k := (s.indexOp o).kind
  if k = 0 then mindexGatherBody s o else if k = 1 then mindexScatterBody s o else mindexAtomicBody s o

-- MTILE (R272)

def State.tileOp (s : State) (o : InFlight) : TileOp := TileOp.of (s.marrowDesc o 32)

def TileOp.tiles (op : TileOp) : List Nat := (List.range op.count).map (fun i => op.first / 4096 + i)

/-- The fault of a tile op's accesses. -/
def State.tileFault (s : State) (l : ListId) (op : TileOp) : Option Nat :=
  match s.marrowFault l (op.kind = 0 ∨ op.kind = 2) [(op.first, op.count * 4096)] with
  | some a => some a
  | none =>
    if op.kind = 1 then s.marrowFault l true [(op.dst, 16)]
    else if op.kind = 3 then s.marrowFault l true [(op.dst, op.count * 4096)] else none

/-- What a tile op leaves in its record of the tiles it wrote from `a` on: flag bit 5 where one stays unsealed, and the
digest (R176, R204, R205). -/
def State.tileRecord (s : State) (o : InFlight) (op : TileOp) (a : Nat) (unsealed : Bool) : InFlight :=
  (o.leaves unsealed).digested o.record.digest
    (s.digestOf o.record.tensorId [⟨a * 8, op.count * 32768, 0⟩] (fun t => s.rdNew (t * 4096) 4096))

/-- Seal: every tile's CRC computed and the tile sealed; its stamp is unchanged. -/
def State.tileSeal (s : State) (o : InFlight) (op : TileOp) : State × InFlight :=
  let s1 := op.tiles.foldl (fun s t =>
    let bs := s.rdNew (t * 4096) 4096
    s.writePiece (.op o.id) (some { s.tag (t * 4096) with crc := crc32c bs, isSealed := true }) (t * 4096) bs) s
  (s1, s1.tileRecord o op op.first false)

/-- Verify: counts of sealed tiles that match and that do not, and the first that does not; a tile with an uncorrectable line
does not (R223). -/
def State.tileVerify (s : State) (o : InFlight) (op : TileOp) : State × InFlight :=
  let sealed_ := op.tiles.filter (fun t => (s.tag (t * 4096)).isSealed)
  let bad := sealed_.filter (fun t => s.badTile t || !s.verifies t)
  let out := toLE 4 (sealed_.length - bad.length) ++ toLE 4 bad.length ++ toLE 8 (bad.headD 0 * 4096)
  ((s.countBad bad).countFails bad).writeRuns o o.record.digest [⟨op.dst * 8, 128, ofLE out⟩]

/-- Zero-fill: zeros, sealed when the policy seals. -/
def State.tileZero (s : State) (o : InFlight) (op : TileOp) : State × InFlight :=
  s.writeRuns o o.record.digest [⟨op.first * 8, op.count * 32768, 0⟩]

/-- Migrate: whole tiles with their tags; a line with an uncorrectable error arrives with its check bytes unchanged (R228). -/
def State.tileMigrate (s : State) (o : InFlight) (op : TileOp) : State × InFlight :=
  let s1 := op.tiles.zipIdx.foldl (fun s t =>
    (s.writePiece (.op o.id) (some (s.tag (t.1 * 4096))) (op.dst + t.2 * 4096) (s.rd (t.1 * 4096) 4096)).copyBad
      t.1 (op.dst / 4096 + t.2)) s
  (s1, s1.tileRecord o op op.dst (op.tiles.any (fun t => !(s.tag (t * 4096)).isSealed)))

/-- A tile op without verification. -/
def mtileBody (s : State) (o : InFlight) : State × InFlight :=
  let op := s.tileOp o
  match s.tileFault o.list op with
  | some a => (s, o.failed Status.addressFault a)
  | none =>
    let s0 := s.marrowBusy o.list op.count
    if op.kind = 0 then s0.tileSeal o op
    else if op.kind = 1 then s0.tileVerify o op
    else if op.kind = 2 then s0.tileZero o op
    else s0.tileMigrate o op

/-- A tile op: a seal reads its tiles and verifies those that are sealed, as the policy asks (R169, R227); a verify neither reloads
nor faults, and a migration takes failing tiles along (R272). -/
def mtileRun (s : State) (o : InFlight) : State × InFlight :=
  let op := s.tileOp o
  if op.kind = 0 ∧ (s.tileFault o.list op).isNone then s.verified o false (Inputs.of [(op.first, op.count * 4096)]) mtileBody
  else mtileBody s o

/-- The body of a Marrow op by its opcode (R251). -/
def marrowBody (s : State) (o : InFlight) : State × InFlight :=
  match o.record.opcode with
  | 1 => mstreamBody s o
  | 2 => mstencilBody s o
  | 3 => mreduceBody s o
  | 4 => mindexBody s o
  | _ => mtileBody s o

/-- A Marrow record of the unit and opcode of a command, whose descriptor is of the command's kind. -/
def State.issueMarrow (s : State) (l : ListId) (r : OpRecord) (opcode : Nat) (kind : Option Nat)
    (run : State → InFlight → State × InFlight) : State :=
  if r.unit = 5 ∧ r.opcode = opcode ∧
      (kind.isNone ∨ kind = some (s.rdLE (stackScratch (marrowStack l) + r.desc) 1)) then s.issueOp l r run else s

/-- A list number of a Marrow engine. -/
def marrowOk (l : ListId) : Bool := 192 ≤ l && l < 384

/-- MSTREAM (R255). -/
def execMstream (l : ListId) (r : OpRecord) (s : State) : Result :=
  ifUnit (marrowOk l) (s.issueMarrow l r 1 none mstreamRun)

/-- MSTENCIL (R259). -/
def execMstencil (l : ListId) (r : OpRecord) (s : State) : Result :=
  ifUnit (marrowOk l) (s.issueMarrow l r 2 none mstencilRun)

/-- MREDUCE (R266, R267). -/
def execMreduce (l : ListId) (r : OpRecord) (s : State) : Result :=
  ifUnit (marrowOk l) (s.issueMarrow l r 3 none mreduceRun)

/-- MINDEX gather (R270). -/
def execMindexGather (l : ListId) (r : OpRecord) (s : State) : Result :=
  ifUnit (marrowOk l) (s.issueMarrow l r 4 (some 0) (mindexRun mindexGatherBody))

/-- MINDEX scatter (R270). -/
def execMindexScatter (l : ListId) (r : OpRecord) (s : State) : Result :=
  ifUnit (marrowOk l) (s.issueMarrow l r 4 (some 1) (mindexRun mindexScatterBody))

/-- MINDEX atomic scatter (R271). -/
def execMindexAtomicScatter (l : ListId) (r : OpRecord) (s : State) : Result :=
  ifUnit (marrowOk l) (s.issueMarrow l r 4 (some 2) (mindexRun mindexAtomicBody))

/-- MTILE seal (R272). -/
def execMtileSeal (l : ListId) (r : OpRecord) (s : State) : Result :=
  ifUnit (marrowOk l) (s.issueMarrow l r 5 (some 0) mtileRun)

/-- MTILE verify (R272). -/
def execMtileVerify (l : ListId) (r : OpRecord) (s : State) : Result :=
  ifUnit (marrowOk l) (s.issueMarrow l r 5 (some 1) mtileRun)

/-- MTILE zero-fill (R272). -/
def execMtileZeroFill (l : ListId) (r : OpRecord) (s : State) : Result :=
  ifUnit (marrowOk l) (s.issueMarrow l r 5 (some 2) mtileRun)

/-- MTILE migrate (R272). -/
def execMtileMigrate (l : ListId) (r : OpRecord) (s : State) : Result :=
  ifUnit (marrowOk l) (s.issueMarrow l r 5 (some 3) mtileRun)

end Sys2Proof.Machine
end

