-- ==== Sys2Proof/Machine/Faults.lean ====
section
/-! DEFINITION. The fault log, absorbed faults and the losses that end the device (R353, R465, R466, R476, R477). -/
namespace Sys2Proof.Machine

/-- A fault log entry written (R477): the log keeps the newest 4,096. -/
def State.logEntry (s : State) (e : FaultEntry) : State :=
  let log := s.mram.faultLog ++ [e]
  ({ s with mram := { s.mram with faultLog := log.drop (log.length - 4096) } }).bump64 Reg.faultLogged 1

/-- A fault of a class logged (R466, R477). -/
def State.logFault (s : State) (cls unit sub outcome absorb detail : Nat) : State :=
  s.logEntry ⟨s.now, s.eventTick, cls, unit, sub, outcome, min absorb 0xFFFFFFFF, detail % 2 ^ 32⟩

/-- A fault absorbed (R57, R465): counted, the excursion set, slow notices sent and repeated while it lasts, the entry logged. -/
def State.absorb (s : State) (cls unit sub outcome time detail : Nat) : State :=
  (((s.bump64 Reg.faultAbsorbed 1).excursion 4).startSlow ⟨2, cls * 2 ^ 32 + unit * 2 ^ 16 + sub, 0x20, some (s.now + time)⟩).logFault
    cls unit sub outcome time detail

/-- A fault absorbed within a bound that the spec gives: the time itself is open (R466). -/
def State.absorbWithin (s : State) (cls unit sub outcome bound detail : Nat) : State :=
  let (v, s1) := s.upTo bound
  s1.absorb cls unit sub outcome v detail

/-- A failing tile's recovery as an absorbed fault of class 0x06: its stack or its core's die (R465, R466). -/
def State.absorbTile (s : State) (tile : Nat) : State :=
  let a := tile * 4096
  s.absorbWithin 6 (if a < hbmSize then s.stackOf a else (a - storeBase) / storeSize / 48) 0 0 0xFFFFFFFF tile

/-- A lost notice to every peer (R353): cause 0 protective stop, 1 device-ending fault. -/
def State.lostNotices (s : State) (cause : Nat) : State :=
  s.peerNumbers.foldl (fun s g => s.sendTx (s.mkTx 0x8 5 g 0 cause [])) s

/-- The tick stops at once: a job reset, a protective stop or the end of the device (R21, R44, R239). -/
def State.stopTickNow (s : State) : State :=
  let s1 : State := { s with tick := { s.tick with
    stepRunning := false, overrun := none, rerun := false, stopAt := none, marks := [], halted := false } }
  ((s1.setFld Fld.run 0).setFld Fld.running 0).setFld Fld.stopPending 0

/-- The device ends (R21, R476): lost notices, the job's tick stopped, NEEDS_SERVICE that names the die, DEV_STATE needs service. -/
def State.endDevice (s : State) (die : Nat) : State :=
  let s1 := ((s.lostNotices 1).setDevState 8).stopTickNow
  s1.postEvent (s1.newEvent 0x1A 0 srcDevice 3 die)

/-- The device ends by the loss of a die other than an accelerator die: the spec numbers none of those, so the event's
detail is open. -/
def State.endDeviceOther (s : State) : State :=
  let (v, s1) := s.upTo 255
  s1.endDevice v

/-- A protective stop (R239, R353): sequencers and tick stop, the event is posted and the peers are told. -/
def State.protectiveStop (s : State) (stack celsius : Nat) : State :=
  if s.fld Fld.state = 6 then s
  else
    let s1 := ((s.lostNotices 0).setDevState 6).stopTickNow
    s1.postEvent (s1.newEvent 0x17 0 srcDevice 3 (stack + celsius * 256))

end Sys2Proof.Machine
end

