-- ==== Sys2Proof/Machine/Mailbox.lean ====
section
/-! DEFINITION. Mailboxes (R397 to R405): messages and responses, the checks every command passes before it executes, and
long commands. -/
namespace Sys2Proof.Machine

/-- A mailbox message (R397). -/
structure Msg where
  code : Nat
  status : Nat
  seq : Nat
  len : Nat
  flags : Nat
  cap : Nat
  buf : Nat
  detail : Nat
  body : List Byte
  deriving DecidableEq, Repr

def State.onHost (s : State) (f : HostIf → HostIf) : State := { s with host := f s.host }

/-- `n` bytes of mailbox page k from offset `off`. -/
def State.pageBytes (s : State) (k off n : Nat) : List Byte :=
  (List.range n).map (fun i => Tab.get 0 s.host.pages (k * 4096 + off + i))

def State.setPage (s : State) (k off : Nat) (bs : List Byte) : State :=
  s.onHost (fun h => { h with pages := bs.zipIdx.foldl (fun t e => Tab.set 0 (k * 4096 + off + e.2) e.1 t) h.pages })

/-- A message of its bytes. -/
def Msg.of (bs : List Byte) : Msg :=
  let f (off n : Nat) := fieldLE bs off n
  ⟨f 0 2, f 2 2, f 4 4, f 8 2, f 0xA 2, f 0xC 4, f 0x10 8, f 0x18 8, slice bs 0x20 (min (f 8 2) 4064)⟩

/-- The message in mailbox page k. -/
def State.msg (s : State) (k : Nat) : Msg :=
  let n := ofLE (s.pageBytes k 8 2)
  Msg.of (s.pageBytes k 0 (32 + min n 4064))

/-- A message's bytes (R397). -/
def Msg.bytes (m : Msg) : List Byte :=
  toLE 2 m.code ++ toLE 2 m.status ++ toLE 4 m.seq ++ toLE 2 m.len ++ toLE 2 m.flags ++ toLE 4 m.cap ++ toLE 8 m.buf
    ++ toLE 8 m.detail ++ m.body

/-- A field of the body. -/
def Msg.get (m : Msg) (off n : Nat) : Nat := fieldLE m.body off n

def State.mbxState (s : State) (k : Nat) : Mbx := Tab.get .idle s.host.mbx k
def State.setMbx (s : State) (k : Nat) (v : Mbx) : State := s.onHost (fun h => { h with mbx := Tab.set .idle k v h.mbx })

/-- MBX_BUSY and MBX_DONE bit k (R399). -/
def State.setBusy (s : State) (k : Nat) (on : Bool) : State := s.setFld ⟨Reg.mbxBusy, k, k⟩ (if on then 1 else 0)
def State.setDone (s : State) (k : Nat) (on : Bool) : State := s.setFld ⟨Reg.mbxDone, k, k⟩ (if on then 1 else 0)

/-- Mailbox k is served over UDP (R403). -/
def State.isRemote (s : State) (k : Nat) : Bool := decide (48 ≤ k) && s.fld Fld.remoteMbx = 1

/-- The response to the message of mailbox k: in its page, or to the remote sender as well (R397, R401, R403). -/
def State.answer (s : State) (k : Nat) (m : Msg) (status detail : Nat) (result : List Byte) : State :=
  let big := decide (4064 < result.length)
  let whole := m.buf ≠ 0 && decide (result.length ≤ m.cap)
  let r : Msg := { m with
    status := status
    len := min result.length 4064
    flags := m.flags % 2 + 2 + (if big && !whole then 4 else 0)
    cap := result.length
    detail := detail
    body := result.take 4064 }
  let s1 := if big ∧ m.buf ≠ 0 then s.send (.hostWrite m.buf (result.take m.cap)) else s
  let s2 := (((s1.setPage k 0 r.bytes).setMbx k .done).setBusy k false).setDone k true
  let s3 := s2.onHost (fun h => { h with order := h.order.filter (fun j => j ≠ k) })
  if s.isRemote k then
    let (ip, port) := Tab.get (0, 0) s3.host.remoteFrom k
    (s3.onHost (fun h => { h with
      remoteKept := Tab.put k ((Tab.get ([], []) h.remoteKept k).1, r.bytes) h.remoteKept })).send (.datagram ip port r.bytes)
  else if m.flags % 2 = 1 then s3.signalVector k else s3

/-- A short command done with SUCCESS and a result. -/
def State.done (s : State) (k : Nat) (m : Msg) (result : List Byte) : State := s.answer k m Status.success 0 result

/-- A command rejected: it has no effect (R404). -/
def State.reject (s : State) (k : Nat) (m : Msg) (status detail : Nat) : State := s.answer k m status detail []

/-- The states that do not permit a command: DEV_STATE is the detail (R405). -/
def State.wrongState (s : State) (k : Nat) (m : Msg) : State := s.reject k m Status.wrongState (s.reg Reg.devState).toNat
def State.badField (s : State) (k : Nat) (m : Msg) (off : Nat) : State := s.reject k m Status.badField off

/-- Firmware serves mailboxes: from the end of boot stage 2 on, in PS0 to PS2 (R415, R426). -/
def State.served (s : State) : Bool :=
  (decide (s.fld Fld.state ≠ 0) || decide (3 ≤ s.fld Fld.bootStage)) && decide (s.fld Fld.pstate < 3)

/-- Before READY only DEV_IDENTIFY, DEV_STATUS, SEC_STATUS and POWER_STATUS execute (R415). -/
def State.bootRefuses (s : State) (code : Nat) : Bool := decide (s.fld Fld.state = 0) && !decide (code ∈ [2, 3, 0x601, 0x703])

/-- Reserved bits of the header, the alignment of a result buffer, and its absence on a remote mailbox (R397, R403). -/
def State.headerOk (s : State) (k : Nat) (m : Msg) : Bool :=
  decide (m.flags / 2 = 0) && decide (m.status = 0) && decide (m.detail = 0) && decide (m.buf % 4096 = 0) &&
    (!s.isRemote k || decide (m.buf = 0))

/-- The offset of the first listed field that is wrong. -/
def firstBad (l : List (Bool × Nat)) : Option Nat := (l.find? (fun e => e.1)).map (fun e => e.2)

/-- A non-zero byte among the reserved bytes of a body. -/
def nonZero (m : Msg) (off n : Nat) : Bool := (slice m.body off n).any (fun b => decide (b ≠ 0))

/-- A command's execution: the first posted mailbox in doorbell order holds it; its length and its fields are checked, and
then `f` runs (R400, R404). The spec gives no body offset for a fault in the header: the detail is open there. -/
def State.command (s : State) (k code : Nat) (want : Msg → Nat) (bad : State → Msg → Option Nat)
    (f : State → Msg → State) : State :=
  if !s.served ∨ s.host.order.head? ≠ some k ∨ s.mbxState k ≠ .posted then s
  else
    let m := s.msg k
    if m.code ≠ code then s
    else if s.bootRefuses code then s.wrongState k m
    else if m.len ≠ want m then s.reject k m Status.badLength (want m)
    else if !s.headerOk k m then
      let (v, s1) := s.fresh
      s1.badField k m (v.toNat % 2 ^ 64)
    else
      match bad s m with
      | some off => s.badField k m off
      | none => f s m

/-- A command of no body. -/
def State.plain (s : State) (k code : Nat) (f : State → Msg → State) : State :=
  s.command k code (fun _ => 0) (fun _ _ => none) f

-- long commands (R400, R402)

/-- The running long command whose code is among `cs`. -/
def State.runningOf (s : State) (cs : List Nat) : Option Long :=
  s.host.longs.find? (fun l => decide (l.code ∈ cs) && decide (l.ended = none))

/-- The long command that a message starts. -/
def Long.of (k : Nat) (m : Msg) (ext : List Byte) : Long := ⟨k, m.code, m.seq, m.flags % 2 = 1, none, m.body, ext⟩

/-- A long command started: ACCEPTED, then `f`; BUSY where 16 run, where the same one runs, or where one of `conflicts`
does (R402). -/
def State.startLongExt (s : State) (k : Nat) (m : Msg) (conflicts : List Nat) (ext : List Byte) (f : State → State) : State :=
  match s.runningOf (m.code :: conflicts) with
  | some l => s.reject k m Status.busy l.code
  | none =>
    match s.host.longs with
    | l :: _ =>
      if 16 ≤ s.host.longs.length then s.reject k m Status.busy l.code
      else f ((s.answer k m Status.accepted 0 []).onHost (fun h => { h with
        longs := h.longs ++ [Long.of k m ext] }))
    | [] => f ((s.answer k m Status.accepted 0 []).onHost (fun h => { h with
        longs := [Long.of k m ext] }))

def State.startLong (s : State) (k : Nat) (m : Msg) (conflicts : List Nat) (f : State → State) : State :=
  s.startLongExt k m conflicts [] f

/-- A command that needs the engines runs in PS0 only (R426). -/
def State.ps0 (s : State) : Bool := s.fld Fld.pstate = 0

/-- A job is admitted, or is being admitted (R456). -/
def State.admitted (s : State) : Bool := s.job.isSome
def State.bound (s : State) : Bool := s.job.isSome || decide (s.fld Fld.state = 2)

/-- Bytes of registers as a result carries them. -/
def State.reg32 (s : State) (k : Nat) : List Byte := toLE 4 (s.reg k).toNat
def State.reg64 (s : State) (k : Nat) : List Byte := toLE 8 (s.reg k).toNat

/-- Bytes read from and written to a target (R419). -/
def State.storageMoved (s : State) (target read written : Nat) : State :=
  match Tab.find? s.host.targets target with
  | some t => s.onHost (fun h => { h with targets := Tab.put target { t with read := t.read + read, written := t.written + written } h.targets })
  | none => s

/-- A register page of `n` bytes as it reads (R12). -/
def State.regPage (s : State) (x n : Nat) : List Byte := s.regBytes x n

end Sys2Proof.Machine
end

