-- ==== Sys2Proof/Machine/Receive.lean ====
section
/-! DEFINITION. What every arriving transaction goes through: who may send it (R310, R317)
and the answer of a device that has stopped (R353). -/
namespace Sys2Proof.Machine

/-- A transaction discarded and counted as malformed (R310, R317, R341). -/
def State.malformed (s : State) : State := s.bump64 Reg.fabMalformed 1

/-- The sender is in the peer table (R310). -/
def State.fromPeer (s : State) (tx : Tx) : Bool := (s.peer? tx.src).isSome

/-- The device has stopped for good: a protective stop or a device-ending fault (R353). -/
def State.halted (s : State) : Bool := decide (s.fld Fld.state = 6) || decide (s.fld Fld.state = 8)

/-- A lost notice (R341, R353): cause 0 protective stop, 1 device-ending fault. -/
def State.lostNotice (s : State) (g : Nat) : State :=
  s.sendTx (s.mkTx 0x8 5 g 0 (if s.fld Fld.state = 6 then 0 else 1) [])

/-- A transaction on its way to another device: passed on with one hop more by the port on its source's route, or discarded where
that port is not in service (R306, R312, R313). -/
def State.passOn (s : State) (tx : Tx) : State :=
  match s.passPort tx.src tx.dst with
  | some p => if tx.hops < 7 ∧ s.inService s.gdn p then s.sendBy p { tx with hops := tx.hops + 1 } else s
  | none => s

/-- What a transaction does here, where it is for this device. -/
def State.arrives (s : State) (tx : Tx) (f : State → State) : State := if tx.dst = s.gdn then f s else s.passOn tx

/-- A request from a peer served by `f`: one from another device is refused, and a stopped device answers with a lost
notice (R310, R353). `dup` answers a duplicate (R320). -/
def State.serveRequest (s : State) (tx : Tx) (type : Nat) (dup f : State → State) : State :=
  if tx.type ≠ type then s.malformed
  else s.arrives tx (fun s =>
    if s.halted then s.lostNotice tx.src
    else if !s.fromPeer tx then s.malformed.refuse tx Status.addressFault
    else if s.marked tx.src tx.seq then dup (s.bump64 Reg.fabDup 1)
    else if s.holding tx.src tx.seq then s
    else f s)

/-- A refused request counts as performed: its number is marked (R320). -/
def State.refuseRequest (s : State) (tx : Tx) (status : Nat) : State := (s.mark tx.src tx.seq).refuse tx status

/-- A control transaction of this operation from a peer (R310, R341). -/
def State.control (s : State) (tx : Tx) (op : Nat) (f : State → State) : State :=
  s.arrives tx (fun s => if tx.type = 8 ∧ tx.op = op ∧ s.fromPeer tx then f s else s.malformed)

end Sys2Proof.Machine
end

