-- ==== Sys2Proof/Machine/Requests.lean ====
section
/-! DEFINITION. Requests of peers served at their home (R288 to R290, R292, R317 to R320, R336 to R348, R356): reads, writes,
atomics, credits, enqueues and dequeues; and the requests that wait to start (R20, R175, R318). -/
namespace Sys2Proof.Machine

/-- The request names bytes of this device that a remote device may reach (R30, R31). -/
def State.remoteOk (s : State) (tx : Tx) (write : Bool) (n : Nat) : Bool :=
  decide (tx.addr / 2 ^ 48 = s.gdn) && decide (1 ≤ n ∧ n ≤ 512) && s.mayReach .remote write (txAddr tx) n

/-- A line of the request has an uncorrectable error (R223). -/
def State.badLines (s : State) (tx : Tx) : Bool := (txLines tx).any (fun l => s.memory.bad.any (fun b => b.1 = l))

/-- A read or write joins the commit queues, behind atomics of its stream that wait for the journal (R318, R347). -/
def State.arriveInOrder (s : State) (tx : Tx) : State :=
  if s.fabric.leekWait.any (fun w => behind w.2 tx) then s.onFabric (fun f => { f with leekWait := f.leekWait ++ [(s.now, tx)] })
  else s.arrive tx

/-- A read served (R317): job HBM through the commit queues, a core store at once. Data that fails its check is never
returned: the sender is refused and asks again (R228). -/
def State.serveRead (s : State) (tx : Tx) : State :=
  if !s.remoteOk tx false tx.len then s.refuseRequest tx Status.addressFault
  else if rangeOf (txAddr tx) = .hbm then
    if s.badLines tx then s.refuseRequest tx Status.integrityFault else s.arriveInOrder tx
  else ((txLines tx).foldl (fun s l => s.noteTile tx l) s).answerRead tx (s.rd (txAddr tx) tx.len) []

/-- A request answered once its write has been performed. -/
def State.answerLater (s : State) (tx : Tx) : State :=
  (s.onFabric (fun f => { f with
    nextServe := f.nextServe + 1, serving := f.serving ++ [⟨f.nextServe, [tx], [], [], s.now⟩] })).finishServes

/-- A write served (R319). -/
def State.serveWriteReq (s : State) (tx : Tx) : State :=
  if tx.data.length ≠ tx.len ∨ !s.remoteOk tx true tx.len then s.refuseRequest tx Status.addressFault
  else if rangeOf (txAddr tx) = .hbm then s.arriveInOrder tx
  else (s.write (originOf tx) (txAddr tx) tx.data).answerLater tx

-- launch writes (R356, R357)

/-- The launch that takes a write from this device: it comes from the parent, into the payload's range. -/
def State.launchFor (s : State) (tx : Tx) : Option (Nat × Launch) :=
  List.find? (fun (e : Nat × Launch) => decide (tx.stream = 0x8000) && decide (e.2.parent = some tx.src) &&
    decide (e.2.dest ≤ txAddr tx ∧ txAddr tx + tx.len ≤ e.2.dest + e.2.length)) s.fabric.launches

/-- A launch write performed: the chunk it completes is held (R356). -/
def State.launchWrite (s : State) (id : Nat) (l : Launch) (tx : Tx) : State :=
  let s1 := (s.write (originOf tx) (txAddr tx) tx.data).answerWrite tx
  let next := decide (txAddr tx = l.dest + l.held * 65536 + l.gotBytes)
  let got := if next then l.gotBytes + tx.len else l.gotBytes
  let l1 : Launch := { l with
    lastHeard := s.now
    held := if got = 65536 then l.held + 1 else l.held
    gotBytes := if got = 65536 then 0 else got }
  (s1.setLaunch id l1).launchHeldCheck id

-- atomics

/-- A ranked float add at its home (R198, R199). -/
def State.serveRanked (s : State) (tx : Tx) : State :=
  let (s1, r) := s.rankArrive ⟨txAddr tx, txCompare tx % 2 ^ 32, originOf tx, txOperand tx % 2 ^ (8 * atomicWidth tx.word),
    tx.word, 0, s.now⟩
  match r with
  | .applied old _ => (s1.journal tx old).answerLater tx
  | .waits => s1
  | .duplicate => s1.refuseRequest tx Status.addressFault

/-- An atomic that the journal has room for (R346, R347). -/
def State.serveAtomic (s : State) (tx : Tx) : State := if tx.ranked then s.serveRanked tx else s.arrive tx

/-- The request is an atomic that this home performs: an operation of R172, aligned, in job HBM; a float add bears a rank
exactly where this device runs under repro (R197, R199). The header of R315 tells a float minimum or maximum of a reproducible
op from no other, so that it is performed (log entry 118). -/
def State.atomicOk (s : State) (tx : Tx) : Bool :=
  let w := atomicWidth tx.word
  decide (atomicOp tx.word ≤ 10) && decide (txAddr tx % w = 0) && decide (rangeOf (txAddr tx) = .hbm) &&
    s.remoteOk tx true w && decide (tx.ranked = (decide (atomicOp tx.word = 8) && decide (s.fld Fld.repro = 1)))

/-- A retried atomic whose number is marked (R348). -/
def State.retryAtomic (s : State) (tx : Tx) : State :=
  match s.leekOf tx.src tx.seq with
  | some e =>
    if e.stream = tx.stream ∧ e.addr = txAddr tx ∧ e.opByte = tx.word then
      (s.reply tx 0 (toLE 8 e.old) false).bump64 Reg.leekHit 1
    else s.refuse tx Status.addressFault
  | none => (s.refuse tx Status.outcomeUnknown).bump64 Reg.leekUnknown 1

/-- An atomic request served (R317, R346, R347). -/
def State.serveAtomicReq (s : State) (tx : Tx) : State :=
  if !s.atomicOk tx then s.refuseRequest tx Status.addressFault
  else if s.badLines tx then s.refuseRequest tx Status.integrityFault
  else if s.leekReady then s.serveAtomic tx
  else s.onFabric (fun f => { f with leekWait := f.leekWait ++ [(s.now, tx)] })

/-- The waiting requests that go on, and those that still wait: the atomics, and what is behind one (R318). -/
def leekSplit (ws : List (Nat × Tx)) : List (Nat × Tx) × List (Nat × Tx) :=
  ws.foldl (fun a w =>
    if w.2.type ≠ 3 ∧ !(a.2.any (fun v => behind v.2 w.2)) then (a.1 ++ [w], a.2) else (a.1, a.2 ++ [w])) ([], [])

/-- The first atomic that waits for room in LEEK goes on (R347), and what waited behind it. -/
def State.leekNext (s : State) : State :=
  match s.fabric.leekWait with
  | [] => s
  | (t, tx) :: rest =>
    let s1 := ((s.onFabric (fun f => { f with leekWait := (leekSplit rest).2 })).bump64 Reg.leekFullWait (s.now - t)).serveAtomic tx
    (leekSplit rest).1.foldl (fun s w => s.arrive w.2) s1

/-- A rank wait of a remote atomic as the request that it was. -/
def State.rankTx (s : State) (w : RankWait) (src seq stream : Nat) : Tx :=
  { s.mkTx 3 0 s.gdn (s.gdn * 2 ^ 48 + w.addr) w.opByte (toLE 8 w.operand ++ toLE 8 w.rank) with
    src := src, seq := seq, stream := stream, ranked := true }

-- queues

/-- A credit request served (R290): the packet is reserved and the credit granted, or the request waits in the queue's state. -/
def State.serveCredit (s : State) (tx : Tx) : State :=
  let q := tx.addr % 2 ^ 20
  match s.qdef? q with
  | none => s.refuseRequest tx Status.addressFault
  | some d =>
    match d.landing? tx.word with
    | none => s.refuseRequest tx Status.addressFault
    | some m =>
      if d.producer ≠ remoteAgentWord tx.src tx.stream then s.refuseRequest tx Status.addressFault
      else s.ask q (.of m tx.word [] (originOf tx) s.now)

/-- A repeated credit request gets the original grant (R290, R320). -/
def State.repeatCredit (s : State) (tx : Tx) : State :=
  match s.fabric.credits.find? (fun c => decide (c.queue = tx.addr % 2 ^ 20) && decide (c.src = tx.src) && decide (c.seq = tx.seq)) with
  | some c => s.reply tx c.size [] false
  | none => s

/-- Landing entries of a packet that can land now and have not. -/
def QDef.ready (d : QDef) (k : Packet) : List Nat :=
  (List.range k.size).filter (fun j => !(j ∈ k.landed) && (d.contributes k.prod j).all (fun i => (Tab.find? k.arrived i).isSome))

/-- Entries of a granted packet arrive: they land, and the counters of their conversion return with the acknowledgement, which
comes once they have landed and nothing of that waits (R288, R293, R319): four 4-byte counts in the order of R176. -/
def State.takeEntries (s : State) (q : Nat) (d : QDef) (k : Packet) (tx : Tx) : State :=
  let first := tx.addr / 2 ^ 32 % 2 ^ 16
  let es := chunksOf 64 8 tx.data
  let k1 : Packet := { k with arrived := es.zipIdx.foldl (fun a e => Tab.put (first + e.2) e.1 a) k.arrived }
  let ready := d.ready k1
  let c := Counters.zero.addAll (ready.flatMap (fun j => (d.landBytes k1.prod k1.arrived j).2.map (fun v => v.2)))
  let ack := toLE 4 c.saturated ++ toLE 4 c.flushed ++ toLE 4 c.nan ++ toLE 4 c.inexact
  let s1 := s.setQueue q ((s.queue q).setPacket k1)
  let s2 := ready.foldl (fun s j => s.landAt (originOf tx) q (k.start + j)) s1
  let s3 := s2.onFabric (fun f => { f with
    nextServe := f.nextServe + 1, serving := f.serving ++ [⟨f.nextServe, [tx], [], [(0, ack)], s.now⟩] })
  s3.afterLanding q (originOf tx)

/-- An enqueue transaction served (R288, R290): the operation word names the credit's request, the address the queue and, above
it, the first entry's place in the packet (log entry 30). -/
def State.serveEnqueue (s : State) (tx : Tx) : State :=
  let q := tx.addr % 2 ^ 20
  match s.qdef? q, s.fabric.credits.find? (fun c => decide (c.queue = q) && decide (c.src = tx.src) && decide (c.seq = tx.word)) with
  | some d, some c =>
    match (s.queue q).packetOf c.start with
    | some k => s.takeEntries q d k tx
    | none => s.refuseRequest tx Status.addressFault
  | _, _ => s.refuseRequest tx Status.addressFault

/-- Entries of a repeated dequeue: those kept, or those of the claim that have been read (R320). -/
def State.repeatDequeue (s : State) (tx : Tx) : State :=
  let q := tx.addr % 2 ^ 20
  match s.fabric.deqKept.find? (fun k => decide (k.1 = tx.src) && decide (k.2.1 = tx.seq)) with
  | some k => k.2.2.zipIdx.foldl (fun s e => s.reply tx e.2 e.1 false) s
  | none =>
    match (s.queue q).deqs.find? (fun d => d.origin = originOf tx) with
    | some d => d.read.foldl (fun s p => s.reply tx (p - d.first) (s.entryBytes q p) false) s
    | none => s

/-- A dequeue served (R292): the entries are claimed, and returned as they are released. A repetition of a claim that is not yet
performed gets the entries that have been read (R320). -/
def State.serveDequeue (s : State) (tx : Tx) : State :=
  let q := tx.addr % 2 ^ 20
  if (s.queue q).deqs.any (fun d => d.origin = originOf tx) then (s.bump64 Reg.fabDup 1).repeatDequeue tx
  else if !(s.qdef? q).any (fun d => d.consumer = remoteAgentWord tx.src tx.stream) ∨ tx.word = 0 ∨ 256 < tx.word then
    s.refuseRequest tx Status.addressFault
  else
    let s1 := s.needSlot q
    let x := s1.queue q
    let s2 := s1.setQueue q { x with
      pos := { x.pos with c := x.pos.c + tx.word }
      deqs := x.deqs ++ [⟨x.pos.c, tx.word, [], originOf tx⟩] }
    (s2.refillHead q).serveDeqs q

-- requests that may not start yet (R20, R175, R318)

/-- A request that may start, served by its type. -/
def State.serveNow (s : State) (tx : Tx) : State :=
  match tx.type with
  | 1 => s.serveRead tx
  | 2 => s.serveWriteReq tx
  | 3 => s.serveAtomicReq tx
  | 4 => s.serveCredit tx
  | 5 => s.serveEnqueue tx
  | _ => s.serveDequeue tx

/-- A request that came at `since`: served, or held behind those that are held. -/
def State.takeRequest (s : State) (since : Nat) (tx : Tx) : State :=
  if s.mustHold tx then s.onFabric (fun f => { f with held := f.held ++ [(since, tx)] }) else s.serveNow tx

/-- Held requests that may start now served in their order (R318). -/
def State.releaseHeld (s : State) : State :=
  s.fabric.held.foldl (fun s w => s.takeRequest w.1 w.2) (s.onFabric (fun f => { f with held := [] }))

/-- After writes that had waited may have been performed, the requests that were held behind them go on too. -/
def State.goOn (s : State) : State := s.afterWrites.releaseHeld

end Sys2Proof.Machine
end

