-- ==== Sys2Proof/Machine/Time.lean ====
section
/-! DEFINITION. The time base (R35 to R41, R488, R489): time states, measured offsets, frequency steering, PTP, fabric
time and the time leads, the 1PPS input and output. -/
namespace Sys2Proof.Machine

/-- The time source in force (R37). -/
def State.timeSource (s : State) : Nat := s.fld Fld.timeSrc

/-- The time state entered; a time lead is a LOCKED device with a source of its own (R38), and HOLDOVER notes its start
and the excursion of the tick record (R41, R60). -/
def State.setTimeState (s : State) (v : Nat) : State :=
  let s1 := (s.setFld Fld.timeState v).setFld Fld.timeLead
    (if v = 2 ∧ (s.timeSource = 0 ∨ s.timeSource = 2) then 1 else 0)
  if v = 3 then { s1 with time := { s1.time with holdoverStart := s.now, good := 0 } }.excursion 5
  else { s1 with time := { s1.time with good := 0 } }

/-- An event of R408 with the measured offset as its detail. -/
def State.timeFault (s : State) (o : Int) : State := s.postEvent (s.newEvent 0x12 0 srcDevice 1 (patternOf 64 o))

/-- Time stepped back by `o` ns. What sequencers have waited is counted before, and they wait on from the new time. -/
def State.shiftTime (s : State) (o : Int) : State :=
  (s.settleWaits.setReg Reg.tckTime (BitVec.ofInt 64 ((s.now : Int) - o))).markWaits

/-- Time stepped to the source, from which it is `o` ns away; the device acquires again (R40). -/
def State.stepTime (s : State) (o : Int) : State := (s.shiftTime o).setTimeState 1

/-- The frequency steered (R40): by a rate of at most 50 ppm, which the spec leaves open within that bound (log entry 97). -/
def State.steer (s : State) : State :=
  let (v, s1) := s.upTo 100000
  { s1 with time := { s1.time with rate := (v : Int) - 50000 } }

/-- One nanosecond of the oscillator passes: device time counts it at the steered rate, the parts of a nanosecond kept (R35, R40). -/
def State.passNs (s : State) : State :=
  let v := s.time.phase + s.time.rate
  let k : Nat := if 1000000000 ≤ v then 2 else if v ≤ -1000000000 then 0 else 1
  { s.at_ (s.now + k) with time := { s.time with phase := v - ((k : Int) - 1) * 1000000000 } }

/-- One good measurement more: LOCKED after 16 (R39, R489). -/
def State.goodTime (s : State) : State :=
  let s1 : State := { s with time := { s.time with good := s.time.good + 1 } }
  if 16 ≤ s1.time.good then s1.setTimeState 2 else s1

/-- The tick is armed or runs, or has yet to stop. Where the spec says 'while the tick runs' (R39, R40) or 'while the tick is stopped'
(R43, R72), the time from TICK_ARM to tick 0 and the time to a pending stop count as running (DESIGN CHOICE, log entry 125). -/
def State.armed (s : State) : Bool := s.fld Fld.run = 1 || s.fld Fld.running = 1 || s.fld Fld.stopPending = 1

/-- A measured offset from the source (R39, R40). `ok`: it counts toward LOCKED. -/
def State.measure (s : State) (o : Int) (ok : Bool) : State :=
  let s1 : State := { s with time := { s.time with offset := o } }
  let far := 1000 < o.natAbs
  match s.fld Fld.timeState with
  | 1 =>
    if far ∧ !s.armed then s1.stepTime o
    else if ok then s1.goodTime
    else { s1 with time := { s1.time with good := 0 } }
  | 2 => if !far then s1.steer else if s.armed then (s1.setTimeState 3).timeFault o else s1.stepTime o
  | 3 => if s.armed then s1 else s1.stepTime o
  | _ => s1

/-- The source is lost (R39): LOCKED becomes HOLDOVER, and an acquisition starts over. -/
def State.loseTime (s : State) : State :=
  if s.fld Fld.timeState = 2 then s.setTimeState 3
  else { s with time := { s.time with good := 0 } }

-- PTP (R36)

/-- PTP uses Ethernet port p (R72): under source 0b00, and for the time of day under 0b10 (R37). -/
def State.ptpOn (s : State) (p : Nat) : Bool :=
  (s.timeSource = 0 || s.timeSource = 2) && p < 2 && bitOf s.time.ptpPorts p

/-- Two-step operation (R72): the one-step bit clear. -/
def State.twoStep (s : State) : Bool := !bitOf s.time.ptpPorts 2

/-- The transport in use (R72). -/
def State.ptpTransport (s : State) : PtpTransport :=
  if bitOf s.time.ptpPorts 3 then .ethernet else if bitOf s.time.ptpPorts 4 then .udp6 else .udp4

/-- Rank a comes before rank b in the best master clock algorithm: lower values first, in the order of the fields. -/
def rankBefore (a b : PtpRank) : Bool :=
  a.priority1 < b.priority1 || (a.priority1 = b.priority1 && (a.quality < b.quality || (a.quality = b.quality &&
    (a.priority2 < b.priority2 || (a.priority2 = b.priority2 && a.identity < b.identity)))))

/-- The device's own clock as it announces it (R72; its quality and identity are open, log entry 127). -/
def State.ptpOwn (s : State) : PtpRank :=
  ⟨s.time.ptpPriority1, Config.ptpQuality, s.time.ptpPriority2, Config.ptpIdentity⟩

/-- The states of an Ethernet port under the best master clock algorithm (R36). -/
inductive PtpPort where
  | listening | slave | master | passive
  deriving DecidableEq, Repr

/-- State of Ethernet port p (R36, R72; log entry 127): slave where the best clock is heard and is better than this device's own, or
whatever it is with role 0; of the other port a boundary clock is master, an ordinary clock uses none. A device that may be master and
hears none better is. -/
def State.ptpPort (s : State) (p : Nat) : PtpPort :=
  match s.time.best with
  | none => if s.time.ptpRole = 0 then .listening else .master
  | some (q, r) =>
    if s.time.ptpRole ≠ 0 ∧ rankBefore s.ptpOwn r then .master
    else if p = q then .slave
    else if s.time.ptpRole = 2 then .master
    else .passive

/-- An announce message heard on port p: the best clock announced so far, as its own newest announcement has it. -/
def State.hearClock (s : State) (p : Nat) (r : PtpRank) : State :=
  if s.time.best.all (fun b => rankBefore r b.2 || (decide (b.1 = p) && decide (b.2.identity = r.identity))) then
    { s with time := { s.time with best := some (p, r) } }
  else s

/-- The whole seconds of an offset from PTP, which supplies the time of day under source 0b10 (R37): a step while the tick is
stopped (R40). -/
def State.setSecond (s : State) (o : Int) : State :=
  let n := (o + 500000000) / 1000000000
  if n = 0 ∨ s.armed then s else s.shiftTime (n * 1000000000)

/-- An offset that a PTP message completes, taken on the slave port. -/
def State.ptpOffset (s : State) (p : Nat) (o : Int) : State :=
  if s.ptpPort p ≠ .slave then s
  else if s.timeSource = 0 then s.measure o (o.natAbs ≤ 20)
  else s.setSecond o

/-- PTP_MESSAGE (R36, R37): an announce message may change which clock is the best; an offset that a message completes on the
slave port moves the time state, or sets the time of day; a delay request is answered by a master port, a peer delay request by every
port of that profile. Management messages, and those of another domain or transport, are ignored. -/
def execPtpMessage (m : PtpMsg) (s : State) : Result :=
  ifUnit (m.port < 2) (
    if !s.ptpOn m.port ∨ m.domain ≠ s.time.ptpDomain ∨ m.transport ≠ s.ptpTransport then s
    else
      match m.kind with
      | .management => s
      | .announce =>
        match m.announce with
        | some r => s.hearClock m.port r
        | none => s
      | .delayReq =>
        if s.ptpPort m.port = .master ∧ s.time.ptpProfile = 0 then s.send (.ptp m.port .delayResp s.now) else s
      | .pdelayReq =>
        if s.time.ptpProfile = 1 then
          let s1 := s.send (.ptp m.port .pdelayResp s.now)
          if s.twoStep then s1.send (.ptp m.port .pdelayRespFollowUp s.now) else s1
        else s
      | _ =>
        match m.offset with
        | some o => s.ptpOffset m.port o
        | none => s)

/-- PTP_SYNC_SEND (R36): from a master port, a sync message, with its follow-up in two-step operation. -/
def execPtpSyncSend (p : Nat) (s : State) : Result :=
  ifUnit (p < 2) (
    if s.ptpOn p ∧ s.ptpPort p = .master then
      let s1 := s.send (.ptp p .sync s.now)
      if s.twoStep then s1.send (.ptp p .followUp s.now) else s1
    else s)

/-- DELAY_REQUEST_SEND (R36): a delay request from a slave port in the default profile, a peer delay request from every port in the
peer-to-peer one. -/
def execDelayRequestSend (p : Nat) (s : State) : Result :=
  ifUnit (p < 2) (
    if s.ptpOn p then
      if s.time.ptpProfile = 1 then s.send (.ptp p .pdelayReq s.now)
      else if s.ptpPort p = .slave then s.send (.ptp p .delayReq s.now)
      else s
    else s)

-- fabric time (R37, R38)

/-- Number of the neighbour on in-sled or cross-sled port p (R299). -/
def State.neighbour (s : State) (p : Nat) : Nat :=
  let g := s.gdn
  if p < 7 then devOf (podOf g) (sledOf g) ((slotOf g + 1 + p) % 8)
  else devOf (podOf g) ((sledOf g + 1 + (p - 7)) % 32) (slotOf g)

/-- Hops between two devices of a pod. -/
def hopsBetween (a b : Nat) : Nat := (if sledOf a = sledOf b then 0 else 1) + (if slotOf a = slotOf b then 0 else 1)

/-- Fabric time sent on the ports in service among `ps`, as time transactions of R317: device time in the address field, the lead's
number and its being LOCKED in bits [15:0] and [16] of the operation word (DESIGN CHOICE, log entry 126). -/
def State.sendTime (s : State) (lead : Nat) (ps : List Nat) : State :=
  (ps.filter (fun p => s.inService s.gdn p)).foldl
    (fun s p => s.sendBy p (s.mkTx 9 0 (s.neighbour p) s.now (lead % 2 ^ 16 + 2 ^ 16) [])) s

/-- Ports that lead away from the lead. -/
def State.awayFrom (s : State) (lead : Nat) : List Nat :=
  (List.range 38).filter (fun p => hopsBetween lead s.gdn < hopsBetween lead (s.neighbour p))

/-- FABRIC_TIME_SEND (R38): a LOCKED time lead sends time on every in-sled and cross-sled port in service. -/
def execFabricTimeSend (s : State) : Result :=
  .next (if s.fld Fld.timeLead = 1 then s.sendTime s.gdn (List.range 38) else s)

/-- TIME_TRANSACTION (R37, R38): a follower follows the lowest lead whose time reaches it and forwards that lead's time; a
device with a source of its own is a lead whatever its time state, and one that hears a lower lead reports the conflict once and
keeps its source. -/
def execTimeTransaction (p lead : Nat) (offset : Int) (locked : Bool) (s : State) : Result :=
  ifUnit (p < 48 && lead < 65536) (
    if s.timeSource = 1 then
      if s.time.lead.any (fun l => decide (l < lead)) then s
      else if !locked then
        (if s.time.lead = some lead then { s.loseTime with time := { s.loseTime.time with lead := none } } else s)
      else
        let s1 : State := { s with time := { s.time with lead := some lead } }
        (s1.measure offset (offset.natAbs ≤ 20)).sendTime lead (s1.awayFrom lead)
    else if s.timeSource ≠ 3 ∧ lead < s.gdn then
      let s1 : State := { s with time := { s.time with lowerLead := some s.now } }
      if s.fld Fld.leadConflict = 1 then s1 else (s1.setFld Fld.leadConflict 1).timeFault offset
    else s)

/-- LEAD_CONFLICT_EXPIRY (R38): the lower lead's time has not come for 1 s. -/
def execLeadConflictExpiry (s : State) : Result :=
  .next (match s.time.lowerLead with
    | some t =>
      let s1 := s.at_ (t + us 1000000)
      ({ s1 with time := { s1.time with lowerLead := none } }).setFld Fld.leadConflict 0
    | none => s)

/-- LINK_DELAY_MEASUREMENT (R37, R333): the port's one-way delay. -/
def execLinkDelayMeasurement (p ns : Nat) (s : State) : Result :=
  ifUnit (p < 48) (s.setFld ⟨Reg.portDelay p, 31, 0⟩ ns)

-- sources (R39, R41, R488, R489)

/-- TIME_SOURCE_LOSS (R39, R489): the selected source, or under source 0b10 one of its two inputs, is lost. -/
def execTimeSourceLoss (i : TimeInput) (s : State) : Result :=
  .next (match i with
    | .source =>
      if s.timeSource = 0 ∨ s.timeSource = 1 then
        let s1 := s.loseTime
        { s1 with time := { s1.time with lead := none, best := none } }
      else s
    | .tenMhz =>
      let s1 := s.setFld Fld.tenMhz 0
      if s.timeSource = 2 then s1.loseTime else s1
    | .pps =>
      let s1 := s.setFld Fld.pps 0
      if s.timeSource = 2 then s1.loseTime else s1)

/-- TIME_1PPS_EDGE (R489): the edge marks the second under time source 0b10; 16 consecutive pulses with both inputs
present lock time, and the loss of either input ends LOCKED. -/
def execTime1ppsEdge (tenMhzPresent spacingOk : Bool) (offset : Int) (s : State) : Result :=
  .next (
    let s1 := (s.setFld Fld.tenMhz (if tenMhzPresent then 1 else 0)).setFld Fld.pps (if spacingOk then 1 else 0)
    if s.timeSource ≠ 2 then s1
    else if tenMhzPresent && spacingOk then s1.measure offset true
    else s1.loseTime)

/-- PPS_OUT_EDGE (R488): an edge at the next whole second of device time, driven in LOCKED and HOLDOVER. -/
def execPpsOutEdge (s : State) : Result :=
  .next (
    if s.fld Fld.timeState = 2 ∨ s.fld Fld.timeState = 3 then
      let s1 := s.at_ ((s.now / us 1000000 + 1) * us 1000000)
      s1.send (.pps s1.now)
    else s)

end Sys2Proof.Machine
end

