-- ==== Sys2Proof/Machine/Checkpoint.lean ====
section
/-! DEFINITION. Checkpoints (R362 to R384): capture, the copy engine, commit, export, restore, and the commands of the
0x0400 range. -/
namespace Sys2Proof.Machine

def State.onCkpt (s : State) (f : Ckpt → Ckpt) : State := { s with ckpt := f s.ckpt }

-- pieces (R362, R363)

def Piece.f (p : Piece) (off n : Nat) : Nat := fieldLE p.raw off n
def Piece.id (p : Piece) : Nat := p.f 0 4
def Piece.kind (p : Piece) : Nat := p.f 4 1
def Piece.dims (p : Piece) : Nat := p.f 5 1
def Piece.fmtByte (p : Piece) : Nat := p.f 6 1
def Piece.q (p : Piece) : Nat := p.f 7 1
def Piece.start (p : Piece) (d : Nat) : Nat := p.f (0x08 + 4 * d) 4
def Piece.extent (p : Piece) (d : Nat) : Nat := p.f (0x28 + 4 * d) 4
def Piece.stride (p : Piece) (d : Nat) : Int := signedOf 64 (p.f (0x48 + 8 * d) 8)
def Piece.width (p : Piece) : Nat := Ctl.width ⟨p.fmtByte % 16, p.fmtByte / 16 % 2 = 1, p.q, p.fmtByte / 32 % 4⟩

/-- A piece of its 160 bytes. -/
def Piece.of (raw : List Byte) : Piece := ⟨raw, fieldLE raw 0x88 6, fieldLE raw 0x90 8⟩

/-- Opaque pieces (R363): queue memory, the context, elements narrower than 8 bits, and scaled tensors. -/
def Piece.opaque_ (p : Piece) : Bool := decide (p.kind ≠ 0) || decide (p.width < 8) || decide (p.fmtByte / 32 % 4 ≠ 0)

/-- Bytes of an element as the coordinates count them. -/
def Piece.elem (p : Piece) : Nat := if p.opaque_ then 1 else p.width / 8

/-- Granules that the pieces touch, ascending (R368). -/
def State.pieceGranules (s : State) (ps : List Piece) : Tab Gran :=
  ps.foldl (fun t p => (List.range (p.span / 4096)).foldl (fun t i => Tab.put (s.granuleOf (p.base + i * 4096)) Gran.pending t) t) []

-- capture (R365 to R367)

/-- c48 to c63 of 192 lists from `first`, 64 bytes each. -/
def State.contextOf (s : State) (first : Nat) : List Byte :=
  (List.range 192).flatMap (fun i => (List.range 16).flatMap (fun j => toLE 4 (s.count (first + i) (48 + j))))

/-- The context record: 65,536 bytes (R365). -/
def State.contextBytes (s : State) : List Byte := padTo 65536 (s.contextOf 0 ++ s.contextOf 192)

def QDef.isJob (d : QDef) : Bool := !d.measurement && !d.actuation

/-- A resident job queue's windows and positions written back at the capture instant; no copy is made for these writes, and
accesses to the queue wait until the write-back is done (R367). -/
def State.captureQueue (s : State) (q : Nat) : State :=
  match s.qdef? q with
  | none => s
  | some d =>
    if !d.isJob || !(s.queue q).resident then s
    else
      let s1 := (s.writeBack .firmware q).saveRecord .firmware q
      s1.setQueue q { s1.queue q with writeback := true }

def State.slot (s : State) (i : Nat) : Slot := if i = 0 then s.ckpt.slotA else s.ckpt.slotB
def State.setSlot (s : State) (i : Nat) (x : Slot) : State :=
  (s.onCkpt (fun c => if i = 0 then { c with slotA := x } else { c with slotB := x })).setReg
    (if i = 0 then Reg.ckpGenA else Reg.ckpGenB) (BitVec.ofNat 64 (if x.committed then x.gen else 0))

/-- The target of a checkpoint (R374, R378): an empty slot, or the one with the lower generation; never one under export. -/
def State.targetSlot (s : State) : Nat :=
  let a := s.ckpt.slotA
  let b := s.ckpt.slotB
  if s.ckpt.exporting = some 0 then 1
  else if s.ckpt.exporting = some 1 then 0
  else if !a.committed then 0
  else if !b.committed then 1
  else if a.gen < b.gen then 0 else 1

/-- Bytes written to the module (R383). -/
def State.toModule (s : State) (n : Nat) : State := s.bump64 Reg.moduleBytes n

/-- An access waits on the queue: a reservation, an entry that has come, or a dequeue of a released entry (R367). -/
def Queue.accessWaits (x : Queue) : Bool :=
  !x.waiting.isEmpty ||
  x.packets.any (fun k => k.arrived.any (fun e => !(decide (e.1 ∈ k.landed)))) ||
  x.deqs.any (fun d => (List.range d.n).any (fun i => decide (d.first + i < x.pos.l) && !(decide (d.first + i ∈ d.read))))

-- the copy (R368 to R370)

/-- The granule of a stack that is written to the module next: saved ones first, then pending ones, ascending. -/
def State.nextGranule (s : State) (stack : Nat) : Option Nat :=
  let mine := s.ckpt.grans.filter (fun e => granuleStack e.1 = stack)
  match List.find? (fun (e : Nat × Gran) => match e.2 with
    | .saved _ => true
    | _ => false) mine with
  | some e => some e.1
  | none => (List.find? (fun (e : Nat × Gran) => e.2 = .pending) mine).map (fun e => e.1)

-- the shard (R373, R374)

/-- A byte of the captured state. -/
def Slot.byte (x : Slot) (s : State) (a : Nat) : Byte :=
  match Tab.find? x.data (s.granuleOf a) with
  | some im => Tab.get 0 im.cells a
  | none => 0

/-- A tile's entry of a tag stream: CRC-32C and the sealed bit. -/
def Slot.tagBytes (x : Slot) (s : State) (t : Nat) : List Byte :=
  let g := match Tab.find? x.data (s.granuleOf (t * 4096)) with
    | some im => Tab.get Tag.none im.tags t
    | none => Tag.none
  toLE 8 (if g.isSealed then g.crc.toNat + 2 ^ 32 else 0)

/-- A record of a shard: the piece entry, its data and its tag stream. -/
structure ShardRec where
  entry : List Byte
  data : List Byte
  tags : List Byte
  deriving DecidableEq, Repr

/-- SHA-384 as 48 bytes. -/
def sha384Bytes (bs : List Byte) : List Byte := (toLE 48 (Config.sha384 bs).toNat).reverse

/-- The entry of the context record (R365). -/
def contextEntry : List Byte :=
  toLE 4 0 ++ [0x02, 0x01, 0x00, 0x00] ++ List.replicate 32 0 ++ toLE 4 65536 ++ (List.replicate 7 (toLE 4 1)).flatten
    ++ toLE 8 1 ++ List.replicate 56 0 ++ toLE 8 0 ++ toLE 8 65536 ++ List.replicate 8 0

/-- The records of a slot: the pieces in table order, then the context (log entry 16). -/
def Slot.records (x : Slot) (s : State) (ps : List Piece) : List ShardRec :=
  ps.map (fun p => ⟨p.raw, (List.range p.span).map (fun i => x.byte s (p.base + i)),
    (List.range (p.span / 4096)).flatMap (fun i => x.tagBytes s (p.base / 4096 + i))⟩)
    ++ [⟨contextEntry, x.context, List.replicate 128 0⟩]

/-- Shard records with their offsets from `off` on (R374). -/
def shardRecords (off : Nat) : List ShardRec → List Byte
  | [] => []
  | r :: rest =>
    let t := off + r.data.length
    r.entry ++ toLE 8 off ++ toLE 8 t ++ sha384Bytes (r.data ++ r.tags) ++ List.replicate 32 0
      ++ shardRecords (t + r.tags.length) rest

/-- The manifest of a slot (R374). -/
def Slot.manifestOf (x : Slot) (s : State) (j : Job) (rs : List ShardRec) : List Byte :=
  let head := toLE 4 0x464E4D47 ++ toLE 2 1 ++ toLE 2 (if j.pieces.any (fun p => p.kind = 1) then 1 else 0) ++ toLE 8 x.gen
    ++ toLE 8 x.captureTick ++ toLE 8 x.stepIndex ++ toLE 4 rs.length ++ toLE 2 s.gdn ++ toLE 2 0 ++ padTo 48 j.digest
    ++ toLE 8 (s.reg Reg.jobSeed).toNat ++ toLE 8 x.captureTime ++ List.replicate 24 0
  let body := head ++ shardRecords 65536 rs
  body ++ sha384Bytes body

/-- Bytes of data and tag streams. -/
def shardBytes (rs : List ShardRec) : List Byte := rs.flatMap (fun r => r.data ++ r.tags)

/-- The commit record (R374). -/
def Slot.commitRecord (x : Slot) (s : State) (i : Nat) (rs : List ShardRec) : List Byte :=
  let head := toLE 4 0x544D4347 ++ toLE 2 1 ++ toLE 1 i ++ toLE 1 0 ++ toLE 8 x.gen ++ toLE 8 (65536 + (shardBytes rs).length)
    ++ toLE 8 x.manifest.length ++ sha384Bytes x.manifest ++ toLE 2 s.gdn ++ List.replicate 3966 0
  head ++ sha384Bytes head

/-- A slot as it lies on the module, from its commit record to the end of its manifest. -/
def Slot.bytes (x : Slot) : List Byte := padTo 65536 x.commit ++ x.shard ++ x.manifest

/-- The last granule is on the module: manifest and commit record are written (R374). -/
def State.writeManifest (s : State) (t : Nat) : State :=
  match s.job with
  | none => s
  | some j =>
    let x := s.slot t
    let rs := x.records s j.pieces
    let m := x.manifestOf s j rs
    let x1 : Slot := { x with manifest := m, shard := shardBytes rs, data := [], context := [] }
    let x2 : Slot := { x1 with commit := x1.commitRecord s t rs }
    ((((((s.setSlot t x2).send (.moduleWrite t 1)).send .moduleFlush).send (.moduleWrite t 2)).send
      .moduleFlush).toModule (x.context.length + 128 + m.length + 4096)).setFld Fld.ckpState 3

/-- CHECKPOINT_CAPTURE (R365 to R367, R374): the context is latched, the target's commit record zeroed, queues write back
and the copy begins; with no piece to copy, the context record alone follows at once. -/
def execCheckpointCapture (s : State) : Result :=
  .next (
    if !s.captureDue then s
    else
      let s1 := (s.qdefs.map (fun e => e.1)).foldl (fun s q => s.captureQueue q) s
      let gs := s1.pieceGranules (s1.job.map (fun j => j.pieces)).toList.flatten
      let t := s1.targetSlot
      let s2 := (((s1.setSlot t { Slot.empty with
        gen := s1.ckpt.gen
        captureTick := s1.tick.stepTick
        stepIndex := s1.fld ⟨Reg.stepIndex, 63, 0⟩
        captureTime := s1.tick.stepTime
        context := s1.contextBytes }).send (.moduleWrite t 0)).toModule 4096).onCkpt (fun c => { c with grans := gs, writing := some t })
      let s3 := ((s2.setFld Fld.ckpSlot t).setReg Reg.ckpTotal (BitVec.ofNat 64 gs.length)).setReg Reg.ckpDone 0
      let s4 := (s3.setReg Reg.ckpCaptureTick (BitVec.ofNat 64 s3.tick.stepTick)).setFld Fld.ckpState 2
      if gs = [] then s4.writeManifest t else s4)

/-- PARSNIP_GRANULE_DONE (R368, R370): the stack's next granule is on the module with its tags; its place in the reserve is
free and the writes that waited for one go on. -/
def execParsnipGranuleDone (granule : Nat) (s : State) : Result :=
  .next (
    match s.ckpt.writing, s.fld Fld.ckpState, decide (s.nextGranule (granuleStack granule) = some granule) with
    | some t, 2, true =>
      let st := granuleStack granule
      let (im, saved) := match Tab.find? s.ckpt.grans granule with
        | some (.saved im) => (im, true)
        | _ => (s.imageOf granule, false)
      let x := s.slot t
      let s1 := (s.setSlot t { x with data := Tab.put granule im x.data }).onCkpt (fun c => { c with grans := Tab.del granule c.grans })
      let s2 := ((s1.bump32 Reg.ckpDone 1).toModule (65536 + 128)).send (.moduleWrite t 3)
      let s3 := if saved then s2.setReg (Reg.cbwUsed st) (BitVec.ofNat 64 ((s2.reg (Reg.cbwUsed st)).toNat - 1)) else s2
      let s4 := if s3.ckpt.grans = [] then s3.writeManifest t else s3
      s4.goOn
    | _, _, _ => s)

/-- No checkpoint runs any more: CKP_STATUS tells of an export that does, or of none (R378, R383). -/
def State.ckpIdle (s : State) : State :=
  match s.ckpt.exporting with
  | some i => (s.setFld Fld.ckpState 4).setFld Fld.ckpSlot i
  | none => s.setFld Fld.ckpState 0

/-- CHECKPOINT_COMMIT (R374): the Flush after the commit record has completed. -/
def execCheckpointCommit (s : State) : Result :=
  .next (
    match s.ckpt.writing with
    | some t =>
      if s.fld Fld.ckpState = 3 then
        let s1 := (s.setSlot t { s.slot t with committed := true }).onCkpt (fun c => { c with writing := none })
        (s1.ckpIdle.setFld Fld.ckpLast Status.success).endLongCode 0x0401 Status.success 0
      else s
    | none => s)

-- when a checkpoint does not finish (R376)

/-- Copy-before-write stops at once and every saved granule is released; the target slot stays uncommitted. -/
def State.dropCheckpoint (s : State) (status : Nat) : State :=
  let s1 := (s.onCkpt (fun c => { c with grans := [], writing := none })).ckpIdle
  let s2 := (List.range 12).foldl (fun s t => s.setReg (Reg.cbwUsed t) 0) s1
  let s3 := s2.qdefs.foldl (fun s e =>
    if (s.queue e.1).writeback then s.setQueue e.1 { s.queue e.1 with writeback := false } else s) s2
  (s3.setFld Fld.ckpLast status).goOn

/-- A checkpoint is armed, copying or committing. -/
def State.checkpointing (s : State) : Bool := decide (1 ≤ s.fld Fld.ckpState ∧ s.fld Fld.ckpState ≤ 3) || s.ckpt.writing.isSome

/-- A checkpoint that fails or is abandoned; `event`: other than by CKP_ABANDON (R408). -/
def State.failCheckpoint (s : State) (status detail : Nat) (event : Bool) : State :=
  if !s.checkpointing then s
  else
    let s1 := s.dropCheckpoint status
    let s2 := if event then s1.postEvent (s1.newEvent 0x18 status srcDevice 1 s1.ckpt.gen) else s1
    s2.endLongCode 0x0401 status detail

/-- An export ended. -/
def State.endExport (s : State) (status detail : Nat) : State :=
  if s.ckpt.exporting.isNone then s
  else
    let s1 := s.onCkpt (fun c => { c with exporting := none })
    ((if s1.fld Fld.ckpState = 4 then s1.setFld Fld.ckpState 0 else s1).setFld Fld.ckpLast status).endLongCode 0x0404 status detail

/-- Bytes whose contents the spec leaves undefined: a free value each. -/
def State.undefine (s : State) (a n : Nat) : State :=
  let bs := (List.range n).map (fun i => (Config.freeValue (s.freeCount + 1 + i)).truncate 8)
  ({ s with freeCount := s.freeCount + n }).write .firmware a bs

/-- A restore ended (R380, R382, R383). -/
def State.endRestore (s : State) (status detail : Nat) : State :=
  (s.ckpIdle.setFld Fld.ckpLast status).endLongCode 0x0405 status detail

/-- A restore that fails: the contents of the pieces are undefined (R380). -/
def State.failRestore (s : State) (status detail : Nat) : State :=
  ((s.job.map (fun j => j.pieces)).toList.flatten.foldl (fun s p => s.undefine p.base p.span) s).endRestore status detail

/-- A restore in progress abandoned (R424): the job goes with it. -/
def State.dropRestore (s : State) : State :=
  if s.fld Fld.ckpState = 5 then (s.setFld Fld.ckpState 0).setFld Fld.ckpLast Status.abandoned else s

/-- MODULE_COMMAND_TIMEOUT (R372, R376): a module error. The NVMe status of a command that did not complete is open. -/
def execModuleCommandTimeout (s : State) : Result :=
  .next (
    let (v, s1) := s.upTo 65535
    if s.checkpointing ∨ s.ckpt.exporting.isSome then
      (s1.failCheckpoint Status.moduleError v true).endExport Status.moduleError v
    else s)

-- commands (R384)

/-- Device time of tick k of the running tick (R42). -/
def State.tickTime (s : State) (k : Nat) : Nat := s.fld Fld.startTime + k * s.fld Fld.period * 10

/-- The earliest tick that is at least 1 ms ahead, where tick `k` is not; while the tick is stopped no tick time exists
(R69). -/
def State.tooSoon (s : State) (k : Nat) : Option Nat :=
  let p := s.fld Fld.period * 10
  if s.armed && decide (s.tickTime k < s.now + us 1000) then
    some ((s.now + us 1000 - s.fld Fld.startTime + p - 1) / p)
  else none

/-- CKP_START (R364, R366, R384): 8 bytes generation, 8 bytes capture tick (log entry 13). -/
def execCkpStart (k : Nat) (s : State) : Result :=
  ifUnit (decide (k < 64)) (s.command k 0x0401 (fun _ => 16) (fun _ _ => none) (fun s m =>
    if !s.job.any (fun j => j.restorable) ∨ !s.ps0 ∨ s.fld Fld.moduleReady = 0 then s.wrongState k m
    else
      match s.tooSoon (m.get 8 8) with
      | some t => s.reject k m Status.tickTooSoon t
      | none =>
        if m.get 0 8 ≤ max (s.reg Reg.ckpGenA).toNat (s.reg Reg.ckpGenB).toNat then s.badField k m 0
        else s.startLong k m [0x0404, 0x0405] (fun s =>
          (s.onCkpt (fun c => { c with gen := m.get 0 8, tick := m.get 8 8 })).setFld Fld.ckpState 1)))

/-- CKP_STATUS (R384): the checkpoint page, then generation, capture tick and step index of each slot. -/
def execCkpStatus (k : Nat) (s : State) : Result :=
  ifUnit (decide (k < 64)) (s.plain k 0x0402 (fun s m =>
    let f (x : Slot) : List Byte := if x.committed then toLE 8 x.gen ++ toLE 8 x.captureTick ++ toLE 8 x.stepIndex else List.replicate 24 0
    s.done k m (s.regPage Reg.ckpStatus 0x98 ++ f s.ckpt.slotA ++ f s.ckpt.slotB)))

/-- CKP_ABANDON (R376). -/
def execCkpAbandon (k : Nat) (s : State) : Result :=
  ifUnit (decide (k < 64)) (s.plain k 0x0403 (fun s m =>
    if s.checkpointing then (s.done k m []).failCheckpoint Status.abandoned 0 false else s.wrongState k m))

/-- CKP_EXPORT (R378, R384): 1 byte slot, 4 bytes target at 0x04, 4 bytes namespace id, 8 bytes byte offset at 0x10 (log
entry 13). -/
def execCkpExport (k : Nat) (s : State) : Result :=
  ifUnit (decide (k < 64)) (s.command k 0x0404 (fun _ => 24)
    (fun _ m => firstBad [(decide (1 < m.get 0 1), 0), (nonZero m 1 3, 1), (nonZero m 12 4, 12)]) (fun s m =>
    let i := m.get 0 1
    let target := m.get 4 4
    if !(s.slot i).committed then s.reject k m Status.notFound i
    else if (Tab.find? s.host.targets target).isNone then s.reject k m Status.notFound target
    else s.startLong k m [0x0405] (fun s =>
      let s1 := s.onCkpt (fun c => { c with exporting := some i })
      let s2 := s1.send (.storageWrite target (m.get 8 4) (m.get 16 8) (s1.slot i).bytes)
      if s2.fld Fld.ckpState = 0 then (s2.setFld Fld.ckpState 4).setFld Fld.ckpSlot i else s2)))

/-- CKP_MANIFEST_READ (R384): 4 bytes slot, 8 bytes byte offset at 0x08, 4 bytes length at 0x10 (log entry 13). -/
def execCkpManifestRead (k : Nat) (s : State) : Result :=
  ifUnit (decide (k < 64)) (s.command k 0x0406 (fun _ => 24)
    (fun _ m => firstBad [(decide (1 < m.get 0 4), 0), (nonZero m 4 4, 4), (decide (4032 < m.get 16 4), 16), (nonZero m 20 4, 20)])
    (fun s m =>
      if (s.slot (m.get 0 4)).committed then s.done k m (slice (s.slot (m.get 0 4)).manifest (m.get 8 8) (m.get 16 4))
      else s.reject k m Status.notFound (m.get 0 4)))

/-- CKP_DISCARD (R384): 4 bytes slot; no checkpoint or export in progress. -/
def execCkpDiscard (k : Nat) (s : State) : Result :=
  ifUnit (decide (k < 64)) (s.command k 0x0407 (fun _ => 4) (fun _ m => firstBad [(decide (1 < m.get 0 4), 0)]) (fun s m =>
    if s.checkpointing ∨ s.ckpt.exporting.isSome then s.wrongState k m
    else ((s.setSlot (m.get 0 4) Slot.empty).send (.moduleDeallocate (m.get 0 4))).done k m []))

end Sys2Proof.Machine
end

