-- ==== Sys2Proof/Machine/Crypto.lean ====
section
/-! DEFINITION. Signed objects (R435 to R437): signature blocks and their verification. -/
namespace Sys2Proof.Machine

/-- Size of a signature block (R436). -/
def sigSize : Nat := 16672

/-- The first 64-byte boundary at or after `n` (R440, R447). -/
def sigOffset (n : Nat) : Nat := (n + 63) / 64 * 64

/-- The message both signatures cover: the domain code and the object's SHA-384 (R435). -/
def signedMessage (domain : Nat) (obj : List Byte) : List Byte := toLE 2 domain ++ sha384Bytes obj

/-- A public key set in the layout of OWNER_KEY_SET bytes 0x004 to 0x1B7 (R446): exponent, modulus, SLH-DSA key. The
exponent is odd and at least 65,537, and the modulus has 3,072 bits (R437). -/
def keysOk (keys : List Byte) : Bool :=
  decide (keys.length = 436) && decide (fieldLE keys 0 4 % 2 = 1) && decide (65537 ≤ fieldLE keys 0 4) &&
    decide (128 ≤ fieldLE keys 4 1)

/-- A signature block over `obj` verifies for a domain under the keys (R436, R437). -/
def verifyBlock (domain : Nat) (keys obj blk : List Byte) : Bool :=
  decide (sigSize ≤ blk.length) && decide (fieldLE blk 0 4 = 0x4B424753) && decide (fieldLE blk 4 2 = 1) &&
    decide (fieldLE blk 6 2 = domain) && decide (slice blk 8 48 = sha384Bytes obj) && decide (fieldLE blk 0x38 8 = 0) &&
    keysOk keys && Config.rsaVerifies keys (signedMessage domain obj) (slice blk 0x40 384) &&
    Config.slhVerifies keys (signedMessage domain obj) (slice blk 0x1C0 16224)

end Sys2Proof.Machine
end

