-- ==== Sys2Proof/Machine/Plant.lean ====
section
/-! DEFINITION. Plant I/O and the Ethernet ports' own protocols: measurement frames (R61 to R64), actuation frames (R65 to
R67, R294), ARP, neighbour discovery and echo (R417). -/
namespace Sys2Proof.Machine

-- measurement frames

/-- A frame dropped: it counts in the tick record (R50, R63). -/
def State.dropFrame (s : State) : State := s.onRecord (fun r => { r with dropped := r.dropped + 1 })

/-- A frame of a known stream dropped for a reason with a counter of the stream's own. -/
def State.dropFor (s : State) (id : Nat) (st : Stream) : State := (s.setStream id st).dropFrame

/-- The frame's source, family and port are those of the stream's entry (R72). A frame on an Ethernet port that the entry's flags leave
out is refused too, for which R63 names no reason: it is dropped as unknown_stream (DESIGN CHOICE, log entry 124). -/
def Stream.admits (st : Stream) (d : Datagram) : Bool :=
  st.type = 1 && bitOf st.flags d.port &&
    (st.ip = 0 || (st.ip = d.srcIp && bitOf st.flags 2 = d.ipv6)) && (st.udpPort = 0 || st.udpPort = d.srcPort)

/-- The magic, version and lengths of a plant frame are right, and its q byte has no reserved width (R61, R63, R75). -/
def frameForm (bs : List Byte) : Bool :=
  let n := fieldLE bs 0x0C 2
  fieldLE bs 0 2 = 0x5C47 && fieldLE bs 2 1 = 1 && decide (fieldLE bs 7 1 < 192) && decide (64 ≤ n ∧ n ≤ 8192 ∧ n % 64 = 0 ∧ bs.length = 32 + n)

/-- Sequence number `a` is newer than `b`, by serial arithmetic (R63). -/
def newer (a b : Nat) : Bool := decide (0 < (a + 2 ^ 32 - b) % 2 ^ 32) && decide ((a + 2 ^ 32 - b) % 2 ^ 32 < 2 ^ 31)

/-- The descriptor entry of a landed frame (R62). The first frame that a stream lands reports a gap of 0 (DEDUCED). -/
def frameDesc (st : Stream) (id : Nat) (d : Datagram) : List Byte :=
  let bs := d.bytes
  let seq := fieldLE bs 8 4
  let gap := match st.last with
    | some l => (seq + 2 ^ 32 - l - 1) % 2 ^ 32
    | none => 0
  padTo 64 (toLE 8 (fieldLE bs 0x10 6 * 1000000000 + fieldLE bs 0x16 4) ++ toLE 8 d.arrival ++ toLE 4 seq ++ toLE 2 id
    ++ slice bs 0x0C 2 ++ slice bs 0x0E 2 ++ slice bs 6 1 ++ slice bs 7 1 ++ slice bs 0x1C 4 ++ toLE 4 gap ++ toLE 1 d.port)

/-- A whole frame landed in its stream's queue as one packet, where room, a tracker and a slot are there at once (R62,
R63); false where it is not. -/
def State.landFrame (s : State) (q : Nat) (entries : List (List Byte)) : State × Bool :=
  let n := entries.length
  match s.residentNow q with
  | (s1, true) =>
    if s1.canReserve q n then
      let p := (s1.queue q).pos.p
      ((s1.reserve q (.of n n entries .framer s1.now)).landAll q p n .framer, true)
    else (s, false)
  | (_, false) => (s, false)

/-- A frame that reaches the framer (R63): the stream, the form, the checksum, the order and the room, in that order. -/
def State.takeFrame (s : State) (d : Datagram) : State :=
  let bs := d.bytes
  let id := fieldLE bs 4 2
  match Tab.find? s.streams id with
  | none => s.dropFrame
  | some st =>
    if !st.admits d ∨ fieldLE bs 3 1 ≠ 1 then s.dropFor id { st with c0 := st.c0 + 1 }
    else if !frameForm bs then s.dropFor id { st with c1 := st.c1 + 1 }
    else if (crc32c (bs.drop 32)).toNat ≠ fieldLE bs 0x1C 4 then s.dropFor id { st with c2 := st.c2 + 1 }
    else if st.last.any (fun l => !newer (fieldLE bs 8 4) l) then s.dropFor id { st with c3 := st.c3 + 1 }
    else
      let payload := bs.drop 32
      match s.landFrame st.queue (frameDesc st id d :: chunksOf 64 128 payload) with
      | (s1, true) =>
        (s1.setStream id { st with last := some (fieldLE bs 8 4) }).onRecord (fun r => { r with landed := r.landed + 1 })
      | (_, false) => s.dropFor id { st with c4 := st.c4 + 1 }

/-- MEASUREMENT_FRAME (R61, R63): a datagram on the plant port, landed whole or dropped and counted; a fragment is dropped
and counted; a datagram to another port is no plant frame. -/
def execMeasurementFrame (d : Datagram) (s : State) : Result :=
  ifUnit (d.port < 2) (
    let s1 := s.at_ d.arrival
    if d.fragment then
      ({ s1 with host := { s1.host with ipFragments := s1.host.ipFragments + 1 } }).dropFrame
    else if d.dstPort ≠ s1.plantPort d.port then s1
    else s1.takeFrame d)

-- actuation frames

/-- ACTUATION_FRAME_SEND (R65): at the stream's scheduled time in the running tick the framer takes the frames of its queue
in order. Nothing is sent in the job-stopped state (R161). -/
def execActuationFrameSend (stream : Nat) (s : State) : Result :=
  ifUnit (stream < 4096) (
    match Tab.find? s.streams stream with
    | none => s
    | some st =>
      if st.type ≠ 2 ∨ s.tick.stopped.isSome then s
      else
        let s1 := s.at_ (s.tick.record.time + st.offset * 10)
        (s1.queue st.queue).frames.foldl (fun s k => s.takeActuation stream k) s1)

-- ARP, neighbour discovery, echo (R417)

/-- The message bears the VLAN tag that the port is set to use. -/
def State.vlanOk (s : State) (q : NetQuery) : Bool :=
  let v := s.netField q.port 6 2
  if bitOf v 12 then q.vlan = v % 4096 else q.vlan = 0

/-- The address is the port's IPv4 or IPv6 address, and that family is enabled. -/
def State.ownIpv4 (s : State) (q : NetQuery) : Bool :=
  s.netField q.port 8 4 ≠ 0 && q.targetIp = s.netField q.port 8 4
def State.ownIpv6 (s : State) (q : NetQuery) : Bool :=
  bitOf (s.netField q.port 0x0D 1) 0 && q.targetIp = s.netField q.port 0x10 16

/-- ARP_REQUEST (R417). -/
def execArpRequest (q : NetQuery) (s : State) : Result :=
  ifUnit (q.port < 2) (if s.vlanOk q && s.ownIpv4 q then s.send (.arpReply q) else s)

/-- NEIGHBOUR_DISCOVERY (R417). -/
def execNeighbourDiscovery (q : NetQuery) (s : State) : Result :=
  ifUnit (q.port < 2) (if s.vlanOk q && s.ownIpv6 q then s.send (.ndReply q) else s)

/-- ICMP_ECHO (R417): ICMP and ICMPv6. -/
def execIcmpEcho (q : NetQuery) (s : State) : Result :=
  ifUnit (q.port < 2) (if s.vlanOk q && (s.ownIpv4 q || s.ownIpv6 q) then s.send (.echoReply q) else s)

end Sys2Proof.Machine
end

