-- ==== Sys2Proof/Machine/Collect.lean ====
section
/-! DEFINITION. Collectives (R328 to R330). Each element is reduced at one member, rank 0 or the root, which sends the
result to the others; what a contribution carries on the wire is log entry 28. -/
namespace Sys2Proof.Machine

/-- The extension of a collective descriptor (R328). -/
structure CollOp where
  group : Nat
  kind : Nat
  oper : Nat
  fmt : Nat
  sgn : Bool
  root : Nat
  count : Nat
  deriving DecidableEq, Repr

def CollOp.of (e : List Byte) : CollOp where
  group := fieldLE e 0 2
  kind := fieldLE e 2 1
  oper := fieldLE e 3 1
  fmt := bitsOf (fieldLE e 4 1) 3 0
  sgn := bitOf (fieldLE e 4 1) 4
  root := fieldLE e 8 4
  count := fieldLE e 0x10 8

/-- Global device numbers of a group in rank order. -/
def State.members (s : State) (group : Nat) : List Nat :=
  (Tab.get [] s.fabric.groups group).filterMap (fun i => (Tab.find? s.fabric.peers i).map (fun p => p.gdn))

def Coll.ctl (c : Coll) : Ctl := ⟨c.fmt, c.sgn, 0, 0⟩

/-- The member that reduces, or that sends in a broadcast. -/
def Coll.head (c : Coll) : Nat := if c.kind = 1 ∨ c.kind = 2 then c.root else 0

/-- Two elements combined (R328); integer sums wrap, so that they do not depend on order (R329). -/
def combineElem (c : Ctl) (oper : Nat) (rd : Rounding) (dr a b : Nat) : Nat × Tally :=
  let w := c.width
  if c.isFloat then
    let x := c.decode a
    let y := c.decode b
    if oper = 0 then convert rd c 127 dr (Num.add rd.rnd x y)
    else ((convert ⟨0, false, true⟩ c 127 0 (if oper = 1 then Num.minimum x y else Num.maximum x y)).1, .none)
  else
    (match oper with
     | 0 => (a + b) % 2 ^ w
     | 3 => a &&& b
     | 4 => a ||| b
     | 5 => a ^^^ b
     | n =>
       let lt := if c.sgn then decide (signedOf w a < signedOf w b) else decide (a < b)
       if n = 1 then (if lt then a else b) else (if lt then b else a), .none)

/-- Two contributions combined element by element. -/
def combineData (c : Ctl) (oper count : Nat) (rd : Rounding) (dr : Nat → Nat) (x y : List Byte × List Tally) :
    List Byte × List Tally :=
  let w := c.width / 8
  let rs := (List.range count).map (fun i => combineElem c oper rd (dr i) (fieldLE x.1 (i * w) w) (fieldLE y.1 (i * w) w))
  (rs.flatMap (fun r => toLE w r.1), x.2 ++ y.2 ++ rs.map (fun r => r.2))

/-- One level of the fixed tree over ranks; an unpaired last operand passes up (R329). -/
def treeLevel (f : List Byte × List Tally → List Byte × List Tally → List Byte × List Tally) :
    List (List Byte × List Tally) → List (List Byte × List Tally)
  | x :: y :: r => f x y :: treeLevel f r
  | xs => xs

def treeOver (f : List Byte × List Tally → List Byte × List Tally → List Byte × List Tally) :
    Nat → List (List Byte × List Tally) → List Byte × List Tally
  | 0, xs => xs.headD ([], [])
  | n + 1, xs =>
    match xs with
    | [] => ([], [])
    | [x] => x
    | xs => treeOver f n (treeLevel f xs)

/-- Operands combined in their order. -/
def foldOver (f : List Byte × List Tally → List Byte × List Tally → List Byte × List Tally)
    (xs : List (List Byte × List Tally)) : List Byte × List Tally :=
  match xs with
  | [] => ([], [])
  | x :: r => r.foldl f x

/-- Contributions grouped by a key, groups and members in order of arrival, each group combined: one stage of R329. -/
def stageBy (key : Nat → Nat) (f : List Byte × List Tally → List Byte × List Tally → List Byte × List Tally)
    (xs : List (Nat × (List Byte × List Tally))) : List (Nat × (List Byte × List Tally)) :=
  let keys := (xs.map (fun x => key x.1)).reverse.foldl (fun ks k => if k ∈ ks then ks else k :: ks) []
  keys.map (fun k => (k, foldOver f ((xs.filter (fun x => key x.1 = k)).map (fun x => x.2))))

/-- The reduced elements: the fixed tree over ranks under repro, otherwise in arrival order within the sled, the pod and
across pods (R329). -/
def State.reduceColl (s : State) (c : Coll) (rd : Rounding) (dr : Nat → Nat) : List Byte × List Tally :=
  let f := combineData c.ctl c.oper c.count rd dr
  if s.fld Fld.repro = 1 then
    treeOver f 17 ((List.range (s.members c.group).length).map (fun r =>
      ((c.parts.find? (fun p => p.1 = r)).map (fun p => p.2) |>.getD [], [])))
  else
    let byDev := c.parts.map (fun p => ((s.members c.group).getD p.1 0, (p.2, ([] : List Tally))))
    let sleds := stageBy (fun g => g / 8) f byDev
    let pods := stageBy (fun g => g / 32) f sleds
    (foldOver f (pods.map (fun p => p.2)))

/-- Pieces of at most 512 bytes, at least one. -/
def collPieces (bs : List Byte) : List (List Byte) :=
  if bs = [] then [[]] else chunksOf 512 (bs.length / 512 + 1) bs

/-- The address field of a contribution's piece (log entry 28). -/
def collAddr (c : Coll) (rank piece : Nat) : Nat :=
  c.group + rank * 2 ^ 10 + c.kind * 2 ^ 26 + c.oper * 2 ^ 29 + c.fmt * 2 ^ 32 + (if c.sgn then 2 ^ 36 else 0)
    + piece * 2 ^ 37

/-- Requests that carry bytes to a member: operation 0, and 1 in the last piece; 2 and 3 for the result. -/
def State.collReqs (s : State) (o : InFlight) (c : Coll) (rank dst : Nat) (result : Bool) (bs : List Byte) : List Request :=
  let ps := collPieces bs
  ps.zipIdx.map (fun p =>
    let op := (if result then 2 else 0) + (if p.2 + 1 = ps.length then 1 else 0)
    mkReq 0 (.remote { s.opTx o 7 dst (collAddr c rank p.2) c.inst p.1.length p.1 with op := op }) 0 p.1.length [])

/-- Requests added behind those the op has. -/
def InFlight.addReqs (o : InFlight) (rs : List Request) : InFlight :=
  let base := o.requests.foldl (fun n r => max n (r.num + 1)) 0
  { o with requests := o.requests ++ rs.zipIdx.map (fun p => { p.1 with num := base + p.2 }) }

/-- The collective's result written at this member; the op then waits only for its own requests. -/
def State.collWrite (s : State) (o : InFlight) (dst : Nat) (bs : List Byte) : State × InFlight :=
  let o1 : InFlight := { o with pending := .done }
  if bs = [] then (s, o1) else s.writeRuns o1 o.record.digest [⟨dst * 8, bs.length * 8, ofLE bs⟩]

def State.dropColl (s : State) (c : Coll) : State :=
  { s with fabric := { s.fabric with colls := s.fabric.colls.filter (fun d => !(d.group = c.group && d.inst = c.inst)) } }

def State.setColl (s : State) (c : Coll) : State :=
  { s with fabric := { s.fabric with
    colls := s.fabric.colls.map (fun d => if d.group = c.group ∧ d.inst = c.inst then c else d) } }

/-- The pieces gathered from one member, as sender rank: whole once the last piece and every one before it are there. -/
def Coll.whole? (c : Coll) (rank : Nat) : Option (List Byte) :=
  let ps := c.chunks.filter (fun t => bitsOf t.addr 25 10 = rank)
  match ps.find? (fun t => t.op % 2 = 1) with
  | none => none
  | some last =>
    let n := last.addr / 2 ^ 37 + 1
    let got := (List.range n).map (fun i => (ps.find? (fun t => t.addr / 2 ^ 37 = i)).map (fun t => t.data))
    if got.all (fun g => g.isSome) then some (got.flatMap (fun g => g.getD [])) else none

/-- Every contribution is there. -/
def State.collFull (s : State) (c : Coll) : Bool :=
  (List.range (s.members c.group).length).all (fun r => c.parts.any (fun p => p.1 = r))

/-- A collective that has all it waits for goes on: reduced, gathered, sent and written (R329, R330). -/
def State.collCheck (s : State) (o : InFlight) (c : Coll) : State × InFlight :=
  let ms := s.members c.group
  let own := ms.idxOf s.gdn
  let dr (i : Nat) : Nat := if o.record.rnd = 5 then
      s.draw o.record.tensorId (s.elemIndex o.record.tensorId (c.dst * 8 + i * c.ctl.width)) else 0
  if o.pending ≠ .collective c.group c.inst then (s, o)
  else if c.kind = 3 then
    if s.collFull c then
      let bs := (List.range ms.length).flatMap (fun r => ((c.parts.find? (fun p => p.1 = r)).map (fun p => p.2)).getD [])
      (s.dropColl c).collWrite o c.dst bs
    else (s, o)
  else if own = c.head then
    if c.kind = 2 ∨ s.collFull c then
      let (bs, ts) := if c.kind = 2 then ((c.parts.headD (0, [])).2, []) else s.reduceColl c o.record.rounding dr
      let o1 : InFlight := { o with cnt := o.cnt.addAll ts }
      let others := ms.zipIdx.filter (fun m => m.2 ≠ own)
      let o2 := if c.kind = 1 then o1 else o1.addReqs (others.flatMap (fun m => s.collReqs o1 c own m.1 true bs))
      (s.dropColl c).collWrite o2 c.dst bs
    else (s, o)
  else if c.kind = 1 then (s.dropColl c, { o with pending := .done })
  else (s, o)

/-- The op of a collective updated by its check, its requests sent. -/
def State.runColl (s : State) (c : Coll) : State :=
  match s.op? c.op with
  | none => s
  | some o =>
    let (s1, o1) := s.collCheck o c
    ((s1.setOp o1).drive o.list)

/-- The contribution agrees with this member's collective (R330). -/
def Coll.agrees (c : Coll) (t : Tx) : Bool :=
  bitsOf t.addr 28 26 = c.kind && bitsOf t.addr 31 29 = c.oper && bitsOf t.addr 35 32 = c.fmt && bitOf t.addr 36 = c.sgn

/-- A piece of a contribution or of a result for a collective that this member has issued. -/
def State.takePiece (s : State) (c : Coll) (t : Tx) : State :=
  match s.op? c.op with
  | none => s
  | some o =>
    let rank := bitsOf t.addr 25 10
    let c1 : Coll := { c with chunks := c.chunks ++ [t] }
    let fail : State := (s.dropColl c).putOp { o.failed Status.addressFault c.dst with pending := .done, requests := [] }
    if !c.agrees t then fail
    else
      match c1.whole? rank with
      | none => s.setColl c1
      | some bs =>
        if bs.length ≠ c.count * (c.ctl.width / 8) then fail
        else if t.op / 2 = 1 then
          let (s1, o1) := (s.dropColl c).collWrite o c.dst bs
          (s1.setOp o1).drive o.list
        else
          let c2 : Coll := { c1 with
            parts := c1.parts ++ [(rank, bs)]
            chunks := c1.chunks.filter (fun t => bitsOf t.addr 25 10 ≠ rank) }
          (s.setColl c2).runColl c2

/-- A collective op (R328, R330): its contribution sent or kept, and what has come early taken in. -/
def collRun (s : State) (o : InFlight) : State × InFlight :=
  let d := s.xferOp o
  let e := CollOp.of d.ext
  let ms := s.members e.group
  let own := ms.idxOf s.gdn
  let outLen := if e.kind = 3 then d.rowBytes * ms.length else d.rowBytes
  let fault :=
    if e.kind = 4 then none
    else
      match s.sideFault o.list false false d.src d.rowBytes with
      | some f => some f
      | none => if e.kind = 1 ∧ own ≠ e.root then none else s.sideFault o.list true false d.dst outLen
  match fault with
  | some f => (s, o.failed f.1 f.2)
  | none =>
    if own = ms.length then (s, o.failed Status.addressFault d.dst)
    else
      match ms.findSome? (fun g => if g = s.gdn then none else (s.mayRequest g).map (fun st => (st, g))) with
      | some (st, g) => (s, o.failed st (g * 2 ^ 48))
      | none =>
        let inst := Tab.get 0 s.fabric.instances e.group + 1
        let data := if e.kind = 4 then [] else s.readLocal d.src d.rowBytes
        let c : Coll := ⟨e.group, inst, e.kind, e.oper, e.fmt, e.sgn, if e.kind = 4 then 0 else e.count, e.root, o.id, d.dst,
          o.record.rnd, [(own, data)], []⟩
        let o1 : InFlight := { o with pending := .collective e.group inst }
        let others := ms.zipIdx.filter (fun m => m.2 ≠ own)
        let o2 :=
          if e.kind = 3 then o1.addReqs (others.flatMap (fun m => s.collReqs o1 c own m.1 false data))
          else if own = c.head ∨ e.kind = 2 then o1
          else o1.addReqs (s.collReqs o1 c own (ms.getD c.head 0) false data)
        let s1 : State := { s with fabric := { s.fabric with
          instances := Tab.set 0 e.group inst s.fabric.instances
          colls := s.fabric.colls ++ [c] } }
        let (s2, o3) := s1.collCheck o2 c
        let early := s2.fabric.early.filter (fun p => p.1 = e.group && p.2.1 = inst)
        let s3 : State := { s2.setOp o3 with fabric := { s2.fabric with
          early := s2.fabric.early.filter (fun p => !(p.1 = e.group && p.2.1 = inst)) } }
        let s4 := early.foldl (fun s p =>
          match s.fabric.colls.find? (fun k => k.group = e.group && k.inst = inst) with
          | some k => s.takePiece k p.2.2
          | none => s) s3
        (s4, (s4.op? o.id).getD o3)

/-- A collective whose source tiles are verified first; it starts once no store that it reads moves (R20). -/
def collStart (s : State) (o : InFlight) : State × InFlight :=
  let d := s.xferOp o
  let kind := (CollOp.of d.ext).kind
  if kind ≠ 4 ∧ s.moving d.src = true then (s, { o with queued := true })
  else
    s.verified { o with queued := false } false
      (Inputs.of (if kind = 4 ∨ (s.sideFault o.list false false d.src d.rowBytes).isSome then [] else [(d.src, d.rowBytes)])) collRun

/-- A collective record of the command's kind: kind 6, and the kind in its extension. -/
def State.issueColl (s : State) (l : ListId) (r : OpRecord) (kind : Nat) : State :=
  let d := XferOp.of (s.rd (coreStore l + r.desc) 128)
  if r.unit = 4 ∧ r.opcode = 1 ∧ d.kind = 6 ∧ (CollOp.of d.ext).kind = kind then
    (s.issueOp l r collStart).drive l
  else s

/-- COLLECTIVE_ALL_REDUCE (R329). -/
def execCollectiveAllReduce (l : ListId) (r : OpRecord) (s : State) : Result := ifUnit (l < 192) (s.issueColl l r 0)

/-- COLLECTIVE_REDUCE_TO_ROOT (R329). -/
def execCollectiveReduceToRoot (l : ListId) (r : OpRecord) (s : State) : Result := ifUnit (l < 192) (s.issueColl l r 1)

/-- COLLECTIVE_BROADCAST (R328). -/
def execCollectiveBroadcast (l : ListId) (r : OpRecord) (s : State) : Result := ifUnit (l < 192) (s.issueColl l r 2)

/-- COLLECTIVE_ALL_GATHER (R328). -/
def execCollectiveAllGather (l : ListId) (r : OpRecord) (s : State) : Result := ifUnit (l < 192) (s.issueColl l r 3)

/-- COLLECTIVE_BARRIER (R328). -/
def execCollectiveBarrier (l : ListId) (r : OpRecord) (s : State) : Result := ifUnit (l < 192) (s.issueColl l r 4)

/-- A contribution of a peer taken (R330): kept where this member has not issued its own op yet. One of an instance that has passed
disagrees with the collective in progress. -/
def State.takeContribution (s : State) (tx : Tx) : State :=
  let group := tx.addr % 2 ^ 10
  match s.fabric.colls.find? (fun c => c.group = group && c.inst = tx.word) with
  | some c => s.takePiece c tx
  | none =>
    if Tab.get 0 s.fabric.instances group < tx.word then
      { s with fabric := { s.fabric with early := s.fabric.early ++ [(group, tx.word, tx)] } }
    else
      match s.fabric.colls.find? (fun c => c.group = group) with
      | some c =>
        (match s.op? c.op with
         | some o => (s.dropColl c).putOp { o.failed Status.addressFault c.dst with pending := .done, requests := [] }
         | none => s)
      | none => s

/-- COLLECTIVE_CONTRIBUTION (R329, R330): from a peer, once. -/
def execCollectiveContribution (tx : Tx) (s : State) : Result :=
  .next (s.serveRequest tx 7 id (fun s => ((s.mark tx.src tx.seq).reply tx 0 [] false).takeContribution tx))

end Sys2Proof.Machine
end

