-- ==== Sys2Proof/Machine/Answers.lean ====
section
/-! DEFINITION. What comes back to a source (R319 to R322, R340, R341, R350 to R352): replies, notices, deadlines, and the
spacing of requests under congestion. -/
namespace Sys2Proof.Machine

-- credits of this device's ops (R290)

/-- Ops whose credit request waits because four are outstanding on its queue make it once one is free. -/
def State.startCredits (s : State) : State :=
  (s.cores.inflight.map (fun o => o.id)).foldl (fun s i =>
    match s.op? i with
    | some o =>
      match o.pending with
      | .credit q g entries false =>
        if s.creditsOut g q < 4 then
          (s.setOp { o with
            pending := .credit q g entries true
            requests := [mkReq 0 (.remote (s.opTx o 4 g q entries.length 0 [])) (g * 2 ^ 48 + producerBase + q * 64) 0 []]
            }).drive o.list
        else s
      | _ => s
    | none => s) s

/-- The enqueue transactions of a granted packet: at most 8 entries each; the operation word names the credit's request
and the address the queue and the first entry's place (log entry 30). -/
def State.packetReqs (s : State) (o : InFlight) (g q seq : Nat) (entries : List (List Byte)) : List Request :=
  (chunksOf 8 (entries.length / 8 + 1) entries).zipIdx.map (fun e =>
    let bs := e.1.flatten
    mkReq (e.2 + 1) (.remote (s.opTx o 5 g (q + e.2 * 8 * 2 ^ 32) seq bs.length bs))
      (g * 2 ^ 48 + producerBase + q * 64) bs.length bs)

-- replies (R317, R319)

/-- The outstanding request that a reply answers. -/
def State.answered (s : State) (tx : Tx) : Option OutReq :=
  s.fabric.out.find? (fun r => decide (r.dst = tx.src) && decide (r.seq = tx.seq) && !r.waiting)

/-- The address that an op's fault names when its request is refused: the producer slot of a queue (R289), or the address
of the request. -/
def refusedAddr (tx : Tx) : Nat :=
  if 4 ≤ tx.type ∧ tx.type ≤ 6 then tx.dst * 2 ^ 48 + producerBase + tx.addr % 2 ^ 20 * 64 else tx.addr

/-- An op whose request was refused: it ends with the status once its other sent requests have been answered. -/
def InFlight.refused (o : InFlight) (req status : Nat) (addr : Nat) : InFlight :=
  { o.failed status addr with
    requests := o.requests.filter (fun r => decide (r.num ≠ req) && r.sent)
    pending := .done
    reloading := [] }

/-- The requests that bring a tile to another device, made again from the source as it reads now (R228). -/
def State.tileReqs (s : State) (o : InFlight) (tile : Nat) : List Request :=
  let d := s.xferOp o
  let bytes := if o.got = [] then d.rowAddrs.flatMap (fun r => match s.resolve d.srcGlobal r.1 with
      | .here a => s.readLocal a d.srcRow
      | .peer _ _ => [])
    else o.gathered
  let crcAt (a : Nat) : Option Word32 := if a % 4096 = 0 then Tab.find? o.crcs (a / 4096) else none
  (s.deliverData { o with requests := [], reloading := [] } d bytes crcAt).2.requests.filter (fun r => r.addr / 4096 = tile)

/-- A tile that did not verify asked for, or sent, once more, where it has not been yet (R228): the read is made again, and the tile that a
write completed is sent again whole. -/
def State.again? (s : State) (o : InFlight) (r : OutReq) : Option InFlight :=
  let tile := if r.tx.type = 1 then r.tx.addr / 4096 else (r.tx.addr + r.tx.len) / 4096 - 1
  if tile ∈ o.reloading then none
  else if r.tx.type = 1 then
    some { o with
      reloading := o.reloading ++ [tile]
      requests := o.requests.map (fun q => if q.num = r.req then { q with sent := false } else q) }
  else if r.tx.type = 2 ∧ r.tx.tileCrc then
    some (InFlight.addReqs { o with
      reloading := o.reloading ++ [tile]
      requests := o.requests.filter (fun q => q.num ≠ r.req) } (s.tileReqs o tile))
  else none

/-- A refusal (R228, R289, R310, R348, R350): a tile that failed goes once more, and an atomic whose outcome nobody knows also posts
its event. -/
def State.takeRefusal (s : State) (o : InFlight) (r : OutReq) (status : Nat) : State :=
  match (if status = Status.integrityFault ∧ o.status = 0 then s.again? o r else none) with
  | some o1 => (s.setOp o1).drive o.list
  | none =>
    let s1 :=
      if status = Status.outcomeUnknown then
        s.postEvent (s.newEvent 0x15 status (srcAgent o.list) 2 (r.dst + r.seq * 2 ^ 16))
      else s
    (s1.setOp (o.refused r.req status (refusedAddr r.tx))).drive o.list

/-- Counters of a landing conversion, as the acknowledgement of an enqueue returns them (R293). -/
def ackCounters (bs : List Byte) : Counters :=
  ⟨fieldLE bs 0 4, fieldLE bs 4 4, fieldLE bs 8 4, fieldLE bs 12 4, 0, 0⟩

/-- The counter of an atomic that another device has performed on the old value that it returned (R94): it rounds as R83 has it for a
request that carries no controls. -/
def State.remoteTally (s : State) (r : Tx) (old : Nat) : Tally :=
  let w := atomicWidth r.word
  (atomicNew (s.roundingOf (originOf r)) 0 r.word old (txOperand r % 2 ^ (8 * w)) (txCompare r % 2 ^ (8 * w))).2

/-- A write acknowledged: a tile that it was to seal and that the acknowledgement does not name was left unsealed (R226, log entry
113), and a tile that was sent again has verified (R228). -/
def InFlight.wrote (o : InFlight) (r : Tx) (named : Bool) : InFlight :=
  let tile := (r.addr + r.len) / 4096 - 1
  let o1 := o.leaves (r.tileCrc && !named)
  if r.tileCrc ∧ tile ∈ o.reloading then
    { o1 with reloading := o.reloading.filter (fun t => t ≠ tile), flags := setBit o1.flags 2 }
  else o1

/-- What a reply does for the op whose request it answers. -/
def State.takeReply (s : State) (o : InFlight) (r : OutReq) (tx : Tx) : State :=
  match r.tx.type with
  | 1 =>
    let o1 : InFlight := if tx.tileCrc then
        { o with crcs := Tab.put (r.tx.addr / 4096) (BitVec.ofNat 32 tx.word) o.crcs }
      else o
    s.requestDone o1 r.req (some (padTo r.tx.len tx.data))
  | 2 => s.requestDone (o.wrote r.tx tx.tileCrc) r.req none
  | 3 =>
    match o.pending with
    | .atomic a w =>
      let s1 := s.write (.op o.id) a (tx.data.take w)
      s1.requestDone { o with pending := .done, cnt := o.cnt.count (s.remoteTally r.tx (fieldLE tx.data 0 w)) } r.req none
    | _ => s.requestDone o r.req none
  | 4 =>
    match o.pending with
    | .credit q g entries true =>
      s.requestDone { o with
        pending := .done
        requests := o.requests.filter (fun x => x.num ≠ r.req) ++ s.packetReqs o g q r.seq entries } r.req none
    | _ => s.requestDone o r.req none
  | 5 => s.requestDone { o with cnt := o.cnt.plus (ackCounters tx.data) } r.req none
  | _ => s.requestDone o r.req none

/-- One entry of a remote dequeue (R292): written to its place; the request is answered once all have come. -/
def State.takeEntry (s : State) (o : InFlight) (r : OutReq) (tx : Tx) : State :=
  match o.pending with
  | .dequeue q h dst n got =>
    if tx.word ∈ got ∨ n ≤ tx.word then s
    else
      let a := dst + tx.word * 64
      let bs := padTo 64 tx.data
      let s1 := if rangeOf a = .host then
          s.send (.hostWrite ((s.reg Reg.hostWinBase).toNat + (a - hostBase)) bs)
        else s.write (.op o.id) a bs
      let got1 := got ++ [tx.word]
      if got1.length = n then
        (s1.onFabric (fun f => { f with out := f.out.filter (fun x => x ≠ r) })).requestDone
          { o with pending := .sealing dst (n * 64) } r.req none
      else s1.setOp { o with pending := .dequeue q h dst n got1 }
  | _ => s.onFabric (fun f => { f with out := f.out.filter (fun x => x ≠ r) })

/-- An answered request gives up its place: waiting requests to its device go on, and so do ops that wait for a credit. -/
def State.afterReply (s : State) (g : Nat) : State := (s.sendWaiting g (s.fabric.out.length + 1)).startCredits

/-- An answer to the request `r`. -/
def State.takeAnswer (s : State) (r : OutReq) (tx : Tx) : State :=
  let gone := s.onFabric (fun f => { f with out := f.out.filter (fun x => x ≠ r) })
  if r.op = firmwareOp then
    if tx.op = 0 then gone.dropChild r.req tx.src else gone
  else
    match s.op? r.op with
    | none => gone
    | some o =>
      if tx.op = 0 then gone.takeRefusal o r tx.word
      else if r.tx.type = 6 then s.takeEntry o r tx
      else gone.takeReply o r tx

/-- FABRIC_REPLY (R319, R352): a reply from a lost peer is discarded and counted; one that answers no outstanding request
is discarded. -/
def execFabricReply (tx : Tx) (s : State) : Result :=
  .next (s.arrives tx (fun s =>
    if tx.type ≠ 0xF then s.malformed
    else if s.isLost tx.src then s.bump64 Reg.fabLate 1
    else
      match s.answered tx with
      | some r => (s.takeAnswer r tx).afterReply tx.src
      | none => if s.fromPeer tx then s else s.malformed))

-- deadlines (R321, R322)

/-- REPLY_DEADLINE (R321, R465): every unacknowledged request to the peer is resent, or the peer is lost after the third
resend. -/
def execReplyDeadline (peer seq : Nat) (s : State) : Result :=
  .next (match s.fabric.out.find? (fun r => decide (r.dst = peer) && decide (r.seq = seq) && !r.waiting) with
    | none => s
    | some r =>
      let s1 := s.at_ r.deadline
      if r.resends < 3 then (s1.resend peer true).absorbWithin 0x10 (peer % 2 ^ 16) 0 0 100000 (r.tx.addr % 2 ^ 44 / 2 ^ 12)
      else ((s1.markLost peer 0).startCredits).releaseHeld)

/-- This device holds a request of the peer: a credit, a dequeue, a ranked atomic, or one in its commit queues (R321,
R338). -/
def State.holdsFor (s : State) (g : Nat) : Bool :=
  let from_ (o : Origin) : Bool := match o with
    | .remote src _ _ => src = g
    | _ => false
  s.fabric.serving.any (fun v => v.members.any (fun t => t.src = g)) ||
    s.fabric.cress.any (fun e => e.members.any (fun t => t.src = g)) ||
    s.fabric.leekWait.any (fun w => w.2.src = g) || s.fabric.held.any (fun w => w.2.src = g) || s.fabric.rankWait.any (fun w => from_ w.origin) ||
    s.queues.any (fun e => e.2.waiting.any (fun w => from_ w.origin) || e.2.deqs.any (fun d => from_ d.origin))

/-- PENDING_NOTICE_SEND (R321): sent while a request of the peer is held. -/
def execPendingNoticeSend (peer : Nat) (s : State) : Result :=
  .next (if s.holdsFor peer then s.sendTx (s.mkTx 8 1 peer 0 0 []) else s)

/-- The factor of a peer's slow notices in force: the largest, in sixteenths (R58). -/
def State.slowFactor (s : State) (g : Nat) : Nat := s.slow.foldl (fun m n => if n.src = g then max m n.factor else m) 16

/-- A wait of R322 on a peer: a credit, a remote dequeue, or a collective that lacks the peer's contribution. -/
def State.waitsFor (s : State) (g : Nat) (o : InFlight) : Bool :=
  match o.pending with
  | .credit _ h _ true => h = g
  | .dequeue _ (some h) _ _ _ => h = g
  | .collective grp inst =>
    s.fabric.colls.any (fun c => decide (c.group = grp) && decide (c.inst = inst) &&
      (s.members grp).zipIdx.any (fun m => decide (m.1 = g) && !(c.parts.any (fun p => p.1 = m.2)) && c.needs m.2))
  | _ => false

/-- FABRIC_WAIT_DEADLINE (R322): the oldest wait on the peer has lasted the deadline, multiplied by the peer's slow
factor; the peer is lost. -/
def execFabricWaitDeadline (peer : Nat) (s : State) : Result :=
  .next (match s.cores.inflight.filter (fun o => s.waitsFor peer o) with
    | [] => s
    | o :: _ =>
      let s1 := s.at_ (s.tick.stepTime + o.issue + s.waitDeadline * s.slowFactor peer / 16)
      ((s1.markLost peer 1).startCredits).releaseHeld)

-- notices (R321, R334, R341, R351)

/-- PENDING_NOTICE (R321): the reply deadline of every request outstanding to the sender starts again. -/
def execPendingNotice (tx : Tx) (s : State) : Result :=
  .next (s.control tx 1 (fun s => s.onFabric (fun f => { f with
    out := f.out.map (fun r => if r.dst = tx.src ∧ !r.waiting then { r with deadline := s.now + us 100 } else r) })))

/-- PEER_MANAGEMENT (R341): the spec gives the notice no further effect at its receiver; each device's own commands of R334
change its tables. -/
def execPeerManagement (tx : Tx) (s : State) : Result := .next (s.control tx 3 id)

/-- LOST_NOTICE (R351). -/
def execLostNotice (tx : Tx) (s : State) : Result :=
  .next (s.control tx 5 (fun s => ((s.markLost tx.src 2).startCredits).releaseHeld))

/-- Spacing to a home has ended: waiting requests go, and their wait is counted (R340). -/
def State.endSpacing (s : State) (home : Nat) : State :=
  let held := s.fabric.out.filter (fun r => decide (r.dst = home) && r.waiting)
  let s1 := s.sendWaiting home (s.fabric.out.length + 1)
  let left := s1.fabric.out.filter (fun r => decide (r.dst = home) && r.waiting)
  s1.bump64 Reg.throttleWait ((held.filter (fun r => !(left.any (fun q => q.seq = r.seq)))).foldl (fun n r => n + (s.now + us 100 - r.deadline)) 0)

/-- CONGESTION_NOTICE (R340): a later notice replaces an earlier one of the same home; a gap of 0 ends the spacing. -/
def execCongestionNotice (tx : Tx) (s : State) : Result :=
  .next (s.control tx 4 (fun s =>
    let gap := tx.word % 2 ^ 16
    let last := match s.spacing? tx.src with
      | some c => c.last
      | none => s.now
    let rest := s.fabric.congestIn.filter (fun c => c.home ≠ tx.src)
    let s1 := (s.onFabric (fun f => { f with
      congestIn := if gap = 0 then rest
        else rest ++ [⟨tx.src, gap, s.now + tx.word / 2 ^ 16 % 2 ^ 16 * 1000, last⟩] })).bump64 Reg.congRecv 1
    if gap = 0 then s1.endSpacing tx.src else s1))

/-- CONGESTION_NOTICE_EXPIRY (R340). -/
def execCongestionNoticeExpiry (home : Nat) (s : State) : Result :=
  .next (match s.fabric.congestIn.find? (fun c => c.home = home) with
    | some c =>
      let s1 := (s.at_ c.expiry).onFabric (fun f => { f with congestIn := f.congestIn.filter (fun c => c.home ≠ home) })
      s1.endSpacing home
    | none => s)

/-- THROTTLE_GAP (R340): the gap since the last request to the home has elapsed and the next one is sent; the wait since
it was made is counted. -/
def execThrottleGap (home : Nat) (s : State) : Result :=
  .next (match s.spacing? home, s.fabric.out.find? (fun r => decide (r.dst = home) && r.waiting) with
    | some c, some r =>
      if 1024 ≤ s.unacked home then s
      else
        let s1 := s.at_ (c.last + c.gap)
        (s1.sendNext home).bump64 Reg.throttleWait (s1.now + us 100 - r.deadline)
    | _, _ => s)

-- port states of the pod (R312)

/-- Devices to which requests are unacknowledged. -/
def State.targets (s : State) : List Nat :=
  (s.fabric.out.filter (fun r => !r.waiting)).foldl (fun gs r => if r.dst ∈ gs then gs else gs ++ [r.dst]) []

/-- After port states changed from `old`: where a route went, its requests are resent; where none is left, the peer is
lost (R320, R351). A route changes only when a port on it has gone out of service (R312). -/
def State.reroute (old s : State) : State :=
  s.targets.foldl (fun t g =>
    if (t.route? g).isNone then t.markLost g 3
    else if t.route? g = old.route? g then t
    else t.resend g false) s.noteSpares

/-- The device is a neighbour across an optical circuit (R299, R310). -/
def State.opticalNeighbour (s : State) (g : Nat) : Bool :=
  (List.range 8).any (fun i => decide (s.fld (Fld.portPeer (40 + i)) = g) && s.inService s.gdn (40 + i))

/-- PORT_STATE_ANNOUNCEMENT (R310, R312, R341): taken from every device of the pod and from every neighbour. -/
def execPortStateAnnouncement (tx : Tx) (s : State) : Result :=
  .next (s.arrives tx (fun s =>
    if tx.type ≠ 8 ∨ tx.op ≠ 2 ∨ (podOf tx.src ≠ podOf s.gdn ∧ s.opticalNeighbour tx.src = false) then s.malformed
    else
      let p := tx.word % 64
      let v := tx.word / 64 % 8 * 16 + tx.word / 512 % 16
      if 48 ≤ p then s.malformed
      else (State.reroute s (s.onFabric (fun f => { f with announced := Tab.put (tx.src * 64 + p) v f.announced }))).releaseHeld))

end Sys2Proof.Machine
end

