-- ==== Sys2Proof/Machine/Power.lean ====
section
/-! DEFINITION. Clocks and the power manager (R428 to R434, R487): the clock of each die, the duty in force, interventions
and their slow notices. -/
namespace Sys2Proof.Machine

/-- Device time in ns as the power manager's fields hold it; the state with them changed. -/
def State.onPower (s : State) (f : Power → Power) : State := { s with power := f s.power }

/-- The arithmetic clocks are pinned (R44, R428). -/
def State.pinned (s : State) : Bool := s.fld Fld.tickBound = 1 && s.armed

/-- The clock of die d before thermal steps, in 50 MHz: the planning clock, or the ceiling less what the manager holds,
which is never below the floor of 3.2 GHz or a lower ceiling (R5, R428). -/
def State.baseClock (s : State) (d : Nat) : Nat :=
  if s.pinned then s.fld Fld.planMult
  else max (min 64 (s.fld Fld.ceilMult)) (s.fld Fld.ceilMult - Tab.get 0 s.power.below d)

/-- The most severe thermal step among die d's stacks (R237). -/
def State.dieStep (s : State) (d : Nat) : Nat :=
  (List.range 3).foldl (fun m i => max m (s.fld (Fld.tstep (3 * d + i)))) 0

/-- A clock under a thermal step (R236). -/
def stepClock (step base : Nat) : Nat := if step = 0 then base else if step = 1 then base * 85 / 100 else base / 2

def State.dieClock (s : State) (d : Nat) : Nat := stepClock (s.dieStep d) (s.baseClock d)

/-- The reason code of PWR_CLK_d (R433). -/
def State.clockReason (s : State) (d : Nat) : Nat :=
  if 2 ≤ s.dieStep d then 4
  else if s.dieStep d = 1 then 3
  else if s.pinned then 1
  else if s.baseClock d < s.fld Fld.ceilMult then 2
  else 0

/-- The brake is in force: while PWR_BRAKE_N is low and for 100 µs after (R431). -/
def State.braking (s : State) : Bool := s.power.brakeLow || s.power.brakeHold.isSome

/-- The duty of die d: the lowest in force (R431, R434, R487). -/
def State.dieDuty (s : State) (d : Nat) : Nat :=
  min (min s.power.duty (if s.power.fastSince.isSome then 8 else 16)) (if s.braking || d ∈ s.power.junction then 4 else 16)

/-- A power-cap intervention is in force (R430, R487). -/
def State.intervenes (s : State) : Bool :=
  (!s.pinned && (List.range 4).any (fun d => s.baseClock d < s.fld Fld.ceilMult)) ||
    (List.range 4).any (fun d => s.dieDuty d < 16) || decide (s.power.bandwidth < 10)

/-- The delay factor of an intervention (R57, R430): 16 × 4.0 GHz over the lowest effective clock, rounded up. -/
def State.powerFactor (s : State) : Nat :=
  let low := (List.range 4).foldl (fun m d => min m (s.dieClock d * s.dieDuty d)) (80 * 16)
  if low = 0 then 0xFF else min 0xFF ((16 * 80 * 16 + low - 1) / low)

/-- The time under intervention counted up to now (R433). -/
def State.countIntervene (s : State) : State :=
  match s.power.since with
  | some t => (s.bump64 Reg.pwrIntervene (s.now - t)).onPower (fun p => { p with since := some s.now })
  | none => s

/-- The power page and the notices brought up to date after a change (R428 to R433). What sequencers have waited
is counted by the clock it was waited at (R180). -/
def State.refreshPower (s : State) : State :=
  let change := (List.range 4).any (fun d => decide (s.fld (Fld.clkMult d) ≠ s.dieClock d))
  let s0 := (if change then s.settleWaits else s).countIntervene
  let s1 := (List.range 4).foldl (fun s d =>
    (s.setFld (Fld.clkMult d) (s.dieClock d)).setFld (Fld.clkReason d) (s.clockReason d)) s0
  let duty := (List.range 4).foldl (fun m d => min m (s1.dieDuty d)) 16
  let s2 := ((s1.setFld Fld.duty duty).setFld Fld.bwCap s1.power.bandwidth).setFld Fld.brake (if s1.braking then 1 else 0)
  let s3 := s2.setFld Fld.fastLimit (if s2.power.fastSince.isSome then 1 else 0)
  if s3.intervenes then
    let s4 := ((s3.setFld Fld.intervening 1).onPower (fun p => { p with since := some s3.now })).excursion 1
    if s4.ownSlow.any (fun o => o.cause = 1 && o.factor = s4.powerFactor) then s4 else s4.beginSlow 1 0 s4.powerFactor
  else
    ((s3.setFld Fld.intervening 0).onPower (fun p => { p with since := none })).endSlow 1 0

-- the loop of R429

/-- Dies that can go 50 MHz lower. -/
def State.lowerable (s : State) : List Nat :=
  if s.pinned then [] else (List.range 4).filter (fun d => decide (min 64 (s.fld Fld.ceilMult) < s.baseClock d))

/-- One step down: the first action still available; false where none is. -/
def State.stepDown (s : State) : State × Bool :=
  let ds := s.lowerable
  if ds ≠ [] then
    (s.onPower (fun p => { p with
      below := ds.foldl (fun b d => Tab.set 0 d (Tab.get 0 b d + 1) b) p.below
      downs := p.downs ++ [.clocks ds] }), true)
  else if 4 < s.power.duty then
    (s.onPower (fun p => { p with duty := p.duty - 1, downs := p.downs ++ [.duty] }), true)
  else if 5 < s.power.bandwidth then
    (s.onPower (fun p => { p with bandwidth := p.bandwidth - 1, downs := p.downs ++ [.bandwidth] }), true)
  else (s, false)

/-- The last down step reversed. -/
def State.stepUp (s : State) : State :=
  s.onPower (fun p =>
    match p.downs.getLast? with
    | none => p
    | some k =>
      let p1 : Power := { p with downs := p.downs.dropLast }
      match k with
      | .clocks ds => { p1 with below := ds.foldl (fun b d => Tab.set 0 d (Tab.get 0 b d - 1) b) p1.below }
      | .duty => { p1 with duty := p1.duty + 1 }
      | .bandwidth => { p1 with bandwidth := p1.bandwidth + 1 })

/-- A cap and a ceiling set by command come into force (R432). -/
def State.applyCap (s : State) : State :=
  match s.power.next with
  | some (cap, ceil) =>
    ((s.setFld Fld.cap cap).setFld Fld.ceilMult ceil).onPower (fun p => { p with next := none })
  | none => s

/-- Input energy of 250 µs at `watts` (R433). -/
def State.countEnergy (s : State) (watts : Nat) : State :=
  let q := s.power.quarters + watts
  (s.bump64 Reg.pwrEnergy (q / 4)).onPower (fun p => { p with quarters := q % 4 })

/-- The power manager's decision at an average input power (R429). -/
def State.balance (s : State) (watts : Nat) : State :=
  let cap := s.fld Fld.cap
  if cap < watts then
    let s0 := s.onPower (fun p => { p with upCount := 0 })
    match s0.stepDown with
    | (s1, true) => s1.setFld Fld.capUnmet 0
    | (s1, false) => s1.setFld Fld.capUnmet 1
  else
    let s0 := s.setFld Fld.capUnmet 0
    if watts + 50 ≤ cap then
      if 3 ≤ s0.power.upCount then s0.stepUp.onPower (fun p => { p with upCount := 0 })
      else s0.onPower (fun p => { p with upCount := p.upCount + 1 })
    else s0.onPower (fun p => { p with upCount := 0 })

/-- POWER_EVALUATION (R429, R432): every 250 µs, on the input power averaged over the last 1 ms. -/
def execPowerEvaluation (watts : Nat) (s : State) : Result :=
  .next (((((s.setFld Fld.inputPower watts).countEnergy watts).applyCap).balance watts).refreshPower)

/-- FAST_CURRENT_LIMIT (R431): an input current above 1.25 × cap ÷ 12 V, in 0.1 A, forces a duty of 8/16 or less. -/
def execFastCurrentLimit (deciamps : Nat) (s : State) : Result :=
  .next (
    let s1 := s.setFld Fld.inputCurrent deciamps
    if s1.fld Fld.cap * 125 < deciamps * 120 ∧ s1.power.fastSince = none then
      ((s1.onPower (fun p => { p with fastSince := some s1.now })).bump64 Reg.pwrFastlim 1).refreshPower
    else s1)

/-- FAST_LIMIT_RELEASE (R431): after at least 100 µs, and once the current is below 0.9 times the limit. -/
def execFastLimitRelease (deciamps : Nat) (s : State) : Result :=
  .next (
    let s1 := s.setFld Fld.inputCurrent deciamps
    match s1.power.fastSince with
    | some t =>
      if deciamps * 1200 < s1.fld Fld.cap * 1125 then
        ((s1.at_ (t + us 100)).onPower (fun p => { p with fastSince := none })).refreshPower
      else s1
    | none => s1)

/-- PWR_BRAKE_ASSERT (R431, R493). -/
def execPwrBrakeAssert (s : State) : Result :=
  .next (((s.setFld Fld.boardBrake 1).onPower (fun p => { p with brakeLow := true, brakeHold := none })).refreshPower)

/-- PWR_BRAKE_RELEASE (R431): the brake holds for 100 µs more. -/
def execPwrBrakeRelease (s : State) : Result :=
  .next (
    if s.power.brakeLow then
      ((s.setFld Fld.boardBrake 0).onPower (fun p => { p with brakeLow := false, brakeHold := some s.now })).refreshPower
    else s)

/-- BRAKE_HOLD_EXPIRY (R431). -/
def execBrakeHoldExpiry (s : State) : Result :=
  .next (match s.power.brakeHold with
    | some t => ((s.at_ (t + us 100)).onPower (fun p => { p with brakeHold := none })).refreshPower
    | none => s)

/-- JUNCTION_LIMIT (R487): above 110 °C the die runs at a duty of 4/16, until its junction is below 100 °C. -/
def execJunctionLimit (die celsius : Nat) (s : State) : Result :=
  ifUnit (die < 4) (
    if 110 < celsius ∧ !(die ∈ s.power.junction) then
      (s.onPower (fun p => { p with junction := p.junction ++ [die] })).refreshPower
    else if celsius < 100 ∧ die ∈ s.power.junction then
      (s.onPower (fun p => { p with junction := p.junction.filter (fun d => d ≠ die) })).refreshPower
    else s)

end Sys2Proof.Machine
end

