-- ==== Sys2Proof/Machine/Links.lean ====
section
/-! DEFINITION. Ports and links: flits and their replay (R303 to R305), lanes (R307), ports that go down (R308), link-up
(R309, R300), and the die-to-die links (R24 to R26). -/
namespace Sys2Proof.Machine

def portOk (p : Nat) : Bool := decide (p < 48)

/-- Lanes of a port (R299). -/
def portLanes (p : Nat) : Nat := if p < 7 then 4 else if p < 40 then 2 else 8

/-- The lane steps of R307, down and up. -/
def fewerLanes (n : Nat) : Nat := if n = 8 then 4 else if n = 4 then 2 else if n = 2 then 1 else 0
def moreLanes (n : Nat) : Nat := if n = 4 then 8 else if n = 2 then 4 else if n = 1 then 2 else n

/-- A port carries flits: active, degraded or standing by, and not retraining. -/
def State.carries (s : State) (p : Nat) : Bool :=
  let st := s.fld (Fld.portState p)
  decide (st = 2 ∨ st = 3 ∨ st = 5)

/-- The state of a trained port with `n` lanes: a spare that no traffic uses stands by (R300). -/
def State.trainedState (s : State) (p n : Nat) : Nat :=
  let x := slotOf s.gdn
  let used : Bool := (p = 38 && decide ((x + 1) % 8 ∈ s.fabric.spareUsed)) || (p = 39 && decide ((x + 7) % 8 ∈ s.fabric.spareUsed))
  if (p = 38 ∨ p = 39) ∧ !used then 5 else if n = portLanes p then 2 else 3

/-- What waited for a port that has gone down, other than this device's own requests, which are resent: sent by another
way. -/
def State.redirect (s : State) (txs : List Tx) : State :=
  txs.foldl (fun s t => if t.src = s.gdn ∧ t.type < 8 then s else s.sendTx t) s

/-- A port goes down (R308): its unacknowledged flits are discarded, the pod is told, and routes change (R312). -/
def State.portDown (s : State) (p : Nat) : State :=
  let waiting := (s.port p).backlog
  let s1 := ((s.setFld (Fld.portState p) 0).setFld (Fld.portLanes p) 0).setPort p { Port.zero with lanesLost := (s.port p).lanesLost }
  let s2 := (State.reroute s s1).redirect waiting
  s2.announce p

/-- The loss of a port is absorbed where another way is left (R466): a spare port or reroute for an electrical port, a
second gateway for an optical one. -/
def State.absorbPort (s : State) (p : Nat) : State :=
  if p < 40 then s.absorbWithin 0x0A p 0 0 50000 0
  else if s.fabric.routes.any (fun r =>
      decide ((r.gw1 = some (s.gdn, p) ∧ r.gw2.isSome) ∨ (r.gw2 = some (s.gdn, p) ∧ r.gw1.isSome))) then
    s.absorbWithin 0x0B p 0 0 50000 0
  else s

/-- A planned lane test given up: its lane counts as removed (R479). -/
def State.endLaneTest (s : State) (p : Nat) : State :=
  if (s.port p).testing.isSome then (s.setPort p { s.port p with testing := none }).setFld ⟨Reg.testStatus, 3, 3⟩ 0 else s

/-- A port begins to retrain onto `n` lanes, and the pod is told (R307, R312). -/
def State.retrainTo (s : State) (p n : Nat) : State :=
  (((s.setFld (Fld.portState p) 1).setFld (Fld.portLanes p) n).setPort p { s.port p with retraining := true }).announce p

/-- The lane test of another port stopped by a lane fault: the lane retrains into service untested (R473). -/
def State.stopLaneTests (s : State) (p : Nat) : State :=
  s.fabric.ports.foldl (fun s e =>
    if e.1 ≠ p ∧ e.2.testing.isSome then
      (s.endLaneTest e.1).retrainTo e.1 (moreLanes (s.fld (Fld.portLanes e.1)))
    else s) s

/-- LANE_LOSS (R307, R308, R479): the port steps down its lanes, or goes down with its last one. -/
def execLaneLoss (p lane : Nat) (_f : LaneFault) (s : State) : Result :=
  ifUnit (portOk p && decide (lane < portLanes p)) (
    if !(s.carries p || (s.port p).retraining) ∨ lane ∈ (s.port p).lanesLost then s
    else
      let s1 := (s.stopLaneTests p).endLaneTest p
      let s2 := s1.setPort p { s1.port p with lanesLost := (s1.port p).lanesLost ++ [lane] }
      let n := fewerLanes (s2.fld (Fld.portLanes p))
      if n = 0 then (s2.portDown p).absorbPort p
      else (s2.retrainTo p n).absorbWithin 9 p lane 0 2000 0)

/-- LANE_RETRAIN_DONE (R307): the port carries traffic again, its unacknowledged flits first. -/
def execLaneRetrainDone (p : Nat) (s : State) : Result :=
  ifUnit (portOk p) (
    let x := s.port p
    if !x.retraining then s
    else
      let s1 := (s.setPort p { x with retraining := false }).setFld (Fld.portState p) (s.trainedState p (s.fld (Fld.portLanes p)))
      let s2 := if x.unacked = [] then s1
        else ((s1.send (.linkReplay p x.unacked)).bump64 (Reg.portReplay p) 1).onRecord (fun r => { r with replays := r.replays + 1 })
      (State.reroute s (s2.flushPort p x.backlog.length)).announce p)

-- flits (R303, R305)

/-- Flits of the replay buffer that an acknowledged sequence covers. -/
def acked (ack : Nat) (fs : List (Nat × List Byte)) : Nat := (fs.takeWhile (fun f => (ack + 2 ^ 16 - f.1) % 2 ^ 16 < 2 ^ 15)).length

/-- The acknowledgement of a link header: what it covers leaves the replay buffer, and waiting traffic follows. -/
def State.linkAcked (s : State) (p ack : Nat) : State :=
  let x := s.port p
  let n := acked ack x.unacked
  if n = 0 then s
  else (s.setPort p { x with unacked := x.unacked.drop n, consecutive := 0 }).flushPort p x.backlog.length

/-- A nak: every flit after the one it names is resent; the 16th replay of a flit takes the port down (R305, R308). -/
def State.nakked (s : State) (p : Nat) : State :=
  let x := s.port p
  if x.unacked = [] then s
  else if 16 ≤ x.consecutive + 1 then (s.portDown p).absorbPort p
  else
    (((s.setPort p { x with consecutive := x.consecutive + 1 }).send (.linkReplay p x.unacked)).bump64 (Reg.portReplay p) 1).onRecord
      (fun r => { r with replays := r.replays + 1 })

/-- The last flit accepted on a port. -/
def State.lastFlit (s : State) (p : Nat) : Nat := ((s.port p).expect + 2 ^ 16 - 1) % 2 ^ 16

/-- The flit is whole: 256 bytes, its CRC-64 over the first 248 right, its codeword correctable. -/
def flitGood (fec : FecResult) (bs : List Byte) : Bool :=
  decide (fec ≠ .uncorrectable) && decide (bs.length = 256) && decide ((crc64 (bs.take 248)).toNat = fieldLE bs 248 8)

/-- The channel and slots of the transaction whose header begins at slot `i` of a flit (R303, R306, R315); a read carries no
data. -/
def flitCredit (bs : List Byte) (i : Nat) : Nat × Nat :=
  let hd := slice bs (8 + 16 * i) 16
  let type := fieldLE hd 0 1 % 16
  ((if type < 8 then 0 else 8) + fieldLE hd 0xE 2 % 8, if type = 1 then 2 else 2 + (fieldLE hd 2 2 % 2 ^ 10 + 15) / 16)

/-- A good flit by its sequence: accepted in order and acknowledged, acknowledged again where it was accepted before, and
refused with a nak after a gap. An accepted one returns credits of this side's channels, and the credits of the transactions
that begin in it go back with a later flit (R306). -/
def State.takeFlit (s : State) (p : Nat) (bs : List Byte) : State :=
  let x := s.port p
  let h := fieldLE bs 0 8
  let seq := bitsOf h 63 48
  if seq = x.expect then
    ((s.setPort p { x with
        expect := (seq + 1) % 2 ^ 16
        used := Tab.set 0 (bitsOf h 29 26) (Tab.get 0 x.used (bitsOf h 29 26) - bitsOf h 25 18) x.used
        owed := x.owed ++ ((List.range 15).filter (fun i => bitOf h i)).map (flitCredit bs) }).bump64 (Reg.portRx p) 1).send
      (.linkAck p false seq)
  else if (x.expect + 2 ^ 16 - seq) % 2 ^ 16 < 2 ^ 15 then s.send (.linkAck p false (s.lastFlit p))
  else s.send (.linkAck p true (s.lastFlit p))

/-- FLIT_RECEIVE (R305): the transactions that an accepted flit completes are commands of their own. A nak names the last flit that the
other side accepted, so it acknowledges those up to it. -/
def execFlitReceive (p : Nat) (fec : FecResult) (flit : List Byte) (s : State) : Result :=
  ifUnit (portOk p) (
    if !s.carries p then s
    else
      let s1 := match fec with
        | .clean => s
        | .corrected => s.bump64 (Reg.portFecCorr p) 1
        | .uncorrectable => s.bump64 (Reg.portFecUncorr p) 1
      if !flitGood fec flit then s1.send (.linkAck p true (s1.lastFlit p))
      else
        let h := fieldLE flit 0 8
        let s2 := s1.takeFlit p flit
        let s3 := if bitOf h 31 || bitOf h 30 then s2.linkAcked p (bitsOf h 47 32) else s2
        if bitOf h 30 then s3.nakked p else s3)

-- link-up (R300, R309)

/-- The device that R299 names behind an electrical port. -/
def State.wiredTo (s : State) (p : Nat) : Nat :=
  if p < 38 then s.neighbour p
  else devOf (podOf s.gdn) (sledOf s.gdn) ((slotOf s.gdn + (if p = 38 then 1 else 7)) % 8)

/-- The port's peer is not the device that R299 names; known once the device has its own number. -/
def State.miswired (s : State) (p peer : Nat) : Bool := decide (p < 40) && s.fld Fld.idValid = 1 && decide (peer ≠ s.wiredTo p)

/-- LINK_UP (R300, R309): a port in training or with no link has trained and exchanged device numbers. -/
def execLinkUp (p peer lanes : Nat) (s : State) : Result :=
  ifUnit (portOk p && decide (1 ≤ lanes ∧ lanes ≤ portLanes p) && decide (peer < 65536)) (
    let st := s.fld (Fld.portState p)
    if (st = 1 ∧ !(s.port p).retraining) ∨ st = 6 then
      let s1 := (s.setPort p Port.zero).setFld (Fld.portPeer p) peer
      let s2 := if s1.miswired p peer then (s1.setFld (Fld.portState p) 4).setFld (Fld.portLanes p) 0
        else (s1.setFld (Fld.portLanes p) lanes).setFld (Fld.portState p) (s1.trainedState p lanes)
      let s3 := (s2.noteSpares).announce p
      if (List.range 48).any (fun q => s3.fld (Fld.portState q) = 1) then s3 else s3.endLongCode 0x0809 Status.success 0
    else s)

-- die-to-die links (R24 to R26, R466)

/-- Modules of a die-to-die link: 12 to the memory-side dies, 6 between accelerator dies, 4 to the fabric die, 2 to the
processor die. -/
def d2dModules (link : Nat) : Nat := if link < 12 then 16 else if link < 18 then 12 else if link < 22 then 6 else 2

/-- DIE_TO_DIE_REPLAY (R25): a replay adds latency, and counts in the tick record (R50). -/
def execDieToDieReplay (link : Nat) (s : State) : Result :=
  ifUnit (decide (link < 24)) (({ s with tests := { s.tests with
    d2dReplays := Tab.set 0 link (Tab.get 0 s.tests.d2dReplays link + 1) s.tests.d2dReplays } }).onRecord
      (fun r => { r with replays := r.replays + 1 }))

/-- DIE_TO_DIE_LANE_FAILURE (R26, R466): a lane repaired in its module, or the module taken out; a link without modules is
the loss of a die (R15; DEDUCED). -/
def execDieToDieLaneFailure (link module : Nat) (repairable : Bool) (s : State) : Result :=
  ifUnit (decide (link < 24) && decide (module < d2dModules link)) (
    let k := link * 16 + module
    let out := Tab.get 0 s.tests.d2dOut link
    if bitOf out module then s
    else if repairable then
      ({ s with tests := { s.tests with d2dLanes := Tab.set 0 k (Tab.get 0 s.tests.d2dLanes k + 1) s.tests.d2dLanes } }).absorbWithin
        8 link module 0 5000 0
    else
      let s1 : State := { s with tests := { s.tests with d2dOut := Tab.set 0 link (setBit out module) s.tests.d2dOut } }
      if (List.range (d2dModules link)).all (fun m => m = module || bitOf out m) then
        let s2 := s1.logFault 8 link module 3 0 0
        if link < 12 then s2.endDevice (link / 3) else s2.endDeviceOther
      else s1.absorbWithin 8 link module 1 5000 0)

end Sys2Proof.Machine
end

