-- ==== Sys2Proof/Machine/Stack.lean ====
section
/-! DEFINITION. The memory-side dies (R54, R223, R224, R231 to R239, R369): granule copies, the scrubber, row repair, page
retirement, channel map-out and thermal steps. -/
namespace Sys2Proof.Machine

def State.onMemory (s : State) (f : Memory → Memory) : State := { s with memory := f s.memory }

-- granule copies

/-- UNDO_COPY_DONE (R54): the copy has been made and the waiting writes go on. -/
def execUndoCopyDone (granule : Nat) (s : State) : Result :=
  .next (match Tab.find? s.memory.undo granule with
    | some u =>
      if u.done then s
      else
        ((s.onMemory (fun m => { m with undo := Tab.put granule { u with done := true } m.undo })).goOn)
    | none => s)

/-- CBW_COPY_DONE (R369): the granule is saved and the waiting writes go on. -/
def execCbwCopyDone (granule : Nat) (s : State) : Result :=
  .next (match Tab.find? s.ckpt.grans granule with
    | some (.saving im) =>
      (({ s with ckpt := { s.ckpt with grans := Tab.put granule (.saved im) s.ckpt.grans } }).goOn)
    | _ => s)

-- rows, pages and channels

/-- Free pages in a stack's own reserve slices: 32 slices of 64 MiB, less what is in use (R208, R233). -/
def State.ownFree (s : State) (st : Nat) : Nat := 32768 - Tab.get 0 s.memory.used st

/-- The free pool of a stack: 4,096 less its retired pages, or the free pages of its own slices where they are fewer (R233). -/
def State.refreshPool (s : State) (st : Nat) : State :=
  s.setFld (Fld.poolFree st) (min (4096 - s.fld (Fld.stackRetired st)) (s.ownFree st))

/-- `n` pages of a stack's own slices taken into use. -/
def State.usePages (s : State) (st n : Nat) : State :=
  (s.onMemory (fun m => { m with used := Tab.set 0 st (Tab.get 0 m.used st + n) m.used })).refreshPool st

/-- `n` pages of a stack's own slices free again. -/
def State.freePool (s : State) (st n : Nat) : State :=
  (s.onMemory (fun m => { m with used := Tab.set 0 st (Tab.get 0 m.used st - n) m.used })).refreshPool st

/-- How many of the `rest` pages that a map-out still needs come from stack `t`: as many as a free value says, within what the
stack has free and what the stacks after it leave over. -/
def State.mapShare (s : State) (t rest v : Nat) : Nat :=
  let least := rest - ((List.range 12).filter (fun u => decide (t < u))).foldl (fun n u => n + s.ownFree u) 0
  least + v % (min rest (s.ownFree t) - least + 1)

/-- The 24,576 pages of a map-out (R208, R234): what is free in the channel's own slice, of which nothing can be used again, and the
rest from slices of any stacks, a free value for each saying how many. -/
def State.useReserve (s : State) (st : Nat) : State :=
  let own := 1024 - min 1024 (Tab.get 0 s.memory.used st)
  ((List.range 12).foldl (fun (a : State × Nat) t =>
    let (v, s1) := a.1.fresh
    let n := a.1.mapShare t a.2 v.toNat
    (s1.usePages t n, a.2 - n)) (s.usePages st own, 24576 - own)).1

/-- A channel mapped out (R234), or kept in service without a reserve, with less capacity at the next admission (R235). A channel
that was kept in service is mapped out once the reserve takes it, and lowers the capacity no longer (DEDUCED, log entry 122). -/
def State.mapOut (s : State) (st ch : Nat) : State :=
  let kept := decide (s.fld (Fld.chanState st ch) = 3)
  if s.fld (Fld.chanState st ch) ≠ 0 ∧ kept = false then s
  else if 24576 ≤ s.fld Fld.freePages then
    let s0 := if kept then s.setFld (Fld.capNext st) (s.fld (Fld.capNext st) + 1472) else s
    let s1 := (s0.setFld (Fld.chanState st ch) 1).setFld Fld.freePages (s.fld Fld.freePages - 24576)
    ((s1.useReserve st).onMemory (fun m => { m with
      chanStuck := m.chanStuck.filter (fun c => c ≠ (st, ch)), chanMig := m.chanMig ++ [(st, ch)] })).logFault 5 st ch 1 0 0
  else if kept then s
  else
    let s1 := (s.setFld (Fld.chanState st ch) 3).setFld (Fld.capNext st) (s.fld (Fld.capNext st) - 1472)
    (s1.onMemory (fun m => { m with chanStuck := m.chanStuck ++ [(st, ch)] })).logFault 5 st ch 2 0 0

/-- Channels that were kept in service mapped out as far as the reserve takes them now (R235). -/
def State.mapStuck (s : State) : State := s.memory.chanStuck.foldl (fun s c => s.mapOut c.1 c.2) s

/-- A page retired to the stack's pool and migrating there, unless its channel must be mapped out instead (R233, R234). A page of the
pool that fails in its turn is retired too. -/
def State.retirePage (s : State) (st ch page addr : Nat) : State :=
  if (st, ch, page) ∈ s.memory.pageMig then s
  else if 32 < s.fld (Fld.chanRetired st ch) + 1 ∨ s.fld (Fld.poolFree st) = 0 then s.mapOut st ch
  else
    let s1 := (s.bump (Fld.chanRetired st ch) 1).bump (Fld.stackRetired st) 1
    let s2 := (s1.setFld Fld.freePages (s1.fld Fld.freePages - 1)).usePages st 1
    (s2.onMemory (fun m => { m with pageMig := m.pageMig ++ [(st, ch, page)] })).absorbWithin 4 st ch 1 100 (addr / 4096)

/-- A page under test that is not returned to service: retired, its data staying in the page of the pool it was copied to;
past the limit its channel is mapped out (R233, R234, R472, R479). -/
def State.keepRetired (s : State) (st ch page : Nat) : State :=
  let s1 := s.onMemory (fun m => { m with retired := m.retired ++ [(st, ch, page)] })
  let s2 := ((s1.bump (Fld.chanRetired st ch) 1).bump (Fld.stackRetired st) 1).refreshPool st
  if 32 < s2.fld (Fld.chanRetired st ch) then s2.mapOut st ch else s2

/-- Number of the 64 KiB channel-local page of an address in its channel (R210). -/
def State.pageOf (s : State) (addr : Nat) : Nat := (s.channel addr).2 / 65536

/-- The data of an address may lie outside the channel that R210 gives it: its page or its whole channel has moved or is moving. -/
def State.moved (s : State) (addr : Nat) : Bool :=
  let t := (s.place addr).1
  let c := (s.channel addr).1
  decide ((t, c, s.pageOf addr) ∈ s.memory.retired ++ s.memory.pageMig ++ s.memory.pageTest) ||
    decide (s.fld (Fld.chanState t c) = 1 ∨ s.fld (Fld.chanState t c) = 2)

/-- The line at job HBM address `addr` may lie in this channel (R210, R233, R234). -/
def State.liesIn (s : State) (st ch addr : Nat) : Bool :=
  decide (addr < hbmSize) && (decide ((s.place addr).1 = st ∧ (s.channel addr).1 = ch) || s.moved addr)

/-- A stack serves: it is not above 105 °C, and neither a protective stop nor PS2 has placed it in self-refresh (R236, R239, R426). -/
def State.stackServes (s : State) (st : Nat) : Bool :=
  decide (s.fld (Fld.tstep st) ≠ 3) && decide (s.fld Fld.state ≠ 6) && decide (s.fld Fld.pstate < 2)

/-- A row failure stops the page tests: the page that took it is retired, its data staying in the reserve copy (R479); the
others return to service untested (R473). -/
def State.pageFault (s : State) (st ch page : Nat) : State :=
  let hit := decide ((st, ch, page) ∈ s.memory.pageTest)
  let others := s.memory.pageTest.filter (fun p => p ≠ (st, ch, page))
  let s1 := (s.onMemory (fun m => { m with pageTest := [] })).bump Fld.freePages others.length
  let s2 := others.foldl (fun s p => s.freePool p.1 1) (s1.setFld ⟨Reg.testStatus, 2, 2⟩ 0)
  if hit then s2.keepRetired st ch page else s2

/-- A row fails (R231): soft repair the first time, and the page retired where the table is full or a remapped row fails
again (R232, R233). -/
def State.rowFails (s0 : State) (st ch pc row addr : Nat) : State :=
  let s := s0.pageFault st ch (s0.pageOf addr)
  if (st, ch, pc, row) ∈ s.memory.remapped ∨
      64 ≤ (s.memory.remapped.filter (fun r => r.1 = st && r.2.1 = ch && r.2.2.1 = pc)).length then
    s.retirePage st ch (s.pageOf addr) addr
  else
    let s1 := (s.onMemory (fun m => { m with
      remapped := m.remapped ++ [(st, ch, pc, row)], hardPending := m.hardPending ++ [(st, ch, pc, row)] }))
    (({ s1 with mram := { s1.mram with hardPending := s1.memory.hardPending } }).bump (Fld.softPending st ch) 1).absorbWithin
      4 st ch 2 1000 (addr / 4096)

/-- The lines of `n` bytes from `a` that have an uncorrectable error. -/
def State.badIn (s : State) (a n : Nat) : List (Nat × Nat × Nat × Nat) :=
  s.memory.bad.filter (fun l => overlaps a n (l.1 * 64) 64)

/-- A read of the `n` bytes from `a` finds a line that it cannot correct: which line of them, and in which row of its channel, is
open (R223). -/
def State.findBad (s : State) (a n : Nat) : State :=
  let (k, s1) := s.upTo ((a + n - 1) / 64 - a / 64)
  let (pc, s2) := s1.upTo 1
  let (row, s3) := s2.fresh
  s3.onMemory (fun m => { m with bad := m.bad ++ [(a / 64 + k, (s.channel ((a / 64 + k) * 64)).1, pc, row.toNat)] })

/-- Lines that a read could not correct: each counts, and its row fails (R231, R240). -/
def State.badRead (s : State) (ls : List (Nat × Nat × Nat × Nat)) : State :=
  ls.foldl (fun s l =>
    let st := s.stackOf (l.1 * 64)
    (s.bump32 (Reg.errUncorr st) 1).rowFails st l.2.1 l.2.2.1 l.2.2.2 (l.1 * 64)) s

/-- SCRUB (R223, R224, R231): what the scrubber finds in a line. A line with an uncorrectable error is left as it is: its
tile's next reader finds the failure (R228). A line of the channel at which no job data lies (a reserve slice, the reserves of R211,
metadata) bears an address that R210 does not place there: its row is repaired the same way. -/
def execScrub (st ch pc row addr : Nat) (f : ScrubFinding) (s : State) : Result :=
  ifUnit (st < 12 && ch < 32 && pc < 2) (
    match f with
    | .clean => s
    | .corrected => s.bump32 (Reg.errCorr st) 1
    | .correctedAgain => (s.bump32 (Reg.errCorr st) 1).rowFails st ch pc row addr
    | .uncorrectable =>
      let s1 := s.bump32 (Reg.errUncorr st) 1
      (if s.liesIn st ch addr then s1.onMemory (fun m => { m with
          bad := m.bad.filter (fun l => l.1 ≠ addr / 64) ++ [(addr / 64, ch, pc, row)] }) else s1).rowFails st ch pc row addr)

/-- PAGE_MIGRATION_DONE (R233). -/
def execPageMigrationDone (st ch page : Nat) (s : State) : Result :=
  ifUnit (st < 12 && ch < 32) (
    if (st, ch, page) ∈ s.memory.pageMig then
      s.onMemory (fun m => { m with
        pageMig := m.pageMig.filter (fun p => p ≠ (st, ch, page)), retired := m.retired.filter (fun p => p ≠ (st, ch, page)) ++ [(st, ch, page)] })
    else s)

/-- CHANNEL_MIGRATION_DONE (R234): the channel reads mapped out, and its retired pages return to the pool. -/
def execChannelMigrationDone (st ch : Nat) (s : State) : Result :=
  ifUnit (st < 12 && ch < 32) (
    if (st, ch) ∈ s.memory.chanMig then
      let n := s.fld (Fld.chanRetired st ch)
      let s1 := s.onMemory (fun m => { m with
        chanMig := m.chanMig.filter (fun p => p ≠ (st, ch))
        retired := m.retired.filter (fun p => !(p.1 = st && p.2.1 = ch))
        pageMig := m.pageMig.filter (fun p => !(p.1 = st && p.2.1 = ch)) })
      let s2 := ((s1.setFld (Fld.chanState st ch) 2).bump (Fld.chanOut st) 1).setFld (Fld.chanRetired st ch) 0
      let s3 := (s2.setFld (Fld.stackRetired st) (s2.fld (Fld.stackRetired st) - n)).bump Fld.freePages n
      (s3.freePool st n).mapStuck
    else s)

-- thermal steps

/-- The step of a temperature below the protective stop (R236). -/
def stepOf (celsius : Nat) : Nat := if 95 ≤ celsius then 2 else if 85 ≤ celsius then 1 else 0

/-- Lower threshold of a step. -/
def stepFloor (step : Nat) : Nat := if step = 2 then 95 else 85

/-- The delay factor of a step (R57). -/
def stepFactor (step : Nat) : Nat := if step = 2 then 0x20 else 0x14

/-- Since when the stack has been 3 °C below its step's threshold (R238); kept plus 1, so that 0 is "not". -/
def State.noteCool (s : State) (st : Nat) : State :=
  let step := s.fld (Fld.tstep st)
  let cool := decide (step = 1 ∨ step = 2) && decide (s.fld (Fld.temp st) + 3 ≤ stepFloor step)
  s.onMemory (fun m => { m with
    coolSince := Tab.set 0 st (if cool then (if Tab.get 0 m.coolSince st = 0 then s.now + 1 else Tab.get 0 m.coolSince st) else 0)
      m.coolSince })

/-- A thermal step entered (R236, R237): the clocks follow, the excursion and the notices are those of R57. -/
def State.enterStep (s : State) (st step : Nat) : State :=
  (((s.setFld (Fld.tstep st) step).excursion 0).beginSlow 0 st (stepFactor step)).refreshPower

/-- THERMAL_SAMPLE (R236, R239): a hotter step applies at once, and a stack above 105 °C stops the device. -/
def execThermalSample (st celsius : Nat) (s : State) : Result :=
  ifUnit (st < 12) (
    let s1 := s.setFld (Fld.temp st) celsius
    if s1.fld (Fld.tstep st) = 3 then s1
    else if 105 < celsius then ((s1.setFld (Fld.tstep st) 3).protectiveStop st celsius).refreshPower
    else if s1.fld (Fld.tstep st) < stepOf celsius then (s1.enterStep st (stepOf celsius)).noteCool st
    else s1.noteCool st)

/-- THERMAL_STEP_EXIT (R238): after 1 ms at least 3 °C below the step's lower threshold, one step down. -/
def execThermalStepExit (st : Nat) (s : State) : Result :=
  ifUnit (st < 12) (
    match Tab.get 0 s.memory.coolSince st with
    | 0 => s
    | t + 1 =>
      let s1 := (s.at_ (t + us 1000)).onMemory (fun m => { m with coolSince := Tab.set 0 st 0 m.coolSince })
      if s1.fld (Fld.tstep st) = 2 then (s1.enterStep st 1).noteCool st
      else if s1.fld (Fld.tstep st) = 1 then ((s1.setFld (Fld.tstep st) 0).endSlow 0 st).refreshPower
      else s1)

end Sys2Proof.Machine
end

