-- ==== Sys2Proof/Machine/Sparing.lean ====
section
/-! DEFINITION. Physical units and online test (R17 to R23, R273, R467 to R473, R478, R479): core migration, hosting of
Marrow lists, tests and their deferral, and checker failures. -/
namespace Sys2Proof.Machine

def State.onTests (s : State) (f : Tests → Tests) : State := { s with tests := f s.tests }

-- physical cores

def coreKey (die phys : Nat) : Nat := die * 64 + phys
def State.isRetired (s : State) (die phys : Nat) : Bool := coreKey die phys ∈ s.mram.retiredCores

/-- The logical core that a physical core serves. -/
def State.coreOn (s : State) (die phys : Nat) : Option Nat :=
  ((List.range 48).map (fun i => die * 48 + i)).find? (fun n => decide (s.fld (Fld.coreState n) ≠ 3) && decide (s.fld (Fld.corePhys n) = phys))

/-- The physical core is the target of a migration on its die. -/
def State.isTarget (s : State) (die phys : Nat) : Bool :=
  s.tests.migrating.any (fun m => decide (m.core / 48 = die) && decide (m.target = phys))

/-- A spare that can be taken (R18): neither mapped nor retired, not out for a test, and not the target of a migration. -/
def State.isSpare (s : State) (die phys : Nat) : Bool :=
  decide (phys < 52) && (s.coreOn die phys).isNone && !s.isRetired die phys &&
    decide (s.tests.coreTest ≠ some (coreKey die phys)) && !s.isTarget die phys

/-- The spares of a die, those under BIST last. -/
def State.spares (s : State) (die : Nat) : List Nat :=
  let all := (List.range 52).filter (fun p => s.isSpare die p)
  all.filter (fun p => !(coreKey die p ∈ s.tests.spareTests)) ++ all.filter (fun p => coreKey die p ∈ s.tests.spareTests)

/-- DEV_DIE_CORE_STATUS of a die brought up to date (R23). The target of a migration is a spare until the copy is done. -/
def State.refreshDie (s : State) (die : Nat) : State :=
  let n := (s.mram.retiredCores.filter (fun k => k / 64 = die)).length
  let test := match s.tests.coreTest with
    | some k => if k / 64 = die then k % 64 else 0xFF
    | none => 0xFF
  let targets := (s.tests.migrating.filter (fun m => m.core / 48 = die)).length
  ((s.setFld (Fld.dieRetired die) n).setFld (Fld.dieSpares die) ((s.spares die).length + targets)).setFld (Fld.dieUnderTest die) test

/-- A physical core retired: it joins the retirement list of the device records (R438, R468). -/
def State.retireCore (s : State) (die phys : Nat) : State :=
  if s.isRetired die phys then s
  else
    (({ s with mram := { s.mram with retiredCores := s.mram.retiredCores ++ [coreKey die phys] } }).onTests (fun t => { t with
      coreTest := if t.coreTest = some (coreKey die phys) then none else t.coreTest
      spareTests := t.spareTests.filter (fun k => k ≠ coreKey die phys) })).refreshDie die

-- the test page (R471 to R473, R478)

def State.setActive (s : State) (c : Nat) (on : Bool) : State := s.setFld ⟨Reg.testStatus, c, c⟩ (if on then 1 else 0)
def State.setDeferred (s : State) (c : Nat) (on : Bool) : State := s.setFld ⟨Reg.testStatus, 8 + c, 8 + c⟩ (if on then 1 else 0)

/-- Units of an enabled class that a cycle tests (R471, R472): physical cores, Marrow engines, 64 KiB pages of 1,536 MiB
channels, lanes. -/
def State.testUnits (s : State) (c : Nat) : Nat :=
  if c = 0 then 208 - s.mram.retiredCores.length
  else if c = 1 then 192 - s.mram.failedMarrow.length
  else if c = 2 then 12 * 32 * 24576
  else 158

/-- A unit of a class has been tested; a cycle is complete once every unit of each enabled class has been (R478). -/
def State.unitTested (s : State) (c : Nat) : State :=
  let s1 := s.onTests (fun t => { t with tested := Tab.set 0 c (Tab.get 0 t.tested c + 1) t.tested })
  if (List.range 4).all (fun d => !bitOf (s1.fld Fld.testEnable) d || decide (s1.testUnits d ≤ Tab.get 0 s1.tests.tested d)) then
    ((s1.onTests (fun t => { t with tested := [] })).bump Fld.testCycles 1).setFld ⟨Reg.cycleTime, 63, 0⟩ s1.now
  else s1

/-- A test failure counted and logged (R477, R478). -/
def State.testFailed (s : State) (cls unit sub detail : Nat) : State := (s.bump64 Reg.testFail 1).logFault cls unit sub 4 0 detail

/-- Units of a class whose fault is being absorbed (R473). -/
def State.absorbing (s : State) (c : Nat) : Bool :=
  if c = 0 then s.tests.migrating.any (fun m => m.fault)
  else if c = 2 then !s.memory.pageMig.isEmpty || !s.memory.chanMig.isEmpty
  else if c = 3 then s.fabric.ports.any (fun p => p.2.retraining && p.2.testing.isNone)
  else false

/-- What holds back a due test of a class (R473); `hot`: a thermal step on the die or stack concerned. -/
def State.testHeld (s : State) (c : Nat) (hot : Bool) : Bool :=
  s.absorbing c || hot || s.fld Fld.intervening = 1 || s.tick.rerun

/-- A test of class `c` started by `f` where it may start, deferred where R473 holds it back. -/
def State.startTest (s : State) (c : Nat) (hot can : Bool) (f : State → State) : State :=
  if s.job.isNone ∨ !bitOf (s.fld Fld.testEnable) c ∨ !can then s
  else if s.testHeld c hot then s.setDeferred c true
  else f ((s.setDeferred c false).setActive c true)

/-- Class 0 has no test under way. -/
def State.coreIdle (s : State) : Bool :=
  s.tests.coreTest.isNone && s.tests.spareTests.isEmpty && !s.tests.migrating.any (fun m => !m.fault)

def State.refreshCoreTest (s : State) : State := s.setActive 0 (!s.coreIdle)

-- migration (R19, R20, R468)

/-- A logical core begins to migrate. -/
def State.migrate (s : State) (n target : Nat) (fault : Bool) : State :=
  ((s.setFld (Fld.coreState n) 1).onTests (fun t => { t with
    migrating := t.migrating ++ [⟨n, target, fault⟩]
    spareTests := t.spareTests.filter (fun k => k ≠ coreKey (n / 48) target) })).refreshDie (n / 48)

/-- CORE_ROTATION_START (R19, R472, R473): a core at its end-of-step wait at least 6 µs before the next tick moves to a
spare, one physical core at a time. -/
def execCoreRotationStart (n : Nat) (s : State) : Result :=
  ifUnit (decide (n < 192)) (
    let die := n / 48
    let next := (s.reg Reg.tckTime).toNat + 6000
    let slack : Bool := s.fld (Fld.seqState n) = 2 && s.fld Fld.running = 1 &&
      decide (next ≤ s.fld Fld.startTime + s.tick.next * s.fld Fld.period * 10)
    s.startTest 0 (decide (s.dieStep die ≠ 0))
      (slack && s.tests.coreTest.isNone && s.tests.migrating.isEmpty && s.fld (Fld.coreState n) = 0)
      (fun t => match t.spares die with
        | p :: _ => t.migrate n p false
        | [] => s))

/-- Transfers and collectives that wait for a store that moved started (R20). -/
def State.startTransfers (s : State) : State :=
  (s.cores.inflight.map (fun o => o.id)).foldl (fun s i =>
    match s.op? i with
    | some o =>
      if o.queued ∧ o.record.unit = 4 then
        let (s1, o1) := if (s.xferOp o).kind = 6 then collStart s o else xferRun s o
        (s1.setOp o1).drive o.list
      else s
    | none => s) s

/-- What waited for a core's store goes on: writes, requests of peers, transfers (R20). -/
def State.storesOpen (s : State) : State := s.goOn.startTransfers

/-- MIGRATION_COPY_DONE (R20, R22, R468): the logical core runs on its new physical core; the one it leaves is tested, or
retired after a fault. -/
def execMigrationCopyDone (n : Nat) (s : State) : Result :=
  ifUnit (decide (n < 192)) (
    match s.tests.migrating.find? (fun m => m.core = n) with
    | none => s
    | some m =>
      let die := n / 48
      let old := s.fld (Fld.corePhys n)
      let s1 := s.onTests (fun t => { t with
        migrating := t.migrating.filter (fun x => x ≠ m)
        coreTest := if m.fault then t.coreTest else some (coreKey die old) })
      let s2 := ((s1.setFld (Fld.corePhys n) m.target).setFld (Fld.coreState n) 0).bump (Fld.coreMoves n) 1
      ((if m.fault then s2.retireCore die old else s2.refreshDie die).refreshCoreTest).storesOpen)

/-- SPARE_CORE_BIST_START (R472). -/
def execSpareCoreBistStart (die phys : Nat) (s : State) : Result :=
  ifUnit (decide (die < 4) && decide (phys < 52)) (
    s.startTest 0 (decide (s.dieStep die ≠ 0)) (s.isSpare die phys && !(coreKey die phys ∈ s.tests.spareTests)) (fun t =>
      t.onTests (fun x => { x with spareTests := x.spareTests ++ [coreKey die phys] })))

/-- CORE_BIST_DONE (R472): a core that passes is a spare; one that fails is retired and logged. -/
def execCoreBistDone (die phys : Nat) (v : Verdict) (s : State) : Result :=
  ifUnit (decide (die < 4) && decide (phys < 52)) (
    let k := coreKey die phys
    if s.tests.coreTest ≠ some k ∧ !(k ∈ s.tests.spareTests) then s
    else
      let s1 := s.onTests (fun t => { t with
        coreTest := if t.coreTest = some k then none else t.coreTest
        spareTests := t.spareTests.filter (fun x => x ≠ k) })
      let s2 := match v with
        | .pass => s1.refreshDie die
        | .fail => (s1.retireCore die phys).testFailed 1 die phys 0
      (s2.unitTested 0).refreshCoreTest)

/-- Tests of physical cores stopped by a fault of their class: their units return untested (R473). A rotation whose source
is the failed core goes on as its migration. -/
def State.stopCoreTests (s : State) (keep : Option Nat) : State :=
  let stop := s.tests.migrating.filter (fun m => !m.fault && decide (keep ≠ some m.core))
  let s1 := stop.foldl (fun s m => s.setFld (Fld.coreState m.core) 0) s
  let s2 := s1.onTests (fun t => { t with
    migrating := t.migrating.filter (fun m => !(m ∈ stop)), coreTest := none, spareTests := [] })
  (((List.range 4).foldl (fun s d => s.refreshDie d) s2).refreshCoreTest).storesOpen

/-- No spare is left for a logical core: the job has ended as a device loss (R21, R22). -/
def State.coreLost (s : State) (n phys : Nat) : State :=
  let die := n / 48
  (((s.setFld (Fld.coreState n) 3).retireCore die phys).logFault 1 die phys 3 0 n).endDevice die

/-- A logical core moved to a spare of its die after a fault (R468). -/
def State.rescueCore (s : State) (n phys : Nat) : State :=
  match s.spares (n / 48) with
  | p :: _ => (s.migrate n p true).absorbWithin 1 (n / 48) phys 1 6000 n
  | [] => s.coreLost n phys

/-- CORE_CHECKER_FAILURE (R21, R465, R468, R479). -/
def execCoreCheckerFailure (die phys : Nat) (s : State) : Result :=
  ifUnit (decide (die < 4) && decide (phys < 52)) (
    if s.isRetired die phys then s
    else
      match s.tests.migrating.find? (fun m => decide (m.core / 48 = die) && decide (m.target = phys)) with
      | some m =>
        let s0 := s.stopCoreTests none
        let s1 := (s0.onTests (fun t => { t with migrating := t.migrating.filter (fun x => x ≠ m) })).retireCore die phys
        if m.fault then s1.rescueCore m.core (s.fld (Fld.corePhys m.core))
        else s1.absorbWithin 1 die phys 1 6000 m.core
      | none =>
        match s.coreOn die phys with
        | some n =>
          let s1 := s.stopCoreTests (some n)
          if s1.tests.migrating.any (fun m => m.core = n) then
            (s1.onTests (fun t => { t with
              migrating := t.migrating.map (fun m => if m.core = n then { m with fault := true } else m) })).absorbWithin
              1 die phys 1 6000 n
          else s1.rescueCore n phys
        | none => ((s.stopCoreTests none).retireCore die phys).absorbWithin 1 die phys 1 6000 0)

-- Marrow engines (R273 to R275, R469)

def State.marrowFailed (s : State) (st e : Nat) : Bool := decide (st * 16 + e ∈ s.mram.failedMarrow)

/-- Lists that a physical engine runs. -/
def State.listsOn (s : State) (st e : Nat) : List Nat :=
  ((List.range 16).map (fun i => st * 16 + i)).filter (fun m => decide (s.fld (Fld.mrwPhys m) = e))

/-- The host of a list that leaves its engine (R273): the lowest engine in service that hosts no other list, or the fewest
where each hosts one. -/
def State.hostFor (s : State) (st : Nat) (notOn : Nat) : Option Nat :=
  let es := (List.range 16).filter (fun e => decide (e ≠ notOn) && !s.marrowFailed st e && !(decide (st * 16 + e ∈ s.tests.marrowTest)))
  (List.range 17).findSome? (fun k => es.find? (fun e => (s.listsOn st e).length ≤ k + 1))

/-- MRW_DIE_STATUS of a die brought up to date (R275). -/
def State.refreshMarrow (s : State) (st : Nat) : State :=
  let hosted := ((List.range 16).filter (fun i => s.fld (Fld.mrwState (st * 16 + i)) = 1)).length
  let test := match s.tests.marrowTest.find? (fun k => k / 16 = st) with
    | some k => k % 16
    | none => 0xFF
  ((s.setFld (Fld.mrwFailed st) (s.mram.failedMarrow.filter (fun k => k / 16 = st)).length).setFld (Fld.mrwHosted st) hosted).setFld
    (Fld.mrwUnderTest st) test

/-- List m runs on physical engine e from now on (R274). -/
def State.moveList (s : State) (m e : Nat) : State :=
  ((s.setFld (Fld.mrwPhys m) e).setFld (Fld.mrwState m) (if m % 16 = e then 0 else 1)).bump (Fld.mrwMoves m) 1

/-- The lists of an engine moved to hosts. -/
def State.evacuate (s : State) (st e : Nat) : State :=
  (s.listsOn st e).foldl (fun s m => match s.hostFor st e with
    | some h => s.moveList m h
    | none => s.setFld (Fld.mrwState m) 3) s

/-- MARROW_ENGINE_TEST_START (R273, R472): after its end-of-step wait, list m is to run on a host from the next tick on,
while its engine runs BIST. -/
def execMarrowEngineTestStart (m : Nat) (s : State) : Result :=
  ifUnit (decide (m < 192)) (
    let st := m / 16
    let e := s.fld (Fld.mrwPhys m)
    s.startTest 1 (decide (s.fld (Fld.tstep st) ≠ 0))
      (s.fld (Fld.seqState (192 + m)) = 2 && s.fld (Fld.mrwState m) = 0 && (s.hostFor st e).isSome &&
        !s.tests.marrowTest.any (fun k => k / 16 = st) && decide ((s.listsOn st e).length = 1))
      (fun t => (t.onTests (fun x => { x with marrowTest := x.marrowTest ++ [st * 16 + e], marrowOut := x.marrowOut ++ [m] })).refreshMarrow st))

/-- A Marrow list moves across the tick boundary (R273): out to its host, or back to its own engine. A list that has not
reached its end-of-step wait moves at a later one. -/
def State.moveMarrow (s : State) : State :=
  let at_ (s : State) (m : Nat) : Bool := s.fld (Fld.seqState (192 + m)) = 2 || !s.tick.stepRunning
  let outs := s.tests.marrowOut.filter (fun m => at_ s m)
  let s1 := outs.foldl (fun s m =>
    (s.evacuate (m / 16) (m % 16)).refreshMarrow (m / 16)) (s.onTests (fun t => { t with marrowOut := t.marrowOut.filter (fun m => !(m ∈ outs)) }))
  let backs := s1.tests.marrowReturn.filter (fun m => at_ s1 m)
  let s2 := backs.foldl (fun s m => (s.moveList m (m % 16)).refreshMarrow (m / 16))
    (s1.onTests (fun t => { t with marrowReturn := t.marrowReturn.filter (fun m => !(m ∈ backs)) }))
  if outs = [] ∧ backs = [] then s2 else s2.excursion 2

/-- MARROW_BIST_DONE (R472): the list returns at a tick boundary, or the engine has failed. -/
def execMarrowBistDone (m : Nat) (v : Verdict) (s : State) : Result :=
  ifUnit (decide (m < 192)) (
    if !(m ∈ s.tests.marrowTest) then s
    else
      let st := m / 16
      let s1 := s.onTests (fun t => { t with marrowTest := t.marrowTest.filter (fun k => k ≠ m) })
      let s2 := match v with
        | .pass => s1.onTests (fun t => { t with
            marrowReturn := if m ∈ t.marrowOut then t.marrowReturn else t.marrowReturn ++ [m]
            marrowOut := t.marrowOut.filter (fun k => k ≠ m) })
        | .fail => ({ s1 with mram := { s1.mram with failedMarrow := s1.mram.failedMarrow ++ [m] } }).testFailed 3 st (m % 16) m
      ((s2.refreshMarrow st).unitTested 1).setActive 1 (!s2.tests.marrowTest.isEmpty))

/-- MARROW_CHECKER_FAILURE (R469, R473, R476): the engine's lists move at once; the die's last engine ends the device. -/
def execMarrowCheckerFailure (st phys : Nat) (s : State) : Result :=
  ifUnit (decide (st < 12) && decide (phys < 16)) (
    if s.marrowFailed st phys then s
    else
      let k := st * 16 + phys
      let back := s.tests.marrowTest.filter (fun x => decide (x ≠ k) && !(decide (x ∈ s.tests.marrowOut)))
      let s1 := (s.onTests (fun t => { t with
        marrowTest := [], marrowOut := [], marrowReturn := t.marrowReturn ++ back })).setActive 1 false
      let s2 : State := { s1 with mram := { s1.mram with failedMarrow := s1.mram.failedMarrow ++ [k] } }
      let s3 := (List.range 12).foldl (fun s i => s.refreshMarrow i) (s2.evacuate st phys)
      if (List.range 16).all (fun e => s3.marrowFailed st e) then
        (s3.logFault 3 st phys 3 0 k).endDeviceOther
      else s3.absorbWithin 3 st phys 1 2000 k)

-- HBM pages (R472, R473, R479)

/-- HBM_PAGE_TEST_START (R472): the page is copied to a page of the reserve and redirected, one page per stack. -/
def execHbmPageTestStart (st ch page : Nat) (s : State) : Result :=
  ifUnit (decide (st < 12) && decide (ch < 32) && decide (page < 24576)) (
    s.startTest 2 (decide (s.fld (Fld.tstep st) ≠ 0) || decide (s.fld (Fld.poolFree st) = 0))
      (!s.memory.pageTest.any (fun p => p.1 = st) && !(decide ((st, ch, page) ∈ s.memory.retired)) &&
        decide (s.fld (Fld.chanState st ch) = 0))
      (fun t => ((t.onMemory (fun m => { m with pageTest := m.pageTest ++ [(st, ch, page)] })).setFld Fld.freePages
        (t.fld Fld.freePages - 1)).usePages st 1))

/-- HBM_PAGE_TEST_DONE (R472): the page is copied back, or retired under R233 with its data staying in the pool. -/
def execHbmPageTestDone (st ch page : Nat) (v : Verdict) (s : State) : Result :=
  ifUnit (decide (st < 12) && decide (ch < 32)) (
    if !(decide ((st, ch, page) ∈ s.memory.pageTest)) then s
    else
      let s1 := s.onMemory (fun m => { m with pageTest := m.pageTest.filter (fun p => p ≠ (st, ch, page)) })
      let s2 := match v with
        | .pass => (s1.bump Fld.freePages 1).freePool st 1
        | .fail => ((s1.keepRetired st ch page).testFailed 4 st ch page)
      (s2.unitTested 2).setActive 2 (!s2.memory.pageTest.isEmpty))

-- lanes (R472, R473)

/-- LANE_TEST_START (R472): a planned degrade of the port, one lane per device. -/
def execLaneTestStart (p lane : Nat) (s : State) : Result :=
  ifUnit (portOk p && decide (lane < portLanes p)) (
    let n := s.fld (Fld.portLanes p)
    s.startTest 3 false
      (s.carries p && !(decide (lane ∈ (s.port p).lanesLost)) && decide (1 < n) && !s.fabric.ports.any (fun x => x.2.testing.isSome))
      (fun t => (t.setPort p { t.port p with testing := some lane }).retrainTo p (fewerLanes n)))

/-- LANE_TEST_DONE (R472): the lane retrains into service, or is removed as by R307. -/
def execLaneTestDone (p lane : Nat) (v : Verdict) (s : State) : Result :=
  ifUnit (portOk p && decide (lane < portLanes p)) (
    let x := s.port p
    if x.testing ≠ some lane then s
    else
      let s1 := ((s.setPort p { x with testing := none }).setActive 3 false).unitTested 3
      match v with
      | .pass => s1.retrainTo p (moreLanes (s1.fld (Fld.portLanes p)))
      | .fail => (s1.setPort p { s1.port p with lanesLost := (s1.port p).lanesLost ++ [lane] }).testFailed 9 p lane 0)

-- the processor die (R466, R470)

/-- MANAGEMENT_MISMATCH (R470): the standby pair takes over; without one the device ends. `bist` is the BIST of the pair
that mismatched. -/
def execManagementMismatch (bist : Verdict) (s : State) : Result :=
  .next (
    if s.tests.standby then
      let s1 := s.onTests (fun t => { t with standby := decide (bist = .pass) })
      s1.absorbWithin 0x0C 0 0 (if bist = .pass then 0 else 1) 300000 0
    else (s.logFault 0x0C 0 0 3 0 0).endDeviceOther)

/-- SERVICE_CORE_FAULT (R466): the task is started again on another service core. -/
def execServiceCoreFault (c : Nat) (s : State) : Result :=
  ifUnit (decide (c < 16)) (s.absorbWithin 0x0D c 0 0 5000000 0)

-- what a self-test found (R414, R475)

/-- The mask bit of a unit. -/
def selfTestBit (u : TestUnit) : Nat :=
  match u with
  | .core _ _ => 3
  | .engine _ _ => 4
  | .row _ _ _ _ _ => 5
  | .module _ _ => 6
  | .lane _ _ => 7

/-- The unit is one of the device's. -/
def selfTestUnit (u : TestUnit) : Bool :=
  match u with
  | .core d p => decide (d < 4) && decide (p < 52)
  | .engine t e => decide (t < 12) && decide (e < 16)
  | .row t c pc _ a => decide (t < 12) && decide (c < 32) && decide (pc < 2) && decide (a < hbmSize)
  | .module l m => decide (l < 24) && decide (m < d2dModules l)
  | .lane p n => decide (p < 48) && decide (n < portLanes p)

/-- A physical core retired with no job: its logical core lies on the lowest spare of the die from now on; without one the device
ends (R21, R22). -/
def State.testCoreOut (s : State) (die phys : Nat) : State :=
  match s.coreOn die phys with
  | none => (s.retireCore die phys).logFault 1 die phys 5 0 0
  | some n =>
    let s1 := (s.retireCore die phys).logFault 1 die phys 5 0 n
    match s1.spares die with
    | p :: _ => ((s1.setFld (Fld.corePhys n) p).bump (Fld.coreMoves n) 1).refreshDie die
    | [] => (s1.setFld (Fld.coreState n) 3).endDevice die

/-- A Marrow engine that failed with no job: its lists are hosted; the die's last engine ends the device (R469). -/
def State.testEngineOut (s : State) (st e : Nat) : State :=
  if s.marrowFailed st e then s
  else
    let s1 : State := { s with mram := { s.mram with failedMarrow := s.mram.failedMarrow ++ [st * 16 + e] } }
    let s2 := ((s1.logFault 3 st e 5 0 (st * 16 + e)).evacuate st e).refreshMarrow st
    if (List.range 16).all (fun i => s2.marrowFailed st i) then s2.endDeviceOther else s2

/-- A unit that the self-test retires. -/
def State.testOut (s : State) (u : TestUnit) : State :=
  match u with
  | .core d p => if s.isRetired d p then s else s.testCoreOut d p
  | .engine t e => s.testEngineOut t e
  | .row t c pc r a => (s.rowFails t c pc r a).logFault 4 t c 5 0 (a / 4096)
  | .module l m =>
    let out := Tab.get 0 s.tests.d2dOut l
    (s.onTests (fun t => { t with d2dOut := Tab.set 0 l (setBit out m) t.d2dOut })).logFault 8 l m 5 0 0
  | .lane p n => (s.setPort p { s.port p with lanesLost := (s.port p).lanesLost ++ [n] }).logFault 9 p n 5 0 0

end Sys2Proof.Machine
end

