-- ==== Sys2Proof/Machine/Tick.lean ====
section
/-! DEFINITION. The tick (R42 to R58, R69, R158, R161, R296, R457): starting, skipping and aborting steps, the tick record,
phases, overruns, the changes of an effective tick, and slow notices. -/
namespace Sys2Proof.Machine

def State.onTick (s : State) (f : TickSt → TickSt) : State := { s with tick := f s.tick }
def State.onCores (s : State) (f : Cores → Cores) : State := { s with cores := f s.cores }

-- the tick record (R50)

/-- A tick record's 64 bytes. -/
def TickRec.bytes (r : TickRec) : List Byte :=
  toLE 8 r.number ++ toLE 8 r.time ++ toLE 4 r.completion ++ toLE 2 r.flags ++ toLE 2 r.late ++ toLE 2 r.warning
    ++ toLE 2 r.excursions ++ toLE 4 (sat32 r.landed) ++ toLE 4 (sat32 r.dropped) ++ toLE 4 (sat32 r.actSent)
    ++ toLE 4 (sat32 r.actLate) ++ toLE 4 r.refresh ++ toLE 4 (sat32 r.replays) ++ toLE 1 r.slow ++ List.replicate 11 0

/-- The record of the tick that ends, written to its slot of the log. The largest refresh stall is open up to its bound
of 350 ns (R59). -/
def State.closeRecord (s : State) : State :=
  if s.fld Fld.running = 0 then s
  else
    let (v, s1) := s.upTo 35
    let s2 := s1.onTick (fun t => { t with record := { t.record with refresh := v }, newest := { t.record with refresh := v } })
    match s2.job with
    | some j => s2.write .firmware (j.tickLogBase + s2.tick.newest.number % 2 ^ j.tickLogN * 64) s2.tick.newest.bytes
    | none => s2

/-- The write waits for a copy of the checkpoint, or for room for one (R370). -/
def State.waitsForCopy (s : State) (w : WaitWrite) : Bool :=
  w.since.isSome || (match Tab.find? s.ckpt.grans w.granule with
    | some (.saving _) => true
    | _ => false)

/-- Excursions in force as a tick begins (R41, R50, R57): steps and interventions that last, a wait for a copy, an absorption that
lasts into the tick, holdover. -/
def State.excursionsNow (s : State) : Nat :=
  let b (on : Bool) (i : Nat) : Nat := if on then 2 ^ i else 0
  b (s.ownSlow.any (fun o => o.cause = 0)) 0 + b (s.ownSlow.any (fun o => o.cause = 1)) 1
    + b (s.memory.waits.any (fun w => s.waitsForCopy w)) 3 + b (s.ownSlow.any (fun o => o.cause = 2 && o.lasts s.now)) 4
    + b (s.fld Fld.timeState = 3) 5

/-- The record of tick k begun. -/
def State.openRecord (s : State) (k : Nat) : State :=
  s.onTick (fun t => { t with record := { TickRec.zero with number := k, time := s.tickTime k, excursions := s.excursionsNow } })

-- changes between ticks (R69, R70, R503)

/-- The lowest index that no peer holds, from i on. -/
def freeIndex (ps : Tab Peer) : Nat → Nat → Nat
  | 0, i => i
  | n + 1, i => if (Tab.find? ps i).isNone then i else freeIndex ps n (i + 1)

/-- Peers placed in entry order at the lowest free indices (R503). -/
def addPeers (ps : Tab Peer) (new : List Peer) : Tab Peer := new.foldl (fun t p => Tab.put (freeIndex t t.length 0) p t) ps

/-- A change takes effect. -/
def State.applyChange (s : State) (c : Change) : State :=
  match c with
  | .streamAdd id st => { s with streams := Tab.put id st s.streams }
  | .streamRemove id => { s with streams := Tab.del id s.streams }
  | .peerAdd ps => s.onFabric (fun f => { f with peers := addPeers f.peers ps })
  | .peerRemove gs => s.onFabric (fun f => { f with peers := f.peers.filter (fun e => !(e.2.gdn ∈ gs)) })
  | .groupSet id ms => s.onFabric (fun f => { f with groups := Tab.set [] id ms f.groups })

/-- The changes for tick k or before, in the order of their commands. -/
def State.applyChanges (s : State) (k : Nat) : State :=
  (s.changes.filter (fun c => decide (c.1 ≤ k))).foldl (fun s c => s.applyChange c.2)
    { s with changes := s.changes.filter (fun c => !decide (c.1 ≤ k)) }

/-- A setting of the online tests comes into force (R471). -/
def State.applyTestSetting (s : State) : State :=
  match s.tests.setting with
  | some v =>
    ((s.setFld Fld.testEnable (v % 16)).setFld Fld.testPeriod (v / 16 % 65536)).onTests (fun t => { t with setting := none })
  | none => s

-- steps (R48, R155, R158)

/-- Lists with records. -/
def State.activeLists (s : State) : List ListId := (s.cores.lists.filter (fun e => e.2 ≠ [])).map (fun e => e.1)

/-- A key of a step counter c0 to c47 (R155, R178). -/
def Reg.isStepCount (k : Nat) : Bool :=
  decide (0x100000 ≤ k ∧ k < 0x2C0000 ∧ (k < 0x1C0000 ∨ 0x200000 ≤ k) ∧ 0x100 ≤ k % 0x1000 ∧ k % 0x1000 < 0x1C0)

/-- Phase p starts at this offset and is in use. -/
def State.phaseValid (s : State) (p : Nat) : Bool := s.fld (Fld.phaseValid p) = 1

/-- Phase p released to every sequencer (R48): one that waits for it goes on. -/
def State.releasePhase (s : State) (p : Nat) : State :=
  (List.range 384).foldl (fun s l =>
    let s1 := s.setFld (Fld.released l) (setBit (s.fld (Fld.released l)) p)
    if s1.fld (Fld.seqState l) = 1 && s1.fld (Fld.seqWait l) = 1 &&
        ((s1.list l)[s1.fld (Fld.seqNext l)]?).any (fun r => r.phase = p) then
      s1.setSeq l 0 0
    else s1) s

/-- Valid phases whose release offset has passed. -/
def State.duePhases (s : State) : List Nat :=
  (List.range 16).filter (fun p => s.phaseValid p && decide (s.tick.stepTime + s.fld (Fld.phaseStart p) * 10 ≤ s.now))

/-- A queue as it stands at the tick: kept for an abort (R296), and the count that the step will see (R64). -/
def State.latchStart (s : State) : State :=
  { s with queues := s.queues.map (fun e => (e.1, { e.2 with tickPos := e.2.pos, tickWin := e.2.win, seenL := e.2.latL })) }

/-- Sequencers at the start of a step (R155, R158): step counters clear, next record 0, issuing where the list has records. -/
def State.startSeqs (s : State) : State :=
  let s1 : State := { s with regs := s.regs.filter (fun e => !Reg.isStepCount e.1) }
  let s2 := (List.range 384).foldl (fun s l => s.setFld (Fld.released l) 0) s1
  (s.activeLists.foldl (fun s l => s.seqTo l 0) s2).onCores (fun c => { c with
    bufFirst := [], refetching := [], firstDone := [], replay := [], passed := [] })

/-- A step starts: the step of the tick in progress (R158, R198, R330). -/
def State.startStep (s : State) : State :=
  let s1 := (s.startSeqs.latchStart).onTick (fun t =>
    { t with stepRunning := true, stepTick := t.record.number, stepTime := t.record.time, rerun := false })
  let s2 : State := { s1 with
    memory := { s1.memory with undo := [], undoFull := false }
    fabric := { s1.fabric with rankNext := [], tickInstances := s1.fabric.instances } }
  let s3 := s2.duePhases.foldl (fun s p => s.releasePhase p) s2
  let s4 := (List.range 384).foldl (fun s l => s.refreshPhases l) s3
  let s5 := if (List.range 192).any (fun n => s4.migrating n) then s4.excursion 2 else s4
  s5.checkStepEnd

/-- L and F of the measurement queues latched together, at every tick (R64, R295): the room follows; a step that runs goes on seeing
the count it started with. -/
def State.latchQueues (s : State) : State :=
  { s with queues := s.queues.map (fun e =>
      if (s.qdef? e.1).any (fun d => d.measurement) then
        (e.1, { e.2 with
          latL := e.2.pos.l
          latF := e.2.pos.f
          win := e.2.win.filter (fun w => decide (e.2.pos.f ≤ w.1))
          tail := e.2.tail.filter (fun p => e.2.pos.f ≤ p) })
      else e) }

-- abort-step (R53, R56, R296)

/-- What is left of the writers' waiting writes when a step is aborted. -/
def Origin.survives (o : Origin) : Bool :=
  match o with
  | .host | .framer | .firmware => true
  | _ => false

/-- A queue at an abort (R296). -/
def State.abortQueue (s : State) (q : Nat) (x : Queue) : Queue :=
  let keep (w : Reservation) : Bool := w.origin.survives
  match s.qdef? q with
  | none => x
  | some d =>
    if d.measurement then
      { x with
        pos := { x.pos with c := x.tickPos.c, f := x.tickPos.f }
        latF := min x.latF x.tickPos.f
        win := x.tickWin.foldl (fun t e => Tab.put e.1 e.2 t) x.win
        deqs := []
        head := [] }
    else if d.actuation then
      let p := max x.tickPos.p x.pos.f
      { x with
        pos := { x.pos with p := p, l := min x.pos.l p }
        packets := x.packets.filter (fun k => decide (k.start + k.size ≤ p))
        waiting := x.waiting.filter keep
        frames := x.frames.filter (fun k => decide (k.start + k.size ≤ p))
        win := x.win.filter (fun e => decide (e.1 < p))
        tail := x.tail.filter (fun e => decide (e < p))
        head := x.head.filter (fun e => decide (e.1 < p)) }
    else
      { x with
        pos := x.tickPos
        win := x.tickWin
        tail := (x.tickWin.map (fun e => e.1)).drop (x.tickWin.length - 8)
        head := []
        packets := x.packets.filter (fun k => decide (k.start < x.tickPos.p))
        waiting := x.waiting.filter keep
        deqs := [] }

/-- The step is stopped on this device (R53, R158): every sequencer at its end-of-step wait, its ops, transfers, waits and
collectives gone, queue positions and instance numbers at their values of the step's tick. -/
def State.abortStep (s : State) : State :=
  let s1 : State := { s with
    queues := s.queues.map (fun e => (e.1, s.abortQueue e.1 e.2))
    memory := { s.memory with waits := s.memory.waits.filter (fun w => w.origin.survives), begun := [], spoiled := [] }
    fabric := { s.fabric with
      colls := []
      early := []
      rankWait := []
      credits := []
      out := s.fabric.out.filter (fun r => r.op = firmwareOp)
      instances := s.fabric.tickInstances }
    cores := { s.cores with inflight := [] } }
  let s2 := (List.range 384).foldl (fun s l => s.setSeq l 2 0) s1
  let s3 := (List.range 12).foldl (fun s t => s.refreshEngine t) s2
  s3.onTick (fun t => { t with stepRunning := false, rerun := true })

/-- The granules that the aborted step wrote, back as they were at its tick (R53, R56). -/
def State.restoreUndo (s : State) : State := s.memory.undo.foldl (fun s e => s.restoreImage e.1 e.2.image) s

/-- RESTORATION_DONE (R56): the granules are back, and the rerun starts as the step of the tick in progress. -/
def execRestorationDone (s : State) : Result :=
  .next (
    if !s.tick.rerun ∨ s.fld Fld.running = 0 ∨ s.tick.stopped.isSome ∨ s.tick.stepRunning then s
    else s.restoreUndo.startStep)

-- overrun (R49, R51, R55, R161)

/-- The policy in force: a reserved value acts as complete-and-skip (R45), and so does abort-step once the undo reserve has
filled (R55). -/
def State.policy (s : State) : Nat := if s.fld Fld.overrunPolicy = 1 ∧ !s.memory.undoFull then 1 else 0

/-- The overrun point of the tick in progress is reached. The trigger's operation word is log entry 31. -/
def State.decideOverrun (s : State) : State :=
  let s0 := s.onTick (fun t => { t with pointPassed := true })
  if s0.tick.stopped.isSome ∨ !(s0.tick.stepRunning || s0.tick.rerun) then s0
  else if (List.range 384).any (fun l => s0.fld (Fld.seqState l) = 3) then s0.enterStopped s0.gdn
  else
    let s1 := if s0.tick.stepTick = s0.tick.record.number ∨ s0.tick.rerun then s0.recordFlag 0 else s0
    let s2 := s1.bump Fld.overrunCount 1
    let s3 := s2.postEvent (s2.newEvent 0x10 0 srcDevice 1 (s2.fld Fld.overrunCount))
    let s4 := s3.triggerPeers 0 0 (if s3.memory.undoFull then 1 else 0)
    s4.onTick (fun t => { t with overrun := if t.overrun = some 0 then some 0 else some s4.policy })

/-- OVERRUN_DECISION (R51): at the next tick minus the guard. -/
def execOverrunDecision (s : State) : Result :=
  .next (
    if s.fld Fld.running = 0 ∨ s.tick.pointPassed then s
    else (s.at_ (s.tickTime s.tick.next - s.fld Fld.guard * 10)).decideOverrun)

/-- A trigger of operation `op` from a peer; an unknown operation or another sender is malformed (R310, R460). -/
def State.trigger (s : State) (tx : Tx) (op : Nat) (f : State → State) : State :=
  s.arrives tx (fun s => if tx.type = 0xA ∧ tx.op = op ∧ s.fromPeer tx then f s else s.malformed)

/-- OVERRUN_TRIGGER (R51, R55, R161): the same policy applies here at the next tick. A device whose own undo reserve has
filled cannot abort, and says so to its peers. -/
def execOverrunTrigger (tx : Tx) (s : State) : Result :=
  .next (s.trigger tx 0 (fun s =>
    if s.fld Fld.running = 0 ∨ s.tick.stopped.isSome then s
    else
      let want := if tx.word % 2 = 1 then 0 else s.policy
      let s1 := s.onTick (fun t => { t with overrun := if t.overrun = some 0 then some 0 else some want })
      if tx.word % 2 = 0 ∧ s.fld Fld.overrunPolicy = 1 ∧ s.memory.undoFull ∧ s.tick.overrun ≠ some 0 then
        s1.triggerPeers 0 0 1
      else s1))

/-- JOB_STOPPED_TRIGGER (R161). -/
def execJobStoppedTrigger (tx : Tx) (s : State) : Result :=
  .next (s.trigger tx 2 (fun s => if s.job.isSome then s.enterStopped (tx.word % 2 ^ 16) else s))

-- TICK

/-- The tick instant k has come: the record of the tick before is written, changes take effect, record k begins, Marrow lists move,
and the queue engines latch (R42, R50, R64, R69, R273). -/
def State.boundary (s : State) (k : Nat) : State :=
  let s1 := s.closeRecord
  let s2 := ((s1.setFld Fld.running 1).setFld Fld.tickNumber k).onTick (fun t => { t with next := k + 1, pointPassed := false })
  let s3 := if s2.fld Fld.state = 3 then s2.setDevState 4 else s2
  (((s3.applyChanges k).applyTestSetting).openRecord k).moveMarrow.latchQueues

/-- No step starts at this tick (R52, R161, R457). -/
def State.skipTick (s : State) : State := s.recordFlag 1

/-- The mark in force at tick k: the one with the latest tick, and of those the newest (R457). -/
def markAt (marks : List (Nat × Bool)) (k : Nat) : Option (Nat × Bool) :=
  marks.foldl (fun best m => if m.1 ≤ k && best.all (fun (b : Nat × Bool) => decide (b.1 ≤ m.1)) then some m else best) none

/-- A halt of R457 holds steps at tick k. -/
def State.haltNow (s : State) (k : Nat) : Bool := (markAt s.tick.marks k).any (fun m => m.2)

/-- Marks that still matter from tick k on. -/
def State.dropMarks (s : State) (k : Nat) : State :=
  s.onTick (fun t => { t with marks := ((markAt t.marks k).filter (fun m => m.2)).toList ++ t.marks.filter (fun m => decide (k < m.1)) })

/-- A step would start at tick k: it does, unless a halt holds it (R457). -/
def State.startOrHalt (s : State) (k : Nat) : State :=
  if s.haltNow k then ((s.onTick (fun t => { t with halted := true })).setFld Fld.halted 1).skipTick
  else (((s.dropMarks k).onTick (fun t => { t with halted := false })).setFld Fld.halted 0).startStep

/-- The step to abort at tick k is the one of tick k − 1; where it had completed here, it is taken back (R53, R195). -/
def State.abortAt (s : State) : State :=
  let s1 := (s.recordFlag 2)
  let s2 := if s1.tick.stepRunning ∨ s1.tick.rerun then s1
    else (s1.setFld ⟨Reg.stepIndex, 63, 0⟩ (s1.fld ⟨Reg.stepIndex, 63, 0⟩ - 1)).onRecord (fun r => { r with completion := 0xFFFFFFFF })
  s2.abortStep

/-- TICK (R42, R51 to R53, R56, R64, R158, R161, R457): tick k fires at its programmed time. -/
def execTick (s : State) : Result :=
  .next (
    let k := s.tick.next
    if !s.armed ∨ s.tick.stopAt.any (fun t => decide (t ≤ k)) then s
    else
      let s0 := s.at_ (s.tickTime k)
      let s1 := if s0.fld Fld.running = 1 ∧ !s0.tick.pointPassed then s0.decideOverrun else s0
      let act := s1.tick.overrun
      let s2 := s1.onTick (fun t => { t with overrun := none })
      let hasStep : Bool := s2.tick.rerun || (s2.fld Fld.running = 1 && s2.tick.stepTick = s2.tick.record.number)
      if s2.tick.stopped.isSome then (s2.boundary k).skipTick
      else if act = some 1 ∧ (hasStep ∨ s2.tick.stepRunning) then
        let s3 := if s2.tick.rerun then s2.recordFlag 2 else s2.abortAt
        (s3.boundary k).recordFlag 3
      else if act.isSome ∨ s2.tick.stepRunning then (s2.boundary k).skipTick
      else if s2.tick.rerun then (s2.boundary k).recordFlag 3
      else (s2.boundary k).startOrHalt k)

-- phases (R48, R49)

/-- Device time of an offset of the step in progress, in 10 ns units; of a rerun that waits, of its tick. -/
def State.stepAt (s : State) (units : Nat) : Nat :=
  (if s.tick.rerun then s.tick.record.time else s.tick.stepTime) + units * 10

/-- PHASE_RELEASE (R48): at the phase's start offset. -/
def execPhaseRelease (p : Nat) (s : State) : Result :=
  ifUnit (p < 16) (
    if s.tick.stepRunning && s.phaseValid p then
      (s.at_ (s.stepAt (s.fld (Fld.phaseStart p)))).releasePhase p
    else s)

/-- The phase is incomplete in the step of the tick in progress. -/
def State.phaseOpen (s : State) (p : Nat) : Bool :=
  s.phaseValid p && (s.tick.rerun ||
    (s.tick.stepRunning && decide (s.tick.stepTick = s.tick.record.number) && !s.phaseComplete p))

/-- PHASE_WARNING (R45, R49): when warn_frac/256 of the span has passed. -/
def execPhaseWarning (p : Nat) (s : State) : Result :=
  ifUnit (p < 16) (
    let a := s.fld (Fld.phaseStart p)
    let b := s.fld (Fld.phaseDeadline p)
    if s.fld Fld.warnFrac ≠ 0 ∧ s.phaseOpen p then
      (s.at_ (s.stepAt 0 + (a * 10 + (b - a) * 10 * s.fld Fld.warnFrac / 256))).onRecord
        (fun r => { r with warning := setBit r.warning p })
    else s)

/-- PHASE_LATE (R49). -/
def execPhaseLate (p : Nat) (s : State) : Result :=
  ifUnit (p < 16) (
    if s.phaseOpen p then
      (s.at_ (s.stepAt (s.fld (Fld.phaseDeadline p)))).onRecord (fun r => { r with late := setBit r.late p })
    else s)

-- stopping and effective ticks (R44, R45, R69)

/-- The tick has stopped at a boundary: its last record is written, the clock is unpinned, and a step that runs goes on to
its end. An aborted step that waits for its rerun is no running step: its granules are restored, and it does not start (R44). -/
def State.stopTick (s : State) : State :=
  let s0 := s.closeRecord
  let sR : State := if s0.tick.rerun then
      { s0.restoreUndo with memory := { s0.restoreUndo.memory with undo := [], undoFull := false }, tick := { s0.restoreUndo.tick with rerun := false } }
    else s0
  let s1 := sR.onTick (fun t => { t with stopAt := none, overrun := none, record := { TickRec.zero with number := t.next } })
  let s2 := ((s1.setFld Fld.run 0).setFld Fld.running 0).setFld Fld.stopPending 0
  (if s2.fld Fld.state = 4 then s2.setDevState 3 else s2).refreshPower

/-- TICK_STOP_BOUNDARY (R44): the boundary of the named tick is reached; that tick does not fire. -/
def execTickStopBoundary (s : State) : Result :=
  .next (
    if s.tick.stopAt.any (fun t => decide (t ≤ s.tick.next)) then (s.at_ (s.tickTime s.tick.next)).stopTick else s)

/-- TCK_CTRL_RUN_CLEAR (R45): run written 0 stops the tick at the next boundary. -/
def execTckCtrlRunClear (s : State) : Result :=
  .next (
    if s.fld Fld.run = 1 then
      ((s.setFld Fld.run 0).setFld Fld.stopPending 1).onTick (fun t => { t with
        stopAt := match t.stopAt with
          | some k => some (min k t.next)
          | none => some t.next })
    else s)

/-- EFFECTIVE_TICK_REACHED (R69): the boundary of the next tick is reached, and the changes that name it or an earlier one
take effect. -/
def execEffectiveTickReached (s : State) : Result :=
  .next (
    if s.armed && s.changes.any (fun c => decide (c.1 ≤ s.tick.next)) then
      (s.at_ (s.tickTime s.tick.next)).applyChanges s.tick.next
    else s)

/-- STEP_HALT_TICK (R457): the halt tick is reached with no step running; no step starts until the resume tick. -/
def execStepHaltTick (s : State) : Result :=
  .next (
    if s.armed && s.haltNow s.tick.next && !s.tick.stepRunning && !s.tick.rerun then
      ((s.at_ (s.tickTime s.tick.next)).onTick (fun t => { t with halted := true })).setFld Fld.halted 1
    else s)

/-- STEP_RESUME_TICK (R457): the resume tick is reached, and steps may start again. -/
def execStepResumeTick (s : State) : Result :=
  .next (
    if s.armed && s.tick.halted && !s.haltNow s.tick.next then
      (((s.at_ (s.tickTime s.tick.next)).dropMarks s.tick.next).onTick (fun t => { t with halted := false })).setFld Fld.halted 0
    else s)

-- slow notices (R57, R58)

/-- SLOW_NOTICE_REPEAT (R57): a notice of every cause that lasts. -/
def execSlowNoticeRepeat (s : State) : Result :=
  .next (
    let s1 : State := { s with ownSlow := s.ownSlow.filter (fun o => o.lasts s.now) }
    ([0, 1, 2].filter (fun c => s1.ownSlow.any (fun o => o.cause = c))).foldl (fun s c => s.sendSlow (s.slowOf c) c) s1)

/-- SLOW_NOTICE (R57, R58): in force for 250 µs; a factor of 1.0 clears the sender's slowdown of that cause. A notice replaces the
sender's earlier one of the same cause, and of notices of several causes the largest factor counts (DESIGN CHOICE, log entry 128). -/
def execSlowNotice (tx : Tx) (s : State) : Result :=
  .next (s.control tx 0 (fun s =>
    let factor := tx.word % 256
    let cause := tx.word / 256 % 4
    let rest := s.slow.filter (fun n => !(n.src = tx.src && n.cause = cause))
    let s1 : State := { s with slow := if factor = 0x10 then rest else rest ++ [⟨tx.src, factor, cause, s.now + us 250⟩] }
    (s1.excursion 6).onRecord (fun r => { r with slow := max r.slow factor })))

/-- SLOW_NOTICE_EXPIRY (R58): the oldest notice of the sender has run its time. -/
def execSlowNoticeExpiry (src : Nat) (s : State) : Result :=
  .next (match s.slow.find? (fun n => n.src = src) with
    | some n =>
      let s1 := s.at_ n.expiry
      { s1 with slow := s1.slow.filter (fun m => !(m.src = src && decide (m.expiry ≤ s1.now))) }
    | none => s)

end Sys2Proof.Machine
end

