-- ==== Sys2Proof/Machine/TickCmd.lean ====
section
/-! DEFINITION. The queue commands (R502) and the tick, time and stream commands (R43, R69 to R72). -/
namespace Sys2Proof.Machine

def mbxOk (k : Nat) : Bool := decide (k < 64)

-- queues (R502)

/-- The 48-byte definition entry of queue q (R278). -/
def QDef.bytes (d : QDef) (q : Nat) : List Byte :=
  toLE 4 q ++ toLE 1 (d.home + if d.pin then 16 else 0) ++ toLE 1 d.log2cap ++ toLE 2 d.threshold ++ toLE 8 d.body
    ++ toLE 4 d.producer ++ toLE 4 d.consumer ++ toLE 2 d.prodCtl ++ toLE 2 d.landCtl ++ toLE 1 d.landConv
    ++ List.replicate 3 0 ++ toLE 8 d.statBase ++ List.replicate 8 0

/-- QUEUE_STATUS (R502). -/
def execQueueStatus (k : Nat) (s : State) : Result :=
  ifUnit (mbxOk k) (s.command k 0x0201 (fun _ => 4) (fun _ m => firstBad [(decide (2 ^ 20 ≤ m.get 0 4), 0)]) (fun s m =>
    let q := m.get 0 4
    match s.qdef? q with
    | none => s.reject k m Status.notFound q
    | some d =>
      let x := s.queue q
      s.done k m (d.bytes q ++ toLE 8 x.pos.p ++ toLE 8 x.pos.l ++ toLE 8 x.pos.c ++ toLE 8 x.pos.f
        ++ toLE 8 (s.queCount q) ++ toLE 4 x.packets.length ++ List.replicate 4 0)))

/-- QUEUE_ENGINE_STATUS (R502): one stack's page, or all. -/
def execQueueEngineStatus (k : Nat) (s : State) : Result :=
  ifUnit (mbxOk k) (s.command k 0x0202 (fun _ => 4)
    (fun _ m => firstBad [(!(decide (m.get 0 4 < 12) || decide (m.get 0 4 = 0xFF)), 0)]) (fun s m =>
    let ts := if m.get 0 4 = 0xFF then List.range 12 else [m.get 0 4]
    s.done k m (ts.flatMap (fun t => s.regPage (Reg.quePage t) 128))))

-- time (R72)

/-- Bytes of TIME_SET_SOURCE that are wrong: reserved bits, values out of range, and PTP settings that the source does not
use. -/
def timeSourceBad (m : Msg) : Option Nat :=
  let unused := decide (m.get 0 1 = 1) || decide (m.get 0 1 = 3)
  firstBad ([(decide (4 ≤ m.get 0 1), 0)]
    ++ (if unused then (List.range 7).map (fun i => (decide (m.get (1 + i) 1 ≠ 0), 1 + i))
        else [(decide (2 < m.get 1 1), 1), (decide (1 < m.get 2 1), 2), (decide (127 < m.get 3 1), 3),
          (decide (32 ≤ m.get 4 1), 4), (decide (1 < m.get 5 1 ∧ m.get 5 1 < 0xF9), 5)])
    ++ [(nonZero m 8 8, 8)])

/-- A TIME_SET_SOURCE body taken: the device acquires, or runs free with source 0b11 (R39, R72). -/
def State.takeSource (s : State) (body : List Byte) : State :=
  let f (i : Nat) := fieldLE body i 1
  let s1 := (s.setFld Fld.timeSrc (f 0)).setFld Fld.leadConflict 0
  let s2 : State := { s1 with time := { TimeSt.zero with
    ptpRole := f 1, ptpProfile := f 2, ptpDomain := f 3, ptpPorts := f 4, ptpLogSync := f 5, ptpPriority1 := f 6, ptpPriority2 := f 7 } }
  s2.setTimeState (if f 0 = 3 then 0 else 1)

/-- TIME_SET_SOURCE (R38, R39, R72): only while the tick is stopped. -/
def execTimeSetSource (k : Nat) (s : State) : Result :=
  ifUnit (mbxOk k) (s.command k 0x0301 (fun _ => 16) (fun _ m => timeSourceBad m) (fun s m =>
    if s.armed then s.wrongState k m else (s.takeSource m.body).done k m []))

/-- TIME_STATUS (R72). -/
def execTimeStatus (k : Nat) (s : State) : Result :=
  ifUnit (mbxOk k) (s.plain k 0x0302 (fun s m =>
    let hold := if s.fld Fld.timeState = 3 then s.now - s.time.holdoverStart else 0
    s.done k m (toLE 1 (s.fld Fld.timeState) ++ toLE 1 s.timeSource ++ List.replicate 6 0 ++ toLE 8 (patternOf 64 s.time.offset)
      ++ toLE 8 hold ++ toLE 2 (s.time.lead.getD 0xFFFF) ++ List.replicate 6 0)))

-- TICK_ARM (R43)

/-- The field that the last cases of R43 name, in their order: period, multiplier, policy, guard, deadlines, offsets. -/
def State.armBad (s : State) (m : Msg) : Option Nat :=
  let period := m.get 8 4
  let guard := m.get 12 4
  firstBad [(decide (period < 2000 ∨ 100000000 < period), 8),
    (decide (m.get 0x11 1 < 20 ∨ 80 < m.get 0x11 1), 0x11),
    (decide (1 < m.get 0x10 1 / 2 % 4), 0x10),
    (decide (guard = 0 ∨ period ≤ guard), 12),
    ((List.range 16).any (fun p => s.phaseValid p && decide (period - guard < s.fld (Fld.phaseDeadline p))), 8),
    (s.streams.any (fun e => decide (e.2.type = 2) && decide (period ≤ e.2.offset)), 8)]

/-- The tick armed: its registers set, ticks to be counted from 0, every stream's one frame a step still to come (R65), clocks pinned
in tick-bound mode (R42 to R44). -/
def State.arm (s : State) (m : Msg) : State :=
  let s1 := (((s.setReg Reg.tckStart (BitVec.ofNat 64 (m.get 0 8))).setFld Fld.period (m.get 8 4)).setFld Fld.guard (m.get 12 4)).setFld
    Fld.planMult (m.get 0x11 1)
  let s2 := ((s1.setFld Fld.tickBound (m.get 0x10 1 % 2)).setFld Fld.overrunPolicy (m.get 0x10 1 / 2 % 4)).setFld Fld.warnFrac (m.get 0x12 1)
  let s3 := ((s2.setFld Fld.run 1).setFld Fld.tickNumber 0).setFld Fld.overrunCount 0
  let s4 : State := { s3 with streams := s3.streams.map (fun e => (e.1, { e.2 with taken := none })) }
  (s4.onTick (fun t => { t with next := 0, pointPassed := false, overrun := none, stopAt := none, record := TickRec.zero })).refreshPower

/-- TICK_ARM (R43, R72, R426). A device in protective stop or in need of service is in no state to be armed. -/
def execTickArm (k : Nat) (s : State) : Result :=
  ifUnit (mbxOk k) (s.command k 0x0303 (fun _ => 32)
    (fun _ m => firstBad [(decide (2 ^ 27 ≤ m.get 8 4), 8), (decide (2 ^ 20 ≤ m.get 12 4), 12), (decide (8 ≤ m.get 16 1), 16), (nonZero m 0x13 13, 0x13)])
    (fun s m =>
      if s.armed ∨ !s.admitted ∨ !s.ps0 ∨ s.halted then s.wrongState k m
      else if s.fld Fld.timeState ≠ 2 ∧ s.timeSource ≠ 3 then s.reject k m Status.timeNotLocked (s.reg Reg.tckStatus).toNat
      else if m.get 0 8 < s.now + us 1000 then s.reject k m Status.tickTooSoon (s.now + us 1000)
      else
        match s.armBad m with
        | some off => s.badField k m off
        | none => (s.arm m).done k m []))

/-- TICK_STOP (R44, R72). Where a stop is pending already, the tick of the later command holds (DESIGN CHOICE, log entry 129). -/
def execTickStop (k : Nat) (s : State) : Result :=
  ifUnit (mbxOk k) (s.command k 0x0304 (fun _ => 8) (fun _ _ => none) (fun s m =>
    let n := if m.get 0 8 = 0 then s.tick.next else m.get 0 8
    if !s.armed then s.wrongState k m
    else if n < s.tick.next then s.reject k m Status.tickTooSoon s.tick.next
    else ((s.onTick (fun t => { t with stopAt := some n })).setFld Fld.stopPending 1).done k m []))

/-- TICK_STATUS (R72). -/
def execTickStatus (k : Nat) (s : State) : Result :=
  ifUnit (mbxOk k) (s.plain k 0x0305 (fun s m =>
    s.done k m (s.reg32 Reg.tckStatus ++ List.replicate 4 0 ++ s.reg64 Reg.tckNumber ++ s.tick.newest.bytes)))

-- streams (R69, R72)

/-- The state as it will be once the changes accepted for ticks up to `t` have taken effect. -/
def State.asOf (s : State) (t : Nat) : State := s.applyChanges t

/-- A change accepted for tick `t` (R69). -/
def State.accept (s : State) (t : Nat) (c : Change) : State := { s with changes := s.changes ++ [(t, c)] }

/-- A plant stream entry (R72). -/
def Stream.of (bs : List Byte) : Stream :=
  ⟨fieldLE bs 2 1, fieldLE bs 3 1, fieldLE bs 4 4, fieldLE bs 0x10 4, fieldLE bs 0x14 2, fieldLE bs 0x18 16, none, none, 0, 0, 0, 0, 0⟩

/-- Fields of a plant stream entry that are out of range. -/
def streamBad (bs : List Byte) : Option Nat :=
  let f (off n : Nat) := fieldLE bs off n
  let type := f 2 1
  firstBad [(decide (4096 ≤ f 0 2), 0), (decide (type ≠ 1 ∧ type ≠ 2), 2),
    (decide (16 ≤ f 3 1) || (decide (type = 1) && bitOf (f 3 1) 3), 3), (decide (2 ^ 20 ≤ f 4 4), 4),
    (decide (type = 1 ∧ f 0x10 4 ≠ 0), 0x10), (decide (f 0x16 2 ≠ 0), 0x16),
    (!bitOf (f 3 1) 2 && decide (f 0x1C 12 ≠ 0), 0x18), (decide (f 0x28 24 ≠ 0), 0x28)]

/-- The queue of a stream has the framer as its producer or consumer (R72, R279). -/
def State.streamQueueOk (s : State) (st : Stream) : Bool :=
  (s.qdef? st.queue).any (fun d => if st.type = 1 then d.measurement else d.actuation)

/-- STREAM_ADD (R69, R72). -/
def execStreamAdd (k : Nat) (s : State) : Result :=
  ifUnit (mbxOk k) (s.command k 0x0310 (fun _ => 64) (fun _ m => streamBad m.body) (fun s m =>
    let id := m.get 0 2
    let st := Stream.of m.body
    let t := m.get 8 8
    if !s.admitted then s.wrongState k m
    else if !s.streamQueueOk st then s.badField k m 4
    else if (Tab.find? (s.asOf t).streams id).isSome then s.badField k m 0
    else if s.armed ∧ st.type = 2 ∧ s.fld Fld.period ≤ st.offset then s.badField k m 0x10
    else if 4096 ≤ (s.asOf t).streams.length then s.reject k m Status.tableFull 4096
    else
      match s.tooSoon t with
      | some e => s.reject k m Status.tickTooSoon e
      | none => (s.accept t (.streamAdd id st)).done k m []))

/-- STREAM_REMOVE (R69, R72). -/
def execStreamRemove (k : Nat) (s : State) : Result :=
  ifUnit (mbxOk k) (s.command k 0x0311 (fun _ => 16) (fun _ m => firstBad [(nonZero m 2 6, 2)]) (fun s m =>
    let id := m.get 0 2
    let t := m.get 8 8
    if !s.admitted then s.wrongState k m
    else if (Tab.find? (s.asOf t).streams id).isNone then s.reject k m Status.notFound id
    else
      match s.tooSoon t with
      | some e => s.reject k m Status.tickTooSoon e
      | none => (s.accept t (.streamRemove id)).done k m []))

/-- STREAM_STATUS (R72). The last sequence number of a stream that has landed or sent nothing is open. -/
def execStreamStatus (k : Nat) (s : State) : Result :=
  ifUnit (mbxOk k) (s.command k 0x0312 (fun _ => 8) (fun _ m => firstBad [(nonZero m 2 6, 2)]) (fun s m =>
    let id := m.get 0 2
    if !s.admitted then s.wrongState k m
    else
      match Tab.find? s.streams id with
      | none => s.reject k m Status.notFound id
      | some st =>
        let (v, s1) := s.upTo (2 ^ 32 - 1)
        s1.done k m (toLE 1 st.type ++ toLE 1 st.flags ++ List.replicate 2 0 ++ toLE 4 (st.last.getD v) ++ toLE 4 st.queue
          ++ List.replicate 4 0 ++ toLE 8 st.c0 ++ toLE 8 st.c1 ++ toLE 8 st.c2 ++ toLE 8 st.c3 ++ toLE 8 st.c4
          ++ List.replicate 8 0)))

end Sys2Proof.Machine
end

