-- ==== Sys2Proof/Machine/Image.lean ====
section
/-! DEFINITION. Step images (R181 to R185): reading the container, the sections and their tables, and the placement of
what the image declares in job HBM (R210 to R213). -/
namespace Sys2Proof.Machine

/-- A section (R181). -/
structure Sect where
  num : Nat
  type : Nat
  target : Nat
  addr : Nat
  body : List Byte
  deriving DecidableEq, Repr

/-- A step image whose container has been read. -/
structure StepImage where
  raw : List Byte
  sects : List Sect
  deriving DecidableEq, Repr

/-- Status and detail of a failure. -/
abbrev Fail := Nat × Nat

/-- The detail of the IMAGE statuses (R405): section, 0xFFFF for the header, and record. -/
def imageDetail (sec rec : Nat) : Nat := sec + rec * 65536

/-- The first listed check that fails. -/
def firstFail (l : List (Bool × Fail)) : Option Fail := (l.find? (fun e => !e.1)).map (fun e => e.2)

/-- The image's header fields (R181). -/
def StepImage.f (im : StepImage) (off n : Nat) : Nat := fieldLE im.raw off n
def StepImage.flags (im : StepImage) : Nat := im.f 6 2
def StepImage.abortStep (im : StepImage) : Bool := bitOf im.flags 0
def StepImage.repro (im : StepImage) : Bool := bitOf im.flags 1
def StepImage.seed (im : StepImage) : Nat := im.f 0x18 8
def StepImage.digest (im : StepImage) : List Byte := slice im.raw 0x20 48
def StepImage.footprint (im : StepImage) : Nat := im.f 0x50 4
def StepImage.undo (im : StepImage) : Nat := im.f 0x54 4
def StepImage.cbwMib (im : StepImage) : Nat := im.f 0x58 4

/-- The image's bytes with the digest field zero (R181). -/
def digested (bs : List Byte) : List Byte := bs.take 0x20 ++ List.replicate 48 0 ++ bs.drop 0x50

/-- Section `i` of the table. -/
def sectOf (bs : List Byte) (i : Nat) : Sect :=
  let e := slice bs (128 + 32 * i) 32
  ⟨i, fieldLE e 0 2, fieldLE e 2 2, fieldLE e 0x18 8, slice bs (fieldLE e 8 8) (fieldLE e 0x10 8)⟩

/-- Step 1 of R184: the header, the length and the section table, and then the digest. -/
def imageForm (bs : List Byte) : Option Fail :=
  let f (off n : Nat) := fieldLE bs off n
  let head := imageDetail 0xFFFF 0
  let n := f 0xC 4
  firstFail ([(decide (128 ≤ bs.length), (Status.imageFormat, head)),
    (decide (f 0 4 = 0x53473447) && decide (f 4 2 = 1) && decide (f 6 2 < 8) && decide (1 ≤ n) && decide (n ≤ 4096) &&
      decide (f 0x10 8 = bs.length) && decide (128 + 32 * n ≤ bs.length) && decide (f 0x5C 36 = 0) &&
      (bitOf (f 6 2) 0 || decide (f 0x54 4 = 0)), (Status.imageFormat, head))]
    ++ (List.range (if n ≤ 4096 then n else 0)).map (fun i =>
      (decide (f (128 + 32 * i + 4) 4 = 0) && decide (f (128 + 32 * i + 8) 8 + f (128 + 32 * i + 0x10) 8 ≤ bs.length),
        (Status.imageFormat, imageDetail i 0)))
    ++ [(decide (sha384Bytes (digested bs) = slice bs 0x20 48), (Status.imageDigest, head))])

def StepImage.of (bs : List Byte) : StepImage := ⟨bs, (List.range (fieldLE bs 0xC 4)).map (sectOf bs)⟩

/-- The sections of a type, and the one of a type that an image holds at most once. -/
def StepImage.all (im : StepImage) (type : Nat) : List Sect := im.sects.filter (fun x => x.type = type)
def StepImage.one (im : StepImage) (type : Nat) : Option Sect := (im.all type).head?

/-- Number of the section of a type, 0xFFFF where the image has none. -/
def StepImage.numOf (im : StepImage) (type : Nat) : Nat := ((im.one type).map (fun x => x.num)).getD 0xFFFF

/-- Entries of `size` bytes of a section's body from offset `off`. -/
def Sect.entries (x : Sect) (off size : Nat) : List (List Byte) :=
  (List.range ((x.body.length - off) / size)).map (fun i => slice x.body (off + size * i) size)

/-- The entries of a section that the image may leave out. -/
def StepImage.entries (im : StepImage) (type off size : Nat) : List (List Byte) :=
  match im.one type with
  | some x => x.entries off size
  | none => []

/-- The list a section of type 0x0001 or 0x0002 holds, and its records. -/
def Sect.list (x : Sect) : ListId := if x.type = 1 then x.target else 192 + x.target
def Sect.records (x : Sect) : List OpRecord := (x.entries 0 32).map (fun b => BitVec.ofNat 256 (ofLE b))

/-- The op-list sections in section order. -/
def StepImage.lists (im : StepImage) : List Sect := im.sects.filter (fun x => x.type = 1 || x.type = 2)

/-- Contents of core n's store as loaded: its image, or nothing. -/
def StepImage.coreImage (im : StepImage) (n : Nat) : List Byte :=
  (((im.all 3).find? (fun x => x.target = n)).map (fun x => x.body)).getD []

/-- `n` bytes at an address that a section of type 0x0008 loads. -/
def StepImage.loaded (im : StepImage) (a n : Nat) : Option (List Byte) :=
  ((im.all 8).find? (fun x => decide (x.addr ≤ a) && decide (a + n ≤ x.addr + x.body.length))).map
    (fun x => slice x.body (a - x.addr) n)

-- section forms (R182)

/-- A section's type, target, load address and length. -/
def Sect.formOk (x : Sect) : Bool :=
  let n := x.body.length
  let lists := decide (x.target < 192) && decide (n % 32 = 0) && decide (32 ≤ n) && decide (n ≤ 32 * 1048576)
  let load := decide (x.addr = 0) || decide (x.addr < hbmSize)
  let loose := decide (x.target = 0xFFFF) && load
  match x.type with
  | 1 => lists && load
  | 2 => lists && load
  | 3 => decide (x.target < 192) && (decide (x.addr = 0) || decide (x.addr = coreStore x.target)) && decide (n ≤ storeSize)
  | 4 => loose && decide (192 ≤ n) && decide ((n - 192) % 48 = 0)
  | 5 => loose && decide (n = 128)
  | 6 => loose && decide (32 ≤ n) && decide (n = 32 + 160 * fieldLE x.body 0 4)
  | 7 => loose && decide (n % 64 = 0)
  | 8 => decide (x.target = 0xFFFF)
  | 9 => loose && decide (32 ≤ n)
  | _ => false

/-- The numbers of sections of R182: at most once each, and those that are always there. -/
def StepImage.counts (im : StepImage) : Option Fail :=
  let lay (i : Nat) : Fail := (Status.imageLayout, imageDetail i 0)
  firstFail (im.sects.map (fun x =>
      (x.formOk && (decide (x.type = 8) || im.sects.all (fun y =>
        decide (x.num ≤ y.num) || decide (y.type ≠ x.type) || decide (y.target ≠ x.target))), lay x.num))
    ++ [((List.range 192).all (fun n => (im.all 1).any (fun x => x.target = n)), lay 0xFFFF),
      ((im.one 5).isSome && (im.one 7).isSome, lay 0xFFFF)])

-- region declarations (R183, R185, R211)

/-- A region entry with its place in the section. -/
def StepImage.regions (im : StepImage) : List (Nat × List Byte) := (im.entries 7 0 64).zipIdx.map (fun e => (e.2, e.1))
def StepImage.kind (im : StepImage) (k : Nat) : List (Nat × List Byte) := im.regions.filter (fun e => fieldLE e.2 0 2 = k)

/-- The list of a completion array entry. -/
def arrayList (b : List Byte) : ListId := if fieldLE b 2 2 < 0x8000 then fieldLE b 2 2 else 192 + (fieldLE b 2 2 - 0x8000)

/-- Completion arrays: list ↦ slots and base. -/
def StepImage.arrays (im : StepImage) : Tab (Nat × Nat) :=
  (im.kind 1).foldl (fun t e => Tab.put (arrayList e.2) (fieldLE e.2 4 4, fieldLE e.2 8 8) t) []

/-- Slots of all completion arrays. -/
def StepImage.slots (im : StepImage) : Nat := im.arrays.foldl (fun n e => n + e.2.1) 0

def tensorOf (b : List Byte) : Tensor where
  scaleMode := fieldLE b 2 1 % 4
  storage := fieldLE b 2 1 / 4 % 2
  fmt := fieldLE b 3 1 % 16
  sgn := bitOf (fieldLE b 3 1) 4
  id := fieldLE b 4 4
  origin := fieldLE b 8 8
  base := fieldLE b 0x10 8
  held := fieldLE b 0x18 8
  first := fieldLE b 0x20 2
  cores := fieldLE b 0x22 2
  q := fieldLE b 0x24 1
  scaleBase := fieldLE b 0x28 8
  bitmapBase := fieldLE b 0x30 8

def StepImage.tensors (im : StepImage) : List Tensor := (im.kind 4).map (fun e => tensorOf e.2)

/-- A declaration's form and the rules of R185 and R186 on it alone. -/
def tensorOk (b : List Byte) : Bool :=
  let t := tensorOf b
  let scaled := decide (2 ≤ t.scaleMode)
  decide (fieldLE b 2 1 < 8) && decide (fieldLE b 3 1 < 32) && decide (fieldLE b 0x25 3 = 0) && decide (fieldLE b 0x38 8 = 0) &&
    decide (t.id ≠ 0) && decide (t.base % 4096 = 0) && decide (t.origin * t.width % 32768 = 0) &&
    (if t.fmt = 0xE then decide (bitsOf t.q 7 6 ≠ 3) else decide (t.q = 0)) &&
    (scaled || (decide (t.scaleBase = 0) && decide (t.bitmapBase = 0))) && decide (t.bitmapBase % 8 = 0) &&
    (if t.storage = 1 then decide (t.held * t.width % 32768 = 0) && decide (1 ≤ t.cores) && decide (t.first + t.cores ≤ 192)
     else decide (t.first = 0) && decide (t.cores = 0))

/-- The form of each region entry (R183, R185, R211). -/
def regionOk (b : List Byte) : Bool :=
  let f (off n : Nat) := fieldLE b off n
  match f 0 2 with
  | 1 =>
    (decide (f 2 2 < 192) || (decide (0x8000 ≤ f 2 2) && decide (f 2 2 < 0x80C0))) && decide (1 ≤ f 4 4) && decide (f 4 4 ≤ 65536) &&
      decide (f 8 8 % 4096 = 0) && decide (f 0x10 48 = 0)
  | 2 => decide (4 ≤ f 2 1) && decide (f 2 1 ≤ 20) && decide (f 3 5 = 0) && decide (f 8 8 % 4096 = 0) && decide (f 0x10 48 = 0)
  | 3 =>
    decide (f 2 1 ≤ 3) && decide (f 3 1 ≤ 1) && decide (f 4 4 = 0) && decide (f 8 8 % (if f 2 1 = 1 then 4096 else 64) = 0) &&
      decide (f 0x10 8 % 64 = 0) && decide (f 0x18 40 = 0)
  | 4 => tensorOk b
  | 5 =>
    decide (1 ≤ f 4 2) && decide (f 2 2 + f 4 2 ≤ 368) && decide (f 6 1 ≤ 1) && decide (f 7 1 ≤ 11) &&
      (decide (f 6 1 = 1) || decide (f 7 1 = 0)) && decide (f 8 56 = 0)
  | _ => false

/-- Two entries that the section may not both hold: arrays of one list, tick logs, declarations of one tensor, placements of
one segment. -/
def regionsClash (a b : List Byte) : Bool :=
  let f (x : List Byte) (off n : Nat) := fieldLE x off n
  decide (f a 0 2 = f b 0 2) &&
    match f a 0 2 with
    | 1 => decide (f a 2 2 = f b 2 2)
    | 2 => true
    | 4 => decide (f a 4 4 = f b 4 4)
    | 5 => overlaps (f a 2 2) (f a 4 2) (f b 2 2) (f b 4 2)
    | _ => false

/-- Whether a list holds an engine, transfer or Marrow record. -/
def Sect.hasOps (x : Sect) : Bool := x.records.any (fun r => decide (r.unit ≠ 0))

/-- The region section's own rules. -/
def StepImage.regionRules (im : StepImage) : Option Fail :=
  let rs := im.regions
  let lay (j : Nat) : Fail := (Status.imageLayout, imageDetail (im.numOf 7) j)
  firstFail (rs.map (fun e => (regionOk e.2 && rs.all (fun d => decide (e.1 ≤ d.1) || !regionsClash e.2 d.2), lay e.1))
    ++ [(decide ((im.kind 2).length = 1) && decide ((im.kind 3).length ≤ 16384) && decide ((im.kind 4).length ≤ 65536) &&
          im.lists.all (fun x => decide ((Tab.find? im.arrays x.list).isSome = x.hasOps)) &&
          im.arrays.all (fun a => im.lists.any (fun x => decide (x.list = a.1))), lay 0)])

-- placement (R210 to R213)

/-- Single-stack segments: segment ↦ stack + 1 (R211). -/
def StepImage.segStack (im : StepImage) : Tab Nat :=
  (im.kind 5).foldl (fun t e =>
    if fieldLE e.2 6 1 = 1 then
      (List.range (fieldLE e.2 4 2)).foldl (fun t i => Tab.put (fieldLE e.2 2 2 + i) (fieldLE e.2 7 1 + 1) t) t
    else t) []

/-- One stack's share of bytes that twelve stacks carry, in 64 KiB granules (R212). -/
def stackShare (bytes : Nat) : Nat := ((bytes + 65535) / 65536 + 11) / 12

/-- Reserves charged to each stack, in granules: undo, copy-before-write and replay log (R212). -/
def StepImage.charge (im : StepImage) : Nat := im.undo + stackShare (im.cbwMib * 1048576) + stackShare (16 * im.slots)

/-- Segments backed with the stacks' capacities in granules: every single-stack one, and as many interleaved ones in ascending
order as the capacities allow; none where the single-stack ones do not fit (R212). -/
def backedBy (cap : Nat → Nat) (fixed : Nat) (segStack : Tab Nat) : Option (List Nat) :=
  let used (t : Nat) := fixed + 24576 * (segStack.filter (fun e => e.2 = t + 1)).length
  if (List.range 12).all (fun t => used t ≤ cap t) then
    let room := (List.range 12).foldl (fun n t => min n ((cap t - used t) / 2048)) 368
    let inter := (List.range 368).filter (fun i => decide (Tab.get 0 segStack i = 0))
    some (segStack.map (fun e => e.1) ++ inter.take room)
  else none

/-- Bytes [a, a + n) lie in job HBM whose segments are all in `backed`. -/
def inBacked (backed : List Nat) (a n : Nat) : Bool :=
  decide (a + n ≤ hbmSize) &&
    (decide (n = 0) || (List.range ((a + n - 1) / segSize - a / segSize + 1)).all (fun i => decide (a / segSize + i ∈ backed)))

/-- What the image places in job HBM or scratch. -/
structure Span where
  base : Nat
  len : Nat
  sec : Nat
  entry : Nat
  deriving DecidableEq, Repr

/-- The peer and plant stream table (R327): the words of its peers, its groups and its stream entries; none where the section's
length does not fit its counts. -/
structure PeerTable where
  peers : List Nat
  groups : List (Nat × Nat × List Nat × Nat)
  streams : List (List Byte)
  deriving DecidableEq, Repr

/-- `n` group entries from offset `off`: the two header words, the members and the padding; and where they end. -/
def groupsAt (b : List Byte) : Nat → Nat → Option (List (Nat × Nat × List Nat × Nat) × Nat)
  | off, 0 => some ([], off)
  | off, n + 1 =>
    let members := fieldLE b (off + 2) 2 + 1
    let size := (2 * members + 7) / 8 * 8
    if off + 8 + size ≤ b.length then
      (groupsAt b (off + 8 + size) n).map (fun g =>
        ((fieldLE b off 2, fieldLE b (off + 4) 4, (List.range members).map (fun i => fieldLE b (off + 8 + 2 * i) 2),
          fieldLE b (off + 8 + 2 * members) (size - 2 * members)) :: g.1, g.2))
    else none

def peerTableOf (b : List Byte) : Option PeerTable :=
  let n := fieldLE b 0 4
  let ns := fieldLE b 6 2
  if 32 + 4 * n ≤ b.length then
    match groupsAt b (32 + 4 * n) (fieldLE b 4 2) with
    | some (gs, off) =>
      if off + 64 * ns = b.length then
        some ⟨(List.range n).map (fun i => fieldLE b (32 + 4 * i) 4), gs, (List.range ns).map (fun i => slice b (off + 64 * i) 64)⟩
      else none
    | none => none
  else none

def StepImage.peerTable (im : StepImage) : Option PeerTable := (im.one 9).bind (fun x => peerTableOf x.body)

/-- Members of a group that the image declares. -/
def StepImage.groupSize (im : StepImage) (g : Nat) : Nat :=
  match im.peerTable with
  | some t => ((t.groups.find? (fun e => e.1 = g)).map (fun e => e.2.2.1.length)).getD 0
  | none => 0

-- queue definitions (R278)

/-- A queue definition entry; `stateAddr` is where its state record lies. -/
def qdefOf (b : List Byte) (stateAddr : Nat) : QDef where
  home := fieldLE b 4 1 % 16
  pin := bitOf (fieldLE b 4 1) 4
  log2cap := fieldLE b 5 1
  threshold := fieldLE b 6 2
  body := fieldLE b 8 8
  producer := fieldLE b 0x10 4
  consumer := fieldLE b 0x14 4
  prodCtl := fieldLE b 0x18 2
  landCtl := fieldLE b 0x1A 2
  landConv := fieldLE b 0x1C 1
  statBase := fieldLE b 0x20 8
  stateAddr := stateAddr

/-- Definition entries with their place in the section. -/
def StepImage.qEntries (im : StepImage) : List (Nat × List Byte) := (im.entries 4 192 48).zipIdx.map (fun e => (e.2, e.1))

/-- Stack header t: base and count. -/
def StepImage.qHead (im : StepImage) (t : Nat) : Nat × Nat :=
  match im.one 4 with
  | some x => (fieldLE x.body (16 * t) 8, fieldLE x.body (16 * t + 8) 4)
  | none => (0, 0)

/-- Definitions by queue number: state records lie in definition order in the home's area (R280). -/
def StepImage.qdefs (im : StepImage) : List (Nat × QDef) :=
  im.qEntries.map (fun e =>
    let home := fieldLE e.2 4 1 % 16
    let before := (im.qEntries.filter (fun d => decide (d.1 < e.1) && decide (fieldLE d.2 4 1 % 16 = home))).length
    (fieldLE e.2 0 4, qdefOf e.2 ((im.qHead home).1 + 64 * before)))

/-- Data regions of a purpose: base and length. -/
def StepImage.data (im : StepImage) (purpose : Nat) : List (Nat × Nat) :=
  ((im.kind 3).filter (fun e => fieldLE e.2 2 1 = purpose)).map (fun e => (fieldLE e.2 8 8, fieldLE e.2 0x10 8))

/-- [a, a + n) lies in one data region of the purpose. -/
def StepImage.inRegion (im : StepImage) (purpose a n : Nat) : Bool :=
  (im.data purpose).any (fun d => decide (d.1 ≤ a) && decide (a + n ≤ d.1 + d.2))

/-- Everything the image places at an address: declared regions, queue bodies and state areas, and sections. -/
def StepImage.spans (im : StepImage) : List Span :=
  let r := im.numOf 7
  let q := im.numOf 4
  (im.kind 1).map (fun e => ⟨fieldLE e.2 8 8, 64 * fieldLE e.2 4 4, r, e.1⟩)
    ++ (im.kind 2).map (fun e => ⟨fieldLE e.2 8 8, 64 * 2 ^ fieldLE e.2 2 1, r, e.1⟩)
    ++ (im.kind 3).map (fun e => ⟨fieldLE e.2 8 8, fieldLE e.2 0x10 8, r, e.1⟩)
    ++ im.qEntries.map (fun e => ⟨fieldLE e.2 8 8, 64 * 2 ^ min (fieldLE e.2 5 1) 24, q, e.1⟩)
    ++ (List.range 12).map (fun t => ⟨(im.qHead t).1, 64 * (im.qHead t).2, q, t⟩)
    ++ (im.sects.filter (fun x => decide (x.type = 8) || (decide (x.type ≠ 3) && decide (x.addr ≠ 0)))).map
      (fun x => ⟨x.addr, x.body.length, x.num, 0⟩)

/-- A span lies where the image may place it: in backed job HBM, or, of a section of type 0x0008, in Marrow scratch (R249). -/
def StepImage.spanOk (im : StepImage) (backed : List Nat) (p : Span) : Bool :=
  inBacked backed p.base p.len ||
    ((im.all 8).any (fun x => decide (x.num = p.sec)) && decide (rangeOf p.base = .scratch) &&
      decide (p.base + p.len ≤ scratchBase + 12 * scratchSize))

/-- Spans in memory apart from each other and from the staged bytes (R183, R404). -/
def StepImage.spanRules (im : StepImage) (backed : List Nat) (staged : Nat × Nat) : Option Fail :=
  let ps := im.spans.zipIdx
  firstFail (ps.map (fun e =>
    (im.spanOk backed e.1 && !overlaps e.1.base e.1.len staged.1 staged.2 &&
      ps.all (fun d => decide (e.2 ≤ d.2) || !overlaps e.1.base e.1.len d.1.base d.1.len),
      (Status.imageLayout, imageDetail e.1.sec e.1.entry))))

-- bodies that firmware places (R181, R182, R214)

/-- Sections whose bodies firmware places in job HBM: the op lists, or the other tables. Core images go to their store and initial
data to its address. -/
def StepImage.loose (im : StepImage) (lists : Bool) : List Sect :=
  im.sects.filter (fun x => decide (x.addr = 0) && decide (x.type ≠ 3 ∧ x.type ≠ 8) && decide ((x.type = 1 ∨ x.type = 2) = (lists = true)))

/-- [a, a + n) is job HBM that nothing else of the image takes, nor the staged bytes. -/
def StepImage.roomAt (im : StepImage) (backed : List Nat) (staged : Nat × Nat) (n a : Nat) : Bool :=
  decide (a ≠ 0) && inBacked backed a n && !overlaps a n staged.1 staged.2 && im.spans.all (fun p => !overlaps a n p.base p.len)

/-- A place for `n` bytes: the one that firmware's own free choice names where it has room, otherwise the first with room after
what the image places (DESIGN CHOICE, log entry 23). -/
def StepImage.freePlace (im : StepImage) (backed : List Nat) (staged : Nat × Nat) (n block : Nat) : Option Nat :=
  let a := Config.bodyPlace block (ofLE im.digest)
  if im.roomAt backed staged n a then some a
  else
    ((4096 :: (staged.1 + staged.2) :: im.spans.map (fun p => p.base + p.len)).map (fun x => (x + 4095) / 4096 * 4096)).find?
      (im.roomAt backed staged n)

/-- Sections laid one after another from `a` on. -/
def layOut : Nat → List Sect → List Sect
  | _, [] => []
  | a, x :: r => { x with addr := a } :: layOut (a + x.body.length) r

/-- The loose op lists, or the other loose sections, placed as one block. -/
def StepImage.fitBlock (im : StepImage) (backed : List Nat) (staged : Nat × Nat) (lists : Bool) : Option StepImage :=
  let xs := im.loose lists
  if xs.isEmpty then some im
  else
    (im.freePlace backed staged (xs.foldl (fun n x => n + x.body.length) 0) (if lists then 0 else 1)).map (fun a =>
      let ys := layOut a xs
      { im with sects := im.sects.map (fun x => (ys.find? (fun y => y.num = x.num)).getD x) })

/-- The image with every body placed. -/
def StepImage.fit (im : StepImage) (backed : List Nat) (staged : Nat × Nat) : Option StepImage :=
  (im.fitBlock backed staged true).bind (fun x => x.fitBlock backed staged false)

-- the region guard table (R31, R182, R280)

/-- A region put among regions in ascending order, one that starts where another ends or inside it joined to it. -/
def insertRegion (a n : Nat) : List (Nat × Nat) → List (Nat × Nat)
  | [] => [(a, n)]
  | (b, m) :: r =>
    if a + n < b then (a, n) :: (b, m) :: r
    else if b + m < a then (b, m) :: insertRegion a n r
    else insertRegion (min a b) (max (a + n) (b + m) - min a b) r

/-- Regions of job HBM that firmware guards: the op lists and each stack's queue state area (R31, R182, R280). -/
def StepImage.guardList (im : StepImage) : List (Nat × Nat) :=
  (im.lists.map (fun x => (x.addr, x.body.length)) ++
    ((List.range 12).filter (fun t => (im.qHead t).2 ≠ 0)).map (fun t => ((im.qHead t).1, 64 * (im.qHead t).2))).foldl
      (fun g e => insertRegion e.1 e.2 g) []

/-- The bodies that firmware places find room, and the regions to guard fit in the 256-entry table with firmware's own; neighbouring
regions take one entry (DESIGN CHOICE, log entry 23). -/
def StepImage.fitRules (im : StepImage) (backed : List Nat) (staged : Nat × Nat) : Option Fail :=
  let ok := match im.fit backed staged with
    | some x => decide (x.guardList.length + Config.guards.length ≤ 256)
    | none => false
  firstFail [(ok, (Status.imageLayout, imageDetail (((im.loose true ++ im.loose false ++ im.lists).head?.map (fun x => x.num)).getD 0xFFFF) 0))]

/-- Number of scales of a declaration, and bytes of its overflow bitmap (R501). -/
def Tensor.scaleCount (t : Tensor) : Nat :=
  if t.scaleMode = 3 then 1 else ((if t.storage = 0 then t.held else t.held * t.cores) + 1023) / 1024
def Tensor.bitmapBytes (t : Tensor) : Nat := ((t.scaleCount + 7) / 8 + 7) / 8 * 8

/-- Scale and bitmap extents of every declaration lie in their regions (R183, R501). -/
def StepImage.extentRules (im : StepImage) : Option Fail :=
  firstFail ((im.kind 4).map (fun e =>
    let t := tensorOf e.2
    (decide (t.scaleMode < 2) || (im.inRegion 1 t.scaleBase t.scaleCount && im.inRegion 2 t.bitmapBase t.bitmapBytes),
      (Status.imageLayout, imageDetail (im.numOf 7) e.1))))

end Sys2Proof.Machine
end

