-- ==== Sys2Proof/Machine/Rules.lean ====
section
/-! DEFINITION. The admission rules on records and descriptors (step 5 of R184; the regions that ops name belong to step
4): controls, the stage chain, vector, matrix and transfer descriptors. -/
namespace Sys2Proof.Machine

/-- What admission finds of one record: whether it keeps the rules, and the statistics entries and scale tiles in job HBM
that it names, as address and bytes. -/
structure Finding where
  ok : Bool
  stats : List (Nat × Nat)
  scales : List (Nat × Nat)
  deriving DecidableEq, Repr

def Finding.just (ok : Bool) : Finding := ⟨ok, [], []⟩
def Finding.and (a b : Finding) : Finding := ⟨a.ok && b.ok, a.stats ++ b.stats, a.scales ++ b.scales⟩

-- controls (R73 to R78)

/-- Controls an operand or destination may carry: format and signedness (R73, R74), q (R75), scaling mode (R78). E8M0 is
admitted where `scale` says so (R77). -/
def Ctl.ok (c : Ctl) (scale : Bool) : Bool :=
  decide (c.fmt ≠ 0xF) && (decide (c.fmt ≠ 0xD) || scale) &&
    (!c.sgn || (decide (9 ≤ c.fmt) && decide (c.fmt ≤ 0xC)) || decide (c.fmt = 0xE)) &&
    (if c.fmt = 0xE then decide (bitsOf c.q 7 6 ≠ 3) && decide (bitsOf c.q 5 0 ≤ qWidth c.q) else decide (c.q = 0)) &&
    (match c.mode with
      | 0 => true
      | 1 => (decide (4 ≤ c.fmt) && decide (c.fmt ≤ 8)) || (decide (c.fmt = 9) && c.sgn)
      | _ => decide (4 ≤ c.fmt) && decide (c.fmt ≤ 0xA))

/-- IEEE overflow only with FP32 and FP64 targets (R83). -/
def ovfOk (r : OpRecord) (targets : List Ctl) : Bool := !r.ieeeOvf || targets.all (fun c => decide (c.fmt ≤ 1))

/-- A conversion that narrows, one entry of which needs a statistics array (R93, R95). -/
def narrows (a b : Ctl) : Bool := !a.same b && narrowing a b

/-- The statistics rule of R95: a narrowing conversion needs a stat_base; `tiles` are the statistics tiles. -/
def statRule (narrow : Bool) (base : Nat) (tiles : List Nat) : Finding :=
  if narrow then ⟨decide (base ≠ 0), [(base, 8 * (ascending tiles).length)], []⟩ else Finding.just true

/-- Scale tiles named at an address: those in job HBM lie in a region of their purpose (R183). -/
def scaleRule (c : Ctl) (a n : Nat) : Finding :=
  if c.mode ≠ 0 ∧ rangeOf a = .hbm then ⟨true, [], [(a, n)]⟩ else Finding.just true

-- declarations (R187)

/-- An op that needs a declaration of its destination tensor. -/
def needsTensor (r : OpRecord) (mode : Nat) : Bool := decide (r.rnd = 5) || r.digest || decide (2 ≤ mode)

/-- Bytes [a, b) lie in the storage of a declaration. -/
def Tensor.holds (t : Tensor) (a b : Nat) : Bool :=
  let size := (t.held * t.width + 7) / 8
  if t.storage = 0 then decide (t.base ≤ a) && decide (b ≤ t.base + size)
  else
    let n := (a - storeBase) / storeSize
    decide (rangeOf a = .store) && decide (t.first ≤ n) && decide (n < t.first + t.cores) && decide (coreStore n + t.base ≤ a) &&
      decide (b ≤ coreStore n + t.base + size)

/-- The declaration that R187 asks for: it exists, holds the destination's byte ranges and has its format. -/
def StepImage.declared (im : StepImage) (r : OpRecord) (dst : Ctl) (ranges : List (Nat × Nat)) : Bool :=
  !needsTensor r dst.mode ||
    (decide (r.tensorId ≠ 0) && im.tensors.any (fun t => decide (t.id = r.tensorId) && decide (t.fmt = dst.fmt) &&
      decide (t.sgn = dst.sgn) && (decide (t.fmt ≠ 0xE) || decide (t.q = dst.q)) && !ranges.isEmpty &&
      ranges.all (fun e => t.holds e.1 e.2)))

-- the stage chain (R126, R132, R134, R139, R145)

/-- Some stage between the first and the last is on. -/
def Chain.anyStage (c : Chain) : Bool :=
  decide (c.mul ≠ 0) || decide (c.add ≠ 0) || decide (c.cmp ≠ 0) || c.sel || decide (c.minmax ≠ 0) || decide (c.sfu ≠ 0) ||
    decide (c.fxp ≠ 0)

/-- A chain word's rules. `stream`: stream form; `sfus`: the engine has stage 7. A reserved bit that is not zero is rejected, as
those of every descriptor and operand entry are: R134, R137 and R138 name no treatment of them (DESIGN CHOICE, log entry 117). -/
def Chain.ok (c : Chain) (stream sfus : Bool) : Bool :=
  decide (c.wfmt ∈ [0, 1, 2, 3, 0xB, 0xC, 0xE]) && c.ctl.ok false && decide (c.reserved = 0) &&
    decide (c.mul ≠ 3) && decide (c.add ≤ 5) && decide (c.minmax ≠ 7) && decide (c.sfu ≠ 7) &&
    (decide (c.sfu = 0) || (c.isFloat && sfus)) && (decide (c.fxp = 0) || !c.isFloat) &&
    decide ((c.mul = 2) = (c.add = 4)) && (decide (c.mul ≠ 2) || c.isFloat) &&
    !(decide (c.add = 5) && (decide (c.minmax = 5) || decide (c.minmax = 6))) && !(c.derive && c.anyStage) &&
    (!stream || (decide (c.wmask = 0 ∨ c.wmask = c.cmpMask) && (!c.sel || decide (c.selMask = 0 ∨ c.selMask = c.cmpMask))))

/-- Byte range of `n` elements of a stream. -/
def Opnd.bytes (d : Opnd) (n : Nat) : Nat × Nat := d.span (if d.stride = 0 then 1 else n)

/-- The range does not run below address 0. -/
def Opnd.positive (d : Opnd) (n : Nat) : Bool :=
  decide (0 ≤ (d.addr * 8 : Nat) + ((n - 1 : Nat) : Int) * d.stride * (d.ctl.width : Int))

/-- Tiles of a byte range. -/
def tilesIn (e : Nat × Nat) : List Nat := touchedTiles e.1 (e.2 - e.1)

/-- A stream operand's own rules (R138): controls, stride of scaled and sub-byte streams, and the reach of its bytes and
scales. `reach a n` is the engine's range rule. -/
def Opnd.streamOk (d : Opnd) (n : Nat) (idx : Bool) (reach : Nat → Nat → Bool) : Bool :=
  let e := d.bytes n
  d.ctl.ok false && (decide (d.stride = 1) || (decide (d.ctl.mode = 0) && decide (8 ≤ d.ctl.width))) &&
    !(idx && decide (d.stride ≠ 0) && decide (d.ctl.mode ≠ 0)) && d.positive n && reach e.1 (e.2 - e.1) &&
    (decide (d.ctl.mode = 0) || reach d.scaleAddr (scalesOf d.ctl 1 n))

/-- Operand rules of a chain op that is no derivation (R135, R136, R138, R147, R168, R187). `n` elements are known to be
touched: the count, or one in register form. -/
def StepImage.chainOp (im : StepImage) (r : OpRecord) (op : ChainOp) (reach : Bool → Nat → Nat → Bool) : Finding :=
  let c := op.chain
  let stream := decide (op.count ≠ 0)
  let n := max 1 op.count
  let red := decide (c.reduceStage ≠ 0)
  let nd := if red then 1 else n
  let source (d : Opnd) : Bool :=
    match d.kind with
    | 0 => true
    | 1 => d.ctl.ok false && (decide (d.stride = 0) || (decide (d.stride = 1) && !stream))
    | _ => d.streamOk n r.idxEn (reach false)
  let dest : Bool :=
    match op.d.kind with
    | 0 => !stream
    | 1 => op.d.ctl.ok false && decide (op.d.stride = 0 ∨ op.d.stride = 1) && (!stream || red)
    | _ => op.d.streamOk nd r.idxEn (reach true)
  let used := [op.a, op.b, op.c].filter (fun d => decide (d.kind ≠ 0))
  let narrowIn := used.filter (fun d => narrows d.ctl c.ctl)
  let narrowOut := decide (op.d.kind ≠ 0) && narrows c.ctl op.d.ctl
  let tiles := (narrowIn.filter (fun d => d.kind = 2)).flatMap (fun d => tilesIn (d.bytes n))
    ++ (if narrowOut && decide (op.d.kind = 2) then tilesIn (op.d.bytes nd) else [])
  let targets := c.ctl :: (if op.d.kind = 0 then [] else [op.d.ctl])
  let declared := decide (op.d.kind = 0) || im.declared r op.d.ctl (if op.d.kind = 2 then [op.d.bytes nd] else [])
  ((Finding.just (source op.a && source op.b && source op.c && dest && ovfOk r targets && declared)).and
    (statRule (!narrowIn.isEmpty || narrowOut) op.statBase tiles)).and
    ((op.d :: used).foldl (fun f d => f.and (if d.kind = 2 then scaleRule d.ctl d.scaleAddr (scalesOf d.ctl 1 n) else Finding.just true))
      (Finding.just true))

/-- Operand rules of a scale derivation (R149, R192): a is a stream of statistics entries or absent, b and d streams of
E8M0, c the bitmap or absent. -/
def StepImage.deriveOp (im : StepImage) (r : OpRecord) (op : ChainOp) (reach : Bool → Nat → Nat → Bool) : Bool :=
  let haveA := decide (op.a.kind ≠ 0)
  let e8m0 (d : Opnd) : Bool := decide (d.kind = 2) && decide (d.ctl.fmt = 0xD) && d.ctl.ok true
  let (sources, dest) := op.operands op.count
  let inReach (write : Bool) (p : Opnd × Nat) : Bool :=
    let e := p.1.bytes p.2
    decide (p.1.kind = 0) || (p.1.positive p.2 && reach write e.1 (e.2 - e.1))
  (if haveA then decide (op.a.kind = 2) && decide (4 ≤ op.a.ctl.fmt) && decide (op.a.ctl.fmt ≤ 0xA) &&
      op.a.ctl.ok false && decide (op.count % op.g = 0)
    else decide (op.g = 1) && decide (op.r = 1)) &&
    e8m0 op.b && e8m0 op.d && decide (op.c.kind = 0 ∨ op.c.kind = 2) && sources.all (inReach false) && inReach true dest &&
    [op.a, op.b, op.c, op.d].all (fun d => !(r.idxEn && decide (d.kind = 2) && decide (d.stride ≠ 0) && decide (d.ctl.mode ≠ 0))) &&
    ovfOk r [op.chain.ctl] && im.declared r op.d.ctl [op.d.bytes dest.2]

-- core descriptors

/-- [a, a + n) lies in core l's store. -/
def storeReach (l : ListId) (a n : Nat) : Bool := decide (coreStore l ≤ a) && decide (a + n ≤ coreStore l + storeSize)

/-- A descriptor of `n` bytes in a core's image; none where the image does not load it whole, so that the step image writes it
later and admission cannot judge it. -/
def StepImage.coreDesc (im : StepImage) (l : ListId) (off n : Nat) : Option (List Byte) :=
  if off + n ≤ (im.coreImage l).length then some (slice (im.coreImage l) off n) else none

/-- VOP (R126 to R149, R192). -/
def StepImage.vopRule (im : StepImage) (l : ListId) (r : OpRecord) (t : List Byte) : Finding :=
  let op := ChainOp.ofVec (coreStore l) t
  let kinds := [op.a, op.b, op.c, op.d].all (fun d => decide (d.kind ≠ 3) && decide (d.reserved = 0))
  let basic := Finding.just (kinds && decide (op.reserved = 0) && decide (op.count ≤ 2 ^ 24) && op.chain.ok (decide (op.count ≠ 0)) true)
  if op.chain.derive then basic.and (Finding.just (im.deriveOp r op (fun _ => storeReach l)))
  else basic.and (im.chainOp r op (fun _ => storeReach l))

/-- The path of R102 with its formats and scaling; none for a combination it does not admit. -/
def MatOp.pathOk (m : MatOp) : Bool :=
  let a := m.ctlA
  let b := m.ctlB
  let short (c : Ctl) : Bool := (decide (2 ≤ c.fmt) && decide (c.fmt ≤ 8)) || (decide (c.fmt = 9 ∨ c.fmt = 0xA) && decide (c.mode ≠ 0))
  let int (c : Ctl) : Bool := decide (c.fmt = 9 ∨ c.fmt = 0xA) && decide (c.mode = 0)
  (decide (a.fmt ≤ 1) && decide (b.fmt ≤ 1)) || (short a && short b) || (int a && int b)

/-- Formats of D by path (R111, R119, R121). -/
def MatOp.destOk (m : MatOp) : Bool :=
  match m.path with
  | .multi => decide (m.ctlD.fmt ≤ 3)
  | .short => decide (m.ctlD.fmt ≤ 5)
  | .integer => decide (m.ctlD.fmt ∈ [0, 1, 0xB, 0xC])

/-- MATMUL, MATMUL_PART, ANCHOR_GATHER and PART_COMBINE (R100 to R121, R173). -/
def StepImage.matrixRule (im : StepImage) (l : ListId) (r : OpRecord) (t : List Byte) : Finding :=
  let m := MatOp.of (coreStore l) t
  let kind := r.opcode
  let multi := decide (m.path = .multi)
  let cell := m.mp * m.np
  let writesD := decide (kind = 1 ∨ kind = 4)
  let addC := m.addC && writesD
  let recBytes := match m.path with
    | .multi => 32
    | .short => m.chunkSize * (if kind = 2 then m.chunks else 1)
    | .integer => 8
  let d : Nat × Nat := (m.d, cell * m.ctlD.width / 8)
  let c : Nat × Nat := (m.c, cell * m.ctlC.width / 8)
  let ab := if kind = 4 then [] else [(m.a, m.bytesA), (m.b, m.bytesB)]
  let recs : Nat × Nat := (m.records, cell * recBytes * (if kind = 4 then m.parts else 1))
  let scales := if kind = 4 then [] else
    (if m.ctlA.mode = 0 then [] else [(m.scaleA, scalesOf m.ctlA m.mp m.kp)]) ++
      (if m.ctlB.mode = 0 then [] else [(m.scaleB, scalesOf m.ctlB m.np m.kp)])
  let anchors := (if m.importAnchor && decide (kind ≤ 2) then [(m.ea, 2 * m.mp), (m.eb, 2 * m.np)] else []) ++
    (if m.anchorOut = 0 then [] else [(m.anchorOut, 2 * (m.mp + m.np))])
  let places := ab ++ scales ++ anchors ++ (if kind = 2 ∨ kind = 4 then [recs] else []) ++ (if writesD then [d] else []) ++
    (if addC then [c] else [])
  let clear (e : Nat × Nat) : Bool := !overlaps e.1 e.2 d.1 d.2
  let apart := !writesD || (ab.all clear && (!addC || clear c || decide (c = d)))
  let narrowC := addC && decide (m.path = .short) && narrows m.ctlC (chunkCtl m.chunk64)
  let narrowD := writesD && narrows m.srcCtl m.ctlD
  let tiles := (if narrowC then tilesIn (c.1, c.1 + c.2) else []) ++ (if narrowD then tilesIn (d.1, d.1 + d.2) else [])
  let outs := if writesD then [d] else if kind = 2 then [recs] else [(m.anchorOut, 2 * (m.mp + m.np))]
  (Finding.just (decide (m.reserved = 0) && m.ctlA.ok false && m.ctlB.ok false && m.ctlC.ok false && m.ctlD.ok false && m.pathOk &&
    (!writesD || m.destOk) && decide (m.ctlD.mode = 0) && decide (1 ≤ m.passes) && decide (m.passes ≤ 3) && (multi || decide (m.passes = 1)) &&
    decide (m.m ≤ 16384) && decide (m.n ≤ 16384) && decide (m.parts ≤ 4096) && (decide (kind ≠ 1) || decide (m.kOffset = 0)) &&
    (decide (kind ≠ 2) || decide (m.path ≠ .short) || decide (m.kOffset % 4096 = 0)) && (multi || !m.importAnchor) &&
    (decide (m.path = .short) || !m.chunk64) && (decide (kind ≠ 4) || decide (m.path ≠ .short) || decide (m.parts = m.chunks)) &&
    places.all (fun e => storeReach l e.1 e.2) && apart && ovfOk r [m.ctlD] &&
    im.declared r m.ctlD (outs.map (fun e => (e.1, e.1 + e.2))))).and
    (statRule (narrowC || narrowD) m.statBase tiles)

/-- The collective's extension (R328). -/
def collectiveOk (r : OpRecord) (d : XferOp) (e : List Byte) : Bool :=
  let f (off n : Nat) := fieldLE e off n
  let fmt := f 4 1 % 16
  let sgn := bitOf (f 4 1) 4
  let count := f 0x10 8
  let int := decide (fmt = 0xB ∨ fmt = 0xC)
  let c : Ctl := ⟨fmt, sgn, 0, 0⟩
  !d.srcGlobal && !d.dstGlobal && decide (f 2 1 ≤ 4) && decide (f 3 1 ≤ 5) && (decide (f 3 1 < 3) || int) && decide (f 4 1 < 32) &&
    (decide (fmt ≤ 2) || int) && c.ok false && decide (f 5 3 = 0) && decide (f 0xC 4 = 0) && decide (f 0x18 40 = 0) && decide (count < 2 ^ 32) &&
    (decide (f 2 1 ≠ 4) || decide (count = 0)) && d.ctlS.same c && d.ctlD.same c && decide (d.rowBytes = count * c.width / 8) &&
    (int || decide (f 3 1 ≠ 0) || decide (1 < f 2 1) || r.mayVary)

/-- Byte ranges of a transfer's destination rows on this device, by their ends. -/
def XferOp.destSpan (d : XferOp) (row : Nat) : Nat × Nat :=
  let a : Int := ((d.dst % 2 ^ 48 : Nat) : Int)
  let last : Int := a + ((d.rows - 1 : Nat) : Int) * d.dstStride
  ((min a last).toNat, (max a last).toNat + row)

/-- Bytes of an all-gather's destination: the elements of every member of its group, as far as the image declares the group
(R328). -/
def StepImage.gathered (im : StepImage) (d : XferOp) : Nat :=
  if d.kind = 6 ∧ fieldLE d.ext 2 1 = 3 then d.rowBytes * max 1 (im.groupSize (fieldLE d.ext 0 2)) else d.rowBytes

/-- XFER (R170, R172, R328). The op may vary where it is a float atomic or a collective. `gdn` is this device. -/
def StepImage.xferRule (im : StepImage) (gdn : Nat) (r : OpRecord) (t : List Byte) : Finding :=
  let d := XferOp.of t
  let k := d.kind
  let op := atomicOp d.atomic
  let converts := decide (k ≤ 1) && !d.ctlS.same d.ctlD
  let elems := d.rowBytes * 8 / d.ctlS.width
  let row := if k ≤ 1 then (elems * d.ctlD.width + 7) / 8 else im.gathered d
  let local_ := !d.dstGlobal || decide (d.dst / 2 ^ 48 = gdn)
  let sp := d.destSpan row
  let tiles := (List.range d.rows).flatMap (fun (i : Nat) =>
    let a := (((d.dst % 2 ^ 48 : Nat) : Int) + (i : Int) * d.dstStride).toNat
    touchedTiles a row)
  let scaled := if d.ctlS.mode ≠ 0 then d.ctlS else d.ctlD
  (Finding.just (decide (k ≤ 6) && decide (d.kindTop = 0) && decide (d.reserved = 0) && d.ctlS.ok false && d.ctlD.ok false &&
    decide (d.ctlS.mode = 0 ∨ d.ctlD.mode = 0) && (decide (k = 4) || decide (d.atomic = 0)) &&
    (decide (k = 6) || decide (1 ≤ d.rowBytes)) && decide (d.rowBytes ≤ 2 ^ 31) && decide (1 ≤ d.rows) && decide (d.rows ≤ 2 ^ 24) &&
    (decide (k = 1) || decide (d.rows = 1)) && (d.srcGlobal || decide (d.src < 2 ^ 48)) && (d.dstGlobal || decide (d.dst < 2 ^ 48)) &&
    (decide (k ≠ 2 ∧ k ≠ 3) || (decide (d.rowBytes % 64 = 0) && decide (d.rowBytes ≤ 16384))) &&
    (d.srcGlobal || decide (k = 3) || decide (rangeOf d.src ≠ .internal) || (decide (d.src % 4 = 0) && decide (d.rowBytes % 4 = 0))) &&
    (decide (k ≠ 4) || (decide (op ≤ 0xA) && decide (d.atomic < 64) && (decide (op ≠ 8) || r.mayVary))) &&
    (decide (k ≠ 6) || collectiveOk r d d.ext) && (!r.mayVary || (decide (k = 4) && decide (8 ≤ op)) || decide (k = 6)) &&
    ovfOk r [d.ctlD] && (!needsTensor r d.ctlD.mode || local_) && im.declared r d.ctlD [sp])).and
    ((statRule (converts && narrowing d.ctlS d.ctlD) d.statBase tiles).and
      (if k ≤ 1 then scaleRule scaled d.scaleAddr (scalesOf scaled d.rows elems) else Finding.just true))

end Sys2Proof.Machine
end

