-- ==== Sys2Proof/Machine/MarrowRules.lean ====
section
/-! DEFINITION. The admission rules on Marrow descriptors (R247, R252 to R272). -/
namespace Sys2Proof.Machine

/-- Ranges a Marrow op of list l may name (R247): job HBM, its own stack's scratch and, where it writes whole entries, queue
producer space. -/
def marrowReach (l : ListId) (queue : Bool) (a n : Nat) : Bool :=
  let last := a + (n - 1)
  let own := stackScratch (marrowStack l)
  (decide (a < hbmSize) && decide (last < hbmSize)) || (decide (own ≤ a) && decide (last < own + scratchSize)) ||
    (queue && decide (rangeOf a = .producer) && decide (rangeOf last = .producer))

/-- Bytes of descriptor an opcode takes (R251). -/
def marrowSize (opcode : Nat) : Nat :=
  match opcode with
  | 1 => 128
  | 2 => 192
  | 3 => 96
  | 4 => 96
  | _ => 32

def Opnd.marrowForm (d : Opnd) : Bool := decide (d.kind = 0 ∨ d.kind = 2) && decide (d.reserved = 0)

/-- Ends of the bytes of `n` elements as a start and a length, and the test that two streams share no byte: their ranges lie
apart, or both step by the same pitch and their elements lie in different parts of it (R254). -/
def Opnd.apart (d : Opnd) (n : Nat) (e : Opnd) (m : Nat) : Bool :=
  let x := d.bytes n
  let y := e.bytes m
  let pitch := d.stride.natAbs * d.ctl.width / 8
  let gap := (e.addr + pitch * (d.addr + 1) - d.addr) % pitch
  !overlaps x.1 (x.2 - x.1) y.1 (y.2 - y.1) ||
    (decide (1 < d.stride.natAbs) && decide (d.stride.natAbs = e.stride.natAbs) && decide (d.ctl.width = e.ctl.width) &&
      decide (d.ctl.width / 8 ≤ gap) && decide (gap + d.ctl.width / 8 ≤ pitch))

/-- A destination and a source of MSTREAM are apart, or coincide exactly with the same element width and stride (R254). -/
def destClear (d e : Opnd × Nat) : Bool :=
  (decide (d.1.addr = e.1.addr) && decide (d.1.ctl.width = e.1.ctl.width) && decide (d.1.stride = e.1.stride) && decide (d.2 = e.2)) ||
    d.1.apart d.2 e.1 e.2

/-- MSTREAM (R254, R255). -/
def StepImage.streamRule (im : StepImage) (l : ListId) (r : OpRecord) (t : List Byte) : Finding :=
  let op := ChainOp.ofStream t
  let c := op.chain
  let red := decide (c.reduceStage ≠ 0)
  let nd := if red then 1 else op.count
  let queue := decide (rangeOf op.d.addr = .producer)
  let (sources, dest) := op.operands op.count
  let apart := sources.all (fun e => decide (e.1.kind ≠ 2) || destClear dest e)
  let basic := Finding.just ([op.a, op.b, op.c, op.d].all Opnd.marrowForm && decide (op.reserved = 0) && decide (1 ≤ op.count) &&
    decide (op.d.kind = 2) && c.ok true false && apart && (!queue || decide (nd * op.d.ctl.width % 512 = 0)) && !r.mayVary &&
    (decide (op.statBase = 0) || marrowReach l false op.statBase 8))
  if c.derive then basic.and (Finding.just (im.deriveOp r op (fun _ => marrowReach l false)))
  else basic.and (im.chainOp r op (fun dest => marrowReach l dest))

/-- Byte ranges of the rows of an array. -/
def rowRanges (a ny rowStride nz planeStride row : Nat) : List (Nat × Nat) :=
  (List.range nz).flatMap (fun z => (List.range ny).map (fun y => (a + y * rowStride + z * planeStride, row)))

def rowsApart (xs ys : List (Nat × Nat)) : Bool := xs.all (fun x => ys.all (fun y => !overlaps x.1 x.2 y.1 y.2))

/-- A coefficient table's entries as signed offsets, and whether each has its form (R258). -/
def tableOf (t : List Byte) (n : Nat) : List (Int × Int × Int) :=
  (List.range n).map (fun i =>
    (signedOf 8 (fieldLE t (16 * i) 1), signedOf 8 (fieldLE t (16 * i + 1) 1), signedOf 8 (fieldLE t (16 * i + 2) 1)))

/-- The rules on a coefficient table: offsets in range and distinct, none in a dimension of one; reads inside the array where
the boundary mode is none, among them v(0, 0, 0) where a stage takes operand a; a window of at least one row (R258 to R261). -/
def StencilOp.tableOk (op : StencilOp) (t : List Byte) : Bool :=
  let offs := tableOf t op.terms
  let ry := maxAbs (offs.map (fun d => d.2.1))
  let rz := maxAbs (offs.map (fun d => d.2.2))
  let rowSize := op.nx * op.a.ctl.width / 8
  let window := 524288 / ((2 * rz + 1) * rowSize)
  let read := if op.chain.usesA then (0, 0, 0) :: offs else offs
  let inside (o e n : Nat) (d : Int) : Bool := decide (0 ≤ (o : Int) + d) && decide ((o : Int) + (e : Int) - 1 + d < (n : Int))
  (List.range op.terms).all (fun i => decide (fieldLE t (16 * i + 3) 5 = 0)) &&
    offs.all (fun d => decide (d.1.natAbs ≤ 4) && decide (d.2.1.natAbs ≤ 4) && decide (d.2.2.natAbs ≤ 4) &&
      (decide (op.nx ≠ 1) || decide (d.1 = 0)) && (decide (op.ny ≠ 1) || decide (d.2.1 = 0)) && (decide (op.nz ≠ 1) || decide (d.2.2 = 0))) &&
    offs.zipIdx.all (fun d => offs.zipIdx.all (fun e => decide (d.2 = e.2) || decide (d.1 ≠ e.1))) &&
    (decide (op.boundary ≠ 0) || read.all (fun d => inside op.ox op.ex op.nx d.1 && inside op.oy op.ey op.ny d.2.1 &&
      inside op.oz op.ez op.nz d.2.2)) &&
    decide (2 * ry < window)

/-- MSTENCIL (R254, R257 to R262). `inMem`: bytes lie in backed job HBM or scratch. -/
def StepImage.stencilRule (im : StepImage) (l : ListId) (r : OpRecord) (t : List Byte) (inMem : Nat → Nat → Bool) : Finding :=
  let op := StencilOp.of t
  let c := op.chain
  let aligned (d : Opnd) (row plane : Nat) : Bool :=
    decide (row ≠ 0) && decide (plane ≠ 0) && decide (row * 8 % d.ctl.width = 0) && decide (plane * 8 % d.ctl.width = 0)
  let outRow (d : Opnd) : Nat := (op.ex * d.ctl.width + 7) / 8
  let rowsIn := rowRanges op.a.addr op.ny op.inRow op.nz op.inPlane ((op.nx * op.a.ctl.width + 7) / 8)
  let rows (d : Opnd) := rowRanges d.addr op.ey op.outRow op.ez op.outPlane (outRow d)
  let whole (rs : List (Nat × Nat)) : Bool := rs.all (fun e => marrowReach l false e.1 e.2)
  let input (d : Opnd) : Bool := decide (d.kind = 0) ||
    (d.ctl.ok false && decide (d.ctl.mode = 0) && decide (8 ≤ d.ctl.width) && decide (d.stride = 1) && aligned d op.outRow op.outPlane &&
      whole (rows d) && rowsApart (rows op.d) (rows d))
  let used := [op.b, op.c].filter (fun d => decide (d.kind = 2))
  let narrowIn := (op.a :: used).filter (fun d => narrows d.ctl c.ctl)
  let narrowOut := narrows c.ctl op.d.ctl
  let tiles := (if narrows op.a.ctl c.ctl then rowsIn.flatMap (fun e => touchedTiles e.1 e.2) else [])
    ++ (used.filter (fun d => narrows d.ctl c.ctl)).flatMap (fun d => (rows d).flatMap (fun e => touchedTiles e.1 e.2))
    ++ (if narrowOut then (rows op.d).flatMap (fun e => touchedTiles e.1 e.2) else [])
  let scales := scalesOf op.d.ctl (op.ey * op.ez) op.ex
  let table := stackScratch (marrowStack l) + op.table
  let last := (op.nz - 1) * op.inPlane + (op.ny - 1) * op.inRow + (op.nx * op.a.ctl.width + 7) / 8
  let first := op.a.addr / 4096 * 4096
  (Finding.just ([op.a, op.b, op.c, op.d].all Opnd.marrowForm && decide (op.reserved = 0) && decide (op.a.kind = 2) && decide (op.d.kind = 2) &&
    decide (c.wfmt ≤ 1) && c.ok true false && !c.derive && decide (c.mul = 0) && decide (c.add ≤ 3) && decide (c.minmax < 5) &&
    decide (1 ≤ op.nx) && decide (1 ≤ op.ny) && decide (1 ≤ op.nz) && decide (1 ≤ op.ex) && decide (1 ≤ op.ey) && decide (1 ≤ op.ez) &&
    decide (1 ≤ op.terms) && decide (op.terms ≤ 125) && decide (op.table % 16 = 0) && decide (op.table + 16 * op.terms ≤ scratchSize) &&
    op.a.ctl.ok false && decide (op.a.ctl.mode = 0) && decide (8 ≤ op.a.ctl.width) && decide (op.a.stride = 1) && aligned op.a op.inRow op.inPlane &&
    whole rowsIn && input op.b && input op.c && op.d.ctl.ok false && decide (op.d.stride = 1) && aligned op.d op.outRow op.outPlane &&
    whole (rows op.d) && rowsApart (rows op.d) rowsIn && inMem first ((op.a.addr + last + 4095) / 4096 * 4096 - first) &&
    (decide (op.d.ctl.mode = 0) || marrowReach l false op.d.scaleAddr scales) &&
    (decide (op.statBase = 0) || marrowReach l false op.statBase 8) && ovfOk r [c.ctl, op.d.ctl] && !r.mayVary &&
    im.declared r op.d.ctl ((rows op.d).map (fun e => (e.1, e.1 + e.2))) &&
    (match im.loaded table (16 * op.terms) with
      | some b => op.tableOk b
      | none => true))).and
    ((statRule (!narrowIn.isEmpty || narrowOut) op.statBase tiles).and (scaleRule op.d.ctl op.d.scaleAddr scales))

/-- MREDUCE (R254, R265 to R267). -/
def StepImage.reduceRule (im : StepImage) (l : ListId) (r : OpRecord) (t : List Byte) : Finding :=
  let op := ReduceOp.of t
  let sums := decide (op.fn ≤ 2)
  let bytesOf (d : Opnd) : Nat × Nat :=
    if op.mode = 4 then (op.a.addr, op.a.addr + 32 * op.count) else d.bytes op.count
  let size := match op.mode with
    | 2 => 2
    | 3 => 32
    | _ => (op.d.ctl.width + 7) / 8
  let dot := decide (op.fn = 1) && decide (op.mode ≠ 4)
  let imports := decide (op.mode = 1 ∨ op.mode = 3)
  let source (d : Opnd) : Bool :=
    d.ctl.ok false && (decide (d.stride = 1) || (decide (d.ctl.mode = 0) && decide (8 ≤ d.ctl.width))) && d.positive op.count &&
      marrowReach l false (bytesOf d).1 ((bytesOf d).2 - (bytesOf d).1) &&
      (decide (d.ctl.mode = 0) || marrowReach l false d.scaleAddr (scalesOf d.ctl 1 op.count)) &&
      !overlaps op.d.addr size (bytesOf d).1 ((bytesOf d).2 - (bytesOf d).1)
  (Finding.just (decide (op.fn ≤ 5) && decide (op.mode ≤ 4) && (sums || decide (op.mode = 0)) && decide (op.reserved = 0) &&
    decide (1 ≤ op.count) && decide (op.count ≤ if op.mode = 4 then 4096 else 2 ^ 40) && [op.a, op.b, op.d].all Opnd.marrowForm &&
    decide (op.a.kind = 2) && decide (op.d.kind = 2) && decide ((op.b.kind = 2) = (dot = true)) && source op.a && (!dot || source op.b) &&
    op.d.ctl.ok false && decide (op.d.ctl.mode = 0) && (!sums || decide (op.mode = 2 ∨ op.mode = 3) || decide (op.d.ctl.fmt ≤ 1)) &&
    marrowReach l false op.d.addr size && (!imports || (marrowReach l false op.anchor 2 && !overlaps op.d.addr size op.anchor 2)) && ovfOk r [op.d.ctl] &&
    !r.mayVary && im.declared r op.d.ctl [(op.d.addr, op.d.addr + size)])).and
    ((scaleRule op.a.ctl op.a.scaleAddr (scalesOf op.a.ctl 1 op.count)).and
      (if dot then scaleRule op.b.ctl op.b.scaleAddr (scalesOf op.b.ctl 1 op.count) else Finding.just true))

/-- MINDEX (R252, R254, R269 to R271). -/
def StepImage.indexRule (im : StepImage) (l : ListId) (r : OpRecord) (t : List Byte) : Finding :=
  let op := IndexOp.of t
  let at_ := atomicOp op.atomic
  let n := op.count * op.perRecord
  let dense := op.dense.bytes n
  let indexed : Nat × Nat := (op.base, op.limit * op.esize)
  let index : Nat × Nat := (op.index, op.count * (if op.wide then 8 else 4))
  let meets (a b : Nat × Nat) : Bool := overlaps a.1 a.2 b.1 b.2
  let dn : Nat × Nat := (dense.1, dense.2 - dense.1)
  let ranks : Nat × Nat := (op.rank, 4 * op.count)
  let apart := if op.kind = 0 then !meets dn indexed && !meets dn index
    else !meets indexed dn && !meets indexed index && (decide (op.rank = 0) || !meets indexed ranks)
  let ranked := decide (op.kind = 2) && decide (at_ = 8) && im.repro
  let narrow := if op.kind = 0 then narrows op.ctl op.dense.ctl else narrows op.dense.ctl op.ctl
  let tiles := if op.kind = 0 then tilesIn dense else touchedTiles indexed.1 indexed.2
  let dst : Ctl := if op.kind = 0 then op.dense.ctl else op.ctl
  let out : Nat × Nat := if op.kind = 0 then dense else (op.base, op.base + op.limit * op.esize)
  (Finding.just (decide (op.kind ≤ 2) && decide (op.reserved = 0) && op.ctl.ok false && decide (op.ctl.mode = 0) && op.dense.marrowForm &&
    decide (op.dense.kind = 2) && decide (op.dense.stride = 1) && op.dense.ctl.ok false && decide (1 ≤ op.count) && decide (op.count < 2 ^ 32) &&
    decide (op.esize * 8 % op.ctl.width = 0) && (if op.kind = 2 then decide (at_ ≤ 0xA) && decide (at_ ≠ 7) && decide (op.atomic < 32) &&
      decide (op.esize ≤ 8) else decide (op.atomic = 0)) &&
    (decide (op.kind ≠ 2 ∨ at_ ≠ 8) || r.mayVary) && (!r.mayVary || (decide (op.kind = 2) && decide (8 ≤ at_))) &&
    decide ((op.rank ≠ 0) = (ranked = true)) && (!ranked || marrowReach l false op.rank (4 * op.count)) &&
    marrowReach l false index.1 index.2 && marrowReach l false op.base op.esize && marrowReach l false dn.1 dn.2 &&
    (decide (op.dense.ctl.mode = 0) || marrowReach l false op.dense.scaleAddr (scalesOf op.dense.ctl 1 n)) &&
    (decide (op.statBase = 0) || marrowReach l false op.statBase 8) && apart && ovfOk r [dst] && im.declared r dst [out])).and
    ((statRule narrow op.statBase tiles).and (scaleRule op.dense.ctl op.dense.scaleAddr (scalesOf op.dense.ctl 1 n)))

/-- The declaration that R187 asks of an op whose destination names no format: it exists and holds the destination. -/
def StepImage.declaredPlace (im : StepImage) (r : OpRecord) (e : Nat × Nat) : Bool :=
  !needsTensor r 0 || (decide (r.tensorId ≠ 0) && im.tensors.any (fun t => decide (t.id = r.tensorId) && t.holds e.1 e.2))

/-- MTILE (R187, R254, R272). -/
def StepImage.tileRule (im : StepImage) (l : ListId) (r : OpRecord) (t : List Byte) : Finding :=
  let op := TileOp.of t
  let n := op.count * 4096
  let dst := if op.kind = 1 then 16 else n
  let out : Nat := if op.kind = 1 ∨ op.kind = 3 then op.dst else op.first
  Finding.just (im.declaredPlace r (out, out + dst) && decide (op.kind ≤ 3) && decide (op.reserved = 0) && decide (1 ≤ op.count) && decide (op.count < 2 ^ 32) &&
    decide (op.first % 4096 = 0) && marrowReach l false op.first n &&
    (decide (op.kind ≠ 1 ∧ op.kind ≠ 3) || (decide (op.dst % 4096 = 0) && marrowReach l false op.dst dst && !overlaps op.first n op.dst dst)) &&
    !r.mayVary)

/-- The rules of a Marrow record's descriptor, by opcode. -/
def StepImage.marrowRule (im : StepImage) (l : ListId) (r : OpRecord) (t : List Byte) (inMem : Nat → Nat → Bool) : Finding :=
  match r.opcode with
  | 1 => im.streamRule l r t
  | 2 => im.stencilRule l r t inMem
  | 3 => im.reduceRule l r t
  | 4 => im.indexRule l r t
  | _ => im.tileRule l r t

end Sys2Proof.Machine
end

