-- ==== Sys2Proof/Machine/ImageRules.lean ====
section
/-! DEFINITION. What admission checks of a whole image (R184): its records (R155 to R170, R176, R182), its tables (R47, R279,
R280, R283, R327, R363) and the footprint (R55). -/
namespace Sys2Proof.Machine

-- records

/-- The rules every record keeps (R157, R159, R165, R166, R169, R171, R182). `valid p`: phase p is in use. -/
def recordForm (l : ListId) (r : OpRecord) (valid : Nat → Bool) (abort : Bool) : Bool :=
  let u := r.unit
  let oc := r.opcode
  let opcodes := match u with
    | 0 => decide (oc ≤ 9)
    | 1 => decide (1 ≤ oc ∧ oc ≤ 4)
    | 2 => decide (1 ≤ oc ∧ oc ≤ 4)
    | 3 => decide (oc = 1 ∨ oc = 2)
    | 4 => decide (oc = 1)
    | 5 => decide (1 ≤ oc ∧ oc ≤ 5)
    | _ => false
  (if l < 192 then decide (u ≤ 4) else decide (u = 0 ∨ u = 5)) && opcodes && valid r.phase && decide (r.reserved = 0) &&
    decide (r.ckPolicy ≠ 2) && decide (r.prio ≤ 1) && (decide (r.prio = 0) || decide (u = 4 ∨ u = 5)) && decide (r.rnd ≤ 5) &&
    (decide (r.rnd ≠ 5) || r.weightUpdate) && decide (r.waitKind ≠ 3) && (decide (r.waitKind ≠ 1) || decide (r.waitObj < 64)) &&
    decide (r.sigTgt < 192 ∨ r.sigTgt = 0xFF) && !(abort && r.sigEn && decide (48 ≤ r.sigCnt))

/-- The argument of a sequencer record: bits that are not listed are zero, controls are zero, and an abort-step image writes no
persistent count register (R155, R165, R167). -/
def seqArgOk (r : OpRecord) (abort : Bool) : Bool :=
  let z (hi lo : Nat) : Bool := decide (r.bits hi lo = 0)
  let dst := !(abort && decide (48 ≤ r.dst))
  decide (r.rnd = 0) && !r.flush && !r.ieeeOvf && !r.mayVary &&
    match r.opcode with
    | 2 => z 95 6 && dst
    | 3 => z 88 6 && dst
    | 4 => z 88 6 && dst
    | 5 => z 127 32 && z 25 20
    | 6 => z 127 4
    | _ => z 127 0

/-- The argument of an op record (R167, R168, R252). -/
def opArgOk (r : OpRecord) (abort : Bool) : Bool :=
  let z (hi lo : Nat) : Bool := decide (r.bits hi lo = 0)
  if r.unit = 3 ∧ r.opcode = 2 then z 86 6 && !r.mayVary && !(abort && decide (48 ≤ r.dst))
  else
    z 94 32 && z 24 23 && decide (r.desc % 32 = 0) && (!r.idxEn || decide (r.unit = 3 ∨ r.unit = 4)) &&
      (decide (r.unit ≠ 5) || (decide (r.idxCnt = 0) && !r.idxEn))

/-- The descriptor a record points to, where the image loads it, and the bytes it would take. -/
def StepImage.descOf (im : StepImage) (l : ListId) (r : OpRecord) : Nat × Option (List Byte) :=
  match r.unit with
  | 3 => (96, im.coreDesc l r.desc 96)
  | 4 =>
    match im.coreDesc l r.desc 64 with
    | some t =>
      if (XferOp.of t).kind = 6 then (128, im.coreDesc l r.desc 128) else (64, some t)
    | none => (64, none)
  | 5 => (marrowSize r.opcode, im.loaded (stackScratch (marrowStack l) + r.desc) (marrowSize r.opcode))
  | _ => (128, im.coreDesc l r.desc 128)

/-- What admission finds of a record by itself. Of a descriptor that the image does not load, which the step image writes as it
runs (R137), only the record can be judged. -/
def StepImage.finding (im : StepImage) (gdn : Nat) (l : ListId) (r : OpRecord) (valid : Nat → Bool) (inMem : Nat → Nat → Bool) : Finding :=
  let abort := im.abortStep
  let form := recordForm l r valid abort
  if r.unit = 0 then Finding.just (form && seqArgOk r abort)
  else if r.unit = 3 ∧ r.opcode = 2 then Finding.just (form && opArgOk r abort)
  else
    let (size, desc) := im.descOf l r
    let room := decide (r.desc + size ≤ if r.unit = 5 then scratchSize else storeSize)
    let base := Finding.just (form && opArgOk r abort && room)
    match desc with
    | none => base.and (Finding.just ((!needsTensor r 0 || im.tensors.any (fun t => decide (t.id = r.tensorId))) &&
        (!r.mayVary || decide (r.unit = 4) || decide (r.unit = 5 ∧ r.opcode = 4))))
    | some t =>
      match r.unit with
      | 3 => base.and ((im.vopRule l r t).and (Finding.just (!r.mayVary)))
      | 4 => base.and (im.xferRule gdn r t)
      | 5 => base.and (im.marrowRule l r t inMem)
      | _ => base.and ((im.matrixRule l r t).and (Finding.just (!r.mayVary)))

/-- Rules that tie a record to its list: END_STEP last, LOOP targets, phases after their PHASE_DONE, loops across one, and
completion slots (R159, R176, R182, R183). -/
def listRules (rs : List OpRecord) (slots : Nat) (i : Nat) (r : OpRecord) : Bool :=
  let before := rs.take i
  let isLoop := decide (r.unit = 0 ∧ r.opcode = 5)
  (decide (i + 1 ≠ rs.length) || decide (r.unit = 0 ∧ r.opcode = 9)) && (!isLoop || decide (r.loopTarget < rs.length)) &&
    !before.any (fun p => decide (p.unit = 0 ∧ p.opcode = 8 ∧ p.phase = r.phase)) &&
    !(isLoop && (before.drop r.loopTarget).any (fun p => decide (p.unit = 0 ∧ p.opcode = 8))) &&
    (decide (r.unit = 0) || (decide (r.crIndex < slots) && !before.any (fun p => decide (p.unit ≠ 0) && decide (p.crIndex = r.crIndex))))

-- tables

/-- The 64-bit entries of the tick phase table (R47). -/
def StepImage.phases (im : StepImage) : List Nat := (im.entries 5 0 8).map ofLE
def phaseStart (e : Nat) : Nat := bitsOf e 26 0
def phaseDeadlineOf (e : Nat) : Nat := bitsOf e 58 32

/-- The phase table's rules (R47). -/
def phaseOk (p e : Nat) : Bool :=
  decide (bitsOf e 62 59 = 0) && decide (bitsOf e 31 27 = 0) && (decide (p ≠ 0) || (bitOf e 63 && decide (phaseStart e = 0))) &&
    (!bitOf e 63 || (decide (phaseStart e < phaseDeadlineOf e) && decide (phaseDeadlineOf e ≤ 99999999)))

/-- An agent word (R279). -/
def agentOk (w : Nat) (producer : Bool) (q : Nat) : Bool :=
  let kind := bitsOf w 31 30
  let marrow := bitOf w 29
  let n := bitsOf w 28 21
  decide (bitsOf w 20 16 = 0) && (decide (kind = 1) || decide (bitsOf w 15 0 = 0)) &&
    match kind with
    | 0 => decide (n < 192) && (!marrow || producer)
    | 1 => decide (n < 192) && !marrow
    | 2 => !marrow && decide (n = 0) && producer && decide (q < 262144)
    | _ => !marrow && decide (n = 0)

/-- A definition entry's rules (R278 to R280). `single`: the stack on which a segment lies alone, plus 1. -/
def imageQueueOk (b : List Byte) (single : Tab Nat) : Bool :=
  let f (off n : Nat) := fieldLE b off n
  let q := f 0 4
  let home := f 4 1 % 16
  let size := 64 * 2 ^ f 5 1
  let pc := Ctl.of16 (f 0x18 2)
  let lc := Ctl.of16 (f 0x1A 2)
  let framer := decide (f 0x10 4 >>> 30 = 3) || decide (f 0x14 4 >>> 30 = 3)
  let host := decide (f 0x10 4 >>> 30 = 2) || decide (f 0x14 4 >>> 30 = 2)
  let converts := !pc.same lc
  decide (q < 2 ^ 20) && decide (f 4 1 < 32) && decide (home ≤ 11) && decide (8 ≤ f 5 1) && decide (f 5 1 ≤ 24) && decide (f 6 2 ≤ 256) &&
    decide (f 8 8 < hbmSize) && decide (f 8 8 % 4096 = 0) && decide (f 0x1D 3 = 0) && decide (f 0x20 8 < 2 ^ 48) && decide (f 0x28 8 = 0) &&
    decide (f 0x1C 1 < 32) && decide (f 0x18 2 % 2 = 0) && decide (f 0x1A 2 % 2 = 0) && pc.ok false && lc.ok false && decide (lc.mode = 0) &&
    agentOk (f 0x10 4) true q && agentOk (f 0x14 4) false q && (!framer || decide (f 6 2 = 0)) && decide (f 0x1C 1 % 8 ≤ 4) &&
    (List.range ((f 8 8 + size - 1) / segSize - f 8 8 / segSize + 1)).all (fun i => Tab.get 0 single (f 8 8 / segSize + i) = home + 1) &&
    (!converts || (!framer && !host && (!bitOf (f 0x1C 1) 4 || decide (lc.fmt ≤ 1)) && (!narrowing pc lc || decide (f 0x20 8 ≠ 0))))

/-- The table's rules (R69, R72, R327). -/
def PeerTable.ok (t : PeerTable) (head : List Byte) (gdn : Nat) (qs : List (Nat × QDef)) : Bool :=
  let wait := fieldLE head 8 4
  let distinct (l : List Nat) : Bool := l.zipIdx.all (fun a => l.zipIdx.all (fun b => decide (a.2 = b.2) || decide (a.1 ≠ b.1)))
  decide (1 ≤ t.peers.length) && decide (t.peers.length ≤ 65536) && decide (t.groups.length ≤ 1024) && decide (t.streams.length ≤ 4096) &&
    (decide (wait = 0) || (decide (10 ≤ wait) && decide (wait ≤ 100000))) && decide (fieldLE head 0xC 20 = 0) &&
    t.peers.all (fun p => decide (p < 2 ^ 18)) && distinct (t.peers.map (fun p => p % 65536)) && t.peers.any (fun p => p % 65536 = gdn) &&
    t.groups.all (fun g => decide (g.1 < 1024) && decide (g.2.1 = 0) && g.2.2.1.all (fun m => decide (m < t.peers.length)) &&
      distinct g.2.2.1 && decide (g.2.2.2 = 0)) && distinct (t.groups.map (fun g => g.1)) &&
    t.streams.all (fun b => (streamBad b).isNone && decide (fieldLE b 8 8 = 0) &&
      qs.any (fun d => decide (d.1 = fieldLE b 4 4) && (if fieldLE b 2 1 = 1 then d.2.measurement else d.2.actuation))) &&
    distinct (t.streams.map (fun b => fieldLE b 0 2))

/-- Pieces of the coordinate table (R362). -/
def StepImage.pieces (im : StepImage) : List Piece := (im.entries 6 32 160).map Piece.of

/-- A piece's rules (R362, R363). -/
def pieceOk (p : Piece) (inMem : Nat → Nat → Bool) : Bool :=
  let dims := p.dims
  let offs := (List.range 8).map (fun d => ((p.extent d : Int) - 1) * p.stride d)
  let low := offs.foldl (fun a o => a + min o 0) (0 : Int)
  let high := offs.foldl (fun a o => a + max o 0) (0 : Int)
  decide (p.id ≠ 0) && decide (p.kind ≤ 1) && decide (1 ≤ dims) && decide (dims ≤ 8) && decide (p.fmtByte < 128) &&
    (List.range 8).all (fun d => decide (d < dims) || (decide (p.start d = 0) && decide (p.extent d = 1) && decide (p.stride d = 0))) &&
    decide (fieldLE p.raw 0x8E 2 = 0) && decide (p.base % 65536 = 0) && decide (p.span % 65536 = 0) && decide (fieldLE p.raw 0x98 8 = 0) &&
    inMem p.base p.span &&
    (if p.opaque_ then decide (dims = 1)
     else decide (p.stride 0 = (p.elem : Int)) && decide (0 ≤ low) && decide (high + (p.elem : Int) ≤ (p.span : Int)))

-- the image as a whole

/-- A rule of the image and the section and entry that break it. -/
def ruleAt (ok : Bool) (sec entry : Nat) : Bool × Fail := (ok, Status.imageRule, imageDetail sec entry)

/-- Records of every list with their sections and indices. -/
def StepImage.records (im : StepImage) : List (Sect × Nat × OpRecord) :=
  im.lists.flatMap (fun x => x.records.zipIdx.map (fun r => (x, r.2, r.1)))

def StepImage.validPhase (im : StepImage) (p : Nat) : Bool := bitOf (im.phases.getD p 0) 63

/-- Step 4 on what the records name (R183). -/
def StepImage.namedRules (im : StepImage) (gdn : Nat) (inMem : Nat → Nat → Bool) : Option Fail :=
  firstFail (im.records.map (fun e =>
    let f := im.finding gdn e.1.list e.2.2 im.validPhase inMem
    (f.stats.all (fun a => decide (a.1 = 0) || im.inRegion 0 a.1 a.2) && f.scales.all (fun a => im.inRegion 1 a.1 a.2),
      (Status.imageLayout, imageDetail e.1.num e.2.1))))

/-- Step 5: the footprint, every record in its list, and the tables, in section order. -/
def StepImage.ruleChecks (im : StepImage) (gdn : Nat) (inMem inHbm : Nat → Nat → Bool) (granules : Piece → List Nat) : Option Fail :=
  let section_ (x : Sect) : List (Bool × Fail) :=
    match x.type with
    | 4 =>
      (im.qEntries.map (fun e => ruleAt (imageQueueOk e.2 im.segStack &&
        im.qEntries.all (fun d => decide (e.1 ≤ d.1) || decide (fieldLE d.2 0 4 ≠ fieldLE e.2 0 4))) x.num e.1))
        ++ (List.range 12).map (fun t =>
          let here := im.qEntries.filter (fun e => decide (fieldLE e.2 4 1 % 16 = t))
          ruleAt (decide ((im.qHead t).1 % 4096 = 0) && decide ((im.qHead t).1 < 2 ^ 48) && decide (fieldLE x.body (16 * t + 12) 4 = 0) &&
            decide ((im.qHead t).2 = here.length) &&
            decide (2 * (here.filter (fun e => bitOf (fieldLE e.2 4 1) 4)).length ≤ slotCap t)) x.num t)
    | 5 => im.phases.zipIdx.map (fun e => ruleAt (phaseOk e.2 e.1) x.num e.2)
    | 6 =>
      let ps := im.pieces.zipIdx
      ruleAt (decide (fieldLE x.body 0 4 ≤ 65536) && decide (fieldLE x.body 4 1 ≤ 1) && decide (fieldLE x.body 5 27 = 0)) x.num 0 ::
        ps.map (fun e => ruleAt (pieceOk e.1 inHbm && ps.all (fun d => decide (e.2 ≤ d.2) ||
          (granules e.1).all (fun g => !(granules d.1).contains g))) x.num e.2)
    | 9 =>
      [ruleAt (match peerTableOf x.body with
        | some t => t.ok (x.body.take 32) gdn im.qdefs
        | none => false) x.num 0]
    | _ =>
      if x.type = 1 ∨ x.type = 2 then
        x.records.zipIdx.map (fun r =>
          ruleAt ((im.finding gdn x.list r.1 im.validPhase inMem).ok &&
            listRules x.records ((Tab.get (0, 0) im.arrays x.list).1) r.2 r.1) x.num r.2)
      else []
  firstFail (ruleAt (!im.abortStep || decide (im.footprint ≤ im.undo)) 0xFFFF 0 :: im.sects.flatMap section_)

end Sys2Proof.Machine
end

