-- ==== Sys2Proof/Machine/Admit.lean ====
section
/-! DEFINITION. Job admission (R184, R213, R446, R447): the checks in order, loading, and JOB_ADMIT and JOB_STATUS. -/
namespace Sys2Proof.Machine

/-- Registers that admission clears, and a job reset (R180, R195, R196, R240, R297, R332, R333, R360, R383, R423, R433, R478):
sequencer pages with the count registers, queue engine pages, and the counters of the job. -/
def Reg.ofJob (k : Nat) : Bool :=
  decide ((0x100000 ≤ k ∧ k < 0x1C0000) ∨ (0x200000 ≤ k ∧ k < 0x2C0000) ∨ (0x60000 ≤ k ∧ k < 0x6C000)
    ∨ (0x7F008 ≤ k ∧ k < 0x7F038) ∨ (0x7F100 ≤ k ∧ k < 0x7F160)
    ∨ (0x70000 ≤ k ∧ k < 0x73000 ∧ 8 ≤ k % 0x100 ∧ k % 0x100 < 0x30)
    ∨ (0x40000 ≤ k ∧ k < 0x4C000 ∧ k % 0x1000 = 0x1C)
    ∨ (0x80080 ≤ k ∧ k < 0x80098) ∨ (0x90030 ≤ k ∧ k < 0x90040)
    ∨ k = Reg.faultAbsorbed ∨ k = Reg.stepIndex ∨ k = Reg.numVary)

/-- The fields that admission clears in registers that keep others. -/
def Fld.ofJob : List Fld :=
  Fld.varSeen :: Fld.testCycles :: ((List.range 192).map Fld.coreMoves ++ (List.range 192).map Fld.mrwMoves)

def State.clearJobRegs (s : State) : State :=
  Fld.ofJob.foldl (fun s f => s.setFld f 0) { s with regs := s.regs.filter (fun e => !Reg.ofJob e.1) }

/-- HBM_SEG_MAP for the backed segments (R240). -/
def State.setBacking (s : State) (backed : List Nat) : State :=
  (List.range 12).foldl (fun s j =>
    s.setReg (Reg.segMap j) (BitVec.ofNat 64 ((List.range 32).foldl (fun v i => if j * 32 + i ∈ backed then setBit v i else v) 0))) s

/-- A fresh nonce (R453): drawn at every reset, every admission and every successful unlock. -/
def State.drawNonce (s : State) : State :=
  let (v, s1) := s.fresh
  (List.range 8).foldl (fun s i => s.setReg (Reg.nonce i) (BitVec.ofNat 64 (v.toNat >>> (i * 32) % 2 ^ 32))) s1

/-- What the fabric keeps when a job goes or comes: routes, announcements and ports. -/
def Fabric.kept (f : Fabric) : Fabric :=
  { Fabric.zero with routes := f.routes, announced := f.announced, ports := f.ports, spareUsed := f.spareUsed }

-- the checks (R184)

/-- Step 2: the signature block follows the image; a signed image is required where the policy or a key set says so (R446). -/
def State.signatureNeeded (s : State) : Bool := decide (s.fld Fld.policy ≠ 0) || s.sec.ownerKeys.isSome
def State.signatureOk (s : State) (img blk : List Byte) : Bool :=
  !s.signatureNeeded || s.sec.ownerKeys.any (fun ks => verifyBlock 2 ks img blk)

/-- Steps 4 and 5: sections, regions and placement, then every rule. `staged`: the staged bytes. -/
def StepImage.placed (im : StepImage) (s : State) (staged : Nat × Nat) (backed : List Nat) : Option Fail :=
  let inHbm (a n : Nat) : Bool := inBacked backed a n
  let inMem (a n : Nat) : Bool := inHbm a n ||
    (decide (rangeOf a = .scratch) && decide (a + n ≤ scratchBase + 12 * scratchSize))
  let s1 := { s with memory := { s.memory with segStack := im.segStack } }
  ((im.spanRules backed staged).or (im.extentRules)).or (((im.namedRules s.gdn inMem).or (im.fitRules backed staged)).or
    (im.ruleChecks s.gdn inMem inHbm (fun p => (s1.pieceGranules [p]).map (fun e => e.1))))

/-- The first check of R184 that fails; where none does, the image with every body placed and the segments it backs. -/
def State.admission (s : State) (img blk : List Byte) (staged : Nat × Nat) : Fail ⊕ (StepImage × List Nat) :=
  match imageForm img with
  | some f => .inl f
  | none =>
    if !s.signatureOk img blk then .inl (Status.imageSignature, imageDetail 0xFFFF 0)
    else if fieldLE img 8 4 ≠ 4 then .inl (Status.imageGeneration, imageDetail 0xFFFF 0)
    else
      let im := StepImage.of img
      match (im.counts).or im.regionRules with
      | some f => .inl f
      | none =>
        match backedBy (fun t => s.fld (Fld.capNext t) * 16) im.charge im.segStack with
        | none => .inl (Status.imageLayout, imageDetail (im.numOf 7) 0)
        | some backed =>
          match im.placed s staged backed with
          | some f => .inl f
          | none => .inr ((im.fit backed staged).getD im, backed)

-- loading (R164, R183, R184, R213, R249)

/-- Bytes zeroed; tiles that the fill covers whole are sealed (R183). -/
def State.zeroFill (s : State) (a n : Nat) : State :=
  let s1 := { s with
    mem := s.mem.filter (fun c => !(decide (a ≤ c.1) && decide (c.1 < a + n)))
    tags := s.tags.filter (fun t => !overlaps (t.1 * 4096) 4096 a n) }
  (wholeTiles a n).foldl (fun s t => s.setTag t (tagOf (List.replicate 4096 0) true none)) s1

/-- Bytes loaded by firmware; `seals`: the tiles they cover whole are sealed. -/
def State.load (s : State) (a : Nat) (bs : List Byte) (seals : Bool) : State :=
  let s1 := s.write .firmware a bs
  if seals then (wholeTiles a bs.length).foldl (fun s t => s.setTag t (tagOf (s.rd (t * 4096) 4096) true none)) s1 else s1

/-- One section loaded at its place, which firmware has chosen where the image gave none (R181, R182, R214). -/
def State.loadSect (s : State) (x : Sect) : State :=
  match x.type with
  | 3 => s.load (coreStore x.target) x.body true
  | 8 => s.load x.addr x.body (decide (rangeOf x.addr = .scratch))
  | _ =>
    let s1 := s.load x.addr x.body false
    if x.type = 1 ∨ x.type = 2 then { s1 with cores := { s1.cores with lists := Tab.put x.list x.records s1.cores.lists } } else s1

/-- Placement (R211 to R213): what lay in a segment that becomes single-stack or unbacked is discarded. -/
def State.placeImage (s : State) (im : StepImage) (backed : List Nat) : State :=
  let keeps (a : Nat) : Bool :=
    decide (hbmSize ≤ a) || (decide (segOf a ∈ backed) && decide (Tab.get 0 im.segStack (segOf a) = 0))
  let s1 := { s with
    mem := s.mem.filter (fun c => keeps c.1)
    tags := s.tags.filter (fun t => keeps (t.1 * 4096))
    memory := { s.memory with
      segStack := im.segStack
      guards := im.guardList
      bad := s.memory.bad.filter (fun l => keeps (l.1 * 64)) } }
  ((List.range 12).foldl (fun s t => s.setFld (Fld.capNow t) (s.fld (Fld.capNext t))) s1).setBacking backed

/-- Queues at admission: every position zero, pinned queues in their slots (R281, R283). -/
def State.startQueues (s : State) (im : StepImage) : State :=
  let s1 : State := { s with qdefs := im.qdefs.foldl (fun t (e : Nat × QDef) => Tab.put e.1 e.2 t) [], queues := [], slots := [] }
  let s2 : State := s1.qdefs.foldl (fun s (e : Nat × QDef) =>
    if e.2.pin then (s.setQueue e.1 { Queue.empty with resident := true }).touch e.1 else s) s1
  (List.range 12).foldl (fun s t => s.refreshEngine t) s2

/-- The peer and plant stream table loaded (R327). -/
def State.startPeers (s : State) (im : StepImage) : State :=
  match im.peerTable with
  | none => { s with streams := [] }
  | some t =>
    { s with
      streams := t.streams.foldl (fun m b => Tab.put (fieldLE b 0 2) (Stream.of b) m) []
      fabric := { s.fabric with
        peers := (t.peers.map (fun w => (⟨w % 65536, bitOf w 16, bitOf w 17⟩ : Peer))).zipIdx.map (fun e => (e.2, e.1))
        groups := t.groups.foldl (fun m g => Tab.set [] g.1 g.2.2.1 m) []
        waitDeadline := ((im.one 9).map (fun x => fieldLE x.body 8 4)).getD 0 } }

/-- What the device keeps of the image. -/
def StepImage.job (im : StepImage) (signed : Bool) (owner : List Byte) : Job where
  digest := im.digest
  abortStep := im.abortStep
  signed := signed
  undoPerStack := im.undo
  cbwPerStack := stackShare (im.cbwMib * 1048576)
  tickLogBase := ((im.kind 2).head?.map (fun e => fieldLE e.2 8 8)).getD 0
  tickLogN := ((im.kind 2).head?.map (fun e => fieldLE e.2 2 1)).getD 0
  arrays := im.arrays
  tensors := im.tensors
  pieces := im.pieces
  restorable := (im.one 6).isSome
  owner := owner

/-- The regions that are zeroed before the first step (R183). -/
def StepImage.zeroed (im : StepImage) : List (Nat × Nat) :=
  im.arrays.map (fun a => (a.2.2, 64 * a.2.1)) ++ (im.kind 2).map (fun e => (fieldLE e.2 8 8, 64 * 2 ^ fieldLE e.2 2 1))
    ++ ((im.kind 3).filter (fun e => fieldLE e.2 3 1 = 1)).map (fun e => (fieldLE e.2 8 8, fieldLE e.2 0x10 8))

/-- An image that passed every check loaded: the job is admitted and every sequencer is in its end-of-step wait, whose
cycles count from now on (R180, R184). -/
def State.loadJob (s : State) (im : StepImage) (backed : List Nat) : State :=
  let s1 := { (s.placeImage im backed).clearJobRegs with
    cores := Cores.zero, tick := TickSt.zero, changes := [], slow := [] }
  let s2 := { s1 with
    fabric := { s1.fabric.kept with launches := s1.fabric.launches, out := s1.fabric.out.filter (fun r => r.op = firmwareOp) }
    tags := s1.tags.filter (fun t => !decide (rangeOf (t.1 * 4096) = Range.store)) }
  let s3 := im.zeroed.foldl (fun s e => s.zeroFill e.1 e.2) (im.sects.foldl (fun s x => s.loadSect x) s2)
  let s4 := im.phases.zipIdx.foldl (fun s e => s.setReg (Reg.tckPhase e.2) (BitVec.ofNat 64 e.1)) s3
  let s5 := ((s4.setFld Fld.repro (if im.repro then 1 else 0)).setReg Reg.jobSeed (BitVec.ofNat 64 im.seed)).startQueues im
  let s6 := { s5.startPeers im with job := some (im.job s.signatureNeeded (s.sec.ownerKeys.getD [])) }
  ((s6.setFld Fld.imageSigned (if s.signatureNeeded then 1 else 0)).setDevState 3).drawNonce.markWaits

/-- DEV_STATE READY and SEC_STATUS UNBOUND: no job, none being admitted. -/
def State.unbind (s : State) : State := (s.setDevState 1).setFld Fld.sstate 1

/-- The end of a JOB_ADMIT whose image bytes are `img` with the block that follows them. -/
def State.finishAdmit (s : State) (l : Long) (img blk : List Byte) (staged : Nat × Nat) : State :=
  match s.admission img blk staged with
  | .inl f => s.unbind.endLong l f.1 f.2
  | .inr (im, backed) => (s.loadJob im backed).endLong l Status.success 0

/-- JOB_ADMIT carried out (R184): the image is read from job HBM or was read from storage. -/
def State.endAdmit (s : State) (l : Long) : State :=
  if fieldLE l.body 0 1 = 0 then
    let a := fieldLE l.body 8 8
    let n := fieldLE l.body 16 8
    s.finishAdmit l (s.rd a n) (s.rd (a + sigOffset n) sigSize) (a, n)
  else
    let n := fieldLE l.ext 0x10 8
    s.finishAdmit l (l.ext.take n) (slice l.ext (sigOffset n) sigSize) (0, 0)

/-- The device may admit: READY, no job, PS0, and not at D3 (R404, R426, R456). -/
def State.canAdmit (s : State) : Bool :=
  decide (s.fld Fld.state = 1) && s.job.isNone && s.ps0 && decide (s.fld Fld.sstate = 1)

/-- Admission begins: DEV_STATE admitting, SEC_STATUS BOUND (R392, R456). -/
def State.beginAdmit (s : State) : State := (s.setDevState 2).setFld Fld.sstate 2

/-- The staged bytes lie in backed job HBM. -/
def State.stagedOk (s : State) (a n : Nat) : Bool :=
  decide (a + n ≤ hbmSize) && (decide (n = 0) ||
    (List.range ((a + n - 1) / segSize - a / segSize + 1)).all (fun i => s.backed (a / segSize + i)))

/-- JOB_ADMIT (R184, R404): 1 byte source; staged: 8 bytes address at 0x08, 8 bytes length; storage: 4 bytes target at 0x04,
4 bytes namespace id at 0x08, 8 bytes byte offset at 0x10 (log entry 13). `ext`: the bytes on the storage target. -/
def execJobAdmit (k : Nat) (ext : List Byte) (s : State) : Result :=
  ifUnit (decide (k < 64)) (s.command k 0x0101 (fun _ => 24)
    (fun s m => if m.get 0 1 = 0 then
        firstBad [(nonZero m 1 7, 1), (!s.stagedOk (m.get 8 8) (m.get 16 8), 8)]
      else firstBad [(decide (1 < m.get 0 1), 0), (nonZero m 1 3, 1), (nonZero m 12 4, 12)]) (fun s m =>
    if !s.canAdmit then s.wrongState k m
    else if m.get 0 1 = 1 ∧ (Tab.find? s.host.targets (m.get 4 4)).isNone then s.reject k m Status.notFound (m.get 4 4)
    else s.startLongExt k m [] ext (fun s => s.beginAdmit)))

/-- JOB_STATUS (R404): DEV_STATE.state in 1 byte and 7 of padding, the image's SHA-384, DEV_STEP_INDEX, DEV_NUM_CTRL, FAB_LOST
(log entry 13). -/
def execJobStatus (k : Nat) (s : State) : Result :=
  ifUnit (decide (k < 64)) (s.plain k 0x0103 (fun s m =>
    s.done k m (toLE 8 (s.fld Fld.state) ++ padTo 48 (s.job.map (fun j => j.digest)).toList.flatten ++ s.reg64 Reg.stepIndex
      ++ s.reg32 Reg.numCtrl ++ s.reg32 Reg.fabLost)))

end Sys2Proof.Machine
end

