-- ==== Sys2Proof/Machine/JobReset.lean ====
section
/-! DEFINITION. Job reset (R423, R424): what it ends and clears, hard repairs (R232), and JOB_RESET. -/
namespace Sys2Proof.Machine

/-- Hard repairs of a maintenance window (R232): the marked rows are repaired for good and their table entries are free. -/
def State.hardRepair (s : State) : State :=
  let pending := s.memory.hardPending
  let s1 := { s with
    memory := { s.memory with remapped := s.memory.remapped.filter (fun r => !(r ∈ pending)), hardPending := [] }
    mram := { s.mram with hardPending := [] } }
  pending.foldl (fun s r => s.setFld (Fld.softPending r.1 r.2.1) 0) s1

/-- A port trained again with all its lanes (R307, R308): LINK_UP ends the training. What waited for it goes another way. -/
def State.trainPort (s : State) (p : Nat) : State :=
  let waiting := (s.port p).backlog
  ((((s.setFld (Fld.portState p) 1).setFld (Fld.portLanes p) 0).setPort p Port.zero).redirect waiting).announce p

/-- The port has lost lanes or is down, as it is where it reaches a peer it should not (R307 to R309). -/
def State.portHurt (s : State) (p : Nat) : Bool :=
  decide (s.fld (Fld.portState p) = 0 ∨ s.fld (Fld.portState p) = 4) || decide ((s.port p).lanesLost ≠ [])

/-- Traffic moves back from the spare ports, which stand by again (R300). -/
def State.standBy (s : State) : State :=
  [38, 39].foldl (fun s p =>
    if s.fld (Fld.portState p) = 2 ∨ s.fld (Fld.portState p) = 3 then (s.setFld (Fld.portState p) 5).announce p else s)
    { s with fabric := { s.fabric with spareUsed := [] } }

/-- The debug level (R452): one value in two registers; D2 ends with its token. -/
def State.setDebug (s : State) (level : Nat) : State :=
  let s1 := (s.setFld Fld.debug level).setFld Fld.secDebug level
  if level < 2 then s1.setReg Reg.d2Expiry 0 else s1

/-- Codes of the long commands that a job reset ends (R402). -/
def resetEnds (code : Nat) : Bool :=
  decide (code / 256 = 1) || decide (code / 256 = 2) || decide (code / 256 = 3) || decide (code / 256 = 4) || decide (code / 256 = 8)

/-- Running long commands of the ranges of R402 ended with ABANDONED; the checkpoint's end posts its error event (R376). -/
def State.abandonLongs (s : State) : State :=
  let s1 := ((s.failCheckpoint Status.abandoned 0 true).endExport Status.abandoned 0).dropRestore
  (s1.host.longs.filter (fun l => resetEnds l.code && decide (l.ended = none))).foldl
    (fun s l => s.endLong l Status.abandoned 0) s1

/-- Steps 1 to 3 of R423: the tick stops, sequencers stop, queues, peers, groups and plant streams are discarded. -/
def State.dropJob (s : State) : State :=
  let s1 := s.settleWaits.stopTickNow.abandonLongs
  let s2 := { s1 with
    job := none, cores := Cores.zero, tick := TickSt.zero, changes := [], slow := [], streams := []
    qdefs := [], queues := [], slots := []
    fabric := s1.fabric.kept
    ckpt := { s1.ckpt with grans := [], writing := none } }
  (List.range 384).foldl (fun s l => s.setFld (Fld.seqState l) 2) s2

/-- All HBM with its reserves, core stores, tag arrays and scratch zeroed; every segment interleaved and backed as far as the
capacities go (R213, R423). -/
def State.zeroMemory (s : State) : State :=
  let s1 := { s with
    mem := [], tags := []
    memory := { s.memory with guards := [], segStack := [], undo := [], undoFull := false, waits := [], bad := [], begun := [], spoiled := [], reading := [] } }
  s1.setBacking ((backedBy (fun t => s1.fld (Fld.capNow t) * 16) 0 []).getD [])

/-- Steps 4 and 5 of R423. -/
def State.scrubDevice (s : State) : State :=
  let s1 := s.zeroMemory.hardRepair
  ((List.range 48).foldl (fun s p => if s.portHurt p then s.trainPort p else s) s1.standBy).noteSpares

/-- Thermal protective stops end with the reset; other steps stay as they are (R239). -/
def State.endStops (s : State) : State :=
  (List.range 12).foldl (fun s t =>
    if s.fld (Fld.tstep t) = 3 then
      { s.setFld (Fld.tstep t) 0 with ownSlow := s.ownSlow.filter (fun o => !(o.cause = 0 && o.unit = t)) }
    else s) s

/-- A device in a protective stop returns to service only once every stack reads below 85 °C (R239). -/
def State.tooHot (s : State) : Bool :=
  (List.range 12).any (fun t => s.fld (Fld.tstep t) = 3) && (List.range 12).any (fun t => decide (85 ≤ s.fld (Fld.temp t)))

/-- A job reset begun: DEV_STATE resetting, but a device that needs service keeps saying so (R21, R392). -/
def State.beginReset (s : State) : State :=
  let s1 := s.dropJob.refreshPower
  if s1.fld Fld.state = 8 then s1 else s1.setDevState 7

/-- The rest of a job reset (R423): memory, repairs, ports, registers and the owner; D2 falls to D1 (R456) and the nonce is new
(R453). -/
def State.finishReset (s : State) : State :=
  let s1 := (s.scrubDevice.clearJobRegs.endStops).setReg Reg.winSel 0
  let s2 := (if s1.fld Fld.debug = 2 then s1.setDebug 1 else s1).setFld Fld.imageSigned 0
  let s3 := (if s2.fld Fld.sstate = 2 then s2.setFld Fld.sstate 1 else s2).setFld Fld.halted 0
  (if s3.fld Fld.state = 7 then s3.setDevState 1 else s3).drawNonce.refreshPower

/-- JOB_RESET (R402, R423): accepted at any time and exempt from the limit of 16. -/
def execJobReset (k : Nat) (s : State) : Result :=
  ifUnit (decide (k < 64)) (s.plain k 0x0102 (fun s m =>
    let s1 := (s.answer k m Status.accepted 0 []).beginReset
    s1.onHost (fun h => { h with longs := h.longs ++ [Long.of k m []] })))

end Sys2Proof.Machine
end

