-- ==== Sys2Proof/Machine/Device.lean ====
section
/-! DEFINITION. Commands of the 0x0000 range (R404, R417 to R419) and the NVMe/TCP connections. Result layouts that the spec
does not lay out follow the order in which it names the parts (log entry 13). -/
namespace Sys2Proof.Machine

-- identity

/-- The command codes that the firmware implements (R404). -/
def commandCodes : List Nat :=
  [0x001, 0x002, 0x003, 0x010, 0x011, 0x012, 0x101, 0x102, 0x103, 0x201, 0x202, 0x301, 0x302, 0x303, 0x304, 0x305, 0x310, 0x311,
    0x312, 0x401, 0x402, 0x403, 0x404, 0x405, 0x406, 0x407, 0x501, 0x502, 0x503, 0x504, 0x505, 0x506, 0x507, 0x508]
  ++ [0x601, 0x602, 0x603, 0x604, 0x605, 0x606, 0x701, 0x702, 0x703, 0x710, 0x711, 0x712, 0x720, 0x721, 0x730, 0x801, 0x802,
    0x803, 0x804, 0x805, 0x806, 0x807, 0x808, 0x809, 0x80A, 0x80B]

/-- DEV_CAPABILITIES (R404): firmware version, a 288-byte bitmap of the codes, and the table limits in 4 bytes each. -/
def execDevCapabilities (k : Nat) (s : State) : Result :=
  ifUnit (decide (k < 64)) (s.plain k 0x0001 (fun s m =>
    s.done k m (s.reg32 Reg.fwVersion ++ toLE 288 (commandCodes.foldl (fun v c => setBit v c) 0)
      ++ toLE 4 4096 ++ toLE 4 65536 ++ toLE 4 1024 ++ toLE 4 16)))

/-- DEV_IDENTIFY (R404): ordering code, serial number, DEV_IDENTITY, DEV_DIE_CORE_STATUS_d and MRW_DIE_STATUS_s. -/
def execDevIdentify (k : Nat) (s : State) : Result :=
  ifUnit (decide (k < 64)) (s.plain k 0x0002 (fun s m =>
    s.done k m (toLE 16 Config.orderingCode.toNat ++ toLE 16 Config.serial.toNat ++ s.reg32 Reg.identity
      ++ (List.range 4).flatMap (fun d => s.reg32 (Reg.dieCore d)) ++ (List.range 12).flatMap (fun t => s.reg32 (Reg.mrwDie t)))))

/-- DEV_STATUS (R404): the identity and status page, TCK_STATUS and CKP_STATUS. -/
def execDevStatus (k : Nat) (s : State) : Result :=
  ifUnit (decide (k < 64)) (s.plain k 0x0003 (fun s m =>
    s.done k m (s.regPage Reg.identity 0x28 ++ s.reg32 Reg.tckStatus ++ s.reg32 Reg.ckpStatus)))

-- network and storage settings

/-- Wrong fields of one port entry of NET_CONFIG at body offset `o` (R417). -/
def netEntryBad (m : Msg) (o : Nat) : List (Bool × Nat) :=
  [(decide (32 < m.get (o + 0xC) 1), o + 0xC), (decide (1 < m.get (o + 0xD) 1), o + 0xD),
    (decide (m.get (o + 0xE) 2 < 1500 ∨ 9216 < m.get (o + 0xE) 2), o + 0xE), (decide (128 < m.get (o + 0x20) 1), o + 0x20),
    (nonZero m (o + 0x21) 3, o + 0x21), (nonZero m (o + 0x3A) 6, o + 0x3A)]

/-- NET_CONFIG (R417). -/
def execNetConfig (k : Nat) (s : State) : Result :=
  ifUnit (decide (k < 64)) (s.command k 0x0010 (fun _ => 128) (fun _ m => firstBad (netEntryBad m 0 ++ netEntryBad m 64)) (fun s m =>
    if s.bound then s.wrongState k m
    else (s.onHost (fun h => { h with net := m.body })).done k m []))

/-- A storage target entry taken into use: a connection is begun on each of its ports (R418, R419). -/
def State.connectTarget (s : State) (i : Nat) (body : List Byte) : State :=
  let f := fieldLE body 1 1
  let t : Target := ⟨body, if bitOf f 0 then 1 else 0, if bitOf f 1 then 1 else 0, 0, 0, 0⟩
  let s1 := s.onHost (fun h => { h with targets := Tab.put i t h.targets })
  let s2 := if bitOf f 0 then s1.send (.connect i 0) else s1
  if bitOf f 1 then s2.send (.connect i 1) else s2

/-- STORAGE_TARGET_SET (R419). -/
def execStorageTargetSet (k : Nat) (s : State) : Result :=
  ifUnit (decide (k < 64)) (s.command k 0x0011 (fun _ => 320)
    (fun _ m => firstBad [(decide (15 < m.get 0 1), 0), (decide (15 < m.get 1 1), 1), (nonZero m 4 4, 4), (nonZero m 0x18 8, 0x18),
      (nonZero m (0x20 + 223) 33, 0x20 + 223), (nonZero m 0x120 32, 0x120)]) (fun s m =>
    if s.bound then s.wrongState k m
    else if bitOf (m.get 1 1) 3 then (s.onHost (fun h => { h with targets := Tab.del (m.get 0 1) h.targets })).done k m []
    else (s.connectTarget (m.get 0 1) m.body).done k m []))

/-- Bytes that the spec leaves open, drawn 32 at a time. -/
def State.freeBytes (s : State) : Nat → List Byte × State
  | 0 => ([], s)
  | n + 1 =>
    let (v, s1) := s.fresh
    let (bs, s2) := s1.freeBytes n
    (toLE 32 v.toNat ++ bs, s2)

/-- STORAGE_TARGET_STATUS (R419): 4 bytes target index. Result: connection state of each port, 2 bytes of padding, the last NVMe
status in 4 bytes, bytes read and written in 8 each, 16 namespace ids of 4 bytes with 8-byte sizes, which are the target's to
say, and the host NQN. -/
def execStorageTargetStatus (k : Nat) (s : State) : Result :=
  ifUnit (decide (k < 64)) (s.command k 0x0012 (fun _ => 4) (fun _ m => firstBad [(decide (15 < m.get 0 4), 0)]) (fun s m =>
    match Tab.find? s.host.targets (m.get 0 4) with
    | none => s.reject k m Status.notFound (m.get 0 4)
    | some t =>
      let (names, s1) := s.freeBytes 6
      s1.done k m (toLE 1 t.conn0 ++ toLE 1 t.conn1 ++ toLE 2 0 ++ toLE 4 t.lastStatus ++ toLE 8 t.read ++ toLE 8 t.written
        ++ names ++ padTo 256 Config.hostNqn)))

/-- STORAGE_CONNECTION_DONE (R419): connecting becomes connected or failed. -/
def execStorageConnectionDone (target p : Nat) (ok : Bool) (s : State) : Result :=
  ifUnit (decide (target < 16) && decide (p < 2)) (
    match Tab.find? s.host.targets target with
    | none => s
    | some t =>
      let v := if ok then 2 else 3
      if p = 0 ∧ t.conn0 = 1 then s.onHost (fun h => { h with targets := Tab.put target { t with conn0 := v } h.targets })
      else if p = 1 ∧ t.conn1 = 1 then s.onHost (fun h => { h with targets := Tab.put target { t with conn1 := v } h.targets })
      else s)

/-- NVME_KEEP_ALIVE (R418): to each connected target. -/
def execNvmeKeepAlive (s : State) : Result :=
  .next (s.host.targets.foldl (fun s e =>
    let s1 := if e.2.conn0 = 2 then s.send (.keepAlive e.1 0) else s
    if e.2.conn1 = 2 then s1.send (.keepAlive e.1 1) else s1) s)

end Sys2Proof.Machine
end

