-- ==== Sys2Proof/Machine/FabricCmd.lean ====
section
/-! DEFINITION. Fabric and peer commands (R334, R335, R503). Every change of the tables names an effective tick and is judged
after the changes already accepted for ticks up to it (R69). -/
namespace Sys2Proof.Machine

/-- FABRIC_SET_IDENTITY (R309, R335). -/
def execFabricSetIdentity (k : Nat) (s : State) : Result :=
  ifUnit (mbxOk k) (s.command k 0x0801 (fun _ => 4) (fun _ m => firstBad [(decide (2 ^ 13 ≤ m.get 0 4), 1)]) (fun s m =>
    if s.bound then s.wrongState k m
    else (((s.setFld Fld.pod (m.get 0 1)).setFld Fld.sled (m.get 1 1)).setFld Fld.idValid 1).done k m []))

/-- FABRIC_STATUS (R334): the device page, then FAB_PORT_STATUS_p of every port. -/
def execFabricStatus (k : Nat) (s : State) : Result :=
  ifUnit (mbxOk k) (s.plain k 0x0802 (fun s m =>
    s.done k m (s.regPage Reg.fabDevId 0x38 ++ (List.range 48).flatMap (fun p => s.reg32 (Reg.portStatus p)))))

-- peers

/-- Body length of a peer command: the head, and `count` entries of `size` bytes padded to 4. -/
def peerLength (limit size : Nat) (m : Msg) : Nat :=
  let n := m.get 0 4
  if m.len < 16 then 20
  else if 1 ≤ n ∧ n ≤ limit then 16 + (size * n + 3) / 4 * 4
  else m.len

/-- A peer entry (R327). -/
def Peer.ofWord (w : Nat) : Peer := ⟨w % 65536, bitOf w 16, bitOf w 17⟩

/-- Peer entries of a PEER_ADD with their body offsets. -/
def peerWords (m : Msg) : List (Nat × Nat) := (List.range (m.get 0 4)).map (fun i => (16 + 4 * i, m.get (16 + 4 * i) 4))

/-- PEER_ADD (R335, R503). -/
def execPeerAdd (k : Nat) (s : State) : Result :=
  ifUnit (mbxOk k) (s.command k 0x0803 (peerLength 1008 4)
    (fun _ m => firstBad ((decide (m.get 0 4 = 0 ∨ 1008 < m.get 0 4), 0) :: (nonZero m 4 4, 4) ::
      (if m.get 0 4 ≤ 1008 then (peerWords m).map (fun e => (decide (2 ^ 18 ≤ e.2), e.1)) else []))) (fun s m =>
    let t := m.get 8 8
    let ps := (s.asOf t).fabric.peers
    let ws := peerWords m
    if !s.admitted then s.wrongState k m
    else
      match List.find? (fun (e : Nat × Nat) => ps.any (fun p => p.2.gdn = e.2 % 65536) ||
          ws.any (fun d => decide (d.1 < e.1) && decide (d.2 % 65536 = e.2 % 65536))) ws with
      | some e => s.badField k m e.1
      | none =>
        if 65536 < ps.length + ws.length then s.reject k m Status.tableFull 65536
        else
          match s.tooSoon t with
          | some e => s.reject k m Status.tickTooSoon e
          | none => (s.accept t (.peerAdd (ws.map (fun e => Peer.ofWord e.2)))).done k m []))

/-- Numbers of a PEER_REMOVE with their body offsets. -/
def removeNumbers (m : Msg) : List (Nat × Nat) := (List.range (m.get 0 4)).map (fun i => (16 + 2 * i, m.get (16 + 2 * i) 2))

/-- A group that names this peer. -/
def State.grouped (s : State) (g : Nat) : Bool :=
  s.fabric.peers.any (fun p => decide (p.2.gdn = g) && s.fabric.groups.any (fun e => p.1 ∈ e.2))

/-- PEER_REMOVE (R335, R503). -/
def execPeerRemove (k : Nat) (s : State) : Result :=
  ifUnit (mbxOk k) (s.command k 0x0804 (peerLength 2016 2)
    (fun _ m => firstBad [(decide (m.get 0 4 = 0 ∨ 2016 < m.get 0 4), 0), (nonZero m 4 4, 4),
      (decide (m.get 0 4 % 2 = 1) && nonZero m (16 + 2 * m.get 0 4) 2, 16 + 2 * m.get 0 4)]) (fun s m =>
    let t := m.get 8 8
    let then_ := s.asOf t
    let gs := removeNumbers m
    if !s.admitted then s.wrongState k m
    else
      match List.find? (fun (e : Nat × Nat) => !then_.fabric.peers.any (fun p => p.2.gdn = e.2)) gs,
          List.find? (fun (e : Nat × Nat) => then_.grouped e.2) gs, s.tooSoon t with
      | some e, _, _ => s.reject k m Status.notFound e.2
      | none, some e, _ => s.badField k m e.1
      | none, none, some e => s.reject k m Status.tickTooSoon e
      | none, none, none => (s.accept t (.peerRemove (gs.map (fun e => e.2)))).done k m []))

/-- PEER_STATUS (R335): entry, index, lowest sequence number not performed, requests not acknowledged, and the bitmap. -/
def execPeerStatus (k : Nat) (s : State) : Result :=
  ifUnit (mbxOk k) (s.command k 0x0805 (fun _ => 4) (fun _ m => firstBad [(nonZero m 2 2, 2)]) (fun s m =>
    let g := m.get 0 2
    if !s.admitted then s.wrongState k m
    else
      match List.find? (fun (e : Nat × Peer) => decide (e.2.gdn = g)) s.fabric.peers with
      | none => s.reject k m Status.notFound g
      | some e =>
        let r := s.rxRec g
        let bits := (List.range 1024).foldl (fun v i => if (r.low + 1 + i) % 2 ^ 32 ∈ r.above then setBit v i else v) 0
        s.done k m (toLE 4 (g + (if e.2.collective then 2 ^ 16 else 0) + (if e.2.queue then 2 ^ 17 else 0)) ++ toLE 4 e.1
          ++ toLE 4 r.low ++ toLE 4 ((s.fabric.out.filter (fun o => o.dst = g)).length) ++ toLE 128 bits)))

-- groups

/-- The group entry of a GROUP_SET (R327, R335): inline after the head, or read from host memory. -/
def groupBytes (m : Msg) (ext : List Byte) : List Byte :=
  if m.get 8 8 = 0 then slice m.body 24 (m.get 16 4) else ext.take (m.get 16 4)

/-- Member count and the entry's length with its padding. -/
def groupCount (b : List Byte) : Nat := fieldLE b 2 2 + 1
def groupSize (n : Nat) : Nat := 8 + (2 * n + 7) / 8 * 8
def groupMembers (b : List Byte) : List Nat := (List.range (groupCount b)).map (fun i => fieldLE b (8 + 2 * i) 2)

/-- Wrong fields of a group entry that is whole, by offset in the entry; `ps`: the peers it may name. -/
def groupBad (b : List Byte) (ps : Tab Peer) : Option Nat :=
  let ms := (groupMembers b).zipIdx
  firstBad ((decide (1024 ≤ fieldLE b 0 2), 0) :: (decide (fieldLE b 4 4 ≠ 0), 4) ::
    ms.map (fun e => ((Tab.find? ps e.1).isNone || ms.any (fun d => decide (d.2 < e.2) && decide (d.1 = e.1)), 8 + 2 * e.2)) ++
    [((b.drop (8 + 2 * groupCount b)).any (fun x => decide (x ≠ 0)), 8 + 2 * groupCount b)])

/-- GROUP_SET (R334, R335, R403). A wrong field of an entry read from host memory is named by the offset of its address. -/
def execGroupSet (k : Nat) (ext : List Byte) (s : State) : Result :=
  ifUnit (mbxOk k) (s.command k 0x0806 (fun m => if m.len < 24 then 24 else if m.get 8 8 = 0 then 24 + m.get 16 4 else 24)
    (fun s m =>
      let b := groupBytes m ext
      firstBad [(nonZero m 20 4, 20), (s.isRemote k && decide (m.get 8 8 ≠ 0), 8),
        (decide (b.length ≠ m.get 16 4) || decide (b.length < 8) || decide (b.length ≠ groupSize (groupCount b)), 16)]) (fun s m =>
    let t := m.get 0 8
    let b := groupBytes m ext
    let s1 := if m.get 8 8 = 0 then s else s.send (.hostRead (m.get 8 8) (m.get 16 4))
    if !s.admitted then s.wrongState k m
    else
      match groupBad b (s.asOf t).fabric.peers, s.tooSoon t with
      | some off, _ => s1.badField k m (if m.get 8 8 = 0 then 24 + off else 8)
      | none, some e => s1.reject k m Status.tickTooSoon e
      | none, none =>
        if 1024 ≤ (s.asOf t).fabric.groups.length ∧ (Tab.find? (s.asOf t).fabric.groups (fieldLE b 0 2)).isNone then
          s1.reject k m Status.tableFull 1024
        else (s1.accept t (.groupSet (fieldLE b 0 2) (groupMembers b))).done k m []))

-- routes and ports

/-- A route entry (R335). -/
def routeOf (b : List Byte) : Route :=
  let f (off n : Nat) := fieldLE b off n
  ⟨f 0 1, if bitOf (f 1 1) 0 then some (f 2 2, f 4 1) else none, if bitOf (f 1 1) 1 then some (f 6 2, f 5 1) else none⟩

/-- Wrong fields of the route entries, by body offset. -/
def routesBad (m : Msg) (pod : Nat) : List (Bool × Nat) :=
  (List.range (m.get 0 1)).flatMap (fun i =>
    let o := 4 + 8 * i
    let r := routeOf (slice m.body o 8)
    let gwBad (g : Option (Nat × Nat)) : Bool := g.any (fun e => decide (podOf e.1 ≠ pod))
    let portBad (g : Option (Nat × Nat)) : Bool := g.any (fun e => decide (e.2 < 40 ∨ 47 < e.2))
    [(decide (r.pod = pod) || (List.range i).any (fun j => decide (m.get (4 + 8 * j) 1 = r.pod)), o),
      (decide (4 ≤ m.get (o + 1) 1), o + 1), (gwBad r.gw1, o + 2), (portBad r.gw1, o + 4), (portBad r.gw2, o + 5), (gwBad r.gw2, o + 6)])

/-- ROUTE_SET_OPTICAL (R335): the whole cross-pod route table replaced. -/
def execRouteSetOptical (k : Nat) (s : State) : Result :=
  ifUnit (mbxOk k) (s.command k 0x0807 (fun m => if m.len < 4 ∨ m.get 0 1 = 0 then max 12 m.len else 4 + 8 * m.get 0 1)
    (fun s m => firstBad ((decide (m.get 0 1 = 0), 0) :: (nonZero m 1 3, 1) :: routesBad m (podOf s.gdn))) (fun s m =>
    if s.bound then s.wrongState k m
    else
      let rs := (List.range (m.get 0 1)).map (fun i => routeOf (slice m.body (4 + 8 * i) 8))
      (State.reroute s (s.onFabric (fun f => { f with routes := rs }))).done k m []))

/-- PORT_STATUS (R333, R335). -/
def execPortStatus (k : Nat) (s : State) : Result :=
  ifUnit (mbxOk k) (s.command k 0x0808 (fun _ => 4) (fun _ m => firstBad [(decide (47 < m.get 0 1), 0), (nonZero m 1 3, 1)]) (fun s m =>
    s.done k m (s.regPage (Reg.portPage (m.get 0 1)) 0x30)))

/-- PORT_RETRAIN (R308, R335): each port named trains again with all its lanes. -/
def execPortRetrain (k : Nat) (s : State) : Result :=
  ifUnit (mbxOk k) (s.command k 0x0809 (fun _ => 4)
    (fun _ m => firstBad [(decide (47 < m.get 0 1 ∧ m.get 0 1 ≠ 0xFF), 0), (nonZero m 1 3, 1)]) (fun s m =>
    if s.bound then s.wrongState k m
    else s.startLong k m [] (fun s =>
      (if m.get 0 1 = 0xFF then List.range 48 else [m.get 0 1]).foldl (fun s p => s.trainPort p) s)))

end Sys2Proof.Machine
end

