-- ==== Sys2Proof/Machine/Launch.lean ====
section
/-! DEFINITION. The launch broadcast tree (R355 to R359, R361): its commands, transactions and timers. Launch traffic passes
between the devices that the bodies name, without a peer table. -/
namespace Sys2Proof.Machine

-- commands

/-- The launch of a LAUNCH_BROADCAST body (R355). -/
def State.launchOf (s : State) (k : Nat) (m : Msg) : Launch where
  mbx := k
  rank := m.get 4 4
  parent := if bitOf (m.get 0xC 1) 0 then some (m.get 8 2) else none
  grandparent := if bitOf (m.get 0xC 1) 1 then some (m.get 0xA 2) else none
  children := (List.range (m.get 0xD 1)).map (fun i => m.get (0x50 + 2 * i) 2)
  length := m.get 0x10 8
  dest := m.get 0x18 8
  sha := slice m.body 0x20 48
  held := if m.get 4 4 = 0 then m.get 0x10 8 / 65536 else 0
  next := []
  gotBytes := 0
  done := 0
  failed := 0
  finished := []
  ended := false
  refused := []
  reattaching := false
  doneSent := false
  lastHeard := s.now

/-- LAUNCH_BROADCAST (R355, R426): the root holds the payload already. -/
def execLaunchBroadcast (k : Nat) (s : State) : Result :=
  ifUnit (mbxOk k) (s.command k 0x080A
    (fun m => if m.len < 0x50 ∨ 64 < m.get 0xD 1 then max 0x50 m.len else 0x50 + 2 * m.get 0xD 1)
    (fun s m => firstBad [(decide (4 ≤ m.get 0xC 1), 0xC), (decide (64 < m.get 0xD 1), 0xD), (nonZero m 0xE 2, 0xE),
      (decide (m.get 0x10 8 % 65536 ≠ 0 ∨ 2 ^ 36 < m.get 0x10 8), 0x10),
      (decide (m.get 0x18 8 % 65536 ≠ 0) || !s.stagedOk (m.get 0x18 8) (m.get 0x10 8), 0x18)]) (fun s m =>
    if s.bound ∨ !s.ps0 then s.wrongState k m
    else s.startLong k m [] (fun s => (s.setLaunch (m.get 0 4) (s.launchOf k m)).launchHeldCheck (m.get 0 4))))

/-- LAUNCH_STATUS (R361): 4 bytes broadcast id. Result: chunks held (4), parent (2), grandparent (2), which of the two there
are (1, then 3 of padding), children (4), done (4), failed (4) (log entry 13). -/
def execLaunchStatus (k : Nat) (s : State) : Result :=
  ifUnit (mbxOk k) (s.command k 0x080B (fun _ => 4) (fun _ _ => none) (fun s m =>
    match Tab.find? s.fabric.launches (m.get 0 4) with
    | none => s.reject k m Status.notFound (m.get 0 4)
    | some l =>
      s.done k m (toLE 4 l.held ++ toLE 2 (l.parent.getD 0) ++ toLE 2 (l.grandparent.getD 0)
        ++ toLE 1 ((if l.parent.isSome then 1 else 0) + (if l.grandparent.isSome then 2 else 0)) ++ toLE 3 0
        ++ toLE 4 l.children.length ++ toLE 4 l.done ++ toLE 4 l.failed)))

-- chunks (R356)

/-- Chunks on their way to a child: those with a write not acknowledged. -/
def State.chunksInFlight (s : State) (id : Nat) (l : Launch) (child : Nat) : Nat :=
  ((s.fabric.out.filter (fun r => decide (r.op = firmwareOp) && decide (r.req = id) && decide (r.dst = child))).map
    (fun r => (r.tx.addr % 2 ^ 48 - l.dest) / 65536)).eraseDups.length

/-- One chunk written to a child, 512 bytes a request; a child that no route reaches is lost (R351). -/
def State.forwardChunk (s : State) (id : Nat) (l : Launch) (child c : Nat) : State :=
  let a := l.dest + c * 65536
  let s1 := s.setLaunch id { l with next := Tab.set 0 child (c + 1) l.next }
  let s2 := (List.range 128).foldl (fun s i =>
    (s.requestFrom 0x8000 firmwareOp id
      (s.mkTx 2 0 child (child * 2 ^ 48 + a + 512 * i) 0 (s.rd (a + 512 * i) 512))).1) s1
  if (s.portTo child).isNone then s2.markLost child 3 else s2

/-- LAUNCH_CHUNK_FORWARD (R356): the child's next chunk, while this node holds it and fewer than 8 are in flight. -/
def execLaunchChunkForward (id child : Nat) (s : State) : Result :=
  .next (
    match Tab.find? s.fabric.launches id with
    | none => s
    | some l =>
      if child ∈ l.children ∧ Tab.get 0 l.next child < l.held ∧ s.chunksInFlight id l child < 8 ∧ !s.isLost child then
        s.forwardChunk id l child (Tab.get 0 l.next child)
      else s)

/-- LAUNCH_HEARTBEAT_SEND (R356): each child hears the held count. -/
def execLaunchHeartbeatSend (id : Nat) (s : State) : Result :=
  .next (
    match Tab.find? s.fabric.launches id with
    | none => s
    | some l => l.children.foldl (fun s c => s.launchTx 6 c id 0 l.held) s)

-- silence (R357)

/-- An orphaned node (R357): the event, whose device the spec does not fix, and the command fails. Its children, which it no
longer serves, find it silent. A node whose command had ended already only has no parent left. -/
def State.orphan (s : State) (id : Nat) (l : Launch) : State :=
  let (g, s1) := s.upTo 65535
  let s2 := s1.launchEvent id g 1
  let l1 : Launch := { l with reattaching := false, grandparent := none }
  if l.ended then s2.setLaunch id l1
  else
    (s2.setLaunch id { l1 with ended := true, failed := l.failed + 1, children := [] }).endLongCode 0x080A Status.orphaned id

/-- LAUNCH_PARENT_SILENCE (R357): 2 ms without the parent; its writes are refused from now on. -/
def execLaunchParentSilence (id : Nat) (s : State) : Result :=
  .next (
    match Tab.find? s.fabric.launches id with
    | none => s
    | some l =>
      match l.parent with
      | none => s
      | some p =>
        if l.rank = 0 ∨ l.doneSent then s
        else
          let s1 := (s.at_ (l.lastHeard + us 2000)).launchEvent id p 0
          let l1 : Launch := { l with parent := none, refused := l.refused ++ [p] }
          match l.grandparent with
          | some g =>
            (s1.setLaunch id { l1 with reattaching := true, lastHeard := s1.now }).launchTx 7 g id 0 l.held
          | none => s1.orphan id l1)

/-- LAUNCH_ADOPT_TIMEOUT (R357). -/
def execLaunchAdoptTimeout (id : Nat) (s : State) : Result :=
  .next (
    match Tab.find? s.fabric.launches id with
    | none => s
    | some l => if l.reattaching then (s.at_ (l.lastHeard + us 2000)).orphan id l else s)

-- transactions (R341)

/-- A launch control transaction of an operation for a broadcast that runs here. -/
def State.launchControl (s : State) (tx : Tx) (op : Nat) (f : State → Nat → Launch → State) : State :=
  s.arrives tx (fun s =>
    if tx.type ≠ 8 ∨ tx.op ≠ op then s.malformed
    else
      match Tab.find? s.fabric.launches (tx.addr / 2 ^ 32 % 2 ^ 32) with
      | some l => f s (tx.addr / 2 ^ 32 % 2 ^ 32) l
      | none => s)

/-- LAUNCH_HEARTBEAT (R356, R357). -/
def execLaunchHeartbeat (tx : Tx) (s : State) : Result :=
  .next (s.launchControl tx 6 (fun s id l => if l.parent = some tx.src then s.setLaunch id { l with lastHeard := s.now } else s))

/-- LAUNCH_REATTACH (R357): the node adopts the sender, names its own parent as the new grandparent, and sends chunks from the
held count onward. -/
def execLaunchReattach (tx : Tx) (s : State) : Result :=
  .next (s.launchControl tx 7 (fun s id l =>
    let s1 := s.setLaunch id { l with
      children := l.children.filter (fun c => c ≠ tx.src) ++ [tx.src]
      finished := l.finished.filter (fun c => c ≠ tx.src)
      next := Tab.set 0 tx.src tx.word l.next }
    s1.launchTx 8 tx.src id 0 (match l.parent with
      | some p => p
      | none => 2 ^ 16)))

/-- LAUNCH_ADOPT (R357). -/
def execLaunchAdopt (tx : Tx) (s : State) : Result :=
  .next (s.launchControl tx 8 (fun s id l =>
    if l.reattaching && decide (l.grandparent = some tx.src) then
      (s.setLaunch id { l with
        parent := some tx.src
        grandparent := if bitOf tx.word 16 then none else some (tx.word % 65536)
        reattaching := false
        gotBytes := 0
        lastHeard := s.now }).launchDoneCheck id
    else s))

/-- LAUNCH_DONE (R359): a child's subtree counts. -/
def execLaunchDone (tx : Tx) (s : State) : Result :=
  .next (s.launchControl tx 9 (fun s id l =>
    if tx.src ∈ l.children ∧ !(tx.src ∈ l.finished) then
      (s.setLaunch id { l with
        finished := l.finished ++ [tx.src]
        done := l.done + tx.word % 2 ^ 17
        failed := l.failed + tx.addr % 2 ^ 17 }).launchDoneCheck id
    else s))

end Sys2Proof.Machine
end

