-- ==== Sys2Proof/Machine/Reset.lean ====
section
/-! DEFINITION. Power-up, cold and warm reset, and boot (R375, R411 to R416, R421, R422, R440, R443, R483, R485, R490 to R493). -/
namespace Sys2Proof.Machine

def State.onBoard (s : State) (f : Board → Board) : State := { s with board := f s.board }

-- resets (R422)

/-- Registers that a cold reset keeps: the fault counters (R478) and the board's pins (R493). -/
def Reg.keptCold (k : Nat) : Bool := decide (k = Reg.faultLogged ∨ k = Reg.testFail ∨ k = Reg.boardStatus)

/-- Registers that a warm reset keeps besides: device time, the identity (R332), the energy count (R433), the stacks' register pages and
the reserve (R240, R242), and the committed generations (R383). -/
def Reg.keptWarm (k : Nat) : Bool :=
  Reg.keptCold k || decide (k = Reg.tckTime ∨ k = Reg.fabDevId ∨ k = Reg.pwrEnergy) ||
    decide (Reg.hbmPage 0 ≤ k ∧ k < Reg.hbmPage 12) || decide (k = Reg.reserve ∨ k = Reg.ckpGenA ∨ k = Reg.ckpGenB)

/-- The device after a reset that keeps the MRAM, the module, the board's pins and the registers that `keep` names. The nonce
is new (R453), and MOD_PERST_N is low (R490). -/
def State.restart (s : State) (keep : Nat → Bool) (memory : Memory) : State :=
  let s1 : State := { State.reset with
    pending := s.pending
    regs := s.regs.filter (fun e => keep e.1)
    power := { Power.zero with brakeLow := s.power.brakeLow, brakeHold := s.power.brakeHold, quarters := s.power.quarters }
    mram := s.mram
    memory := { memory with hardPending := s.mram.hardPending }
    ckpt := { Ckpt.zero with slotA := s.ckpt.slotA, slotB := s.ckpt.slotB, modulePresent := s.ckpt.modulePresent }
    board := { s.board with modPerstLow := true, pwrOffOk := false, internalHold := false, warmDue := none }
    freeCount := s.freeCount
    sent := s.sent }
  ((s1.setFld Fld.alert 0).setFld Fld.timeLead 0).drawNonce

/-- A cold reset: everything but the MRAM and the module's contents. -/
def State.coldReset (s : State) : State := (s.restart Reg.keptCold Memory.zero).onBoard (fun b => { b with warmBoot := false })

/-- The page tests end without a verdict, and their pages of the pools are free again (R473). -/
def State.endPageTests (s : State) : State :=
  s.memory.pageTest.foldl (fun s p => s.freePool p.1 1)
    ((s.onMemory (fun m => { m with pageTest := [] })).bump Fld.freePages s.memory.pageTest.length)

/-- What a warm reset keeps of the memory-side dies, as their register pages are kept (R240): the pages retired and migrating, the
channels migrating or left in service, the reserve in use, and how long a stack has been cool. -/
def Memory.warm (m : Memory) : Memory :=
  { Memory.zero with
    pageMig := m.pageMig, retired := m.retired, chanMig := m.chanMig, chanStuck := m.chanStuck, used := m.used, coolSince := m.coolSince }

/-- A warm reset; the boot that follows is a warm boot. The counts of retired cores and failed engines are kept (R23, R275). -/
def State.warmReset (s : State) : State :=
  let s1 := s.endPageTests
  let s2 := (s1.restart Reg.keptWarm s1.memory.warm).onBoard (fun b => { b with warmBoot := true })
  let s3 := (List.range 4).foldl (fun t d => t.setFld (Fld.dieRetired d) (s.fld (Fld.dieRetired d))) s2
  (List.range 12).foldl (fun t st => t.setFld (Fld.mrwFailed st) (s.fld (Fld.mrwFailed st))) s3

/-- Boot begins with stage 1 (R413, R416). -/
def State.beginBoot (s : State) : State :=
  ((s.setFld Fld.bootStage 1).setFld Fld.warm (if s.board.warmBoot then 1 else 0)).refreshPower

/-- A warm reset of the device's own, which boots at once (R425, R426, R444, R455). -/
def State.warmReboot (s : State) : State := s.warmReset.beginBoot

-- supplies and reset pins (R411, R412, R483, R485, R490 to R492)

/-- STANDBY_SUPPLY_GOOD (R411): the always-on domain starts, and its time base runs free from zero. -/
def execStandbySupplyGood (s : State) : Result :=
  .next (if s.board.standbyGood then s else (s.onBoard (fun b => { b with standbyGood := true })).setReg Reg.tckTime 0)

/-- COLD_RESET_RELEASE (R411, R483, R491, R492): the straps are sampled and boot begins, or the device holds itself in reset
until the supply is good. With TEST_EN high it does not leave reset. -/
def execColdResetRelease (st : Straps) (s : State) : Result :=
  .next (
    if !s.board.coldRstLow ∨ !s.board.standbyGood ∨ st.testEn then s
    else
      let s1 := s.onBoard (fun b => { b with coldRstLow := false, straps := st })
      let s2 := ((s1.setFld Fld.slot st.slot).setFld Fld.boardSlot st.slot).setFld Fld.boardWidth st.width
      if s2.board.vin12Good then s2.beginBoot else s2.onBoard (fun b => { b with internalHold := true }))

/-- COLD_RST_N_ASSERT (R422, R490). -/
def execColdRstNAssert (s : State) : Result := .next (s.coldReset.onBoard (fun b => { b with coldRstLow := true }))

/-- SUPPLY_FAULT (R412, R485): a cold reset; the device then holds itself in reset until its supplies are good (R492). -/
def execSupplyFault (v : Supply) (s : State) : Result :=
  .next (
    let s1 := (s.coldReset.setFld Fld.bootFail 5).onBoard (fun b => { b with internalHold := !b.coldRstLow })
    match v with
    | .vin12 => s1.onBoard (fun b => { b with vin12Good := false })
    | .v3p3sb => s1.onBoard (fun b => { b with standbyGood := false, i3cAddr := none, i3cOffset := none, jtag := 1 }))

/-- INTERNAL_RESET_RELEASE (R492). -/
def execInternalResetRelease (s : State) : Result :=
  .next (
    if s.board.internalHold && s.board.standbyGood then
      ((s.onBoard (fun b => { b with internalHold := false, vin12Good := true })).setFld Fld.slot s.board.straps.slot).beginBoot
    else s)

/-- The device is held in cold reset, or off (R426, R490, R492). -/
def State.heldCold (s : State) : Bool := s.board.coldRstLow || s.board.internalHold || !s.board.standbyGood || decide (s.fld Fld.pstate = 4)

/-- PERST_ASSERT (R422, R490, R492): at least 100 µs is a warm reset; under cold reset it governs only the link. -/
def execPerstAssert (micros : Nat) (s : State) : Result :=
  .next (
    if micros < 100 then s
    else
      let s1 := if s.heldCold then s else s.warmReset
      (s1.onHost (fun h => { h with linkUp := false })).onBoard (fun b => { b with perstLow := true }))

/-- PERST_DEASSERT (R411, R413): a warm boot begins; the link comes up by itself (PCIE_LINK_UP). -/
def execPerstDeassert (s : State) : Result :=
  .next (
    let s1 := s.onBoard (fun b => { b with perstLow := false })
    if s.board.perstLow && s.board.warmBoot && decide (s1.fld Fld.bootStage = 0) && !s1.heldCold then s1.beginBoot else s1)

/-- PS3_BOARD_CONTROLLER_EXIT (R426): a warm boot. -/
def execPs3BoardControllerExit (s : State) : Result := .next (if s.fld Fld.pstate = 3 then s.warmReboot else s)

/-- FW_ACTIVATE_WARM_RESET (R425). -/
def execFwActivateWarmReset (s : State) : Result :=
  .next (match s.board.warmDue with
    | some t => (s.at_ t).warmReboot
    | none => s)

-- configuration records at boot (R413, R440, R446)

/-- The owner key set in force and its digest (R446, R463). -/
def State.setOwnerKeys (s : State) (keys : Option (List Byte)) : State :=
  let d := match keys with
    | some ks => sha384Bytes ks
    | none => List.replicate 48 0
  let s0 : State := { s with sec := { s.sec with ownerKeys := keys } }
  let s1 := s0.setFld Fld.ownerKeys (if keys.isSome then 1 else 0)
  (List.range 12).foldl (fun s i => s.setReg (Reg.ownerDigest i) (BitVec.ofNat 64 (fieldLE d (4 * i) 4))) s1

/-- The record of a kind that is newest in the MRAM: header and body (R440, R441). -/
def Mram.record (x : Mram) (kind : Nat) : Option (List Byte) :=
  (Tab.find? x.newest kind).bind (fun c => (Tab.find? x.records (kind * 2 + c)).map (fun r => r.take (32 + fieldLE r 0xC 4)))

/-- The body of the record of a kind in force. -/
def State.recordBody (s : State) (kind : Nat) : Option (List Byte) := (Tab.find? s.sec.records kind).map (fun r => r.drop 32)

/-- What stage 2 takes from the records: policy and owner keys, network, storage targets, power, remote mailboxes (R440). -/
def State.applyRecords (s : State) : State :=
  let rs := (List.range 8).filterMap (fun i => (s.mram.record (i + 1)).map (fun r => (i + 1, r)))
  let s1 : State := { s with sec := { s.sec with records := rs } }
  let s2 := s1.setFld Fld.siteKey (if (s1.recordBody 1).isSome then 1 else 0)
  let s3 := match s2.recordBody 2 with
    | some b => (s2.setFld Fld.policy (fieldLE b 0 1)).setOwnerKeys (if fieldLE b 0 1 = 2 then some (slice b 5 436) else none)
    | none => s2
  let s4 := match s3.recordBody 3 with
    | some b => s3.onHost (fun h => { h with net := b })
    | none => s3
  let s5 := match s4.recordBody 4 with
    | some b => (List.range (min 16 (b.length / 320))).foldl (fun (s : State) i => s.connectTarget (fieldLE b (320 * i) 1) (slice b (320 * i) 320)) s4
    | none => s4
  let s6 := match s5.recordBody 7 with
    | some b => (s5.setFld Fld.cap (fieldLE b 0 2)).setFld Fld.ceilMult (fieldLE b 2 1)
    | none => s5
  s6.setFld Fld.remoteMbx (match s6.recordBody 8 with
    | some b => fieldLE b 0 1 % 2
    | none => 0)

/-- The logical cores of a die placed around its retired cores (R22, R23): each on its own physical core, or on the lowest spare
left. -/
def State.placeCores (s : State) (die : Nat) : State :=
  let s1 := ((List.range 48).foldl (fun (acc : State × List Nat) i =>
    if acc.1.isRetired die i then
      match acc.2 with
      | p :: rest => (acc.1.setFld (Fld.corePhys (die * 48 + i)) p, rest)
      | [] => (acc.1.setFld (Fld.coreState (die * 48 + i)) 3, [])
    else acc) (s, (List.range 52).filter (fun p => decide (48 ≤ p) && !s.isRetired die p))).1
  s1.refreshDie die

/-- The Marrow lists of a die placed around its failed engines (R273, R275). -/
def State.placeLists (s : State) (st : Nat) : State :=
  let s1 := ((List.range 16).filter (fun e => s.marrowFailed st e)).foldl (fun s e => s.evacuate st e) s
  let s2 := (List.range 16).foldl (fun s i => s.setFld (Fld.mrwMoves (st * 16 + i)) 0) s1
  s2.refreshMarrow st

/-- The firmware slot booted: the active one, or the other where only that one verifies (R442). -/
def State.bootChoice (s : State) : Nat :=
  let good (x : FwSlot) : Bool := x.valid && decide ((Tab.get 0 s.mram.counters 0).toNat ≤ x.svn)
  if s.mram.active = 0 then (if !good s.mram.slotA && good s.mram.slotB then 1 else 0)
  else (if !good s.mram.slotB && good s.mram.slotA then 0 else 1)

def Mram.slot (x : Mram) (i : Nat) : FwSlot := if i = 0 then x.slotA else x.slotB

/-- The SEC page's firmware registers (R463). -/
def State.refreshFw (s : State) : State :=
  let f (s : State) (i : Nat) : State :=
    (s.setFld (Fld.fwValid i) (if (s.mram.slot i).valid then 1 else 0)).setFld (Fld.fwSvn i) (if (s.mram.slot i).valid then (s.mram.slot i).svn else 0)
  (f (f s 0) 1).setFld Fld.floor (Tab.get 0 s.mram.counters 0).toNat

/-- A checkpoint slot as stage 6 finds it (R375): committed ones keep their generation, others are empty and deallocated. -/
def State.checkSlot (s : State) (i : Nat) : State :=
  if (s.slot i).committed then s.setSlot i (s.slot i) else (s.setSlot i Slot.empty).send (.moduleDeallocate i)

/-- Autoload (R421): at READY with no job, JOB_ADMIT from storage; its COMMAND_DONE names the device as its source, and its sequence
field is open. -/
def State.autoload (s : State) (ext : List Byte) : State :=
  match s.recordBody 5 with
  | none => s
  | some b =>
    let (v, s1) := s.fresh
    let l : Long := ⟨srcDevice, 0x0101, v.toNat % 2 ^ 32, false, none, toLE 4 1 ++ slice b 0 4 ++ slice b 4 4 ++ toLE 4 0 ++ slice b 8 8, ext⟩
    if (Tab.find? s1.host.targets (fieldLE b 0 4)).isNone then
      s1.postEvent (s1.doneEvent l Status.notFound (fieldLE b 0 4))
    else (s1.onHost (fun h => { h with longs := h.longs ++ [l] })).beginAdmit

/-- Counter `k` raised to `v`: a write that would decrease it is not performed (R439). -/
def Mram.raise (m : Mram) (k v : Nat) : Mram :=
  if (Tab.get 0 m.counters k).toNat < v ∧ v < 2 ^ 32 then { m with counters := Tab.set 0 k (BitVec.ofNat 32 v) m.counters } else m

/-- READY (R413, R416, R443): the floor is raised to the booted slot's version, protective stops are over (R239), and an autoload
starts. -/
def State.reachReady (s : State) (ms : Nat) (ext : List Byte) : State :=
  let svn := (s.mram.slot (s.fld Fld.bootSlot)).svn
  let s0 := s.endStops
  let s1 := ({ s0 with mram := s0.mram.raise 0 svn }).refreshFw
  let s2 := ((s1.setFld Fld.bootStage 15).setFld Fld.lockAtReady (if s1.fld Fld.timeState = 2 then 1 else 0)).setFld Fld.readyMs (min ms 0xFFFF)
  (s2.setDevState 1).autoload ext

/-- What the end of a stage leaves (R413). -/
def State.stageDone (s : State) (n ms : Nat) (ext : List Byte) : State :=
  match n with
  | 1 =>
    let c := s.bootChoice
    ((s.setFld Fld.bootSlot c).setFld Fld.fallback (if c = s.mram.active then 0 else 1)).refreshFw
  | 2 =>
    let s1 := (s.setReg Reg.fwVersion (Config.fwVersion.zeroExtend 64)).setFld Fld.sstate 1
    let s2 := (List.range 4).foldl (fun s d => s.placeCores d) s1
    ((List.range 12).foldl (fun s t => s.placeLists t) s2).applyRecords.refreshPower
  | 4 => s.zeroMemory.hardRepair
  | 6 =>
    let s1 := (s.onBoard (fun b => { b with modPerstLow := false })).setFld Fld.moduleReady (if s.ckpt.modulePresent then 1 else 0)
    if s.ckpt.modulePresent then (s1.checkSlot 0).checkSlot 1 else s1
  | 7 => match s.recordBody 6 with
    | some b => s.takeSource b
    | none => s
  | 8 => s.reachReady ms ext
  | _ => s

/-- A boot is in progress. -/
def State.booting (s : State) : Bool :=
  decide (s.fld Fld.state = 0) && !s.heldCold && decide (s.fld Fld.sstate ≠ 3) &&
    !(s.board.warmBoot && decide (s.fld Fld.bootStage = 0))

/-- Boot stops with a loss that ends the device (R414, R476). -/
def State.bootLoss (s : State) (fail : Nat) : State := (s.setFld Fld.bootFail fail).endDeviceOther

/-- BOOT_STAGE_COMPLETE (R413, R414, R444): a device just released from reset is in stage 1. After a protective stop the last stage does
not complete before every stack reads below 85 °C (R239). -/
def execBootStageComplete (f : BootFinding) (ms : Nat) (ext : List Byte) (s : State) : Result :=
  .next (
    let n := max 1 (s.fld Fld.bootStage)
    if !s.booting || (decide (n = 8) && s.tooHot) then s
    else
      match f, n with
      | .ok, _ =>
        let s1 := s.stageDone n ms ext
        if n = 8 then s1 else s1.setFld Fld.bootStage (n + 1)
      | .noFirmware, 1 => ((s.setFld Fld.bootFail 1).setFld Fld.sstate 3).refreshFw
      | .d2dFailed, 3 => s.bootLoss 2
      | .stackFailed, 4 => s.bootLoss 3
      | .selfTestFailed, 5 => s.bootLoss 4
      | .absorbed us, 5 =>
        let s1 := (us.filter selfTestUnit).foldl (fun s u => s.testOut u) s
        if s1.fld Fld.state = 8 then s1.setFld Fld.bootFail 4 else (s1.stageDone n ms ext).setFld Fld.bootStage (n + 1)
      | _, _ => s)

end Sys2Proof.Machine
end

