-- ==== Sys2Proof/Machine/Debug.lean ====
section
/-! DEFINITION. Debug levels, step halts and snapshots (R452 to R462, R404, R464). -/
namespace Sys2Proof.Machine

-- snapshots (R458 to R460)

def State.onSnap (s : State) (f : Snap → Snap) : State := { s with snap := f s.snap }

/-- Fabric triggers to every collective partner: the id, and the latch time (R459, R460). -/
def State.propagateSnap (s : State) (id : Nat) : State :=
  ((s.fabric.peers.filter (fun p => p.2.collective && decide (p.2.gdn ≠ s.gdn))).foldl
    (fun s p => s.sendTx (s.mkTx 0xA 1 p.2.gdn s.now (id % 2 ^ 32) [])) s).setFld Fld.snpPropagated 1

/-- The latch (R458, R462): every register below 0x0040_0000 and every queue count, at one instant. -/
def State.latchSnap (s : State) (source : Nat) (arm : SnapArm) : State :=
  let s1 := ((s.setFld Fld.snpState 2).setFld Fld.snpSource source).setReg Reg.snpTime (BitVec.ofNat 64 s.now)
  let s2 := s1.setReg Reg.snpTick (BitVec.ofNat 64 (s.fld Fld.tickNumber))
  let counts := s.qdefs.map (fun d => (d.1, BitVec.ofNat 64 (s.queCount d.1)))
  let s3 := s2.onSnap (fun x => { x with held := true, regs := s.settleWaits.regs.filter (fun e => decide (e.1 < 0x400000)), counts := counts })
  if arm.propagate then s3.propagateSnap arm.id else s3

/-- A trigger of this source: it latches, or counts as missed while a snapshot is held. `code`: what fired, as SNP_STATUS says. -/
def State.fireSnap (s : State) (code : Nat) (want : SnapArm → Bool) : State :=
  match s.snap.arm with
  | some a =>
    if !want a then s
    else if s.snap.held then s.bump Fld.snpMissed 1
    else s.latchSnap code a
  | none => s

/-- The arming of a SNAP_ARM body (R459). -/
def snapArmOf (m : Msg) : SnapArm :=
  ⟨m.get 0 1, bitOf (m.get 1 1) 0, m.get 2 2, m.get 4 2, m.get 8 8, m.get 0x10 4⟩

/-- A snapshot armed: a held one is discarded. -/
def State.armSnap (s : State) (a : SnapArm) : State :=
  let s1 := ((s.setFld Fld.snpState 1).setFld Fld.snpSource a.source).setFld Fld.snpPropagated 0
  let s2 := (s1.setReg Reg.snpId (BitVec.ofNat 64 a.id)).setReg Reg.snpMatch (BitVec.ofNat 64 a.match_)
  s2.onSnap (fun _ => ⟨some a, false, [], []⟩)

/-- Disarmed and released. -/
def State.releaseSnap (s : State) : State :=
  (((s.setFld Fld.snpState 0).setFld Fld.snpSource 0).setFld Fld.snpPropagated 0).onSnap (fun _ => Snap.zero)

/-- The debug level in force is below what the command needs (R405, R452). -/
def State.denied (s : State) (k : Nat) (m : Msg) (level : Nat) : State := s.reject k m Status.denied level

/-- SNAP_ARM (R459). -/
def execSnapArm (k : Nat) (s : State) : Result :=
  ifUnit (mbxOk k) (s.command k 0x0501 (fun _ => 32)
    (fun _ m => firstBad [(decide (4 < m.get 0 1 ∧ m.get 0 1 ≠ 0xFF), 0), (decide (1 < m.get 1 1), 1), (nonZero m 6 2, 6),
      (nonZero m 0x14 12, 0x14)]) (fun s m =>
    let a := snapArmOf m
    if s.fld Fld.debug < 1 then s.denied k m 1
    else if a.source = 0xFF then s.releaseSnap.done k m []
    else
      match (if a.source = 0 then s.tooSoon a.match_
          else if a.source = 1 ∧ a.match_ < s.now + us 1000 then some (s.now + us 1000) else none) with
      | some e => s.reject k m Status.tickTooSoon e
      | none => (s.armSnap a).done k m []))

/-- SNAP_TRIGGER (R459): an armed snapshot fires, whatever its source; without one the state does not permit it. -/
def execSnapTrigger (k : Nat) (s : State) : Result :=
  ifUnit (mbxOk k) (s.plain k 0x0502 (fun s m =>
    if s.fld Fld.debug < 1 then s.denied k m 1
    else if s.snap.arm.isNone then s.wrongState k m
    else (s.fireSnap 5 (fun _ => true)).done k m []))

/-- SNAP_STATUS (R459, R462). -/
def execSnapStatus (k : Nat) (s : State) : Result :=
  ifUnit (mbxOk k) (s.plain k 0x0503 (fun s m => s.done k m (s.regPage Reg.snpStatus 0x20)))

/-- SNAPSHOT_TICK_MATCH (R459): the tick that has just fired is the armed one. -/
def execSnapshotTickMatch (s : State) : Result :=
  .next (
    if s.fld Fld.running = 1 then s.fireSnap 0 (fun a => decide (a.source = 0) && decide (a.match_ = s.fld Fld.tickNumber)) else s)

/-- SNAPSHOT_TIME_MATCH (R459). -/
def execSnapshotTimeMatch (s : State) : Result :=
  .next (match s.snap.arm with
    | some a => if a.source = 1 && (!s.snap.held || decide (s.now < a.match_)) then (s.at_ a.match_).fireSnap 1 (fun _ => true) else s
    | none => s)

/-- SNAPSHOT_EVENT_MATCH (R459): an event of this type and source has been generated. -/
def execSnapshotEventMatch (event source : Nat) (s : State) : Result :=
  .next (s.fireSnap 2 (fun a => decide (a.source = 2) && decide (a.event = event) && decide (a.eventSrc = 0xFFFF ∨ a.eventSrc = source)))

/-- SNAPSHOT_TRIGGER (R460): a receiver that is not armed with source 0x4 and the same id discards it. -/
def execSnapshotTrigger (tx : Tx) (s : State) : Result :=
  .next (s.trigger tx 1 (fun s => s.fireSnap 4 (fun a => decide (a.source = 4) && decide (a.id = tx.word))))

/-- TAG_READ (R242, R404): 8 bytes first job HBM address, 4 bytes tile count, 4 zero (log entry 13). -/
def execTagRead (k : Nat) (s : State) : Result :=
  ifUnit (mbxOk k) (s.command k 0x0504 (fun _ => 16)
    (fun _ m => firstBad [(decide (hbmSize ≤ m.get 0 8), 0), (decide (254 < m.get 8 4 ∨ hbmSize < (m.get 0 8 / 4096 + m.get 8 4) * 4096), 8),
      (nonZero m 12 4, 12)]) (fun s m =>
    if s.fld Fld.debug < 1 then s.denied k m 1
    else s.done k m ((List.range (m.get 8 4)).flatMap (fun i => s.tagEntry ((m.get 0 8 / 4096 + i) * 4096)))))

-- unlocking (R453 to R456)

/-- The nonce in force. -/
def State.nonceBytes (s : State) : List Byte := (List.range 8).flatMap (fun i => s.reg32 (Reg.nonce i))

/-- An unlock object for a level (R453): whose image digest and not-after hold as `rest` says. -/
def State.objectOk (s : State) (level : Nat) (cred : List Byte) : Bool :=
  decide (fieldLE cred 0 4 = 0x4B4C4755) && decide (fieldLE cred 4 1 = level) && decide (fieldLE cred 5 3 = 0) &&
    decide (slice cred 8 16 = toLE 16 Config.serial.toNat) && decide (slice cred 0x18 32 = s.nonceBytes) &&
    decide (slice cred 0x70 16 = List.replicate 16 0)

/-- A D2 token for the admitted image under the bound owner's keys, whose not-after lies ahead (R454). -/
def State.d2Token (s : State) (cred : List Byte) : Bool :=
  s.job.any (fun j => s.objectOk 2 cred && decide (slice cred 0x38 48 = padTo 48 j.digest) && decide (s.now < fieldLE cred 0x68 8) &&
    verifyBlock 4 j.owner (cred.take 128) (slice cred 128 sigSize))

/-- A D3 grant under Umaler's keys (R454). -/
def State.d3Grant (s : State) (cred : List Byte) : Bool :=
  s.objectOk 3 cred && decide (slice cred 0x38 56 = List.replicate 56 0) &&
    verifyBlock 5 Config.umalerKeys (cred.take 128) (slice cred 128 sigSize)

/-- Entry to D3 (R454): every trace of earlier work cleared as steps 2 to 6 of a job reset do, the derived keys erased, the state
VENDOR. -/
def State.enterD3 (s : State) : State :=
  let s1 := s.dropJob.scrubDevice.clearJobRegs
  ((s1.setFld Fld.keysErased 1).setFld Fld.sstate 4).setDebug 3

/-- The table of R456 lets DEBUG_UNLOCK enter the level from here. -/
def State.mayUnlock (s : State) (level : Nat) : Bool :=
  let ss := s.fld Fld.sstate
  let ps := s.fld Fld.pstate
  match level with
  | 1 => (decide (ss = 1) && decide (ps ≤ 2)) || (decide (ss = 2) && decide (ps ≤ 1))
  | 2 => decide (ss = 2) && decide (ps ≤ 1)
  | _ => decide (ss = 1) && decide (ps = 0)

/-- A failing unlock (R455): DENIED, counted; the eighth in a row locks every unlock out for 1 s. -/
def State.failUnlock (s : State) (k : Nat) (m : Msg) : State :=
  let s1 := (s.bump Fld.authFail 1)
  let n := s1.sec.fails + 1
  let s2 : State := { s1 with sec := { s1.sec with
    fails := if n = 8 then 0 else n, lockout := if n = 8 then some (s1.now + us 1000000) else s1.sec.lockout } }
  s2.denied k m (m.get 0 1)

/-- A successful unlock: the failures in a row are forgotten and the nonce is new (R453). The level is never lowered by one. -/
def State.unlocked (s : State) (level : Nat) : State :=
  let s1 : State := { s with sec := { s.sec with fails := 0 } }
  (if s1.fld Fld.debug < level then s1.setDebug level else s1).drawNonce

/-- DEBUG_UNLOCK (R453 to R456, R464): 1 byte level, 1 byte source; from host memory 8 bytes address at 0x08 and 8 bytes length;
from storage 4 bytes target at 0x04, 4 bytes namespace id at 0x08, 8 bytes byte offset at 0x10 (log entry 13). `ext`: the
credential read. -/
def execDebugUnlock (k : Nat) (ext : List Byte) (s : State) : Result :=
  ifUnit (mbxOk k) (s.command k 0x0505 (fun _ => 32)
    (fun _ m => firstBad [(decide (m.get 0 1 = 0 ∨ 3 < m.get 0 1), 0), (decide (2 < m.get 1 1 ∨ (m.get 0 1 = 1 ∧ m.get 1 1 ≠ 2)), 1),
      (nonZero m 2 2, 2), (nonZero m 24 8, 24)]) (fun s m =>
    let level := m.get 0 1
    if s.sec.lockout.isSome then s.denied k m level
    else if !s.mayUnlock level then s.denied k m level
    else if m.get 1 1 = 1 ∧ (Tab.find? s.host.targets (m.get 4 4)).isNone then s.reject k m Status.notFound (m.get 4 4)
    else
      let cred := if m.get 1 1 = 2 then [] else ext
      let s1 := if m.get 1 1 = 0 then s.send (.hostRead (m.get 8 8) (m.get 16 8))
        else if m.get 1 1 = 1 then s.storageMoved (m.get 4 4) ext.length 0 else s
      if level = 1 then (s1.unlocked 1).done k m []
      else if level = 2 then
        if s1.d2Token cred then ((s1.unlocked 2).setReg Reg.d2Expiry (BitVec.ofNat 64 (fieldLE cred 0x68 8))).done k m []
        else s1.failUnlock k m
      else if s1.d3Grant cred then (s1.enterD3.unlocked 3).done k m []
      else s1.failUnlock k m))

/-- The first tick at least 1 ms ahead; tick 0 of the next arming while the tick is stopped. -/
def State.nextFreeTick (s : State) : Nat :=
  let p := s.fld Fld.period * 10
  if s.armed then (s.now + us 1000 - s.fld Fld.startTime + p - 1) / p else 0

/-- D2 has ended: steps that a halt holds resume at the first tick at least 1 ms later (R457). -/
def State.d2Ends (s : State) : State :=
  if s.tick.halted || s.haltNow s.tick.next then
    let t := s.nextFreeTick
    s.onTick (fun x => { x with marks := x.marks ++ [(t, false)] })
  else s

/-- DEBUG_LOCK (R455): 4 bytes, target level in [1:0]; from D3 it is a warm reset. -/
def execDebugLock (k : Nat) (s : State) : Result :=
  ifUnit (mbxOk k) (s.command k 0x0506 (fun _ => 4) (fun _ m => firstBad [(decide (3 < m.get 0 4), 0)]) (fun s m =>
    let level := m.get 0 4
    let now := s.fld Fld.debug
    if now ≤ level then s.done k m []
    else if now = 3 then s.warmReboot
    else
      let s1 := s.setDebug level
      (if now = 2 then s1.d2Ends else s1).done k m []))

/-- D2_TOKEN_EXPIRY (R454). -/
def execD2TokenExpiry (s : State) : Result :=
  .next (
    if s.fld Fld.debug = 2 then ((s.at_ ((s.reg Reg.d2Expiry).toNat + 1)).setDebug 1).d2Ends else s)

/-- UNLOCK_LOCKOUT_EXPIRY (R455). -/
def execUnlockLockoutExpiry (s : State) : Result :=
  .next (match s.sec.lockout with
    | some t => { s.at_ t with sec := { s.sec with lockout := none } }
    | none => s)

-- step halts (R457)

/-- A halt or a resume for a tick at least 1 ms ahead, at D2. -/
def State.markTick (s : State) (k : Nat) (m : Msg) (halt : Bool) : State :=
  if s.fld Fld.debug < 2 then s.denied k m 2
  else
    match s.tooSoon (m.get 0 8) with
    | some e => s.reject k m Status.tickTooSoon e
    | none => (s.onTick (fun x => { x with marks := x.marks ++ [(m.get 0 8, halt)] })).done k m []

/-- STEP_HALT (R457). -/
def execStepHalt (k : Nat) (s : State) : Result :=
  ifUnit (mbxOk k) (s.command k 0x0507 (fun _ => 8) (fun _ _ => none) (fun s m => s.markTick k m true))

/-- STEP_RESUME (R457). -/
def execStepResume (k : Nat) (s : State) : Result :=
  ifUnit (mbxOk k) (s.command k 0x0508 (fun _ => 8) (fun _ _ => none) (fun s m => s.markTick k m false))

end Sys2Proof.Machine
end

