-- ==== Sys2Proof/Machine/Home.lean ====
section
/-! DEFINITION. Requests of peers at their home (R288 to R290, R292, R317 to R320, R325, R336 to R348): reads, writes,
atomics, credits, enqueues and dequeues, and the coherence messages of the sled. -/
namespace Sys2Proof.Machine

/-- READ_REQUEST (R317, R320): a duplicate is read again. -/
def execReadRequest (tx : Tx) (s : State) : Result :=
  .next (s.serveRequest tx 1 (fun s => s.serveRead tx) (fun s => (s.takeRequest s.now tx).releaseHeld))

/-- WRITE_REQUEST (R319, R320): acknowledged once performed; a duplicate is acknowledged and not performed again. A launch
write is admitted from the node's parent without a peer table (R355). -/
def execWriteRequest (tx : Tx) (s : State) : Result :=
  .next (
    match (if tx.type = 2 ∧ tx.dst = s.gdn ∧ !s.halted then s.launchFor tx else none) with
    | some (id, l) =>
      if s.marked tx.src tx.seq then (s.bump64 Reg.fabDup 1).reply tx 0 [] false
      else if tx.data.length ≠ tx.len ∨ !s.remoteOk tx true tx.len then s.refuseRequest tx Status.addressFault
      else s.launchWrite id l tx
    | none => s.serveRequest tx 2 (fun s => s.reply tx 0 [] false) (fun s => (s.takeRequest s.now tx).releaseHeld))

/-- ATOMIC_REQUEST (R317, R346 to R348). -/
def execAtomicRequest (tx : Tx) (s : State) : Result :=
  .next (s.serveRequest tx 3 (fun s => s.retryAtomic tx) (fun s => (s.takeRequest s.now tx).releaseHeld))

/-- LEEK_ENTRY_EXPIRY (R347): the oldest entry is 500 µs old, and the first atomic that waits for room goes on. -/
def execLeekEntryExpiry (s : State) : Result :=
  .next (match s.fabric.leek with
    | [] => s
    | e :: _ => (s.at_ (e.time + us 500)).leekNext.releaseHeld)

/-- RANKED_ATOMIC_APPLY (R198): the atomic whose turn it is at an address is applied; its op gets the old value. -/
def execRankedAtomicApply (addr : Nat) (s : State) : Result :=
  .next (
    let next := Tab.get 0 s.fabric.rankNext addr
    match s.fabric.rankWait.find? (fun w => decide (w.addr = addr) && decide (w.rank = next)) with
    | none => s
    | some w =>
      let s0 := s.onFabric (fun f => { f with
        rankWait := f.rankWait.filter (fun v => !(v.addr = addr && v.rank = next))
        rankNext := Tab.set 0 addr (next + 1) f.rankNext })
      let (old, s1) := s0.atomic w.origin w.opByte addr w.operand 0
      match w.origin with
      | .remote src seq stream =>
        let tx := s1.rankTx w src seq stream
        ((s1.journal tx old).answerLater tx).releaseHeld
      | .op id =>
        let c := s0.atomicTally w.origin w.opByte addr w.operand
        let s2 := match s1.op? id with
          | none => s1
          | some p => s1.setOp { p with cnt := p.cnt.count c }
        (if w.oldAt = 0 then s2 else s2.write w.origin w.oldAt (toLE (atomicWidth w.opByte) old)).settle
      | _ => s1.settle)

/-- RANK_WAIT_DEADLINE (R199): refused after the fabric wait deadline. -/
def execRankWaitDeadline (addr rank : Nat) (s : State) : Result :=
  .next (match s.fabric.rankWait.find? (fun w => decide (w.addr = addr) && decide (w.rank = rank)) with
    | none => s
    | some w =>
      let s1 := (s.at_ (w.since + s.waitDeadline)).onFabric (fun f => { f with
        rankWait := f.rankWait.filter (fun v => !(v.addr = addr && v.rank = rank)) })
      match w.origin with
      | .remote src seq stream => (s1.refuseRequest (s1.rankTx w src seq stream) Status.addressFault).releaseHeld
      | .op id =>
        match s1.op? id with
        | some o => s1.putOp (o.failed Status.addressFault addr)
        | none => s1
      | _ => s1)

-- queues

/-- CREDIT_REQUEST (R290): a repeated request gets the original grant. -/
def execCreditRequest (tx : Tx) (s : State) : Result :=
  .next (s.serveRequest tx 4 (fun s => s.repeatCredit tx) (fun s => (s.takeRequest s.now tx).releaseHeld))

/-- ENQUEUE_TRANSACTION (R288, R290, R320). -/
def execEnqueueTransaction (tx : Tx) (s : State) : Result :=
  .next (s.serveRequest tx 5 (fun s => s.reply tx 0 (List.replicate 16 0) false) (fun s => (s.takeRequest s.now tx).releaseHeld))

/-- DEQUEUE_TRANSACTION (R292, R320). -/
def execDequeueTransaction (tx : Tx) (s : State) : Result :=
  .next (s.serveRequest tx 6 (fun s => s.repeatDequeue tx) (fun s => (s.takeRequest s.now tx).releaseHeld))

-- commit queues and Cress

/-- LINE_COMMIT (R336): once the line is free, the next write or atomic of its queue commits. -/
def execLineCommit (line : Nat) (s : State) : Result :=
  .next (
    if s.queueAt line = [] then s
    else
      let s1 := s.at_ (s.busyUntil line)
      (((s1.pull line ((s1.queueAt line).length + 1)).finishServes).settle).releaseHeld)

/-- CRESS_WINDOW_CLOSE (R343): the entry's 64 ns are over; it closes and joins the queue. -/
def execCressWindowClose (line : Nat) (s : State) : Result :=
  .next (match s.fabric.cress.find? (fun e => e.line = line) with
    | some e => ((s.at_ (e.opened + 64)).closeCress e).releaseHeld
    | none => s)

-- coherence (R324, R325): type 0xB, operation 0 invalidation, 1 acknowledgement, 2 fill (log entry 29)

/-- A coherence message of this operation from a peer of the sled. -/
def State.coherence (s : State) (tx : Tx) (op : Nat) (f : State → State) : State :=
  s.arrives tx (fun s =>
    if tx.type = 0xB ∧ tx.op = op ∧ s.fromPeer tx ∧ tx.src / 8 = s.gdn / 8 then f s else s.malformed)

/-- INVALIDATION (R325): the line is dropped, where it is held, and the home gets its acknowledgement. -/
def execInvalidation (tx : Tx) (s : State) : Result :=
  .next (s.coherence tx 0 (fun s =>
    (s.onFabric (fun f => { f with rlc := f.rlc.filter (fun e => e.1 ≠ tx.addr / 64) })).sendTx
      (s.mkTx 0xB 1 tx.src tx.addr 0 [])))

/-- INVALIDATION_ACK (R325): once every holder has acknowledged, the write or atomic that waits commits. -/
def execInvalidationAck (tx : Tx) (s : State) : Result :=
  .next (s.coherence tx 1 (fun s =>
    let line := txAddr tx / 64
    (s.onFabric (fun f => { f with
      invalWait := Tab.set [] line ((Tab.get [] f.invalWait line).filter (fun g => g ≠ tx.src)) f.invalWait })).goOn))

/-- A line placed in the remote-line cache as the most recently used; a set of 16 drops its least recently used (R324). The
set of a line is its number modulo 65,536 (DEDUCED from 64 MiB, 16 ways and 64-byte lines). -/
def rlcPut (rlc : List (Nat × List Byte)) (line : Nat) (bs : List Byte) : List (Nat × List Byte) :=
  let rest := rlc.filter (fun e => e.1 ≠ line)
  let set := rest.filter (fun e => e.1 % 65536 = line % 65536)
  let keep := if set.length < 16 then rest else rest.filter (fun e => (set.getLast?).any (fun x => x.1 ≠ e.1))
  (line, bs) :: keep

/-- COHERENT_FILL (R324): the line is placed read-only. -/
def execCoherentFill (tx : Tx) (s : State) : Result :=
  .next (s.coherence tx 2 (fun s =>
    (s.onFabric (fun f => { f with rlc := rlcPut f.rlc (tx.addr / 64) (padTo 64 tx.data) })).bump64 Reg.fabRlcFill 1))

end Sys2Proof.Machine
end

