-- ==== Sys2Proof/Machine/Security.lean ====
section
/-! DEFINITION. Firmware slots, configuration records, owner keys, certificates and recovery (R437 to R446, R463). -/
namespace Sys2Proof.Machine

def State.onMram (s : State) (f : Mram → Mram) : State := { s with mram := f s.mram }
def State.setSlotFw (s : State) (i : Nat) (x : FwSlot) : State :=
  (s.onMram (fun m => if i = 0 then { m with slotA := x } else { m with slotB := x })).refreshFw

/-- SEC_STATUS (R463): the SEC page. -/
def execSecStatus (k : Nat) (s : State) : Result :=
  ifUnit (mbxOk k) (s.plain k 0x0601 (fun s m => s.done k m (s.regPage Reg.secStatus 0x70)))

-- sources (R441)

/-- Wrong fields of the 32-byte body of R441: source, then 8 bytes address at 0x08 and 8 bytes length, or 4 bytes target at 0x04,
4 bytes namespace id at 0x08 and 8 bytes byte offset at 0x10 (log entry 13). -/
def sourceBad (m : Msg) : Option Nat :=
  firstBad [(decide (1 < m.get 0 1), 0), (nonZero m 1 3, 1), (decide (m.get 0 1 = 0) && nonZero m 4 4, 4),
    (decide (m.get 0 1 = 1) && nonZero m 12 4, 12), (nonZero m 24 8, 24)]

/-- A long command that reads a signed object from host memory or storage. -/
def State.startSource (s : State) (k : Nat) (m : Msg) (ext : List Byte) (f : State → State) : State :=
  if m.get 0 1 = 1 ∧ (Tab.find? s.host.targets (m.get 4 4)).isNone then s.reject k m Status.notFound (m.get 4 4)
  else
    s.startLongExt k m [] (if m.get 0 1 = 0 then ext.take (m.get 16 8) else ext) (fun s =>
      f (if m.get 0 1 = 0 then s.send (.hostRead (m.get 8 8) (m.get 16 8)) else s.storageMoved (m.get 4 4) ext.length 0))

-- firmware images (R442)

/-- A firmware image that verifies under Umaler's keys and is at or above the floor. -/
def State.imageOk (s : State) (b : List Byte) : Bool :=
  let n := 64 + fieldLE b 0xC 4
  decide (fieldLE b 0 4 = 0x57464755) && decide (n ≤ b.length) && decide (sigOffset n + sigSize ≤ 24 * 1048576) &&
    verifyBlock 1 Config.umalerKeys (b.take n) (slice b (sigOffset n) sigSize) &&
    decide ((Tab.get 0 s.mram.counters 0).toNat ≤ fieldLE b 8 2)

/-- The slot that is not active. -/
def State.spareSlot (s : State) : Nat := 1 - s.mram.active

/-- FW_STAGE (R442): the inactive slot is invalid until the image has been written. -/
def execFwStage (k : Nat) (ext : List Byte) (s : State) : Result :=
  ifUnit (mbxOk k) (s.command k 0x0602 (fun _ => 32) (fun _ m => sourceBad m) (fun s m =>
    s.startSource k m ext (fun s => s.setSlotFw s.spareSlot FwSlot.empty)))

/-- FW_STAGE carried out: a failing image leaves the slot invalid and ends in DENIED. -/
def State.endFwStage (s : State) (l : Long) : State :=
  if s.imageOk l.ext then
    (s.setSlotFw s.spareSlot ⟨true, fieldLE l.ext 8 2, l.ext⟩).endLong l Status.success 0
  else s.endLong l Status.denied 0

/-- FW_ACTIVATE (R425, R404): 4 bytes slot, which must hold a valid image. -/
def execFwActivate (k : Nat) (s : State) : Result :=
  ifUnit (mbxOk k) (s.command k 0x0603 (fun _ => 4) (fun _ m => firstBad [(decide (1 < m.get 0 4), 0)]) (fun s m =>
    if s.bound then s.wrongState k m
    else if !(s.mram.slot (m.get 0 4)).valid then s.reject k m Status.notFound (m.get 0 4)
    else s.startLong k m [] id))

/-- FW_ACTIVATE carried out: the active-slot record is committed, and a warm reset is due 100 ms later. -/
def State.endFwActivate (s : State) (l : Long) : State :=
  ((s.onMram (fun m => { m with active := fieldLE l.body 0 4 })).onBoard (fun b => { b with warmDue := some (s.now + us 100000) })).endLong l
    Status.success 0

-- configuration records (R440, R441)

/-- A SITE_KEY body in the layout of R446: exponent, modulus, SLH-DSA key. -/
def siteKeys (b : List Byte) : List Byte := slice b 384 4 ++ slice b 0 384 ++ slice b 388 48

/-- The first check of R441 that a record fails. -/
def State.recordFail (s : State) (b : List Byte) : Option Fail :=
  let kind := fieldLE b 4 1
  let n := 32 + fieldLE b 0xC 4
  let keys := match s.recordBody 1 with
    | some x => some (siteKeys x)
    | none => if kind = 1 then some (siteKeys (b.drop 32)) else none
  firstFail [
    (decide (fieldLE b 0 4 = 0x52434755) && decide (fieldLE b 5 1 = 1) && decide (fieldLE b 6 2 = 0) && decide (fieldLE b 0xC 4 ≤ 65536) &&
      decide (sigOffset n + sigSize ≤ b.length), (Status.badField, 0)),
    (decide (1 ≤ kind ∧ kind ≤ 8), (Status.badField, 4)),
    (decide (slice b 0x10 16 = List.replicate 16 0) || decide (slice b 0x10 16 = toLE 16 Config.serial.toNat), (Status.badField, 0x10)),
    (decide ((Tab.get 0 s.mram.counters kind).toNat < fieldLE b 8 4), (Status.badField, 8)),
    (keys.any (fun ks => verifyBlock 3 ks (b.take n) (slice b (sigOffset n) sigSize)), (Status.denied, 0))]

/-- A record written whole into the older of its two copies, and its counter raised after that (R439, R441). -/
def Mram.writeRecord (x : Mram) (b : List Byte) : Mram :=
  let kind := fieldLE b 4 1
  let copy := match Tab.find? x.newest kind with
    | some c => 1 - c
    | none => 0
  ({ x with
    records := Tab.put (kind * 2 + copy) b x.records
    newest := Tab.put kind copy x.newest } : Mram).raise kind (fieldLE b 8 4)

/-- CONFIG_RECORD_WRITE (R441). -/
def execConfigRecordWrite (k : Nat) (ext : List Byte) (s : State) : Result :=
  ifUnit (mbxOk k) (s.command k 0x0604 (fun _ => 32) (fun _ m => sourceBad m) (fun s m => s.startSource k m ext id))

/-- CONFIG_RECORD_WRITE carried out. -/
def State.endConfigWrite (s : State) (l : Long) : State :=
  match s.recordFail l.ext with
  | some f => s.endLong l f.1 f.2
  | none => (s.onMram (fun m => m.writeRecord l.ext)).endLong l Status.success 0

-- owner keys and certificates (R445, R446)

/-- OWNER_KEY_SET (R446, R437, R464). -/
def execOwnerKeySet (k : Nat) (s : State) : Result :=
  ifUnit (mbxOk k) (s.command k 0x0605 (fun _ => 440)
    (fun _ m => firstBad [(decide (1 < m.get 0 4), 0),
      (decide (m.get 0 4 = 0) && decide (m.get 4 4 % 2 = 0 ∨ m.get 4 4 < 65537), 4), (decide (m.get 0 4 = 0) && decide (m.get 8 1 < 128), 8)])
    (fun s m =>
      if s.bound then s.wrongState k m
      else if s.fld Fld.policy = 2 then s.denied k m 0
      else (s.setOwnerKeys (if m.get 0 4 = 1 then none else some (slice m.body 4 436))).done k m []))

/-- CERT_READ (R445): 4 bytes index, 4 bytes byte offset. Result: total length in 4 bytes, then up to 4,032 bytes. -/
def execCertRead (k : Nat) (s : State) : Result :=
  ifUnit (mbxOk k) (s.command k 0x0606 (fun _ => 8) (fun _ m => firstBad [(decide (5 < m.get 0 4), 0)]) (fun s m =>
    let c := Config.certificate (m.get 0 4)
    s.done k m (toLE 4 c.length ++ slice c (m.get 4 4) 4032)))

-- recovery (R444)

/-- RECOVERY_IMAGE_STREAM: an image that passes goes into slot A, is made active, and a warm reset follows. -/
def execRecoveryImageStream (image : List Byte) (s : State) : Result :=
  .next (
    if s.fld Fld.sstate = 3 ∧ s.imageOk image then
      ((s.setSlotFw 0 ⟨true, fieldLE image 8 2, image⟩).onMram (fun m => { m with active := 0 })).warmReboot
    else s)

/-- RECOVERY_D3_GRANT: the grant of R454 over I3C. -/
def execRecoveryD3Grant (grant : List Byte) (s : State) : Result :=
  .next (
    if s.fld Fld.sstate ≠ 3 then s
    else if s.d3Grant grant then s.enterD3.unlocked 3
    else s.bump Fld.authFail 1)

/-- UNKNOWN_COMMAND (R11, R405): a code that is reserved or not implemented. -/
def execUnknownCommand (k : Nat) (s : State) : Result :=
  ifUnit (mbxOk k) (
    if s.served ∧ s.host.order.head? = some k ∧ s.mbxState k = .posted ∧ !((s.msg k).code ∈ commandCodes) then
      s.reject k (s.msg k) Status.unknownCommand 0
    else s)

end Sys2Proof.Machine
end

