-- ==== Sys2Proof/Machine/PowerCmd.lean ====
section
/-! DEFINITION. Commands of the 0x0700 range (R243, R404, R426, R427, R432, R471, R475, R477, R478), and the pins and timers that
end module and storage commands (R418, R492). -/
namespace Sys2Proof.Machine

-- power states (R426, R427, R456)

/-- The transition to power state `t` is permitted now (R426, R456). -/
def State.mayEnter (s : State) (t : Nat) : Bool :=
  match t with
  | 0 => true
  | 1 => !s.armed && decide (s.fld Fld.debug ≠ 3)
  | 2 => !s.bound && decide (s.fld Fld.debug ≠ 3)
  | _ => !s.bound

/-- POWER_STATE_SET (R427): 4 bytes, the state in [2:0]. -/
def execPowerStateSet (k : Nat) (s : State) : Result :=
  ifUnit (mbxOk k) (s.command k 0x0701 (fun _ => 4) (fun _ m => firstBad [(decide (4 < m.get 0 4), 0)]) (fun s m =>
    if !s.mayEnter (m.get 0 4) then s.wrongState k m else s.startLong k m [] id))

/-- The power state in its two registers (R392, R433). -/
def State.setPstate (s : State) (t : Nat) : State := (s.setFld Fld.pstate t).setFld Fld.devPstate t

/-- Ports in service go down with the accelerator and fabric dies, which keep nothing but job HBM (R426). -/
def State.enterRetention (s : State) : State :=
  let s1 := (List.range 48).foldl (fun s p => if s.fld (Fld.portState p) = 0 then s else s.portDown p) s
  { s1 with
    mem := s1.mem.filter (fun c => decide (c.1 < hbmSize))
    tags := s1.tags.filter (fun e => decide (e.1 * 4096 < hbmSize))
    cores := { s1.cores with vregs := [], mregs := [], vl := [] } }

/-- The PCIe link down and the module in reset: PS3 and PS4, which take the debug level down to what their rows of R456 keep. -/
def State.enterStandby (s : State) (t : Nat) : State :=
  let level := if t = 4 ∨ s.fld Fld.sstate = 4 then 0 else min 1 (s.fld Fld.debug)
  let s1 := (s.onHost (fun h => { h with linkUp := false })).onBoard (fun b => { b with
    modPerstLow := true, pwrOffOk := decide (t = 4) })
  if s1.fld Fld.debug = level then s1 else s1.setDebug level

/-- POWER_STATE_SET carried out: its event comes before the link goes down (R427). A transition that has become impermissible ends
as WRONG_STATE. -/
def State.endPowerState (s : State) (l : Long) : State :=
  let t := fieldLE l.body 0 4
  let was := s.fld Fld.pstate
  if !s.mayEnter t then s.endLong l Status.wrongState (s.reg Reg.devState).toNat
  else if 3 ≤ t then ((s.endLong l Status.success 0).setPstate t).enterStandby t
  else
    let s1 := s.setPstate t
    let s2 := if t = 2 ∧ was ≠ 2 then s1.enterRetention
      else if was = 2 ∧ t ≠ 2 then (List.range 48).foldl (fun s p => s.trainPort p) s1
      else s1
    s2.endLong l Status.success 0

-- cap and status (R432, R433)

/-- POWER_CAP_SET (R432): the values come into force at the next evaluation. -/
def execPowerCapSet (k : Nat) (s : State) : Result :=
  ifUnit (mbxOk k) (s.command k 0x0702 (fun _ => 4)
    (fun _ m => firstBad [(decide (m.get 0 2 < 1500 ∨ 3600 < m.get 0 2 ∨ m.get 2 2 < 20 ∨ 80 < m.get 2 2), 0)]) (fun s m =>
    (s.onPower (fun p => { p with next := some (m.get 0 2, m.get 2 2) })).done k m []))

/-- POWER_STATUS (R432): the power page. -/
def execPowerStatus (k : Nat) (s : State) : Result :=
  ifUnit (mbxOk k) (s.plain k 0x0703 (fun s m => s.done k m (s.regPage Reg.pwrCap 0x40)))

-- self-test (R475)

/-- SELF_TEST (R475): 4 bytes mask; in PS0 with no job. Under bit 7 every port reads "no link". -/
def execSelfTest (k found ending : Nat) (units : List TestUnit) (s : State) : Result :=
  ifUnit (mbxOk k && units.all selfTestUnit) (s.command k 0x0710 (fun _ => 4) (fun _ m => firstBad [(decide (255 < m.get 0 4), 0)]) (fun s m =>
    if !s.ps0 || s.bound then s.wrongState k m
    else s.startLong k m [] (fun s =>
      let s1 := s.onTests (fun t => { t with self := some (found, ending, units) })
      if bitOf (m.get 0 4) 7 then
        (List.range 48).foldl (fun s p => (s.portDown p).setFld (Fld.portState p) 6) s1
      else s1)))

/-- SELF_TEST carried out: units retire, the detail is the bitmap of the mask bits that found a fault, and a fault that ends the
device does so. -/
def State.endSelfTest (s : State) (l : Long) : State :=
  let mask := fieldLE l.body 0 4
  let (found, ending, units) := s.tests.self.getD (0, 0, [])
  let us := units.filter (fun u => bitOf mask (selfTestBit u))
  let bits := (us.foldl (fun v u => setBit v (selfTestBit u)) (found ||| ending)) &&& mask
  let s1 := s.onTests (fun t => { t with self := none })
  let s2 := if bitOf mask 7 then (List.range 48).foldl (fun s p => s.trainPort p) s1 else s1
  let s3 := us.foldl (fun s u => s.testOut u) s2
  let s4 := if ending &&& mask ≠ 0 then s3.endDeviceOther else s3
  s4.endLong l Status.success bits

/-- ONLINE_TEST_SET (R471): the setting comes into force at the next tick boundary. -/
def execOnlineTestSet (k : Nat) (s : State) : Result :=
  ifUnit (mbxOk k) (s.command k 0x0711 (fun _ => 4)
    (fun _ m => firstBad [(decide (2 ^ 20 ≤ m.get 0 4 ∨ m.get 0 4 / 16 % 65536 < 1 ∨ 720 < m.get 0 4 / 16 % 65536), 0)]) (fun s m =>
    (s.onTests (fun t => { t with setting := some (m.get 0 4) })).done k m []))

/-- TEST_STATUS (R478): the test page. -/
def execTestStatus (k : Nat) (s : State) : Result :=
  ifUnit (mbxOk k) (s.plain k 0x0712 (fun s m => s.done k m (s.regPage Reg.testCtrl 0x28)))

-- memory (R243)

/-- MEM_REPAIR_APPLY (R232, R243): a maintenance window has no job. -/
def execMemRepairApply (k : Nat) (s : State) : Result :=
  ifUnit (mbxOk k) (s.plain k 0x0720 (fun s m => if s.bound then s.wrongState k m else s.startLong k m [] id))

/-- MEM_HEALTH (R243, R240, R241): of each stack its registers 0x000 to 0x01F and its channel registers, then HBM_RESERVE (log
entry 13). -/
def execMemHealth (k : Nat) (s : State) : Result :=
  ifUnit (mbxOk k) (s.plain k 0x0721 (fun s m =>
    s.done k m ((List.range 12).flatMap (fun t => s.regPage (Reg.hbmPage t) 0x20 ++ s.regPage (Reg.hbmPage t + 0x100) 0x80)
      ++ s.reg32 Reg.reserve)))

-- fault log (R477)

/-- The 32 bytes of an entry. -/
def FaultEntry.bytes (e : FaultEntry) : List Byte :=
  toLE 8 e.time ++ toLE 8 e.tick ++ toLE 2 e.cls ++ toLE 2 e.unit ++ toLE 2 e.sub ++ toLE 1 e.outcome ++ toLE 1 0 ++ toLE 4 e.absorb
    ++ toLE 4 e.detail

/-- FAULT_LOG_READ (R477): the newest 4,096 entries can be read, by their index among all ever written. -/
def execFaultLogRead (k : Nat) (s : State) : Result :=
  ifUnit (mbxOk k) (s.command k 0x0730 (fun _ => 4) (fun _ _ => none) (fun s m =>
    let n := (s.reg Reg.faultLogged).toNat
    let first := n - s.mram.faultLog.length
    let es := (s.mram.faultLog.drop (m.get 0 4 - first)).take 126
    s.done k m (toLE 8 n ++ toLE 24 0 ++ es.flatMap (fun e => e.bytes))))

-- module and storage (R418, R492)

/-- MOD_PRSNT_CHANGE (R492): a checkpoint in progress fails as a module error; the NVMe status of its detail is open. -/
def execModPrsntChange (present : Bool) (s : State) : Result :=
  .next (
    let s1 := ((s.onCkpt (fun c => { c with modulePresent := present })).setFld Fld.modPresent (if present then 1 else 0)).setFld
      Fld.moduleReady 0
    let (v, s2) := s1.upTo 0xFFFF
    (s2.failCheckpoint Status.moduleError v true).endExport Status.moduleError v)

/-- The storage target of a long command that has one: JOB_ADMIT, FW_STAGE and CONFIG_RECORD_WRITE from storage, CKP_EXPORT and
CKP_RESTORE. -/
def longTarget (l : Long) : Option Nat :=
  if l.code = 0x101 ∨ l.code = 0x602 ∨ l.code = 0x604 then (if fieldLE l.body 0 1 = 1 then some (fieldLE l.body 4 4) else none)
  else if l.code = 0x404 then some (fieldLE l.body 4 4)
  else none

/-- The status of the last NVMe command of a target. -/
def State.targetStatus (s : State) (i v : Nat) : State :=
  match Tab.find? s.host.targets i with
  | some t => s.onHost (fun h => { h with targets := Tab.put i { t with lastStatus := v } h.targets })
  | none => s


/-- A long command fails: an admission leaves READY, an export its slot, a checkpoint its target, a restore its pieces (R376, R380,
R392). -/
def State.failLong (s : State) (l : Long) (status detail : Nat) : State :=
  if l.code = 0x404 then s.endExport status detail
  else if l.code = 0x401 then s.failCheckpoint status detail true
  else if l.code = 0x405 then s.failRestore status detail
  else if l.code = 0x101 then s.unbind.endLong l status detail
  else s.endLong l status detail

/-- STORAGE_COMMAND_TIMEOUT (R405, R418): the command fails as STORAGE_ERROR; the NVMe status is open. -/
def execStorageCommandTimeout (k : Nat) (s : State) : Result :=
  ifUnit (mbxOk k || decide (k = srcDevice)) (
    match s.host.longs.find? (fun l => decide (l.mbx = k) && decide (l.ended = none) && (longTarget l).isSome) with
    | none => s
    | some l =>
      let (v, s1) := s.upTo 0xFFFF
      (s1.targetStatus ((longTarget l).getD 0) v).failLong l Status.storageError v)

end Sys2Proof.Machine
end

