-- ==== Sys2Proof/Machine/Host.lean ====
section
/-! DEFINITION. The host interface (R386 to R410, R461): doorbells and mailbox pages, the end of long commands, the event ring's
registers, BAR0 and BAR2 accesses, the PCIe link, function resets, and remote mailboxes (R403, R451). -/
namespace Sys2Proof.Machine

/-- BAR accesses reach the function (R427). -/
def State.barOpen (s : State) : Bool := s.host.linkUp && !s.host.d3hot

-- doorbells and pages (R398, R399)

/-- A message posted in mailbox k. -/
def State.post (s : State) (k : Nat) : State :=
  ((s.setMbx k .posted).setBusy k true).onHost (fun h => { h with order := h.order ++ [k] })

/-- A host doorbell on mailbox k (R398, R403, R415). -/
def State.ring (s : State) (k : Nat) : State :=
  if !s.barOpen || s.isRemote k then s
  else if s.served && decide (s.mbxState k = .idle) then s.post k
  else s.bump Fld.ringIgnored 1

/-- The mailbox is the device's: writes to its page are dropped. -/
def State.mbxTaken (s : State) (k : Nat) : Bool := decide (s.mbxState k = .posted) || decide (s.mbxState k = .executing)

/-- Bytes written to mailbox page k (R398). -/
def State.writePage (s : State) (k offset : Nat) (data : List Byte) : State :=
  if s.mbxTaken k then s.bump Fld.writeDropped 1 else s.setPage k offset data

/-- MBX_DONE bits written 1: done mailboxes become idle. -/
def State.clearDone (s : State) (mask : Nat) : State :=
  (List.range 64).foldl (fun s k => if bitOf mask k && decide (s.mbxState k = .done) then (s.setMbx k .idle).setDone k false else s) s

-- the end of long commands (R400)

/-- What a long command of each code does at its end; a code that is not here ends by an event of its own. -/
def State.carryOut (s : State) (l : Long) : State :=
  match l.code with
  | 0x101 =>
    let s1 := match longTarget l with
      | some t => s.storageMoved t l.ext.length 0
      | none => s
    s1.endAdmit l
  | 0x102 => if s.tooHot then s else s.finishReset.endLong l Status.success 0
  | 0x404 =>
    let n := (match s.ckpt.exporting with
      | some i => (s.slot i).bytes.length
      | none => 0)
    (s.storageMoved (fieldLE l.body 4 4) 0 n).endExport Status.success 0
  | 0x405 =>
    let status := fieldLE l.ext 0 2
    if status = Status.success then s.endRestore status (fieldLE l.ext 2 8) else s.failRestore status (fieldLE l.ext 2 8)
  | 0x602 => s.endFwStage l
  | 0x603 => s.endFwActivate l
  | 0x604 => s.endConfigWrite l
  | 0x701 => s.endPowerState l
  | 0x710 => s.endSelfTest l
  | 0x720 => s.hardRepair.endLong l Status.success 0
  | 0x809 =>
    let ps := if fieldLE l.body 0 1 = 0xFF then List.range 48 else [fieldLE l.body 0 1]
    (ps.foldl (fun s p => if s.fld (Fld.portState p) = 1 ∧ !(s.port p).retraining then s.setFld (Fld.portState p) 6 else s) s).endLong l
      Status.success 0
  | _ => s

/-- A long command ends as the module, the storage target or the firmware made it end (R405): an INTERNAL_ERROR is followed by a
FIRMWARE event. -/
def State.endBadly (s : State) (l : Long) (e : Ending) : State :=
  let s1 := match longTarget l with
    | some t => if e.status = Status.storageError then s.targetStatus t e.detail else s
    | none => s
  let s2 := s1.failLong l e.status e.detail
  if e.status = Status.internalError then s2.postEvent (s2.newEvent 0x1B Status.internalError srcDevice 1 e.detail) else s2

/-- Statuses that something outside the device's own checks gives a long command. -/
def outsideStatus (l : Long) (v : Nat) : Bool :=
  (decide (v = Status.storageError) && ((longTarget l).isSome || decide (l.code = 0x405))) ||
    (decide (v = Status.moduleError) && decide (l.code = 0x404 ∨ l.code = 0x405)) ||
    decide (v = Status.internalError)

/-- Codes that LONG_COMMAND_DONE ends; the others of R404 end by events of their own. -/
def endedByDone : List Nat := [0x101, 0x102, 0x404, 0x405, 0x602, 0x603, 0x604, 0x701, 0x710, 0x720, 0x809]

/-- The job reset of a function reset (R410) is no command: it ends without an event. -/
def State.ownReset (s : State) (l : Long) : State :=
  if s.tooHot then s else (s.onHost (fun h => { h with longs := h.longs.filter (fun m => m ≠ l) })).finishReset

-- the event ring's registers (R406)

/-- A write to MBX_EVT_CTRL: the size while the ring is disabled; enabling resets head and tail and releases held events. -/
def State.writeEvtCtrl (s : State) (v : Nat) : State :=
  if s.fld Fld.evtEnable = 1 then s.setFld Fld.evtEnable (v / 2 ^ 31 % 2)
  else
    let n := v % 32
    let s1 := if 6 ≤ n ∧ n ≤ 16 then s.setFld Fld.evtLog2 n else s
    if v / 2 ^ 31 % 2 = 1 then (((s1.setReg Reg.evtHead 0).setReg Reg.evtTail 0).setFld Fld.evtEnable 1).flushEvents else s1

def State.writeEvtHead (s : State) (v : Nat) : State := (s.setReg Reg.evtHead (BitVec.ofNat 64 (v % 2 ^ 32))).flushEvents

-- BAR0 (R390, R391, R461)

/-- What a BAR0 offset is. -/
inductive Bar0Area where
  | registers | page (k : Nat) | msix | pba | view | counts | snapRegs | snapCounts | winSel | window | none_
  deriving DecidableEq, Repr

def bar0Area (o : Nat) : Bar0Area :=
  if o < 0x2000 ∨ (0x100000 ≤ o ∧ o < 0x101000) then .registers
  else if 0x10000 ≤ o ∧ o < 0x50000 then .page ((o - 0x10000) / 4096)
  else if 0x110000 ≤ o ∧ o < 0x118000 then .msix
  else if 0x118000 ≤ o ∧ o < 0x118100 then .pba
  else if 0x400000 ≤ o ∧ o < 0x800000 then .view
  else if 0x1000000 ≤ o ∧ o < 0x1800000 then .counts
  else if 0x2000000 ≤ o ∧ o < 0x2400000 then .snapRegs
  else if 0x2400000 ≤ o ∧ o < 0x2C00000 then .snapCounts
  else if 0x2C00000 ≤ o ∧ o < 0x2C00008 then .winSel
  else if 0x3000000 ≤ o ∧ o < 0x4000000 then .window
  else .none_

/-- The least debug level of an access to the snapshot readout (R391, R461). -/
def snapLevel (o : Nat) (write : Bool) : Nat :=
  if o < 0x2000000 ∨ 0x4000000 ≤ o then 0 else if 0x2C00008 ≤ o ∨ (write ∧ 0x2C00000 ≤ o) then 2 else 1

/-- The access is refused and counts (R391). -/
def State.bar0Refuses (s : State) (a : Bar0Access) : Bool :=
  (a.write && decide (bar0Area a.offset = .view ∨ bar0Area a.offset = .counts)) || decide (s.fld Fld.debug < snapLevel a.offset a.write)

/-- The size and alignment are those that register pages, the view and the count windows accept (R391). -/
def bar0Fits (a : Bar0Access) : Bool :=
  !decide (bar0Area a.offset = .registers ∨ bar0Area a.offset = .view ∨ bar0Area a.offset = .counts) ||
    (decide (a.size = 4 ∨ a.size = 8) && decide (a.offset % a.size = 0))

/-- A latched register (R458, R461). -/
def State.snapReg (s : State) (x : Nat) : Word64 :=
  if s.snap.held then (Tab.find? s.snap.regs x).getD (Reg.resetValue x) else 0

/-- 4 bytes of the debug memory window at offset y (R461). -/
def State.windowByte (s : State) (y : Nat) : Byte :=
  let n := s.fld Fld.winIndex
  let tagAt (t j : Nat) : Byte :=
    let g := Tab.get Tag.none s.tags t
    (toLE 8 (g.crc.toNat + if g.isSealed then 2 ^ 32 else 0)).getD j 0
  match s.fld Fld.winKind with
  | 0 =>
    let a := s.fld Fld.winBase / 2 ^ 24 * 2 ^ 24 + y
    if a < hbmSize ∧ s.backed (segOf a) then (s.rd a 1).headD 0 else 0
  | 1 =>
    if 192 ≤ n then 0
    else if y < storeSize then (s.rd (coreStore n + y) 1).headD 0
    else if y < storeSize + 2048 * 8 then tagAt (coreStore n / 4096 + (y - storeSize) / 8) (y % 8)
    else 0
  | 2 =>
    if 12 ≤ n then 0
    else if y < scratchSize then (s.rd (stackScratch n + y) 1).headD 0
    else if y < scratchSize + 1024 * 8 then tagAt (stackScratch n / 4096 + (y - scratchSize) / 8) (y % 8)
    else 0
  | _ =>
    if 192 ≤ n then 0
    else if y < 0x4000 then (toLE 512 (s.vreg n (y / 512)).toNat).getD (y % 512) 0
    else if y < 0x4200 then (toLE 64 (s.mreg n ((y - 0x4000) / 64)).toNat).getD (y % 64) 0
    else (toLE 8 (Tab.get 0 s.cores.vl n)).getD (y - 0x4200) 0

/-- What a BAR0 byte reads (R390, R461). Only MBX_DOORBELL is write-only. -/
def State.bar0Byte (s : State) (o : Nat) : Byte :=
  match bar0Area o with
  | .registers =>
    if o / 4 * 4 = 0x1000 then 0 else (s.regBytes (Reg.bar0 + o) 1).headD 0
  | .page k => Tab.get 0 s.host.pages (k * 4096 + o % 4096)
  | .msix =>
    let i := (o - 0x110000) / 4
    (toLE 4 (Tab.get (if i % 4 = 3 then 1 else 0) s.host.msixTable i).toNat).getD (o % 4) 0
  | .pba => BitVec.ofNat 8 ((List.range 8).foldl (fun v b => if ((o - 0x118000) * 8 + b) ∈ s.host.msixPending then setBit v b else v) 0)
  | .view => (s.regBytes (o - 0x400000) 1).headD 0
  | .counts => (s.regBytes o 1).headD 0
  | .snapRegs =>
    let x := o - 0x2000000
    let k := if Reg.is64 (x / 8 * 8) then x / 8 * 8 else x / 4 * 4
    (toLE 8 (s.snapReg k).toNat).getD (x - k) 0
  | .snapCounts => (toLE 8 (Tab.get 0 s.snap.counts ((o - 0x2400000) / 8)).toNat).getD (o % 8) 0
  | .winSel => (s.regBytes (Reg.bar0 + o) 1).headD 0
  | .window => s.windowByte (o - 0x3000000)
  | .none_ => 0

/-- A read of BAR0, as it completes (R391). -/
def State.bar0Read (s : State) (a : Bar0Access) : State :=
  if s.bar0Refuses a then (s.bump Fld.denied 1).send (.hostCompletion (toLE a.size 0))
  else if !bar0Fits a then s.send .unsupportedRequest
  else s.send (.hostCompletion ((List.range a.size).map (fun i => s.bar0Byte (a.offset + i))))

/-- Bits of a register that a write sets (R12), on one 32-bit half. -/
def State.writeHalf (s : State) (key : Nat) (high : Bool) (mask v : Nat) : State :=
  let sh := if high then 32 else 0
  let m : Word64 := BitVec.ofNat 64 mask &&& BitVec.ofNat 64 ((2 ^ 32 - 1) <<< sh)
  s.setReg key ((s.reg key &&& ~~~m) ||| (BitVec.ofNat 64 (v <<< sh) &&& m))

/-- A word of the MSI-X table (R409): a pending vector that it unmasks is signalled. -/
def State.writeMsix (s : State) (i v : Nat) : State :=
  let s1 := s.onHost (fun h => { h with msixTable := Tab.put i (BitVec.ofNat 32 v) h.msixTable })
  if i / 4 ∈ s1.host.msixPending ∧ !s1.msixMasked (i / 4) then
    (s1.onHost (fun h => { h with msixPending := h.msixPending.filter (fun x => x ≠ i / 4) })).signalVector (i / 4)
  else s1

/-- Bits of SNP_WIN_SEL that a write of value `v` to its upper or lower word sets: not the index where it is above 191, which names no
core and no stack (R11, R461). R461 does not say what a base that is no multiple of 16 MiB does: its low 24 bits are dropped (DESIGN
CHOICE, log entry 119). -/
def winMask (high : Bool) (v : Nat) : Nat :=
  if high && decide (192 ≤ bitsOf v 23 16) then 0xC000FFFFFF000000 else 0xC0FFFFFFFF000000

/-- A write of one 32-bit word of BAR0 (R12, R392, R399, R406, R461): fields that are RO, and offsets not listed, ignore it. -/
def State.writeWord (s : State) (o v : Nat) : State :=
  let high := decide (o % 8 = 4)
  if o = 0x10 ∨ o = 0x14 then s.writeHalf Reg.bar2Base high (2 ^ 48 - s.host.bar2Gib * 2 ^ 30) v
  else if o = 0x18 ∨ o = 0x1C then s.writeHalf Reg.hostWinBase high (2 ^ 64 - 4096) v
  else if o = 0x1000 then s.ring (v % 64)
  else if o = 0x1010 ∨ o = 0x1014 then s.clearDone (if high then v * 2 ^ 32 else v)
  else if o = 0x100000 ∨ o = 0x100004 then
    (if s.fld Fld.evtEnable = 1 then s else s.writeHalf Reg.evtBase high (2 ^ 64 - 4096) v)
  else if o = 0x100008 then s.writeEvtCtrl v
  else if o = 0x10000C then s.writeEvtHead v
  else if o = 0x2C00000 ∨ o = 0x2C00004 then s.writeHalf Reg.winSel high (winMask high v) v
  else if 0x110000 ≤ o ∧ o < 0x118000 then s.writeMsix ((o - 0x110000) / 4) v
  else s

/-- A write that begins in mailbox page k: pages take writes of any size and alignment (R391); what lies past the page goes on into the
next. -/
def State.pageWrite (s : State) (k : Nat) (a : Bar0Access) : State :=
  let bs := toLE a.size a.value
  let n := 4096 - a.offset % 4096
  let s1 := s.writePage k (a.offset % 4096) (bs.take n)
  if bs.length ≤ n ∨ k = 63 then s1 else s1.writePage (k + 1) 0 (bs.drop n)

/-- A write to BAR0, as R391 lets it through. -/
def State.bar0Write (s : State) (a : Bar0Access) : State :=
  if s.bar0Refuses a then s.bump Fld.denied 1
  else if !bar0Fits a then s
  else if 0x10000 ≤ a.offset ∧ a.offset < 0x50000 then s.pageWrite ((a.offset - 0x10000) / 4096) a
  else if a.size = 8 then (s.writeWord a.offset (a.value % 2 ^ 32)).writeWord (a.offset + 4) (a.value / 2 ^ 32 % 2 ^ 32)
  else if a.size = 4 ∧ a.offset % 4 = 0 then s.writeWord a.offset (a.value % 2 ^ 32)
  else s

-- BAR2 (R393)

/-- The device-local address of a BAR2 offset; low bits of the base are ignored (R392, R410). -/
def State.bar2Addr (s : State) (y : Nat) : Nat :=
  let size := s.host.bar2Gib * 2 ^ 30
  (s.reg Reg.bar2Base).toNat % 2 ^ 48 / size * size + y

/-- A BAR2 access not performed or met by an uncorrectable line: counted, and at most one event a millisecond. -/
def State.hostFault (s : State) (status a : Nat) : State :=
  let s1 := s.bump Fld.bar2Fault 1
  if s1.host.lastHostEvent ≠ 0 ∧ s1.now < s1.host.lastHostEvent - 1 + us 1000 then s1
  else
    let s2 := s1.onHost (fun h => { h with lastHostEvent := s1.now + 1 })
    s2.postEvent (s2.newEvent 0x19 status srcDevice 1 a)

/-- The access reaches job HBM (R30, R31, R212), and the stacks serve (R239; log entry 121). -/
def State.bar2Reaches (s : State) (write : Bool) (y n : Nat) : Bool :=
  decide (y + n ≤ s.host.bar2Gib * 2 ^ 30) && s.mayReach .host write (s.bar2Addr y) n && decide (rangeOf (s.bar2Addr y) = .hbm) &&
    (touchedTiles (s.bar2Addr y) n).all (fun t => s.stackServes (s.stackOf (t * 4096)))

/-- BAR2_READ (R393): never verified against tile checksums. `uncorrectable`: it meets a line with an uncorrectable error that
nothing had found. -/
def execBar2Read (offset len : Nat) (uncorrectable : Bool) (s : State) : Result :=
  .next (
    let a := s.bar2Addr offset
    if !s.barOpen then s
    else if !s.bar2Reaches false offset len then (s.hostFault Status.addressFault a).send (.hostCompletion (List.replicate len 0))
    else
      let s1 := if uncorrectable && decide (0 < len) then s.findBad a len else s
      if s1.badIn a len = [] then s1.send (.hostCompletion (s1.rd a len))
      else ((s1.badRead (s1.badIn a len)).hostFault Status.integrityFault a).send .completerAbort)

/-- A BAR2 write performed (R393, R394): a job HBM write under every rule of one. -/
def State.bar2Write (s : State) (offset : Nat) (data : List Byte) : State :=
  let a := s.bar2Addr offset
  if !s.bar2Reaches true offset data.length then s.hostFault Status.addressFault a else s.write .host a data

-- producer slots (R291)

/-- Host agent of R279. -/
def QDef.hostFed (d : QDef) : Bool := d.producer >>> 30 = 2

/-- A host write dropped: counted at the home engine where the queue has one, and posted (R291, R297, R408). -/
def State.hostDrop (s : State) (q : Nat) (noRoom : Bool) : State :=
  let t := s.qHome q
  let s1 :=
    if (s.qdef? q).isSome then
      s.bump (if noRoom then ⟨Reg.queHostDrop t, 31, 0⟩ else ⟨Reg.queHostDrop t, 63, 32⟩) 1
    else s
  s1.postEvent (s1.newEvent 0x13 0 srcDevice 1 (q + (if noRoom then 2 ^ 20 else 0)))

/-- One piece of a BAR4 write that lies in one producer slot: a whole entry is a one-entry packet; a part of an entry, or a queue
that the host does not feed, is dropped. -/
def State.hostPiece (s : State) (offset : Nat) (bs : List Byte) : State :=
  let q := offset / 64
  if offset % 64 ≠ 0 ∨ bs.length ≠ 64 ∨ !(s.qdef? q).any (fun d => d.hostFed) then s.hostDrop q false
  else s.ask q (.of 1 1 [bs] .host s.now)

/-- A BAR4 write cut at the slots' boundaries. -/
def slotPieces (offset : Nat) (bs : List Byte) : List (Nat × List Byte) :=
  let head := 64 - offset % 64
  if bs = [] then []
  else (offset, bs.take head) ::
    ((chunksOf 64 bs.length (bs.drop head)).zipIdx.map (fun p => (offset + head + p.2 * 64, p.1)))

-- posted writes in their order (R291)

/-- A posted write carried out: nothing where BAR accesses no longer reach the function. -/
def State.carryWrite (s : State) (w : HostWrite) : State :=
  if !s.barOpen then s
  else
    match w with
    | .doorbell k => s.ring k
    | .page k o bs => s.writePage k o bs
    | .doneClear m => s.clearDone m
    | .evtEnable v => s.writeEvtCtrl v
    | .evtHead v => s.writeEvtHead v
    | .bar0 a => s.bar0Write a
    | .bar2 o bs => s.bar2Write o bs
    | .slot o bs => s.hostPiece o bs

/-- A host write is held: its queue lacks room, or could not take it yet (R291). -/
def State.hostHeld (s : State) : Bool := s.queues.any (fun e => e.2.waiting.any (fun w => decide (w.origin = .host)))

/-- A posted write takes its turn: it waits while a host write is held, or others wait before it (R291). -/
def State.postWrite (s : State) (w : HostWrite) : State :=
  if s.hostHeld || !s.host.posted.isEmpty then s.onHost (fun h => { h with posted := h.posted ++ [w] }) else s.carryWrite w

/-- The posted writes that wait go on, in their order, as far as no write is held. -/
def State.releasePosted (s : State) : State :=
  s.host.posted.foldl (fun s w => s.postWrite w) (s.onHost (fun h => { h with posted := [] }))

/-- A posted write that reaches the function, behind those that wait. -/
def State.takeWrite (s : State) (w : HostWrite) : State := if s.barOpen then s.releasePosted.postWrite w else s

/-- MBX_DOORBELL (R398). -/
def execMbxDoorbell (k : Nat) (s : State) : Result := ifUnit (mbxOk k) (s.takeWrite (.doorbell k))

/-- MAILBOX_PAGE_WRITE (R391, R398). -/
def execMailboxPageWrite (k offset : Nat) (data : List Byte) (s : State) : Result :=
  ifUnit (mbxOk k && decide (offset + data.length ≤ 4096)) (s.takeWrite (.page k offset data))

/-- MBX_DONE_CLEAR (R398, R410). -/
def execMbxDoneClear (mask : Nat) (s : State) : Result := .next (s.takeWrite (.doneClear mask))

/-- MBX_EVT_ENABLE (R406). -/
def execMbxEvtEnable (value : Nat) (s : State) : Result := .next (s.takeWrite (.evtEnable value))

/-- MBX_EVT_HEAD_WRITE (R406). -/
def execMbxEvtHeadWrite (value : Nat) (s : State) : Result := .next (s.takeWrite (.evtHead value))

/-- REGISTER_WRITE (R12, R391): at BAR0 offset `offset`. -/
def execRegisterWrite (offset size value : Nat) (s : State) : Result :=
  .next (s.takeWrite (.bar0 ⟨true, offset, size, value⟩))

/-- BAR0_REFUSED_ACCESS (R391): a read is not held (R291). -/
def execBar0RefusedAccess (a : Bar0Access) (s : State) : Result :=
  .next (if !s.barOpen then s else if a.write then s.takeWrite (.bar0 a) else s.bar0Read a)

/-- BAR2_WRITE (R393, R394). -/
def execBar2Write (offset : Nat) (data : List Byte) (s : State) : Result := .next (s.takeWrite (.bar2 offset data))

/-- HOST_ENQUEUE (R291): the pieces of the write in their slots, in order; one is held while its queue lacks room. -/
def execHostEnqueue (offset : Nat) (data : List Byte) (s : State) : Result :=
  ifUnit (decide (offset + data.length ≤ 262144 * 64))
    ((slotPieces offset data).foldl (fun s p => s.takeWrite (.slot p.1 p.2)) s)

/-- LONG_COMMAND_DONE (R400, R402): the oldest long command of mailbox k, or of the device, that ends so. Host writes that a queue of
the job held go on when it is gone. -/
def execLongCommandDone (k : Nat) (e : Ending) (s : State) : Result :=
  ifUnit (mbxOk k || decide (k = srcDevice)) (
    match s.host.longs.find? (fun l => decide (l.mbx = k) && decide (l.ended = none) &&
        (decide (l.code ∈ endedByDone) || decide (e.status = Status.internalError))) with
    | none => s
    | some l =>
      if l.code = 0x102 ∧ k = srcDevice then (s.ownReset l).releasePosted
      else if outsideStatus l e.status then s.endBadly l e
      else (s.carryOut l).releasePosted)

-- host-window requests (R388, R396)

/-- A host-window request that did not complete: its op ends with ADDRESS_FAULT. -/
def State.failHostReq (s : State) (id req : Nat) : State :=
  match s.op? id with
  | none => s
  | some o =>
    match o.requests.find? (fun r => decide (r.num = req) && (decide (r.path = .hostRead) || decide (r.path = .hostWrite))) with
    | none => s
    | some r => s.requestDone (o.failed Status.addressFault r.addr) req none

/-- Every host-window request under way fails: the link is down, or Bus Master Enable is clear (R396). -/
def State.failHostWindow (s : State) : State :=
  (s.cores.inflight.flatMap (fun o => o.requests.map (fun r => (o.id, r.num)))).foldl (fun s e => s.failHostReq e.1 e.2) s

/-- HOST_COMPLETION_TIMEOUT (R396). -/
def execHostCompletionTimeout (id req : Nat) (s : State) : Result := .next (s.failHostReq id req)

/-- POISONED_TLP (R388): a write is not performed, a completion counts as a completion timeout. -/
def execPoisonedTlp (write : Bool) (id req : Nat) (s : State) : Result :=
  .next (if !s.host.linkUp then s else if write then s.send .aer else (s.send .aer).failHostReq id req)

-- the link and the function (R387, R408, R410, R427)

/-- PCIE_LINK_DOWN (R387). Writes of the host that waited are lost with the link (DESIGN CHOICE, log entry 120). -/
def execPcieLinkDown (s : State) : Result := .next ((s.onHost (fun h => { h with linkUp := false, posted := [] })).failHostWindow)

/-- PCIE_LINK_UP (R387, R392, R491): the strapped width, and the highest rate that both ends support, as a DEV_LINK code. -/
def execPcieLinkUp (hostRate : Nat) (s : State) : Result :=
  .next (
    if s.board.perstLow ∨ s.heldCold ∨ 3 ≤ s.fld Fld.pstate ∨ hostRate = 0 then s
    else
      let w := if s.board.straps.width = 3 then 0 else if s.board.straps.width = 2 then 8 else 4
      (((s.setFld Fld.linkWidth w).setFld Fld.linkRate (min hostRate 7)).onHost (fun h => { h with linkUp := true })).flushEvents)

/-- The host interface as R410 leaves it; Bus Master Enable and the PCI-PM state return to their reset values as the standard
has it (PRESUMED, log entry 32). -/
def State.resetFunction (s : State) : State :=
  let s1 := s.onHost (fun h => { h with mbx := [], order := [], longs := [], held := [], msixOn := false, busMaster := false, d3hot := false })
  ((((((s1.setReg Reg.mbxBusy 0).setReg Reg.mbxDone 0).setFld Fld.evtEnable 0).setReg Reg.bar2Base 0).setReg Reg.hostWinBase 0).setFld Fld.held 0)

/-- A function reset: a job reset, which ends at LONG_COMMAND_DONE of the device itself, and the host interface reset (R410). -/
def State.functionReset (s : State) : State :=
  if !s.served ∨ s.fld Fld.state = 0 then s.resetFunction
  else
    let s1 := s.resetFunction.failHostWindow.beginReset.resetFunction
    s1.onHost (fun h => { h with longs := [⟨srcDevice, 0x0102, 0, false, none, [], []⟩] })

/-- FUNCTION_LEVEL_RESET (R410). -/
def execFunctionLevelReset (s : State) : Result := .next (if s.host.linkUp then s.functionReset else s)

/-- PCIE_HOT_RESET (R410). -/
def execPcieHotReset (s : State) : Result :=
  .next (if s.host.linkUp then (s.onHost (fun h => { h with posted := [] })).functionReset else s)

/-- PCIE_CONFIGURATION_WRITE (R386, R389, R408, R427). -/
def execPcieConfigurationWrite (c : PcieConfig) (s : State) : Result :=
  .next (
    if !s.host.linkUp then s
    else
      match c with
      | .busMaster true => (s.onHost (fun h => { h with busMaster := true })).flushEvents
      | .busMaster false => (s.onHost (fun h => { h with busMaster := false })).failHostWindow
      | .powerD3hot d3 => (s.onHost (fun h => { h with d3hot := d3 })).flushEvents
      | .resizeBar2 gib => if gib ∈ [1, 2, 4, 8, 16, 32, 64] then s.onHost (fun h => { h with bar2Gib := gib }) else s
      | .msixEnable on => s.onHost (fun h => { h with msixOn := on }))

-- remote mailboxes (R403, R451)

/-- The operator key i of the REMOTE_MAILBOX record: exponent and modulus. -/
def State.operatorKey (s : State) (i : Nat) : List Byte := slice s.remoteRecord (0x18 + 388 * i) 388

/-- A kept response sent again. -/
def State.resendKept (s : State) (d : Datagram) (r : List Byte) : State := if r = [] then s else s.send (.datagram d.srcIp d.srcPort r)

/-- An authenticated datagram's message for mailbox k (R398, R403): a repeated sequence receives the kept response; a mailbox whose
response has gone out takes a new message. -/
def State.takeRemote (s : State) (d : Datagram) (k key : Nat) (msg : List Byte) (counter : Nat) : State :=
  let kept := Tab.get ([], []) s.host.remoteKept k
  if s.mbxTaken k then (s.bump Fld.ringIgnored 1).bump Fld.writeDropped 1
  else
    let s1 := s.onHost (fun h => { h with remoteCount := Tab.set 0 (key * 64 + k) (counter + 1) h.remoteCount })
    if kept.2 ≠ [] ∧ fieldLE kept.2 4 4 = fieldLE msg 4 4 then
      (s1.onHost (fun h => { h with remoteKept := Tab.put k (d.bytes, kept.2) h.remoteKept })).resendKept d kept.2
    else
      let s2 := s1.onHost (fun h => { h with
        remoteKept := Tab.put k (d.bytes, []) h.remoteKept, remoteFrom := Tab.put k (d.srcIp, d.srcPort) h.remoteFrom })
      ((s2.setDone k false).setPage k 0 msg).post k

/-- REMOTE_MAILBOX_DATAGRAM (R403, R451): executed once authenticated, answered from the kept response, or discarded and counted.
A fragment is discarded and counted (R417). -/
def execRemoteMailboxDatagram (d : Datagram) (s : State) : Result :=
  ifUnit (decide (d.port < 2)) (
    if d.fragment then s.onHost (fun h => { h with ipFragments := h.ipFragments + 1 })
    else if s.fld Fld.remoteMbx ≠ 1 ∨ d.dstPort ≠ 47001 ∨ !s.served then s
    else
      let n := 32 + fieldLE d.bytes 8 2
      let msg := d.bytes.take n
      let k := 48 + fieldLE d.bytes 4 1 % 16
      let kept := Tab.get ([], []) s.host.remoteKept k
      if d.bytes = kept.1 ∧ kept.1 ≠ [] then s.resendKept d kept.2
      else if d.bytes.length ≠ n + 392 ∨ 4096 < n then s.bump Fld.authFail 1
      else
        let counter := fieldLE d.bytes n 8
        let signed := slice d.bytes n 8 ++ msg
        match (List.range (min 4 (fieldLE s.remoteRecord 1 1))).find? (fun i =>
            Config.rsaVerifies (s.operatorKey i) signed (slice d.bytes (n + 8) 384) &&
              decide (Tab.get 0 s.host.remoteCount (i * 64 + k) ≤ counter)) with
        | some key => s.takeRemote d k key msg counter
        | none => s.bump Fld.authFail 1)

end Sys2Proof.Machine
end

