-- ==== Sys2Proof/Machine/Matrix.lean ====
section
/-! DEFINITION. The matrix ops as commands (R105, R124). -/
namespace Sys2Proof.Machine

/-- MATMUL (R105 to R121): D := A × B, or A × B + C, rounded once. -/
def execMatmul (l : ListId) (r : OpRecord) (s : State) : Result :=
  ifUnit (l < 192) (if coreRecord l r [1, 2] 1 then s.issueOp l r matrixRun else s)

/-- MATMUL_PART (R105, R115, R120, R121): the records of one part of a run. -/
def execMatmulPart (l : ListId) (r : OpRecord) (s : State) : Result :=
  ifUnit (l < 192) (if coreRecord l r [1, 2] 2 then s.issueOp l r matrixRun else s)

/-- ANCHOR_GATHER (R105, R108): EA and EB, without multiplying. -/
def execAnchorGather (l : ListId) (r : OpRecord) (s : State) : Result :=
  ifUnit (l < 192) (if coreRecord l r [1, 2] 3 then s.issueOp l r matrixRun else s)

/-- PART_COMBINE (R105, R115, R120, R121): the records of a run summed and rounded once. -/
def execPartCombine (l : ListId) (r : OpRecord) (s : State) : Result :=
  ifUnit (l < 192) (if coreRecord l r [1, 2] 4 then s.issueOp l r matrixRun else s)

end Sys2Proof.Machine
end

