-- ==== Sys2Proof/Machine/QueueEvents.lean ====
section
/-! DEFINITION. What happens at the queue engines whatever the ops do (R283 to R287, R291, R367): grants, landings, fetches and
refills, write-backs of a capture, and the end of a host write's wait. A host write held for want of room is a reservation of the
host that waits. -/
namespace Sys2Proof.Machine

def queueOk (q : Nat) : Bool := decide (q < 1048576)

/-- Requests of peers and writes of the host that waited behind what has now been granted go on. -/
def State.goOnAll (s : State) : State := s.releaseHeld.releasePosted

/-- RESERVATION_GRANT (R285): room has come, or the host's writes before it have been performed (R394), and waiting reservations and credits are granted in their order. -/
def execReservationGrant (q : Nat) (s : State) : Result :=
  ifUnit (queueOk q) (s.grants q).goOnAll

/-- ENTRY_LANDING (R286, R293): the entry at a position lands, L follows, and reads that waited for it are served. -/
def execEntryLanding (q pos : Nat) (s : State) : Result :=
  ifUnit (queueOk q) (
    match (s.queue q).packetOf pos with
    | some k => if (s.queue q).writeback then s else ((s.landAt k.origin q pos).afterLanding q k.origin).goOnAll
    | none => s)

/-- WINDOW_FETCH_DONE (R284): the queue is resident, and the accesses that waited go on. -/
def execWindowFetchDone (q : Nat) (s : State) : Result :=
  ifUnit (queueOk q) (if (s.queue q).fetching then (((s.fetched q).grants q).serveDeqs q).goOnAll else s)

/-- SLOT_GRANT (R284): an access that waits for a slot takes one that is free or evictable; its state is then fetched. -/
def execSlotGrant (q : Nat) (s : State) : Result :=
  ifUnit (queueOk q) (
    match (s.queue q).slotSince with
    | none => s
    | some _ =>
      match s.giveSlot q with
      | (s1, true) => (s1.slotTaken q).refreshEngine (s.qHome q)
      | (_, false) => s)

/-- TRACKER_GRANT (R287): a tracker is free, and waiting reservations go on. -/
def execTrackerGrant (q : Nat) (s : State) : Result :=
  ifUnit (queueOk q) (if s.openPackets (s.qHome q) < 2048 then (s.grants q).goOnAll else s)

/-- HEAD_WINDOW_REFILL (R283): the next entries to be read have come from the body. -/
def execHeadWindowRefill (q : Nat) (s : State) : Result :=
  ifUnit (queueOk q) (
    if (s.queue q).resident && !(s.queue q).writeback then ((s.refillHead q).serveDeqs q).goOnAll else s)

/-- QUEUE_WRITEBACK_DONE (R367): accesses that waited on the queue proceed, and the tick record marks that they waited. -/
def execQueueWritebackDone (q : Nat) (s : State) : Result :=
  ifUnit (queueOk q) (
    if !(s.queue q).writeback then s
    else
      let s0 := s.setQueue q { s.queue q with writeback := false }
      let s1 := if (s.queue q).accessWaits then s0.excursion 3 else s0
      let s2 := (s1.queue q).packets.foldl (fun s k =>
        ((List.range k.size).foldl (fun s i => s.landAt k.origin q (k.start + i)) s).afterLanding q k.origin) s1
      (((s2.grants q).refillHead q).serveDeqs q).goOnAll)

-- the host's writes (R291)

/-- The queue that has lacked room for a host write longest, and since when. -/
def State.oldestHold (s : State) : Option (Nat × Nat) :=
  s.queues.foldl (fun m e =>
    match (e.2.waiting.find? (fun w => w.origin = .host)).bind (fun w => w.roomSince) with
    | none => m
    | some t =>
      match m with
      | none => some (e.1, t)
      | some (_, u) => if t < u then some (e.1, t) else m) none

/-- The first host reservation of a waiting list taken out. -/
def dropHost : List Reservation → List Reservation
  | [] => []
  | w :: r => if w.origin = .host then r else w :: dropHost r

/-- The queue lacks room for its first host write. -/
def State.lacksRoom (s : State) (q : Nat) : Bool :=
  (List.find? (fun w => decide (w.origin = .host)) (s.queue q).waiting).any (fun w => decide (s.qRoom q < w.size))

/-- The queue's first host write dropped, and its wait for room counted (R291, R297). -/
def State.dropHeld (s : State) (q : Nat) : State :=
  let x := s.queue q
  let n := (x.waiting.find? (fun w => w.origin = .host)).elim 0 (fun w => w.roomWait s.now)
  ((s.setQueue q { x with waiting := dropHost x.waiting }).bump64 (Reg.queRoomWait (s.qHome q)) n).hostDrop q true

/-- HOST_ENQUEUE_DROP (R291): the queue of a host write has lacked room for 1 ms; the write is dropped where it still does. -/
def execHostEnqueueDrop (s : State) : Result :=
  .next (match s.oldestHold with
    | none => s
    | some (q, t) =>
      let s1 := (s.at_ (t + us 1000)).grants q
      (if s1.oldestHold = some (q, t) ∧ s1.lacksRoom q = true then s1.dropHeld q else s1).goOnAll)

end Sys2Proof.Machine
end

