-- ==== Sys2Proof/Machine/Restore.lean ====
section
/-! DEFINITION. Restore (R379 to R382): the plan, its sources, coverage by coordinates, and what is written. -/
namespace Sys2Proof.Machine

/-- A record of a source: its piece entry, data and tag stream, and the digest that its manifest gives. -/
structure SourceRec where
  piece : Piece
  data : List Byte
  tags : List Byte
  sha : List Byte
  deriving DecidableEq, Repr

/-- A source whose digests hold: what its manifest says, and its records. -/
structure Source where
  gen : Nat
  tick : Nat
  index : Nat
  recs : List SourceRec
  deriving DecidableEq, Repr

/-- Status and detail of a failure. -/
abbrev Failure := Nat × Nat

/-- The detail of RESTORE_DIGEST and RESTORE_COVERAGE (R405). -/
def restoreDetail (source record piece : Nat) : Nat := source + record * 2 ^ 16 + piece * 2 ^ 32

/-- A slot's bytes read as a source: commit record and manifest with their SHA-384 (R373, R374, R380). -/
def Source.of (bs : List Byte) : Option Source :=
  let off := fieldLE bs 0x10 8
  let len := fieldLE bs 0x18 8
  let m := slice bs off len
  if fieldLE bs 0 4 ≠ 0x544D4347 ∨ fieldLE bs 4 2 ≠ 1 ∨ slice bs 0xFD0 48 ≠ sha384Bytes (bs.take 0xFD0) ∨ m.length ≠ len ∨
      slice bs 0x20 48 ≠ sha384Bytes m ∨ fieldLE m 0 4 ≠ 0x464E4D47 then none
  else
    some ⟨fieldLE m 8 8, fieldLE m 0x10 8, fieldLE m 0x18 8,
      (List.range (fieldLE m 0x20 4)).map (fun i =>
        let e := slice m (0x80 + i * 256) 256
        let p := Piece.of (e.take 160)
        ⟨p, slice bs (fieldLE e 0xA0 8) p.span, slice bs (fieldLE e 0xA8 8) (p.span / 512), slice e 0xB0 48⟩)⟩

-- coordinates

/-- Every coordinate of a box given by start and extent of each dimension. -/
def boxCoords : List (Nat × Nat) → List (List Nat)
  | [] => [[]]
  | (a, n) :: r => (List.range n).flatMap (fun i => (boxCoords r).map (fun c => (a + i) :: c))

def Piece.box (p : Piece) : List (Nat × Nat) := (List.range 8).map (fun d => (p.start d, p.extent d))

/-- Boxes met, dimension by dimension. -/
def boxMeet (a b : List (Nat × Nat)) : List (Nat × Nat) :=
  a.zipWith (fun x y => (max x.1 y.1, min (x.1 + x.2) (y.1 + y.2) - max x.1 y.1)) b

/-- A coordinate lies in the box. -/
def inBox : List Nat → List (Nat × Nat) → Bool
  | c :: cs, b :: bs => decide (b.1 ≤ c) && decide (c < b.1 + b.2) && inBox cs bs
  | _, _ => true

/-- The byte offset of a coordinate in a piece's span. -/
def Piece.offset (p : Piece) (c : List Nat) : Nat :=
  (c.zipIdx.foldl (fun (a : Int) (e : Nat × Nat) => a + ((e.1 : Int) - (p.start e.2 : Int)) * p.stride e.2) 0).toNat

/-- The source record serves the piece (R380): an opaque piece needs the same start, extent and format byte; a tensor piece
the same format byte and some coordinate in common. -/
def SourceRec.serves (r : SourceRec) (p : Piece) : Bool :=
  decide (r.piece.id = p.id) && decide (r.piece.kind = p.kind) && decide (r.piece.fmtByte = p.fmtByte) &&
    (if p.opaque_ then decide (r.piece.box = p.box) else (boxMeet p.box r.piece.box).all (fun e => decide (0 < e.2)))

/-- Records of every source with their numbers: source, record, and the record. -/
def allRecs (srcs : List Source) : List (Nat × Nat × SourceRec) :=
  srcs.zipIdx.flatMap (fun s => s.1.recs.zipIdx.map (fun r => (s.2, r.2, r.1)))

/-- The records that a piece takes: exactly one where it is opaque or the shape is the same, and otherwise each coordinate
once. -/
def pieceSources (same : Bool) (srcs : List Source) (n : Nat) (p : Piece) : Except Failure (List (Nat × Nat × SourceRec)) :=
  let rs := (allRecs srcs).filter (fun r => r.2.2.serves p)
  let bad : Except Failure (List (Nat × Nat × SourceRec)) := .error (Status.restoreCoverage, restoreDetail 0xFFFF 0xFFFF n)
  if same then (if rs.length = 1 ∧ rs.all (fun r => r.2.2.piece.raw = p.raw) then .ok rs else bad)
  else if p.kind = 1 then .ok []
  else if p.opaque_ then (if rs.length = 1 then .ok rs else bad)
  else if (boxCoords p.box).all (fun c => (rs.filter (fun r => inBox c r.2.2.piece.box)).length = 1) then .ok rs
  else bad

/-- Tiles of a record that the piece `p` uses: all where it is opaque, otherwise those of the elements in common. -/
def SourceRec.tilesFor (r : SourceRec) (p : Piece) : List Nat :=
  if p.opaque_ then List.range (r.piece.span / 4096)
  else
    ((boxCoords (boxMeet p.box r.piece.box)).flatMap (fun c =>
      [r.piece.offset c / 4096, (r.piece.offset c + p.elem - 1) / 4096])).eraseDups

/-- A record read in full for a piece: its digest and the sealed tiles that are used (R380). -/
def checkRec (p : Piece) (r : Nat × Nat × SourceRec) : Except Failure Unit :=
  if sha384Bytes (r.2.2.data ++ r.2.2.tags) ≠ r.2.2.sha then .error (Status.restoreDigest, restoreDetail r.1 r.2.1 0xFFFF)
  else if (r.2.2.tilesFor p).any (fun i =>
      fieldLE r.2.2.tags (i * 8 + 4) 1 % 2 = 1 && decide ((crc32c (slice r.2.2.data (i * 4096) 4096)).toNat ≠ fieldLE r.2.2.tags (i * 8) 4)) then
    .error (Status.integrityFault, r.2.1)
  else .ok ()

/-- The sources of a plan read and checked: every manifest carries its named generation, and all the same tick and step
index. -/
def readSources (plan : List Byte) (bytes : Nat → List Byte) : Nat → Except Failure (List Source)
  | 0 => .ok []
  | n + 1 => do
    let before ← readSources plan bytes n
    match Source.of (bytes n) with
    | none => .error (Status.restoreDigest, restoreDetail n 0xFFFF 0xFFFF)
    | some s =>
      if s.gen ≠ fieldLE plan (32 + 32 * n + 8) 8 then .error (Status.notFound, fieldLE plan (32 + 32 * n + 8) 8)
      else
        match before with
        | [] => .ok [s]
        | f :: _ =>
          if f.tick = s.tick ∧ f.index = s.index then .ok (before ++ [s])
          else .error (Status.restoreCoverage, restoreDetail n 0xFFFF 0xFFFF)

-- writing

/-- A restored tile sealed (R380). -/
def State.sealTile (s : State) (t : Nat) : State := s.setTag t (tagOf (s.rd (t * 4096) 4096) true none)

/-- A piece written from its records: zero-filled, then every element of each intersection, then sealed (R380). -/
def State.restorePiece (s : State) (p : Piece) (rs : List (Nat × Nat × SourceRec)) : State :=
  let s1 := s.write .firmware p.base (List.replicate p.span 0)
  let s2 := rs.foldl (fun s r =>
    if p.opaque_ then s.write .firmware p.base r.2.2.data
    else (boxCoords (boxMeet p.box r.2.2.piece.box)).foldl (fun s c =>
      s.write .firmware (p.base + p.offset c) (slice r.2.2.data (r.2.2.piece.offset c) p.elem)) s) s1
  (List.range (p.span / 4096)).foldl (fun s i => s.sealTile (p.base / 4096 + i)) s2

/-- The context record written to c48 to c63 of every list (R365, R381). -/
def State.restoreContext (s : State) (bs : List Byte) : State :=
  (List.range 384).foldl (fun s l => (List.range 16).foldl (fun s j => s.setCount l (48 + j) (fieldLE bs (l * 64 + j * 4) 4)) s) s

/-- Job queues take their positions from restored state records (R381; log entry 14). -/
def State.restoreQueues (s : State) (ps : List Piece) : State :=
  s.qdefs.foldl (fun s e =>
    if e.2.isJob && ps.any (fun p => decide (p.kind = 1) && decide (p.base ≤ e.2.stateAddr) && decide (e.2.stateAddr < p.base + p.span)) then
      let f (off : Nat) := s.rdLE (e.2.stateAddr + off) 8
      s.setQueue e.1 { s.queue e.1 with pos := ⟨f 0, f 8, f 16, f 24⟩ }
    else s) s

/-- What a plan asks for: the records of every piece, all read and checked. -/
def restorePlan (plan : List Byte) (bytes : Nat → List Byte) (ps : List Piece) :
    Except Failure (List Source × List (Piece × List (Nat × Nat × SourceRec))) := do
  let srcs ← readSources plan bytes (fieldLE plan 0 4)
  let same := fieldLE plan 4 4 % 2 = 1
  let rs ← ps.zipIdx.mapM (fun e => do
    let r ← pieceSources same srcs e.2 e.1
    pure (e.1, r))
  let ctx := if same then (allRecs srcs).filter (fun r => decide (r.2.2.piece.kind = 2)) else []
  let _ ← (rs.flatMap (fun e => e.2.map (fun r => (e.1, r))) ++ ctx.map (fun r => (r.2.2.piece, r))).mapM (fun e => checkRec e.1 e.2)
  pure (srcs, rs)

/-- What a restore has come to is kept with its command until that ends; CKP_STATUS shows it till then (R383). -/
def State.keepOutcome (s : State) (f : Failure) : State :=
  (s.setFld Fld.ckpState 5).onHost (fun h => { h with longs := h.longs.map (fun l => if l.code = 0x405 ∧ l.ended = none then { l with ext := toLE 2 f.1 ++ toLE 8 f.2 } else l) })

/-- A restore carried out from its plan. -/
def State.restore (s : State) (j : Job) (plan : List Byte) (bytes : Nat → List Byte) : State :=
  match restorePlan plan bytes j.pieces with
  | .error f => s.keepOutcome f
  | .ok (srcs, rs) =>
    let s1 := rs.foldl (fun s e => s.restorePiece e.1 e.2) s
    let s2 := if fieldLE plan 4 4 % 2 = 1 then
        let s' := match (allRecs srcs).find? (fun r => r.2.2.piece.kind = 2) with
          | some r => s1.restoreContext r.2.2.data
          | none => s1
        s'.restoreQueues j.pieces
      else s1
    let s3 := match srcs with
      | x :: _ => s2.setReg Reg.stepIndex (BitVec.ofNat 64 x.index)
      | [] => s2
    s3.keepOutcome (Status.success, 0)

/-- The bytes of a plan's source: this device's own slot of the generation, or what was read from outside (R379). -/
def State.sourceBytes (s : State) (plan : List Byte) (sources : List (List Byte)) (i : Nat) : List Byte :=
  if fieldLE plan (32 + 32 * i) 1 = 0 then
    let g := fieldLE plan (32 + 32 * i + 8) 8
    if s.ckpt.slotA.committed ∧ s.ckpt.slotA.gen = g then s.ckpt.slotA.bytes
    else if s.ckpt.slotB.committed ∧ s.ckpt.slotB.gen = g then s.ckpt.slotB.bytes
    else []
  else sources.getD i []

/-- A plan of the form of R379. -/
def planOk (plan : List Byte) : Bool :=
  let n := fieldLE plan 0 4
  decide (1 ≤ n ∧ n ≤ 65536) && decide (plan.length = 32 + 32 * n) && decide (fieldLE plan 4 4 < 2) &&
    (List.range n).all (fun i => decide (fieldLE plan (32 + 32 * i) 1 ≤ 2))

/-- No tick has been armed since admission: the job is as it was admitted (R379). -/
def State.fresh_ (s : State) : Bool := s.fld Fld.state = 3 && !s.armed && decide (s.tick.next = 0)

/-- Bytes that a restore has read from storage targets (R379, R419). -/
def State.restoreRead (s : State) (plan : List Byte) (sources : List (List Byte)) : State :=
  (List.range (fieldLE plan 0 4)).foldl (fun s i =>
    if fieldLE plan (32 + 32 * i) 1 = 2 then s.storageMoved (fieldLE plan (36 + 32 * i) 4) (sources.getD i []).length 0 else s) s

/-- CKP_RESTORE (R379 to R382): 8 bytes address, 8 bytes length of the plan (log entry 13); `sources` are the bytes of each
source outside this device's module. -/
def execCkpRestore (k : Nat) (sources : List (List Byte)) (s : State) : Result :=
  ifUnit (decide (k < 64)) (s.command k 0x0405 (fun _ => 16) (fun _ _ => none) (fun s m =>
    match s.job with
    | none => s.wrongState k m
    | some j =>
      let a := m.get 0 8
      let n := m.get 8 8
      if !s.ps0 ∨ !s.fresh_ then s.wrongState k m
      else if !s.mayReach .firmware false a n ∨ rangeOf a ≠ .hbm ∨ j.pieces.any (fun p => overlaps a n p.base p.span) then s.badField k m 0
      else
        let plan := s.rd a n
        if !planOk plan then s.badField k m 8
        else s.startLong k m [0x0401, 0x0404] (fun s => (s.restoreRead plan sources).restore j plan (s.sourceBytes plan sources))))

end Sys2Proof.Machine
end

