-- ==== Sys2Proof/Machine/Run.lean ====
section
/-! DEFINITION. What happens to ops in flight after they have issued: completion, transfer requests and their tags,
re-reads of queue counts, and the recovery of tiles that fail their checksum (R174 to R177, R157, R228, R229). -/
namespace Sys2Proof.Machine

/-- An op run with verification of its inputs, by unit and opcode (R166, R251). -/
def runOp (s : State) (o : InFlight) : State × InFlight :=
  let r := o.record
  match r.unit with
  | 1 | 2 => matrixRun s o
  | 3 => if r.opcode = 2 then setvlRun s o else vopRun s o
  | 4 => if (s.xferOp o).kind = 6 then collRun s o else xferRun s o
  | _ =>
    match r.opcode with
    | 1 => mstreamRun s o
    | 2 => mstencilRun s o
    | 3 => mreduceRun s o
    | 4 => mindexRun mindexBody s o
    | _ => mtileRun s o

/-- The same without verification: after a reload or a replay. -/
def runBody (s : State) (o : InFlight) : State × InFlight :=
  let r := o.record
  match r.unit with
  | 1 | 2 => matrixBody s o
  | 3 => if r.opcode = 2 then setvlRun s o else vopBody s o
  | 4 => if (s.xferOp o).kind = 6 then collRun s o else xferBody s o
  | _ => marrowBody s o

/-- The oldest op of a list and unit: the one its engine runs. -/
def State.running (s : State) (o : InFlight) : Bool :=
  match s.cores.inflight.find? (fun p => decide (p.list = o.list) && decide (p.record.unit = o.record.unit)) with
  | some p => p.id = o.id
  | none => false

/-- The ops of an engine that have not started and could, where the lists of one host engine take turns: first those of the lists
other than `l` (R273). -/
def State.startable (s : State) (l : ListId) (u : Nat) : Option InFlight :=
  let ready (p : InFlight) : Bool := p.queued && decide (p.record.unit = u) && !s.engineBusy p
  match s.cores.inflight.find? (fun p => ready p && decide (p.list ≠ l) && decide (p.list ∈ s.engineLists l)) with
  | some p => some p
  | none => s.cores.inflight.find? (fun p => ready p && decide (p.list = l))

/-- The waiting ops of the engine that last ran one of list `l` started in their order as far as it is free (R153, R250); `n` bounds how
many. -/
def State.startNext (s : State) (l : ListId) (u : Nat) : Nat → State
  | 0 => s
  | n + 1 =>
    match (if u = 4 then none else s.startable l u) with
    | none => s
    | some o =>
      let (s1, o1) := runOp s { o with queued := false }
      (s1.setOp o1).startNext o.list u n

/-- What waits for the engine of an op started. -/
def State.startQueued (s : State) (o : InFlight) : State := s.startNext o.list o.record.unit s.cores.inflight.length

/-- OP_COMPLETION (R156, R176): the op its engine runs has finished, and the next one starts; nothing where it still waits for data,
a reload or a granule copy. -/
def execOpCompletion (id : Nat) (s : State) : Result :=
  .next (match s.op? id with
    | some o =>
      if o.record.unit ≠ 4 ∧ s.running o then
        let s1 := s.startQueued o
        (match s1.op? id with
         | some p => s1.completeOp p
         | none => s1).startQueued o
      else s
    | none => s)

/-- TRANSFER_REQUEST_COMPLETE (R174, R396): a request that was sent ends; a host-window request that did not complete
ends its op with ADDRESS_FAULT. -/
def execTransferRequestComplete (id req : Nat) (data : List Byte) (ok : Bool) (s : State) : Result :=
  .next (match s.op? id with
    | none => s
    | some o =>
      match o.requests.find? (fun r => decide (r.num = req) && r.sent) with
      | none => s
      | some r =>
        let s1 := if o.record.unit = 4 then s.bump64 (Reg.seqCounter o.list 3) 1 else s
        match r.path with
        | .memory => s1.requestDone o req none
        | .hostRead =>
          if ok then s1.requestDone o req (some (padTo r.len data))
          else s1.requestDone (o.failed Status.addressFault r.addr) req none
        | .hostWrite =>
          if ok then s1.requestDone o req none else s1.requestDone (o.failed Status.addressFault r.addr) req none
        | .remote _ => s)

/-- Transfer units in round-robin order from `first`. -/
def roundRobin (first : Nat) : List Nat := (List.range 192).map (fun i => (first + i) % 192)

/-- TAG_GRANT (R175): a free tag of the shared pool goes to the next waiting transfer unit in round-robin order, whose
oldest waiting request is sent. -/
def execTagGrant (s : State) : Result :=
  .next (
    if s.tagsUsed < 45056 then
      match (roundRobin s.cores.tagTurn).find? (fun l => (s.nextUnsent l).isSome && decide (s.outstanding l < 256)) with
      | none => s
      | some l =>
        match s.nextUnsent l with
        | none => s
        | some (o, r) =>
          let s1 := s.sendReq o r
          ({ s1 with cores := { s1.cores with tagTurn := (l + 1) % 192 } }).settle
    else s)

/-- QUEUE_WAIT_REREAD (R157): a sequencer that waits on a queue count reads the count again; it leaves the wait where the
count is reached; the cycles it has waited count (R180). -/
def execQueueWaitReread (l : ListId) (s : State) : Result :=
  ifUnit (l < 384) (
    if s.fld (Fld.seqState l) = 1 ∧ s.fld (Fld.seqWait l) = 3 then
      match (s.list l)[s.fld (Fld.seqNext l)]? with
      | none => s
      | some r =>
        if s.preWait l r then s.setSeq l 0 0 else s.countWait l
    else s)

-- tiles that fail their checksum (R228, R229)

/-- The op waits for the reload of this tile of this device: it has not run. -/
def InFlight.awaits (o : InFlight) (tile : Nat) : Bool :=
  decide (tile ∈ o.reloading) && decide (o.pending = .done) && o.requests.isEmpty

/-- One failing tile settled: the op goes on once none is left, and then what waits for its engine. -/
def State.tileRecovered (s0 : State) (o : InFlight) (tile flag : Nat) : State :=
  let s := s0.absorbTile tile
  let o1 : InFlight := { o with
    reloading := o.reloading.filter (fun t => t ≠ tile)
    replaying := o.replaying.filter (fun t => t ≠ tile)
    flags := setBit o.flags flag }
  if o1.reloading ≠ [] then s.setOp o1
  else
    let (s1, o2) := runBody s o1
    let s2 := s1.setOp o2
    if o2.record.unit = 4 then s2.drive o2.list else s2.startQueued o2

/-- The op ends with INTEGRITY_FAULT naming the tile. -/
def State.tileLost (s : State) (o : InFlight) (tile : Nat) : State :=
  (s.putOp { o.failed Status.integrityFault (tile * 4096) with reloading := [], replaying := [] }).startQueued o

/-- The producer of a tile run again on a copy of the state: what it leaves, and its log entry. -/
def State.replayOf (s : State) (tile : Nat) : Option (State × InFlight × Replay) :=
  let g := s.tag (tile * 4096)
  match (s.list g.producer)[g.index]? with
  | none => none
  | some r =>
    match Tab.find? s.cores.replay (g.producer * 65536 + r.crIndex) with
    | none => none
    | some e =>
      let o : InFlight := { s.newOp g.producer r with index := g.index, idx := e.idx }
      let (s1, o1) := runOp { s with memory := { s.memory with waits := [] } } o
      some (s1, o1, e)

/-- The producer named in the tile's stamp is replayable (R229). -/
def State.replayable (s : State) (tile : Nat) : Bool :=
  let g := s.tag (tile * 4096)
  g.stamped && decide (g.step.toNat = (s.reg Reg.stepIndex).toNat % 2 ^ 32) &&
    (match s.replayOf tile with
     | some (_, o, e) => e.ok && o.replayable && o.reloading.isEmpty && e.fingerprint = o.fingerprint
     | none => false)

/-- CHECKSUM_RELOAD_DONE (R228): the reloaded tile verifies and the op goes on; otherwise the op waits for the producer's
replay where R229 admits one, and ends with INTEGRITY_FAULT where it does not. A line that is still uncorrectable fails its tile, counts,
and fails its row (R223, R231). -/
def execChecksumReloadDone (id tile : Nat) (verifies : Bool) (s : State) : Result :=
  .next (match s.op? id with
    | none => s
    | some o =>
      if !o.awaits tile ∨ tile ∈ o.replaying then s
      else if verifies && !s.badTile tile then s.tileRecovered o tile 2
      else
        let s1 := (s.badRead (s.badIn (tile * 4096) 4096)).countFails [tile]
        if s1.replayable tile then s1.setOp { o with replaying := o.replaying ++ [tile] } else s1.tileLost o tile)

/-- PRODUCER_REPLAY (R229): the producer runs again on its own agent and rewrites only the failing tile; the reader then
reads it a third time. The tick record shows the absorption whether or not that read verifies. -/
def execProducerReplay (id tile : Nat) (verifies : Bool) (s : State) : Result :=
  .next (match s.op? id with
    | none => s
    | some o =>
      if !o.awaits tile ∨ !(tile ∈ o.replaying) then s
      else
        match s.replayOf tile with
        | none => s.tileLost o tile
        | some (s1, _, _) =>
          let bs := s1.rdNew (tile * 4096) 4096
          let s2 := s.writePiece .firmware (some (s.tag (tile * 4096))) (tile * 4096) bs
          let s3 := if tile * 4096 < hbmSize then s2.bump32 (Reg.ckReplay (s2.stackOf (tile * 4096))) 1 else s2
          let s4 := (s3.onRecord (fun r => { r with replays := r.replays + 1 })).excursion 4
          if verifies then s4.tileRecovered o tile 3 else (s4.countFails [tile]).tileLost o tile)

end Sys2Proof.Machine
end

