-- ==== Sys2Proof/Machine/Sequencer.lean ====
section
/-! DEFINITION. The sequencer records (R166, R167) and the op list refetch. -/
namespace Sys2Proof.Machine

/-- A list's number is that of a core or a Marrow engine. -/
def listOk (l : ListId) : Bool := l < 384

/-- NOP (R166): issues and does nothing. -/
def execNop (l : ListId) (r : OpRecord) (s : State) : Result := ifUnit (listOk l) (s.seqRecord l r 0 id)

/-- WAIT (R157, R166): the pre-wait only. -/
def execWait (l : ListId) (r : OpRecord) (s : State) : Result := ifUnit (listOk l) (s.seqRecord l r 1 id)

/-- SETC (R166): c[dst] := imm. -/
def execSetc (l : ListId) (r : OpRecord) (s : State) : Result :=
  ifUnit (listOk l) (s.seqRecord l r 2 (fun t => t.setCount l r.dst r.imm))

/-- The operand of ADDC and SUBC (R167). -/
def State.operand (s : State) (l : ListId) (r : OpRecord) : Nat := if r.src then s.count l r.srcReg else r.imm

/-- ADDC (R166): c[dst] := c[dst] + operand, modulo 2^32. -/
def execAddc (l : ListId) (r : OpRecord) (s : State) : Result :=
  ifUnit (listOk l) (s.seqRecord l r 3 (fun t => t.setCount l r.dst (t.count l r.dst + t.operand l r)))

/-- SUBC (R166): c[dst] := c[dst] − operand, modulo 2^32. -/
def execSubc (l : ListId) (r : OpRecord) (s : State) : Result :=
  ifUnit (listOk l)
    (s.seqRecord l r 4 (fun t => t.setCount l r.dst (t.count l r.dst + 2 ^ 32 - t.operand l r % 2 ^ 32)))

/-- The next record of a list is `target`: at once where the target is in the op buffer, otherwise after the list has
been refetched (R167). `cur` is the LOOP's own index. -/
def State.jump (s : State) (l : ListId) (cur target : Nat) : State :=
  let s1 := s.setFld (Fld.seqNext l) target
  if Tab.get 0 s.cores.bufFirst l ≤ target ∧ target ≤ cur ∧ cur - target ≤ 2047 then s1
  else { s1 with cores := { s1.cores with refetching := s1.cores.refetching ++ [l] } }

/-- LOOP (R166, R167): if c[cnt] ≠ 0, the next record is target. -/
def execLoop (l : ListId) (r : OpRecord) (s : State) : Result :=
  ifUnit (listOk l)
    (s.seqRecord l r 5 (fun t => if t.count l r.loopCnt ≠ 0 then t.jump l (s.fld (Fld.seqNext l)) r.loopTarget else t))

/-- OP_LIST_REFETCH_DONE (R167): the refetched list has reached the op buffer from the target on, and the sequencer
goes on. -/
def execOpListRefetchDone (l : ListId) (s : State) : Result :=
  ifUnit (listOk l)
    (if l ∈ s.cores.refetching then
      { s with cores := { s.cores with
          refetching := s.cores.refetching.filter (fun m => m ≠ l)
          bufFirst := Tab.set 0 l (s.fld (Fld.seqNext l)) s.cores.bufFirst } }
    else s)

/-- The units a FENCE mask names (R167). -/
def fenceUnits (l : ListId) (mask : Nat) : List Nat :=
  if l < 192 then ((List.range 4).filter (fun i => bitOf mask i)).map (fun i => i + 1)
  else if bitOf mask 0 then [5] else []

/-- FENCE (R166): issues once every op already issued to the units of its mask has completed. -/
def execFence (l : ListId) (r : OpRecord) (s : State) : Result :=
  ifUnit (listOk l)
    (if s.gate l r = .ready ∧ r.unit = 0 ∧ r.opcode = 6 ∧
        (s.listOps l).any (fun o => o.record.unit ∈ fenceUnits l r.fenceMask) then s.holdSeq l 6 11
    else s.seqRecord l r 6 id)

/-- SIGNAL (R156, R166): signals when it issues. -/
def execSignal (l : ListId) (r : OpRecord) (s : State) : Result :=
  ifUnit (listOk l) (s.seqRecord l r 7 (fun t => t.signalFrom l r))

/-- PHASE_DONE (R159, R166): the phase of the record is passed, and finished once its ops complete. -/
def execPhaseDone (l : ListId) (r : OpRecord) (s : State) : Result :=
  ifUnit (listOk l)
    (s.seqRecord l r 8 (fun t =>
      let t1 : State :=
        { t with cores := { t.cores with passed := Tab.set 0 l (setBit (Tab.get 0 t.cores.passed l) r.phase) t.cores.passed } }
      t1.refreshPhases l))

/-- END_STEP (R158, R166): completes once every op the sequencer issued in the step has completed; the sequencer is then
at its end-of-step wait. -/
def execEndStep (l : ListId) (r : OpRecord) (s : State) : Result :=
  ifUnit (listOk l)
    (if s.gate l r = .ready ∧ r.unit = 0 ∧ r.opcode = 9 ∧ !(s.listOps l).isEmpty then s.holdSeq l 6 11
    else s.seqRecord l r 9 (fun t => t.endOfStep l))

end Sys2Proof.Machine
end

