-- ==== Sys2Proof/Machine/Sideband.lean ====
section
/-! DEFINITION. SPDM (R448 to R450), I3C (R498) and JTAG (R499). Codes and layouts of SPDM messages, which the spec takes from the
standard, are those of SPDM 1.3 (PRESUMED, log entry 33); a signature's message is taken as the response it signs. -/
namespace Sys2Proof.Machine

-- SPDM

/-- SPDM is answered: from the end of boot stage 2 on or in RECOVERY, with the processor die up (R444, R448). -/
def State.spdmUp (s : State) : Bool := !s.heldCold && decide (s.fld Fld.pstate < 3) && decide (s.fld Fld.sstate ≠ 0)

/-- A response: version 1.3, its code, two parameters, and its content. -/
def spdmBytes (code p1 p2 : Nat) (content : List Byte) : List Byte := toLE 1 0x13 ++ toLE 1 code ++ toLE 1 p1 ++ toLE 1 p2 ++ content

def State.spdm (s : State) (code p1 p2 : Nat) (content : List Byte) : State := s.send (.spdm (spdmBytes code p1 p2 content))

/-- ERROR with a code: 0x01 InvalidRequest, 0x05 Unspecified. -/
def State.spdmError (s : State) (code : Nat) : State := s.spdm 0x7F code 0 []

/-- The device answers with `f`, or does not answer. -/
def State.onSpdm (s : State) (f : State → State) : Result := .next (if s.spdmUp then f s else s)

/-- The RSA chain of slot 0, and the SLH-DSA chain (R445, R448, R449). -/
def rsaChain : List Byte := Config.certificate 0 ++ Config.certificate 1 ++ Config.certificate 2
def slhChain : List Byte := Config.certificate 3 ++ Config.certificate 4 ++ Config.certificate 5

/-- GET_VERSION: one version, 1.3. -/
def execGetVersion (s : State) : Result :=
  s.onSpdm (fun s => s.send (.spdm (toLE 1 0x10 ++ toLE 1 0x04 ++ toLE 2 0 ++ toLE 1 0 ++ toLE 1 1 ++ toLE 2 0x1300)))

/-- GET_CAPABILITIES: certificates, challenge, signed measurements and chunks; the timing exponent and the sizes are open. -/
def execGetCapabilities (s : State) : Result :=
  s.onSpdm (fun s =>
    let (v, s1) := s.fresh
    s1.spdm 0x61 0 0 (toLE 1 0 ++ toLE 1 v.toNat ++ toLE 2 0 ++ toLE 4 0x20016 ++ toLE 4 (v.toNat / 256) ++ toLE 4 (v.toNat / 2 ^ 40)))

/-- NEGOTIATE_ALGORITHMS: SHA-384 and RSASSA-PSS-3072 where the requester offers them, with the DMTF measurement specification. -/
def execNegotiateAlgorithms (hash asym : Nat) (s : State) : Result :=
  s.onSpdm (fun s => s.spdm 0x63 0 0 (toLE 2 36 ++ toLE 1 1 ++ toLE 1 0 ++ toLE 4 4 ++ toLE 4 (asym &&& 8) ++ toLE 4 (hash &&& 2) ++ toLE 16 0))

/-- GET_DIGESTS: slot 0 only. -/
def execGetDigests (s : State) : Result := s.onSpdm (fun s => s.spdm 0x01 0 1 (sha384Bytes rsaChain))

/-- GET_CERTIFICATE: a portion of slot 0's chain and the length of what remains. -/
def execGetCertificate (slot offset len : Nat) (s : State) : Result :=
  s.onSpdm (fun s =>
    if slot ≠ 0 ∨ rsaChain.length < offset then s.spdmError 1
    else
      let part := slice rsaChain offset len
      s.spdm 0x02 0 0 (toLE 2 part.length ++ toLE 2 (rsaChain.length - offset - part.length) ++ part))

/-- A response that the device signs (R449): its nonce and what its signatures cover, the requester's nonce and the response
(PRESUMED, log entry 33), are kept for the second signature. -/
def State.signSpdm (s : State) (code p1 p2 : Nat) (before after nonce asked : List Byte) : State :=
  let body := spdmBytes code p1 p2 (before ++ nonce ++ after)
  let s1 : State := { s with sec := { s.sec with signed := s.sec.signed ++ [(nonce, asked ++ body)] } }
  s1.send (.spdm (body ++ toLE 384 (Config.rsaSign (asked ++ body)).toNat))

/-- CHALLENGE: nothing is signed while the keys are erased (R449). `nonce` is the requester's. -/
def execChallenge (slot : Nat) (nonce : List Byte) (s : State) : Result :=
  s.onSpdm (fun s =>
    if slot ≠ 0 then s.spdmError 1
    else if s.fld Fld.keysErased = 1 then s.spdmError 5
    else
      let (v, s1) := s.fresh
      s1.signSpdm 0x03 0 1 (sha384Bytes rsaChain) (toLE 2 0) (toLE 32 v.toNat) nonce)

/-- A measurement's value, and whether it is raw (R450). -/
def State.measurement (s : State) (i : Nat) : List Byte × Bool :=
  match i with
  | 1 => (toLE 4 Config.bootRom.toNat, true)
  | 2 => (if s.fld Fld.sstate = 3 then List.replicate 48 0 else sha384Bytes (s.mram.slot (s.fld Fld.bootSlot)).image, false)
  | 3 => (sha384Bytes (s.sec.records.flatMap (fun e => e.2)), false)
  | 4 => (s.reg32 Reg.secStatus, true)
  | 5 => (padTo 48 (s.job.map (fun j => j.digest)).toList.flatten, false)
  | 6 => ((List.range 12).flatMap (fun j => s.reg32 (Reg.ownerDigest j)), false)
  | _ => ((List.range 32).flatMap (fun j => toLE 4 (Tab.get 0 s.mram.counters j).toNat), true)

/-- A measurement block. -/
def State.measureBlock (s : State) (i : Nat) : List Byte :=
  let (v, raw) := s.measurement i
  toLE 1 i ++ toLE 1 1 ++ toLE 2 (v.length + 3) ++ toLE 1 (if raw then 0x80 else 0) ++ toLE 2 v.length ++ v

/-- GET_MEASUREMENTS: index 0 asks for their number, 0xFF for all (R449, R450). -/
def execGetMeasurements (index : Nat) (signed : Bool) (nonce : List Byte) (s : State) : Result :=
  s.onSpdm (fun s =>
    let ids := if index = 0 then [] else if index = 0xFF then [1, 2, 3, 4, 5, 6, 7] else [index]
    if 7 < index ∧ index ≠ 0xFF then s.spdmError 1
    else if signed ∧ s.fld Fld.keysErased = 1 then s.spdmError 5
    else
      let record := ids.flatMap (fun i => s.measureBlock i)
      let before := toLE 1 ids.length ++ toLE 3 record.length ++ record
      let count := if index = 0 then 7 else 0
      let (v, s1) := s.fresh
      if signed then s1.signSpdm 0x60 count 0 before (toLE 2 0) (toLE 32 v.toNat) nonce
      else s1.spdm 0x60 count 0 (before ++ toLE 32 v.toNat ++ toLE 2 0))

/-- A response too large for one message: ERROR LargeResponse with its handle, which is open. -/
def State.largeSpdm (s : State) (bytes : List Byte) : State :=
  let (h, s1) := s.upTo 255
  let s2 : State := { s1 with sec := { s1.sec with chunks := bytes, chunkNext := 0, chunkHandle := h } }
  s2.spdm 0x7F 0x0F 0 (toLE 1 h)

/-- CHUNK_GET (R449): the next chunk of the large response; how much of it a chunk carries is open. -/
def execChunkGet (handle seq : Nat) (s : State) : Result :=
  s.onSpdm (fun s =>
    if s.sec.chunks = [] ∨ handle ≠ s.sec.chunkHandle ∨ seq ≠ s.sec.chunkNext then s.spdmError 1
    else
      let (v, s1) := s.upTo 0xFFFF
      let part := s.sec.chunks.take (v + 1)
      let rest := s.sec.chunks.drop (v + 1)
      let size := if seq = 0 then toLE 4 s.sec.chunks.length else []
      let s2 : State := { s1 with sec := { s1.sec with chunks := rest, chunkNext := seq + 1 } }
      s2.spdm 0x06 (if rest = [] then 1 else 0) handle (toLE 2 seq ++ toLE 2 0 ++ toLE 4 part.length ++ size ++ part))

/-- VENDOR_DEFINED_REQUEST (R449): the SLH-DSA signature of the response with this nonce, or the SLH-DSA chain. -/
def execVendorDefinedRequest (wantCert : Bool) (nonce : List Byte) (s : State) : Result :=
  s.onSpdm (fun s =>
    if wantCert then s.largeSpdm slhChain
    else
      match s.sec.signed.find? (fun e => decide (e.1 = nonce)) with
      | some e => if s.fld Fld.keysErased = 1 then s.spdmError 5 else s.largeSpdm (padTo 35664 (Config.slhSign e.2))
      | none => s.spdmError 1)

/-- SPDM_UNSUPPORTED_REQUEST (R448): the ERROR names the request code. -/
def execSpdmUnsupportedRequest (code : Nat) (s : State) : Result := s.onSpdm (fun s => s.spdm 0x7F 7 (code % 256) [])

-- I3C (R498)

/-- I3C_SETDASA: a dynamic address for the static address 0x30 + SLOT, where the device has none. -/
def execI3cSetdasa (static addr : Nat) (s : State) : Result :=
  .next (
    if s.board.standbyGood ∧ s.board.i3cAddr = none ∧ static = 0x30 + s.board.straps.slot then
      (s.onBoard (fun b => { b with i3cAddr := some addr })).send (.i3cAddr addr)
    else s)

/-- I3C_ENTDAA: a dynamic address by arbitration, where the device has none. -/
def execI3cEntdaa (addr : Nat) (s : State) : Result :=
  .next (
    if s.board.standbyGood ∧ s.board.i3cAddr = none then (s.onBoard (fun b => { b with i3cAddr := some addr })).send (.i3cAddr addr)
    else s)

/-- I3C_PRIVATE_WRITE: 4 bytes set the register offset. -/
def execI3cPrivateWrite (addr : Nat) (data : List Byte) (s : State) : Result :=
  .next (
    if s.board.i3cAddr = some addr ∧ data.length = 4 then s.onBoard (fun b => { b with i3cOffset := some (ofLE data) })
    else s)

/-- I3C_PRIVATE_READ: the register at the offset, up to 4 bytes; what an offset outside the view or not set reads is open. -/
def execI3cPrivateRead (addr len : Nat) (s : State) : Result :=
  .next (
    if s.board.i3cAddr ≠ some addr then s
    else
      match s.board.i3cOffset with
      | some x =>
        if x % 4 = 0 ∧ x < 0x400000 then s.send (.i3cData ((s.regBytes x 4).take len))
        else
          let (v, s1) := s.fresh
          s1.send (.i3cData ((toLE 4 v.toNat).take len))
      | none =>
        let (v, s1) := s.fresh
        s1.send (.i3cData ((toLE 4 v.toNat).take len)))

-- JTAG (R499)

/-- A JTAG instruction taken: 0 BYPASS, 1 IDCODE, 2 SAMPLE/PRELOAD, 3 EXTEST, 4 CLAMP. The port is powered from standby. -/
def State.jtagTake (s : State) (i : Nat) (f : State → State) : Result :=
  .next (if s.board.standbyGood then f (s.onBoard (fun b => { b with jtag := i })) else s)

/-- BYPASS: the one-bit register captures 0. -/
def execBypass (s : State) : Result := s.jtagTake 0 (fun s => s.send (.jtag 1 0))

/-- IDCODE: stepping, 0x6604, the manufacturer code and 1. -/
def execIdcode (s : State) : Result :=
  s.jtagTake 1 (fun s => s.send (.jtag 32
    ((Config.stepping.toNat % 16) * 2 ^ 28 + 0x6604 * 2 ^ 12 + Config.jedec.toNat * 2 + 1)))

/-- SAMPLE/PRELOAD: the pins are shifted out, and the boundary cells hold what is shifted in. -/
def execSamplePreload (pins preload : Nat) (s : State) : Result :=
  s.jtagTake 2 (fun s => (s.send (.jtag 0 pins)).onBoard (fun b => { b with boundary := preload }))

/-- EXTEST: the pins are driven from the boundary cells, while COLD_RST_N is low. -/
def execExtest (s : State) : Result :=
  if s.board.coldRstLow then s.jtagTake 3 (fun s => s.onBoard (fun b => { b with pins := b.boundary })) else .next s

/-- CLAMP: the outputs stay as the boundary cells hold them and the bypass register is selected, while COLD_RST_N is low. -/
def execClamp (s : State) : Result :=
  if s.board.coldRstLow then s.jtagTake 4 (fun s => (s.onBoard (fun b => { b with pins := b.boundary })).send (.jtag 1 0)) else .next s

end Sys2Proof.Machine
end

