-- ==== Sys2Proof/Machine/Dispatch.lean ====
section
/-! DEFINITION. What each command does: one arm per constructor, one direct call of its meaning. -/
namespace Sys2Proof.Machine

def exec (i : Instr) (s : State) : Host.Outcome State Fault Refusal :=
  match i with
  | .nop l r => Sys2Proof.Machine.execNop l r s
  | .wait l r => Sys2Proof.Machine.execWait l r s
  | .setc l r => Sys2Proof.Machine.execSetc l r s
  | .addc l r => Sys2Proof.Machine.execAddc l r s
  | .subc l r => Sys2Proof.Machine.execSubc l r s
  | .loop l r => Sys2Proof.Machine.execLoop l r s
  | .opListRefetchDone l => Sys2Proof.Machine.execOpListRefetchDone l s
  | .fence l r => Sys2Proof.Machine.execFence l r s
  | .signal l r => Sys2Proof.Machine.execSignal l r s
  | .phaseDone l r => Sys2Proof.Machine.execPhaseDone l r s
  | .endStep l r => Sys2Proof.Machine.execEndStep l r s
  | .matmul l r => Sys2Proof.Machine.execMatmul l r s
  | .matmulPart l r => Sys2Proof.Machine.execMatmulPart l r s
  | .anchorGather l r => Sys2Proof.Machine.execAnchorGather l r s
  | .partCombine l r => Sys2Proof.Machine.execPartCombine l r s
  | .vop l r => Sys2Proof.Machine.execVop l r s
  | .setvl l r => Sys2Proof.Machine.execSetvl l r s
  | .xferCopy l r => Sys2Proof.Machine.execXferCopy l r s
  | .xferStridedCopy l r => Sys2Proof.Machine.execXferStridedCopy l r s
  | .xferEnqueue l r => Sys2Proof.Machine.execXferEnqueue l r s
  | .xferDequeue l r => Sys2Proof.Machine.execXferDequeue l r s
  | .xferAtomic l r => Sys2Proof.Machine.execXferAtomic l r s
  | .xferFill l r => Sys2Proof.Machine.execXferFill l r s
  | .collectiveAllReduce l r => Sys2Proof.Machine.execCollectiveAllReduce l r s
  | .collectiveReduceToRoot l r => Sys2Proof.Machine.execCollectiveReduceToRoot l r s
  | .collectiveBroadcast l r => Sys2Proof.Machine.execCollectiveBroadcast l r s
  | .collectiveAllGather l r => Sys2Proof.Machine.execCollectiveAllGather l r s
  | .collectiveBarrier l r => Sys2Proof.Machine.execCollectiveBarrier l r s
  | .mstream l r => Sys2Proof.Machine.execMstream l r s
  | .mstencil l r => Sys2Proof.Machine.execMstencil l r s
  | .mreduce l r => Sys2Proof.Machine.execMreduce l r s
  | .mindexGather l r => Sys2Proof.Machine.execMindexGather l r s
  | .mindexScatter l r => Sys2Proof.Machine.execMindexScatter l r s
  | .mindexAtomicScatter l r => Sys2Proof.Machine.execMindexAtomicScatter l r s
  | .mtileSeal l r => Sys2Proof.Machine.execMtileSeal l r s
  | .mtileVerify l r => Sys2Proof.Machine.execMtileVerify l r s
  | .mtileZeroFill l r => Sys2Proof.Machine.execMtileZeroFill l r s
  | .mtileMigrate l r => Sys2Proof.Machine.execMtileMigrate l r s
  | .opCompletion id => Sys2Proof.Machine.execOpCompletion id s
  | .transferRequestComplete id req data ok => Sys2Proof.Machine.execTransferRequestComplete id req data ok s
  | .tagGrant => Sys2Proof.Machine.execTagGrant s
  | .queueWaitReread l => Sys2Proof.Machine.execQueueWaitReread l s
  | .tick => Sys2Proof.Machine.execTick s
  | .phaseRelease p => Sys2Proof.Machine.execPhaseRelease p s
  | .phaseWarning p => Sys2Proof.Machine.execPhaseWarning p s
  | .phaseLate p => Sys2Proof.Machine.execPhaseLate p s
  | .overrunDecision => Sys2Proof.Machine.execOverrunDecision s
  | .overrunTrigger tx => Sys2Proof.Machine.execOverrunTrigger tx s
  | .jobStoppedTrigger tx => Sys2Proof.Machine.execJobStoppedTrigger tx s
  | .undoCopyDone granule => Sys2Proof.Machine.execUndoCopyDone granule s
  | .restorationDone => Sys2Proof.Machine.execRestorationDone s
  | .tickStopBoundary => Sys2Proof.Machine.execTickStopBoundary s
  | .tckCtrlRunClear => Sys2Proof.Machine.execTckCtrlRunClear s
  | .effectiveTickReached => Sys2Proof.Machine.execEffectiveTickReached s
  | .slowNoticeRepeat => Sys2Proof.Machine.execSlowNoticeRepeat s
  | .slowNotice tx => Sys2Proof.Machine.execSlowNotice tx s
  | .slowNoticeExpiry src => Sys2Proof.Machine.execSlowNoticeExpiry src s
  | .ptpMessage m => Sys2Proof.Machine.execPtpMessage m s
  | .ptpSyncSend p => Sys2Proof.Machine.execPtpSyncSend p s
  | .timeTransaction p lead offset locked => Sys2Proof.Machine.execTimeTransaction p lead offset locked s
  | .fabricTimeSend => Sys2Proof.Machine.execFabricTimeSend s
  | .timeSourceLoss inp => Sys2Proof.Machine.execTimeSourceLoss inp s
  | .leadConflictExpiry => Sys2Proof.Machine.execLeadConflictExpiry s
  | .time1ppsEdge tenMhzPresent spacingOk offset => Sys2Proof.Machine.execTime1ppsEdge tenMhzPresent spacingOk offset s
  | .ppsOutEdge => Sys2Proof.Machine.execPpsOutEdge s
  | .measurementFrame d => Sys2Proof.Machine.execMeasurementFrame d s
  | .actuationFrameSend stream => Sys2Proof.Machine.execActuationFrameSend stream s
  | .arpRequest q => Sys2Proof.Machine.execArpRequest q s
  | .neighbourDiscovery q => Sys2Proof.Machine.execNeighbourDiscovery q s
  | .icmpEcho q => Sys2Proof.Machine.execIcmpEcho q s
  | .lineCommit line => Sys2Proof.Machine.execLineCommit line s
  | .cbwCopyDone granule => Sys2Proof.Machine.execCbwCopyDone granule s
  | .scrub st ch pc row addr f => Sys2Proof.Machine.execScrub st ch pc row addr f s
  | .pageMigrationDone st ch page => Sys2Proof.Machine.execPageMigrationDone st ch page s
  | .channelMigrationDone st ch => Sys2Proof.Machine.execChannelMigrationDone st ch s
  | .checksumReloadDone id tile verifies => Sys2Proof.Machine.execChecksumReloadDone id tile verifies s
  | .producerReplay id tile verifies => Sys2Proof.Machine.execProducerReplay id tile verifies s
  | .thermalSample st celsius => Sys2Proof.Machine.execThermalSample st celsius s
  | .thermalStepExit st => Sys2Proof.Machine.execThermalStepExit st s
  | .reservationGrant q => Sys2Proof.Machine.execReservationGrant q s
  | .entryLanding q pos => Sys2Proof.Machine.execEntryLanding q pos s
  | .windowFetchDone q => Sys2Proof.Machine.execWindowFetchDone q s
  | .slotGrant q => Sys2Proof.Machine.execSlotGrant q s
  | .trackerGrant q => Sys2Proof.Machine.execTrackerGrant q s
  | .headWindowRefill q => Sys2Proof.Machine.execHeadWindowRefill q s
  | .hostEnqueue offset data => Sys2Proof.Machine.execHostEnqueue offset data s
  | .hostEnqueueDrop => Sys2Proof.Machine.execHostEnqueueDrop s
  | .coreRotationStart n => Sys2Proof.Machine.execCoreRotationStart n s
  | .migrationCopyDone n => Sys2Proof.Machine.execMigrationCopyDone n s
  | .coreBistDone die phys v => Sys2Proof.Machine.execCoreBistDone die phys v s
  | .marrowEngineTestStart m => Sys2Proof.Machine.execMarrowEngineTestStart m s
  | .marrowBistDone m v => Sys2Proof.Machine.execMarrowBistDone m v s
  | .hbmPageTestStart st ch page => Sys2Proof.Machine.execHbmPageTestStart st ch page s
  | .hbmPageTestDone st ch page v => Sys2Proof.Machine.execHbmPageTestDone st ch page v s
  | .laneTestStart p lane => Sys2Proof.Machine.execLaneTestStart p lane s
  | .laneTestDone p lane v => Sys2Proof.Machine.execLaneTestDone p lane v s
  | .coreCheckerFailure die phys => Sys2Proof.Machine.execCoreCheckerFailure die phys s
  | .marrowCheckerFailure st phys => Sys2Proof.Machine.execMarrowCheckerFailure st phys s
  | .managementMismatch bist => Sys2Proof.Machine.execManagementMismatch bist s
  | .serviceCoreFault c => Sys2Proof.Machine.execServiceCoreFault c s
  | .laneLoss p lane f => Sys2Proof.Machine.execLaneLoss p lane f s
  | .laneRetrainDone p => Sys2Proof.Machine.execLaneRetrainDone p s
  | .flitReceive p fec flit => Sys2Proof.Machine.execFlitReceive p fec flit s
  | .linkUp p peer lanes => Sys2Proof.Machine.execLinkUp p peer lanes s
  | .readRequest tx => Sys2Proof.Machine.execReadRequest tx s
  | .writeRequest tx => Sys2Proof.Machine.execWriteRequest tx s
  | .atomicRequest tx => Sys2Proof.Machine.execAtomicRequest tx s
  | .creditRequest tx => Sys2Proof.Machine.execCreditRequest tx s
  | .enqueueTransaction tx => Sys2Proof.Machine.execEnqueueTransaction tx s
  | .dequeueTransaction tx => Sys2Proof.Machine.execDequeueTransaction tx s
  | .collectiveContribution tx => Sys2Proof.Machine.execCollectiveContribution tx s
  | .pendingNotice tx => Sys2Proof.Machine.execPendingNotice tx s
  | .portStateAnnouncement tx => Sys2Proof.Machine.execPortStateAnnouncement tx s
  | .peerManagement tx => Sys2Proof.Machine.execPeerManagement tx s
  | .congestionNotice tx => Sys2Proof.Machine.execCongestionNotice tx s
  | .lostNotice tx => Sys2Proof.Machine.execLostNotice tx s
  | .launchHeartbeat tx => Sys2Proof.Machine.execLaunchHeartbeat tx s
  | .launchReattach tx => Sys2Proof.Machine.execLaunchReattach tx s
  | .launchAdopt tx => Sys2Proof.Machine.execLaunchAdopt tx s
  | .launchDone tx => Sys2Proof.Machine.execLaunchDone tx s
  | .invalidation tx => Sys2Proof.Machine.execInvalidation tx s
  | .invalidationAck tx => Sys2Proof.Machine.execInvalidationAck tx s
  | .coherentFill tx => Sys2Proof.Machine.execCoherentFill tx s
  | .fabricReply tx => Sys2Proof.Machine.execFabricReply tx s
  | .replyDeadline peer seq => Sys2Proof.Machine.execReplyDeadline peer seq s
  | .pendingNoticeSend peer => Sys2Proof.Machine.execPendingNoticeSend peer s
  | .fabricWaitDeadline peer => Sys2Proof.Machine.execFabricWaitDeadline peer s
  | .rankedAtomicApply addr => Sys2Proof.Machine.execRankedAtomicApply addr s
  | .rankWaitDeadline addr rank => Sys2Proof.Machine.execRankWaitDeadline addr rank s
  | .congestionNoticeExpiry home => Sys2Proof.Machine.execCongestionNoticeExpiry home s
  | .throttleGap home => Sys2Proof.Machine.execThrottleGap home s
  | .cressWindowClose line => Sys2Proof.Machine.execCressWindowClose line s
  | .leekEntryExpiry => Sys2Proof.Machine.execLeekEntryExpiry s
  | .launchChunkForward id child => Sys2Proof.Machine.execLaunchChunkForward id child s
  | .launchHeartbeatSend id => Sys2Proof.Machine.execLaunchHeartbeatSend id s
  | .launchParentSilence id => Sys2Proof.Machine.execLaunchParentSilence id s
  | .launchAdoptTimeout id => Sys2Proof.Machine.execLaunchAdoptTimeout id s
  | .checkpointCapture => Sys2Proof.Machine.execCheckpointCapture s
  | .queueWritebackDone q => Sys2Proof.Machine.execQueueWritebackDone q s
  | .parsnipGranuleDone granule => Sys2Proof.Machine.execParsnipGranuleDone granule s
  | .checkpointCommit => Sys2Proof.Machine.execCheckpointCommit s
  | .moduleCommandTimeout => Sys2Proof.Machine.execModuleCommandTimeout s
  | .mbxDoorbell k => Sys2Proof.Machine.execMbxDoorbell k s
  | .mailboxPageWrite k offset data => Sys2Proof.Machine.execMailboxPageWrite k offset data s
  | .mbxDoneClear mask => Sys2Proof.Machine.execMbxDoneClear mask s
  | .longCommandDone k e => Sys2Proof.Machine.execLongCommandDone k e s
  | .mbxEvtEnable value => Sys2Proof.Machine.execMbxEvtEnable value s
  | .mbxEvtHeadWrite value => Sys2Proof.Machine.execMbxEvtHeadWrite value s
  | .registerWrite offset size value => Sys2Proof.Machine.execRegisterWrite offset size value s
  | .bar0RefusedAccess a => Sys2Proof.Machine.execBar0RefusedAccess a s
  | .bar2Read offset len uncorrectable => Sys2Proof.Machine.execBar2Read offset len uncorrectable s
  | .bar2Write offset data => Sys2Proof.Machine.execBar2Write offset data s
  | .hostCompletionTimeout id req => Sys2Proof.Machine.execHostCompletionTimeout id req s
  | .poisonedTlp write id req => Sys2Proof.Machine.execPoisonedTlp write id req s
  | .pcieLinkDown => Sys2Proof.Machine.execPcieLinkDown s
  | .pcieLinkUp hostRate => Sys2Proof.Machine.execPcieLinkUp hostRate s
  | .functionLevelReset => Sys2Proof.Machine.execFunctionLevelReset s
  | .pcieHotReset => Sys2Proof.Machine.execPcieHotReset s
  | .remoteMailboxDatagram d => Sys2Proof.Machine.execRemoteMailboxDatagram d s
  | .devCapabilities k => Sys2Proof.Machine.execDevCapabilities k s
  | .devIdentify k => Sys2Proof.Machine.execDevIdentify k s
  | .devStatus k => Sys2Proof.Machine.execDevStatus k s
  | .netConfig k => Sys2Proof.Machine.execNetConfig k s
  | .storageTargetSet k => Sys2Proof.Machine.execStorageTargetSet k s
  | .storageTargetStatus k => Sys2Proof.Machine.execStorageTargetStatus k s
  | .jobAdmit k ext => Sys2Proof.Machine.execJobAdmit k ext s
  | .jobReset k => Sys2Proof.Machine.execJobReset k s
  | .jobStatus k => Sys2Proof.Machine.execJobStatus k s
  | .queueStatus k => Sys2Proof.Machine.execQueueStatus k s
  | .queueEngineStatus k => Sys2Proof.Machine.execQueueEngineStatus k s
  | .timeSetSource k => Sys2Proof.Machine.execTimeSetSource k s
  | .timeStatus k => Sys2Proof.Machine.execTimeStatus k s
  | .tickArm k => Sys2Proof.Machine.execTickArm k s
  | .tickStop k => Sys2Proof.Machine.execTickStop k s
  | .tickStatus k => Sys2Proof.Machine.execTickStatus k s
  | .streamAdd k => Sys2Proof.Machine.execStreamAdd k s
  | .streamRemove k => Sys2Proof.Machine.execStreamRemove k s
  | .streamStatus k => Sys2Proof.Machine.execStreamStatus k s
  | .ckpStart k => Sys2Proof.Machine.execCkpStart k s
  | .ckpStatus k => Sys2Proof.Machine.execCkpStatus k s
  | .ckpAbandon k => Sys2Proof.Machine.execCkpAbandon k s
  | .ckpExport k => Sys2Proof.Machine.execCkpExport k s
  | .ckpRestore k sources => Sys2Proof.Machine.execCkpRestore k sources s
  | .ckpManifestRead k => Sys2Proof.Machine.execCkpManifestRead k s
  | .ckpDiscard k => Sys2Proof.Machine.execCkpDiscard k s
  | .snapArm k => Sys2Proof.Machine.execSnapArm k s
  | .snapTrigger k => Sys2Proof.Machine.execSnapTrigger k s
  | .snapStatus k => Sys2Proof.Machine.execSnapStatus k s
  | .snapshotTickMatch => Sys2Proof.Machine.execSnapshotTickMatch s
  | .snapshotTimeMatch => Sys2Proof.Machine.execSnapshotTimeMatch s
  | .snapshotEventMatch event source => Sys2Proof.Machine.execSnapshotEventMatch event source s
  | .snapshotTrigger tx => Sys2Proof.Machine.execSnapshotTrigger tx s
  | .tagRead k => Sys2Proof.Machine.execTagRead k s
  | .debugUnlock k ext => Sys2Proof.Machine.execDebugUnlock k ext s
  | .debugLock k => Sys2Proof.Machine.execDebugLock k s
  | .stepHalt k => Sys2Proof.Machine.execStepHalt k s
  | .stepResume k => Sys2Proof.Machine.execStepResume k s
  | .stepHaltTick => Sys2Proof.Machine.execStepHaltTick s
  | .stepResumeTick => Sys2Proof.Machine.execStepResumeTick s
  | .d2TokenExpiry => Sys2Proof.Machine.execD2TokenExpiry s
  | .unlockLockoutExpiry => Sys2Proof.Machine.execUnlockLockoutExpiry s
  | .secStatus k => Sys2Proof.Machine.execSecStatus k s
  | .fwStage k ext => Sys2Proof.Machine.execFwStage k ext s
  | .fwActivate k => Sys2Proof.Machine.execFwActivate k s
  | .fwActivateWarmReset => Sys2Proof.Machine.execFwActivateWarmReset s
  | .configRecordWrite k ext => Sys2Proof.Machine.execConfigRecordWrite k ext s
  | .ownerKeySet k => Sys2Proof.Machine.execOwnerKeySet k s
  | .certRead k => Sys2Proof.Machine.execCertRead k s
  | .powerStateSet k => Sys2Proof.Machine.execPowerStateSet k s
  | .powerCapSet k => Sys2Proof.Machine.execPowerCapSet k s
  | .powerStatus k => Sys2Proof.Machine.execPowerStatus k s
  | .selfTest k found ending units => Sys2Proof.Machine.execSelfTest k found ending units s
  | .onlineTestSet k => Sys2Proof.Machine.execOnlineTestSet k s
  | .testStatus k => Sys2Proof.Machine.execTestStatus k s
  | .memRepairApply k => Sys2Proof.Machine.execMemRepairApply k s
  | .memHealth k => Sys2Proof.Machine.execMemHealth k s
  | .faultLogRead k => Sys2Proof.Machine.execFaultLogRead k s
  | .fabricSetIdentity k => Sys2Proof.Machine.execFabricSetIdentity k s
  | .fabricStatus k => Sys2Proof.Machine.execFabricStatus k s
  | .peerAdd k => Sys2Proof.Machine.execPeerAdd k s
  | .peerRemove k => Sys2Proof.Machine.execPeerRemove k s
  | .peerStatus k => Sys2Proof.Machine.execPeerStatus k s
  | .groupSet k ext => Sys2Proof.Machine.execGroupSet k ext s
  | .routeSetOptical k => Sys2Proof.Machine.execRouteSetOptical k s
  | .portStatus k => Sys2Proof.Machine.execPortStatus k s
  | .portRetrain k => Sys2Proof.Machine.execPortRetrain k s
  | .launchBroadcast k => Sys2Proof.Machine.execLaunchBroadcast k s
  | .launchStatus k => Sys2Proof.Machine.execLaunchStatus k s
  | .standbySupplyGood => Sys2Proof.Machine.execStandbySupplyGood s
  | .coldResetRelease st => Sys2Proof.Machine.execColdResetRelease st s
  | .coldRstNAssert => Sys2Proof.Machine.execColdRstNAssert s
  | .supplyFault v => Sys2Proof.Machine.execSupplyFault v s
  | .perstAssert micros => Sys2Proof.Machine.execPerstAssert micros s
  | .perstDeassert => Sys2Proof.Machine.execPerstDeassert s
  | .bootStageComplete f ms ext => Sys2Proof.Machine.execBootStageComplete f ms ext s
  | .powerEvaluation watts => Sys2Proof.Machine.execPowerEvaluation watts s
  | .fastCurrentLimit deciamps => Sys2Proof.Machine.execFastCurrentLimit deciamps s
  | .fastLimitRelease deciamps => Sys2Proof.Machine.execFastLimitRelease deciamps s
  | .pwrBrakeAssert => Sys2Proof.Machine.execPwrBrakeAssert s
  | .pwrBrakeRelease => Sys2Proof.Machine.execPwrBrakeRelease s
  | .brakeHoldExpiry => Sys2Proof.Machine.execBrakeHoldExpiry s
  | .junctionLimit die celsius => Sys2Proof.Machine.execJunctionLimit die celsius s
  | .modPrsntChange present => Sys2Proof.Machine.execModPrsntChange present s
  | .nvmeKeepAlive => Sys2Proof.Machine.execNvmeKeepAlive s
  | .storageCommandTimeout k => Sys2Proof.Machine.execStorageCommandTimeout k s
  | .recoveryImageStream image => Sys2Proof.Machine.execRecoveryImageStream image s
  | .recoveryD3Grant grant => Sys2Proof.Machine.execRecoveryD3Grant grant s
  | .getVersion => Sys2Proof.Machine.execGetVersion s
  | .getCapabilities => Sys2Proof.Machine.execGetCapabilities s
  | .negotiateAlgorithms hash asym => Sys2Proof.Machine.execNegotiateAlgorithms hash asym s
  | .getDigests => Sys2Proof.Machine.execGetDigests s
  | .getCertificate slot offset len => Sys2Proof.Machine.execGetCertificate slot offset len s
  | .challenge slot nonce => Sys2Proof.Machine.execChallenge slot nonce s
  | .getMeasurements index signed nonce => Sys2Proof.Machine.execGetMeasurements index signed nonce s
  | .chunkGet handle seq => Sys2Proof.Machine.execChunkGet handle seq s
  | .vendorDefinedRequest wantCert nonce => Sys2Proof.Machine.execVendorDefinedRequest wantCert nonce s
  | .i3cSetdasa static addr => Sys2Proof.Machine.execI3cSetdasa static addr s
  | .i3cEntdaa addr => Sys2Proof.Machine.execI3cEntdaa addr s
  | .i3cPrivateWrite addr data => Sys2Proof.Machine.execI3cPrivateWrite addr data s
  | .i3cPrivateRead addr len => Sys2Proof.Machine.execI3cPrivateRead addr len s
  | .bypass => Sys2Proof.Machine.execBypass s
  | .idcode => Sys2Proof.Machine.execIdcode s
  | .samplePreload pins preload => Sys2Proof.Machine.execSamplePreload pins preload s
  | .extest => Sys2Proof.Machine.execExtest s
  | .clamp => Sys2Proof.Machine.execClamp s
  | .unknownCommand k => Sys2Proof.Machine.execUnknownCommand k s
  | .internalResetRelease => Sys2Proof.Machine.execInternalResetRelease s
  | .ps3BoardControllerExit => Sys2Proof.Machine.execPs3BoardControllerExit s
  | .pcieConfigurationWrite c => Sys2Proof.Machine.execPcieConfigurationWrite c s
  | .dieToDieReplay link => Sys2Proof.Machine.execDieToDieReplay link s
  | .dieToDieLaneFailure link module repairable => Sys2Proof.Machine.execDieToDieLaneFailure link module repairable s
  | .spdmUnsupportedRequest code => Sys2Proof.Machine.execSpdmUnsupportedRequest code s
  | .spareCoreBistStart die phys => Sys2Proof.Machine.execSpareCoreBistStart die phys s
  | .delayRequestSend p => Sys2Proof.Machine.execDelayRequestSend p s
  | .linkDelayMeasurement p ns => Sys2Proof.Machine.execLinkDelayMeasurement p ns s
  | .storageConnectionDone target p connected => Sys2Proof.Machine.execStorageConnectionDone target p connected s

end Sys2Proof.Machine
end

