-- ==== Sys2Proof/Safety.lean ====
section
/-! DEFINITION. The terms in which claims speak of the machine: the canonical form of memory, when a mailbox command and an
op record execute, and what a response leaves. -/
namespace Sys2Proof.Machine

/-- The canonical form of the register file: numbers strictly rising, no register listed at its reset value. -/
def Reg.wf (t : Tab Word64) : Bool := Tab.rising none t && t.all (fun e => decide (e.2 ≠ Reg.resetValue e.1))

/-- Memory, tags and registers are in their canonical form, and the fault log holds no more than its ring (R477). -/
def State.wf (s : State) : Bool :=
  Memory.wf s.mem && Tab.wf Tag.none s.tags && Reg.wf s.regs && decide (s.mram.faultLog.length ≤ 4096)

/-- Counter `k` of the MRAM (R439). -/
def State.counter (s : State) (k : Nat) : Nat := (Tab.get 0 s.mram.counters k).toNat

/-- Mailbox k holds, first in doorbell order, a message with command code `code` and a body of `want` bytes that passes every
check before the command's own (R397 to R404, R415). -/
def State.takes (s : State) (k code want : Nat) : Bool :=
  decide (k < 64) && s.served && decide (s.host.order.head? = some k) && decide (s.mbxState k = .posted) &&
    decide ((s.msg k).code = code) && !s.bootRefuses code && decide ((s.msg k).len = want) && s.headerOk k (s.msg k)

/-- A long command of this code can start: fewer than 16 run, and none of this code or of `conflicts` (R402). -/
def State.mayStart (s : State) (code : Nat) (conflicts : List Nat) : Bool :=
  (s.runningOf (code :: conflicts)).isNone && decide (s.host.longs.length < 16)

/-- Record r is the next of list l, its unit and opcode are these, and every condition of R154 holds. -/
def State.issues (s : State) (l : ListId) (r : OpRecord) (unit opcode : Nat) : Bool :=
  decide (l < 384) && decide (r.unit = unit) && decide (r.opcode = opcode) && decide (s.gate l r = .ready)

/-- A request of this type from a peer reaches its home and is a new one: the device serves it (R310, R320, R353). -/
def State.serves (s : State) (tx : Tx) (type : Nat) : Bool :=
  decide (tx.type = type) && decide (tx.dst = s.gdn) && !s.halted && s.fromPeer tx && !s.marked tx.src tx.seq && !s.holding tx.src tx.seq

/-- A control transaction of this operation from a peer, for this device (R310, R341). -/
def State.hears (s : State) (tx : Tx) (op : Nat) : Bool :=
  decide (tx.type = 8) && decide (tx.op = op) && decide (tx.dst = s.gdn) && s.fromPeer tx

/-- The state once an op has issued (R153): the sequencer moved on, the op in flight, and `run` done where its engine is free; behind
another op of its engine it waits for its start. -/
def State.issued (s : State) (l : ListId) (r : OpRecord) (run : State → InFlight → State × InFlight) : State :=
  let o := s.newOp l r
  let s1 := (s.advance l).pushOp o
  if s1.engineBusy o then s1.setOp { o with queued := true } else (run s1 o).1.setOp (run s1 o).2

/-- Posted writes of the host reach the function, and none waits before a new one (R291, R427). -/
def State.writesPass (s : State) : Bool := s.barOpen && !s.hostHeld && s.host.posted.isEmpty

/-- The byte of memory at an address. -/
def State.byteAt (s : State) (a : Nat) : Byte := Mem.byte s.mem a

end Sys2Proof.Machine
end

