-- ==== Sys2Proof/WellFormed.lean ====
section
/-! DEFINITION. Which terms are commands of the device: the units that their numbers name exist, and every field fits the width
the spec gives it. -/
namespace Sys2Proof

/-- Lanes of a port (R299). -/
def lanesOf (p : Nat) : Nat := if p ≤ 6 then 4 else if p ≤ 39 then 2 else 8

/-- UCIe modules of a die-to-die link (R24): 16 in links 0 to 11, 12 in 12 to 17, 6 in 18 to 21, 2 in 22 and 23. -/
def modulesOf (link : Nat) : Nat := if link < 12 then 16 else if link < 18 then 12 else if link < 22 then 6 else 2

/-- Bytes of job HBM addresses (R29). -/
def hbmBytes : Nat := 0x8A_0000_0000

/-- The record names this unit and opcode (R165, R166). -/
def recordOf (r : OpRecord) (units : List Nat) (opcode : Nat) : Bool :=
  decide ((r.extractLsb' 253 3).toNat ∈ units) && decide ((r.extractLsb' 248 5).toNat = opcode)

/-- A list of a core (R407), of a Marrow engine, or of either. -/
def coreList (l : ListId) : Bool := decide (l < 192)
def marrowList (l : ListId) : Bool := decide (192 ≤ l) && decide (l < 384)
def anyList (l : ListId) : Bool := decide (l < 384)

/-- Mailboxes 0 to 63 (R390). -/
def mailboxOk (k : Nat) : Bool := decide (k < 64)
/-- Stacks 0 to 11, channels 0 to 31, pseudo-channels 0 and 1. -/
def stackOk (s : Nat) : Bool := decide (s < 12)
def channelOk (s ch : Nat) : Bool := stackOk s && decide (ch < 32)
/-- Ports 0 to 47, and the lanes of one (R299). -/
def fabricPort (p : Nat) : Bool := decide (p < 48)
def laneOk (p lane : Nat) : Bool := fabricPort p && decide (lane < lanesOf p)
/-- Ethernet ports 0 and 1 (R417). -/
def netPort (p : Nat) : Bool := decide (p < 2)
/-- Accelerator dies 0 to 3 and their physical cores 0 to 51 (R18). -/
def coreOk (die phys : Nat) : Bool := decide (die < 4) && decide (phys < 52)
/-- Queues 0 to 1,048,575 (R277). -/
def queueNumber (q : Nat) : Bool := decide (q < 1048576)
def phaseOk (p : Nat) : Bool := decide (p < 16)

/-- The header fields of R315 fit their widths. -/
def Tx.wf (t : Tx) : Bool :=
  decide (t.type < 16) && decide (t.op < 16) && decide (t.src < 2 ^ 16) && decide (t.dst < 2 ^ 16) && decide (t.seq < 2 ^ 32) &&
    decide (t.stream < 2 ^ 16) && decide (t.hops < 8) && decide (t.len ≤ 512) && decide (t.addr < 2 ^ 64) &&
    decide (t.word < 2 ^ 32) && decide (t.data.length ≤ 512)

/-- A datagram's addresses and ports fit their widths, and it came by an Ethernet port. -/
def Datagram.wf (d : Datagram) : Bool :=
  netPort d.port && decide (d.srcIp < 2 ^ 128) && decide (d.srcPort < 2 ^ 16) && decide (d.dstPort < 2 ^ 16)

def NetQuery.wf (q : NetQuery) : Bool :=
  netPort q.port && decide (q.vlan < 2 ^ 16) && decide (q.srcMac < 2 ^ 48) && decide (q.srcIp < 2 ^ 128) && decide (q.targetIp < 2 ^ 128)

/-- A unit that a self-test can name exists. -/
def TestUnit.wf (u : TestUnit) : Bool :=
  match u with
  | .core die phys => coreOk die phys
  | .engine s phys => stackOk s && decide (phys < 16)
  | .row s ch pc _ addr => channelOk s ch && decide (pc < 2) && decide (addr < hbmBytes)
  | .module link m => decide (link < 24) && decide (m < modulesOf link)
  | .lane p n => laneOk p n

/-- Every unit that the command names exists. -/
def Instr.unitsOk (c : Instr) : Bool :=
  match c with
  | .nop l _ | .wait l _ | .setc l _ | .addc l _ | .subc l _ | .loop l _ | .opListRefetchDone l | .fence l _ | .signal l _
  | .phaseDone l _ | .endStep l _ | .queueWaitReread l => anyList l
  | .matmul l _ | .matmulPart l _ | .anchorGather l _ | .partCombine l _ | .vop l _ | .setvl l _ | .xferCopy l _
  | .xferStridedCopy l _ | .xferEnqueue l _ | .xferDequeue l _ | .xferAtomic l _ | .xferFill l _ | .collectiveAllReduce l _
  | .collectiveReduceToRoot l _ | .collectiveBroadcast l _ | .collectiveAllGather l _ | .collectiveBarrier l _ => coreList l
  | .mstream l _ | .mstencil l _ | .mreduce l _ | .mindexGather l _ | .mindexScatter l _ | .mindexAtomicScatter l _
  | .mtileSeal l _ | .mtileVerify l _ | .mtileZeroFill l _ | .mtileMigrate l _ => marrowList l
  | .phaseRelease p | .phaseWarning p | .phaseLate p => phaseOk p
  | .ptpMessage m => netPort m.port
  | .ptpSyncSend p | .delayRequestSend p => netPort p
  | .timeTransaction p lead _ _ => fabricPort p && decide (lead < 65536)
  | .measurementFrame d | .remoteMailboxDatagram d => netPort d.port
  | .actuationFrameSend stream => decide (stream < 4096)
  | .arpRequest q | .neighbourDiscovery q | .icmpEcho q => netPort q.port
  | .scrub s ch pc _ _ _ => channelOk s ch && decide (pc < 2)
  | .pageMigrationDone s ch _ | .channelMigrationDone s ch | .hbmPageTestDone s ch _ _ => channelOk s ch
  | .hbmPageTestStart s ch page => channelOk s ch && decide (page < 24576)
  | .thermalSample s _ | .thermalStepExit s => stackOk s
  | .reservationGrant q | .entryLanding q _ | .windowFetchDone q | .slotGrant q | .trackerGrant q | .headWindowRefill q
  | .queueWritebackDone q => queueNumber q
  | .hostEnqueue offset data => decide (offset + data.length ≤ 262144 * 64)
  | .coreRotationStart n | .migrationCopyDone n | .marrowEngineTestStart n | .marrowBistDone n _ => decide (n < 192)
  | .coreBistDone die phys _ | .coreCheckerFailure die phys | .spareCoreBistStart die phys => coreOk die phys
  | .laneTestStart p lane | .laneTestDone p lane _ | .laneLoss p lane _ => laneOk p lane
  | .marrowCheckerFailure s phys => stackOk s && decide (phys < 16)
  | .serviceCoreFault c => decide (c < 16)
  | .laneRetrainDone p | .flitReceive p _ _ | .linkDelayMeasurement p _ => fabricPort p
  | .linkUp p peer lanes => fabricPort p && decide (1 ≤ lanes ∧ lanes ≤ lanesOf p) && decide (peer < 65536)
  | .mbxDoorbell k | .jobAdmit k _ | .debugUnlock k _ | .fwStage k _ | .configRecordWrite k _ | .groupSet k _ | .ckpRestore k _
  | .devCapabilities k | .devIdentify k | .devStatus k | .netConfig k | .storageTargetSet k | .storageTargetStatus k | .jobReset k
  | .jobStatus k | .queueStatus k | .queueEngineStatus k | .timeSetSource k | .timeStatus k | .tickArm k | .tickStop k
  | .tickStatus k | .streamAdd k | .streamRemove k | .streamStatus k | .ckpStart k | .ckpStatus k | .ckpAbandon k | .ckpExport k
  | .ckpManifestRead k | .ckpDiscard k | .snapArm k | .snapTrigger k | .snapStatus k | .tagRead k | .debugLock k | .stepHalt k
  | .stepResume k | .secStatus k | .fwActivate k | .ownerKeySet k | .certRead k | .powerStateSet k | .powerCapSet k
  | .powerStatus k | .onlineTestSet k | .testStatus k | .memRepairApply k | .memHealth k | .faultLogRead k
  | .fabricSetIdentity k | .fabricStatus k | .peerAdd k | .peerRemove k | .peerStatus k | .routeSetOptical k | .portStatus k
  | .portRetrain k | .launchBroadcast k | .launchStatus k | .unknownCommand k => mailboxOk k
  | .mailboxPageWrite k offset data => mailboxOk k && decide (offset + data.length ≤ 4096)
  | .longCommandDone k _ | .storageCommandTimeout k => mailboxOk k || decide (k = 0xC000)
  | .selfTest k _ _ units => mailboxOk k && units.all TestUnit.wf
  | .junctionLimit die _ => decide (die < 4)
  | .dieToDieReplay link => decide (link < 24)
  | .dieToDieLaneFailure link m _ => decide (link < 24) && decide (m < modulesOf link)
  | .storageConnectionDone target p _ => decide (target < 16) && netPort p
  | .opCompletion _ | .transferRequestComplete _ _ _ _ | .tagGrant | .tick | .overrunDecision | .overrunTrigger _
  | .jobStoppedTrigger _ | .undoCopyDone _ | .restorationDone | .tickStopBoundary | .tckCtrlRunClear | .effectiveTickReached
  | .slowNoticeRepeat | .slowNotice _ | .slowNoticeExpiry _ | .fabricTimeSend | .timeSourceLoss _ | .leadConflictExpiry
  | .time1ppsEdge _ _ _ | .ppsOutEdge | .lineCommit _ | .cbwCopyDone _ | .checksumReloadDone _ _ _ | .producerReplay _ _ _
  | .hostEnqueueDrop | .managementMismatch _ | .readRequest _ | .writeRequest _ | .atomicRequest _ | .creditRequest _
  | .enqueueTransaction _ | .dequeueTransaction _ | .collectiveContribution _ | .pendingNotice _ | .portStateAnnouncement _
  | .peerManagement _ | .congestionNotice _ | .lostNotice _ | .launchHeartbeat _ | .launchReattach _ | .launchAdopt _
  | .launchDone _ | .invalidation _ | .invalidationAck _ | .coherentFill _ | .fabricReply _ | .replyDeadline _ _
  | .pendingNoticeSend _ | .fabricWaitDeadline _ | .rankedAtomicApply _ | .rankWaitDeadline _ _ | .congestionNoticeExpiry _
  | .throttleGap _ | .cressWindowClose _ | .leekEntryExpiry | .launchChunkForward _ _ | .launchHeartbeatSend _
  | .launchParentSilence _ | .launchAdoptTimeout _ | .checkpointCapture | .parsnipGranuleDone _ | .checkpointCommit
  | .moduleCommandTimeout | .mbxDoneClear _ | .mbxEvtEnable _ | .mbxEvtHeadWrite _ | .registerWrite _ _ _
  | .bar0RefusedAccess _ | .bar2Read _ _ _ | .bar2Write _ _ | .hostCompletionTimeout _ _ | .poisonedTlp _ _ _ | .pcieLinkDown
  | .pcieLinkUp _ | .functionLevelReset | .pcieHotReset | .snapshotTickMatch | .snapshotTimeMatch | .snapshotEventMatch _ _
  | .snapshotTrigger _ | .stepHaltTick | .stepResumeTick | .d2TokenExpiry | .unlockLockoutExpiry | .fwActivateWarmReset
  | .standbySupplyGood | .coldResetRelease _ | .coldRstNAssert | .supplyFault _ | .perstAssert _ | .perstDeassert
  | .bootStageComplete _ _ _ | .powerEvaluation _ | .fastCurrentLimit _ | .fastLimitRelease _ | .pwrBrakeAssert
  | .pwrBrakeRelease | .brakeHoldExpiry | .modPrsntChange _ | .nvmeKeepAlive | .recoveryImageStream _ | .recoveryD3Grant _
  | .getVersion | .getCapabilities | .negotiateAlgorithms _ _ | .getDigests | .getCertificate _ _ _ | .challenge _ _
  | .getMeasurements _ _ _ | .chunkGet _ _ | .vendorDefinedRequest _ _ | .i3cSetdasa _ _ | .i3cEntdaa _ | .i3cPrivateWrite _ _
  | .i3cPrivateRead _ _ | .bypass | .idcode | .samplePreload _ _ | .extest | .clamp | .internalResetRelease
  | .ps3BoardControllerExit | .pcieConfigurationWrite _ | .spdmUnsupportedRequest _ => true

/-- The op record of the command has the command's unit and opcode (R166, R251). -/
def Instr.recordOk (c : Instr) : Bool :=
  match c with
  | .nop _ r => recordOf r [0] 0
  | .wait _ r => recordOf r [0] 1
  | .setc _ r => recordOf r [0] 2
  | .addc _ r => recordOf r [0] 3
  | .subc _ r => recordOf r [0] 4
  | .loop _ r => recordOf r [0] 5
  | .fence _ r => recordOf r [0] 6
  | .signal _ r => recordOf r [0] 7
  | .phaseDone _ r => recordOf r [0] 8
  | .endStep _ r => recordOf r [0] 9
  | .matmul _ r => recordOf r [1, 2] 1
  | .matmulPart _ r => recordOf r [1, 2] 2
  | .anchorGather _ r => recordOf r [1, 2] 3
  | .partCombine _ r => recordOf r [1, 2] 4
  | .vop _ r => recordOf r [3] 1
  | .setvl _ r => recordOf r [3] 2
  | .xferCopy _ r | .xferStridedCopy _ r | .xferEnqueue _ r | .xferDequeue _ r | .xferAtomic _ r | .xferFill _ r
  | .collectiveAllReduce _ r | .collectiveReduceToRoot _ r | .collectiveBroadcast _ r | .collectiveAllGather _ r
  | .collectiveBarrier _ r => recordOf r [4] 1
  | .mstream _ r => recordOf r [5] 1
  | .mstencil _ r => recordOf r [5] 2
  | .mreduce _ r => recordOf r [5] 3
  | .mindexGather _ r | .mindexScatter _ r | .mindexAtomicScatter _ r => recordOf r [5] 4
  | .mtileSeal _ r | .mtileVerify _ r | .mtileZeroFill _ r | .mtileMigrate _ r => recordOf r [5] 5
  | _ => true

/-- The fields of what reaches the device from outside fit their widths: transactions, flits, datagrams, register accesses, pins. -/
def Instr.fieldsOk (c : Instr) : Bool :=
  match c with
  | .overrunTrigger t | .jobStoppedTrigger t | .slowNotice t | .readRequest t | .writeRequest t | .atomicRequest t
  | .creditRequest t | .enqueueTransaction t | .dequeueTransaction t | .collectiveContribution t | .pendingNotice t
  | .portStateAnnouncement t | .peerManagement t | .congestionNotice t | .lostNotice t | .launchHeartbeat t | .launchReattach t
  | .launchAdopt t | .launchDone t | .invalidation t | .invalidationAck t | .coherentFill t | .fabricReply t
  | .snapshotTrigger t => t.wf
  | .flitReceive _ _ flit => decide (flit.length = 256)
  | .measurementFrame d | .remoteMailboxDatagram d => d.wf
  | .arpRequest q | .neighbourDiscovery q | .icmpEcho q => q.wf
  | .linkDelayMeasurement _ ns => decide (ns < 2 ^ 32)
  | .mbxDoneClear v => decide (v < 2 ^ 64)
  | .mbxEvtEnable v | .mbxEvtHeadWrite v => decide (v < 2 ^ 32)
  | .registerWrite offset size v => decide (offset < 2 ^ 26) && decide (size ∈ [1, 2, 4, 8]) && decide (v < 2 ^ (8 * size))
  | .bar0RefusedAccess a => decide (a.offset < 2 ^ 26) && decide (a.value < 2 ^ (8 * a.size))
  | .pcieLinkUp rate => decide (rate < 16)
  | .coldResetRelease st => decide (st.slot < 8) && decide (st.width < 4)
  | .i3cSetdasa static addr => decide (static < 128) && decide (addr < 128)
  | .i3cEntdaa addr | .i3cPrivateWrite addr _ | .i3cPrivateRead addr _ => decide (addr < 128)
  | .getCertificate slot offset len => decide (slot < 16) && decide (offset < 2 ^ 16) && decide (len < 2 ^ 16)
  | .challenge slot nonce => decide (slot < 16) && decide (nonce.length = 32)
  | .getMeasurements index _ nonce => decide (index < 256) && decide (nonce.length = 32)
  | .spdmUnsupportedRequest code => decide (code < 256)
  | _ => true

/-- A well-formed command. -/
def Instr.wf (c : Instr) : Bool := c.unitsOk && c.recordOk && c.fieldsOk

end Sys2Proof
end

