-- ==== Sys2Proof/Certificates/Slice0/Obligations.lean ====
section
/-! DEFINITION. What the provers are asked for: statements of the spec's rules, over the device's commands and states. -/
open Sys2Proof Sys2Proof.Machine

/-- The front command of the queue is what a step executes, on the state with the queue's rest. -/
def Obligations.StepRunsFrontCommand : Prop :=
  ∀ (c : Instr) (rest : List Instr) (s : State),
    step { s with pending := c :: rest } = exec c { s with pending := rest }

/-- With no command waiting, a step is 1 ns of the device's own clock, moved by the steering in force (R40), and nothing but the
time base may differ (the model's choice, log entries 1 and 97). Every step takes exactly the front command off the queue, and no
command puts one there. -/
def Obligations.StepTakesOneCommandOrIdles : Prop :=
  (∀ s : State, s.pending = [] → s.now + 2 < 2 ^ 64 → ∃ t, step s = .next t ∧
        (t.now : Int) * 10 ^ 9 + t.time.phase = (s.now : Int) * 10 ^ 9 + s.time.phase + 10 ^ 9 + s.time.rate ∧
        (∀ k, k ≠ Reg.tckTime → t.reg k = s.reg k) ∧ { t with regs := s.regs, time := s.time } = s ∧
        t.time = { s.time with phase := t.time.phase }) ∧
  (∀ s t : State, step s = .next t → t.pending = s.pending.tail)

/-- A command that names a unit outside the spec's numbering faults, and every other command answers a next state: none is refused.
-/
def Obligations.CommandsFaultOnlyOnMissingUnits : Prop :=
  ∀ (c : Instr) (s : State),
    (c.unitsOk = true → ∃ t, exec c s = .next t) ∧ (c.unitsOk = false → exec c s = .fault .noSuchUnit)

/-- What reset leaves, of the values that the spec gives: the fields named here, and the empty device. -/
def Obligations.ResetLeavesSpecValues : Prop :=
  State.reset.fld Fld.state = 0 ∧ State.reset.fld Fld.pstate = 0 ∧ State.reset.fld Fld.debug = 0 ∧
  State.reset.fld Fld.remoteMbx = 0 ∧ getBits (State.reset.reg Reg.identity) 31 24 = 4 ∧
  State.reset.fld Fld.run = 0 ∧ State.reset.fld Fld.overrunPolicy = 0 ∧ State.reset.fld Fld.warnFrac = 0xC0 ∧
  State.reset.reg Reg.tckPeriod = 0x7D0 ∧ State.reset.reg Reg.tckPlanClk = 0x40 ∧ State.reset.reg Reg.tckGuard = 0x3E8 ∧
  State.reset.fld Fld.cap = 3600 ∧ State.reset.fld Fld.pod = 0 ∧ State.reset.fld Fld.idValid = 0 ∧
  (∀ n, n < 192 → State.reset.fld (Fld.corePhys n) = n % 48 ∧ State.reset.fld (Fld.coreState n) = 0) ∧
  (∀ n, n < 192 → State.reset.fld (Fld.mrwPhys n) = n % 16) ∧
  (∀ l, l < 384 → State.reset.fld (Fld.seqState l) = 2 ∧ State.reset.fld (Fld.seqWait l) = 0 ∧ State.reset.fld (Fld.seqNext l) = 0) ∧
  State.reset.host.bar2Gib = 1 ∧ State.reset.host.linkUp = false ∧ State.reset.board.perstLow = true ∧
  State.reset.job = none ∧ State.reset.pending = []

/-- Memory, tags and registers are in canonical form after reset. -/
def Obligations.ResetIsWellFormed : Prop :=
  State.reset.wf = true

/-- Every step keeps memory, tags and registers in their canonical form and the fault log within its 4,096 entries. No step lowers
any of the MRAM's counters. -/
def Obligations.StepKeepsWellFormedAndCounters : Prop :=
  (∀ s t : State, s.wf = true → step s = .next t → t.wf = true) ∧
  (∀ (s t : State) (k : Nat), s.wf = true → step s = .next t → s.counter k ≤ t.counter k)

/-- The admitted job and its queue definitions change only by the end of a long command (JOB_ADMIT, JOB_RESET), a job reset, entry
to or exit from D3, and the resets. Memory and tags are changed only by commands that carry data to memory or complete, restore or
reset it: every other command leaves every byte and every tag. The MRAM is changed only by what logs a fault, moves its contents or
commits firmware and records; the security state only by unlocks, key sets, SPDM and the resets. -/
def Obligations.MemoryJobAndStableStateChange : Prop :=
  (∀ (c : Instr) (s t : State), exec c s = .next t →
      (match c with
      | .longCommandDone .. | .functionLevelReset | .pcieHotReset | .jobReset .. | .debugUnlock .. | .debugLock ..
      | .fwActivateWarmReset | .coldRstNAssert | .supplyFault .. | .perstAssert .. | .recoveryImageStream ..
      | .recoveryD3Grant .. | .ps3BoardControllerExit => True
      | _ => t.job = s.job ∧ t.qdefs = s.qdefs)) ∧
  (∀ (c : Instr) (s t : State), exec c s = .next t →
      (match c with
      | .endStep .. | .matmul .. | .matmulPart .. | .anchorGather .. | .partCombine .. | .vop .. | .xferCopy ..
      | .xferStridedCopy .. | .xferEnqueue .. | .xferDequeue .. | .xferAtomic .. | .xferFill .. | .collectiveAllReduce ..
      | .collectiveReduceToRoot .. | .collectiveBroadcast .. | .collectiveAllGather .. | .collectiveBarrier .. | .mstream ..
      | .mstencil .. | .mreduce .. | .mindexGather .. | .mindexScatter .. | .mindexAtomicScatter .. | .mtileSeal ..
      | .mtileVerify .. | .mtileZeroFill .. | .mtileMigrate .. | .opCompletion .. | .transferRequestComplete .. | .tagGrant
      | .tick | .undoCopyDone .. | .restorationDone | .tickStopBoundary | .measurementFrame .. | .lineCommit .. | .cbwCopyDone ..
      | .checksumReloadDone .. | .producerReplay .. | .reservationGrant .. | .entryLanding .. | .windowFetchDone ..
      | .slotGrant .. | .trackerGrant .. | .headWindowRefill .. | .hostEnqueue .. | .hostEnqueueDrop | .migrationCopyDone ..
      | .coreCheckerFailure .. | .laneLoss .. | .laneRetrainDone .. | .flitReceive .. | .readRequest .. | .writeRequest ..
      | .atomicRequest .. | .creditRequest .. | .enqueueTransaction .. | .dequeueTransaction .. | .collectiveContribution ..
      | .portStateAnnouncement .. | .lostNotice .. | .invalidationAck .. | .fabricReply .. | .replyDeadline ..
      | .fabricWaitDeadline .. | .rankedAtomicApply .. | .rankWaitDeadline .. | .cressWindowClose .. | .leekEntryExpiry
      | .launchChunkForward .. | .checkpointCapture | .queueWritebackDone .. | .parsnipGranuleDone .. | .moduleCommandTimeout
      | .mbxDoorbell .. | .mailboxPageWrite .. | .mbxDoneClear .. | .longCommandDone .. | .mbxEvtEnable .. | .mbxEvtHeadWrite ..
      | .registerWrite .. | .bar0RefusedAccess .. | .bar2Write .. | .hostCompletionTimeout .. | .poisonedTlp .. | .pcieLinkDown
      | .functionLevelReset | .pcieHotReset | .jobReset .. | .ckpAbandon .. | .ckpRestore .. | .debugUnlock .. | .debugLock ..
      | .fwActivateWarmReset | .selfTest .. | .routeSetOptical .. | .coldRstNAssert | .supplyFault .. | .perstAssert ..
      | .bootStageComplete .. | .modPrsntChange .. | .storageCommandTimeout .. | .recoveryImageStream .. | .recoveryD3Grant ..
      | .ps3BoardControllerExit | .pcieConfigurationWrite .. => True
      | _ => t.mem = s.mem ∧ t.tags = s.tags)) ∧
  (∀ (c : Instr) (s t : State), exec c s = .next t →
      (match c with
      | .scrub .. | .channelMigrationDone .. | .checksumReloadDone .. | .producerReplay .. | .migrationCopyDone ..
      | .coreBistDone .. | .marrowBistDone .. | .hbmPageTestDone .. | .laneTestDone .. | .coreCheckerFailure ..
      | .marrowCheckerFailure .. | .managementMismatch .. | .serviceCoreFault .. | .laneLoss .. | .flitReceive ..
      | .replyDeadline .. | .longCommandDone .. | .bar2Read .. | .debugUnlock .. | .fwStage .. | .bootStageComplete ..
      | .recoveryImageStream .. | .recoveryD3Grant .. | .dieToDieLaneFailure .. => True
      | _ => t.mram = s.mram) ∧
      (match c with
      | .debugUnlock .. | .debugLock .. | .unlockLockoutExpiry | .fwActivateWarmReset | .ownerKeySet .. | .coldRstNAssert
      | .supplyFault .. | .perstAssert .. | .bootStageComplete .. | .recoveryImageStream .. | .recoveryD3Grant .. | .challenge ..
      | .getMeasurements .. | .chunkGet .. | .vendorDefinedRequest .. | .ps3BoardControllerExit => True
      | _ => t.sec = s.sec))

/-- The time base state, the stream and change tables and the slow notices in force change only by the commands of those families
and by resets. Pins, snapshot, online test and power manager state change only by the commands of those families, by what raises
them, and by resets. -/
def Obligations.TablesTimeAndPowerStateChange : Prop :=
  (∀ (c : Instr) (s t : State), exec c s = .next t →
      (match c with
      | .ptpMessage .. | .timeTransaction .. | .timeSourceLoss .. | .leadConflictExpiry | .time1ppsEdge .. | .timeSetSource ..
      | .debugLock .. | .fwActivateWarmReset | .coldRstNAssert | .supplyFault .. | .perstAssert .. | .bootStageComplete ..
      | .recoveryImageStream .. | .ps3BoardControllerExit => True
      | _ => t.time = s.time) ∧
      (match c with
      | .xferCopy .. | .xferStridedCopy .. | .xferEnqueue .. | .xferDequeue .. | .xferAtomic .. | .xferFill ..
      | .collectiveAllReduce .. | .collectiveReduceToRoot .. | .collectiveBroadcast .. | .collectiveAllGather ..
      | .collectiveBarrier .. | .mstream .. | .opCompletion .. | .transferRequestComplete .. | .tick | .undoCopyDone ..
      | .effectiveTickReached | .measurementFrame .. | .actuationFrameSend .. | .lineCommit .. | .cbwCopyDone ..
      | .checksumReloadDone .. | .producerReplay .. | .reservationGrant .. | .entryLanding .. | .windowFetchDone ..
      | .trackerGrant .. | .headWindowRefill .. | .hostEnqueue .. | .hostEnqueueDrop | .migrationCopyDone ..
      | .coreCheckerFailure .. | .readRequest .. | .writeRequest .. | .atomicRequest .. | .creditRequest ..
      | .enqueueTransaction .. | .dequeueTransaction .. | .collectiveContribution .. | .portStateAnnouncement .. | .lostNotice ..
      | .invalidationAck .. | .fabricReply .. | .replyDeadline .. | .fabricWaitDeadline .. | .rankedAtomicApply ..
      | .rankWaitDeadline .. | .cressWindowClose .. | .leekEntryExpiry | .queueWritebackDone .. | .parsnipGranuleDone ..
      | .moduleCommandTimeout | .mbxDoorbell .. | .mailboxPageWrite .. | .mbxDoneClear .. | .longCommandDone ..
      | .mbxEvtEnable .. | .mbxEvtHeadWrite .. | .registerWrite .. | .bar0RefusedAccess .. | .bar2Write ..
      | .hostCompletionTimeout .. | .poisonedTlp .. | .pcieLinkDown | .functionLevelReset | .pcieHotReset | .jobReset ..
      | .tickArm .. | .ckpAbandon .. | .debugUnlock .. | .debugLock .. | .fwActivateWarmReset | .coldRstNAssert | .supplyFault ..
      | .perstAssert .. | .modPrsntChange .. | .storageCommandTimeout .. | .recoveryImageStream .. | .recoveryD3Grant ..
      | .ps3BoardControllerExit | .pcieConfigurationWrite .. => True
      | _ => t.streams = s.streams) ∧
      (match c with
      | .tick | .effectiveTickReached | .longCommandDone .. | .functionLevelReset | .pcieHotReset | .jobReset .. | .streamAdd ..
      | .streamRemove .. | .debugUnlock .. | .debugLock .. | .fwActivateWarmReset | .peerAdd .. | .peerRemove .. | .groupSet ..
      | .coldRstNAssert | .supplyFault .. | .perstAssert .. | .recoveryImageStream .. | .recoveryD3Grant ..
      | .ps3BoardControllerExit => True
      | _ => t.changes = s.changes) ∧
      (match c with
      | .slowNotice .. | .slowNoticeExpiry .. | .longCommandDone .. | .functionLevelReset | .pcieHotReset | .jobReset ..
      | .debugUnlock .. | .debugLock .. | .fwActivateWarmReset | .coldRstNAssert | .supplyFault .. | .perstAssert ..
      | .recoveryImageStream .. | .recoveryD3Grant .. | .ps3BoardControllerExit => True
      | _ => t.slow = s.slow)) ∧
  (∀ (c : Instr) (s t : State), exec c s = .next t →
      (match c with
      | .longCommandDone .. | .debugLock .. | .fwActivateWarmReset | .standbySupplyGood | .coldResetRelease .. | .coldRstNAssert
      | .supplyFault .. | .perstAssert .. | .perstDeassert | .bootStageComplete .. | .recoveryImageStream .. | .i3cSetdasa ..
      | .i3cEntdaa .. | .i3cPrivateWrite .. | .bypass | .idcode | .samplePreload .. | .extest | .clamp | .internalResetRelease
      | .ps3BoardControllerExit => True
      | _ => t.board = s.board) ∧
      (match c with
      | .snapArm .. | .snapTrigger .. | .snapshotTickMatch | .snapshotTimeMatch | .snapshotEventMatch .. | .snapshotTrigger ..
      | .debugLock .. | .fwActivateWarmReset | .coldRstNAssert | .supplyFault .. | .perstAssert .. | .recoveryImageStream ..
      | .ps3BoardControllerExit => True
      | _ => t.snap = s.snap) ∧
      (match c with
      | .tick | .coreRotationStart .. | .migrationCopyDone .. | .coreBistDone .. | .marrowEngineTestStart .. | .marrowBistDone ..
      | .hbmPageTestDone .. | .laneTestDone .. | .coreCheckerFailure .. | .marrowCheckerFailure .. | .managementMismatch ..
      | .longCommandDone .. | .debugLock .. | .fwActivateWarmReset | .selfTest .. | .onlineTestSet .. | .coldRstNAssert
      | .supplyFault .. | .perstAssert .. | .bootStageComplete .. | .recoveryImageStream .. | .ps3BoardControllerExit
      | .dieToDieReplay .. | .dieToDieLaneFailure .. | .spareCoreBistStart .. => True
      | _ => t.tests = s.tests) ∧
      (match c with
      | .tickStopBoundary | .thermalSample .. | .thermalStepExit .. | .longCommandDone .. | .functionLevelReset | .pcieHotReset
      | .jobReset .. | .tickArm .. | .debugLock .. | .fwActivateWarmReset | .powerCapSet .. | .coldResetRelease ..
      | .coldRstNAssert | .supplyFault .. | .perstAssert .. | .perstDeassert | .bootStageComplete .. | .powerEvaluation ..
      | .fastCurrentLimit .. | .fastLimitRelease .. | .pwrBrakeAssert | .pwrBrakeRelease | .brakeHoldExpiry | .junctionLimit ..
      | .recoveryImageStream .. | .internalResetRelease | .ps3BoardControllerExit => True
      | _ => t.power = s.power))

/-- Vector and mask registers, op lists, ops in flight, queues and their slots change only by ops, transfers, fabric and host
requests, ticks, checkpoints and resets. -/
def Obligations.CoreAndQueueStateChanges : Prop :=
  ∀ (c : Instr) (s t : State), exec c s = .next t →
    (match c with
    | .loop .. | .opListRefetchDone .. | .phaseDone .. | .matmul .. | .matmulPart .. | .anchorGather .. | .partCombine ..
    | .vop .. | .setvl .. | .xferCopy .. | .xferStridedCopy .. | .xferEnqueue .. | .xferDequeue .. | .xferAtomic ..
    | .xferFill .. | .collectiveAllReduce .. | .collectiveReduceToRoot .. | .collectiveBroadcast .. | .collectiveAllGather ..
    | .collectiveBarrier .. | .mstream .. | .mstencil .. | .mreduce .. | .mindexGather .. | .mindexScatter ..
    | .mindexAtomicScatter .. | .mtileSeal .. | .mtileVerify .. | .mtileZeroFill .. | .mtileMigrate .. | .opCompletion ..
    | .transferRequestComplete .. | .tagGrant | .tick | .undoCopyDone .. | .restorationDone | .measurementFrame ..
    | .lineCommit .. | .cbwCopyDone .. | .checksumReloadDone .. | .producerReplay .. | .reservationGrant .. | .entryLanding ..
    | .windowFetchDone .. | .trackerGrant .. | .headWindowRefill .. | .hostEnqueue .. | .hostEnqueueDrop
    | .migrationCopyDone .. | .coreCheckerFailure .. | .laneLoss .. | .laneRetrainDone .. | .flitReceive .. | .readRequest ..
    | .writeRequest .. | .atomicRequest .. | .creditRequest .. | .enqueueTransaction .. | .dequeueTransaction ..
    | .collectiveContribution .. | .portStateAnnouncement .. | .lostNotice .. | .invalidationAck .. | .fabricReply ..
    | .replyDeadline .. | .fabricWaitDeadline .. | .rankedAtomicApply .. | .rankWaitDeadline .. | .cressWindowClose ..
    | .leekEntryExpiry | .launchChunkForward .. | .queueWritebackDone .. | .parsnipGranuleDone .. | .moduleCommandTimeout
    | .mbxDoorbell .. | .mailboxPageWrite .. | .mbxDoneClear .. | .longCommandDone .. | .mbxEvtEnable .. | .mbxEvtHeadWrite ..
    | .registerWrite .. | .bar0RefusedAccess .. | .bar2Write .. | .hostCompletionTimeout .. | .poisonedTlp .. | .pcieLinkDown
    | .functionLevelReset | .pcieHotReset | .jobReset .. | .ckpAbandon .. | .debugUnlock .. | .debugLock ..
    | .fwActivateWarmReset | .selfTest .. | .routeSetOptical .. | .coldRstNAssert | .supplyFault .. | .perstAssert ..
    | .modPrsntChange .. | .storageCommandTimeout .. | .recoveryImageStream .. | .recoveryD3Grant .. | .ps3BoardControllerExit
    | .pcieConfigurationWrite .. => True
    | _ => t.cores = s.cores) ∧
    (match c with
    | .xferCopy .. | .xferStridedCopy .. | .xferEnqueue .. | .xferDequeue .. | .xferAtomic .. | .xferFill ..
    | .collectiveAllReduce .. | .collectiveReduceToRoot .. | .collectiveBroadcast .. | .collectiveAllGather ..
    | .collectiveBarrier .. | .mstream .. | .opCompletion .. | .transferRequestComplete .. | .tick | .undoCopyDone ..
    | .restorationDone | .measurementFrame .. | .actuationFrameSend .. | .lineCommit .. | .cbwCopyDone ..
    | .checksumReloadDone .. | .producerReplay .. | .reservationGrant .. | .entryLanding .. | .windowFetchDone ..
    | .slotGrant .. | .trackerGrant .. | .headWindowRefill .. | .hostEnqueue .. | .hostEnqueueDrop | .migrationCopyDone ..
    | .coreCheckerFailure .. | .readRequest .. | .writeRequest .. | .atomicRequest .. | .creditRequest ..
    | .enqueueTransaction .. | .dequeueTransaction .. | .collectiveContribution .. | .portStateAnnouncement .. | .lostNotice ..
    | .invalidationAck .. | .fabricReply .. | .replyDeadline .. | .fabricWaitDeadline .. | .rankedAtomicApply ..
    | .rankWaitDeadline .. | .cressWindowClose .. | .leekEntryExpiry | .checkpointCapture | .queueWritebackDone ..
    | .parsnipGranuleDone .. | .moduleCommandTimeout | .mbxDoorbell .. | .mailboxPageWrite .. | .mbxDoneClear ..
    | .longCommandDone .. | .mbxEvtEnable .. | .mbxEvtHeadWrite .. | .registerWrite .. | .bar0RefusedAccess .. | .bar2Write ..
    | .hostCompletionTimeout .. | .poisonedTlp .. | .pcieLinkDown | .functionLevelReset | .pcieHotReset | .jobReset ..
    | .ckpAbandon .. | .ckpRestore .. | .debugUnlock .. | .debugLock .. | .fwActivateWarmReset | .coldRstNAssert
    | .supplyFault .. | .perstAssert .. | .modPrsntChange .. | .storageCommandTimeout .. | .recoveryImageStream ..
    | .recoveryD3Grant .. | .ps3BoardControllerExit | .pcieConfigurationWrite .. => True
    | _ => t.queues = s.queues) ∧
    (match c with
    | .xferCopy .. | .xferStridedCopy .. | .xferEnqueue .. | .xferDequeue .. | .xferAtomic .. | .xferFill ..
    | .collectiveAllReduce .. | .collectiveReduceToRoot .. | .collectiveBroadcast .. | .collectiveAllGather ..
    | .collectiveBarrier .. | .mstream .. | .opCompletion .. | .transferRequestComplete .. | .undoCopyDone ..
    | .measurementFrame .. | .lineCommit .. | .cbwCopyDone .. | .checksumReloadDone .. | .producerReplay ..
    | .reservationGrant .. | .entryLanding .. | .windowFetchDone .. | .slotGrant .. | .trackerGrant .. | .headWindowRefill ..
    | .hostEnqueue .. | .hostEnqueueDrop | .migrationCopyDone .. | .coreCheckerFailure .. | .readRequest .. | .writeRequest ..
    | .atomicRequest .. | .creditRequest .. | .enqueueTransaction .. | .dequeueTransaction .. | .collectiveContribution ..
    | .portStateAnnouncement .. | .lostNotice .. | .invalidationAck .. | .fabricReply .. | .replyDeadline ..
    | .fabricWaitDeadline .. | .rankedAtomicApply .. | .rankWaitDeadline .. | .cressWindowClose .. | .leekEntryExpiry
    | .queueWritebackDone .. | .parsnipGranuleDone .. | .moduleCommandTimeout | .mbxDoorbell .. | .mailboxPageWrite ..
    | .mbxDoneClear .. | .longCommandDone .. | .mbxEvtEnable .. | .mbxEvtHeadWrite .. | .registerWrite ..
    | .bar0RefusedAccess .. | .bar2Write .. | .hostCompletionTimeout .. | .poisonedTlp .. | .pcieLinkDown | .functionLevelReset
    | .pcieHotReset | .jobReset .. | .ckpAbandon .. | .debugUnlock .. | .debugLock .. | .fwActivateWarmReset | .coldRstNAssert
    | .supplyFault .. | .perstAssert .. | .modPrsntChange .. | .storageCommandTimeout .. | .recoveryImageStream ..
    | .recoveryD3Grant .. | .ps3BoardControllerExit | .pcieConfigurationWrite .. => True
    | _ => t.slots = s.slots)

/-- Each sequencer record whose turn has come and whose conditions hold issues: the sequencer moves on, and the record has the
effect that R166 gives it. FENCE waits for the ops of its units, END_STEP for every op of the list. SETC, ADDC and SUBC leave the
count register at the value R166 gives, modulo 2^32, the sequencer issuing at the next record, and every other register, and
everything that is no register, as it was; only the cycles the sequencer has waited till now are counted in its own counters (R180).
LOOP with a zero count register goes on to the next record; otherwise the next record is its target, from the op buffer where the
target lies within it (at most 2,047 records back), after a refetch where it does not. -/
def Obligations.SequencerRecordsIssue : Prop :=
  (∀ (s : State) (l : ListId) (r : OpRecord),
      (s.issues l r 0 0 → exec (.nop l r) s = .next (s.advance l)) ∧
      (s.issues l r 0 1 → exec (.wait l r) s = .next (s.advance l)) ∧
      (s.issues l r 0 6 → (∀ o ∈ s.listOps l, o.record.unit ∉ fenceUnits l r.fenceMask) →
        exec (.fence l r) s = .next (s.advance l)) ∧
      (s.issues l r 0 7 → exec (.signal l r) s = .next ((s.advance l).signalFrom l r)) ∧
      (s.issues l r 0 8 → ∃ t, exec (.phaseDone l r) s = .next t ∧
        Tab.get 0 t.cores.passed l = setBit (Tab.get 0 s.cores.passed l) r.phase ∧
        t.fld (Fld.seqNext l) = (s.fld (Fld.seqNext l) + 1) % 2 ^ 20) ∧
      (s.issues l r 0 9 → s.listOps l = [] → exec (.endStep l r) s = .next ((s.advance l).endOfStep l)) ∧
      (l < 384 → l ∈ s.cores.refetching → ∃ t, exec (.opListRefetchDone l) s = .next t ∧ l ∉ t.cores.refetching ∧
        Tab.get 0 t.cores.bufFirst l = s.fld (Fld.seqNext l) ∧ t.regs = s.regs)) ∧
  (∀ (s : State) (l : ListId) (r : OpRecord),
      let wrote (c : Instr) (v : Nat) : Prop := ∃ t, exec c s = .next t ∧ t.count l r.dst = v % 2 ^ 32 ∧
        t.fld (Fld.seqNext l) = (s.fld (Fld.seqNext l) + 1) % 2 ^ 20 ∧ t.fld (Fld.seqState l) = 0 ∧ t.fld (Fld.seqWait l) = 0 ∧
        (∀ k, k ≠ Reg.count l r.dst → k ≠ (Fld.seqNext l).key → k ≠ Reg.waited l → (∀ j, k ≠ Reg.seqCounter l j) →
          t.reg k = s.reg k) ∧ { t with regs := s.regs } = s
      (s.issues l r 0 2 → wrote (.setc l r) r.imm) ∧
      (s.issues l r 0 3 → wrote (.addc l r) (s.count l r.dst + s.operand l r)) ∧
      (s.issues l r 0 4 → wrote (.subc l r) (s.count l r.dst + 2 ^ 32 - s.operand l r % 2 ^ 32))) ∧
  (∀ (s : State) (l : ListId) (r : OpRecord), s.issues l r 0 5 →
      ∃ t, exec (.loop l r) s = .next t ∧ { t with regs := s.regs, cores := s.cores } = s ∧
        t.cores.inflight = s.cores.inflight ∧
        (s.count l r.loopCnt = 0 → t.fld (Fld.seqNext l) = (s.fld (Fld.seqNext l) + 1) % 2 ^ 20 ∧ t.cores = s.cores) ∧
        (s.count l r.loopCnt ≠ 0 → t.fld (Fld.seqNext l) = r.loopTarget ∧
          (Tab.get 0 s.cores.bufFirst l ≤ r.loopTarget → r.loopTarget ≤ s.fld (Fld.seqNext l) →
            s.fld (Fld.seqNext l) ≤ r.loopTarget + 2047 → t.cores = s.cores) ∧
          (r.loopTarget < Tab.get 0 s.cores.bufFirst l → t.cores.refetching = s.cores.refetching ++ [l])))

/-- A record that a condition of R154 holds is not issued: its sequencer shows the wait of R179, its stall counter counts, and the
list's next record stays. A record that is not its list's next does nothing. A FENCE before ops of its units, and an END_STEP before
ops of its list, hold their sequencer in the same way. -/
def Obligations.HeldRecordsWait : Prop :=
  ∀ (s : State) (l : ListId) (r : OpRecord),
    let same (c : Instr) : Prop := l < 384 → (s.gate l r = .notNext → exec c s = .next s) ∧
      (∀ w j, s.gate l r = .held w j → exec c s = .next (s.holdSeq l w j))
    (r.unit = 0 → (r.opcode = 0 → same (.nop l r)) ∧ (r.opcode = 1 → same (.wait l r)) ∧ (r.opcode = 2 → same (.setc l r)) ∧
      (r.opcode = 3 → same (.addc l r)) ∧ (r.opcode = 4 → same (.subc l r)) ∧ (r.opcode = 5 → same (.loop l r)) ∧
      (r.opcode = 6 → same (.fence l r)) ∧ (r.opcode = 7 → same (.signal l r)) ∧ (r.opcode = 8 → same (.phaseDone l r)) ∧
      (r.opcode = 9 → same (.endStep l r))) ∧
    (l < 192 → (r.unit = 1 ∨ r.unit = 2) → (r.opcode = 1 → same (.matmul l r)) ∧ (r.opcode = 2 → same (.matmulPart l r)) ∧
      (r.opcode = 3 → same (.anchorGather l r)) ∧ (r.opcode = 4 → same (.partCombine l r))) ∧
    (l < 192 → r.unit = 3 → (r.opcode = 1 → same (.vop l r)) ∧ (r.opcode = 2 → same (.setvl l r))) ∧
    (192 ≤ l → r.unit = 5 → (r.opcode = 1 → same (.mstream l r)) ∧ (r.opcode = 2 → same (.mstencil l r)) ∧
      (r.opcode = 3 → same (.mreduce l r))) ∧
    (s.issues l r 0 6 → (∃ o ∈ s.listOps l, o.record.unit ∈ fenceUnits l r.fenceMask) →
      exec (.fence l r) s = .next (s.holdSeq l 6 11)) ∧
    (s.issues l r 0 9 → s.listOps l ≠ [] → exec (.endStep l r) s = .next (s.holdSeq l 6 11))

/-- An op of the matrix, vector or transfer engine of a core that issues is in flight from then on, its work done by the shared
operation of its kind, or waiting for its start behind another op of its engine: the state is that of State.issued. A collective op
that issues is in flight from then on; it reads its member's source with the tiles verified, but for the barrier, which has none,
and for a source that faults (the operation collStart). -/
def Obligations.CoreOpsIssue : Prop :=
  (∀ (s : State) (l : ListId) (r : OpRecord), l < 192 →
      (∀ u, (u = 1 ∨ u = 2) →
        (s.issues l r u 1 → exec (.matmul l r) s = .next (s.issued l r matrixRun)) ∧
        (s.issues l r u 2 → exec (.matmulPart l r) s = .next (s.issued l r matrixRun)) ∧
        (s.issues l r u 3 → exec (.anchorGather l r) s = .next (s.issued l r matrixRun)) ∧
        (s.issues l r u 4 → exec (.partCombine l r) s = .next (s.issued l r matrixRun))) ∧
      (s.issues l r 3 1 → exec (.vop l r) s = .next (s.issued l r vopRun)) ∧
      (s.issues l r 4 1 →
        (s.xferKind l r = 0 → exec (.xferCopy l r) s = .next ((s.issued l r xferRun).drive l)) ∧
        (s.xferKind l r = 1 → exec (.xferStridedCopy l r) s = .next ((s.issued l r xferRun).drive l)) ∧
        (s.xferKind l r = 2 → exec (.xferEnqueue l r) s = .next ((s.issued l r xferRun).drive l)) ∧
        (s.xferKind l r = 3 → exec (.xferDequeue l r) s = .next ((s.issued l r xferRun).drive l)) ∧
        (s.xferKind l r = 4 → exec (.xferAtomic l r) s = .next ((s.issued l r xferRun).drive l)) ∧
        (s.xferKind l r = 5 → exec (.xferFill l r) s = .next ((s.issued l r xferRun).drive l)))) ∧
  (∀ (s : State) (l : ListId) (r : OpRecord), l < 192 → s.issues l r 4 1 →
      let d := XferOp.of (s.rd (coreStore l + r.desc) 128)
      let runs (c : Instr) (kind : Nat) : Prop := d.kind = 6 → (CollOp.of d.ext).kind = kind →
        exec c s = .next ((s.issued l r collStart).drive l)
      runs (.collectiveAllReduce l r) 0 ∧ runs (.collectiveReduceToRoot l r) 1 ∧ runs (.collectiveBroadcast l r) 2 ∧
      runs (.collectiveAllGather l r) 3 ∧ runs (.collectiveBarrier l r) 4 ∧
      (∀ (u : State) (o : InFlight), let e := u.xferOp o
        let coll := CollOp.of e.ext
        (coll.kind = 4 ∨ u.moving e.src = false) → collStart u o = u.verified { o with queued := false } false
          (Inputs.of (if coll.kind = 4 ∨ (u.sideFault o.list false false e.src e.rowBytes).isSome then []
            else [(e.src, e.rowBytes)])) collRun))

/-- An op of a Marrow engine that issues is in flight from then on, its work done by the shared operation of its kind. The kinds of
MINDEX and MTILE are the first byte of the descriptor in the stack's scratch. -/
def Obligations.MarrowOpsIssue : Prop :=
  ∀ (s : State) (l : ListId) (r : OpRecord), 192 ≤ l →
    let kind := s.rdLE (stackScratch (marrowStack l) + r.desc) 1
    (s.issues l r 5 1 → exec (.mstream l r) s = .next (s.issued l r mstreamRun)) ∧
    (s.issues l r 5 2 → exec (.mstencil l r) s = .next (s.issued l r mstencilRun)) ∧
    (s.issues l r 5 3 → exec (.mreduce l r) s = .next (s.issued l r mreduceRun)) ∧
    (s.issues l r 5 4 →
      (kind = 0 → exec (.mindexGather l r) s = .next (s.issued l r (mindexRun mindexGatherBody))) ∧
      (kind = 1 → exec (.mindexScatter l r) s = .next (s.issued l r (mindexRun mindexScatterBody))) ∧
      (kind = 2 → exec (.mindexAtomicScatter l r) s = .next (s.issued l r (mindexRun mindexAtomicBody)))) ∧
    (s.issues l r 5 5 →
      (kind = 0 → exec (.mtileSeal l r) s = .next (s.issued l r mtileRun)) ∧
      (kind = 1 → exec (.mtileVerify l r) s = .next (s.issued l r mtileRun)) ∧
      (kind = 2 → exec (.mtileZeroFill l r) s = .next (s.issued l r mtileRun)) ∧
      (kind = 3 → exec (.mtileMigrate l r) s = .next (s.issued l r mtileRun)))

/-- SETVL sets the vector length of its core to min(n, VLMAX(ew)), VLMAX(ew) being 4,096 bits over the element width; the grant
reaches its count register when the op completes, and nothing else of the core's vectors or memory changes. It waits behind a vector
op that has not started or waits for a tile. -/
def Obligations.SetvlGrants : Prop :=
  ∀ (s : State) (l : ListId) (r : OpRecord), l < 192 → s.issues l r 3 2 →
    let n := if r.src then s.count l r.srcReg else r.imm
    let g := min n (4096 / (8 * 2 ^ r.ew))
    (∀ o ∈ s.listOps l, o.record.unit = 3 → o.queued = false ∧ o.reloading = []) →
    ∃ t, exec (.setvl l r) s = .next t ∧ Tab.get 0 t.cores.vl l = g ∧ (∀ m, m ≠ l → Tab.get 0 t.cores.vl m = Tab.get 0 s.cores.vl m) ∧
      t.cores.vregs = s.cores.vregs ∧ t.mem = s.mem ∧ (∀ i, i < 64 → t.count l i = s.count l i) ∧
      ((∀ o ∈ s.cores.inflight, o.id ≠ s.cores.nextId) →
        ∃ o, t.op? s.cores.nextId = some o ∧ o.list = l ∧ o.record = r ∧ o.idx = g ∧ o.queued = false)

/-- What happens to ops in flight: an engine's op completes; a request's end, a tag, a reread count, a reloaded or replayed tile let
its op go on (R156, R157, R174, R175, R228, R229). -/
def Obligations.OpsInFlightGoOn : Prop :=
  ∀ s : State,
    (∀ id o, s.op? id = some o → o.record.unit ≠ 4 → s.running o = true →
      let s1 := s.startQueued o
      (∀ p, s1.op? id = some p → exec (.opCompletion id) s = .next ((s1.completeOp p).startQueued o)) ∧
      (s.startable o.list o.record.unit = none → s1 = s)) ∧
    (∀ id o req r data, s.op? id = some o → o.requests.find? (fun r => decide (r.num = req) && r.sent) = some r →
      o.record.unit = 4 →
      let s1 := s.bump64 (Reg.seqCounter o.list 3) 1
      (r.path = .memory ∨ r.path = .hostWrite → exec (.transferRequestComplete id req data true) s =
        .next (s1.requestDone o req none)) ∧
      (r.path = .hostRead → exec (.transferRequestComplete id req data true) s =
        .next (s1.requestDone o req (some (padTo r.len data)))) ∧
      (r.path = .hostRead ∨ r.path = .hostWrite → exec (.transferRequestComplete id req data false) s =
        .next (s1.requestDone (o.failed Status.addressFault r.addr) req none))) ∧
    (∀ l o r, s.tagsUsed < 45056 → s.outstanding l < 256 → s.nextUnsent l = some (o, r) →
      (roundRobin s.cores.tagTurn).find? (fun m => (s.nextUnsent m).isSome && decide (s.outstanding m < 256)) = some l →
      let s1 := s.sendReq o r
      exec .tagGrant s = .next ({ s1 with cores := { s1.cores with tagTurn := (l + 1) % 192 } }).settle) ∧
    (∀ l r, l < 384 → s.fld (Fld.seqState l) = 1 → s.fld (Fld.seqWait l) = 3 →
      (s.list l)[s.fld (Fld.seqNext l)]? = some r →
      (s.preWait l r = true → ∃ t, exec (.queueWaitReread l) s = .next t ∧ t.fld (Fld.seqState l) = 0 ∧ t.fld (Fld.seqWait l) = 0) ∧
      (s.preWait l r = false → exec (.queueWaitReread l) s = .next (s.countWait l))) ∧
    (∀ id o tile v, s.op? id = some o → o.awaits tile = true → tile ∉ o.replaying →
      let s1 := (s.badRead (s.badIn (tile * 4096) 4096)).countFails [tile]
      (v = true → s.badTile tile = false → exec (.checksumReloadDone id tile v) s = .next (s.tileRecovered o tile 2)) ∧
      (v = false ∨ s.badTile tile = true →
        (s1.replayable tile = true → exec (.checksumReloadDone id tile v) s =
          .next (s1.setOp { o with replaying := o.replaying ++ [tile] })) ∧
        (s1.replayable tile = false → exec (.checksumReloadDone id tile v) s = .next (s1.tileLost o tile)))) ∧
    (∀ id o tile v s1 o1 e, s.op? id = some o → o.awaits tile = true → tile ∈ o.replaying →
      s.replayOf tile = some (s1, o1, e) →
      let s2 := s.writePiece .firmware (some (s.tag (tile * 4096))) (tile * 4096) (s1.rdNew (tile * 4096) 4096)
      let s3 := if tile * 4096 < hbmBytes then s2.bump32 (Reg.ckReplay (s2.stackOf (tile * 4096))) 1 else s2
      let s4 := (s3.onRecord (fun x => { x with replays := x.replays + 1 })).excursion 4
      exec (.producerReplay id tile v) s =
        .next (if v then s4.tileRecovered o tile 3 else (s4.countFails [tile]).tileLost o tile))

/-- Tick k fires at its programmed time once armed: the tick number counts on, and the record of tick k begins. With the way clear a
step starts, or a halt holds it; a step that still runs skips the tick; abort-step takes the step back for its rerun. The tick stops
at the boundary of its named tick, which does not fire; run written 0 names the next one. Changes, halts and resumptions take effect
at the boundary they name. A phase is released at its start offset; an incomplete phase is recorded at its warning point and at its
deadline, and nothing else than the time and the tick record changes by that. -/
def Obligations.TicksAndPhasesFollowTheirTimes : Prop :=
  (∀ s : State, s.armed = true → (∀ k, s.tick.stopAt = some k → s.tick.next < k) →
      let k := s.tick.next
      let s0 := s.at_ (s.tickTime k)
      (∃ t, exec .tick s = .next t ∧ t.tick.next = k + 1 ∧ t.tick.record.number = k) ∧
      (s.tick.pointPassed = true → s.tick.stopped = none →
        (s.tick.overrun = none → s.tick.stepRunning = false → s.tick.rerun = false → exec .tick s = .next ((s0.boundary k).startOrHalt k)) ∧
        (s.tick.overrun = some 0 → s.tick.stepRunning = true → ∃ t, exec .tick s = .next t ∧
          bitOf t.tick.record.flags 1 = true ∧ t.tick.stepRunning = true ∧ t.tick.stepTick = s.tick.stepTick) ∧
        (s.tick.overrun = some 1 → s.tick.stepRunning = true → s.tick.rerun = false → ∃ t, exec .tick s = .next t ∧
          bitOf t.tick.record.flags 3 = true ∧ t.tick.stepRunning = false ∧ t.tick.rerun = true))) ∧
  (∀ s : State,
      (∀ k, s.tick.stopAt = some k → k ≤ s.tick.next → exec .tickStopBoundary s =
        .next (s.at_ (s.tickTime s.tick.next)).stopTick) ∧
      (s.fld Fld.run = 1 → ∃ t, exec .tckCtrlRunClear s = .next t ∧ t.fld Fld.run = 0 ∧ t.fld Fld.stopPending = 1 ∧
        (∃ k, t.tick.stopAt = some k ∧ k ≤ s.tick.next) ∧ t.mem = s.mem ∧ t.queues = s.queues) ∧
      (s.armed = true → (∃ c ∈ s.changes, c.1 ≤ s.tick.next) → ∃ t, exec .effectiveTickReached s = .next t ∧
        (∀ c ∈ t.changes, s.tick.next < c.1)) ∧
      (s.armed = true → s.haltNow s.tick.next = true → s.tick.stepRunning = false → s.tick.rerun = false →
        ∃ t, exec .stepHaltTick s = .next t ∧ t.fld Fld.halted = 1 ∧ t.tick.halted = true) ∧
      (s.armed = true → s.tick.halted = true → s.haltNow s.tick.next = false →
        ∃ t, exec .stepResumeTick s = .next t ∧ t.fld Fld.halted = 0 ∧ t.tick.halted = false)) ∧
  (∀ (s : State) (p : Nat), p < 16 →
      (s.tick.stepRunning = true → s.phaseValid p = true →
        exec (.phaseRelease p) s = .next ((s.at_ (s.stepAt (s.fld (Fld.phaseStart p)))).releasePhase p)) ∧
      (s.phaseOpen p = true →
        (s.fld Fld.warnFrac ≠ 0 → ∃ t, exec (.phaseWarning p) s = .next t ∧ bitOf t.tick.record.warning p = true ∧
          (∀ k, k ≠ Reg.tckTime → t.reg k = s.reg k) ∧ { t with tick := s.tick, regs := s.regs } = s) ∧
        (∃ t, exec (.phaseLate p) s = .next t ∧ bitOf t.tick.record.late p = true ∧
          (∀ k, k ≠ Reg.tckTime → t.reg k = s.reg k) ∧ { t with tick := s.tick, regs := s.regs } = s)))

/-- The overrun decision, a peer's triggers and the end of a restoration. A trigger from a peer of this job in an idle overrun state
applies the policy in force at the next tick; a fault elsewhere stops the device's sequencers. A slow notice is in force for 250 µs
from its arrival, and replaces the sender's earlier one of that cause; a factor of 1.0 clears it. The device repeats a notice for
every cause of its own that lasts. -/
def Obligations.PeersStopAndSlowTheTick : Prop :=
  (∀ s : State,
      (s.fld Fld.running ≠ 0 → s.tick.pointPassed = false → exec .overrunDecision s =
        .next ((s.at_ (s.tickTime s.tick.next - s.fld Fld.guard * 10)).decideOverrun)) ∧
      (∀ tx : Tx, tx.type = 0xA → tx.dst = s.gdn → s.fromPeer tx = true →
        (tx.op = 0 → s.fld Fld.running ≠ 0 → s.tick.stopped = none → s.tick.overrun = none → s.memory.undoFull = false →
          ∃ t, exec (.overrunTrigger tx) s = .next t ∧
            t.tick.overrun = some (if tx.word % 2 = 1 then 0 else if s.fld Fld.overrunPolicy = 1 then 1 else 0) ∧
            t.regs = s.regs ∧ t.mem = s.mem) ∧
        (tx.op = 2 → s.job.isSome = true → s.tick.stopped = none → s.fld Fld.state ≠ 6 → s.fld Fld.state ≠ 8 → ∃ t, exec (.jobStoppedTrigger tx) s = .next t ∧
          t.tick.stopped = some (tx.word % 2 ^ 16) ∧ t.fld Fld.state = 5)) ∧
      (s.tick.rerun = true → s.fld Fld.running ≠ 0 → s.tick.stopped = none → s.tick.stepRunning = false →
        exec .restorationDone s = .next ((s.memory.undo.foldl (fun s e => s.restoreImage e.1 e.2.image) s).startStep))) ∧
  (∀ s : State,
      (∀ tx : Tx, tx.type = 8 → tx.op = 0 → tx.dst = s.gdn → s.fromPeer tx = true → ∃ t, exec (.slowNotice tx) s = .next t ∧
        (∀ n, n ∈ t.slow ↔ (n ∈ s.slow ∧ ¬(n.src = tx.src ∧ n.cause = tx.word / 256 % 4)) ∨
          (tx.word % 256 ≠ 0x10 ∧ n = ⟨tx.src, tx.word % 256, tx.word / 256 % 4, s.now + us 250⟩))) ∧
      (∀ src n, s.slow.find? (fun n => n.src = src) = some n → n.expiry < 2 ^ 64 → ∃ t, exec (.slowNoticeExpiry src) s = .next t ∧
        n.expiry ≤ t.now ∧ n ∉ t.slow ∧ (∀ m ∈ s.slow, m.src ≠ src → m ∈ t.slow)) ∧
      (∀ s1 : State, s1 = { s with ownSlow := s.ownSlow.filter (fun o => o.lasts s.now) } →
        exec .slowNoticeRepeat s = .next (([0, 1, 2].filter (fun c => s1.ownSlow.any (fun o => o.cause = c))).foldl
          (fun s c => s.sendSlow (s.slowOf c) c) s1)))

/-- A measured offset moves the time state as R39 and R40 say: an offset over 1 µs steps time while the tick is stopped, and ends
LOCKED with a fault event while it runs; 16 good measurements in a row lock time. PTP messages in the device's domain and transport,
on a port that PTP uses: an announce message counts for the best master clock, an offset that a message completes is taken on the
slave port, delay requests are answered as the profile and the port's state say, management messages ignored. A master port sends
sync, with its follow-up in two-step operation; a slave port, or every port of the peer-to-peer profile, sends delay requests. Any
other message is ignored. -/
def Obligations.OffsetsAndPtpMoveTheTime : Prop :=
  (∀ (s : State) (o : Int) (ok : Bool), let t := s.measure o ok
      (o.natAbs ≤ 1000 → s.fld Fld.timeState = 1 → (ok = false → t.time.good = 0 ∧ t.regs = s.regs) ∧
        (ok = true → s.time.good + 1 < 16 → t.time.good = s.time.good + 1 ∧ t.regs = s.regs) ∧
        (ok = true → 16 ≤ s.time.good + 1 → t.fld Fld.timeState = 2 ∧
          t.fld Fld.timeLead = (if s.timeSource = 0 ∨ s.timeSource = 2 then 1 else 0))) ∧
      (o.natAbs ≤ 1000 → s.fld Fld.timeState = 2 → t.regs = s.regs ∧ t.sent = s.sent ∧
        t.time = { s.time with offset := o, rate := t.time.rate } ∧ t.time.rate.natAbs ≤ 50000) ∧
      (1000 < o.natAbs → s.fld Fld.timeState = 2 ∨ s.fld Fld.timeState = 1 → s.armed = false →
        t.fld Fld.timeState = 1 ∧ t.fld Fld.timeLead = 0 ∧ t.reg Reg.tckTime = BitVec.ofInt 64 ((s.now : Int) - o)) ∧
      (1000 < o.natAbs → s.fld Fld.timeState = 2 → s.armed = true → t.fld Fld.timeState = 3 ∧ t.fld Fld.timeLead = 0 ∧
        t.time.holdoverStart = s.now ∧ t.now = s.now) ∧
      (s.fld Fld.timeState = 3 → s.armed = true → t.regs = s.regs)) ∧
  (∀ (s : State),
      (∀ m : PtpMsg, m.port < 2 →
        (s.ptpOn m.port = false ∨ m.domain ≠ s.time.ptpDomain ∨ m.transport ≠ s.ptpTransport → exec (.ptpMessage m) s = .next s) ∧
        (s.ptpOn m.port = true → m.domain = s.time.ptpDomain → m.transport = s.ptpTransport →
          (m.kind = .management → exec (.ptpMessage m) s = .next s) ∧
          (∀ r, m.kind = .announce → m.announce = some r → exec (.ptpMessage m) s = .next (s.hearClock m.port r)) ∧
          (∀ o, m.kind ≠ .management → m.kind ≠ .announce → m.kind ≠ .delayReq → m.kind ≠ .pdelayReq → m.offset = some o →
            (s.ptpPort m.port = .slave → s.timeSource = 0 →
              exec (.ptpMessage m) s = .next (s.measure o (decide (o.natAbs ≤ 20)))) ∧
            (s.ptpPort m.port = .slave → s.timeSource = 2 → exec (.ptpMessage m) s = .next (s.setSecond o)) ∧
            (s.ptpPort m.port ≠ .slave → exec (.ptpMessage m) s = .next s)) ∧
          (m.kind = .delayReq → s.ptpPort m.port = .master → s.time.ptpProfile = 0 →
            exec (.ptpMessage m) s = .next (s.send (.ptp m.port .delayResp s.now))) ∧
          (m.kind = .pdelayReq → s.time.ptpProfile = 1 → exec (.ptpMessage m) s =
            .next (if s.twoStep then (s.send (.ptp m.port .pdelayResp s.now)).send (.ptp m.port .pdelayRespFollowUp s.now)
              else s.send (.ptp m.port .pdelayResp s.now))))) ∧
      (∀ p, p < 2 →
        (s.ptpOn p = true → s.ptpPort p = .master → ∃ t, exec (.ptpSyncSend p) s = .next t ∧ t.sent = s.sent ++ (.ptp p .sync s.now ::
          (if s.twoStep then [.ptp p .followUp s.now] else [])) ∧ { t with sent := s.sent } = s) ∧
        (s.ptpOn p = true → s.time.ptpProfile = 1 → exec (.delayRequestSend p) s = .next (s.send (.ptp p .pdelayReq s.now))) ∧
        (s.ptpOn p = true → s.time.ptpProfile = 0 → s.ptpPort p = .slave →
          exec (.delayRequestSend p) s = .next (s.send (.ptp p .delayReq s.now))) ∧
        (s.ptpOn p = false ∨ s.ptpPort p ≠ .master → exec (.ptpSyncSend p) s = .next s)))

/-- Fabric time and the other sources: a lead sends its time on every port in service, a follower takes the lowest lead's, a lead
that hears a lower one says so once, and a lost source ends LOCKED. -/
def Obligations.TimeSourcesAndLeads : Prop :=
  ∀ s : State,
    (s.fld Fld.timeLead = 1 → exec .fabricTimeSend s = .next (s.sendTime s.gdn (List.range 38))) ∧
    (∀ p lead o, p < 48 → lead < 65536 → s.timeSource = 1 →
      (∀ l, s.time.lead = some l → l < lead → exec (.timeTransaction p lead o true) s = .next s) ∧
      ((∀ l, s.time.lead = some l → lead ≤ l) → exec (.timeTransaction p lead o true) s =
        .next ((({ s with time := { s.time with lead := some lead } } : State).measure o (decide (o.natAbs ≤ 20))).sendTime lead
          (({ s with time := { s.time with lead := some lead } } : State).awayFrom lead)))) ∧
    (∀ p lead o v, p < 48 → lead < 65536 → s.timeSource = 0 ∨ s.timeSource = 2 → lead < s.gdn →
      ∃ t, exec (.timeTransaction p lead o v) s = .next t ∧ t.fld Fld.leadConflict = 1 ∧ t.time.lowerLead = some s.now ∧
        t.fld Fld.timeSrc = s.fld Fld.timeSrc) ∧
    (∀ at_, s.time.lowerLead = some at_ → ∃ t, exec .leadConflictExpiry s = .next t ∧ t.time.lowerLead = none ∧
      t.fld Fld.leadConflict = 0 ∧ t.mem = s.mem) ∧
    (s.timeSource = 0 ∨ s.timeSource = 1 → s.fld Fld.timeState = 2 → ∃ t, exec (.timeSourceLoss .source) s = .next t ∧
      t.fld Fld.timeState = 3 ∧ t.fld Fld.timeLead = 0 ∧ t.time.lead = none ∧ t.time.best = none ∧
      t.fld Fld.running = s.fld Fld.running) ∧
    (s.timeSource = 2 → s.fld Fld.timeState = 2 →
      (∃ t, exec (.timeSourceLoss .pps) s = .next t ∧ t.fld Fld.timeState = 3 ∧ t.fld Fld.pps = 0) ∧
      (∃ t, exec (.timeSourceLoss .tenMhz) s = .next t ∧ t.fld Fld.timeState = 3 ∧ t.fld Fld.tenMhz = 0)) ∧
    (∀ o, s.timeSource = 2 → s.fld Fld.timeState = 1 → s.time.good = 15 → o.natAbs ≤ 1000 →
      ∃ t, exec (.time1ppsEdge true true o) s = .next t ∧ t.fld Fld.timeState = 2) ∧
    (s.fld Fld.timeState = 2 ∨ s.fld Fld.timeState = 3 → s.now / us 1000000 + 1 < 2 ^ 34 → ∃ t, exec .ppsOutEdge s = .next t ∧
      t.sent = s.sent ++ [.pps ((s.now / us 1000000 + 1) * us 1000000)] ∧ t.now = (s.now / us 1000000 + 1) * us 1000000) ∧
    (∀ p ns, p < 48 → ∃ t, exec (.linkDelayMeasurement p ns) s = .next t ∧ t.reg (Reg.portDelay p) =
      setBits (s.reg (Reg.portDelay p)) 31 0 ns ∧ (∀ k, k ≠ Reg.portDelay p → t.reg k = s.reg k) ∧ { t with regs := s.regs } = s)

/-- A plant frame that its stream admits, well-formed, with a right checksum and a new sequence number lands whole in the stream's
queue where there is room; for each reason of R63 it is dropped, and counted in the stream's counter of that reason and in the tick
record. A fragment is dropped and counted, and a datagram to another port only passes time. -/
def Obligations.MeasurementFramesLandOrDrop : Prop :=
  ∀ (s : State) (d : Datagram), d.port < 2 →
    let s1 := s.at_ d.arrival
    let bs := d.bytes
    let id := fieldLE bs 4 2
    let dropped (f : Stream → Stream) (st : Stream) : Prop := ∃ t, exec (.measurementFrame d) s = .next t ∧
      Tab.find? t.streams id = some (f st) ∧ t.tick.record.dropped = s.tick.record.dropped + 1 ∧ t.mem = s.mem ∧ t.queues = s.queues
    (d.fragment = true → ∃ t, exec (.measurementFrame d) s = .next t ∧ t.host.ipFragments = s.host.ipFragments + 1 ∧
      t.tick.record.dropped = s.tick.record.dropped + 1 ∧ t.mem = s.mem ∧ t.queues = s.queues ∧ t.streams = s.streams) ∧
    (d.fragment = false → d.dstPort ≠ s.plantPort d.port → exec (.measurementFrame d) s = .next s1) ∧
    (d.fragment = false → d.dstPort = s.plantPort d.port →
      (Tab.find? s.streams id = none → ∃ t, exec (.measurementFrame d) s = .next t ∧ t.streams = s.streams ∧
        t.tick.record.dropped = s.tick.record.dropped + 1) ∧
      (∀ st, Tab.find? s.streams id = some st →
        (st.admits d = false ∨ fieldLE bs 3 1 ≠ 1 → dropped (fun x => { x with c0 := x.c0 + 1 }) st) ∧
        (st.admits d = true → fieldLE bs 3 1 = 1 →
          (frameForm bs = false → dropped (fun x => { x with c1 := x.c1 + 1 }) st) ∧
          (frameForm bs = true →
            ((crc32c (bs.drop 32)).toNat ≠ fieldLE bs 0x1C 4 → dropped (fun x => { x with c2 := x.c2 + 1 }) st) ∧
            ((crc32c (bs.drop 32)).toNat = fieldLE bs 0x1C 4 →
              (∀ l, st.last = some l → newer (fieldLE bs 8 4) l = false → dropped (fun x => { x with c3 := x.c3 + 1 }) st) ∧
              ((∀ l, st.last = some l → newer (fieldLE bs 8 4) l = true) →
                let x := s1.landFrame st.queue (frameDesc st id d :: chunksOf 64 128 (bs.drop 32))
                (x.2 = false → dropped (fun x => { x with c4 := x.c4 + 1 }) st) ∧
                (x.2 = true → ∃ t, exec (.measurementFrame d) s = .next t ∧
                  Tab.find? t.streams id = some { st with last := some (fieldLE bs 8 4) } ∧
                  t.tick.record.landed = x.1.tick.record.landed + 1 ∧ t.mem = x.1.mem ∧ t.queues = x.1.queues)))))))

/-- One frame taken for an actuation stream: the first packet of its step is sent if it came 2 µs before its scheduled time, or
under send-late with flags bit 0 set, on every port of the stream; otherwise it is discarded and counted, as a further packet of
that step is, and as a packet is whose first entry is malformed (the model's choice, log entry 123). F, and no other position,
advances over it in each case. At its time an actuation stream takes every frame its queue holds, in their order; in the job-stopped
state, none. -/
def Obligations.ActuationFramesFollowTheLatePolicy : Prop :=
  (∀ (s : State) (id : Nat) (st : Stream) (k : ActFrame), Tab.find? s.streams id = some st →
      let t := s.takeActuation id k
      let e := s.entryBytes st.queue k.start
      let payload := (List.range (k.size - 1)).flatMap (fun i => s.entryBytes st.queue (k.start + 1 + i))
      let sched := k.stepTime + st.offset * 10
      let late := decide (sched < k.time + 2000)
      let seq := match st.last with | some l => (l + 1) % 2 ^ 32 | none => 0
      (t.queue st.queue).pos = { (s.queue st.queue).pos with f := k.start + k.size } ∧ t.mem = s.mem ∧
      (st.taken = some k.step ∨ actForm e k.size = false → ∃ st', Tab.find? t.streams id = some st' ∧ st'.c3 = st.c3 + 1 ∧
        st'.last = st.last ∧ t.sent = s.sent ∧ t.tick.record.actLate = s.tick.record.actLate + 1) ∧
      (st.taken ≠ some k.step → actForm e k.size = true →
        (late = false ∨ bitOf st.flags 3 = true → ∃ st', Tab.find? t.streams id = some st' ∧ st'.c0 = st.c0 + 1 ∧
          st'.taken = some k.step ∧ st'.last = some seq ∧ t.tick.record.actSent = s.tick.record.actSent + 1 ∧
          ∃ xs, t.sent = s.sent ++ xs ∧ xs.length = ((List.range 2).filter (fun p => bitOf st.flags p)).length ∧
            ∀ x ∈ xs, ∃ p at_, bitOf st.flags p = true ∧ sched ≤ at_ ∧ x = .actuation id p at_ (st.ip, st.udpPort)
              (s.portIp p (bitOf st.flags 2), s.plantPort p) (actBytes id seq sched late e payload)) ∧
        (late = true → bitOf st.flags 3 = false → ∃ st', Tab.find? t.streams id = some st' ∧ st'.c2 = st.c2 + 1 ∧
          st'.taken = some k.step ∧ st'.last = st.last ∧ t.sent = s.sent ∧ t.tick.record.actLate = s.tick.record.actLate + 1))) ∧
  (∀ (s : State) (id : Nat) (st : Stream), id < 4096 → Tab.find? s.streams id = some st → st.type = 2 →
      (s.tick.stopped = none →
        let s1 := s.at_ (s.tick.record.time + st.offset * 10)
        exec (.actuationFrameSend id) s = .next ((s1.queue st.queue).frames.foldl (fun s k => s.takeActuation id k) s1)) ∧
      (s.tick.stopped.isSome = true → exec (.actuationFrameSend id) s = .next s))

/-- ARP, neighbour discovery and echo on an Ethernet port: a message for the port's own address under its VLAN tag is answered, and
any other is ignored; nothing else changes. A datagram to the remote mailbox port: a fragment is discarded and counted, the message
of the last response is answered again, one of a wrong length or that no operator key signs with a new counter is discarded and
counted, and the others are posted. -/
def Obligations.DatagramsAreAnsweredOrAuthenticated : Prop :=
  (∀ (s : State) (q : NetQuery), q.port < 2 →
      exec (.arpRequest q) s = .next (if s.vlanOk q ∧ s.ownIpv4 q then s.send (.arpReply q) else s) ∧
      exec (.neighbourDiscovery q) s = .next (if s.vlanOk q ∧ s.ownIpv6 q then s.send (.ndReply q) else s) ∧
      exec (.icmpEcho q) s = .next (if s.vlanOk q ∧ (s.ownIpv4 q ∨ s.ownIpv6 q) then s.send (.echoReply q) else s) ∧
      (s.netField q.port 8 4 = 0 → s.ownIpv4 q = false) ∧
      (bitOf (s.netField q.port 6 2) 12 = true → (s.vlanOk q = true ↔ q.vlan = s.netField q.port 6 2 % 4096)) ∧
      (bitOf (s.netField q.port 6 2) 12 = false → (s.vlanOk q = true ↔ q.vlan = 0))) ∧
  (∀ (s : State) (d : Datagram), d.port < 2 →
      let n := 32 + fieldLE d.bytes 8 2
      let k := 48 + fieldLE d.bytes 4 1 % 16
      let kept := Tab.get ([], []) s.host.remoteKept k
      let fits (i : Nat) : Prop := Config.rsaVerifies (s.operatorKey i) (slice d.bytes n 8 ++ d.bytes.take n) (slice d.bytes (n + 8) 384) = true ∧
        Tab.get 0 s.host.remoteCount (i * 64 + k) ≤ fieldLE d.bytes n 8
      (d.fragment = true → ∃ t, exec (.remoteMailboxDatagram d) s = .next t ∧ t.host.ipFragments = s.host.ipFragments + 1 ∧ t.regs = s.regs) ∧
      (d.fragment = false → s.fld Fld.remoteMbx ≠ 1 ∨ d.dstPort ≠ 47001 → exec (.remoteMailboxDatagram d) s = .next s) ∧
      (d.fragment = false → s.fld Fld.remoteMbx = 1 → d.dstPort = 47001 → s.served = true →
        (d.bytes = kept.1 → kept.1 ≠ [] → exec (.remoteMailboxDatagram d) s = .next (s.resendKept d kept.2)) ∧
        (d.bytes ≠ kept.1 → d.bytes.length ≠ n + 392 → exec (.remoteMailboxDatagram d) s = .next (s.bump Fld.authFail 1)) ∧
        (d.bytes ≠ kept.1 → d.bytes.length = n + 392 → n ≤ 4096 → (∀ i, i < min 4 (fieldLE s.remoteRecord 1 1) → ¬fits i) →
          exec (.remoteMailboxDatagram d) s = .next (s.bump Fld.authFail 1)) ∧
        (∀ i, d.bytes ≠ kept.1 → d.bytes.length = n + 392 → n ≤ 4096 → i < min 4 (fieldLE s.remoteRecord 1 1) → fits i →
          (∀ j, j < i → ¬fits j) → exec (.remoteMailboxDatagram d) s =
            .next (s.takeRemote d k i (d.bytes.take n) (fieldLE d.bytes n 8)))))

/-- A row fails when the scrubber finds an uncorrectable line in it, or a line that still needs correction after correction; a clean
line and a corrected one fail no row. An uncorrectable line stays as it is, for its tile's next reader to find; the line of a read
that cannot be corrected fails its row too. -/
def Obligations.RowsFailAsR231Says : Prop :=
  ∀ (s : State) (st ch pc row addr : Nat), st < 12 → ch < 32 → pc < 2 →
    let noted (t : State) : State :=
      if s.liesIn st ch addr then { t with memory := { t.memory with
        bad := t.memory.bad.filter (fun l => l.1 ≠ addr / 64) ++ [(addr / 64, ch, pc, row)] } } else t
    exec (.scrub st ch pc row addr .uncorrectable) s =
      .next ((noted (s.bump32 (Reg.errUncorr st) 1)).rowFails st ch pc row addr) ∧
    exec (.scrub st ch pc row addr .correctedAgain) s = .next ((s.bump32 (Reg.errCorr st) 1).rowFails st ch pc row addr) ∧
    exec (.scrub st ch pc row addr .corrected) s = .next (s.bump32 (Reg.errCorr st) 1) ∧
    exec (.scrub st ch pc row addr .clean) s = .next s ∧
    (∀ line, s.badRead [(line, ch, pc, row)] =
      (s.bump32 (Reg.errUncorr (s.stackOf (line * 64))) 1).rowFails (s.stackOf (line * 64)) ch pc row (line * 64))

/-- What a failing row does: the first time it is remapped to a spare row and marked for hard repair; where it fails again, or the
table of its pseudo-channel is full, its page is retired and migrates, unless the channel holds 32 retired pages or the pool is
empty, when the channel is mapped out, or stays in service with less capacity at the next admission while the reserve cannot take
it. Page and channel migrations and granule copies end: the page is retired; the channel reads mapped out and its pages return, and
what was kept in service is mapped out as far as the reserve now goes; the writes that waited for a copy go on, and what waited
behind them; the line's next requests commit. -/
def Obligations.FailedRowsAreRepairedOrRetired : Prop :=
  (∀ (s : State) (st ch pc row addr : Nat), st < 12 → ch < 32 →
      let t := s.rowFails st ch pc row addr
      let k := (st, ch, pc, row)
      let p := (st, ch, s.pageOf addr)
      let full := 64 ≤ (s.memory.remapped.filter (fun r => r.1 = st && r.2.1 = ch && r.2.2.1 = pc)).length
      (k ∉ s.memory.remapped → ¬full → t.memory.remapped = s.memory.remapped ++ [k] ∧
        t.memory.hardPending = s.memory.hardPending ++ [k] ∧ t.mram.hardPending = s.memory.hardPending ++ [k] ∧ t.mem = s.mem) ∧
      (k ∈ s.memory.remapped ∨ full → s.memory.pageTest = [] → p ∉ s.memory.pageMig →
        (s.fld (Fld.chanRetired st ch) < 32 → s.fld (Fld.poolFree st) ≠ 0 → t.memory.pageMig = s.memory.pageMig ++ [p] ∧
          t.fld (Fld.chanRetired st ch) = s.fld (Fld.chanRetired st ch) + 1 ∧ t.memory.remapped = s.memory.remapped ∧ t.mem = s.mem) ∧
        (32 ≤ s.fld (Fld.chanRetired st ch) ∨ s.fld (Fld.poolFree st) = 0 → s.fld (Fld.chanState st ch) = 0 →
          (24576 ≤ s.fld Fld.freePages → t.memory.chanMig = s.memory.chanMig ++ [(st, ch)] ∧ t.fld (Fld.chanState st ch) = 1) ∧
          (s.fld Fld.freePages < 24576 → t.memory.chanStuck = s.memory.chanStuck ++ [(st, ch)] ∧
            t.fld (Fld.chanState st ch) = 3 ∧ t.fld (Fld.capNext st) = s.fld (Fld.capNext st) - 1472)))) ∧
  (∀ s : State,
      (∀ st ch page, st < 12 → ch < 32 → (st, ch, page) ∈ s.memory.pageMig → ∃ t, exec (.pageMigrationDone st ch page) s = .next t ∧
        (st, ch, page) ∉ t.memory.pageMig ∧
        t.memory.retired = s.memory.retired.filter (fun p => p ≠ (st, ch, page)) ++ [(st, ch, page)] ∧ t.mem = s.mem ∧ t.regs = s.regs) ∧
      (∀ st ch, st < 12 → ch < 32 → (st, ch) ∈ s.memory.chanMig → ∃ t : State, exec (.channelMigrationDone st ch) s = .next t.mapStuck ∧
        t.fld (Fld.chanState st ch) = 2 ∧ t.fld (Fld.chanRetired st ch) = 0 ∧ (st, ch) ∉ t.memory.chanMig ∧
        (∀ p ∈ t.memory.retired, ¬(p.1 = st ∧ p.2.1 = ch)) ∧ t.mem = s.mem) ∧
      (∀ g u, Tab.find? s.memory.undo g = some u → u.done = false → exec (.undoCopyDone g) s =
        .next ({ s with memory := { s.memory with undo := Tab.put g { u with done := true } s.memory.undo } } : State).goOn) ∧
      (∀ g im, Tab.find? s.ckpt.grans g = some (.saving im) → exec (.cbwCopyDone g) s =
        .next ({ s with ckpt := { s.ckpt with grans := Tab.put g (.saved im) s.ckpt.grans } } : State).goOn) ∧
      (∀ line, s.queueAt line ≠ [] → exec (.lineCommit line) s = .next
        (((((s.at_ (s.busyUntil line)).pull line (((s.at_ (s.busyUntil line)).queueAt line).length + 1)).finishServes).settle).releaseHeld)))

/-- A hotter step applies at once, with its clock, its excursion and its notices; above 105 °C the stack stops the device; a stack
leaves a step only after 1 ms at least 3 °C below its threshold, one step at a time. -/
def Obligations.ThermalStepsFollowTheSamples : Prop :=
  ∀ (s : State) (st : Nat), st < 12 →
    (∀ c, c < 256 →
      let s1 := s.setFld (Fld.temp st) c
      let step := if 95 ≤ c then 2 else if 85 ≤ c then 1 else 0
      (s.fld (Fld.tstep st) = 3 → exec (.thermalSample st c) s = .next s1) ∧
      (s.fld (Fld.tstep st) ≠ 3 → 105 < c → ∃ t, exec (.thermalSample st c) s = .next t ∧
        t = ((s1.setFld (Fld.tstep st) 3).protectiveStop st c).refreshPower ∧ t.fld (Fld.tstep st) = 3 ∧ t.fld Fld.state = 6 ∧
        (s.fld Fld.state ≠ 6 → t.fld Fld.running = 0 ∧ t.tick.stepRunning = false)) ∧
      (s.fld (Fld.tstep st) < step → c ≤ 105 → ∃ t, exec (.thermalSample st c) s = .next t ∧
        t = (s1.enterStep st step).noteCool st ∧ t.fld (Fld.temp st) = c ∧ t.fld (Fld.tstep st) = step ∧
        t.fld (Fld.clkMult (st / 3)) = t.dieClock (st / 3) % 128 ∧ bitOf t.tick.record.excursions 0 = true ∧ t.mem = s.mem) ∧
      (step ≤ s.fld (Fld.tstep st) → s.fld (Fld.tstep st) ≠ 3 → c ≤ 105 → ∃ t, exec (.thermalSample st c) s = .next t ∧
        t = s1.noteCool st ∧ t.fld (Fld.temp st) = c ∧ t.fld (Fld.tstep st) = s.fld (Fld.tstep st) ∧ t.mem = s.mem)) ∧
    (∀ since, Tab.get 0 s.memory.coolSince st = since + 1 → since + us 1000 < 2 ^ 64 → ∃ t, exec (.thermalStepExit st) s = .next t ∧
      since + us 1000 ≤ t.now ∧ t.mem = s.mem ∧ (s.fld (Fld.tstep st) = 2 → t.fld (Fld.tstep st) = 1) ∧
      (s.fld (Fld.tstep st) = 1 → t.fld (Fld.tstep st) = 0 ∧ ∀ o ∈ t.ownSlow, ¬(o.cause = 0 ∧ o.unit = st))) ∧
    (Tab.get 0 s.memory.coolSince st = 0 → exec (.thermalStepExit st) s = .next s)

/-- A reservation is granted only where the queue is resident, a tracker is free and the room is at least its size; the packet then
takes positions P to P + n − 1; one of the host also waits for the host's earlier BAR2 writes. Reservations of one queue are granted
in the order in which they came: one that cannot be granted holds back every later one. L follows a packet's contiguous landed
prefix once the packet is open: with threshold 0 when all its entries have landed, with threshold T when its first min(T, n) have;
it passes to the next packet only over a whole one. -/
def Obligations.ReservationsAreGrantedInOrder : Prop :=
  (∀ (s : State) (q : Nat),
      (∀ w id, w.origin = .op id → let t := s.reserve q w
        ((t.queue q).pos = { (s.queue q).pos with p := (s.queue q).pos.p + w.size } ∧
          (∃ k, (t.queue q).packets = (s.queue q).packets ++ [k] ∧ k.start = (s.queue q).pos.p ∧ k.size = w.size ∧ k.landed = []) ∧
          (∀ r, r ≠ q → t.queue r = s.queue r) ∧ t.mem = s.mem)) ∧
      (∀ n, s.canReserve q n = true ↔ (s.queue q).resident = true ∧ (s.queue q).writeback = false ∧
        s.openPackets (s.qHome q) < 2048 ∧ n ≤ s.qRoom q) ∧
      (∀ w, s.mayGrant q w = true ↔ s.canReserve q w.size = true ∧ (w.origin = .host → s.hasWaits .host = false)) ∧
      (∀ w rest n, (s.queue q).waiting = w :: rest →
        (s.mayGrant q w = false → s.grantWaiting q n = s) ∧
        (s.mayGrant q w = true → s.grantWaiting q (n + 1) =
          ((s.setQueue q { s.queue q with waiting := rest }).reserve q w).grantWaiting q n))) ∧
  (∀ (thr : Nat) (k : Packet) (rest : List Packet) (l : Nat), k.landed.Nodup → (∀ i ∈ k.landed, i < k.size) →
      k.start ≤ l → l ≤ k.start + k.size →
      let lands (m : Nat) : Prop := ∀ i, i < m → i ∈ k.landed
      (k.isOpen thr = true ↔ lands (if thr = 0 then k.size else min thr k.size)) ∧
      (k.isOpen thr = false → advanceL thr (k :: rest) l = l) ∧
      (k.isOpen thr = true → ∀ m, l - k.start ≤ m → m < k.size → lands m → m ∉ k.landed →
        advanceL thr (k :: rest) l = k.start + m) ∧
      (lands k.size → advanceL thr (k :: rest) l = advanceL thr rest (k.start + k.size)))

/-- What happens at a queue engine: grants, landings, the fetch of a queue's state, a slot's grant, the refill of the head window
and the end of a capture's write-back; requests of peers and writes of the host that waited behind it go on. A host write to BAR4 is
taken entry by entry, behind the host's writes that wait (R291): a whole entry of a queue that the host feeds is a reservation of
its queue. A write that has waited 1 ms for room is dropped, where its queue still lacks it. -/
def Obligations.QueueEnginesAndHostEnqueuesGoOn : Prop :=
  (∀ (s : State) (q : Nat), q < 1048576 →
      let granted (u : State) : State := (u.grantWaiting q (u.queue q).waiting.length).noteRoom q
      ((s.queue q).waiting ≠ [] → exec (.reservationGrant q) s = .next ((granted (s.needSlot q)).releaseHeld.releasePosted)) ∧
      ((s.queue q).waiting = [] → exec (.reservationGrant q) s = .next (s.releaseHeld.releasePosted)) ∧
      (s.openPackets (s.qHome q) < 2048 → (s.queue q).waiting ≠ [] →
        exec (.trackerGrant q) s = .next ((granted (s.needSlot q)).releaseHeld.releasePosted)) ∧
      (∀ pos k, (s.queue q).packetOf pos = some k → (s.queue q).writeback = false →
        exec (.entryLanding q pos) s = .next (((s.landAt k.origin q pos).afterLanding q k.origin).releaseHeld.releasePosted)) ∧
      ((s.queue q).fetching = true → exec (.windowFetchDone q) s =
        .next ((((s.fetched q).grants q).serveDeqs q).releaseHeld.releasePosted) ∧ ((s.fetched q).queue q).resident = true ∧
          ((s.fetched q).queue q).fetching = false) ∧
      (∀ since, (s.queue q).slotSince = some since → (s.giveSlot q).2 = true → ∃ t, exec (.slotGrant q) s = .next t ∧
        (t.queue q).fetching = true ∧ (t.queue q).slotSince = none ∧ (t.queue q).pos = ((s.giveSlot q).1.queue q).pos) ∧
      ((s.queue q).slotSince = none → exec (.slotGrant q) s = .next s) ∧
      ((s.queue q).resident = true → (s.queue q).writeback = false →
        exec (.headWindowRefill q) s = .next (((s.refillHead q).serveDeqs q).releaseHeld.releasePosted)) ∧
      ((s.queue q).writeback = true →
        let s0 := s.setQueue q { s.queue q with writeback := false }
        let s1 := if (s.queue q).accessWaits then s0.excursion 3 else s0
        let s2 := (s1.queue q).packets.foldl (fun s k =>
          ((List.range k.size).foldl (fun s i => s.landAt k.origin q (k.start + i)) s).afterLanding q k.origin) s1
        exec (.queueWritebackDone q) s = .next ((((s2.grants q).refillHead q).serveDeqs q).releaseHeld.releasePosted))) ∧
  (∀ s : State,
      (∀ offset data, offset + data.length ≤ 262144 * 64 → exec (.hostEnqueue offset data) s =
        .next ((slotPieces offset data).foldl (fun s p => s.takeWrite (.slot p.1 p.2)) s)) ∧
      (∀ h data, h < 262144 → data.length = 64 → s.barOpen = true → s.hostHeld = false → s.host.posted = [] →
        (s.qdef? h).any (fun d => d.hostFed) = true →
        exec (.hostEnqueue (h * 64) data) s = .next (s.ask h (.of 1 1 [data] .host s.now))) ∧
      (∀ w, (s.barOpen = false → s.takeWrite w = s) ∧
        (s.barOpen = true → s.hostHeld = true → s.takeWrite w = { s with host := { s.host with posted := s.host.posted ++ [w] } })) ∧
      (∀ q since, s.oldestHold = some (q, since) → let s1 := (s.at_ (since + us 1000)).grants q
        (s1.oldestHold ≠ some (q, since) ∨ s1.lacksRoom q = false →
          exec .hostEnqueueDrop s = .next (s1.releaseHeld.releasePosted)) ∧
        (s1.oldestHold = some (q, since) → s1.lacksRoom q = true →
          exec .hostEnqueueDrop s = .next ((s1.dropHeld q).releaseHeld.releasePosted))) ∧
      (s.oldestHold = none → exec .hostEnqueueDrop s = .next s))

/-- An online test of an enabled class starts with a job admitted where nothing of R473 holds it back, and shows in the test page;
otherwise it is deferred and shows so. An online test ends: a unit that passes returns to service, one that fails is retired and the
failure logged. What waited for a core's store goes on when its copy is done. -/
def Obligations.OnlineTestsStartAndEnd : Prop :=
  (∀ s : State, s.job.isSome = true →
      (∀ n p ps, n < 192 → bitOf (s.fld Fld.testEnable) 0 = true → s.fld (Fld.seqState n) = 2 → s.fld Fld.running = 1 →
        (s.reg Reg.tckTime).toNat + 6000 ≤ s.fld Fld.startTime + s.tick.next * s.fld Fld.period * 10 → s.tests.coreTest = none →
        s.tests.migrating = [] → s.fld (Fld.coreState n) = 0 → s.spares (n / 48) = p :: ps →
        (s.testHeld 0 (decide (s.dieStep (n / 48) ≠ 0)) = false → ∃ t, exec (.coreRotationStart n) s = .next t ∧
          t.tests.migrating.any (fun m => decide (m.core = n) && !m.fault) = true ∧ t.fld (Fld.coreState n) = 1 ∧ t.mem = s.mem) ∧
        (s.testHeld 0 (decide (s.dieStep (n / 48) ≠ 0)) = true → exec (.coreRotationStart n) s = .next (s.setDeferred 0 true))) ∧
      (∀ die phys, die < 4 → phys < 52 → bitOf (s.fld Fld.testEnable) 0 = true → s.isSpare die phys = true →
        coreKey die phys ∉ s.tests.spareTests → s.testHeld 0 (decide (s.dieStep die ≠ 0)) = false →
        ∃ t, exec (.spareCoreBistStart die phys) s = .next t ∧ t.tests.spareTests = s.tests.spareTests ++ [coreKey die phys] ∧
          t.fld ⟨Reg.testStatus, 0, 0⟩ = 1) ∧
      (∀ m h, m < 192 → let st := m / 16
        bitOf (s.fld Fld.testEnable) 1 = true → s.fld (Fld.seqState (192 + m)) = 2 → s.fld (Fld.mrwState m) = 0 →
        s.hostFor st (s.fld (Fld.mrwPhys m)) = some h → (∀ k ∈ s.tests.marrowTest, k / 16 ≠ st) →
        (s.listsOn st (s.fld (Fld.mrwPhys m))).length = 1 → s.testHeld 1 (decide (s.fld (Fld.tstep st) ≠ 0)) = false →
        ∃ t, exec (.marrowEngineTestStart m) s = .next t ∧ t.tests.marrowOut = s.tests.marrowOut ++ [m] ∧
          t.fld ⟨Reg.testStatus, 1, 1⟩ = 1) ∧
      (∀ st ch page, st < 12 → ch < 32 → page < 24576 → bitOf (s.fld Fld.testEnable) 2 = true → (∀ p ∈ s.memory.pageTest, p.1 ≠ st) →
        (st, ch, page) ∉ s.memory.retired → s.fld (Fld.chanState st ch) = 0 →
        s.testHeld 2 (decide (s.fld (Fld.tstep st) ≠ 0) || decide (s.fld (Fld.poolFree st) = 0)) = false →
        ∃ t, exec (.hbmPageTestStart st ch page) s = .next t ∧ t.memory.pageTest = s.memory.pageTest ++ [(st, ch, page)] ∧
          t.mem = s.mem) ∧
      (∀ p lane, p < 48 → lane < lanesOf p → bitOf (s.fld Fld.testEnable) 3 = true → s.carries p = true → lane ∉ (s.port p).lanesLost →
        1 < s.fld (Fld.portLanes p) → (∀ x ∈ s.fabric.ports, x.2.testing = none) → s.testHeld 3 false = false →
        ∃ t, exec (.laneTestStart p lane) s = .next t ∧ (t.port p).testing = some lane ∧ (t.port p).retraining = true ∧
          t.fld (Fld.portLanes p) = fewerLanes (s.fld (Fld.portLanes p)))) ∧
  (∀ s : State,
      (∀ n m, n < 192 → s.tests.migrating = [m] → m.core = n → m.target < 52 → ∃ t : State,
        exec (.migrationCopyDone n) s = .next t.storesOpen ∧
        t.fld (Fld.corePhys n) = m.target ∧ t.fld (Fld.coreState n) = 0 ∧ t.tests.migrating = [] ∧ t.mem = s.mem ∧
        (m.fault = false → t.tests.coreTest = some (coreKey (n / 48) (s.fld (Fld.corePhys n))) ∧ t.mram = s.mram) ∧
        (m.fault = true → coreKey (n / 48) (s.fld (Fld.corePhys n)) ∈ t.mram.retiredCores)) ∧
      (∀ die phys v, die < 4 → phys < 52 → s.tests.coreTest = some (coreKey die phys) ∨ coreKey die phys ∈ s.tests.spareTests →
        ∃ t, exec (.coreBistDone die phys v) s = .next t ∧
        t.tests.coreTest ≠ some (coreKey die phys) ∧ coreKey die phys ∉ t.tests.spareTests ∧ (v = .pass → t.mram = s.mram) ∧
        (v = .fail → coreKey die phys ∈ t.mram.retiredCores ∧ (t.mram.faultLog.getLast?).map (fun e => e.outcome) = some 4)) ∧
      (∀ m v, m < 192 → m ∈ s.tests.marrowTest → ∃ t, exec (.marrowBistDone m v) s = .next t ∧ m ∉ t.tests.marrowTest ∧
        (v = .pass → m ∉ t.tests.marrowOut ∧ t.mram = s.mram) ∧ (v = .fail → m ∈ t.mram.failedMarrow)) ∧
      (∀ st ch page v, st < 12 → ch < 32 → (st, ch, page) ∈ s.memory.pageTest → ∃ t, exec (.hbmPageTestDone st ch page v) s = .next t ∧
        (st, ch, page) ∉ t.memory.pageTest ∧ (v = .pass → t.memory.retired = s.memory.retired) ∧
        (v = .fail → (st, ch, page) ∈ t.memory.retired)) ∧
      (∀ p lane v, p < 48 → lane < lanesOf p → (s.port p).testing = some lane → ∃ t, exec (.laneTestDone p lane v) s = .next t ∧
        (t.port p).testing = none ∧ (v = .pass → (t.port p).lanesLost = (s.port p).lanesLost ∧
          t.fld (Fld.portLanes p) = moreLanes (s.fld (Fld.portLanes p))) ∧
        (v = .fail → (t.port p).lanesLost = (s.port p).lanesLost ++ [lane])))

/-- A failing unit is absorbed by its spare, or ends the device: a core with a spare migrates, and is retired when the copy is done;
a spare that fails is retired; the last Marrow engine of a die, or a second management mismatch without a standby, needs service. -/
def Obligations.FailedUnitsAreReplacedOrEndTheDevice : Prop :=
  ∀ s : State,
    (∀ die phys, die < 4 → phys < 52 →
      (s.isRetired die phys = true → exec (.coreCheckerFailure die phys) s = .next s) ∧
      (s.isRetired die phys = false → s.tests.migrating = [] →
        (∀ n p ps, s.coreOn die phys = some n → (s.stopCoreTests (some n)).spares die = p :: ps →
          ∃ t, exec (.coreCheckerFailure die phys) s = .next t ∧ t.fld (Fld.coreState n) = 1 ∧ t.tests.migrating = [⟨n, p, true⟩] ∧
          t.mem = (s.stopCoreTests (some n)).mem) ∧
        (∀ n, s.coreOn die phys = some n → (s.stopCoreTests (some n)).spares die = [] →
          ∃ t, exec (.coreCheckerFailure die phys) s = .next t ∧ t.fld (Fld.coreState n) = 3 ∧ t.fld Fld.state = 8 ∧
          coreKey die phys ∈ t.mram.retiredCores) ∧
        (s.coreOn die phys = none → ∃ t, exec (.coreCheckerFailure die phys) s = .next t ∧
          coreKey die phys ∈ t.mram.retiredCores ∧ t.tests.migrating = []))) ∧
    (∀ st phys, st < 12 → phys < 16 → s.marrowFailed st phys = false → ∃ t, exec (.marrowCheckerFailure st phys) s = .next t ∧
      st * 16 + phys ∈ t.mram.failedMarrow ∧ t.tests.marrowTest = [] ∧
      ((∀ e, e < 16 → e ≠ phys → s.marrowFailed st e = true) → t.fld Fld.state = 8)) ∧
    (∀ v, (s.tests.standby = true → ∃ t, exec (.managementMismatch v) s = .next t ∧ t.tests.standby = decide (v = .pass) ∧
        t.fld Fld.state = s.fld Fld.state) ∧
      (s.tests.standby = false → ∃ t, exec (.managementMismatch v) s = .next t ∧ t.fld Fld.state = 8)) ∧
    (∀ c, c < 16 → exec (.serviceCoreFault c) s = .next (s.absorbWithin 0x0D c 0 0 5000000 0)) ∧
    (∀ link, link < 24 → ∃ t, exec (.dieToDieReplay link) s = .next t ∧ t.tick.record.replays = s.tick.record.replays + 1 ∧
      Tab.get 0 t.tests.d2dReplays link = Tab.get 0 s.tests.d2dReplays link + 1 ∧ t.regs = s.regs ∧ t.mem = s.mem) ∧
    (∀ link m, link < 24 → m < modulesOf link → bitOf (Tab.get 0 s.tests.d2dOut link) m = false →
      (∃ t, exec (.dieToDieLaneFailure link m true) s = .next t ∧
        Tab.get 0 t.tests.d2dLanes (link * 16 + m) = Tab.get 0 s.tests.d2dLanes (link * 16 + m) + 1 ∧ t.tests.d2dOut = s.tests.d2dOut) ∧
      (∃ t, exec (.dieToDieLaneFailure link m false) s = .next t ∧ bitOf (Tab.get 0 t.tests.d2dOut link) m = true ∧
        ((∀ k, k < modulesOf link → k ≠ m → bitOf (Tab.get 0 s.tests.d2dOut link) k = true) → t.fld Fld.state = 8)))

/-- A lane lost steps its port down to the lanes of R307 and retrains it, or takes the port down with its last one; retrained, it
carries traffic again, its unacknowledged flits first. A port in training or without a link comes up with the lanes it trained and
its peer's number; where that is not the device which R299 names behind the port, it reads miswired and carries nothing. -/
def Obligations.LanesStepDownAndPortsComeUp : Prop :=
  (∀ (s : State) (p lane : Nat) (f : LaneFault), p < 48 → lane < lanesOf p →
      (s.carries p = true → lane ∉ (s.port p).lanesLost → (s.port p).testing = none → (∀ x ∈ s.fabric.ports, x.2.testing = none) →
        (1 < s.fld (Fld.portLanes p) → s.fld (Fld.portLanes p) = 2 ∨ s.fld (Fld.portLanes p) = 4 ∨ s.fld (Fld.portLanes p) = 8 →
          ∃ t, exec (.laneLoss p lane f) s = .next t ∧
          t.fld (Fld.portLanes p) = s.fld (Fld.portLanes p) / 2 ∧ (t.port p).retraining = true ∧ t.fld (Fld.portState p) = 1 ∧
          (t.port p).lanesLost = (s.port p).lanesLost ++ [lane] ∧ t.mem = s.mem) ∧
        (s.fld (Fld.portLanes p) = 1 → ∃ t, exec (.laneLoss p lane f) s = .next t ∧ t.fld (Fld.portState p) = 0 ∧
          t.fld (Fld.portLanes p) = 0)) ∧
      (∀ s1, s1 = (s.setPort p { s.port p with retraining := false }).setFld (Fld.portState p)
          (s.trainedState p (s.fld (Fld.portLanes p))) →
        (s.port p).retraining = true →
        ((s.port p).unacked = [] → exec (.laneRetrainDone p) s =
          .next ((State.reroute s (s1.flushPort p (s.port p).backlog.length)).announce p)) ∧
        ((s.port p).unacked ≠ [] →
          let s2 := ((s1.send (.linkReplay p (s.port p).unacked)).bump64 (Reg.portReplay p) 1).onRecord
            (fun r => { r with replays := r.replays + 1 })
          exec (.laneRetrainDone p) s = .next ((State.reroute s (s2.flushPort p (s.port p).backlog.length)).announce p))) ∧
      ((s.port p).retraining = false → exec (.laneRetrainDone p) s = .next s)) ∧
  (∀ (s : State) (p peer lanes : Nat), p < 48 → peer < 65536 → 1 ≤ lanes → lanes ≤ lanesOf p →
      (s.fld (Fld.portState p) = 1 ∧ (s.port p).retraining = false ∨ s.fld (Fld.portState p) = 6) →
      ∃ t, exec (.linkUp p peer lanes) s = .next t ∧ t.fld (Fld.portPeer p) = peer ∧ t.mem = s.mem ∧
        (p < 40 → s.fld Fld.idValid = 1 → peer ≠ s.wiredTo p → t.fld (Fld.portState p) = 4 ∧ t.fld (Fld.portLanes p) = 0) ∧
        (40 ≤ p ∨ s.fld Fld.idValid = 0 ∨ peer = s.wiredTo p → t.fld (Fld.portLanes p) = lanes ∧
          t.fld (Fld.portState p) ≠ 4))

/-- A flit with an uncorrectable codeword, a wrong length or a wrong CRC-64 is refused with a nak; a good one in sequence is
accepted, counted and acknowledged, and its credits taken; one accepted before is acknowledged again; one after a gap is refused. An
acknowledgement empties the replay buffer up to its flit, and a nak replays what is left. -/
def Obligations.FlitsAreAcceptedInOrder : Prop :=
  ∀ (s : State) (p : Nat) (fec : FecResult) (flit : List Byte), p < 48 →
    let h := fieldLE flit 0 8
    let seq := bitsOf h 63 48
    let x := s.port p
    let last := (x.expect + 2 ^ 16 - 1) % 2 ^ 16
    (s.carries p = false → exec (.flitReceive p fec flit) s = .next s) ∧
    (s.carries p = true →
      (fec = .uncorrectable ∨ flit.length ≠ 256 ∨ (crc64 (flit.take 248)).toNat ≠ fieldLE flit 248 8 →
        ∃ t, exec (.flitReceive p fec flit) s = .next t ∧ t.sent = s.sent ++ [.linkAck p true last] ∧ t.fabric = s.fabric ∧ t.mem = s.mem) ∧
      (fec ≠ .uncorrectable → flit.length = 256 → (crc64 (flit.take 248)).toNat = fieldLE flit 248 8 →
        let s1 := if fec = .corrected then s.bump64 (Reg.portFecCorr p) 1 else s
        ∃ t, (bitOf h 31 = false → bitOf h 30 = false → exec (.flitReceive p fec flit) s = .next t) ∧
          (bitOf h 31 = true → bitOf h 30 = false → exec (.flitReceive p fec flit) s = .next (t.linkAcked p (bitsOf h 47 32))) ∧
          (bitOf h 30 = true → exec (.flitReceive p fec flit) s = .next ((t.linkAcked p (bitsOf h 47 32)).nakked p)) ∧
          t = s1.takeFlit p flit ∧ t.mem = s.mem ∧
          (seq = x.expect → t.sent = s.sent ++ [.linkAck p false seq] ∧ (t.port p).expect = (seq + 1) % 2 ^ 16 ∧
            (t.port p).unacked = x.unacked ∧
            Tab.get 0 (t.port p).used (bitsOf h 29 26) = Tab.get 0 x.used (bitsOf h 29 26) - bitsOf h 25 18) ∧
          (seq ≠ x.expect → t.port p = x ∧ t.sent = s.sent ++
            [.linkAck p (!decide ((x.expect + 2 ^ 16 - seq) % 2 ^ 16 < 2 ^ 15)) last])))

/-- A new request of a peer is held where an earlier one of its stream, a moving store or the fabric die's tags hold it, and is
served as its type says otherwise: a read outside job HBM returns the bytes, a write, an atomic, a credit of a producer, an enqueue
and a dequeue go to their home's operations, and one that the device must refuse is refused with the fault. A contribution is
acknowledged (log entry 132) and taken. -/
def Obligations.RequestsAreServedAtHome : Prop :=
  ∀ (s : State) (tx : Tx),
    let lines := txLines tx
    let q := tx.addr % 2 ^ 20
    let starts (c : Instr) (type : Nat) : Prop := s.serves tx type →
      (s.mustHold tx = true → exec c s = .next (s.onFabric (fun f => { f with held := f.held ++ [(s.now, tx)] })).releaseHeld) ∧
      (s.mustHold tx = false → exec c s = .next (s.serveNow tx).releaseHeld)
    starts (.readRequest tx) 1 ∧ (s.launchFor tx = none → starts (.writeRequest tx) 2) ∧ starts (.atomicRequest tx) 3 ∧
    starts (.creditRequest tx) 4 ∧ starts (.enqueueTransaction tx) 5 ∧ starts (.dequeueTransaction tx) 6 ∧
    (s.serves tx 1 → s.mustHold tx = false → s.remoteOk tx false tx.len = true →
      (rangeOf (txAddr tx) ≠ .hbm → exec (.readRequest tx) s =
        .next ((lines.foldl (fun s l => s.noteTile tx l) s).answerRead tx (s.rd (txAddr tx) tx.len) []).releaseHeld) ∧
      (rangeOf (txAddr tx) = .hbm → s.badLines tx = false → exec (.readRequest tx) s = .next (s.arriveInOrder tx).releaseHeld) ∧
      (rangeOf (txAddr tx) = .hbm → s.badLines tx = true → exec (.readRequest tx) s =
        .next (s.refuseRequest tx Status.integrityFault).releaseHeld)) ∧
    (s.serves tx 1 → s.mustHold tx = false → s.remoteOk tx false tx.len = false → exec (.readRequest tx) s =
      .next (s.refuseRequest tx Status.addressFault).releaseHeld) ∧
    (s.serves tx 2 → s.mustHold tx = false → s.launchFor tx = none → tx.data.length = tx.len → s.remoteOk tx true tx.len = true →
      (rangeOf (txAddr tx) = .hbm → exec (.writeRequest tx) s = .next (s.arriveInOrder tx).releaseHeld) ∧
      (rangeOf (txAddr tx) ≠ .hbm → exec (.writeRequest tx) s =
        .next ((s.write (originOf tx) (txAddr tx) tx.data).answerLater tx).releaseHeld)) ∧
    (s.serves tx 3 → s.mustHold tx = false → s.atomicOk tx = true → s.badLines tx = false →
      (s.leekReady = true → exec (.atomicRequest tx) s = .next (s.serveAtomic tx).releaseHeld) ∧
      (s.leekReady = false → exec (.atomicRequest tx) s =
        .next (s.onFabric (fun f => { f with leekWait := f.leekWait ++ [(s.now, tx)] })).releaseHeld)) ∧
    (s.serves tx 4 → s.mustHold tx = false → ∀ d m, s.qdef? q = some d → d.landing? tx.word = some m →
      d.producer = remoteAgentWord tx.src tx.stream → exec (.creditRequest tx) s =
        .next (s.ask q (.of m tx.word [] (originOf tx) s.now)).releaseHeld) ∧
    (s.serves tx 5 → s.mustHold tx = false → ∀ d c k, s.qdef? q = some d →
      s.fabric.credits.find? (fun c => decide (c.queue = q) && decide (c.src = tx.src) && decide (c.seq = tx.word)) = some c →
      (s.queue q).packetOf c.start = some k → exec (.enqueueTransaction tx) s = .next (s.takeEntries q d k tx).releaseHeld) ∧
    (s.serves tx 6 → s.mustHold tx = false → ∀ d, s.qdef? q = some d → d.consumer = remoteAgentWord tx.src tx.stream → 1 ≤ tx.word →
      tx.word ≤ 256 → (∀ d ∈ (s.queue q).deqs, d.origin ≠ originOf tx) → exec (.dequeueTransaction tx) s =
        .next ((((s.needSlot q).setQueue q { (s.needSlot q).queue q with
          pos := { ((s.needSlot q).queue q).pos with c := ((s.needSlot q).queue q).pos.c + tx.word }
          deqs := ((s.needSlot q).queue q).deqs ++ [⟨((s.needSlot q).queue q).pos.c, tx.word, [], originOf tx⟩]
          }).refillHead q).serveDeqs q).releaseHeld) ∧
    (s.serves tx 7 → exec (.collectiveContribution tx) s =
      .next (((s.mark tx.src tx.seq).reply tx 0 [] false).takeContribution tx))

/-- Who may ask: a request from a device that is no peer is refused and counted, a device that has stopped answers with a lost
notice, one for another device is passed on with one hop more, a repeated write is acknowledged without being performed again, and a
repetition of a request that the home still holds changes nothing. -/
def Obligations.RequestsAreCheckedBeforeService : Prop :=
  ∀ (s : State) (tx : Tx),
    let alike (c : Instr) (type : Nat) : Prop := tx.type = type →
      (tx.dst = s.gdn → s.halted = true → exec c s = .next (s.lostNotice tx.src)) ∧
      (tx.dst = s.gdn → s.halted = false → s.fromPeer tx = false → exec c s = .next (s.malformed.refuse tx Status.addressFault)) ∧
      (tx.dst ≠ s.gdn → exec c s = .next (s.passOn tx))
    alike (.readRequest tx) 1 ∧ (s.launchFor tx = none → alike (.writeRequest tx) 2) ∧ alike (.atomicRequest tx) 3 ∧
    alike (.creditRequest tx) 4 ∧ alike (.enqueueTransaction tx) 5 ∧ alike (.dequeueTransaction tx) 6 ∧
    alike (.collectiveContribution tx) 7 ∧
    (tx.type = 2 → s.launchFor tx = none → tx.dst = s.gdn → s.halted = false → s.fromPeer tx = true → s.marked tx.src tx.seq = true →
      ∃ t, exec (.writeRequest tx) s = .next t ∧ t.mem = s.mem ∧ t.memory = s.memory ∧ t.queues = s.queues) ∧
    (tx.dst = s.gdn → s.halted = false → s.fromPeer tx = true → s.marked tx.src tx.seq = false → s.holding tx.src tx.seq = true →
      (tx.type = 1 → exec (.readRequest tx) s = .next s) ∧
      (tx.type = 2 → s.launchFor tx = none → exec (.writeRequest tx) s = .next s) ∧
      (tx.type = 3 → exec (.atomicRequest tx) s = .next s) ∧ (tx.type = 4 → exec (.creditRequest tx) s = .next s) ∧
      (tx.type = 5 → exec (.enqueueTransaction tx) s = .next s) ∧ (tx.type = 6 → exec (.dequeueTransaction tx) s = .next s)) ∧
    (∀ t, s.passOn tx = t → t.mem = s.mem ∧ t.queues = s.queues ∧ t.tick.next = s.tick.next)

/-- What the control notices of a peer do, and nothing of the memory: a pending notice restarts the reply deadlines of its requests,
peer management has no further effect, a lost notice loses the peer, a congestion notice spaces the requests to its home. Coherence
in the sled: an invalidation drops the line and is acknowledged, an acknowledgement lets the waiting write go on once every holder
has answered, and a fill is placed. -/
def Obligations.ControlAndCoherenceMessagesTakeEffect : Prop :=
  (∀ (s : State) (tx : Tx),
      (s.hears tx 1 → ∃ t, exec (.pendingNotice tx) s = .next t ∧ t.regs = s.regs ∧
        t.fabric.out = s.fabric.out.map (fun r => if r.dst = tx.src ∧ !r.waiting then { r with deadline := s.now + us 100 } else r) ∧
        { t with fabric := s.fabric } = s) ∧
      (s.hears tx 3 → exec (.peerManagement tx) s = .next s) ∧
      (s.hears tx 5 → exec (.lostNotice tx) s = .next ((s.markLost tx.src 2).startCredits).releaseHeld) ∧
      (s.hears tx 4 → tx.word % 2 ^ 16 ≠ 0 → ∃ t, exec (.congestionNotice tx) s = .next t ∧ t.mem = s.mem ∧ t.sent = s.sent ∧
        (∃ c ∈ t.fabric.congestIn, c.home = tx.src ∧ c.gap = tx.word % 2 ^ 16 ∧ c.expiry = s.now + tx.word / 2 ^ 16 % 2 ^ 16 * 1000)) ∧
      (tx.type = 8 → tx.op = 2 → tx.dst = s.gdn → (podOf tx.src = podOf s.gdn ∨ s.opticalNeighbour tx.src = true) → tx.word % 64 < 48 →
        let a := Tab.put (tx.src * 64 + tx.word % 64) (tx.word / 64 % 8 * 16 + tx.word / 512 % 16) s.fabric.announced
        exec (.portStateAnnouncement tx) s =
          .next (State.reroute s { s with fabric := { s.fabric with announced := a } }).releaseHeld) ∧
      (∀ c ∈ [Instr.pendingNotice tx, .peerManagement tx, .lostNotice tx, .congestionNotice tx], tx.dst = s.gdn →
        (tx.type ≠ 8 ∨ s.fromPeer tx = false) → exec c s = .next s.malformed)) ∧
  (∀ (s : State) (tx : Tx), tx.type = 0xB → tx.dst = s.gdn → s.fromPeer tx = true → tx.src / 8 = s.gdn / 8 →
      (tx.op = 0 → ∃ t, exec (.invalidation tx) s = .next t ∧ (∀ e ∈ t.fabric.rlc, e.1 ≠ tx.addr / 64) ∧ t.mem = s.mem) ∧
      (tx.op = 1 → let line := txAddr tx / 64
        let w := Tab.set [] line ((Tab.get [] s.fabric.invalWait line).filter (fun g => g ≠ tx.src)) s.fabric.invalWait
        exec (.invalidationAck tx) s = .next ({ s with fabric := { s.fabric with invalWait := w } } : State).goOn) ∧
      (tx.op = 2 → ∃ t, exec (.coherentFill tx) s = .next t ∧ t.fabric.rlc = rlcPut s.fabric.rlc (tx.addr / 64) (padTo 64 tx.data) ∧
        t.mem = s.mem ∧ t.sent = s.sent))

/-- Replies and deadlines: an answer reaches the request that waits for it, a late one from a lost peer is counted and discarded; a
missed deadline resends, and loses the peer after the third resend; the waits of R321 and R322 end as those rules say. Timers of a
home and of its senders: Leek entries expire at 500 µs, a Cress window closes after 64 ns, a ranked atomic is applied in its turn or
refused after its deadline, and congestion notices and throttle gaps end. -/
def Obligations.RepliesDeadlinesAndTimers : Prop :=
  (∀ s : State,
      (∀ tx, tx.type = 0xF → tx.dst = s.gdn →
        (s.isLost tx.src = true → exec (.fabricReply tx) s = .next (s.bump64 Reg.fabLate 1)) ∧
        (∀ r, s.isLost tx.src = false → s.answered tx = some r →
          exec (.fabricReply tx) s = .next ((s.takeAnswer r tx).afterReply tx.src)) ∧
        (s.isLost tx.src = false → s.answered tx = none → s.fromPeer tx = true → exec (.fabricReply tx) s = .next s) ∧
        (s.isLost tx.src = false → s.answered tx = none → s.fromPeer tx = false → exec (.fabricReply tx) s = .next s.malformed)) ∧
      (∀ peer seq r, s.fabric.out.find? (fun r => decide (r.dst = peer) && decide (r.seq = seq) && !r.waiting) = some r →
        (3 ≤ r.resends → s.isLost peer = false → ∃ t, exec (.replyDeadline peer seq) s = .next t ∧
          t = (((s.at_ r.deadline).markLost peer 0).startCredits).releaseHeld) ∧
        (r.resends < 3 → exec (.replyDeadline peer seq) s = .next (((s.at_ r.deadline).resend peer true).absorbWithin 0x10
          (peer % 2 ^ 16) 0 0 100000 (r.tx.addr % 2 ^ 44 / 2 ^ 12)))) ∧
      (∀ peer, s.holdsFor peer = true → exec (.pendingNoticeSend peer) s = .next (s.sendTx (s.mkTx 8 1 peer 0 0 []))) ∧
      (∀ peer, s.holdsFor peer = false → exec (.pendingNoticeSend peer) s = .next s) ∧
      (∀ peer o os, s.cores.inflight.filter (fun o => s.waitsFor peer o) = o :: os → exec (.fabricWaitDeadline peer) s = .next
        (((s.at_ (s.tick.stepTime + o.issue + s.waitDeadline * s.slowFactor peer / 16)).markLost peer 1).startCredits).releaseHeld) ∧
      (∀ g cause, s.isLost g = true → s.markLost g cause = s)) ∧
  (∀ s : State,
      (∀ e es, s.fabric.leek = e :: es → exec .leekEntryExpiry s = .next ((s.at_ (e.time + us 500)).leekNext).releaseHeld) ∧
      (∀ line e, s.fabric.cress.find? (fun e => e.line = line) = some e →
        exec (.cressWindowClose line) s = .next ((s.at_ (e.opened + 64)).closeCress e).releaseHeld) ∧
      (∀ addr w, s.fabric.rankWait.find? (fun w => decide (w.addr = addr) &&
          decide (w.rank = Tab.get 0 s.fabric.rankNext addr)) = some w →
        let s0 := s.onFabric (fun f => { f with
          rankWait := f.rankWait.filter (fun v => !(v.addr = addr && v.rank = Tab.get 0 s.fabric.rankNext addr))
          rankNext := Tab.set 0 addr (Tab.get 0 s.fabric.rankNext addr + 1) f.rankNext })
        let t := s0.atomic w.origin w.opByte addr w.operand 0
        (∀ src seq stream, w.origin = .remote src seq stream → exec (.rankedAtomicApply addr) s = .next
          ((t.2.journal (t.2.rankTx w src seq stream) t.1).answerLater (t.2.rankTx w src seq stream)).releaseHeld) ∧
        (∀ id o, w.origin = .op id → t.2.op? id = some o → w.oldAt = 0 → exec (.rankedAtomicApply addr) s = .next
          (t.2.setOp { o with cnt := o.cnt.count (s0.atomicTally w.origin w.opByte addr w.operand) }).settle)) ∧
      (∀ addr rank w, s.fabric.rankWait.find? (fun w => decide (w.addr = addr) && decide (w.rank = rank)) = some w →
        let s1 := (s.at_ (w.since + s.waitDeadline)).onFabric (fun f => { f with
          rankWait := f.rankWait.filter (fun v => !(v.addr = addr && v.rank = rank)) })
        (∀ src seq stream, w.origin = .remote src seq stream → exec (.rankWaitDeadline addr rank) s =
          .next (s1.refuseRequest (s1.rankTx w src seq stream) Status.addressFault).releaseHeld) ∧
        (∀ id o, w.origin = .op id → s1.op? id = some o → exec (.rankWaitDeadline addr rank) s =
          .next (s1.putOp (o.failed Status.addressFault addr)))) ∧
      (∀ home c, s.fabric.congestIn.find? (fun c => c.home = home) = some c → exec (.congestionNoticeExpiry home) s = .next
        (((s.at_ c.expiry).onFabric (fun f => { f with congestIn := f.congestIn.filter (fun c => c.home ≠ home) })).endSpacing home)) ∧
      (∀ home c r, s.spacing? home = some c → s.fabric.out.find? (fun r => decide (r.dst = home) && r.waiting) = some r →
        s.unacked home < 1024 → let s1 := s.at_ (c.last + c.gap)
        exec (.throttleGap home) s = .next ((s1.sendNext home).bump64 Reg.throttleWait (s1.now + us 100 - r.deadline))))

/-- A node of a launch tree: it forwards chunks and heartbeats to its children, hears its parent, adopts a child that reattaches,
turns to its grandparent after 2 ms of silence and is an orphan without one; what its children report counts. -/
def Obligations.LaunchTreesCarryOn : Prop :=
  ∀ (s : State) (id : Nat) (l : Launch), Tab.find? s.fabric.launches id = some l →
    (∀ child, child ∈ l.children → Tab.get 0 l.next child < l.held → s.chunksInFlight id l child < 8 → s.isLost child = false →
      exec (.launchChunkForward id child) s = .next (s.forwardChunk id l child (Tab.get 0 l.next child))) ∧
    exec (.launchHeartbeatSend id) s = .next (l.children.foldl (fun s c => s.launchTx 6 c id 0 l.held) s) ∧
    (∀ p, l.parent = some p → l.rank ≠ 0 → l.doneSent = false →
      (∀ g, l.grandparent = some g → ∃ t l', exec (.launchParentSilence id) s = .next t ∧ Tab.find? t.fabric.launches id = some l' ∧
        l'.parent = none ∧ l'.reattaching = true ∧ p ∈ l'.refused ∧ l'.held = l.held) ∧
      (l.grandparent = none → exec (.launchParentSilence id) s = .next
        (((s.at_ (l.lastHeard + us 2000)).launchEvent id p 0).orphan id { l with parent := none, refused := l.refused ++ [p] }))) ∧
    (l.reattaching = true → exec (.launchAdoptTimeout id) s = .next ((s.at_ (l.lastHeard + us 2000)).orphan id l)) ∧
    (∀ tx, tx.type = 8 → tx.dst = s.gdn → tx.addr / 2 ^ 32 % 2 ^ 32 = id →
      (tx.op = 6 → l.parent = some tx.src → exec (.launchHeartbeat tx) s = .next (s.setLaunch id { l with lastHeard := s.now })) ∧
      (tx.op = 7 → ∃ t l', exec (.launchReattach tx) s = .next t ∧ Tab.find? t.fabric.launches id = some l' ∧ tx.src ∈ l'.children ∧
        Tab.get 0 l'.next tx.src = tx.word ∧ l'.held = l.held ∧ t.mem = s.mem) ∧
      (tx.op = 8 → l.reattaching = true → l.grandparent = some tx.src → exec (.launchAdopt tx) s = .next
        ((s.setLaunch id { l with parent := some tx.src, grandparent := if bitOf tx.word 16 then none else some (tx.word % 65536),
                                  reattaching := false, gotBytes := 0, lastHeard := s.now }).launchDoneCheck id)) ∧
      (tx.op = 9 → tx.src ∈ l.children → tx.src ∉ l.finished → exec (.launchDone tx) s = .next
        ((s.setLaunch id { l with finished := l.finished ++ [tx.src], done := l.done + tx.word % 2 ^ 17,
                                  failed := l.failed + tx.addr % 2 ^ 17 }).launchDoneCheck id)))

/-- Doorbells and pages of a mailbox: an idle mailbox that is served is posted last in doorbell order, any other doorbell is counted
and ignored; its page takes writes only while the mailbox is not the device's; done mailboxes whose bit is written become idle.
Writes to the event ring's registers and the other registers of BAR0, each as R12 and R391 let it through, and the accesses that are
refused: counted, and read as zero. Posted writes keep their order (R291): while a write of the host is held for room in its queue,
every other one waits behind it, and a write that reaches no function has no effect. -/
def Obligations.MailboxesAndHostRegisters : Prop :=
  (∀ (s : State) (k : Nat), k < 64 → s.writesPass = true →
      (s.isRemote k = false → s.served = true → s.mbxState k = .idle → ∃ t, exec (.mbxDoorbell k) s = .next t ∧
        t.mbxState k = .posted ∧ t.host.order = s.host.order ++ [k] ∧ (∀ j, j ≠ k → t.mbxState j = s.mbxState j) ∧ t.mem = s.mem ∧
        t.host.pages = s.host.pages) ∧
      (s.isRemote k = false → s.mbxState k ≠ .idle → exec (.mbxDoorbell k) s = .next (s.bump Fld.ringIgnored 1)) ∧
      (∀ offset data, offset + data.length ≤ 4096 →
        (s.mbxState k = .posted ∨ s.mbxState k = .executing → exec (.mailboxPageWrite k offset data) s = .next (s.bump Fld.writeDropped 1)) ∧
        (s.mbxState k = .idle ∨ s.mbxState k = .done → ∃ t, exec (.mailboxPageWrite k offset data) s = .next t ∧
          (∀ i, (h : i < data.length) → Tab.get 0 t.host.pages (k * 4096 + offset + i) = data[i]) ∧
          (∀ a, (a < k * 4096 + offset ∨ k * 4096 + offset + data.length ≤ a) → Tab.get 0 t.host.pages a = Tab.get 0 s.host.pages a) ∧
          t.regs = s.regs ∧ t.mem = s.mem)) ∧
      (∀ mask, ∃ t, exec (.mbxDoneClear mask) s = .next t ∧ (s.mbxState k = .done → bitOf mask k = true → t.mbxState k = .idle) ∧
        (bitOf mask k = false ∨ s.mbxState k ≠ .done → t.mbxState k = s.mbxState k))) ∧
  (∀ s : State, s.writesPass = true →
      (∀ v, s.fld Fld.evtEnable = 1 → exec (.mbxEvtEnable v) s = .next (s.setFld Fld.evtEnable (v / 2 ^ 31 % 2))) ∧
      (∀ v, s.fld Fld.evtEnable = 0 → v / 2 ^ 31 % 2 = 1 → ∃ t, exec (.mbxEvtEnable v) s = .next t ∧ t.fld Fld.evtEnable = 1 ∧
        t.reg Reg.evtHead = 0 ∧ (6 ≤ v % 32 → v % 32 ≤ 16 → t.fld Fld.evtLog2 = v % 32)) ∧
      (∀ v, exec (.mbxEvtHeadWrite v) s = .next (s.setReg Reg.evtHead (BitVec.ofNat 64 (v % 2 ^ 32))).flushEvents) ∧
      (∀ v, v < 2 ^ 32 → (s.reg Reg.hostWinBase).toNat % 4096 = 0 → ∃ t, exec (.registerWrite 0x18 4 v) s = .next t ∧ t.host = s.host ∧ t.mem = s.mem ∧
        (t.reg Reg.hostWinBase).toNat % 2 ^ 32 = v / 4096 * 4096 ∧
        (t.reg Reg.hostWinBase).toNat / 2 ^ 32 = (s.reg Reg.hostWinBase).toNat / 2 ^ 32) ∧
      (∀ a : Bar0Access, s.bar0Refuses a = true →
        (a.write = false → exec (.bar0RefusedAccess a) s = .next ((s.bump Fld.denied 1).send (.hostCompletion (toLE a.size 0)))) ∧
        (a.write = true → exec (.bar0RefusedAccess a) s = .next (s.bump Fld.denied 1) ∧
          exec (.registerWrite a.offset a.size a.value) s = .next (s.bump Fld.denied 1))) ∧
      (∀ a : Bar0Access, a.write = false → s.bar0Refuses a = false → bar0Fits a = false →
        exec (.bar0RefusedAccess a) s = .next (s.send .unsupportedRequest)) ∧
      (∀ a : Bar0Access, a.write = false → s.bar0Refuses a = false → bar0Fits a = true → exec (.bar0RefusedAccess a) s =
        .next (s.send (.hostCompletion ((List.range a.size).map (fun i => s.bar0Byte (a.offset + i))))))) ∧
  (∀ (s : State) (c : Instr) (w : HostWrite),
      (∃ k, k < 64 ∧ c = .mbxDoorbell k ∧ w = .doorbell k) ∨
      (∃ k offset data, k < 64 ∧ offset + data.length ≤ 4096 ∧ c = .mailboxPageWrite k offset data ∧ w = .page k offset data) ∨
      (∃ mask, c = .mbxDoneClear mask ∧ w = .doneClear mask) ∨ (∃ v, c = .mbxEvtEnable v ∧ w = .evtEnable v) ∨
      (∃ v, c = .mbxEvtHeadWrite v ∧ w = .evtHead v) ∨
      (∃ offset size v, c = .registerWrite offset size v ∧ w = .bar0 ⟨true, offset, size, v⟩) ∨
      (∃ a : Bar0Access, a.write = true ∧ c = .bar0RefusedAccess a ∧ w = .bar0 a) ∨
      (∃ offset data, c = .bar2Write offset data ∧ w = .bar2 offset data) →
      (s.barOpen = false → exec c s = .next s) ∧
      (s.barOpen = true → s.hostHeld = true → exec c s =
        .next { s with host := { s.host with posted := s.host.posted ++ [w] } }) ∧
      (s.writesPass = true → exec c s = .next (s.carryWrite w)))

/-- A read of BAR2 returns the bytes of job HBM at its address and changes nothing; one that does not reach job HBM reads zero and
one of an uncorrectable line is aborted, each counted. A write to BAR2 stores to the address that its offset names and to no other
byte. With no copy to wait for and no holder of its lines, the bytes are in memory at once. A write that does not reach job HBM is
not performed. -/
def Obligations.Bar2AccessesReachJobMemory : Prop :=
  (∀ (s : State) (offset len : Nat), s.barOpen = true → let a := s.bar2Addr offset
      (s.bar2Reaches false offset len = true → (∀ k ∈ s.memory.bad, overlaps a len (k.1 * 64) 64 = false) →
        ∃ t bs, exec (.bar2Read offset len false) s = .next t ∧ t = s.send (.hostCompletion bs) ∧ bs.length = len ∧
          (∀ i, (h : i < bs.length) → bs[i] = s.byteAt (a + i))) ∧
      (s.bar2Reaches false offset len = false → ∀ u, ∃ t, exec (.bar2Read offset len u) s = .next t ∧
        t.sent.getLast? = some (.hostCompletion (List.replicate len 0)) ∧ t.mem = s.mem) ∧
      (s.bar2Reaches false offset len = true → 1 ≤ len → ∃ t, exec (.bar2Read offset len true) s = .next t ∧
        t.sent.getLast? = some .completerAbort ∧ t.mem = s.mem)) ∧
  (∀ (s : State) (offset : Nat) (data : List Byte), s.writesPass = true → let a := s.bar2Addr offset
      ∃ t, exec (.bar2Write offset data) s = .next t ∧
        (∀ x, (x < a ∨ a + data.length ≤ x) → t.byteAt x = s.byteAt x) ∧
        (s.bar2Reaches true offset data.length = false → t.mem = s.mem ∧ t.tags = s.tags ∧ t.queues = s.queues) ∧
        (s.bar2Reaches true offset data.length = true → s.fld Fld.ckpState < 2 → s.job = none → s.memory.waits = [] →
          s.fabric.directory = [] → s.fabric.invalWait = [] → ∀ i, (h : i < data.length) → t.byteAt (a + i) = data[i]))

/-- Any write of the device, whoever makes it, changes no byte outside its range. -/
def Obligations.WritesChangeOnlyTheirBytes : Prop :=
  ∀ (s : State) (o : Origin) (a : Nat) (bs : List Byte),
    (∀ x, (x < a ∨ a + bs.length ≤ x) → (s.write o a bs).byteAt x = s.byteAt x) ∧
    (∀ x, (x < a ∨ a + bs.length ≤ x) → ∀ sealed stamp, (s.writeSealed o sealed stamp a bs).byteAt x = s.byteAt x) ∧
    (a + bs.length ≤ hbmBytes → s.fld Fld.ckpState < 2 → s.tick.stepRunning = false → s.memory.waits = [] → s.fabric.directory = [] →
      s.fabric.invalWait = [] → ∀ i, (h : i < bs.length) → (s.write o a bs).byteAt (a + i) = bs[i])

/-- The PCIe link and function: link up takes the strapped width and the lower rate, link down and lost bus mastering end
host-window requests with ADDRESS_FAULT, a poisoned write is not performed, and function resets act while the link is up. -/
def Obligations.PcieEventsTakeEffect : Prop :=
  ∀ s : State,
    (∀ rate, 1 ≤ rate → s.board.perstLow = false → s.heldCold = false → s.fld Fld.pstate < 3 → ∃ t, exec (.pcieLinkUp rate) s = .next t ∧
      t.host.linkUp = true ∧ t.fld Fld.linkRate = min rate 7 ∧
      t.fld Fld.linkWidth = (if s.board.straps.width = 3 then 0 else if s.board.straps.width = 2 then 8 else 4)) ∧
    exec .pcieLinkDown s = .next ({ s with host := { s.host with linkUp := false, posted := [] } } : State).failHostWindow ∧
    (s.host.linkUp = true →
      exec .functionLevelReset s = .next s.functionReset ∧
      exec .pcieHotReset s = .next ({ s with host := { s.host with posted := [] } } : State).functionReset ∧
      (∀ id req, exec (.poisonedTlp true id req) s = .next (s.send .aer) ∧
        exec (.poisonedTlp false id req) s = .next ((s.send .aer).failHostReq id req)) ∧
      (∀ b, exec (.pcieConfigurationWrite (.msixEnable b)) s = .next { s with host := { s.host with msixOn := b } }) ∧
      (∀ g, g ∈ [1, 2, 4, 8, 16, 32, 64] → exec (.pcieConfigurationWrite (.resizeBar2 g)) s =
        .next { s with host := { s.host with bar2Gib := g } }) ∧
      (∀ g, g ∉ [1, 2, 4, 8, 16, 32, 64] → exec (.pcieConfigurationWrite (.resizeBar2 g)) s = .next s) ∧
      exec (.pcieConfigurationWrite (.busMaster false)) s =
        .next ({ s with host := { s.host with busMaster := false } } : State).failHostWindow) ∧
    (s.host.linkUp = false → exec .functionLevelReset s = .next s ∧ exec .pcieHotReset s = .next s) ∧
    (∀ id req o r, s.op? id = some o → o.requests.find? (fun r => decide (r.num = req) && (decide (r.path = .hostRead) ||
      decide (r.path = .hostWrite))) = some r → exec (.hostCompletionTimeout id req) s =
        .next (s.requestDone (o.failed Status.addressFault r.addr) req none))

/-- Before any command executes, its code, length and header are checked: the codes other than the four of R415 before READY, a
wrong length, a reserved header bit are rejected and have no effect beyond the response. A command waits until it is first in
doorbell order, and an unknown code is answered so. A response to a local mailbox: the page holds the message with its status,
flags, length, detail and result, the mailbox is done and out of the doorbell order; the other mailboxes, the other registers and
the rest of the device are as they were. -/
def Obligations.CommandsAreCheckedThenAnswered : Prop :=
  (∀ (s : State) (k : Nat), k < 64 → s.served = true →
      let m := s.msg k
      let first := s.host.order.head? = some k ∧ s.mbxState k = .posted
      let alike (c : Instr) (code want : Nat) : Prop :=
        (¬first → exec c s = .next s) ∧ (first → m.code ≠ code → exec c s = .next s) ∧
        (first → m.code = code → s.bootRefuses code = false → m.len ≠ want →
          exec c s = .next (s.answer k m Status.badLength want [])) ∧
        (first → m.code = code → s.bootRefuses code = false → m.len = want → s.headerOk k m = false → ∃ t d, exec c s = .next t ∧
          t = ({ s with freeCount := s.freeCount + 1 } : State).answer k m Status.badField d [])
      alike (.devIdentify k) 0x0002 0 ∧ alike (.netConfig k) 0x0010 128 ∧ alike (.queueStatus k) 0x0201 4 ∧ alike (.tickArm k) 0x0303 32 ∧
      alike (.ckpStart k) 0x0401 16 ∧ alike (.tagRead k) 0x0504 16 ∧ alike (.fwActivate k) 0x0603 4 ∧ alike (.powerStateSet k) 0x0701 4 ∧
      alike (.fabricSetIdentity k) 0x0801 4 ∧
      (first → m.code = 0x0303 → s.fld Fld.state = 0 → exec (.tickArm k) s =
        .next (s.answer k m Status.wrongState (s.reg Reg.devState).toNat [])) ∧
      (first → m.code ∉ commandCodes → exec (.unknownCommand k) s = .next (s.answer k m Status.unknownCommand 0 []))) ∧
  (∀ (s : State) (k : Nat) (m : Msg) (status detail : Nat) (result : List Byte), k < 64 → s.isRemote k = false →
      m.code < 2 ^ 16 → m.seq < 2 ^ 32 → m.buf < 2 ^ 64 → status < 2 ^ 16 → detail < 2 ^ 64 → result.length ≤ 4064 →
      let t := s.answer k m status detail result
      t.msg k = { m with status := status, len := result.length, flags := m.flags % 2 + 2, cap := result.length, detail := detail,
                         body := result } ∧
      t.mbxState k = .done ∧ k ∉ t.host.order ∧ (∀ j, j ≠ k → t.mbxState j = s.mbxState j) ∧
      t = { s with host := t.host, regs := t.regs, sent := t.sent } ∧ t.host.longs = s.host.longs ∧
      (∀ x, x ≠ Reg.mbxBusy → x ≠ Reg.mbxDone → t.reg x = s.reg x) ∧ (∀ j, j < 64 → j ≠ k → t.msg j = s.msg j))

/-- The commands that only report answer SUCCESS with what the device holds, at the lengths and places of their rules. -/
def Obligations.StatusCommandsReport : Prop :=
  ∀ (s : State) (k : Nat),
    let reports (c : Instr) (code : Nat) (what : List Byte → Prop) : Prop := s.takes k code 0 = true →
      ∃ r, exec c s = .next (s.answer k (s.msg k) Status.success 0 r) ∧ what r
    let is (r : List Byte) (off n v : Nat) : Prop := fieldLE r off n = v % 2 ^ (8 * n)
    reports (.devCapabilities k) 0x0001 (fun r => r.length = 308 ∧ is r 0 4 (s.reg Reg.fwVersion).toNat ∧
      (∀ c, c < 2304 → (bitOf (fieldLE r 4 288) c = true ↔ c ∈ commandCodes)) ∧ is r 292 4 4096 ∧ is r 296 4 65536 ∧ is r 300 4 1024 ∧
      is r 304 4 16) ∧
    reports (.devIdentify k) 0x0002 (fun r => r.length = 100 ∧ is r 0x20 4 (s.reg Reg.identity).toNat ∧
      (∀ d, d < 4 → is r (0x24 + 4 * d) 4 (s.reg (Reg.dieCore d)).toNat) ∧ (∀ t, t < 12 → is r (0x34 + 4 * t) 4 (s.reg (Reg.mrwDie t)).toNat)) ∧
    reports (.devStatus k) 0x0003 (fun r => r.length = 0x30 ∧ is r 0x28 4 (s.reg Reg.tckStatus).toNat ∧ is r 0x2C 4 (s.reg Reg.ckpStatus).toNat) ∧
    reports (.jobStatus k) 0x0103 (fun r => r.length = 72 ∧ is r 0 1 (s.fld Fld.state) ∧ is r 56 8 (s.reg Reg.stepIndex).toNat ∧
      is r 64 4 (s.reg Reg.numCtrl).toNat ∧ is r 68 4 (s.reg Reg.fabLost).toNat) ∧
    reports (.timeStatus k) 0x0302 (fun r => r.length = 32 ∧ is r 0 1 (s.fld Fld.timeState) ∧ is r 1 1 s.timeSource ∧
      is r 0x10 8 (if s.fld Fld.timeState = 3 then s.now - s.time.holdoverStart else 0) ∧ is r 0x18 2 (s.time.lead.getD 0xFFFF)) ∧
    reports (.tickStatus k) 0x0305 (fun r => r.length = 80 ∧ is r 0 4 (s.reg Reg.tckStatus).toNat ∧ is r 8 8 (s.reg Reg.tckNumber).toNat ∧
      is r 16 8 s.tick.newest.number) ∧
    reports (.ckpStatus k) 0x0402 (fun r => r.length = 0x98 + 48 ∧ (s.ckpt.slotA.committed = true → is r 0x98 8 s.ckpt.slotA.gen) ∧
      (s.ckpt.slotA.committed = false → is r 0x98 8 0) ∧ (s.ckpt.slotB.committed = true → is r 0xB0 8 s.ckpt.slotB.gen)) ∧
    reports (.snapStatus k) 0x0503 (fun r => r = s.regBytes Reg.snpStatus 0x20) ∧
    reports (.secStatus k) 0x0601 (fun r => r = s.regBytes Reg.secStatus 0x70) ∧
    reports (.powerStatus k) 0x0703 (fun r => r = s.regBytes Reg.pwrCap 0x40) ∧
    reports (.testStatus k) 0x0712 (fun r => r = s.regBytes Reg.testCtrl 0x28) ∧
    reports (.memHealth k) 0x0721 (fun r => r.length = 12 * 0xA0 + 4) ∧
    reports (.fabricStatus k) 0x0802 (fun r => r.length = 0x38 + 192 ∧
      (∀ p, p < 48 → is r (0x38 + 4 * p) 4 (s.reg (Reg.portStatus p)).toNat))

/-- The commands that look something up answer with it, and NOT_FOUND with what was asked for where there is none. -/
def Obligations.LookupCommandsAnswer : Prop :=
  ∀ (s : State) (k : Nat),
    let m := s.msg k
    let found (c : Instr) (what : List Byte → Prop) : Prop := ∃ r, exec c s = .next (s.answer k m Status.success 0 r) ∧ what r
    let missing (c : Instr) (v : Nat) : Prop := exec c s = .next (s.answer k m Status.notFound v [])
    (s.takes k 0x0201 4 = true → m.get 0 4 < 2 ^ 20 →
      (∀ d, s.qdef? (m.get 0 4) = some d → found (.queueStatus k) (fun r => fieldLE r (d.bytes (m.get 0 4)).length 8 =
        (s.queue (m.get 0 4)).pos.p % 2 ^ 64)) ∧
      (s.qdef? (m.get 0 4) = none → missing (.queueStatus k) (m.get 0 4))) ∧
    (s.takes k 0x0202 4 = true → m.get 0 4 < 12 →
      found (.queueEngineStatus k) (fun r => r = s.regBytes (Reg.quePage (m.get 0 4)) 128)) ∧
    (s.takes k 0x0012 4 = true → m.get 0 4 ≤ 15 →
      (∀ t, Tab.find? s.host.targets (m.get 0 4) = some t → ∃ names, exec (.storageTargetStatus k) s =
        .next (({ s with freeCount := s.freeCount + 6 } : State).answer k m Status.success 0 (toLE 1 t.conn0 ++ toLE 1 t.conn1 ++
          toLE 2 0 ++ toLE 4 t.lastStatus ++ toLE 8 t.read ++ toLE 8 t.written ++ names ++ padTo 256 Config.hostNqn))) ∧
      (Tab.find? s.host.targets (m.get 0 4) = none → missing (.storageTargetStatus k) (m.get 0 4))) ∧
    (s.takes k 0x0312 8 = true → s.admitted = true → nonZero m 2 6 = false →
      (∀ st l, Tab.find? s.streams (m.get 0 2) = some st → st.last = some l → ∃ t r, exec (.streamStatus k) s = .next t ∧
        (∃ n, t = ({ s with freeCount := n } : State).answer k m Status.success 0 r) ∧ r.length = 64 ∧ fieldLE r 0 1 = st.type % 256 ∧
        fieldLE r 4 4 = l % 2 ^ 32) ∧
      (Tab.find? s.streams (m.get 0 2) = none → missing (.streamStatus k) (m.get 0 2))) ∧
    (s.takes k 0x0406 24 = true → m.get 0 4 ≤ 1 → nonZero m 4 4 = false → m.get 16 4 ≤ 4032 → nonZero m 20 4 = false →
      ((s.slot (m.get 0 4)).committed = true → found (.ckpManifestRead k) (fun r =>
        r = slice (s.slot (m.get 0 4)).manifest (m.get 8 8) (m.get 16 4))) ∧
      ((s.slot (m.get 0 4)).committed = false → missing (.ckpManifestRead k) (m.get 0 4))) ∧
    (s.takes k 0x0504 16 = true → 1 ≤ s.fld Fld.debug → m.get 8 4 ≤ 254 → (m.get 0 8 / 4096 + m.get 8 4) * 4096 ≤ hbmBytes →
      m.get 0 8 < hbmBytes → nonZero m 12 4 = false → found (.tagRead k) (fun r => r.length = 16 * m.get 8 4)) ∧
    (s.takes k 0x0606 8 = true → m.get 0 4 ≤ 5 → found (.certRead k) (fun r =>
      r = toLE 4 (Config.certificate (m.get 0 4)).length ++ slice (Config.certificate (m.get 0 4)) (m.get 4 4) 4032)) ∧
    (s.takes k 0x0730 4 = true → found (.faultLogRead k) (fun r => fieldLE r 0 8 = (s.reg Reg.faultLogged).toNat)) ∧
    (s.takes k 0x0805 4 = true → s.admitted = true → nonZero m 2 2 = false →
      ((∀ e ∈ s.fabric.peers, e.2.gdn ≠ m.get 0 2) → missing (.peerStatus k) (m.get 0 2)) ∧
      ((∃ e ∈ s.fabric.peers, e.2.gdn = m.get 0 2) → found (.peerStatus k) (fun r => r.length = 144 ∧
        fieldLE r 0 2 = m.get 0 2 ∧ fieldLE r 8 4 = (s.rxRec (m.get 0 2)).low % 2 ^ 32))) ∧
    (s.takes k 0x0808 4 = true → m.get 0 1 ≤ 47 → nonZero m 1 3 = false → found (.portStatus k) (fun r =>
      r = s.regBytes (Reg.portPage (m.get 0 1)) 0x30)) ∧
    (s.takes k 0x080B 4 = true →
      (∀ l, Tab.find? s.fabric.launches (m.get 0 4) = some l → found (.launchStatus k) (fun r => r.length = 24 ∧
        fieldLE r 0 4 = l.held % 2 ^ 32 ∧ fieldLE r 16 4 = l.done % 2 ^ 32)) ∧
      (Tab.find? s.fabric.launches (m.get 0 4) = none → missing (.launchStatus k) (m.get 0 4)))

/-- The time, tick and stream commands: with a body that its rule allows and in a state that permits it, each answers SUCCESS and
sets what its rule says; a change of the streams waits for its tick. TICK_ARM is checked as R43 lists. -/
def Obligations.TimeAndTickSettingsTakeEffect : Prop :=
  ∀ (s : State) (k : Nat),
    let m := s.msg k
    let sets (c : Instr) (code want : Nat) (P : State → Prop) : Prop := s.takes k code want = true →
      ∃ t : State, exec c s = .next (t.answer k m Status.success 0 []) ∧ t.mem = s.mem ∧ t.job = s.job ∧ P t
    (timeSourceBad m = none → s.armed = false → sets (.timeSetSource k) 0x301 16 (fun t => t.fld Fld.timeSrc = m.get 0 1 ∧
      t.fld Fld.timeState = (if m.get 0 1 = 3 then 0 else 1) ∧ t.fld Fld.leadConflict = 0 ∧ t.time.ptpRole = m.get 1 1 ∧
      t.time.ptpProfile = m.get 2 1 ∧ t.time.ptpDomain = m.get 3 1 ∧ t.time.ptpPorts = m.get 4 1 ∧ t.time.lead = none)) ∧
    (s.takes k 0x301 16 = true → timeSourceBad m = none → s.armed = true →
      exec (.timeSetSource k) s = .next (s.answer k m Status.wrongState (s.reg Reg.devState).toNat [])) ∧
    (let open_ := m.get 12 4 < 2 ^ 20 ∧ m.get 16 1 < 4 ∧ m.get 16 1 / 2 < 2 ∧ nonZero m 0x13 13 = false
     let able := s.armed = false ∧ s.job.isSome = true ∧ s.fld Fld.pstate = 0 ∧ s.fld Fld.state ≠ 6 ∧ s.fld Fld.state ≠ 8
     let timed := s.fld Fld.timeState = 2 ∨ s.fld Fld.timeSrc = 3
     let ahead := s.now + 1000000 ≤ m.get 0 8
     let inRange := 2000 ≤ m.get 8 4 ∧ m.get 8 4 ≤ 100000000 ∧ 20 ≤ m.get 0x11 1 ∧ m.get 0x11 1 ≤ 80 ∧ 0 < m.get 12 4 ∧
      m.get 12 4 < m.get 8 4 ∧ (∀ p, p < 16 → s.phaseValid p = true → s.fld (Fld.phaseDeadline p) ≤ m.get 8 4 - m.get 12 4) ∧
      (∀ e ∈ s.streams, e.2.type = 2 → e.2.offset < m.get 8 4)
     (open_ → able → timed → ahead → inRange → sets (.tickArm k) 0x303 32 (fun t => t.reg Reg.tckStart = BitVec.ofNat 64 (m.get 0 8) ∧
        t.fld Fld.period = m.get 8 4 ∧ t.fld Fld.guard = m.get 12 4 ∧ t.fld Fld.planMult = m.get 0x11 1 ∧
        t.fld Fld.tickBound = m.get 0x10 1 % 2 ∧ t.fld Fld.overrunPolicy = m.get 0x10 1 / 2 ∧ t.fld Fld.warnFrac = m.get 0x12 1 ∧
        t.fld Fld.run = 1 ∧ t.fld Fld.tickNumber = 0 ∧ t.fld Fld.overrunCount = 0 ∧ t.tick.next = 0 ∧ t.tick.stopAt = none)) ∧
     (s.takes k 0x303 32 = true → open_ → ¬able → m.get 8 4 < 2 ^ 27 →
        exec (.tickArm k) s = .next (s.answer k m Status.wrongState (s.reg Reg.devState).toNat [])) ∧
     (s.takes k 0x303 32 = true → open_ → able → ¬timed → m.get 8 4 < 2 ^ 27 →
        exec (.tickArm k) s = .next (s.answer k m Status.timeNotLocked (s.reg Reg.tckStatus).toNat [])) ∧
     (s.takes k 0x303 32 = true → open_ → able → timed → ¬ahead → m.get 8 4 < 2 ^ 27 →
        exec (.tickArm k) s = .next (s.answer k m Status.tickTooSoon (s.now + 1000000) [])) ∧
     (s.takes k 0x303 32 = true → open_ → able → timed → ahead → m.get 8 4 < 2 ^ 27 → ¬inRange →
        ∃ off, exec (.tickArm k) s = .next (s.answer k m Status.badField off []))) ∧
    (let n := if m.get 0 8 = 0 then s.tick.next else m.get 0 8
     (s.armed = true → s.tick.next ≤ n → sets (.tickStop k) 0x304 8 (fun t => t.tick.stopAt = some n ∧ t.fld Fld.stopPending = 1 ∧
        t.tick.next = s.tick.next)) ∧
     (s.takes k 0x304 8 = true → s.armed = true → n < s.tick.next →
        exec (.tickStop k) s = .next (s.answer k m Status.tickTooSoon s.tick.next [])) ∧
     (s.takes k 0x304 8 = true → s.armed = false →
        exec (.tickStop k) s = .next (s.answer k m Status.wrongState (s.reg Reg.devState).toNat []))) ∧
    (let st := Stream.of m.body
     let t0 := s.asOf (m.get 8 8)
     (streamBad m.body = none → s.job.isSome = true → s.streamQueueOk st = true → Tab.find? t0.streams (m.get 0 2) = none →
        (s.armed = true → st.type = 2 → st.offset < s.fld Fld.period) → t0.streams.length < 4096 → s.tooSoon (m.get 8 8) = none →
        sets (.streamAdd k) 0x310 64 (fun t => t.changes = s.changes ++ [(m.get 8 8, .streamAdd (m.get 0 2) st)] ∧ t.streams = s.streams)) ∧
     (nonZero m 2 6 = false → s.job.isSome = true → (∃ x, Tab.find? t0.streams (m.get 0 2) = some x) → s.tooSoon (m.get 8 8) = none →
        sets (.streamRemove k) 0x311 16 (fun t => t.changes = s.changes ++ [(m.get 8 8, .streamRemove (m.get 0 2))] ∧
          t.streams = s.streams))) ∧
    (2 ≤ s.fld Fld.debug → s.tooSoon (m.get 0 8) = none →
      sets (.stepHalt k) 0x507 8 (fun t => t.tick.marks = s.tick.marks ++ [(m.get 0 8, true)]) ∧
      sets (.stepResume k) 0x508 8 (fun t => t.tick.marks = s.tick.marks ++ [(m.get 0 8, false)])) ∧
    (s.takes k 0x507 8 = true → s.fld Fld.debug < 2 → exec (.stepHalt k) s = .next (s.answer k m Status.denied 2 []))

/-- The settings of the network, storage, fabric, power, tests and keys: each is stored where no job is admitted or being admitted,
and refused with WRONG_STATE where one is; peers and groups need a job and change at their tick. -/
def Obligations.DeviceSettingsTakeEffect : Prop :=
  ∀ (s : State) (k : Nat),
    let m := s.msg k
    let sets (c : Instr) (code want : Nat) (P : State → Prop) : Prop := s.takes k code want = true →
      ∃ t : State, exec c s = .next (t.answer k m Status.success 0 []) ∧ t.mem = s.mem ∧ t.job = s.job ∧ P t
    let refused (c : Instr) (code want : Nat) : Prop := s.takes k code want = true →
      exec c s = .next (s.answer k m Status.wrongState (s.reg Reg.devState).toNat [])
    let free := s.job = none ∧ s.fld Fld.state ≠ 2
    let netOk := firstBad (netEntryBad m 0 ++ netEntryBad m 64) = none
    let targetOk := m.get 0 1 ≤ 15 ∧ m.get 1 1 ≤ 15 ∧ nonZero m 4 4 = false ∧ nonZero m 0x18 8 = false ∧ nonZero m 0xFF 33 = false ∧
      nonZero m 0x120 32 = false
    (free → netOk → sets (.netConfig k) 0x10 128 (fun t => t.host.net = m.body)) ∧ (¬free → netOk → refused (.netConfig k) 0x10 128) ∧
    (free → targetOk → sets (.storageTargetSet k) 0x11 320 (fun t =>
      (bitOf (m.get 1 1) 3 = true → t.host.targets = Tab.del (m.get 0 1) s.host.targets) ∧
      (bitOf (m.get 1 1) 3 = false → t.host.targets = Tab.put (m.get 0 1)
        ⟨m.body, if bitOf (m.get 1 1) 0 then 1 else 0, if bitOf (m.get 1 1) 1 then 1 else 0, 0, 0, 0⟩ s.host.targets))) ∧
    (¬free → targetOk → refused (.storageTargetSet k) 0x11 320) ∧
    (free → m.get 0 4 < 2 ^ 13 → sets (.fabricSetIdentity k) 0x801 4 (fun t => t.fld Fld.pod = m.get 0 1 ∧ t.fld Fld.sled = m.get 1 1 ∧
      t.fld Fld.idValid = 1)) ∧
    (¬free → m.get 0 4 < 2 ^ 13 → refused (.fabricSetIdentity k) 0x801 4) ∧
    (let keyOk := m.get 0 4 = 1 ∨ (m.get 0 4 = 0 ∧ m.get 4 4 % 2 = 1 ∧ 65537 ≤ m.get 4 4 ∧ 128 ≤ m.get 8 1)
     (free → keyOk → s.fld Fld.policy ≠ 2 → sets (.ownerKeySet k) 0x605 440 (fun t =>
        t.sec.ownerKeys = (if m.get 0 4 = 1 then none else some (slice m.body 4 436)))) ∧
     (free → keyOk → s.fld Fld.policy = 2 → s.takes k 0x605 440 = true →
        exec (.ownerKeySet k) s = .next (s.answer k m Status.denied 0 [])) ∧
     (¬free → keyOk → refused (.ownerKeySet k) 0x605 440)) ∧
    (1500 ≤ m.get 0 2 → m.get 0 2 ≤ 3600 → 20 ≤ m.get 2 2 → m.get 2 2 ≤ 80 →
      sets (.powerCapSet k) 0x702 4 (fun t => t.power.next = some (m.get 0 2, m.get 2 2) ∧ t.regs = s.regs)) ∧
    (m.get 0 4 < 2 ^ 20 → 1 ≤ m.get 0 4 / 16 → m.get 0 4 / 16 ≤ 720 →
      sets (.onlineTestSet k) 0x711 4 (fun t => t.tests.setting = some (m.get 0 4) ∧ t.regs = s.regs)) ∧
    (let n := m.get 0 1
     0 < n → nonZero m 1 3 = false → firstBad (routesBad m (podOf s.gdn)) = none →
       (free → s.takes k 0x807 (4 + 8 * n) = true → ∃ t : State, exec (.routeSetOptical k) s = .next (t.answer k m Status.success 0 []) ∧
          t.fabric.routes = (List.range n).map (fun i => routeOf (slice m.body (4 + 8 * i) 8))) ∧
       (¬free → refused (.routeSetOptical k) 0x807 (4 + 8 * n))) ∧
    (let t0 := s.asOf (m.get 8 8)
     s.job.isSome = true → s.tooSoon (m.get 8 8) = none → nonZero m 4 4 = false →
      (let ws := peerWords m
       1 ≤ m.get 0 4 → m.get 0 4 ≤ 1008 → (∀ e ∈ ws, e.2 < 2 ^ 18 ∧ (∀ p ∈ t0.fabric.peers, p.2.gdn ≠ e.2 % 65536) ∧
          ∀ d ∈ ws, d.1 < e.1 → d.2 % 65536 ≠ e.2 % 65536) → t0.fabric.peers.length + m.get 0 4 ≤ 65536 →
        sets (.peerAdd k) 0x803 (16 + 4 * m.get 0 4) (fun t => t.fabric.peers = s.fabric.peers ∧
          t.changes = s.changes ++ [(m.get 8 8, .peerAdd (ws.map (fun e => Peer.ofWord e.2)))])) ∧
      (let gs := removeNumbers m
       1 ≤ m.get 0 4 → m.get 0 4 ≤ 2016 → (m.get 0 4 % 2 = 1 → nonZero m (16 + 2 * m.get 0 4) 2 = false) →
        (∀ e ∈ gs, (∃ p ∈ t0.fabric.peers, p.2.gdn = e.2) ∧ t0.grouped e.2 = false) →
        sets (.peerRemove k) 0x804 (16 + (2 * m.get 0 4 + 3) / 4 * 4) (fun t => t.fabric.peers = s.fabric.peers ∧
          t.changes = s.changes ++ [(m.get 8 8, .peerRemove (gs.map (fun e => e.2)))]))) ∧
    (let b := slice m.body 24 (m.get 16 4)
     let t0 := s.asOf (m.get 0 8)
     s.job.isSome = true → s.tooSoon (m.get 0 8) = none → nonZero m 20 4 = false → m.get 8 8 = 0 → b.length = m.get 16 4 → 8 ≤ b.length →
      b.length = groupSize (groupCount b) → groupBad b t0.fabric.peers = none → t0.fabric.groups.length < 1024 → 24 ≤ m.len →
      sets (.groupSet k []) 0x806 (24 + m.get 16 4) (fun t => t.fabric.groups = s.fabric.groups ∧
        t.changes = s.changes ++ [(m.get 0 8, .groupSet (fieldLE b 0 2) (groupMembers b))]))

/-- Snapshots: SNAP_ARM arms or releases one; the trigger that matches latches the registers and the time with no effect on memory
or the job, and one that comes while a snapshot is held only counts as missed. -/
def Obligations.SnapshotsLatchOnTheirTrigger : Prop :=
  ∀ (s : State) (k : Nat) (tx : Tx) (event source : Nat),
    let m := s.msg k
    let a := snapArmOf m
    (s.takes k 0x501 32 = true → a.source ≤ 4 ∨ a.source = 0xFF → m.get 1 1 ≤ 1 → nonZero m 6 2 = false → nonZero m 0x14 12 = false →
      (s.fld Fld.debug = 0 → exec (.snapArm k) s = .next (s.answer k m Status.denied 1 [])) ∧
      (1 ≤ s.fld Fld.debug → a.source = 0xFF → ∃ t : State, exec (.snapArm k) s = .next (t.answer k m Status.success 0 []) ∧
        t.snap = Snap.zero ∧ t.fld Fld.snpState = 0) ∧
      (1 ≤ s.fld Fld.debug → a.source ≠ 0xFF → (a.source = 0 → s.tooSoon a.match_ = none) → (a.source = 1 → s.now + 1000000 ≤ a.match_) →
        ∃ t : State, exec (.snapArm k) s = .next (t.answer k m Status.success 0 []) ∧ t.snap = ⟨some a, false, [], []⟩ ∧ t.fld Fld.snpState = 1 ∧
        t.fld Fld.snpSource = a.source ∧ t.reg Reg.snpId = BitVec.ofNat 64 a.id ∧ t.reg Reg.snpMatch = BitVec.ofNat 64 a.match_) ∧
      (1 ≤ s.fld Fld.debug → a.source = 1 → a.match_ < s.now + 1000000 →
        exec (.snapArm k) s = .next (s.answer k m Status.tickTooSoon (s.now + 1000000) []))) ∧
    (s.takes k 0x502 0 = true →
      (1 ≤ s.fld Fld.debug → s.snap.arm = none →
        exec (.snapTrigger k) s = .next (s.answer k m Status.wrongState (s.reg Reg.devState).toNat [])) ∧
      (1 ≤ s.fld Fld.debug → s.snap.arm.isSome = true → s.snap.held = false → ∃ t : State, exec (.snapTrigger k) s =
        .next (t.answer k m Status.success 0 []) ∧ t.snap.held = true ∧ t.fld Fld.snpState = 2 ∧ t.fld Fld.snpSource = 5 ∧ t.mem = s.mem)) ∧
    (∀ b, s.snap.arm = some b →
      let outcome (c : Instr) (hit : Prop) (why time : Nat) : Prop :=
        (hit → s.snap.held = false → ∃ t : State, exec c s = .next t ∧ t.snap.held = true ∧ t.fld Fld.snpState = 2 ∧ t.fld Fld.snpSource = why ∧
          t.reg Reg.snpTime = BitVec.ofNat 64 time ∧ t.mem = s.mem ∧ t.job = s.job ∧ t.queues = s.queues ∧
          (∀ x, x < 0x400000 → Tab.find? t.snap.regs x = Tab.find? s.settleWaits.regs x ∧
            (Reg.seqCounter? x = none → Tab.find? t.snap.regs x = Tab.find? s.regs x)) ∧
          (b.propagate = false → t.sent = s.sent) ∧ (b.propagate = true → t.fld Fld.snpPropagated = 1)) ∧
        (hit → s.snap.held = true → exec c s = .next (s.bump Fld.snpMissed 1)) ∧
        (¬hit → exec c s = .next s)
      outcome .snapshotTickMatch (s.fld Fld.running = 1 ∧ b.source = 0 ∧ b.match_ = s.fld Fld.tickNumber) 0 s.now ∧
      (b.match_ < 2 ^ 64 → b.source = 1 → s.snap.held = false → ∃ t : State, exec .snapshotTimeMatch s = .next t ∧ t.snap.held = true ∧
        t.fld Fld.snpSource = 1 ∧ t.reg Reg.snpTime = BitVec.ofNat 64 (max s.now b.match_) ∧ t.mem = s.mem) ∧
      (b.source ≠ 1 ∨ s.snap.held = true → exec .snapshotTimeMatch s = .next s) ∧
      outcome (.snapshotEventMatch event source) (b.source = 2 ∧ b.event = event ∧ (b.eventSrc = 0xFFFF ∨ b.eventSrc = source)) 2 s.now ∧
      (tx.dst = s.gdn → tx.type = 0xA → tx.op = 1 → s.fromPeer tx = true →
        outcome (.snapshotTrigger tx) (b.source = 4 ∧ b.id = tx.word) 4 s.now)) ∧
    (s.snap.arm = none → ∀ c ∈ [Instr.snapshotTickMatch, .snapshotTimeMatch, .snapshotEventMatch event source], exec c s = .next s)

/-- The debug level: DEBUG_UNLOCK raises it where the table of R456 lets it, with the credential of its level; a failure counts and
the eighth in a row locks unlocks out for 1 s; DEBUG_LOCK and the end of a token lower it. -/
def Obligations.DebugLevelsFollowTheirTable : Prop :=
  ∀ (s : State) (k : Nat) (ext : List Byte),
    let m := s.msg k
    let level := m.get 0 1
    let ask := s.takes k 0x505 32 = true ∧ 1 ≤ level ∧ level ≤ 3 ∧ nonZero m 2 2 = false ∧ nonZero m 24 8 = false ∧
      (if level = 1 then m.get 1 1 = 2 else m.get 1 1 = 0)
    let deniedNow (t : State) : Prop := exec (.debugUnlock k ext) s = .next (t.answer k m Status.denied level [])
    let granted (P : State → Prop) : Prop := ∃ t : State, exec (.debugUnlock k ext) s = .next (t.answer k m Status.success 0 []) ∧ t.sec.fails = 0 ∧ P t
    let good := (level = 2 ∧ s.d2Token ext = true) ∨ (level = 3 ∧ s.d3Grant ext = true)
    (ask → s.sec.lockout.isSome = true ∨ s.mayUnlock level = false → deniedNow s) ∧
    (ask → s.sec.lockout = none → s.mayUnlock level = true →
      (level = 1 → granted (fun t => t.fld Fld.debug = max 1 (s.fld Fld.debug) ∧ t.job = s.job ∧ t.mem = s.mem)) ∧
      (level = 2 → good → granted (fun t => t.fld Fld.debug = max 2 (s.fld Fld.debug) ∧
        t.reg Reg.d2Expiry = BitVec.ofNat 64 (fieldLE ext 0x68 8) ∧ t.job = s.job ∧ t.mem = s.mem)) ∧
      (level = 3 → good → granted (fun t => t.fld Fld.debug = 3 ∧ t.fld Fld.sstate = 4 ∧ t.fld Fld.keysErased = 1 ∧ t.job = none)) ∧
      (level ≠ 1 → ¬good → ∃ t, deniedNow t ∧ t.mem = s.mem ∧ t.job = s.job ∧ t.fld Fld.debug = s.fld Fld.debug ∧
        t.fld Fld.authFail = min (s.fld Fld.authFail + 1) (2 ^ (Fld.authFail.hi - Fld.authFail.lo + 1) - 1) ∧
        (s.sec.fails = 7 → t.sec.lockout = some (t.now + 1000000000) ∧ t.sec.fails = 0) ∧
        (s.sec.fails ≠ 7 → t.sec.lockout = none ∧ t.sec.fails = s.sec.fails + 1))) ∧
    (s.takes k 0x506 4 = true → m.get 0 4 ≤ 3 →
      (s.fld Fld.debug ≤ m.get 0 4 → exec (.debugLock k) s = .next (s.answer k m Status.success 0 [])) ∧
      (m.get 0 4 < s.fld Fld.debug → s.fld Fld.debug ≠ 3 → ∃ t : State, exec (.debugLock k) s = .next (t.answer k m Status.success 0 []) ∧
        t.fld Fld.debug = m.get 0 4 ∧ t.mem = s.mem ∧ t.job = s.job) ∧
      (m.get 0 4 < s.fld Fld.debug → s.fld Fld.debug = 3 → ∃ t : State, exec (.debugLock k) s = .next t ∧ t.fld Fld.debug = 0 ∧
        t.fld Fld.bootStage = 1 ∧ t.job = none)) ∧
    (s.fld Fld.debug = 2 → ∃ t : State, exec .d2TokenExpiry s = .next t ∧ t.fld Fld.debug = 1 ∧ t.reg Reg.d2Expiry = 0 ∧ t.mem = s.mem ∧ t.job = s.job) ∧
    (s.fld Fld.debug ≠ 2 → exec .d2TokenExpiry s = .next s) ∧
    (∀ x, s.sec.lockout = some x → ∃ t : State, exec .unlockLockoutExpiry s = .next t ∧ t.sec = { s.sec with lockout := none } ∧ t.mem = s.mem) ∧
    (s.sec.lockout = none → exec .unlockLockoutExpiry s = .next s)

/-- A long command that may start is accepted: its message is answered ACCEPTED, it joins those that run, and its first effect is
that of its rule. One that runs, or conflicts, makes it BUSY, and a state that does not permit it WRONG_STATE. -/
def Obligations.LongCommandsAreAccepted : Prop :=
  ∀ (s : State) (k found ending : Nat) (ext : List Byte) (units : List TestUnit),
    let m := s.msg k
    let starts (c : Instr) (code want : Nat) (conflicts : List Nat) (pre : Prop) (x : List Byte) (P : State → Prop) : Prop :=
      s.takes k code want = true → pre →
        (s.mayStart code conflicts = true → ∃ t : State, exec c s = .next t ∧ t.host.longs = s.host.longs ++ [Long.of k m x] ∧
          t.mbxState k = .done ∧ t.msg k = (s.answer k m Status.accepted 0 []).msg k ∧ P t) ∧
        (∀ l, s.runningOf (code :: conflicts) = some l → exec c s = .next (s.answer k m Status.busy l.code []))
    let bars (c : Instr) (code want : Nat) (pre : Prop) : Prop := s.takes k code want = true → pre →
      exec c s = .next (s.answer k m Status.wrongState (s.reg Reg.devState).toNat [])
    let free := s.job = none ∧ s.fld Fld.state ≠ 2
    let ps0 := s.fld Fld.pstate = 0
    let staged := m.get 0 1 = 0 ∧ nonZero m 1 7 = false ∧ s.stagedOk (m.get 8 8) (m.get 16 8) = true
    let able := s.fld Fld.state = 1 ∧ s.job = none ∧ ps0 ∧ s.fld Fld.sstate = 1
    let source := sourceBad m = none ∧ m.get 0 1 = 0
    let read := ext.take (m.get 16 8)
    starts (.jobAdmit k ext) 0x101 24 [] (staged ∧ able) ext (fun t => t.fld Fld.state = 2 ∧ t.fld Fld.sstate = 2 ∧ t.mem = s.mem) ∧
    bars (.jobAdmit k ext) 0x101 24 (staged ∧ ¬able) ∧
    (s.takes k 0x102 0 = true → ∃ t : State, exec (.jobReset k) s = .next t ∧ (∃ before, t.host.longs = before ++ [Long.of k m []]) ∧
      t.job = none ∧ t.queues = [] ∧ t.qdefs = [] ∧ t.streams = [] ∧ t.fabric.peers = [] ∧ t.fabric.groups = [] ∧ t.armed = false ∧
      (s.fld Fld.state ≠ 8 → t.fld Fld.state = 7) ∧ (s.fld Fld.state = 8 → t.fld Fld.state = 8)) ∧
    starts (.ckpStart k) 0x401 16 [0x404, 0x405] ((∃ j, s.job = some j ∧ j.restorable = true) ∧ ps0 ∧ s.fld Fld.moduleReady ≠ 0 ∧
      s.tooSoon (m.get 8 8) = none ∧ (s.reg Reg.ckpGenA).toNat < m.get 0 8 ∧ (s.reg Reg.ckpGenB).toNat < m.get 0 8) []
      (fun t => t.ckpt.gen = m.get 0 8 ∧ t.ckpt.tick = m.get 8 8 ∧ t.fld Fld.ckpState = 1 ∧ t.mem = s.mem) ∧
    starts (.ckpExport k) 0x404 24 [0x405] (m.get 0 1 ≤ 1 ∧ nonZero m 1 3 = false ∧ nonZero m 12 4 = false ∧
      (s.slot (m.get 0 1)).committed = true ∧ (Tab.find? s.host.targets (m.get 4 4)).isSome = true) []
      (fun t => t.ckpt.exporting = some (m.get 0 1) ∧ t.mem = s.mem ∧
        Sent.storageWrite (m.get 4 4) (m.get 8 4) (m.get 16 8) (s.slot (m.get 0 1)).bytes ∈ t.sent) ∧
    starts (.fwStage k ext) 0x602 32 [] source read (fun t => t.mram.slot s.spareSlot = FwSlot.empty ∧ t.mram.active = s.mram.active ∧
      t.mram.slot s.mram.active = s.mram.slot s.mram.active ∧ t.mem = s.mem) ∧
    starts (.configRecordWrite k ext) 0x604 32 [] source read (fun t => t.mram = s.mram ∧ t.mem = s.mem) ∧
    starts (.fwActivate k) 0x603 4 [] (m.get 0 4 ≤ 1 ∧ free ∧ (s.mram.slot (m.get 0 4)).valid = true) []
      (fun t => t.mram = s.mram ∧ t.mem = s.mem) ∧
    bars (.fwActivate k) 0x603 4 (m.get 0 4 ≤ 1 ∧ ¬free) ∧
    starts (.powerStateSet k) 0x701 4 [] (m.get 0 4 ≤ 4 ∧ s.mayEnter (m.get 0 4) = true) []
      (fun t => t.fld Fld.pstate = s.fld Fld.pstate ∧ t.mem = s.mem) ∧
    bars (.powerStateSet k) 0x701 4 (m.get 0 4 ≤ 4 ∧ s.mayEnter (m.get 0 4) = false) ∧
    (units.all selfTestUnit = true → starts (.selfTest k found ending units) 0x710 4 [] (m.get 0 4 ≤ 255 ∧ ps0 ∧ free) []
      (fun t => t.tests.self = some (found, ending, units) ∧
        (bitOf (m.get 0 4) 7 = true → ∀ p, p < 48 → t.fld (Fld.portState p) = 6))) ∧
    starts (.memRepairApply k) 0x720 0 [] free [] (fun t => t.mem = s.mem ∧ t.mram = s.mram) ∧
    bars (.memRepairApply k) 0x720 0 (¬free) ∧
    starts (.portRetrain k) 0x809 4 [] (m.get 0 1 ≤ 47 ∧ nonZero m 1 3 = false ∧ free) []
      (fun t => t.fld (Fld.portState (m.get 0 1)) = 1 ∧ t.fld (Fld.portLanes (m.get 0 1)) = 0 ∧ (t.port (m.get 0 1)).lanesLost = []) ∧
    bars (.portRetrain k) 0x809 4 (m.get 0 1 ≤ 47 ∧ nonZero m 1 3 = false ∧ ¬free) ∧
    (let n := m.get 0xD 1
     starts (.launchBroadcast k) 0x80A (0x50 + 2 * n) [] (m.get 0xC 1 < 4 ∧ n ≤ 64 ∧ nonZero m 0xE 2 = false ∧ m.get 0x10 8 % 65536 = 0 ∧
        0 < m.get 0x10 8 ∧ m.get 0x10 8 ≤ 2 ^ 36 ∧ m.get 0x18 8 % 65536 = 0 ∧ s.stagedOk (m.get 0x18 8) (m.get 0x10 8) = true ∧ free ∧ ps0 ∧
        m.get 4 4 ≠ 0) []
      (fun t => Tab.find? t.fabric.launches (m.get 0 4) = some (s.launchOf k m) ∧ (s.launchOf k m).held = 0 ∧ t.mem = s.mem))

/-- The end of a long command: its COMMAND_DONE event carries its sequence number and code, and where neither the ring nor the 1,024
held events can take it, the command keeps its status. -/
def Obligations.LongCommandsEndWithTheirEvent : Prop :=
  ∀ (s : State) (l : Long) (status detail : Nat),
    (s.host.held.length < 1024 → (s.endLong l status detail).host.longs = s.host.longs.filter (fun x => x ≠ l) ∧
      s.endLong l status detail = (s.onHost (fun h => { h with longs := h.longs.filter (fun x => x ≠ l) })).postEvent
        ⟨0x0001, status, l.mbx, if status = 0 then 0 else 1, l.seq, l.code, s.eventTick, detail, if l.irq then some l.mbx else none⟩) ∧
    (s.ringOpen = false → 1024 ≤ s.host.held.length → s.endLong l status detail = s.onHost (fun h => { h with
      longs := h.longs.filter (fun x => x ≠ l) ++ [{ l with ended := some (status, detail) }] })) ∧
    (s.ringOpen = true → s.host.held = [] → s.fld Fld.remoteMbx = 0 → s.ringUsed < 2 ^ 32 - 1 → ∀ e, (s.ringEvent e).host.held = [] ∧
      ((s.ringEvent e).reg Reg.evtTail).toNat = ((s.reg Reg.evtTail).toNat + 1) % 2 ^ 32) ∧
    (s.ringOpen = false → s.host.held.length < 1024 → ∀ e, (s.ringEvent e).host.held = s.host.held ++ [e] ∧
      (s.ringEvent e).reg Reg.evtTail = s.reg Reg.evtTail)

/-- LONG_COMMAND_DONE carries out what the long command is for, and ends it: each command's result is that of its rule, and an
ending that comes from outside (a storage, module or internal error) is its status. Host writes that a queue held go on after it
(R291). -/
def Obligations.LongCommandsDoTheirWork : Prop :=
  ∀ (s : State) (k : Nat) (e : Ending) (l : Long), k < 64 →
    s.host.longs.find? (fun x => decide (x.mbx = k) && decide (x.ended = none) &&
      (decide (x.code ∈ endedByDone) || decide (e.status = Status.internalError))) = some l →
    let ends (code status detail : Nat) (pre : Prop) (P : State → Prop) : Prop := l.code = code → e.status = Status.success → pre →
      ∃ u : State, exec (.longCommandDone k e) s = .next (u.endLong l status detail).releasePosted ∧ P u
    (∀ f, s.admission (s.rd (fieldLE l.body 8 8) (fieldLE l.body 16 8))
        (s.rd (fieldLE l.body 8 8 + sigOffset (fieldLE l.body 16 8)) sigSize) (fieldLE l.body 8 8, fieldLE l.body 16 8) = .inl f →
      ends 0x101 f.1 f.2 (fieldLE l.body 0 1 = 0) (fun u => u.fld Fld.state = 1 ∧ u.fld Fld.sstate = 1 ∧ u.mem = s.mem ∧ u.job = s.job)) ∧
    (∀ im, s.admission (s.rd (fieldLE l.body 8 8) (fieldLE l.body 16 8))
        (s.rd (fieldLE l.body 8 8 + sigOffset (fieldLE l.body 16 8)) sigSize) (fieldLE l.body 8 8, fieldLE l.body 16 8) = .inr im →
      ends 0x101 Status.success 0 (fieldLE l.body 0 1 = 0) (fun u => u.fld Fld.state = 3 ∧ u.job.isSome = true)) ∧
    ends 0x102 Status.success 0 (s.tooHot = false) (fun u => u.mem = [] ∧ u.tags = [] ∧ (s.fld Fld.state = 7 → u.fld Fld.state = 1) ∧
      (s.fld Fld.debug = 2 → u.fld Fld.debug = 1)) ∧
    (l.code = 0x102 → e.status = Status.success → s.tooHot = true → exec (.longCommandDone k e) s = .next s.releasePosted) ∧
    (l.code = 0x404 → e.status = Status.success → s.ckpt.exporting.isSome = true → ∃ t : State, exec (.longCommandDone k e) s = .next t.releasePosted ∧
      t.ckpt.exporting = none ∧ t.fld Fld.ckpLast = Status.success ∧ t.mem = s.mem) ∧
    (∀ st d, l.ext = toLE 2 st ++ toLE 8 d → st < 2 ^ 16 → d < 2 ^ 64 → l.code = 0x405 → e.status = Status.success → s.ckpt.exporting = none →
      s.longOf? 0x405 = some l → ∃ u : State, exec (.longCommandDone k e) s = .next (u.endLong l st d).releasePosted ∧
        u.fld Fld.ckpLast = st ∧ (st = Status.success → u.fld Fld.ckpState = 0 ∧ u.mem = s.mem)) ∧
    ends 0x602 Status.success 0 (s.imageOk l.ext = true ∧ s.mram.active ≤ 1) (fun u =>
      u.mram.slot s.spareSlot = ⟨true, fieldLE l.ext 8 2, l.ext⟩ ∧ u.mram.active = s.mram.active ∧
      u.mram.slot s.mram.active = s.mram.slot s.mram.active) ∧
    ends 0x602 Status.denied 0 (s.imageOk l.ext = false) (fun u => u = s) ∧
    ends 0x603 Status.success 0 True (fun u => u.mram.active = fieldLE l.body 0 4 ∧ u.board.warmDue = some (s.now + 100000000) ∧
      u.mram.slotA = s.mram.slotA ∧ u.mram.slotB = s.mram.slotB) ∧
    (∀ f, s.recordFail l.ext = some f → ends 0x604 f.1 f.2 True (fun u => u = s)) ∧
    ends 0x604 Status.success 0 (s.recordFail l.ext = none) (fun u =>
      let kind := fieldLE l.ext 4 1
      u.mram.record kind = some (l.ext.take (32 + fieldLE l.ext 0xC 4)) ∧
      (Tab.get 0 u.mram.counters kind).toNat = fieldLE l.ext 8 4 ∧ u.sec = s.sec) ∧
    (let p := fieldLE l.body 0 4
     ends 0x701 Status.wrongState (s.reg Reg.devState).toNat (s.mayEnter p = false) (fun u => u = s) ∧
     ends 0x701 Status.success 0 (s.mayEnter p = true ∧ p < 3) (fun u => u.fld Fld.pstate = p ∧ u.fld Fld.devPstate = p ∧ u.job = s.job) ∧
     (l.code = 0x701 → e.status = Status.success → s.mayEnter p = true → 3 ≤ p → p ≤ 4 → ∃ t : State, exec (.longCommandDone k e) s = .next t.releasePosted ∧
        t.fld Fld.pstate = p ∧ t.fld Fld.devPstate = p ∧ t.host.linkUp = false ∧ t.fld Fld.debug ≤ 1)) ∧
    (let mask := fieldLE l.body 0 4
     (∀ found, s.tests.self = some (found, 0, []) → ends 0x710 Status.success (found &&& mask) (bitOf mask 7 = false) (fun u =>
        u.tests.self = none ∧ u.mem = s.mem)) ∧
     (∀ found ending, s.tests.self = some (found, ending, []) → ending &&& mask ≠ 0 →
        ends 0x710 Status.success ((found ||| ending) &&& mask) True (fun u => u.tests.self = none ∧ u.fld Fld.state = 8))) ∧
    ends 0x720 Status.success 0 True (fun u => u.memory.hardPending = [] ∧ u.mram.hardPending = [] ∧ u.mem = s.mem ∧
      (∀ r ∈ u.memory.remapped, r ∈ s.memory.remapped ∧ r ∉ s.memory.hardPending)) ∧
    ends 0x809 Status.success 0 (fieldLE l.body 0 1 < 48) (fun u =>
      let p := fieldLE l.body 0 1
      u.fld (Fld.portState p) = if s.fld (Fld.portState p) = 1 ∧ (s.port p).retraining = false then 6 else s.fld (Fld.portState p)) ∧
    (e.status = Status.internalError → ∃ u : State, exec (.longCommandDone k e) s =
      .next (u.postEvent (u.newEvent 0x1B Status.internalError srcDevice 1 e.detail)))

/-- A checkpoint: captured at the start of its step, copied granule by granule, and committed by its Flush; abandoned or failed, it
leaves the other slot as it was. CKP_DISCARD empties a slot. -/
def Obligations.CheckpointsAreCapturedCopiedAndCommitted : Prop :=
  ∀ (s : State) (k : Nat),
    let m := s.msg k
    (s.captureDue = false → exec .checkpointCapture s = .next s) ∧
    (s.captureDue = true → ∃ t : State, exec .checkpointCapture s = .next t ∧ t.ckpt.writing = some s.targetSlot ∧
      (t.ckpt.grans ≠ [] → t.fld Fld.ckpState = 2) ∧ (t.ckpt.grans = [] → s.job.isSome = true → t.fld Fld.ckpState = 3) ∧
      (t.slot s.targetSlot).committed = false ∧ (t.slot s.targetSlot).gen = s.ckpt.gen ∧
      (t.slot s.targetSlot).captureTick = s.tick.stepTick ∧ t.slot (1 - s.targetSlot) = s.slot (1 - s.targetSlot) ∧
      t.reg Reg.ckpDone = 0 ∧ t.reg Reg.ckpCaptureTick = BitVec.ofNat 64 s.tick.stepTick ∧ t.job = s.job) ∧
    (∀ g, (s.ckpt.writing = none ∨ s.fld Fld.ckpState ≠ 2 ∨ s.nextGranule (granuleStack g) ≠ some g) →
      exec (.parsnipGranuleDone g) s = .next s) ∧
    (∀ g x, s.ckpt.writing = some x → s.fld Fld.ckpState = 2 → s.nextGranule (granuleStack g) = some g →
      let im := match Tab.find? s.ckpt.grans g with
        | some (.saved im) => im
        | _ => s.imageOf g
      ∃ u : State, exec (.parsnipGranuleDone g) s = .next u.goOn ∧ u.ckpt.grans = Tab.del g s.ckpt.grans ∧ u.mem = s.mem ∧
        u.tags = s.tags ∧ u.job = s.job ∧ ((s.reg Reg.ckpDone).toNat < 2 ^ 32 - 1 → (u.reg Reg.ckpDone).toNat = (s.reg Reg.ckpDone).toNat + 1) ∧
        (u.ckpt.grans ≠ [] → Tab.find? (u.slot x).data g = some im ∧ u.fld Fld.ckpState = 2) ∧
        (u.ckpt.grans = [] → s.job.isSome = true → u.fld Fld.ckpState = 3 ∧ (u.slot x).commit.length = 4096)) ∧
    (s.ckpt.writing = none ∨ s.fld Fld.ckpState ≠ 3 → exec .checkpointCommit s = .next s) ∧
    (∀ x, s.ckpt.writing = some x → s.fld Fld.ckpState = 3 → ∃ u : State,
      exec .checkpointCommit s = .next (u.endLongCode 0x401 Status.success 0) ∧ u.slot x = { s.slot x with committed := true } ∧
      (x ≤ 1 → u.slot (1 - x) = s.slot (1 - x)) ∧ u.ckpt.writing = none ∧ u.fld Fld.ckpLast = Status.success ∧ u.mem = s.mem ∧
      u.fld Fld.ckpState = (if s.ckpt.exporting.isSome then 4 else 0)) ∧
    (s.takes k 0x403 0 = true → s.checkpointing = false →
      exec (.ckpAbandon k) s = .next (s.answer k m Status.wrongState (s.reg Reg.devState).toNat [])) ∧
    (s.takes k 0x403 0 = true → s.checkpointing = true → ∃ u : State,
      exec (.ckpAbandon k) s = .next ((u.goOn).endLongCode 0x401 Status.abandoned 0) ∧ u.ckpt.grans = [] ∧ u.ckpt.writing = none ∧
      u.ckpt.slotA = s.ckpt.slotA ∧ u.ckpt.slotB = s.ckpt.slotB ∧ u.fld Fld.ckpLast = Status.abandoned ∧ u.mem = s.mem ∧
      u.mbxState k = .done) ∧
    (s.takes k 0x407 4 = true → m.get 0 4 ≤ 1 →
      (s.checkpointing = true ∨ s.ckpt.exporting.isSome = true →
        exec (.ckpDiscard k) s = .next (s.answer k m Status.wrongState (s.reg Reg.devState).toNat [])) ∧
      (s.checkpointing = false → s.ckpt.exporting = none → ∃ t : State, exec (.ckpDiscard k) s = .next (t.answer k m Status.success 0 []) ∧
        t.slot (m.get 0 4) = Slot.empty ∧ t.slot (1 - m.get 0 4) = s.slot (1 - m.get 0 4) ∧
        t.reg (if m.get 0 4 = 0 then Reg.ckpGenA else Reg.ckpGenB) = 0 ∧ t.mem = s.mem))

/-- CKP_RESTORE runs on a freshly admitted job, with a plan in job HBM outside every piece: what its sources say is restored, and
the command keeps what it came to, the first failure where there is one, until LONG_COMMAND_DONE ends it. What the module and the
storage targets do: a connection ends connected or failed, a keep-alive goes to each one connected, a command that does not complete
fails what waits for it, and a module that leaves or comes fails the checkpoint and the export. -/
def Obligations.RestoresAndModuleEventsTakeEffect : Prop :=
  (∀ (s : State) (k : Nat) (sources : List (List Byte)) (j : Job),
      let m := s.msg k
      let a := m.get 0 8
      let n := m.get 8 8
      let plan := s.rd a n
      let parts := restorePlan plan (s.sourceBytes plan sources) j.pieces
      let outside := rangeOf a = .hbm ∧ s.mayReach .firmware false a n = true ∧ ∀ p ∈ j.pieces, overlaps a n p.base p.span = false
      s.takes k 0x405 16 = true →
        (s.job = none → exec (.ckpRestore k sources) s = .next (s.answer k m Status.wrongState (s.reg Reg.devState).toNat [])) ∧
        (s.job = some j → s.fld Fld.pstate = 0 → s.fresh_ = false →
          exec (.ckpRestore k sources) s = .next (s.answer k m Status.wrongState (s.reg Reg.devState).toNat [])) ∧
        (s.job = some j → s.fld Fld.pstate = 0 → s.fresh_ = true → ¬outside →
          exec (.ckpRestore k sources) s = .next (s.answer k m Status.badField 0 [])) ∧
        (s.job = some j → s.fld Fld.pstate = 0 → s.fresh_ = true → outside → planOk plan = false →
          exec (.ckpRestore k sources) s = .next (s.answer k m Status.badField 8 [])) ∧
        (s.job = some j → s.fld Fld.pstate = 0 → s.fresh_ = true → outside → planOk plan = true → s.mayStart 0x405 [0x401, 0x404] = true →
          (∀ f, parts = .error f → ∃ u : State, exec (.ckpRestore k sources) s = .next u ∧ u.fld Fld.ckpState = 5 ∧ u.job = s.job ∧
            u.host.longs = s.host.longs ++ [Long.of k m (toLE 2 f.1 ++ toLE 8 f.2)] ∧ u.reg Reg.stepIndex = s.reg Reg.stepIndex ∧ u.mem = s.mem) ∧
          (∀ x srcs rs, parts = .ok (x :: srcs, rs) → ∃ u : State, exec (.ckpRestore k sources) s = .next u ∧ u.fld Fld.ckpState = 5 ∧ u.job = s.job ∧
            u.host.longs = s.host.longs ++ [Long.of k m (toLE 2 Status.success ++ toLE 8 0)] ∧ u.reg Reg.stepIndex = BitVec.ofNat 64 x.index))) ∧
  (∀ (s : State),
      (∀ i x ok, i < 16 → Tab.find? s.host.targets i = some x →
        (x.conn0 = 1 → exec (.storageConnectionDone i 0 ok) s = .next (s.onHost (fun h => { h with
          targets := Tab.put i { x with conn0 := if ok then 2 else 3 } h.targets }))) ∧
        (x.conn1 = 1 → exec (.storageConnectionDone i 1 ok) s = .next (s.onHost (fun h => { h with
          targets := Tab.put i { x with conn1 := if ok then 2 else 3 } h.targets }))) ∧
        (x.conn0 ≠ 1 → exec (.storageConnectionDone i 0 ok) s = .next s) ∧ (x.conn1 ≠ 1 → exec (.storageConnectionDone i 1 ok) s = .next s)) ∧
      (∃ t : State, exec .nvmeKeepAlive s = .next t ∧ t = { s with sent := t.sent } ∧
        t.sent = s.sent ++ s.host.targets.flatMap (fun e => (if e.2.conn0 = 2 then [Sent.keepAlive e.1 0] else []) ++
          (if e.2.conn1 = 2 then [Sent.keepAlive e.1 1] else []))) ∧
      (∀ k l, k < 64 → s.host.longs.find? (fun l => decide (l.mbx = k) && decide (l.ended = none) && (longTarget l).isSome) = some l →
        l.code ≠ 0x101 → l.code ≠ 0x404 → ∃ (u : State) (v : Nat),
          exec (.storageCommandTimeout k) s = .next (u.endLong l Status.storageError v) ∧ v ≤ 0xFFFF ∧ u.mem = s.mem ∧ u.job = s.job ∧
          u.host.longs = s.host.longs ∧
          (∀ i x, longTarget l = some i → Tab.find? s.host.targets i = some x →
            Tab.find? u.host.targets i = some { x with lastStatus := v })) ∧
      (s.checkpointing = false → s.ckpt.exporting = none → exec .moduleCommandTimeout s = .next s) ∧
      (s.checkpointing = false → ∀ i, s.ckpt.exporting = some i → ∃ t : State, exec .moduleCommandTimeout s = .next t ∧
        t.ckpt.exporting = none ∧ t.fld Fld.ckpLast = Status.moduleError ∧ t.mem = s.mem ∧ t.job = s.job) ∧
      (∀ p, s.checkpointing = false → s.ckpt.exporting = none → ∃ t : State, exec (.modPrsntChange p) s = .next t ∧ t.ckpt.modulePresent = p ∧
        t.fld Fld.modPresent = (if p then 1 else 0) ∧ t.fld Fld.moduleReady = 0 ∧ t.mem = s.mem ∧ t.job = s.job) ∧
      (s.checkpointing = true → ∀ c ∈ [Instr.moduleCommandTimeout, .modPrsntChange true, .modPrsntChange false], ∃ (u : State) (v : Nat),
        let w := u.goOn
        exec c s = .next (((w.postEvent (w.newEvent 0x18 Status.moduleError srcDevice 1 w.ckpt.gen)).endLongCode 0x401 Status.moduleError
          v).endExport Status.moduleError v) ∧ v ≤ 0xFFFF ∧ u.ckpt.grans = [] ∧ u.ckpt.writing = none ∧ u.ckpt.slotA = s.ckpt.slotA ∧
        u.ckpt.slotB = s.ckpt.slotB ∧ u.mem = s.mem ∧ u.job = s.job ∧ u.fld Fld.ckpLast = Status.moduleError ∧
        (c ≠ .moduleCommandTimeout → u.ckpt.modulePresent = decide (c = .modPrsntChange true))))

/-- The supplies and the reset pins: the straps are sampled at the release of cold reset, where boot begins or the device holds
itself in reset; COLD_RST_N and the loss of a supply are cold resets, PERST# for 100 µs a warm one, and each keeps what its row
keeps. -/
def Obligations.ResetsFollowThePins : Prop :=
  ∀ (s : State) (st : Straps) (micros : Nat),
    let clean (t : State) : Prop := t.job = none ∧ t.mem = [] ∧ t.tags = [] ∧ t.queues = [] ∧ t.mram = s.mram ∧
      t.ckpt.slotA = s.ckpt.slotA ∧ t.ckpt.slotB = s.ckpt.slotB ∧ t.fabric.peers = [] ∧ t.host.longs = [] ∧ t.host.targets = [] ∧
      t.fld Fld.debug = 0 ∧ t.pending = s.pending
    (s.board.standbyGood = false → ∃ t, exec .standbySupplyGood s = .next t ∧ t.board.standbyGood = true ∧ t.now = 0 ∧ t.mram = s.mram) ∧
    (s.board.standbyGood = true → exec .standbySupplyGood s = .next s) ∧
    (s.board.coldRstLow = true → s.board.standbyGood = true → st.testEn = false → st.slot < 8 → st.width < 4 → ∃ t,
      exec (.coldResetRelease st) s = .next t ∧ t.board.straps = st ∧ t.board.coldRstLow = false ∧ t.fld Fld.slot = st.slot ∧
      t.fld Fld.boardWidth = st.width ∧ (s.board.vin12Good = true → t.fld Fld.bootStage = 1) ∧
      (s.board.vin12Good = false → t.board.internalHold = true ∧ t.fld Fld.bootStage = s.fld Fld.bootStage)) ∧
    (s.board.coldRstLow = false ∨ s.board.standbyGood = false ∨ st.testEn = true → exec (.coldResetRelease st) s = .next s) ∧
    (∃ t, exec .coldRstNAssert s = .next t ∧ clean t ∧ t.board.coldRstLow = true ∧ t.fld Fld.bootStage = 0 ∧ t.fld Fld.warm = 0) ∧
    (∃ t, exec (.supplyFault .vin12) s = .next t ∧ clean t ∧ t.board.vin12Good = false ∧ t.fld Fld.bootFail = 5 ∧
      (s.board.coldRstLow = false → t.board.internalHold = true)) ∧
    (∃ t, exec (.supplyFault .v3p3sb) s = .next t ∧ clean t ∧ t.board.standbyGood = false ∧ t.board.i3cAddr = none) ∧
    (s.board.internalHold = true → s.board.standbyGood = true → s.board.straps.slot < 8 → ∃ t, exec .internalResetRelease s = .next t ∧
      t.board.internalHold = false ∧ t.fld Fld.bootStage = 1 ∧ t.fld Fld.slot = s.board.straps.slot) ∧
    (s.board.internalHold = false ∨ s.board.standbyGood = false → exec .internalResetRelease s = .next s) ∧
    (micros < 100 → exec (.perstAssert micros) s = .next s) ∧
    (100 ≤ micros → s.heldCold = false → ∃ t, exec (.perstAssert micros) s = .next t ∧ clean t ∧ t.now = s.now ∧ t.host.linkUp = false ∧
      t.board.perstLow = true ∧ t.board.warmBoot = true ∧
      (∀ k, Reg.hbmPage 0 ≤ k → k < Reg.hbmPage 12 → s.memory.pageTest = [] → t.reg k = s.reg k)) ∧
    (100 ≤ micros → s.heldCold = true → exec (.perstAssert micros) s =
      .next ((s.onHost (fun h => { h with linkUp := false })).onBoard (fun b => { b with perstLow := true }))) ∧
    (∃ t, exec .perstDeassert s = .next t ∧ t.board.perstLow = false ∧ t.mem = s.mem ∧
      (s.board.perstLow = true → s.board.warmBoot = true → s.fld Fld.bootStage = 0 → s.heldCold = false → t.fld Fld.bootStage = 1 ∧
        t.fld Fld.warm = 1)) ∧
    (s.fld Fld.pstate = 3 → ∃ t, exec .ps3BoardControllerExit s = .next t ∧ clean t ∧ t.fld Fld.bootStage = 1 ∧ t.fld Fld.warm = 1) ∧
    (s.fld Fld.pstate ≠ 3 → exec .ps3BoardControllerExit s = .next s) ∧
    (∀ x, s.board.warmDue = some x → x < 2 ^ 64 → ∃ t, exec .fwActivateWarmReset s = .next t ∧ clean t ∧ t.now = max s.now x ∧
      t.fld Fld.bootStage = 1 ∧ t.board.warmDue = none) ∧
    (s.board.warmDue = none → exec .fwActivateWarmReset s = .next s)

/-- Boot goes through its stages in order: each that passes leads to the next, the last to READY, but never while a stack is hot
after a protective stop; a failure stops it with the code of its stage, in recovery where no firmware verifies. In RECOVERY an image
that verifies is written to slot A, made active and booted by a warm reset; one that fails changes nothing; a D3 grant that verifies
enters D3, and another counts as a failure. -/
def Obligations.BootAndRecoveryGoStageByStage : Prop :=
  (∀ (s : State) (ms : Nat) (ext : List Byte),
      let n := max 1 (s.fld Fld.bootStage)
      let ends (f : BootFinding) (stage fail : Nat) : Prop := n = stage → ∃ t, exec (.bootStageComplete f ms ext) s = .next t ∧
        t.fld Fld.bootFail = fail ∧ t.fld Fld.state = 8
      (s.booting = false → ∀ f, exec (.bootStageComplete f ms ext) s = .next s) ∧
      (s.booting = true →
        (n ≠ 8 → n < 8 → ∃ t, exec (.bootStageComplete .ok ms ext) s = .next t ∧ t.fld Fld.bootStage = n + 1 ∧ t.job = s.job) ∧
        (n = 2 → ∃ t, exec (.bootStageComplete .ok ms ext) s = .next t ∧ t.fld Fld.sstate = 1 ∧
          t.reg Reg.fwVersion = Config.fwVersion.zeroExtend 64) ∧
        (n = 8 → s.tooHot = true → ∀ f, exec (.bootStageComplete f ms ext) s = .next s) ∧
        (n = 4 → ∃ t, exec (.bootStageComplete .ok ms ext) s = .next t ∧ t.mem = [] ∧ t.tags = [] ∧ t.memory.hardPending = []) ∧
        (n = 8 → s.tooHot = false → s.recordBody 5 = none → ∃ t, exec (.bootStageComplete .ok ms ext) s = .next t ∧ t.fld Fld.bootStage = 15 ∧ t.fld Fld.state = 1 ∧
          t.fld Fld.readyMs = min ms 0xFFFF) ∧
        (n = 1 → ∃ t, exec (.bootStageComplete .noFirmware ms ext) s = .next t ∧ t.fld Fld.bootFail = 1 ∧ t.fld Fld.sstate = 3 ∧
          t.mram = s.mram) ∧
        ends .d2dFailed 3 2 ∧ ends .stackFailed 4 3 ∧ ends .selfTestFailed 5 4 ∧
          (n = 5 → ∀ us, ∃ t, exec (.bootStageComplete (.absorbed us) ms ext) s = .next t ∧ (t.fld Fld.state ≠ 8 → t.fld Fld.bootStage = 6)))) ∧
  (∀ (s : State) (bytes : List Byte),
      (s.fld Fld.sstate = 3 → s.imageOk bytes = true → ∃ t, exec (.recoveryImageStream bytes) s = .next t ∧
        t.mram.slotA = ⟨true, fieldLE bytes 8 2, bytes⟩ ∧ t.mram.active = 0 ∧ t.mram.slotB = s.mram.slotB ∧ t.fld Fld.bootStage = 1 ∧
        t.fld Fld.warm = 1) ∧
      (s.fld Fld.sstate ≠ 3 ∨ s.imageOk bytes = false → exec (.recoveryImageStream bytes) s = .next s) ∧
      (s.fld Fld.sstate = 3 → s.d3Grant bytes = true → ∃ t, exec (.recoveryD3Grant bytes) s = .next t ∧ t.fld Fld.debug = 3 ∧
        t.fld Fld.sstate = 4 ∧ t.fld Fld.keysErased = 1 ∧ t.job = none) ∧
      (s.fld Fld.sstate = 3 → s.d3Grant bytes = false → exec (.recoveryD3Grant bytes) s = .next (s.bump Fld.authFail 1)) ∧
      (s.fld Fld.sstate ≠ 3 → exec (.recoveryD3Grant bytes) s = .next s))

/-- The power manager makes at most one step an evaluation: down while the average exceeds the cap (clocks, then duty, then
bandwidth), up after four evaluations 50 W or more below it, the last down step first; a new cap comes into force at the evaluation.
The fast limits: a current above 1.25 × cap ÷ 12 V (in tenths of an ampere) holds a duty of at most 8/16 until it falls below 0.9
times that, the brake and a junction above 110 °C a duty of 4/16; what the power page shows is the lowest in force. -/
def Obligations.PowerEvaluationsStepOnce : Prop :=
  (∀ (s : State) (watts : Nat), s.power.next = none → ∃ t, exec (.powerEvaluation watts) s = .next t ∧
      t.mem = s.mem ∧ t.job = s.job ∧
      (let p := s.power
       let q := t.power
       let cap := s.fld Fld.cap
       (cap < watts → q.upCount = 0 ∧
         (s.lowerable ≠ [] → q.duty = p.duty ∧ q.bandwidth = p.bandwidth ∧ q.downs = p.downs ++ [.clocks s.lowerable] ∧
           (∀ d, Tab.get 0 q.below d = Tab.get 0 p.below d + (if d ∈ s.lowerable then 1 else 0))) ∧
         (s.lowerable = [] → 4 < p.duty → q.duty = p.duty - 1 ∧ q.below = p.below ∧ q.bandwidth = p.bandwidth ∧ q.downs = p.downs ++ [.duty]) ∧
         (s.lowerable = [] → p.duty ≤ 4 → 5 < p.bandwidth → q.bandwidth = p.bandwidth - 1 ∧ q.duty = p.duty ∧ q.below = p.below ∧
           q.downs = p.downs ++ [.bandwidth]) ∧
         (s.lowerable = [] → p.duty ≤ 4 → p.bandwidth ≤ 5 → q.downs = p.downs ∧ q.duty = p.duty ∧ q.bandwidth = p.bandwidth ∧
           t.fld Fld.capUnmet = 1)) ∧
       (watts ≤ cap → t.fld Fld.capUnmet = 0 ∧
         (cap < watts + 50 → q.upCount = 0 ∧ q.downs = p.downs ∧ q.duty = p.duty ∧ q.bandwidth = p.bandwidth ∧ q.below = p.below) ∧
         (watts + 50 ≤ cap → p.upCount < 3 → q.upCount = p.upCount + 1 ∧ q.downs = p.downs ∧ q.duty = p.duty ∧ q.below = p.below) ∧
         (watts + 50 ≤ cap → 3 ≤ p.upCount → q.upCount = 0 ∧ q.downs = p.downs.dropLast ∧
           (p.downs.getLast? = some .duty → q.duty = p.duty + 1 ∧ q.below = p.below ∧ q.bandwidth = p.bandwidth) ∧
           (p.downs.getLast? = some .bandwidth → q.bandwidth = p.bandwidth + 1 ∧ q.duty = p.duty) ∧
           (∀ ds, p.downs.getLast? = some (.clocks ds) → q.duty = p.duty ∧ q.bandwidth = p.bandwidth))))) ∧
  (∀ (s : State) (amps : Nat),
      let shown (t : State) (most : Nat) : Prop := t.fld Fld.duty ≤ most ∧ t.fld Fld.duty ≤ t.power.duty ∧ t.mem = s.mem ∧ t.job = s.job
      ((s.power.fastSince = none → s.fld Fld.cap * 125 < amps * 120 → ∃ t, exec (.fastCurrentLimit amps) s = .next t ∧
          t.power.fastSince = some s.now ∧ shown t 8 ∧ t.fld Fld.fastLimit = 1 ∧ t.reg Reg.pwrFastlim =
            (s.bump64 Reg.pwrFastlim 1).reg Reg.pwrFastlim) ∧
        (s.power.fastSince = none → amps * 120 ≤ s.fld Fld.cap * 125 →
          exec (.fastCurrentLimit amps) s = .next (s.setFld Fld.inputCurrent amps)) ∧
        (∀ x, s.power.fastSince = some x → x + 100000 < 2 ^ 64 → amps * 1200 < s.fld Fld.cap * 1125 → ∃ t,
          exec (.fastLimitRelease amps) s = .next t ∧ t.power.fastSince = none ∧ t.now = max s.now (x + 100000) ∧ t.fld Fld.fastLimit = 0 ∧
          t.mem = s.mem) ∧
        (s.power.fastSince = none ∨ s.fld Fld.cap * 1125 ≤ amps * 1200 →
          exec (.fastLimitRelease amps) s = .next (s.setFld Fld.inputCurrent amps))) ∧
      (∃ t, exec .pwrBrakeAssert s = .next t ∧ t.power.brakeLow = true ∧ shown t 4 ∧ t.fld Fld.brake = 1 ∧ t.fld Fld.boardBrake = 1) ∧
      (s.power.brakeLow = true → ∃ t, exec .pwrBrakeRelease s = .next t ∧ t.power.brakeLow = false ∧ t.power.brakeHold = some s.now ∧
        shown t 4 ∧ t.fld Fld.brake = 1 ∧ t.fld Fld.boardBrake = 0) ∧
      (s.power.brakeLow = false → exec .pwrBrakeRelease s = .next s) ∧
      (∀ x, s.power.brakeHold = some x → s.power.brakeLow = false → x + 100000 < 2 ^ 64 → ∃ t, exec .brakeHoldExpiry s = .next t ∧
        t.power.brakeHold = none ∧ t.now = max s.now (x + 100000) ∧ t.fld Fld.brake = 0 ∧ t.mem = s.mem) ∧
      (s.power.brakeHold = none → exec .brakeHoldExpiry s = .next s) ∧
      (∀ d c, d < 4 →
        (110 < c → d ∉ s.power.junction → ∃ t, exec (.junctionLimit d c) s = .next t ∧ t.power.junction = s.power.junction ++ [d] ∧ shown t 4) ∧
        (c < 100 → d ∈ s.power.junction → ∃ t, exec (.junctionLimit d c) s = .next t ∧ d ∉ t.power.junction ∧ t.mem = s.mem) ∧
        (d ∈ s.power.junction → 100 ≤ c → exec (.junctionLimit d c) s = .next s) ∧
        (d ∉ s.power.junction → c ≤ 110 → exec (.junctionLimit d c) s = .next s)))

/-- SPDM 1.3: each request is answered from the end of boot stage 2 on, the responses carrying what R448 to R450 say; a device whose
keys are erased signs nothing; and before that the device is silent. -/
def Obligations.SpdmRequestsAreAnswered : Prop :=
  ∀ (s : State) (nonce : List Byte) (n m : Nat) (b : Bool),
    let answers (c : Instr) (P : List Byte → Prop) : Prop := ∃ (t : State) (r : List Byte), exec c s = .next t ∧
      t.sent = s.sent ++ [.spdm r] ∧ P r ∧ t = { s with sent := t.sent, sec := t.sec, freeCount := t.freeCount }
    let code (r : List Byte) : Nat := fieldLE r 1 1
    let error (r : List Byte) (e : Nat) : Prop := r.length = 4 ∧ code r = 0x7F ∧ fieldLE r 2 1 = e
    (s.spdmUp = false → ∀ c ∈ [Instr.getVersion, .getCapabilities, .negotiateAlgorithms n m, .getDigests, .getCertificate n m 16,
      .challenge n nonce, .getMeasurements n b nonce, .chunkGet n m, .vendorDefinedRequest b nonce, .spdmUnsupportedRequest n],
      exec c s = .next s) ∧
    (s.spdmUp = true →
      answers .getVersion (fun r => code r = 0x04 ∧ r.length = 8 ∧ fieldLE r 6 2 = 0x1300) ∧
      answers .getCapabilities (fun r => fieldLE r 0 1 = 0x13 ∧ code r = 0x61 ∧ fieldLE r 8 4 = 0x20016) ∧
      answers (.negotiateAlgorithms n m) (fun r => code r = 0x63 ∧ fieldLE r 12 4 = m &&& 8 ∧ fieldLE r 16 4 = n &&& 2) ∧
      answers .getDigests (fun r => code r = 0x01 ∧ r.drop 4 = sha384Bytes rsaChain) ∧
      (∀ off len, off ≤ rsaChain.length → answers (.getCertificate 0 off len) (fun r => code r = 0x02 ∧
        r.drop 8 = slice rsaChain off len)) ∧
      (n ≠ 0 → ∀ off len, answers (.getCertificate n off len) (fun r => error r 1)) ∧
      (n ≠ 0 → answers (.challenge n nonce) (fun r => error r 1)) ∧
      (s.fld Fld.keysErased = 1 → answers (.challenge 0 nonce) (fun r => error r 5)) ∧
      (s.fld Fld.keysErased = 0 → answers (.challenge 0 nonce) (fun r => code r = 0x03 ∧ slice r 4 48 = sha384Bytes rsaChain ∧
        r.length = 4 + 48 + 32 + 2 + 384 ∧ r.drop 86 = toLE 384 (Config.rsaSign (nonce ++ r.take 86)).toNat)) ∧
      (7 < n → n ≠ 0xFF → answers (.getMeasurements n b nonce) (fun r => error r 1)) ∧
      (answers (.getMeasurements 0 false nonce) (fun r => code r = 0x60 ∧ fieldLE r 2 1 = 7 ∧ fieldLE r 4 1 = 0)) ∧
      (1 ≤ n → n ≤ 7 → answers (.getMeasurements n false nonce) (fun r => code r = 0x60 ∧ fieldLE r 4 1 = 1 ∧
        slice r 8 (s.measureBlock n).length = s.measureBlock n)) ∧
      (s.fld Fld.keysErased = 1 → n ≤ 7 → answers (.getMeasurements n true nonce) (fun r => error r 5)) ∧
      (s.sec.chunks = [] ∨ n ≠ s.sec.chunkHandle ∨ m ≠ s.sec.chunkNext → answers (.chunkGet n m) (fun r => error r 1)) ∧
      (s.sec.chunks ≠ [] → answers (.chunkGet s.sec.chunkHandle s.sec.chunkNext) (fun r => code r = 0x06 ∧
        0 < fieldLE r 8 4 ∧ r.drop (if s.sec.chunkNext = 0 then 16 else 12) = s.sec.chunks.take (fieldLE r 8 4))) ∧
      answers (.vendorDefinedRequest true nonce) (fun r => code r = 0x7F ∧ fieldLE r 2 1 = 0x0F ∧ r.length = 5) ∧
      ((∀ e ∈ s.sec.signed, e.1 ≠ nonce) → answers (.vendorDefinedRequest false nonce) (fun r => error r 1)) ∧
      answers (.spdmUnsupportedRequest n) (fun r => error r 7 ∧ fieldLE r 3 1 = n % 256))

/-- The sideband: a dynamic I3C address is taken once, a private write sets the register offset and a private read returns the
register at it; the JTAG instructions select their registers, EXTEST and CLAMP only under COLD_RST_N. -/
def Obligations.SidebandReachesRegistersAndPins : Prop :=
  ∀ (s : State) (a : Nat),
    (let takes (c : Instr) : Prop := exec c s = .next ((s.onBoard (fun b => { b with i3cAddr := some a })).send (.i3cAddr a))
     (s.board.standbyGood = true → s.board.i3cAddr = none → takes (.i3cSetdasa (0x30 + s.board.straps.slot) a) ∧ takes (.i3cEntdaa a)) ∧
     (∀ x, x ≠ 0x30 + s.board.straps.slot → exec (.i3cSetdasa x a) s = .next s) ∧
     (s.board.i3cAddr.isSome = true → ∀ x, exec (.i3cSetdasa x a) s = .next s ∧ exec (.i3cEntdaa a) s = .next s)) ∧
    (s.board.i3cAddr = some a →
      (∀ data, data.length = 4 → exec (.i3cPrivateWrite a data) s = .next (s.onBoard (fun b => { b with i3cOffset := some (ofLE data) }))) ∧
      (∀ data, data.length ≠ 4 → exec (.i3cPrivateWrite a data) s = .next s) ∧
      (∀ x len, s.board.i3cOffset = some x → x % 4 = 0 → x < 0x400000 → exec (.i3cPrivateRead a len) s =
        .next (s.send (.i3cData ((s.regBytes x 4).take len)))) ∧
      (∀ len, s.board.i3cOffset = none → ∃ (t : State) (d : List Byte), exec (.i3cPrivateRead a len) s = .next t ∧
        t = { s with sent := s.sent ++ [.i3cData d], freeCount := s.freeCount + 1 } ∧ d.length = min len 4)) ∧
    (s.board.i3cAddr ≠ some a → ∀ data len, exec (.i3cPrivateWrite a data) s = .next s ∧ exec (.i3cPrivateRead a len) s = .next s) ∧
    (∀ pins preload,
      (s.board.standbyGood = true →
        (∃ t : State, exec .bypass s = .next t ∧ t.board.jtag = 0 ∧ t.sent = s.sent ++ [.jtag 1 0] ∧ t.regs = s.regs) ∧
        (∃ (t : State) (v : Nat), exec .idcode s = .next t ∧ t.board.jtag = 1 ∧ t.sent = s.sent ++ [.jtag 32 v] ∧ v % 2 = 1 ∧
          v / 2 ^ 12 % 2 ^ 16 = 0x6604 ∧ t.regs = s.regs) ∧
        (∃ t : State, exec (.samplePreload pins preload) s = .next t ∧ t.board.jtag = 2 ∧ t.board.boundary = preload ∧
          t.sent = s.sent ++ [.jtag 0 pins] ∧ t.board.pins = s.board.pins ∧ t.regs = s.regs) ∧
        (s.board.coldRstLow = true → ∃ t : State, exec .extest s = .next t ∧ t.board.jtag = 3 ∧ t.board.pins = s.board.boundary ∧
          t.regs = s.regs) ∧
        (s.board.coldRstLow = true → ∃ t : State, exec .clamp s = .next t ∧ t.board.jtag = 4 ∧ t.board.pins = s.board.boundary ∧
          t.sent = s.sent ++ [.jtag 1 0] ∧ t.regs = s.regs)) ∧
      (s.board.coldRstLow = false → exec .extest s = .next s ∧ exec .clamp s = .next s) ∧
      (s.board.standbyGood = false → exec .bypass s = .next s ∧ exec .idcode s = .next s ∧ exec (.samplePreload pins preload) s = .next s))

/-- Rounding, mode by mode: a magnitude m × 2^e in units of 2^k, for k above e. Toward zero, up and down bound it from the side they
name; the nearest modes are within half a unit and settle a tie as they say; the stochastic mode adds the draw and cuts off. -/
def Obligations.RoundingFollowsItsMode : Prop :=
  ∀ (rnd m draw d : Nat) (neg : Bool) (e : Int), 0 < d →
    let q := roundMag rnd neg m e (e + d) draw
    let u := 2 ^ d
    (rnd = 1 ∨ (rnd = 2 ∧ neg = true) ∨ (rnd = 3 ∧ neg = false) → q * u ≤ m ∧ m < q * u + u) ∧
    ((rnd = 2 ∧ neg = false) ∨ (rnd = 3 ∧ neg = true) → m ≤ q * u ∧ q * u < m + u) ∧
    (rnd = 0 ∨ rnd = 4 → 2 * (q * u) ≤ 2 * m + u ∧ 2 * m ≤ 2 * (q * u) + u) ∧
    (rnd = 0 → (2 * (q * u) = 2 * m + u ∨ 2 * m = 2 * (q * u) + u) → q % 2 = 0) ∧
    (rnd = 4 → 2 * m ≠ 2 * (q * u) + u) ∧
    (rnd = 5 → draw < 2 ^ 24 → q = (m * 2 ^ 24 + draw * u) / (u * 2 ^ 24)) ∧
    (∀ i : Nat, rnd ≤ 5 → draw < 2 ^ 24 → roundMag rnd neg (m * u) e (e + d) draw = m ∧
      roundMag rnd neg m (e + i) e draw = m * 2 ^ i)

/-- A value that a floating format holds converts to itself, in every format, under every rounding mode: no bit of a pattern is
dropped between decoding it and encoding it again. An infinity stays one, and a NaN becomes the canonical NaN and is counted. -/
def Obligations.RepresentableValuesConvertToThemselves : Prop :=
  ∀ (code : Nat) (f : FloatFmt) (rd : Rounding) (c : Ctl) (draw v : Nat), floatFmt? code = some f → c.fmt = code → rd.rnd ≤ 5 →
    rd.flush = false → draw < 2 ^ 24 → v < 2 ^ f.width →
    convert rd c 127 draw (f.decode v) = (if f.decode v = .nan then (f.canonNan, .nan) else (v, .none))

/-- A finite value converts to an integer or fixed-point format as its rounded magnitude, held to the format's range at its nearer
end; it is saturated exactly where the rounded value lies outside, an unsigned format takes a negative value that rounds to zero as
0, and it is inexact only where the value changed in a format of at most 16 bits. A negative zero becomes 0, and a floating format's
negative zero. -/
def Obligations.IntegerConversionsSaturate : Prop :=
  ∀ (rd : Rounding) (c : Ctl) (draw m : Nat) (neg : Bool) (e : Int), floatFmt? c.fmt = none → c.fmt ≠ 0xD → 0 < c.width →
    let r := convert rd c 127 draw (.fin neg m e)
    let q := roundMag rd.rnd neg m e (-(c.frac : Int)) draw
    let exact : Int := if neg then -(q : Int) else (q : Int)
    (if c.sgn then signedOf c.width r.1 else (r.1 : Int)) = max c.intMin (min c.intMax exact) ∧ r.1 < 2 ^ c.width ∧
    (r.2 = .saturated ↔ exact < c.intMin ∨ c.intMax < exact) ∧
    (c.sgn = false → neg = true → q = 0 → r.1 = 0 ∧ r.2 ≠ .saturated) ∧
    (r.2 ≠ .saturated → (r.2 = .inexact ↔ c.width ≤ 16 ∧ sameMag q (-(c.frac : Int)) m e = false)) ∧
    (m = 0 → r = (0, .none) ∧ ∀ (d : Ctl) (f : FloatFmt), floatFmt? d.fmt = some f →
      convert rd d 127 draw (.fin neg 0 e) = (f.signBit neg, .none))
end

