-- ==== Sys2Proof/Laws/Command.lean ====
section
/-! SUPPORT. What a mailbox command does: it waits, it is turned away, or it executes; and how a long command starts. -/
namespace Sys2Proof.Machine

variable {s : State} {k code n : Nat} {want : Msg → Nat} {bad : State → Msg → Option Nat} {f : State → Msg → State}

theorem State.takes_lt (h : s.takes k code n = true) : k < 64 := by
  simp only [State.takes, Bool.and_eq_true, decide_eq_true_eq] at h; exact h.1.1.1.1.1.1.1

/-- A command that passes every check executes. -/
theorem State.command_takes (h : s.takes k code n = true) (hw : want (s.msg k) = n) (hb : bad s (s.msg k) = none) :
    s.command k code want bad f = f s (s.msg k) := by
  simp only [State.takes, Bool.and_eq_true, decide_eq_true_eq, Bool.not_eq_true'] at h
  obtain ⟨⟨⟨⟨⟨⟨⟨-, h1⟩, h2⟩, h3⟩, h4⟩, h5⟩, h6⟩, h7⟩ := h
  simp [State.command, h1, h2, h3, h4, h5, h6, h7, hw, hb]

/-- A command whose body has a wrong field is answered with its offset. -/
theorem State.command_bad {off : Nat} (h : s.takes k code n = true) (hw : want (s.msg k) = n) (hb : bad s (s.msg k) = some off) :
    s.command k code want bad f = s.badField k (s.msg k) off := by
  simp only [State.takes, Bool.and_eq_true, decide_eq_true_eq, Bool.not_eq_true'] at h
  obtain ⟨⟨⟨⟨⟨⟨⟨-, h1⟩, h2⟩, h3⟩, h4⟩, h5⟩, h6⟩, h7⟩ := h
  simp [State.command, h1, h2, h3, h4, h5, h6, h7, hw, hb]

theorem State.plain_takes (h : s.takes k code 0 = true) : s.plain k code f = f s (s.msg k) :=
  State.command_takes h rfl rfl

/-- A command that is not the first in doorbell order waits. -/
theorem State.command_waits (h : s.host.order.head? ≠ some k) : s.command k code want bad f = s := by
  simp [State.command, h]

theorem ifUnit_true {b : Bool} {t : State} (h : b = true) : ifUnit b t = .next t := by simp [ifUnit, h]

/-- A long command that may start is accepted and joins those that run. -/
theorem State.startLongExt_starts {m : Msg} {cs : List Nat} {ext : List Byte} {g : State → State} (h : s.mayStart m.code cs = true) :
    s.startLongExt k m cs ext g =
      g ((s.answer k m Status.accepted 0 []).onHost (fun x => { x with longs := x.longs ++ [Long.of k m ext] })) ∨
    s.startLongExt k m cs ext g =
      g ((s.answer k m Status.accepted 0 []).onHost (fun x => { x with longs := [Long.of k m ext] })) ∧ s.host.longs = [] := by
  simp only [State.mayStart, Bool.and_eq_true, decide_eq_true_eq, Option.isNone_iff_eq_none] at h
  obtain ⟨h1, h2⟩ := h
  unfold State.startLongExt
  rw [h1]
  cases h3 : s.host.longs with
  | nil => simp
  | cons l r =>
    have : ¬ 16 ≤ (l :: r).length := by rw [← h3]; omega
    exact .inl (if_neg this)

end Sys2Proof.Machine
end

