-- ==== Sys2Proof/Laws/Issue.lean ====
section
/-! SUPPORT. What a record of an op list does: it issues, it is held, or it is not its list's next (R153, R154). -/
namespace Sys2Proof.Machine

variable {s : State} {l : ListId} {r : OpRecord} {u op w j : Nat} {f : State → State}
  {run : State → InFlight → State × InFlight}

theorem State.issues_list (h : s.issues l r u op = true) : l < 384 := by
  simp only [State.issues, Bool.and_eq_true, decide_eq_true_eq] at h; exact h.1.1.1
theorem State.issues_unit (h : s.issues l r u op = true) : r.unit = u := by
  simp only [State.issues, Bool.and_eq_true, decide_eq_true_eq] at h; exact h.1.1.2
theorem State.issues_opcode (h : s.issues l r u op = true) : r.opcode = op := by
  simp only [State.issues, Bool.and_eq_true, decide_eq_true_eq] at h; exact h.1.2
theorem State.issues_gate (h : s.issues l r u op = true) : s.gate l r = .ready := by
  simp only [State.issues, Bool.and_eq_true, decide_eq_true_eq] at h; exact h.2

/-- A sequencer record that may issue has its effect on the state after the sequencer moved on. -/
theorem State.seqRecord_issues (h : s.issues l r 0 op = true) : s.seqRecord l r op f = f (s.advance l) := by
  unfold State.seqRecord
  rw [issues_gate h, if_neg (by rw [issues_unit h, issues_opcode h]; simp)]

/-- A sequencer record that is held changes its sequencer only. -/
theorem State.seqRecord_held (h : s.gate l r = .held w j) (hu : r.unit = 0) (ho : r.opcode = op) :
    s.seqRecord l r op f = s.holdSeq l w j := by
  unfold State.seqRecord
  rw [h, if_neg (by rw [hu, ho]; simp)]

/-- A sequencer record that is not its list's next does nothing. -/
theorem State.seqRecord_notNext (h : s.gate l r = .notNext) : s.seqRecord l r op f = s := by
  unfold State.seqRecord
  rw [h]; split <;> rfl

/-- An op that may issue is in flight from then on. -/
theorem State.issueOp_issues (h : s.issues l r u op = true) : s.issueOp l r run = s.issued l r run := by
  unfold State.issueOp State.issued
  rw [issues_gate h]

theorem State.issueOp_held (h : s.gate l r = .held w j) : s.issueOp l r run = s.holdSeq l w j := by
  unfold State.issueOp; rw [h]

theorem State.issueOp_notNext (h : s.gate l r = .notNext) : s.issueOp l r run = s := by
  unfold State.issueOp; rw [h]

end Sys2Proof.Machine
end

