-- ==== Sys2Proof/Laws/State.lean ====
section
/-! SUPPORT. What each named update of the state leaves as it was, field by field, and what it sets: each true by
unfolding, so that no proof unfolds a record update. -/
namespace Sys2Proof.Machine

variable (s : State)

-- setReg

@[simp] theorem State.setReg_pending (k : Nat) (v : Word64) : (s.setReg k v).pending = s.pending := rfl
@[simp] theorem State.setReg_mem (k : Nat) (v : Word64) : (s.setReg k v).mem = s.mem := rfl
@[simp] theorem State.setReg_tags (k : Nat) (v : Word64) : (s.setReg k v).tags = s.tags := rfl
@[simp] theorem State.setReg_job (k : Nat) (v : Word64) : (s.setReg k v).job = s.job := rfl
@[simp] theorem State.setReg_cores (k : Nat) (v : Word64) : (s.setReg k v).cores = s.cores := rfl
@[simp] theorem State.setReg_tick (k : Nat) (v : Word64) : (s.setReg k v).tick = s.tick := rfl
@[simp] theorem State.setReg_time (k : Nat) (v : Word64) : (s.setReg k v).time = s.time := rfl
@[simp] theorem State.setReg_streams (k : Nat) (v : Word64) : (s.setReg k v).streams = s.streams := rfl
@[simp] theorem State.setReg_changes (k : Nat) (v : Word64) : (s.setReg k v).changes = s.changes := rfl
@[simp] theorem State.setReg_slow (k : Nat) (v : Word64) : (s.setReg k v).slow = s.slow := rfl
@[simp] theorem State.setReg_ownSlow (k : Nat) (v : Word64) : (s.setReg k v).ownSlow = s.ownSlow := rfl
@[simp] theorem State.setReg_qdefs (k : Nat) (v : Word64) : (s.setReg k v).qdefs = s.qdefs := rfl
@[simp] theorem State.setReg_queues (k : Nat) (v : Word64) : (s.setReg k v).queues = s.queues := rfl
@[simp] theorem State.setReg_slots (k : Nat) (v : Word64) : (s.setReg k v).slots = s.slots := rfl
@[simp] theorem State.setReg_memory (k : Nat) (v : Word64) : (s.setReg k v).memory = s.memory := rfl
@[simp] theorem State.setReg_ckpt (k : Nat) (v : Word64) : (s.setReg k v).ckpt = s.ckpt := rfl
@[simp] theorem State.setReg_fabric (k : Nat) (v : Word64) : (s.setReg k v).fabric = s.fabric := rfl
@[simp] theorem State.setReg_host (k : Nat) (v : Word64) : (s.setReg k v).host = s.host := rfl
@[simp] theorem State.setReg_power (k : Nat) (v : Word64) : (s.setReg k v).power = s.power := rfl
@[simp] theorem State.setReg_mram (k : Nat) (v : Word64) : (s.setReg k v).mram = s.mram := rfl
@[simp] theorem State.setReg_sec (k : Nat) (v : Word64) : (s.setReg k v).sec = s.sec := rfl
@[simp] theorem State.setReg_snap (k : Nat) (v : Word64) : (s.setReg k v).snap = s.snap := rfl
@[simp] theorem State.setReg_board (k : Nat) (v : Word64) : (s.setReg k v).board = s.board := rfl
@[simp] theorem State.setReg_tests (k : Nat) (v : Word64) : (s.setReg k v).tests = s.tests := rfl
@[simp] theorem State.setReg_freeCount (k : Nat) (v : Word64) : (s.setReg k v).freeCount = s.freeCount := rfl
@[simp] theorem State.setReg_sent (k : Nat) (v : Word64) : (s.setReg k v).sent = s.sent := rfl

-- setFld

@[simp] theorem State.setFld_pending (f : Fld) (v : Nat) : (s.setFld f v).pending = s.pending := rfl
@[simp] theorem State.setFld_mem (f : Fld) (v : Nat) : (s.setFld f v).mem = s.mem := rfl
@[simp] theorem State.setFld_tags (f : Fld) (v : Nat) : (s.setFld f v).tags = s.tags := rfl
@[simp] theorem State.setFld_job (f : Fld) (v : Nat) : (s.setFld f v).job = s.job := rfl
@[simp] theorem State.setFld_cores (f : Fld) (v : Nat) : (s.setFld f v).cores = s.cores := rfl
@[simp] theorem State.setFld_tick (f : Fld) (v : Nat) : (s.setFld f v).tick = s.tick := rfl
@[simp] theorem State.setFld_time (f : Fld) (v : Nat) : (s.setFld f v).time = s.time := rfl
@[simp] theorem State.setFld_streams (f : Fld) (v : Nat) : (s.setFld f v).streams = s.streams := rfl
@[simp] theorem State.setFld_changes (f : Fld) (v : Nat) : (s.setFld f v).changes = s.changes := rfl
@[simp] theorem State.setFld_slow (f : Fld) (v : Nat) : (s.setFld f v).slow = s.slow := rfl
@[simp] theorem State.setFld_ownSlow (f : Fld) (v : Nat) : (s.setFld f v).ownSlow = s.ownSlow := rfl
@[simp] theorem State.setFld_qdefs (f : Fld) (v : Nat) : (s.setFld f v).qdefs = s.qdefs := rfl
@[simp] theorem State.setFld_queues (f : Fld) (v : Nat) : (s.setFld f v).queues = s.queues := rfl
@[simp] theorem State.setFld_slots (f : Fld) (v : Nat) : (s.setFld f v).slots = s.slots := rfl
@[simp] theorem State.setFld_memory (f : Fld) (v : Nat) : (s.setFld f v).memory = s.memory := rfl
@[simp] theorem State.setFld_ckpt (f : Fld) (v : Nat) : (s.setFld f v).ckpt = s.ckpt := rfl
@[simp] theorem State.setFld_fabric (f : Fld) (v : Nat) : (s.setFld f v).fabric = s.fabric := rfl
@[simp] theorem State.setFld_host (f : Fld) (v : Nat) : (s.setFld f v).host = s.host := rfl
@[simp] theorem State.setFld_power (f : Fld) (v : Nat) : (s.setFld f v).power = s.power := rfl
@[simp] theorem State.setFld_mram (f : Fld) (v : Nat) : (s.setFld f v).mram = s.mram := rfl
@[simp] theorem State.setFld_sec (f : Fld) (v : Nat) : (s.setFld f v).sec = s.sec := rfl
@[simp] theorem State.setFld_snap (f : Fld) (v : Nat) : (s.setFld f v).snap = s.snap := rfl
@[simp] theorem State.setFld_board (f : Fld) (v : Nat) : (s.setFld f v).board = s.board := rfl
@[simp] theorem State.setFld_tests (f : Fld) (v : Nat) : (s.setFld f v).tests = s.tests := rfl
@[simp] theorem State.setFld_freeCount (f : Fld) (v : Nat) : (s.setFld f v).freeCount = s.freeCount := rfl
@[simp] theorem State.setFld_sent (f : Fld) (v : Nat) : (s.setFld f v).sent = s.sent := rfl

-- bump

@[simp] theorem State.bump_pending (f : Fld) (n : Nat) : (s.bump f n).pending = s.pending := rfl
@[simp] theorem State.bump_mem (f : Fld) (n : Nat) : (s.bump f n).mem = s.mem := rfl
@[simp] theorem State.bump_tags (f : Fld) (n : Nat) : (s.bump f n).tags = s.tags := rfl
@[simp] theorem State.bump_job (f : Fld) (n : Nat) : (s.bump f n).job = s.job := rfl
@[simp] theorem State.bump_cores (f : Fld) (n : Nat) : (s.bump f n).cores = s.cores := rfl
@[simp] theorem State.bump_tick (f : Fld) (n : Nat) : (s.bump f n).tick = s.tick := rfl
@[simp] theorem State.bump_time (f : Fld) (n : Nat) : (s.bump f n).time = s.time := rfl
@[simp] theorem State.bump_streams (f : Fld) (n : Nat) : (s.bump f n).streams = s.streams := rfl
@[simp] theorem State.bump_changes (f : Fld) (n : Nat) : (s.bump f n).changes = s.changes := rfl
@[simp] theorem State.bump_slow (f : Fld) (n : Nat) : (s.bump f n).slow = s.slow := rfl
@[simp] theorem State.bump_ownSlow (f : Fld) (n : Nat) : (s.bump f n).ownSlow = s.ownSlow := rfl
@[simp] theorem State.bump_qdefs (f : Fld) (n : Nat) : (s.bump f n).qdefs = s.qdefs := rfl
@[simp] theorem State.bump_queues (f : Fld) (n : Nat) : (s.bump f n).queues = s.queues := rfl
@[simp] theorem State.bump_slots (f : Fld) (n : Nat) : (s.bump f n).slots = s.slots := rfl
@[simp] theorem State.bump_memory (f : Fld) (n : Nat) : (s.bump f n).memory = s.memory := rfl
@[simp] theorem State.bump_ckpt (f : Fld) (n : Nat) : (s.bump f n).ckpt = s.ckpt := rfl
@[simp] theorem State.bump_fabric (f : Fld) (n : Nat) : (s.bump f n).fabric = s.fabric := rfl
@[simp] theorem State.bump_host (f : Fld) (n : Nat) : (s.bump f n).host = s.host := rfl
@[simp] theorem State.bump_power (f : Fld) (n : Nat) : (s.bump f n).power = s.power := rfl
@[simp] theorem State.bump_mram (f : Fld) (n : Nat) : (s.bump f n).mram = s.mram := rfl
@[simp] theorem State.bump_sec (f : Fld) (n : Nat) : (s.bump f n).sec = s.sec := rfl
@[simp] theorem State.bump_snap (f : Fld) (n : Nat) : (s.bump f n).snap = s.snap := rfl
@[simp] theorem State.bump_board (f : Fld) (n : Nat) : (s.bump f n).board = s.board := rfl
@[simp] theorem State.bump_tests (f : Fld) (n : Nat) : (s.bump f n).tests = s.tests := rfl
@[simp] theorem State.bump_freeCount (f : Fld) (n : Nat) : (s.bump f n).freeCount = s.freeCount := rfl
@[simp] theorem State.bump_sent (f : Fld) (n : Nat) : (s.bump f n).sent = s.sent := rfl

-- bump32

@[simp] theorem State.bump32_pending (k n : Nat) : (s.bump32 k n).pending = s.pending := rfl
@[simp] theorem State.bump32_mem (k n : Nat) : (s.bump32 k n).mem = s.mem := rfl
@[simp] theorem State.bump32_tags (k n : Nat) : (s.bump32 k n).tags = s.tags := rfl
@[simp] theorem State.bump32_job (k n : Nat) : (s.bump32 k n).job = s.job := rfl
@[simp] theorem State.bump32_cores (k n : Nat) : (s.bump32 k n).cores = s.cores := rfl
@[simp] theorem State.bump32_tick (k n : Nat) : (s.bump32 k n).tick = s.tick := rfl
@[simp] theorem State.bump32_time (k n : Nat) : (s.bump32 k n).time = s.time := rfl
@[simp] theorem State.bump32_streams (k n : Nat) : (s.bump32 k n).streams = s.streams := rfl
@[simp] theorem State.bump32_changes (k n : Nat) : (s.bump32 k n).changes = s.changes := rfl
@[simp] theorem State.bump32_slow (k n : Nat) : (s.bump32 k n).slow = s.slow := rfl
@[simp] theorem State.bump32_ownSlow (k n : Nat) : (s.bump32 k n).ownSlow = s.ownSlow := rfl
@[simp] theorem State.bump32_qdefs (k n : Nat) : (s.bump32 k n).qdefs = s.qdefs := rfl
@[simp] theorem State.bump32_queues (k n : Nat) : (s.bump32 k n).queues = s.queues := rfl
@[simp] theorem State.bump32_slots (k n : Nat) : (s.bump32 k n).slots = s.slots := rfl
@[simp] theorem State.bump32_memory (k n : Nat) : (s.bump32 k n).memory = s.memory := rfl
@[simp] theorem State.bump32_ckpt (k n : Nat) : (s.bump32 k n).ckpt = s.ckpt := rfl
@[simp] theorem State.bump32_fabric (k n : Nat) : (s.bump32 k n).fabric = s.fabric := rfl
@[simp] theorem State.bump32_host (k n : Nat) : (s.bump32 k n).host = s.host := rfl
@[simp] theorem State.bump32_power (k n : Nat) : (s.bump32 k n).power = s.power := rfl
@[simp] theorem State.bump32_mram (k n : Nat) : (s.bump32 k n).mram = s.mram := rfl
@[simp] theorem State.bump32_sec (k n : Nat) : (s.bump32 k n).sec = s.sec := rfl
@[simp] theorem State.bump32_snap (k n : Nat) : (s.bump32 k n).snap = s.snap := rfl
@[simp] theorem State.bump32_board (k n : Nat) : (s.bump32 k n).board = s.board := rfl
@[simp] theorem State.bump32_tests (k n : Nat) : (s.bump32 k n).tests = s.tests := rfl
@[simp] theorem State.bump32_freeCount (k n : Nat) : (s.bump32 k n).freeCount = s.freeCount := rfl
@[simp] theorem State.bump32_sent (k n : Nat) : (s.bump32 k n).sent = s.sent := rfl

-- bump64

@[simp] theorem State.bump64_pending (k n : Nat) : (s.bump64 k n).pending = s.pending := rfl
@[simp] theorem State.bump64_mem (k n : Nat) : (s.bump64 k n).mem = s.mem := rfl
@[simp] theorem State.bump64_tags (k n : Nat) : (s.bump64 k n).tags = s.tags := rfl
@[simp] theorem State.bump64_job (k n : Nat) : (s.bump64 k n).job = s.job := rfl
@[simp] theorem State.bump64_cores (k n : Nat) : (s.bump64 k n).cores = s.cores := rfl
@[simp] theorem State.bump64_tick (k n : Nat) : (s.bump64 k n).tick = s.tick := rfl
@[simp] theorem State.bump64_time (k n : Nat) : (s.bump64 k n).time = s.time := rfl
@[simp] theorem State.bump64_streams (k n : Nat) : (s.bump64 k n).streams = s.streams := rfl
@[simp] theorem State.bump64_changes (k n : Nat) : (s.bump64 k n).changes = s.changes := rfl
@[simp] theorem State.bump64_slow (k n : Nat) : (s.bump64 k n).slow = s.slow := rfl
@[simp] theorem State.bump64_ownSlow (k n : Nat) : (s.bump64 k n).ownSlow = s.ownSlow := rfl
@[simp] theorem State.bump64_qdefs (k n : Nat) : (s.bump64 k n).qdefs = s.qdefs := rfl
@[simp] theorem State.bump64_queues (k n : Nat) : (s.bump64 k n).queues = s.queues := rfl
@[simp] theorem State.bump64_slots (k n : Nat) : (s.bump64 k n).slots = s.slots := rfl
@[simp] theorem State.bump64_memory (k n : Nat) : (s.bump64 k n).memory = s.memory := rfl
@[simp] theorem State.bump64_ckpt (k n : Nat) : (s.bump64 k n).ckpt = s.ckpt := rfl
@[simp] theorem State.bump64_fabric (k n : Nat) : (s.bump64 k n).fabric = s.fabric := rfl
@[simp] theorem State.bump64_host (k n : Nat) : (s.bump64 k n).host = s.host := rfl
@[simp] theorem State.bump64_power (k n : Nat) : (s.bump64 k n).power = s.power := rfl
@[simp] theorem State.bump64_mram (k n : Nat) : (s.bump64 k n).mram = s.mram := rfl
@[simp] theorem State.bump64_sec (k n : Nat) : (s.bump64 k n).sec = s.sec := rfl
@[simp] theorem State.bump64_snap (k n : Nat) : (s.bump64 k n).snap = s.snap := rfl
@[simp] theorem State.bump64_board (k n : Nat) : (s.bump64 k n).board = s.board := rfl
@[simp] theorem State.bump64_tests (k n : Nat) : (s.bump64 k n).tests = s.tests := rfl
@[simp] theorem State.bump64_freeCount (k n : Nat) : (s.bump64 k n).freeCount = s.freeCount := rfl
@[simp] theorem State.bump64_sent (k n : Nat) : (s.bump64 k n).sent = s.sent := rfl

-- setCount

@[simp] theorem State.setCount_pending (l i v : Nat) : (s.setCount l i v).pending = s.pending := rfl
@[simp] theorem State.setCount_mem (l i v : Nat) : (s.setCount l i v).mem = s.mem := rfl
@[simp] theorem State.setCount_tags (l i v : Nat) : (s.setCount l i v).tags = s.tags := rfl
@[simp] theorem State.setCount_job (l i v : Nat) : (s.setCount l i v).job = s.job := rfl
@[simp] theorem State.setCount_cores (l i v : Nat) : (s.setCount l i v).cores = s.cores := rfl
@[simp] theorem State.setCount_tick (l i v : Nat) : (s.setCount l i v).tick = s.tick := rfl
@[simp] theorem State.setCount_time (l i v : Nat) : (s.setCount l i v).time = s.time := rfl
@[simp] theorem State.setCount_streams (l i v : Nat) : (s.setCount l i v).streams = s.streams := rfl
@[simp] theorem State.setCount_changes (l i v : Nat) : (s.setCount l i v).changes = s.changes := rfl
@[simp] theorem State.setCount_slow (l i v : Nat) : (s.setCount l i v).slow = s.slow := rfl
@[simp] theorem State.setCount_ownSlow (l i v : Nat) : (s.setCount l i v).ownSlow = s.ownSlow := rfl
@[simp] theorem State.setCount_qdefs (l i v : Nat) : (s.setCount l i v).qdefs = s.qdefs := rfl
@[simp] theorem State.setCount_queues (l i v : Nat) : (s.setCount l i v).queues = s.queues := rfl
@[simp] theorem State.setCount_slots (l i v : Nat) : (s.setCount l i v).slots = s.slots := rfl
@[simp] theorem State.setCount_memory (l i v : Nat) : (s.setCount l i v).memory = s.memory := rfl
@[simp] theorem State.setCount_ckpt (l i v : Nat) : (s.setCount l i v).ckpt = s.ckpt := rfl
@[simp] theorem State.setCount_fabric (l i v : Nat) : (s.setCount l i v).fabric = s.fabric := rfl
@[simp] theorem State.setCount_host (l i v : Nat) : (s.setCount l i v).host = s.host := rfl
@[simp] theorem State.setCount_power (l i v : Nat) : (s.setCount l i v).power = s.power := rfl
@[simp] theorem State.setCount_mram (l i v : Nat) : (s.setCount l i v).mram = s.mram := rfl
@[simp] theorem State.setCount_sec (l i v : Nat) : (s.setCount l i v).sec = s.sec := rfl
@[simp] theorem State.setCount_snap (l i v : Nat) : (s.setCount l i v).snap = s.snap := rfl
@[simp] theorem State.setCount_board (l i v : Nat) : (s.setCount l i v).board = s.board := rfl
@[simp] theorem State.setCount_tests (l i v : Nat) : (s.setCount l i v).tests = s.tests := rfl
@[simp] theorem State.setCount_freeCount (l i v : Nat) : (s.setCount l i v).freeCount = s.freeCount := rfl
@[simp] theorem State.setCount_sent (l i v : Nat) : (s.setCount l i v).sent = s.sent := rfl

-- countWait

@[simp] theorem State.countWait_pending (l : ListId) : (s.countWait l).pending = s.pending := by unfold State.countWait; split <;> rfl
@[simp] theorem State.countWait_mem (l : ListId) : (s.countWait l).mem = s.mem := by unfold State.countWait; split <;> rfl
@[simp] theorem State.countWait_tags (l : ListId) : (s.countWait l).tags = s.tags := by unfold State.countWait; split <;> rfl
@[simp] theorem State.countWait_job (l : ListId) : (s.countWait l).job = s.job := by unfold State.countWait; split <;> rfl
@[simp] theorem State.countWait_cores (l : ListId) : (s.countWait l).cores = s.cores := by unfold State.countWait; split <;> rfl
@[simp] theorem State.countWait_tick (l : ListId) : (s.countWait l).tick = s.tick := by unfold State.countWait; split <;> rfl
@[simp] theorem State.countWait_time (l : ListId) : (s.countWait l).time = s.time := by unfold State.countWait; split <;> rfl
@[simp] theorem State.countWait_streams (l : ListId) : (s.countWait l).streams = s.streams := by unfold State.countWait; split <;> rfl
@[simp] theorem State.countWait_changes (l : ListId) : (s.countWait l).changes = s.changes := by unfold State.countWait; split <;> rfl
@[simp] theorem State.countWait_slow (l : ListId) : (s.countWait l).slow = s.slow := by unfold State.countWait; split <;> rfl
@[simp] theorem State.countWait_ownSlow (l : ListId) : (s.countWait l).ownSlow = s.ownSlow := by unfold State.countWait; split <;> rfl
@[simp] theorem State.countWait_qdefs (l : ListId) : (s.countWait l).qdefs = s.qdefs := by unfold State.countWait; split <;> rfl
@[simp] theorem State.countWait_queues (l : ListId) : (s.countWait l).queues = s.queues := by unfold State.countWait; split <;> rfl
@[simp] theorem State.countWait_slots (l : ListId) : (s.countWait l).slots = s.slots := by unfold State.countWait; split <;> rfl
@[simp] theorem State.countWait_memory (l : ListId) : (s.countWait l).memory = s.memory := by unfold State.countWait; split <;> rfl
@[simp] theorem State.countWait_ckpt (l : ListId) : (s.countWait l).ckpt = s.ckpt := by unfold State.countWait; split <;> rfl
@[simp] theorem State.countWait_fabric (l : ListId) : (s.countWait l).fabric = s.fabric := by unfold State.countWait; split <;> rfl
@[simp] theorem State.countWait_host (l : ListId) : (s.countWait l).host = s.host := by unfold State.countWait; split <;> rfl
@[simp] theorem State.countWait_power (l : ListId) : (s.countWait l).power = s.power := by unfold State.countWait; split <;> rfl
@[simp] theorem State.countWait_mram (l : ListId) : (s.countWait l).mram = s.mram := by unfold State.countWait; split <;> rfl
@[simp] theorem State.countWait_sec (l : ListId) : (s.countWait l).sec = s.sec := by unfold State.countWait; split <;> rfl
@[simp] theorem State.countWait_snap (l : ListId) : (s.countWait l).snap = s.snap := by unfold State.countWait; split <;> rfl
@[simp] theorem State.countWait_board (l : ListId) : (s.countWait l).board = s.board := by unfold State.countWait; split <;> rfl
@[simp] theorem State.countWait_tests (l : ListId) : (s.countWait l).tests = s.tests := by unfold State.countWait; split <;> rfl
@[simp] theorem State.countWait_freeCount (l : ListId) : (s.countWait l).freeCount = s.freeCount := by unfold State.countWait; split <;> rfl
@[simp] theorem State.countWait_sent (l : ListId) : (s.countWait l).sent = s.sent := by unfold State.countWait; split <;> rfl

-- setSeq

@[simp] theorem State.setSeq_pending (l state wait : Nat) : (s.setSeq l state wait).pending = s.pending := by unfold State.setSeq; rw [State.setReg_pending, State.setFld_pending, State.setFld_pending, State.countWait_pending]
@[simp] theorem State.setSeq_mem (l state wait : Nat) : (s.setSeq l state wait).mem = s.mem := by unfold State.setSeq; rw [State.setReg_mem, State.setFld_mem, State.setFld_mem, State.countWait_mem]
@[simp] theorem State.setSeq_tags (l state wait : Nat) : (s.setSeq l state wait).tags = s.tags := by unfold State.setSeq; rw [State.setReg_tags, State.setFld_tags, State.setFld_tags, State.countWait_tags]
@[simp] theorem State.setSeq_job (l state wait : Nat) : (s.setSeq l state wait).job = s.job := by unfold State.setSeq; rw [State.setReg_job, State.setFld_job, State.setFld_job, State.countWait_job]
@[simp] theorem State.setSeq_cores (l state wait : Nat) : (s.setSeq l state wait).cores = s.cores := by unfold State.setSeq; rw [State.setReg_cores, State.setFld_cores, State.setFld_cores, State.countWait_cores]
@[simp] theorem State.setSeq_tick (l state wait : Nat) : (s.setSeq l state wait).tick = s.tick := by unfold State.setSeq; rw [State.setReg_tick, State.setFld_tick, State.setFld_tick, State.countWait_tick]
@[simp] theorem State.setSeq_time (l state wait : Nat) : (s.setSeq l state wait).time = s.time := by unfold State.setSeq; rw [State.setReg_time, State.setFld_time, State.setFld_time, State.countWait_time]
@[simp] theorem State.setSeq_streams (l state wait : Nat) : (s.setSeq l state wait).streams = s.streams := by unfold State.setSeq; rw [State.setReg_streams, State.setFld_streams, State.setFld_streams, State.countWait_streams]
@[simp] theorem State.setSeq_changes (l state wait : Nat) : (s.setSeq l state wait).changes = s.changes := by unfold State.setSeq; rw [State.setReg_changes, State.setFld_changes, State.setFld_changes, State.countWait_changes]
@[simp] theorem State.setSeq_slow (l state wait : Nat) : (s.setSeq l state wait).slow = s.slow := by unfold State.setSeq; rw [State.setReg_slow, State.setFld_slow, State.setFld_slow, State.countWait_slow]
@[simp] theorem State.setSeq_ownSlow (l state wait : Nat) : (s.setSeq l state wait).ownSlow = s.ownSlow := by unfold State.setSeq; rw [State.setReg_ownSlow, State.setFld_ownSlow, State.setFld_ownSlow, State.countWait_ownSlow]
@[simp] theorem State.setSeq_qdefs (l state wait : Nat) : (s.setSeq l state wait).qdefs = s.qdefs := by unfold State.setSeq; rw [State.setReg_qdefs, State.setFld_qdefs, State.setFld_qdefs, State.countWait_qdefs]
@[simp] theorem State.setSeq_queues (l state wait : Nat) : (s.setSeq l state wait).queues = s.queues := by unfold State.setSeq; rw [State.setReg_queues, State.setFld_queues, State.setFld_queues, State.countWait_queues]
@[simp] theorem State.setSeq_slots (l state wait : Nat) : (s.setSeq l state wait).slots = s.slots := by unfold State.setSeq; rw [State.setReg_slots, State.setFld_slots, State.setFld_slots, State.countWait_slots]
@[simp] theorem State.setSeq_memory (l state wait : Nat) : (s.setSeq l state wait).memory = s.memory := by unfold State.setSeq; rw [State.setReg_memory, State.setFld_memory, State.setFld_memory, State.countWait_memory]
@[simp] theorem State.setSeq_ckpt (l state wait : Nat) : (s.setSeq l state wait).ckpt = s.ckpt := by unfold State.setSeq; rw [State.setReg_ckpt, State.setFld_ckpt, State.setFld_ckpt, State.countWait_ckpt]
@[simp] theorem State.setSeq_fabric (l state wait : Nat) : (s.setSeq l state wait).fabric = s.fabric := by unfold State.setSeq; rw [State.setReg_fabric, State.setFld_fabric, State.setFld_fabric, State.countWait_fabric]
@[simp] theorem State.setSeq_host (l state wait : Nat) : (s.setSeq l state wait).host = s.host := by unfold State.setSeq; rw [State.setReg_host, State.setFld_host, State.setFld_host, State.countWait_host]
@[simp] theorem State.setSeq_power (l state wait : Nat) : (s.setSeq l state wait).power = s.power := by unfold State.setSeq; rw [State.setReg_power, State.setFld_power, State.setFld_power, State.countWait_power]
@[simp] theorem State.setSeq_mram (l state wait : Nat) : (s.setSeq l state wait).mram = s.mram := by unfold State.setSeq; rw [State.setReg_mram, State.setFld_mram, State.setFld_mram, State.countWait_mram]
@[simp] theorem State.setSeq_sec (l state wait : Nat) : (s.setSeq l state wait).sec = s.sec := by unfold State.setSeq; rw [State.setReg_sec, State.setFld_sec, State.setFld_sec, State.countWait_sec]
@[simp] theorem State.setSeq_snap (l state wait : Nat) : (s.setSeq l state wait).snap = s.snap := by unfold State.setSeq; rw [State.setReg_snap, State.setFld_snap, State.setFld_snap, State.countWait_snap]
@[simp] theorem State.setSeq_board (l state wait : Nat) : (s.setSeq l state wait).board = s.board := by unfold State.setSeq; rw [State.setReg_board, State.setFld_board, State.setFld_board, State.countWait_board]
@[simp] theorem State.setSeq_tests (l state wait : Nat) : (s.setSeq l state wait).tests = s.tests := by unfold State.setSeq; rw [State.setReg_tests, State.setFld_tests, State.setFld_tests, State.countWait_tests]
@[simp] theorem State.setSeq_freeCount (l state wait : Nat) : (s.setSeq l state wait).freeCount = s.freeCount := by unfold State.setSeq; rw [State.setReg_freeCount, State.setFld_freeCount, State.setFld_freeCount, State.countWait_freeCount]
@[simp] theorem State.setSeq_sent (l state wait : Nat) : (s.setSeq l state wait).sent = s.sent := by unfold State.setSeq; rw [State.setReg_sent, State.setFld_sent, State.setFld_sent, State.countWait_sent]

-- seqTo

@[simp] theorem State.seqTo_pending (l n : Nat) : (s.seqTo l n).pending = s.pending := by unfold State.seqTo; rw [State.setFld_pending, State.setSeq_pending]
@[simp] theorem State.seqTo_mem (l n : Nat) : (s.seqTo l n).mem = s.mem := by unfold State.seqTo; rw [State.setFld_mem, State.setSeq_mem]
@[simp] theorem State.seqTo_tags (l n : Nat) : (s.seqTo l n).tags = s.tags := by unfold State.seqTo; rw [State.setFld_tags, State.setSeq_tags]
@[simp] theorem State.seqTo_job (l n : Nat) : (s.seqTo l n).job = s.job := by unfold State.seqTo; rw [State.setFld_job, State.setSeq_job]
@[simp] theorem State.seqTo_cores (l n : Nat) : (s.seqTo l n).cores = s.cores := by unfold State.seqTo; rw [State.setFld_cores, State.setSeq_cores]
@[simp] theorem State.seqTo_tick (l n : Nat) : (s.seqTo l n).tick = s.tick := by unfold State.seqTo; rw [State.setFld_tick, State.setSeq_tick]
@[simp] theorem State.seqTo_time (l n : Nat) : (s.seqTo l n).time = s.time := by unfold State.seqTo; rw [State.setFld_time, State.setSeq_time]
@[simp] theorem State.seqTo_streams (l n : Nat) : (s.seqTo l n).streams = s.streams := by unfold State.seqTo; rw [State.setFld_streams, State.setSeq_streams]
@[simp] theorem State.seqTo_changes (l n : Nat) : (s.seqTo l n).changes = s.changes := by unfold State.seqTo; rw [State.setFld_changes, State.setSeq_changes]
@[simp] theorem State.seqTo_slow (l n : Nat) : (s.seqTo l n).slow = s.slow := by unfold State.seqTo; rw [State.setFld_slow, State.setSeq_slow]
@[simp] theorem State.seqTo_ownSlow (l n : Nat) : (s.seqTo l n).ownSlow = s.ownSlow := by unfold State.seqTo; rw [State.setFld_ownSlow, State.setSeq_ownSlow]
@[simp] theorem State.seqTo_qdefs (l n : Nat) : (s.seqTo l n).qdefs = s.qdefs := by unfold State.seqTo; rw [State.setFld_qdefs, State.setSeq_qdefs]
@[simp] theorem State.seqTo_queues (l n : Nat) : (s.seqTo l n).queues = s.queues := by unfold State.seqTo; rw [State.setFld_queues, State.setSeq_queues]
@[simp] theorem State.seqTo_slots (l n : Nat) : (s.seqTo l n).slots = s.slots := by unfold State.seqTo; rw [State.setFld_slots, State.setSeq_slots]
@[simp] theorem State.seqTo_memory (l n : Nat) : (s.seqTo l n).memory = s.memory := by unfold State.seqTo; rw [State.setFld_memory, State.setSeq_memory]
@[simp] theorem State.seqTo_ckpt (l n : Nat) : (s.seqTo l n).ckpt = s.ckpt := by unfold State.seqTo; rw [State.setFld_ckpt, State.setSeq_ckpt]
@[simp] theorem State.seqTo_fabric (l n : Nat) : (s.seqTo l n).fabric = s.fabric := by unfold State.seqTo; rw [State.setFld_fabric, State.setSeq_fabric]
@[simp] theorem State.seqTo_host (l n : Nat) : (s.seqTo l n).host = s.host := by unfold State.seqTo; rw [State.setFld_host, State.setSeq_host]
@[simp] theorem State.seqTo_power (l n : Nat) : (s.seqTo l n).power = s.power := by unfold State.seqTo; rw [State.setFld_power, State.setSeq_power]
@[simp] theorem State.seqTo_mram (l n : Nat) : (s.seqTo l n).mram = s.mram := by unfold State.seqTo; rw [State.setFld_mram, State.setSeq_mram]
@[simp] theorem State.seqTo_sec (l n : Nat) : (s.seqTo l n).sec = s.sec := by unfold State.seqTo; rw [State.setFld_sec, State.setSeq_sec]
@[simp] theorem State.seqTo_snap (l n : Nat) : (s.seqTo l n).snap = s.snap := by unfold State.seqTo; rw [State.setFld_snap, State.setSeq_snap]
@[simp] theorem State.seqTo_board (l n : Nat) : (s.seqTo l n).board = s.board := by unfold State.seqTo; rw [State.setFld_board, State.setSeq_board]
@[simp] theorem State.seqTo_tests (l n : Nat) : (s.seqTo l n).tests = s.tests := by unfold State.seqTo; rw [State.setFld_tests, State.setSeq_tests]
@[simp] theorem State.seqTo_freeCount (l n : Nat) : (s.seqTo l n).freeCount = s.freeCount := by unfold State.seqTo; rw [State.setFld_freeCount, State.setSeq_freeCount]
@[simp] theorem State.seqTo_sent (l n : Nat) : (s.seqTo l n).sent = s.sent := by unfold State.seqTo; rw [State.setFld_sent, State.setSeq_sent]

-- advance

@[simp] theorem State.advance_pending (l : ListId) : (s.advance l).pending = s.pending := by unfold State.advance; rw [State.seqTo_pending]
@[simp] theorem State.advance_mem (l : ListId) : (s.advance l).mem = s.mem := by unfold State.advance; rw [State.seqTo_mem]
@[simp] theorem State.advance_tags (l : ListId) : (s.advance l).tags = s.tags := by unfold State.advance; rw [State.seqTo_tags]
@[simp] theorem State.advance_job (l : ListId) : (s.advance l).job = s.job := by unfold State.advance; rw [State.seqTo_job]
@[simp] theorem State.advance_cores (l : ListId) : (s.advance l).cores = s.cores := by unfold State.advance; rw [State.seqTo_cores]
@[simp] theorem State.advance_tick (l : ListId) : (s.advance l).tick = s.tick := by unfold State.advance; rw [State.seqTo_tick]
@[simp] theorem State.advance_time (l : ListId) : (s.advance l).time = s.time := by unfold State.advance; rw [State.seqTo_time]
@[simp] theorem State.advance_streams (l : ListId) : (s.advance l).streams = s.streams := by unfold State.advance; rw [State.seqTo_streams]
@[simp] theorem State.advance_changes (l : ListId) : (s.advance l).changes = s.changes := by unfold State.advance; rw [State.seqTo_changes]
@[simp] theorem State.advance_slow (l : ListId) : (s.advance l).slow = s.slow := by unfold State.advance; rw [State.seqTo_slow]
@[simp] theorem State.advance_ownSlow (l : ListId) : (s.advance l).ownSlow = s.ownSlow := by unfold State.advance; rw [State.seqTo_ownSlow]
@[simp] theorem State.advance_qdefs (l : ListId) : (s.advance l).qdefs = s.qdefs := by unfold State.advance; rw [State.seqTo_qdefs]
@[simp] theorem State.advance_queues (l : ListId) : (s.advance l).queues = s.queues := by unfold State.advance; rw [State.seqTo_queues]
@[simp] theorem State.advance_slots (l : ListId) : (s.advance l).slots = s.slots := by unfold State.advance; rw [State.seqTo_slots]
@[simp] theorem State.advance_memory (l : ListId) : (s.advance l).memory = s.memory := by unfold State.advance; rw [State.seqTo_memory]
@[simp] theorem State.advance_ckpt (l : ListId) : (s.advance l).ckpt = s.ckpt := by unfold State.advance; rw [State.seqTo_ckpt]
@[simp] theorem State.advance_fabric (l : ListId) : (s.advance l).fabric = s.fabric := by unfold State.advance; rw [State.seqTo_fabric]
@[simp] theorem State.advance_host (l : ListId) : (s.advance l).host = s.host := by unfold State.advance; rw [State.seqTo_host]
@[simp] theorem State.advance_power (l : ListId) : (s.advance l).power = s.power := by unfold State.advance; rw [State.seqTo_power]
@[simp] theorem State.advance_mram (l : ListId) : (s.advance l).mram = s.mram := by unfold State.advance; rw [State.seqTo_mram]
@[simp] theorem State.advance_sec (l : ListId) : (s.advance l).sec = s.sec := by unfold State.advance; rw [State.seqTo_sec]
@[simp] theorem State.advance_snap (l : ListId) : (s.advance l).snap = s.snap := by unfold State.advance; rw [State.seqTo_snap]
@[simp] theorem State.advance_board (l : ListId) : (s.advance l).board = s.board := by unfold State.advance; rw [State.seqTo_board]
@[simp] theorem State.advance_tests (l : ListId) : (s.advance l).tests = s.tests := by unfold State.advance; rw [State.seqTo_tests]
@[simp] theorem State.advance_freeCount (l : ListId) : (s.advance l).freeCount = s.freeCount := by unfold State.advance; rw [State.seqTo_freeCount]
@[simp] theorem State.advance_sent (l : ListId) : (s.advance l).sent = s.sent := by unfold State.advance; rw [State.seqTo_sent]

-- holdSeq

@[simp] theorem State.holdSeq_pending (l w j : Nat) : (s.holdSeq l w j).pending = s.pending := by unfold State.holdSeq; rw [State.setSeq_pending]
@[simp] theorem State.holdSeq_mem (l w j : Nat) : (s.holdSeq l w j).mem = s.mem := by unfold State.holdSeq; rw [State.setSeq_mem]
@[simp] theorem State.holdSeq_tags (l w j : Nat) : (s.holdSeq l w j).tags = s.tags := by unfold State.holdSeq; rw [State.setSeq_tags]
@[simp] theorem State.holdSeq_job (l w j : Nat) : (s.holdSeq l w j).job = s.job := by unfold State.holdSeq; rw [State.setSeq_job]
@[simp] theorem State.holdSeq_cores (l w j : Nat) : (s.holdSeq l w j).cores = s.cores := by unfold State.holdSeq; rw [State.setSeq_cores]
@[simp] theorem State.holdSeq_tick (l w j : Nat) : (s.holdSeq l w j).tick = s.tick := by unfold State.holdSeq; rw [State.setSeq_tick]
@[simp] theorem State.holdSeq_time (l w j : Nat) : (s.holdSeq l w j).time = s.time := by unfold State.holdSeq; rw [State.setSeq_time]
@[simp] theorem State.holdSeq_streams (l w j : Nat) : (s.holdSeq l w j).streams = s.streams := by unfold State.holdSeq; rw [State.setSeq_streams]
@[simp] theorem State.holdSeq_changes (l w j : Nat) : (s.holdSeq l w j).changes = s.changes := by unfold State.holdSeq; rw [State.setSeq_changes]
@[simp] theorem State.holdSeq_slow (l w j : Nat) : (s.holdSeq l w j).slow = s.slow := by unfold State.holdSeq; rw [State.setSeq_slow]
@[simp] theorem State.holdSeq_ownSlow (l w j : Nat) : (s.holdSeq l w j).ownSlow = s.ownSlow := by unfold State.holdSeq; rw [State.setSeq_ownSlow]
@[simp] theorem State.holdSeq_qdefs (l w j : Nat) : (s.holdSeq l w j).qdefs = s.qdefs := by unfold State.holdSeq; rw [State.setSeq_qdefs]
@[simp] theorem State.holdSeq_queues (l w j : Nat) : (s.holdSeq l w j).queues = s.queues := by unfold State.holdSeq; rw [State.setSeq_queues]
@[simp] theorem State.holdSeq_slots (l w j : Nat) : (s.holdSeq l w j).slots = s.slots := by unfold State.holdSeq; rw [State.setSeq_slots]
@[simp] theorem State.holdSeq_memory (l w j : Nat) : (s.holdSeq l w j).memory = s.memory := by unfold State.holdSeq; rw [State.setSeq_memory]
@[simp] theorem State.holdSeq_ckpt (l w j : Nat) : (s.holdSeq l w j).ckpt = s.ckpt := by unfold State.holdSeq; rw [State.setSeq_ckpt]
@[simp] theorem State.holdSeq_fabric (l w j : Nat) : (s.holdSeq l w j).fabric = s.fabric := by unfold State.holdSeq; rw [State.setSeq_fabric]
@[simp] theorem State.holdSeq_host (l w j : Nat) : (s.holdSeq l w j).host = s.host := by unfold State.holdSeq; rw [State.setSeq_host]
@[simp] theorem State.holdSeq_power (l w j : Nat) : (s.holdSeq l w j).power = s.power := by unfold State.holdSeq; rw [State.setSeq_power]
@[simp] theorem State.holdSeq_mram (l w j : Nat) : (s.holdSeq l w j).mram = s.mram := by unfold State.holdSeq; rw [State.setSeq_mram]
@[simp] theorem State.holdSeq_sec (l w j : Nat) : (s.holdSeq l w j).sec = s.sec := by unfold State.holdSeq; rw [State.setSeq_sec]
@[simp] theorem State.holdSeq_snap (l w j : Nat) : (s.holdSeq l w j).snap = s.snap := by unfold State.holdSeq; rw [State.setSeq_snap]
@[simp] theorem State.holdSeq_board (l w j : Nat) : (s.holdSeq l w j).board = s.board := by unfold State.holdSeq; rw [State.setSeq_board]
@[simp] theorem State.holdSeq_tests (l w j : Nat) : (s.holdSeq l w j).tests = s.tests := by unfold State.holdSeq; rw [State.setSeq_tests]
@[simp] theorem State.holdSeq_freeCount (l w j : Nat) : (s.holdSeq l w j).freeCount = s.freeCount := by unfold State.holdSeq; rw [State.setSeq_freeCount]
@[simp] theorem State.holdSeq_sent (l w j : Nat) : (s.holdSeq l w j).sent = s.sent := by unfold State.holdSeq; rw [State.setSeq_sent]

-- send

@[simp] theorem State.send_pending (x : Sent) : (s.send x).pending = s.pending := rfl
@[simp] theorem State.send_regs (x : Sent) : (s.send x).regs = s.regs := rfl
@[simp] theorem State.send_mem (x : Sent) : (s.send x).mem = s.mem := rfl
@[simp] theorem State.send_tags (x : Sent) : (s.send x).tags = s.tags := rfl
@[simp] theorem State.send_job (x : Sent) : (s.send x).job = s.job := rfl
@[simp] theorem State.send_cores (x : Sent) : (s.send x).cores = s.cores := rfl
@[simp] theorem State.send_tick (x : Sent) : (s.send x).tick = s.tick := rfl
@[simp] theorem State.send_time (x : Sent) : (s.send x).time = s.time := rfl
@[simp] theorem State.send_streams (x : Sent) : (s.send x).streams = s.streams := rfl
@[simp] theorem State.send_changes (x : Sent) : (s.send x).changes = s.changes := rfl
@[simp] theorem State.send_slow (x : Sent) : (s.send x).slow = s.slow := rfl
@[simp] theorem State.send_ownSlow (x : Sent) : (s.send x).ownSlow = s.ownSlow := rfl
@[simp] theorem State.send_qdefs (x : Sent) : (s.send x).qdefs = s.qdefs := rfl
@[simp] theorem State.send_queues (x : Sent) : (s.send x).queues = s.queues := rfl
@[simp] theorem State.send_slots (x : Sent) : (s.send x).slots = s.slots := rfl
@[simp] theorem State.send_memory (x : Sent) : (s.send x).memory = s.memory := rfl
@[simp] theorem State.send_ckpt (x : Sent) : (s.send x).ckpt = s.ckpt := rfl
@[simp] theorem State.send_fabric (x : Sent) : (s.send x).fabric = s.fabric := rfl
@[simp] theorem State.send_host (x : Sent) : (s.send x).host = s.host := rfl
@[simp] theorem State.send_power (x : Sent) : (s.send x).power = s.power := rfl
@[simp] theorem State.send_mram (x : Sent) : (s.send x).mram = s.mram := rfl
@[simp] theorem State.send_sec (x : Sent) : (s.send x).sec = s.sec := rfl
@[simp] theorem State.send_snap (x : Sent) : (s.send x).snap = s.snap := rfl
@[simp] theorem State.send_board (x : Sent) : (s.send x).board = s.board := rfl
@[simp] theorem State.send_tests (x : Sent) : (s.send x).tests = s.tests := rfl
@[simp] theorem State.send_freeCount (x : Sent) : (s.send x).freeCount = s.freeCount := rfl
@[simp] theorem State.send_sent (x : Sent) : (s.send x).sent = s.sent ++ [x] := rfl

-- setTag

@[simp] theorem State.setTag_pending (t : Nat) (g : Tag) : (s.setTag t g).pending = s.pending := rfl
@[simp] theorem State.setTag_regs (t : Nat) (g : Tag) : (s.setTag t g).regs = s.regs := rfl
@[simp] theorem State.setTag_mem (t : Nat) (g : Tag) : (s.setTag t g).mem = s.mem := rfl
@[simp] theorem State.setTag_tags (t : Nat) (g : Tag) : (s.setTag t g).tags = Tab.set Tag.none t g s.tags := rfl
@[simp] theorem State.setTag_job (t : Nat) (g : Tag) : (s.setTag t g).job = s.job := rfl
@[simp] theorem State.setTag_cores (t : Nat) (g : Tag) : (s.setTag t g).cores = s.cores := rfl
@[simp] theorem State.setTag_tick (t : Nat) (g : Tag) : (s.setTag t g).tick = s.tick := rfl
@[simp] theorem State.setTag_time (t : Nat) (g : Tag) : (s.setTag t g).time = s.time := rfl
@[simp] theorem State.setTag_streams (t : Nat) (g : Tag) : (s.setTag t g).streams = s.streams := rfl
@[simp] theorem State.setTag_changes (t : Nat) (g : Tag) : (s.setTag t g).changes = s.changes := rfl
@[simp] theorem State.setTag_slow (t : Nat) (g : Tag) : (s.setTag t g).slow = s.slow := rfl
@[simp] theorem State.setTag_ownSlow (t : Nat) (g : Tag) : (s.setTag t g).ownSlow = s.ownSlow := rfl
@[simp] theorem State.setTag_qdefs (t : Nat) (g : Tag) : (s.setTag t g).qdefs = s.qdefs := rfl
@[simp] theorem State.setTag_queues (t : Nat) (g : Tag) : (s.setTag t g).queues = s.queues := rfl
@[simp] theorem State.setTag_slots (t : Nat) (g : Tag) : (s.setTag t g).slots = s.slots := rfl
@[simp] theorem State.setTag_memory (t : Nat) (g : Tag) : (s.setTag t g).memory = s.memory := rfl
@[simp] theorem State.setTag_ckpt (t : Nat) (g : Tag) : (s.setTag t g).ckpt = s.ckpt := rfl
@[simp] theorem State.setTag_fabric (t : Nat) (g : Tag) : (s.setTag t g).fabric = s.fabric := rfl
@[simp] theorem State.setTag_host (t : Nat) (g : Tag) : (s.setTag t g).host = s.host := rfl
@[simp] theorem State.setTag_power (t : Nat) (g : Tag) : (s.setTag t g).power = s.power := rfl
@[simp] theorem State.setTag_mram (t : Nat) (g : Tag) : (s.setTag t g).mram = s.mram := rfl
@[simp] theorem State.setTag_sec (t : Nat) (g : Tag) : (s.setTag t g).sec = s.sec := rfl
@[simp] theorem State.setTag_snap (t : Nat) (g : Tag) : (s.setTag t g).snap = s.snap := rfl
@[simp] theorem State.setTag_board (t : Nat) (g : Tag) : (s.setTag t g).board = s.board := rfl
@[simp] theorem State.setTag_tests (t : Nat) (g : Tag) : (s.setTag t g).tests = s.tests := rfl
@[simp] theorem State.setTag_freeCount (t : Nat) (g : Tag) : (s.setTag t g).freeCount = s.freeCount := rfl
@[simp] theorem State.setTag_sent (t : Nat) (g : Tag) : (s.setTag t g).sent = s.sent := rfl

-- onRecord

@[simp] theorem State.onRecord_pending (f : TickRec → TickRec) : (s.onRecord f).pending = s.pending := rfl
@[simp] theorem State.onRecord_regs (f : TickRec → TickRec) : (s.onRecord f).regs = s.regs := rfl
@[simp] theorem State.onRecord_mem (f : TickRec → TickRec) : (s.onRecord f).mem = s.mem := rfl
@[simp] theorem State.onRecord_tags (f : TickRec → TickRec) : (s.onRecord f).tags = s.tags := rfl
@[simp] theorem State.onRecord_job (f : TickRec → TickRec) : (s.onRecord f).job = s.job := rfl
@[simp] theorem State.onRecord_cores (f : TickRec → TickRec) : (s.onRecord f).cores = s.cores := rfl
@[simp] theorem State.onRecord_tick (f : TickRec → TickRec) : (s.onRecord f).tick = { s.tick with record := f s.tick.record } := rfl
@[simp] theorem State.onRecord_time (f : TickRec → TickRec) : (s.onRecord f).time = s.time := rfl
@[simp] theorem State.onRecord_streams (f : TickRec → TickRec) : (s.onRecord f).streams = s.streams := rfl
@[simp] theorem State.onRecord_changes (f : TickRec → TickRec) : (s.onRecord f).changes = s.changes := rfl
@[simp] theorem State.onRecord_slow (f : TickRec → TickRec) : (s.onRecord f).slow = s.slow := rfl
@[simp] theorem State.onRecord_ownSlow (f : TickRec → TickRec) : (s.onRecord f).ownSlow = s.ownSlow := rfl
@[simp] theorem State.onRecord_qdefs (f : TickRec → TickRec) : (s.onRecord f).qdefs = s.qdefs := rfl
@[simp] theorem State.onRecord_queues (f : TickRec → TickRec) : (s.onRecord f).queues = s.queues := rfl
@[simp] theorem State.onRecord_slots (f : TickRec → TickRec) : (s.onRecord f).slots = s.slots := rfl
@[simp] theorem State.onRecord_memory (f : TickRec → TickRec) : (s.onRecord f).memory = s.memory := rfl
@[simp] theorem State.onRecord_ckpt (f : TickRec → TickRec) : (s.onRecord f).ckpt = s.ckpt := rfl
@[simp] theorem State.onRecord_fabric (f : TickRec → TickRec) : (s.onRecord f).fabric = s.fabric := rfl
@[simp] theorem State.onRecord_host (f : TickRec → TickRec) : (s.onRecord f).host = s.host := rfl
@[simp] theorem State.onRecord_power (f : TickRec → TickRec) : (s.onRecord f).power = s.power := rfl
@[simp] theorem State.onRecord_mram (f : TickRec → TickRec) : (s.onRecord f).mram = s.mram := rfl
@[simp] theorem State.onRecord_sec (f : TickRec → TickRec) : (s.onRecord f).sec = s.sec := rfl
@[simp] theorem State.onRecord_snap (f : TickRec → TickRec) : (s.onRecord f).snap = s.snap := rfl
@[simp] theorem State.onRecord_board (f : TickRec → TickRec) : (s.onRecord f).board = s.board := rfl
@[simp] theorem State.onRecord_tests (f : TickRec → TickRec) : (s.onRecord f).tests = s.tests := rfl
@[simp] theorem State.onRecord_freeCount (f : TickRec → TickRec) : (s.onRecord f).freeCount = s.freeCount := rfl
@[simp] theorem State.onRecord_sent (f : TickRec → TickRec) : (s.onRecord f).sent = s.sent := rfl

-- onTick

@[simp] theorem State.onTick_pending (f : TickSt → TickSt) : (s.onTick f).pending = s.pending := rfl
@[simp] theorem State.onTick_regs (f : TickSt → TickSt) : (s.onTick f).regs = s.regs := rfl
@[simp] theorem State.onTick_mem (f : TickSt → TickSt) : (s.onTick f).mem = s.mem := rfl
@[simp] theorem State.onTick_tags (f : TickSt → TickSt) : (s.onTick f).tags = s.tags := rfl
@[simp] theorem State.onTick_job (f : TickSt → TickSt) : (s.onTick f).job = s.job := rfl
@[simp] theorem State.onTick_cores (f : TickSt → TickSt) : (s.onTick f).cores = s.cores := rfl
@[simp] theorem State.onTick_tick (f : TickSt → TickSt) : (s.onTick f).tick = f s.tick := rfl
@[simp] theorem State.onTick_time (f : TickSt → TickSt) : (s.onTick f).time = s.time := rfl
@[simp] theorem State.onTick_streams (f : TickSt → TickSt) : (s.onTick f).streams = s.streams := rfl
@[simp] theorem State.onTick_changes (f : TickSt → TickSt) : (s.onTick f).changes = s.changes := rfl
@[simp] theorem State.onTick_slow (f : TickSt → TickSt) : (s.onTick f).slow = s.slow := rfl
@[simp] theorem State.onTick_ownSlow (f : TickSt → TickSt) : (s.onTick f).ownSlow = s.ownSlow := rfl
@[simp] theorem State.onTick_qdefs (f : TickSt → TickSt) : (s.onTick f).qdefs = s.qdefs := rfl
@[simp] theorem State.onTick_queues (f : TickSt → TickSt) : (s.onTick f).queues = s.queues := rfl
@[simp] theorem State.onTick_slots (f : TickSt → TickSt) : (s.onTick f).slots = s.slots := rfl
@[simp] theorem State.onTick_memory (f : TickSt → TickSt) : (s.onTick f).memory = s.memory := rfl
@[simp] theorem State.onTick_ckpt (f : TickSt → TickSt) : (s.onTick f).ckpt = s.ckpt := rfl
@[simp] theorem State.onTick_fabric (f : TickSt → TickSt) : (s.onTick f).fabric = s.fabric := rfl
@[simp] theorem State.onTick_host (f : TickSt → TickSt) : (s.onTick f).host = s.host := rfl
@[simp] theorem State.onTick_power (f : TickSt → TickSt) : (s.onTick f).power = s.power := rfl
@[simp] theorem State.onTick_mram (f : TickSt → TickSt) : (s.onTick f).mram = s.mram := rfl
@[simp] theorem State.onTick_sec (f : TickSt → TickSt) : (s.onTick f).sec = s.sec := rfl
@[simp] theorem State.onTick_snap (f : TickSt → TickSt) : (s.onTick f).snap = s.snap := rfl
@[simp] theorem State.onTick_board (f : TickSt → TickSt) : (s.onTick f).board = s.board := rfl
@[simp] theorem State.onTick_tests (f : TickSt → TickSt) : (s.onTick f).tests = s.tests := rfl
@[simp] theorem State.onTick_freeCount (f : TickSt → TickSt) : (s.onTick f).freeCount = s.freeCount := rfl
@[simp] theorem State.onTick_sent (f : TickSt → TickSt) : (s.onTick f).sent = s.sent := rfl

-- onCores

@[simp] theorem State.onCores_pending (f : Cores → Cores) : (s.onCores f).pending = s.pending := rfl
@[simp] theorem State.onCores_regs (f : Cores → Cores) : (s.onCores f).regs = s.regs := rfl
@[simp] theorem State.onCores_mem (f : Cores → Cores) : (s.onCores f).mem = s.mem := rfl
@[simp] theorem State.onCores_tags (f : Cores → Cores) : (s.onCores f).tags = s.tags := rfl
@[simp] theorem State.onCores_job (f : Cores → Cores) : (s.onCores f).job = s.job := rfl
@[simp] theorem State.onCores_cores (f : Cores → Cores) : (s.onCores f).cores = f s.cores := rfl
@[simp] theorem State.onCores_tick (f : Cores → Cores) : (s.onCores f).tick = s.tick := rfl
@[simp] theorem State.onCores_time (f : Cores → Cores) : (s.onCores f).time = s.time := rfl
@[simp] theorem State.onCores_streams (f : Cores → Cores) : (s.onCores f).streams = s.streams := rfl
@[simp] theorem State.onCores_changes (f : Cores → Cores) : (s.onCores f).changes = s.changes := rfl
@[simp] theorem State.onCores_slow (f : Cores → Cores) : (s.onCores f).slow = s.slow := rfl
@[simp] theorem State.onCores_ownSlow (f : Cores → Cores) : (s.onCores f).ownSlow = s.ownSlow := rfl
@[simp] theorem State.onCores_qdefs (f : Cores → Cores) : (s.onCores f).qdefs = s.qdefs := rfl
@[simp] theorem State.onCores_queues (f : Cores → Cores) : (s.onCores f).queues = s.queues := rfl
@[simp] theorem State.onCores_slots (f : Cores → Cores) : (s.onCores f).slots = s.slots := rfl
@[simp] theorem State.onCores_memory (f : Cores → Cores) : (s.onCores f).memory = s.memory := rfl
@[simp] theorem State.onCores_ckpt (f : Cores → Cores) : (s.onCores f).ckpt = s.ckpt := rfl
@[simp] theorem State.onCores_fabric (f : Cores → Cores) : (s.onCores f).fabric = s.fabric := rfl
@[simp] theorem State.onCores_host (f : Cores → Cores) : (s.onCores f).host = s.host := rfl
@[simp] theorem State.onCores_power (f : Cores → Cores) : (s.onCores f).power = s.power := rfl
@[simp] theorem State.onCores_mram (f : Cores → Cores) : (s.onCores f).mram = s.mram := rfl
@[simp] theorem State.onCores_sec (f : Cores → Cores) : (s.onCores f).sec = s.sec := rfl
@[simp] theorem State.onCores_snap (f : Cores → Cores) : (s.onCores f).snap = s.snap := rfl
@[simp] theorem State.onCores_board (f : Cores → Cores) : (s.onCores f).board = s.board := rfl
@[simp] theorem State.onCores_tests (f : Cores → Cores) : (s.onCores f).tests = s.tests := rfl
@[simp] theorem State.onCores_freeCount (f : Cores → Cores) : (s.onCores f).freeCount = s.freeCount := rfl
@[simp] theorem State.onCores_sent (f : Cores → Cores) : (s.onCores f).sent = s.sent := rfl

-- onHost

@[simp] theorem State.onHost_pending (f : HostIf → HostIf) : (s.onHost f).pending = s.pending := rfl
@[simp] theorem State.onHost_regs (f : HostIf → HostIf) : (s.onHost f).regs = s.regs := rfl
@[simp] theorem State.onHost_mem (f : HostIf → HostIf) : (s.onHost f).mem = s.mem := rfl
@[simp] theorem State.onHost_tags (f : HostIf → HostIf) : (s.onHost f).tags = s.tags := rfl
@[simp] theorem State.onHost_job (f : HostIf → HostIf) : (s.onHost f).job = s.job := rfl
@[simp] theorem State.onHost_cores (f : HostIf → HostIf) : (s.onHost f).cores = s.cores := rfl
@[simp] theorem State.onHost_tick (f : HostIf → HostIf) : (s.onHost f).tick = s.tick := rfl
@[simp] theorem State.onHost_time (f : HostIf → HostIf) : (s.onHost f).time = s.time := rfl
@[simp] theorem State.onHost_streams (f : HostIf → HostIf) : (s.onHost f).streams = s.streams := rfl
@[simp] theorem State.onHost_changes (f : HostIf → HostIf) : (s.onHost f).changes = s.changes := rfl
@[simp] theorem State.onHost_slow (f : HostIf → HostIf) : (s.onHost f).slow = s.slow := rfl
@[simp] theorem State.onHost_ownSlow (f : HostIf → HostIf) : (s.onHost f).ownSlow = s.ownSlow := rfl
@[simp] theorem State.onHost_qdefs (f : HostIf → HostIf) : (s.onHost f).qdefs = s.qdefs := rfl
@[simp] theorem State.onHost_queues (f : HostIf → HostIf) : (s.onHost f).queues = s.queues := rfl
@[simp] theorem State.onHost_slots (f : HostIf → HostIf) : (s.onHost f).slots = s.slots := rfl
@[simp] theorem State.onHost_memory (f : HostIf → HostIf) : (s.onHost f).memory = s.memory := rfl
@[simp] theorem State.onHost_ckpt (f : HostIf → HostIf) : (s.onHost f).ckpt = s.ckpt := rfl
@[simp] theorem State.onHost_fabric (f : HostIf → HostIf) : (s.onHost f).fabric = s.fabric := rfl
@[simp] theorem State.onHost_host (f : HostIf → HostIf) : (s.onHost f).host = f s.host := rfl
@[simp] theorem State.onHost_power (f : HostIf → HostIf) : (s.onHost f).power = s.power := rfl
@[simp] theorem State.onHost_mram (f : HostIf → HostIf) : (s.onHost f).mram = s.mram := rfl
@[simp] theorem State.onHost_sec (f : HostIf → HostIf) : (s.onHost f).sec = s.sec := rfl
@[simp] theorem State.onHost_snap (f : HostIf → HostIf) : (s.onHost f).snap = s.snap := rfl
@[simp] theorem State.onHost_board (f : HostIf → HostIf) : (s.onHost f).board = s.board := rfl
@[simp] theorem State.onHost_tests (f : HostIf → HostIf) : (s.onHost f).tests = s.tests := rfl
@[simp] theorem State.onHost_freeCount (f : HostIf → HostIf) : (s.onHost f).freeCount = s.freeCount := rfl
@[simp] theorem State.onHost_sent (f : HostIf → HostIf) : (s.onHost f).sent = s.sent := rfl

-- onFabric

@[simp] theorem State.onFabric_pending (f : Fabric → Fabric) : (s.onFabric f).pending = s.pending := rfl
@[simp] theorem State.onFabric_regs (f : Fabric → Fabric) : (s.onFabric f).regs = s.regs := rfl
@[simp] theorem State.onFabric_mem (f : Fabric → Fabric) : (s.onFabric f).mem = s.mem := rfl
@[simp] theorem State.onFabric_tags (f : Fabric → Fabric) : (s.onFabric f).tags = s.tags := rfl
@[simp] theorem State.onFabric_job (f : Fabric → Fabric) : (s.onFabric f).job = s.job := rfl
@[simp] theorem State.onFabric_cores (f : Fabric → Fabric) : (s.onFabric f).cores = s.cores := rfl
@[simp] theorem State.onFabric_tick (f : Fabric → Fabric) : (s.onFabric f).tick = s.tick := rfl
@[simp] theorem State.onFabric_time (f : Fabric → Fabric) : (s.onFabric f).time = s.time := rfl
@[simp] theorem State.onFabric_streams (f : Fabric → Fabric) : (s.onFabric f).streams = s.streams := rfl
@[simp] theorem State.onFabric_changes (f : Fabric → Fabric) : (s.onFabric f).changes = s.changes := rfl
@[simp] theorem State.onFabric_slow (f : Fabric → Fabric) : (s.onFabric f).slow = s.slow := rfl
@[simp] theorem State.onFabric_ownSlow (f : Fabric → Fabric) : (s.onFabric f).ownSlow = s.ownSlow := rfl
@[simp] theorem State.onFabric_qdefs (f : Fabric → Fabric) : (s.onFabric f).qdefs = s.qdefs := rfl
@[simp] theorem State.onFabric_queues (f : Fabric → Fabric) : (s.onFabric f).queues = s.queues := rfl
@[simp] theorem State.onFabric_slots (f : Fabric → Fabric) : (s.onFabric f).slots = s.slots := rfl
@[simp] theorem State.onFabric_memory (f : Fabric → Fabric) : (s.onFabric f).memory = s.memory := rfl
@[simp] theorem State.onFabric_ckpt (f : Fabric → Fabric) : (s.onFabric f).ckpt = s.ckpt := rfl
@[simp] theorem State.onFabric_fabric (f : Fabric → Fabric) : (s.onFabric f).fabric = f s.fabric := rfl
@[simp] theorem State.onFabric_host (f : Fabric → Fabric) : (s.onFabric f).host = s.host := rfl
@[simp] theorem State.onFabric_power (f : Fabric → Fabric) : (s.onFabric f).power = s.power := rfl
@[simp] theorem State.onFabric_mram (f : Fabric → Fabric) : (s.onFabric f).mram = s.mram := rfl
@[simp] theorem State.onFabric_sec (f : Fabric → Fabric) : (s.onFabric f).sec = s.sec := rfl
@[simp] theorem State.onFabric_snap (f : Fabric → Fabric) : (s.onFabric f).snap = s.snap := rfl
@[simp] theorem State.onFabric_board (f : Fabric → Fabric) : (s.onFabric f).board = s.board := rfl
@[simp] theorem State.onFabric_tests (f : Fabric → Fabric) : (s.onFabric f).tests = s.tests := rfl
@[simp] theorem State.onFabric_freeCount (f : Fabric → Fabric) : (s.onFabric f).freeCount = s.freeCount := rfl
@[simp] theorem State.onFabric_sent (f : Fabric → Fabric) : (s.onFabric f).sent = s.sent := rfl

-- onMemory

@[simp] theorem State.onMemory_pending (f : Memory → Memory) : (s.onMemory f).pending = s.pending := rfl
@[simp] theorem State.onMemory_regs (f : Memory → Memory) : (s.onMemory f).regs = s.regs := rfl
@[simp] theorem State.onMemory_mem (f : Memory → Memory) : (s.onMemory f).mem = s.mem := rfl
@[simp] theorem State.onMemory_tags (f : Memory → Memory) : (s.onMemory f).tags = s.tags := rfl
@[simp] theorem State.onMemory_job (f : Memory → Memory) : (s.onMemory f).job = s.job := rfl
@[simp] theorem State.onMemory_cores (f : Memory → Memory) : (s.onMemory f).cores = s.cores := rfl
@[simp] theorem State.onMemory_tick (f : Memory → Memory) : (s.onMemory f).tick = s.tick := rfl
@[simp] theorem State.onMemory_time (f : Memory → Memory) : (s.onMemory f).time = s.time := rfl
@[simp] theorem State.onMemory_streams (f : Memory → Memory) : (s.onMemory f).streams = s.streams := rfl
@[simp] theorem State.onMemory_changes (f : Memory → Memory) : (s.onMemory f).changes = s.changes := rfl
@[simp] theorem State.onMemory_slow (f : Memory → Memory) : (s.onMemory f).slow = s.slow := rfl
@[simp] theorem State.onMemory_ownSlow (f : Memory → Memory) : (s.onMemory f).ownSlow = s.ownSlow := rfl
@[simp] theorem State.onMemory_qdefs (f : Memory → Memory) : (s.onMemory f).qdefs = s.qdefs := rfl
@[simp] theorem State.onMemory_queues (f : Memory → Memory) : (s.onMemory f).queues = s.queues := rfl
@[simp] theorem State.onMemory_slots (f : Memory → Memory) : (s.onMemory f).slots = s.slots := rfl
@[simp] theorem State.onMemory_memory (f : Memory → Memory) : (s.onMemory f).memory = f s.memory := rfl
@[simp] theorem State.onMemory_ckpt (f : Memory → Memory) : (s.onMemory f).ckpt = s.ckpt := rfl
@[simp] theorem State.onMemory_fabric (f : Memory → Memory) : (s.onMemory f).fabric = s.fabric := rfl
@[simp] theorem State.onMemory_host (f : Memory → Memory) : (s.onMemory f).host = s.host := rfl
@[simp] theorem State.onMemory_power (f : Memory → Memory) : (s.onMemory f).power = s.power := rfl
@[simp] theorem State.onMemory_mram (f : Memory → Memory) : (s.onMemory f).mram = s.mram := rfl
@[simp] theorem State.onMemory_sec (f : Memory → Memory) : (s.onMemory f).sec = s.sec := rfl
@[simp] theorem State.onMemory_snap (f : Memory → Memory) : (s.onMemory f).snap = s.snap := rfl
@[simp] theorem State.onMemory_board (f : Memory → Memory) : (s.onMemory f).board = s.board := rfl
@[simp] theorem State.onMemory_tests (f : Memory → Memory) : (s.onMemory f).tests = s.tests := rfl
@[simp] theorem State.onMemory_freeCount (f : Memory → Memory) : (s.onMemory f).freeCount = s.freeCount := rfl
@[simp] theorem State.onMemory_sent (f : Memory → Memory) : (s.onMemory f).sent = s.sent := rfl

-- onCkpt

@[simp] theorem State.onCkpt_pending (f : Ckpt → Ckpt) : (s.onCkpt f).pending = s.pending := rfl
@[simp] theorem State.onCkpt_regs (f : Ckpt → Ckpt) : (s.onCkpt f).regs = s.regs := rfl
@[simp] theorem State.onCkpt_mem (f : Ckpt → Ckpt) : (s.onCkpt f).mem = s.mem := rfl
@[simp] theorem State.onCkpt_tags (f : Ckpt → Ckpt) : (s.onCkpt f).tags = s.tags := rfl
@[simp] theorem State.onCkpt_job (f : Ckpt → Ckpt) : (s.onCkpt f).job = s.job := rfl
@[simp] theorem State.onCkpt_cores (f : Ckpt → Ckpt) : (s.onCkpt f).cores = s.cores := rfl
@[simp] theorem State.onCkpt_tick (f : Ckpt → Ckpt) : (s.onCkpt f).tick = s.tick := rfl
@[simp] theorem State.onCkpt_time (f : Ckpt → Ckpt) : (s.onCkpt f).time = s.time := rfl
@[simp] theorem State.onCkpt_streams (f : Ckpt → Ckpt) : (s.onCkpt f).streams = s.streams := rfl
@[simp] theorem State.onCkpt_changes (f : Ckpt → Ckpt) : (s.onCkpt f).changes = s.changes := rfl
@[simp] theorem State.onCkpt_slow (f : Ckpt → Ckpt) : (s.onCkpt f).slow = s.slow := rfl
@[simp] theorem State.onCkpt_ownSlow (f : Ckpt → Ckpt) : (s.onCkpt f).ownSlow = s.ownSlow := rfl
@[simp] theorem State.onCkpt_qdefs (f : Ckpt → Ckpt) : (s.onCkpt f).qdefs = s.qdefs := rfl
@[simp] theorem State.onCkpt_queues (f : Ckpt → Ckpt) : (s.onCkpt f).queues = s.queues := rfl
@[simp] theorem State.onCkpt_slots (f : Ckpt → Ckpt) : (s.onCkpt f).slots = s.slots := rfl
@[simp] theorem State.onCkpt_memory (f : Ckpt → Ckpt) : (s.onCkpt f).memory = s.memory := rfl
@[simp] theorem State.onCkpt_ckpt (f : Ckpt → Ckpt) : (s.onCkpt f).ckpt = f s.ckpt := rfl
@[simp] theorem State.onCkpt_fabric (f : Ckpt → Ckpt) : (s.onCkpt f).fabric = s.fabric := rfl
@[simp] theorem State.onCkpt_host (f : Ckpt → Ckpt) : (s.onCkpt f).host = s.host := rfl
@[simp] theorem State.onCkpt_power (f : Ckpt → Ckpt) : (s.onCkpt f).power = s.power := rfl
@[simp] theorem State.onCkpt_mram (f : Ckpt → Ckpt) : (s.onCkpt f).mram = s.mram := rfl
@[simp] theorem State.onCkpt_sec (f : Ckpt → Ckpt) : (s.onCkpt f).sec = s.sec := rfl
@[simp] theorem State.onCkpt_snap (f : Ckpt → Ckpt) : (s.onCkpt f).snap = s.snap := rfl
@[simp] theorem State.onCkpt_board (f : Ckpt → Ckpt) : (s.onCkpt f).board = s.board := rfl
@[simp] theorem State.onCkpt_tests (f : Ckpt → Ckpt) : (s.onCkpt f).tests = s.tests := rfl
@[simp] theorem State.onCkpt_freeCount (f : Ckpt → Ckpt) : (s.onCkpt f).freeCount = s.freeCount := rfl
@[simp] theorem State.onCkpt_sent (f : Ckpt → Ckpt) : (s.onCkpt f).sent = s.sent := rfl

-- onPower

@[simp] theorem State.onPower_pending (f : Power → Power) : (s.onPower f).pending = s.pending := rfl
@[simp] theorem State.onPower_regs (f : Power → Power) : (s.onPower f).regs = s.regs := rfl
@[simp] theorem State.onPower_mem (f : Power → Power) : (s.onPower f).mem = s.mem := rfl
@[simp] theorem State.onPower_tags (f : Power → Power) : (s.onPower f).tags = s.tags := rfl
@[simp] theorem State.onPower_job (f : Power → Power) : (s.onPower f).job = s.job := rfl
@[simp] theorem State.onPower_cores (f : Power → Power) : (s.onPower f).cores = s.cores := rfl
@[simp] theorem State.onPower_tick (f : Power → Power) : (s.onPower f).tick = s.tick := rfl
@[simp] theorem State.onPower_time (f : Power → Power) : (s.onPower f).time = s.time := rfl
@[simp] theorem State.onPower_streams (f : Power → Power) : (s.onPower f).streams = s.streams := rfl
@[simp] theorem State.onPower_changes (f : Power → Power) : (s.onPower f).changes = s.changes := rfl
@[simp] theorem State.onPower_slow (f : Power → Power) : (s.onPower f).slow = s.slow := rfl
@[simp] theorem State.onPower_ownSlow (f : Power → Power) : (s.onPower f).ownSlow = s.ownSlow := rfl
@[simp] theorem State.onPower_qdefs (f : Power → Power) : (s.onPower f).qdefs = s.qdefs := rfl
@[simp] theorem State.onPower_queues (f : Power → Power) : (s.onPower f).queues = s.queues := rfl
@[simp] theorem State.onPower_slots (f : Power → Power) : (s.onPower f).slots = s.slots := rfl
@[simp] theorem State.onPower_memory (f : Power → Power) : (s.onPower f).memory = s.memory := rfl
@[simp] theorem State.onPower_ckpt (f : Power → Power) : (s.onPower f).ckpt = s.ckpt := rfl
@[simp] theorem State.onPower_fabric (f : Power → Power) : (s.onPower f).fabric = s.fabric := rfl
@[simp] theorem State.onPower_host (f : Power → Power) : (s.onPower f).host = s.host := rfl
@[simp] theorem State.onPower_power (f : Power → Power) : (s.onPower f).power = f s.power := rfl
@[simp] theorem State.onPower_mram (f : Power → Power) : (s.onPower f).mram = s.mram := rfl
@[simp] theorem State.onPower_sec (f : Power → Power) : (s.onPower f).sec = s.sec := rfl
@[simp] theorem State.onPower_snap (f : Power → Power) : (s.onPower f).snap = s.snap := rfl
@[simp] theorem State.onPower_board (f : Power → Power) : (s.onPower f).board = s.board := rfl
@[simp] theorem State.onPower_tests (f : Power → Power) : (s.onPower f).tests = s.tests := rfl
@[simp] theorem State.onPower_freeCount (f : Power → Power) : (s.onPower f).freeCount = s.freeCount := rfl
@[simp] theorem State.onPower_sent (f : Power → Power) : (s.onPower f).sent = s.sent := rfl

-- onTests

@[simp] theorem State.onTests_pending (f : Tests → Tests) : (s.onTests f).pending = s.pending := rfl
@[simp] theorem State.onTests_regs (f : Tests → Tests) : (s.onTests f).regs = s.regs := rfl
@[simp] theorem State.onTests_mem (f : Tests → Tests) : (s.onTests f).mem = s.mem := rfl
@[simp] theorem State.onTests_tags (f : Tests → Tests) : (s.onTests f).tags = s.tags := rfl
@[simp] theorem State.onTests_job (f : Tests → Tests) : (s.onTests f).job = s.job := rfl
@[simp] theorem State.onTests_cores (f : Tests → Tests) : (s.onTests f).cores = s.cores := rfl
@[simp] theorem State.onTests_tick (f : Tests → Tests) : (s.onTests f).tick = s.tick := rfl
@[simp] theorem State.onTests_time (f : Tests → Tests) : (s.onTests f).time = s.time := rfl
@[simp] theorem State.onTests_streams (f : Tests → Tests) : (s.onTests f).streams = s.streams := rfl
@[simp] theorem State.onTests_changes (f : Tests → Tests) : (s.onTests f).changes = s.changes := rfl
@[simp] theorem State.onTests_slow (f : Tests → Tests) : (s.onTests f).slow = s.slow := rfl
@[simp] theorem State.onTests_ownSlow (f : Tests → Tests) : (s.onTests f).ownSlow = s.ownSlow := rfl
@[simp] theorem State.onTests_qdefs (f : Tests → Tests) : (s.onTests f).qdefs = s.qdefs := rfl
@[simp] theorem State.onTests_queues (f : Tests → Tests) : (s.onTests f).queues = s.queues := rfl
@[simp] theorem State.onTests_slots (f : Tests → Tests) : (s.onTests f).slots = s.slots := rfl
@[simp] theorem State.onTests_memory (f : Tests → Tests) : (s.onTests f).memory = s.memory := rfl
@[simp] theorem State.onTests_ckpt (f : Tests → Tests) : (s.onTests f).ckpt = s.ckpt := rfl
@[simp] theorem State.onTests_fabric (f : Tests → Tests) : (s.onTests f).fabric = s.fabric := rfl
@[simp] theorem State.onTests_host (f : Tests → Tests) : (s.onTests f).host = s.host := rfl
@[simp] theorem State.onTests_power (f : Tests → Tests) : (s.onTests f).power = s.power := rfl
@[simp] theorem State.onTests_mram (f : Tests → Tests) : (s.onTests f).mram = s.mram := rfl
@[simp] theorem State.onTests_sec (f : Tests → Tests) : (s.onTests f).sec = s.sec := rfl
@[simp] theorem State.onTests_snap (f : Tests → Tests) : (s.onTests f).snap = s.snap := rfl
@[simp] theorem State.onTests_board (f : Tests → Tests) : (s.onTests f).board = s.board := rfl
@[simp] theorem State.onTests_tests (f : Tests → Tests) : (s.onTests f).tests = f s.tests := rfl
@[simp] theorem State.onTests_freeCount (f : Tests → Tests) : (s.onTests f).freeCount = s.freeCount := rfl
@[simp] theorem State.onTests_sent (f : Tests → Tests) : (s.onTests f).sent = s.sent := rfl

-- onBoard

@[simp] theorem State.onBoard_pending (f : Board → Board) : (s.onBoard f).pending = s.pending := rfl
@[simp] theorem State.onBoard_regs (f : Board → Board) : (s.onBoard f).regs = s.regs := rfl
@[simp] theorem State.onBoard_mem (f : Board → Board) : (s.onBoard f).mem = s.mem := rfl
@[simp] theorem State.onBoard_tags (f : Board → Board) : (s.onBoard f).tags = s.tags := rfl
@[simp] theorem State.onBoard_job (f : Board → Board) : (s.onBoard f).job = s.job := rfl
@[simp] theorem State.onBoard_cores (f : Board → Board) : (s.onBoard f).cores = s.cores := rfl
@[simp] theorem State.onBoard_tick (f : Board → Board) : (s.onBoard f).tick = s.tick := rfl
@[simp] theorem State.onBoard_time (f : Board → Board) : (s.onBoard f).time = s.time := rfl
@[simp] theorem State.onBoard_streams (f : Board → Board) : (s.onBoard f).streams = s.streams := rfl
@[simp] theorem State.onBoard_changes (f : Board → Board) : (s.onBoard f).changes = s.changes := rfl
@[simp] theorem State.onBoard_slow (f : Board → Board) : (s.onBoard f).slow = s.slow := rfl
@[simp] theorem State.onBoard_ownSlow (f : Board → Board) : (s.onBoard f).ownSlow = s.ownSlow := rfl
@[simp] theorem State.onBoard_qdefs (f : Board → Board) : (s.onBoard f).qdefs = s.qdefs := rfl
@[simp] theorem State.onBoard_queues (f : Board → Board) : (s.onBoard f).queues = s.queues := rfl
@[simp] theorem State.onBoard_slots (f : Board → Board) : (s.onBoard f).slots = s.slots := rfl
@[simp] theorem State.onBoard_memory (f : Board → Board) : (s.onBoard f).memory = s.memory := rfl
@[simp] theorem State.onBoard_ckpt (f : Board → Board) : (s.onBoard f).ckpt = s.ckpt := rfl
@[simp] theorem State.onBoard_fabric (f : Board → Board) : (s.onBoard f).fabric = s.fabric := rfl
@[simp] theorem State.onBoard_host (f : Board → Board) : (s.onBoard f).host = s.host := rfl
@[simp] theorem State.onBoard_power (f : Board → Board) : (s.onBoard f).power = s.power := rfl
@[simp] theorem State.onBoard_mram (f : Board → Board) : (s.onBoard f).mram = s.mram := rfl
@[simp] theorem State.onBoard_sec (f : Board → Board) : (s.onBoard f).sec = s.sec := rfl
@[simp] theorem State.onBoard_snap (f : Board → Board) : (s.onBoard f).snap = s.snap := rfl
@[simp] theorem State.onBoard_board (f : Board → Board) : (s.onBoard f).board = f s.board := rfl
@[simp] theorem State.onBoard_tests (f : Board → Board) : (s.onBoard f).tests = s.tests := rfl
@[simp] theorem State.onBoard_freeCount (f : Board → Board) : (s.onBoard f).freeCount = s.freeCount := rfl
@[simp] theorem State.onBoard_sent (f : Board → Board) : (s.onBoard f).sent = s.sent := rfl

-- onMram

@[simp] theorem State.onMram_pending (f : Mram → Mram) : (s.onMram f).pending = s.pending := rfl
@[simp] theorem State.onMram_regs (f : Mram → Mram) : (s.onMram f).regs = s.regs := rfl
@[simp] theorem State.onMram_mem (f : Mram → Mram) : (s.onMram f).mem = s.mem := rfl
@[simp] theorem State.onMram_tags (f : Mram → Mram) : (s.onMram f).tags = s.tags := rfl
@[simp] theorem State.onMram_job (f : Mram → Mram) : (s.onMram f).job = s.job := rfl
@[simp] theorem State.onMram_cores (f : Mram → Mram) : (s.onMram f).cores = s.cores := rfl
@[simp] theorem State.onMram_tick (f : Mram → Mram) : (s.onMram f).tick = s.tick := rfl
@[simp] theorem State.onMram_time (f : Mram → Mram) : (s.onMram f).time = s.time := rfl
@[simp] theorem State.onMram_streams (f : Mram → Mram) : (s.onMram f).streams = s.streams := rfl
@[simp] theorem State.onMram_changes (f : Mram → Mram) : (s.onMram f).changes = s.changes := rfl
@[simp] theorem State.onMram_slow (f : Mram → Mram) : (s.onMram f).slow = s.slow := rfl
@[simp] theorem State.onMram_ownSlow (f : Mram → Mram) : (s.onMram f).ownSlow = s.ownSlow := rfl
@[simp] theorem State.onMram_qdefs (f : Mram → Mram) : (s.onMram f).qdefs = s.qdefs := rfl
@[simp] theorem State.onMram_queues (f : Mram → Mram) : (s.onMram f).queues = s.queues := rfl
@[simp] theorem State.onMram_slots (f : Mram → Mram) : (s.onMram f).slots = s.slots := rfl
@[simp] theorem State.onMram_memory (f : Mram → Mram) : (s.onMram f).memory = s.memory := rfl
@[simp] theorem State.onMram_ckpt (f : Mram → Mram) : (s.onMram f).ckpt = s.ckpt := rfl
@[simp] theorem State.onMram_fabric (f : Mram → Mram) : (s.onMram f).fabric = s.fabric := rfl
@[simp] theorem State.onMram_host (f : Mram → Mram) : (s.onMram f).host = s.host := rfl
@[simp] theorem State.onMram_power (f : Mram → Mram) : (s.onMram f).power = s.power := rfl
@[simp] theorem State.onMram_mram (f : Mram → Mram) : (s.onMram f).mram = f s.mram := rfl
@[simp] theorem State.onMram_sec (f : Mram → Mram) : (s.onMram f).sec = s.sec := rfl
@[simp] theorem State.onMram_snap (f : Mram → Mram) : (s.onMram f).snap = s.snap := rfl
@[simp] theorem State.onMram_board (f : Mram → Mram) : (s.onMram f).board = s.board := rfl
@[simp] theorem State.onMram_tests (f : Mram → Mram) : (s.onMram f).tests = s.tests := rfl
@[simp] theorem State.onMram_freeCount (f : Mram → Mram) : (s.onMram f).freeCount = s.freeCount := rfl
@[simp] theorem State.onMram_sent (f : Mram → Mram) : (s.onMram f).sent = s.sent := rfl

-- pushOp

@[simp] theorem State.pushOp_pending (o : InFlight) : (s.pushOp o).pending = s.pending := rfl
@[simp] theorem State.pushOp_regs (o : InFlight) : (s.pushOp o).regs = s.regs := rfl
@[simp] theorem State.pushOp_mem (o : InFlight) : (s.pushOp o).mem = s.mem := rfl
@[simp] theorem State.pushOp_tags (o : InFlight) : (s.pushOp o).tags = s.tags := rfl
@[simp] theorem State.pushOp_job (o : InFlight) : (s.pushOp o).job = s.job := rfl
@[simp] theorem State.pushOp_cores (o : InFlight) : (s.pushOp o).cores = { s.cores with inflight := s.cores.inflight ++ [o], nextId := o.id + 1 } := rfl
@[simp] theorem State.pushOp_tick (o : InFlight) : (s.pushOp o).tick = s.tick := rfl
@[simp] theorem State.pushOp_time (o : InFlight) : (s.pushOp o).time = s.time := rfl
@[simp] theorem State.pushOp_streams (o : InFlight) : (s.pushOp o).streams = s.streams := rfl
@[simp] theorem State.pushOp_changes (o : InFlight) : (s.pushOp o).changes = s.changes := rfl
@[simp] theorem State.pushOp_slow (o : InFlight) : (s.pushOp o).slow = s.slow := rfl
@[simp] theorem State.pushOp_ownSlow (o : InFlight) : (s.pushOp o).ownSlow = s.ownSlow := rfl
@[simp] theorem State.pushOp_qdefs (o : InFlight) : (s.pushOp o).qdefs = s.qdefs := rfl
@[simp] theorem State.pushOp_queues (o : InFlight) : (s.pushOp o).queues = s.queues := rfl
@[simp] theorem State.pushOp_slots (o : InFlight) : (s.pushOp o).slots = s.slots := rfl
@[simp] theorem State.pushOp_memory (o : InFlight) : (s.pushOp o).memory = s.memory := rfl
@[simp] theorem State.pushOp_ckpt (o : InFlight) : (s.pushOp o).ckpt = s.ckpt := rfl
@[simp] theorem State.pushOp_fabric (o : InFlight) : (s.pushOp o).fabric = s.fabric := rfl
@[simp] theorem State.pushOp_host (o : InFlight) : (s.pushOp o).host = s.host := rfl
@[simp] theorem State.pushOp_power (o : InFlight) : (s.pushOp o).power = s.power := rfl
@[simp] theorem State.pushOp_mram (o : InFlight) : (s.pushOp o).mram = s.mram := rfl
@[simp] theorem State.pushOp_sec (o : InFlight) : (s.pushOp o).sec = s.sec := rfl
@[simp] theorem State.pushOp_snap (o : InFlight) : (s.pushOp o).snap = s.snap := rfl
@[simp] theorem State.pushOp_board (o : InFlight) : (s.pushOp o).board = s.board := rfl
@[simp] theorem State.pushOp_tests (o : InFlight) : (s.pushOp o).tests = s.tests := rfl
@[simp] theorem State.pushOp_freeCount (o : InFlight) : (s.pushOp o).freeCount = s.freeCount := rfl
@[simp] theorem State.pushOp_sent (o : InFlight) : (s.pushOp o).sent = s.sent := rfl

-- setOp

@[simp] theorem State.setOp_pending (o : InFlight) : (s.setOp o).pending = s.pending := rfl
@[simp] theorem State.setOp_regs (o : InFlight) : (s.setOp o).regs = s.regs := rfl
@[simp] theorem State.setOp_mem (o : InFlight) : (s.setOp o).mem = s.mem := rfl
@[simp] theorem State.setOp_tags (o : InFlight) : (s.setOp o).tags = s.tags := rfl
@[simp] theorem State.setOp_job (o : InFlight) : (s.setOp o).job = s.job := rfl
@[simp] theorem State.setOp_cores (o : InFlight) : (s.setOp o).cores = { s.cores with inflight := s.cores.inflight.map (fun p => if p.id = o.id then o else p) } := rfl
@[simp] theorem State.setOp_tick (o : InFlight) : (s.setOp o).tick = s.tick := rfl
@[simp] theorem State.setOp_time (o : InFlight) : (s.setOp o).time = s.time := rfl
@[simp] theorem State.setOp_streams (o : InFlight) : (s.setOp o).streams = s.streams := rfl
@[simp] theorem State.setOp_changes (o : InFlight) : (s.setOp o).changes = s.changes := rfl
@[simp] theorem State.setOp_slow (o : InFlight) : (s.setOp o).slow = s.slow := rfl
@[simp] theorem State.setOp_ownSlow (o : InFlight) : (s.setOp o).ownSlow = s.ownSlow := rfl
@[simp] theorem State.setOp_qdefs (o : InFlight) : (s.setOp o).qdefs = s.qdefs := rfl
@[simp] theorem State.setOp_queues (o : InFlight) : (s.setOp o).queues = s.queues := rfl
@[simp] theorem State.setOp_slots (o : InFlight) : (s.setOp o).slots = s.slots := rfl
@[simp] theorem State.setOp_memory (o : InFlight) : (s.setOp o).memory = s.memory := rfl
@[simp] theorem State.setOp_ckpt (o : InFlight) : (s.setOp o).ckpt = s.ckpt := rfl
@[simp] theorem State.setOp_fabric (o : InFlight) : (s.setOp o).fabric = s.fabric := rfl
@[simp] theorem State.setOp_host (o : InFlight) : (s.setOp o).host = s.host := rfl
@[simp] theorem State.setOp_power (o : InFlight) : (s.setOp o).power = s.power := rfl
@[simp] theorem State.setOp_mram (o : InFlight) : (s.setOp o).mram = s.mram := rfl
@[simp] theorem State.setOp_sec (o : InFlight) : (s.setOp o).sec = s.sec := rfl
@[simp] theorem State.setOp_snap (o : InFlight) : (s.setOp o).snap = s.snap := rfl
@[simp] theorem State.setOp_board (o : InFlight) : (s.setOp o).board = s.board := rfl
@[simp] theorem State.setOp_tests (o : InFlight) : (s.setOp o).tests = s.tests := rfl
@[simp] theorem State.setOp_freeCount (o : InFlight) : (s.setOp o).freeCount = s.freeCount := rfl
@[simp] theorem State.setOp_sent (o : InFlight) : (s.setOp o).sent = s.sent := rfl

-- dropOp

@[simp] theorem State.dropOp_pending (id : Nat) : (s.dropOp id).pending = s.pending := rfl
@[simp] theorem State.dropOp_regs (id : Nat) : (s.dropOp id).regs = s.regs := rfl
@[simp] theorem State.dropOp_mem (id : Nat) : (s.dropOp id).mem = s.mem := rfl
@[simp] theorem State.dropOp_tags (id : Nat) : (s.dropOp id).tags = s.tags := rfl
@[simp] theorem State.dropOp_job (id : Nat) : (s.dropOp id).job = s.job := rfl
@[simp] theorem State.dropOp_cores (id : Nat) : (s.dropOp id).cores = { s.cores with inflight := s.cores.inflight.filter (fun p => p.id ≠ id) } := rfl
@[simp] theorem State.dropOp_tick (id : Nat) : (s.dropOp id).tick = s.tick := rfl
@[simp] theorem State.dropOp_time (id : Nat) : (s.dropOp id).time = s.time := rfl
@[simp] theorem State.dropOp_streams (id : Nat) : (s.dropOp id).streams = s.streams := rfl
@[simp] theorem State.dropOp_changes (id : Nat) : (s.dropOp id).changes = s.changes := rfl
@[simp] theorem State.dropOp_slow (id : Nat) : (s.dropOp id).slow = s.slow := rfl
@[simp] theorem State.dropOp_ownSlow (id : Nat) : (s.dropOp id).ownSlow = s.ownSlow := rfl
@[simp] theorem State.dropOp_qdefs (id : Nat) : (s.dropOp id).qdefs = s.qdefs := rfl
@[simp] theorem State.dropOp_queues (id : Nat) : (s.dropOp id).queues = s.queues := rfl
@[simp] theorem State.dropOp_slots (id : Nat) : (s.dropOp id).slots = s.slots := rfl
@[simp] theorem State.dropOp_memory (id : Nat) : (s.dropOp id).memory = { s.memory with begun := s.memory.begun.filter (fun e => e.1 ≠ id), spoiled := s.memory.spoiled.filter (fun e => e.1 ≠ id) } := rfl
@[simp] theorem State.dropOp_ckpt (id : Nat) : (s.dropOp id).ckpt = s.ckpt := rfl
@[simp] theorem State.dropOp_fabric (id : Nat) : (s.dropOp id).fabric = s.fabric := rfl
@[simp] theorem State.dropOp_host (id : Nat) : (s.dropOp id).host = s.host := rfl
@[simp] theorem State.dropOp_power (id : Nat) : (s.dropOp id).power = s.power := rfl
@[simp] theorem State.dropOp_mram (id : Nat) : (s.dropOp id).mram = s.mram := rfl
@[simp] theorem State.dropOp_sec (id : Nat) : (s.dropOp id).sec = s.sec := rfl
@[simp] theorem State.dropOp_snap (id : Nat) : (s.dropOp id).snap = s.snap := rfl
@[simp] theorem State.dropOp_board (id : Nat) : (s.dropOp id).board = s.board := rfl
@[simp] theorem State.dropOp_tests (id : Nat) : (s.dropOp id).tests = s.tests := rfl
@[simp] theorem State.dropOp_freeCount (id : Nat) : (s.dropOp id).freeCount = s.freeCount := rfl
@[simp] theorem State.dropOp_sent (id : Nat) : (s.dropOp id).sent = s.sent := rfl

-- setQueue

@[simp] theorem State.setQueue_pending (q : Nat) (x : Queue) : (s.setQueue q x).pending = s.pending := rfl
@[simp] theorem State.setQueue_regs (q : Nat) (x : Queue) : (s.setQueue q x).regs = s.regs := rfl
@[simp] theorem State.setQueue_mem (q : Nat) (x : Queue) : (s.setQueue q x).mem = s.mem := rfl
@[simp] theorem State.setQueue_tags (q : Nat) (x : Queue) : (s.setQueue q x).tags = s.tags := rfl
@[simp] theorem State.setQueue_job (q : Nat) (x : Queue) : (s.setQueue q x).job = s.job := rfl
@[simp] theorem State.setQueue_cores (q : Nat) (x : Queue) : (s.setQueue q x).cores = s.cores := rfl
@[simp] theorem State.setQueue_tick (q : Nat) (x : Queue) : (s.setQueue q x).tick = s.tick := rfl
@[simp] theorem State.setQueue_time (q : Nat) (x : Queue) : (s.setQueue q x).time = s.time := rfl
@[simp] theorem State.setQueue_streams (q : Nat) (x : Queue) : (s.setQueue q x).streams = s.streams := rfl
@[simp] theorem State.setQueue_changes (q : Nat) (x : Queue) : (s.setQueue q x).changes = s.changes := rfl
@[simp] theorem State.setQueue_slow (q : Nat) (x : Queue) : (s.setQueue q x).slow = s.slow := rfl
@[simp] theorem State.setQueue_ownSlow (q : Nat) (x : Queue) : (s.setQueue q x).ownSlow = s.ownSlow := rfl
@[simp] theorem State.setQueue_qdefs (q : Nat) (x : Queue) : (s.setQueue q x).qdefs = s.qdefs := rfl
@[simp] theorem State.setQueue_queues (q : Nat) (x : Queue) : (s.setQueue q x).queues = Tab.put q x s.queues := rfl
@[simp] theorem State.setQueue_slots (q : Nat) (x : Queue) : (s.setQueue q x).slots = s.slots := rfl
@[simp] theorem State.setQueue_memory (q : Nat) (x : Queue) : (s.setQueue q x).memory = s.memory := rfl
@[simp] theorem State.setQueue_ckpt (q : Nat) (x : Queue) : (s.setQueue q x).ckpt = s.ckpt := rfl
@[simp] theorem State.setQueue_fabric (q : Nat) (x : Queue) : (s.setQueue q x).fabric = s.fabric := rfl
@[simp] theorem State.setQueue_host (q : Nat) (x : Queue) : (s.setQueue q x).host = s.host := rfl
@[simp] theorem State.setQueue_power (q : Nat) (x : Queue) : (s.setQueue q x).power = s.power := rfl
@[simp] theorem State.setQueue_mram (q : Nat) (x : Queue) : (s.setQueue q x).mram = s.mram := rfl
@[simp] theorem State.setQueue_sec (q : Nat) (x : Queue) : (s.setQueue q x).sec = s.sec := rfl
@[simp] theorem State.setQueue_snap (q : Nat) (x : Queue) : (s.setQueue q x).snap = s.snap := rfl
@[simp] theorem State.setQueue_board (q : Nat) (x : Queue) : (s.setQueue q x).board = s.board := rfl
@[simp] theorem State.setQueue_tests (q : Nat) (x : Queue) : (s.setQueue q x).tests = s.tests := rfl
@[simp] theorem State.setQueue_freeCount (q : Nat) (x : Queue) : (s.setQueue q x).freeCount = s.freeCount := rfl
@[simp] theorem State.setQueue_sent (q : Nat) (x : Queue) : (s.setQueue q x).sent = s.sent := rfl

-- setPort

@[simp] theorem State.setPort_pending (p : Nat) (x : Port) : (s.setPort p x).pending = s.pending := rfl
@[simp] theorem State.setPort_regs (p : Nat) (x : Port) : (s.setPort p x).regs = s.regs := rfl
@[simp] theorem State.setPort_mem (p : Nat) (x : Port) : (s.setPort p x).mem = s.mem := rfl
@[simp] theorem State.setPort_tags (p : Nat) (x : Port) : (s.setPort p x).tags = s.tags := rfl
@[simp] theorem State.setPort_job (p : Nat) (x : Port) : (s.setPort p x).job = s.job := rfl
@[simp] theorem State.setPort_cores (p : Nat) (x : Port) : (s.setPort p x).cores = s.cores := rfl
@[simp] theorem State.setPort_tick (p : Nat) (x : Port) : (s.setPort p x).tick = s.tick := rfl
@[simp] theorem State.setPort_time (p : Nat) (x : Port) : (s.setPort p x).time = s.time := rfl
@[simp] theorem State.setPort_streams (p : Nat) (x : Port) : (s.setPort p x).streams = s.streams := rfl
@[simp] theorem State.setPort_changes (p : Nat) (x : Port) : (s.setPort p x).changes = s.changes := rfl
@[simp] theorem State.setPort_slow (p : Nat) (x : Port) : (s.setPort p x).slow = s.slow := rfl
@[simp] theorem State.setPort_ownSlow (p : Nat) (x : Port) : (s.setPort p x).ownSlow = s.ownSlow := rfl
@[simp] theorem State.setPort_qdefs (p : Nat) (x : Port) : (s.setPort p x).qdefs = s.qdefs := rfl
@[simp] theorem State.setPort_queues (p : Nat) (x : Port) : (s.setPort p x).queues = s.queues := rfl
@[simp] theorem State.setPort_slots (p : Nat) (x : Port) : (s.setPort p x).slots = s.slots := rfl
@[simp] theorem State.setPort_memory (p : Nat) (x : Port) : (s.setPort p x).memory = s.memory := rfl
@[simp] theorem State.setPort_ckpt (p : Nat) (x : Port) : (s.setPort p x).ckpt = s.ckpt := rfl
@[simp] theorem State.setPort_fabric (p : Nat) (x : Port) : (s.setPort p x).fabric = { s.fabric with ports := Tab.set Port.zero p x s.fabric.ports } := rfl
@[simp] theorem State.setPort_host (p : Nat) (x : Port) : (s.setPort p x).host = s.host := rfl
@[simp] theorem State.setPort_power (p : Nat) (x : Port) : (s.setPort p x).power = s.power := rfl
@[simp] theorem State.setPort_mram (p : Nat) (x : Port) : (s.setPort p x).mram = s.mram := rfl
@[simp] theorem State.setPort_sec (p : Nat) (x : Port) : (s.setPort p x).sec = s.sec := rfl
@[simp] theorem State.setPort_snap (p : Nat) (x : Port) : (s.setPort p x).snap = s.snap := rfl
@[simp] theorem State.setPort_board (p : Nat) (x : Port) : (s.setPort p x).board = s.board := rfl
@[simp] theorem State.setPort_tests (p : Nat) (x : Port) : (s.setPort p x).tests = s.tests := rfl
@[simp] theorem State.setPort_freeCount (p : Nat) (x : Port) : (s.setPort p x).freeCount = s.freeCount := rfl
@[simp] theorem State.setPort_sent (p : Nat) (x : Port) : (s.setPort p x).sent = s.sent := rfl

-- setLaunch

@[simp] theorem State.setLaunch_pending (id : Nat) (l : Launch) : (s.setLaunch id l).pending = s.pending := rfl
@[simp] theorem State.setLaunch_regs (id : Nat) (l : Launch) : (s.setLaunch id l).regs = s.regs := rfl
@[simp] theorem State.setLaunch_mem (id : Nat) (l : Launch) : (s.setLaunch id l).mem = s.mem := rfl
@[simp] theorem State.setLaunch_tags (id : Nat) (l : Launch) : (s.setLaunch id l).tags = s.tags := rfl
@[simp] theorem State.setLaunch_job (id : Nat) (l : Launch) : (s.setLaunch id l).job = s.job := rfl
@[simp] theorem State.setLaunch_cores (id : Nat) (l : Launch) : (s.setLaunch id l).cores = s.cores := rfl
@[simp] theorem State.setLaunch_tick (id : Nat) (l : Launch) : (s.setLaunch id l).tick = s.tick := rfl
@[simp] theorem State.setLaunch_time (id : Nat) (l : Launch) : (s.setLaunch id l).time = s.time := rfl
@[simp] theorem State.setLaunch_streams (id : Nat) (l : Launch) : (s.setLaunch id l).streams = s.streams := rfl
@[simp] theorem State.setLaunch_changes (id : Nat) (l : Launch) : (s.setLaunch id l).changes = s.changes := rfl
@[simp] theorem State.setLaunch_slow (id : Nat) (l : Launch) : (s.setLaunch id l).slow = s.slow := rfl
@[simp] theorem State.setLaunch_ownSlow (id : Nat) (l : Launch) : (s.setLaunch id l).ownSlow = s.ownSlow := rfl
@[simp] theorem State.setLaunch_qdefs (id : Nat) (l : Launch) : (s.setLaunch id l).qdefs = s.qdefs := rfl
@[simp] theorem State.setLaunch_queues (id : Nat) (l : Launch) : (s.setLaunch id l).queues = s.queues := rfl
@[simp] theorem State.setLaunch_slots (id : Nat) (l : Launch) : (s.setLaunch id l).slots = s.slots := rfl
@[simp] theorem State.setLaunch_memory (id : Nat) (l : Launch) : (s.setLaunch id l).memory = s.memory := rfl
@[simp] theorem State.setLaunch_ckpt (id : Nat) (l : Launch) : (s.setLaunch id l).ckpt = s.ckpt := rfl
@[simp] theorem State.setLaunch_fabric (id : Nat) (l : Launch) : (s.setLaunch id l).fabric = { s.fabric with launches := Tab.put id l s.fabric.launches } := rfl
@[simp] theorem State.setLaunch_host (id : Nat) (l : Launch) : (s.setLaunch id l).host = s.host := rfl
@[simp] theorem State.setLaunch_power (id : Nat) (l : Launch) : (s.setLaunch id l).power = s.power := rfl
@[simp] theorem State.setLaunch_mram (id : Nat) (l : Launch) : (s.setLaunch id l).mram = s.mram := rfl
@[simp] theorem State.setLaunch_sec (id : Nat) (l : Launch) : (s.setLaunch id l).sec = s.sec := rfl
@[simp] theorem State.setLaunch_snap (id : Nat) (l : Launch) : (s.setLaunch id l).snap = s.snap := rfl
@[simp] theorem State.setLaunch_board (id : Nat) (l : Launch) : (s.setLaunch id l).board = s.board := rfl
@[simp] theorem State.setLaunch_tests (id : Nat) (l : Launch) : (s.setLaunch id l).tests = s.tests := rfl
@[simp] theorem State.setLaunch_freeCount (id : Nat) (l : Launch) : (s.setLaunch id l).freeCount = s.freeCount := rfl
@[simp] theorem State.setLaunch_sent (id : Nat) (l : Launch) : (s.setLaunch id l).sent = s.sent := rfl

end Sys2Proof.Machine
end

