-- ==== Sys2Proof/Laws/Tab.lean ====
section
/-! SUPPORT. What reading and writing a table by number do, and that every write keeps the canonical form. -/
namespace Sys2Proof.Machine

variable {α : Type}

theorem Tab.find?_del_same (t : Tab α) (k : Nat) : Tab.find? (Tab.del k t) k = none := by
  induction t with
  | nil => rfl
  | cons e r ih =>
    obtain ⟨a, v⟩ := e
    by_cases h : a = k <;> simp [Tab.del, Tab.find?, h, ih]

theorem Tab.find?_del_other (t : Tab α) {j k : Nat} (hjk : j ≠ k) : Tab.find? (Tab.del k t) j = Tab.find? t j := by
  induction t with
  | nil => rfl
  | cons e r ih =>
    obtain ⟨a, v⟩ := e
    by_cases h : a = k
    · subst h; simp [Tab.del, Tab.find?, ih, Ne.symm hjk]
    · simp [Tab.del, Tab.find?, h, ih]

theorem Tab.find?_insert_same (t : Tab α) (k : Nat) (v : α) (h : Tab.find? t k = none) :
    Tab.find? (Tab.insert k v t) k = some v := by
  induction t with
  | nil => simp [Tab.insert, Tab.find?]
  | cons e r ih =>
    obtain ⟨a, w⟩ := e
    have ha : a ≠ k := by rintro rfl; simp [Tab.find?] at h
    have hr : Tab.find? r k = none := by simpa [Tab.find?, ha] using h
    by_cases hlt : k < a <;> simp [Tab.insert, Tab.find?, hlt, ha, ih hr]

theorem Tab.find?_insert_other (t : Tab α) {j k : Nat} (v : α) (hjk : j ≠ k) :
    Tab.find? (Tab.insert k v t) j = Tab.find? t j := by
  induction t with
  | nil => simp [Tab.insert, Tab.find?, Ne.symm hjk]
  | cons e r ih =>
    obtain ⟨a, w⟩ := e
    by_cases hlt : k < a <;> simp [Tab.insert, Tab.find?, hlt, ih, Ne.symm hjk]

@[simp] theorem Tab.find?_put_same (t : Tab α) (k : Nat) (v : α) : Tab.find? (Tab.put k v t) k = some v :=
  Tab.find?_insert_same _ k v (Tab.find?_del_same t k)

theorem Tab.find?_put_other (t : Tab α) {j k : Nat} (v : α) (hjk : j ≠ k) :
    Tab.find? (Tab.put k v t) j = Tab.find? t j := by
  rw [Tab.put, Tab.find?_insert_other _ v hjk, Tab.find?_del_other _ hjk]

@[simp] theorem Tab.get_put_same (d : α) (t : Tab α) (k : Nat) (v : α) : Tab.get d (Tab.put k v t) k = v := by
  simp [Tab.get]

theorem Tab.get_put_other (d : α) (t : Tab α) {j k : Nat} (v : α) (hjk : j ≠ k) :
    Tab.get d (Tab.put k v t) j = Tab.get d t j := by
  simp [Tab.get, Tab.find?_put_other t v hjk]

theorem Tab.get_del_other (d : α) (t : Tab α) {j k : Nat} (hjk : j ≠ k) :
    Tab.get d (Tab.del k t) j = Tab.get d t j := by
  simp [Tab.get, Tab.find?_del_other t hjk]

@[simp] theorem Tab.get_set_same [DecidableEq α] (d : α) (t : Tab α) (k : Nat) (v : α) :
    Tab.get d (Tab.set d k v t) k = v := by
  by_cases h : v = d <;> simp [Tab.set, h, Tab.get, Tab.find?_del_same]

theorem Tab.get_set_other [DecidableEq α] (d : α) (t : Tab α) {j k : Nat} (v : α) (hjk : j ≠ k) :
    Tab.get d (Tab.set d k v t) j = Tab.get d t j := by
  by_cases h : v = d <;> simp [Tab.set, h, Tab.get, Tab.find?_del_other t hjk, Tab.find?_put_other t v hjk]

/-- What a written table reads, everywhere. -/
theorem Tab.get_set [DecidableEq α] (d : α) (t : Tab α) (j k : Nat) (v : α) :
    Tab.get d (Tab.set d k v t) j = if j = k then v else Tab.get d t j := by
  split
  · rename_i h; subst h; simp
  · rename_i h; exact Tab.get_set_other d t v h

-- the canonical form

/-- Numbers strictly rising above `lo` are rising above anything smaller. -/
theorem Tab.rising_mono {t : Tab α} {lo lo' : Option Nat} (h : Tab.rising lo t = true)
    (hlo : ∀ b', lo' = some b' → ∃ b, lo = some b ∧ b' ≤ b) : Tab.rising lo' t = true := by
  cases t with
  | nil => rfl
  | cons e r =>
    obtain ⟨a, v⟩ := e
    cases lo' with
    | none => simp [Tab.rising] at h ⊢; exact h.2
    | some b' =>
      obtain ⟨b, rfl, hb⟩ := hlo b' rfl
      simp [Tab.rising] at h ⊢
      exact ⟨by omega, h.2⟩

theorem Tab.rising_none {t : Tab α} {lo : Option Nat} (h : Tab.rising lo t = true) : Tab.rising none t = true :=
  Tab.rising_mono h (by simp)

theorem Tab.rising_del (k : Nat) : ∀ (t : Tab α) (lo : Option Nat), Tab.rising lo t = true → Tab.rising lo (Tab.del k t) = true
  | [], _, _ => rfl
  | (a, v) :: r, lo, h => by
    simp [Tab.rising] at h
    by_cases hk : a = k
    · simp only [Tab.del, hk, if_true]
      refine Tab.rising_del k r lo (Tab.rising_mono h.2 ?_)
      rintro b' rfl
      exact ⟨a, rfl, by have := h.1; simp at this; omega⟩
    · simp [Tab.del, hk, Tab.rising, h.1, Tab.rising_del k r (some a) h.2]

theorem Tab.rising_insert (k : Nat) (w : α) : ∀ (t : Tab α) (lo : Option Nat), Tab.rising lo t = true →
    (∀ b, lo = some b → b < k) → Tab.find? t k = none → Tab.rising lo (Tab.insert k w t) = true
  | [], lo, _, hk, _ => by
    cases lo with
    | none => rfl
    | some b => simp [Tab.insert, Tab.rising, hk b rfl]
  | (a, v) :: r, lo, h, hk, hf => by
    simp [Tab.rising] at h
    have hne : a ≠ k := by rintro rfl; simp [Tab.find?] at hf
    by_cases hlt : k < a
    · cases lo with
      | none => simp [Tab.insert, hlt, Tab.rising, h.2]
      | some b => simp [Tab.insert, hlt, Tab.rising, h.2, hk b rfl]
    · have hr : Tab.find? r k = none := by simpa [Tab.find?, hne] using hf
      have := Tab.rising_insert k w r (some a) h.2 (by rintro b ⟨⟩; omega) hr
      simp [Tab.insert, hlt, Tab.rising, h.1, this]

theorem Tab.all_del (p : Nat × α → Bool) (k : Nat) : ∀ t : Tab α, t.all p = true → (Tab.del k t).all p = true
  | [], _ => rfl
  | (a, v) :: r, h => by
    simp only [List.all_cons, Bool.and_eq_true] at h
    by_cases hk : a = k <;> simp only [Tab.del, hk, if_true, if_false, List.all_cons, Bool.and_eq_true]
    · exact Tab.all_del p k r h.2
    · exact ⟨h.1, Tab.all_del p k r h.2⟩

theorem Tab.all_insert (p : Nat × α → Bool) (k : Nat) (w : α) (hw : p (k, w) = true) :
    ∀ t : Tab α, t.all p = true → (Tab.insert k w t).all p = true
  | [], _ => by simp [Tab.insert, hw]
  | (a, v) :: r, h => by
    simp only [List.all_cons, Bool.and_eq_true] at h
    by_cases hk : k < a <;> simp only [Tab.insert, hk, if_true, if_false, List.all_cons, Bool.and_eq_true]
    · exact ⟨hw, h⟩
    · exact ⟨h.1, Tab.all_insert p k w hw r h.2⟩

/-- Writing an entry keeps the canonical form. -/
theorem Tab.wf_set [DecidableEq α] (d : α) (k : Nat) (v : α) (t : Tab α) (h : Tab.wf d t = true) :
    Tab.wf d (Tab.set d k v t) = true := by
  simp only [Tab.wf, Bool.and_eq_true] at h ⊢
  by_cases hv : v = d
  · simp only [Tab.set, hv, if_true]
    exact ⟨Tab.rising_del k t none h.1, Tab.all_del _ k t h.2⟩
  · simp only [Tab.set, hv, if_false, Tab.put]
    exact ⟨Tab.rising_insert k v _ none (Tab.rising_del k t none h.1) (by simp) (Tab.find?_del_same t k),
      Tab.all_insert _ k v (by simp [hv]) _ (Tab.all_del _ k t h.2)⟩

theorem Tab.rising_filter (p : Nat × α → Bool) : ∀ (t : Tab α) (lo : Option Nat), Tab.rising lo t = true →
    Tab.rising lo (t.filter p) = true
  | [], _, _ => rfl
  | (a, v) :: r, lo, h => by
    simp [Tab.rising] at h
    by_cases hp : p (a, v) = true
    · simp [List.filter, hp, Tab.rising, h.1, Tab.rising_filter p r (some a) h.2]
    · simp only [List.filter, hp]
      refine Tab.rising_filter p r lo (Tab.rising_mono h.2 ?_)
      rintro b' rfl
      exact ⟨a, rfl, by have := h.1; simp at this; omega⟩

/-- Dropping entries keeps the canonical form. -/
theorem Tab.wf_filter [DecidableEq α] (d : α) (p : Nat × α → Bool) (t : Tab α) (h : Tab.wf d t = true) :
    Tab.wf d (t.filter p) = true := by
  simp only [Tab.wf, Bool.and_eq_true] at h ⊢
  refine ⟨Tab.rising_filter p t none h.1, ?_⟩
  simp only [List.all_eq_true] at h ⊢
  exact fun e he => h.2 e (List.mem_filter.mp he).1

/-- Writing entries one after another keeps the canonical form. -/
theorem Tab.wf_foldl_set [DecidableEq α] (d : α) (es : Tab α) : ∀ (t : Tab α), Tab.wf d t = true →
    Tab.wf d (es.foldl (fun m c => Tab.set d c.1 c.2 m) t) = true := by
  induction es with
  | nil => intro t h; exact h
  | cons e r ih => intro t h; exact ih _ (Tab.wf_set d e.1 e.2 t h)

@[simp] theorem Tab.wf_nil [DecidableEq α] (d : α) : Tab.wf d ([] : Tab α) = true := rfl

end Sys2Proof.Machine
end

