-- ==== Sys2Proof/Laws/Memory.lean ====
section
/-! SUPPORT. What reading and writing memory do, and that every operation on memory keeps its canonical form. -/
namespace Sys2Proof.Machine

/-- The byte at `b` after the bytes `bs` have been written from `a` on. -/
theorem Mem.byte_write (bs : List Byte) : ∀ (m : List Host.Cell) (a b : Nat), Mem.byte (Mem.write m a bs) b =
    if a ≤ b ∧ b < a + bs.length then bs.getD (b - a) 0 else Mem.byte m b := by
  induction bs with
  | nil => intro m a b; rw [if_neg (by simp only [List.length_nil]; omega)]; rfl
  | cons x r ih =>
    intro m a b
    rw [Mem.write, ih]
    by_cases h1 : b = a
    · subst h1
      have h2 : ¬ (b + 1 ≤ b ∧ b < b + 1 + r.length) := by omega
      have h3 : b ≤ b ∧ b < b + (x :: r).length := by simp
      simp [h2, Mem.byte]
    · have h4 : Mem.byte (Tab.set 0 a x m) b = Mem.byte m b := Tab.get_set_other 0 m x h1
      rw [h4]
      by_cases h5 : a + 1 ≤ b ∧ b < a + 1 + r.length
      · have h6 : a ≤ b ∧ b < a + (x :: r).length := by simp; omega
        obtain ⟨j, hj⟩ : ∃ j, b - a = j + 1 := ⟨b - a - 1, by omega⟩
        have hj' : b - (a + 1) = j := by omega
        simp only [h5, h6, and_self, if_true, hj, hj', List.getD_cons_succ]
      · have h6 : ¬ (a ≤ b ∧ b < a + (x :: r).length) := by simp; omega
        simp only [h5, h6, if_false]

/-- Every other place is left alone. -/
theorem Mem.byte_write_other (bs : List Byte) (m : List Host.Cell) (a b : Nat) (h : b < a ∨ a + bs.length ≤ b) :
    Mem.byte (Mem.write m a bs) b = Mem.byte m b := by
  rw [Mem.byte_write, if_neg (by omega)]

theorem Mem.read_eq (n : Nat) : ∀ (m : List Host.Cell) (a : Nat), Mem.read m a n = (List.range n).map (fun i => Mem.byte m (a + i)) := by
  induction n with
  | zero => intro m a; rfl
  | succ n ih =>
    intro m a
    rw [Mem.read, ih, List.range_succ_eq_map]
    simp [Nat.add_assoc, Nat.add_comm 1]

@[simp] theorem Mem.read_length (m : List Host.Cell) (a n : Nat) : (Mem.read m a n).length = n := by
  simp [Mem.read_eq]

/-- A read of what has just been written. -/
theorem Mem.read_write_same (bs : List Byte) (m : List Host.Cell) (a : Nat) : Mem.read (Mem.write m a bs) a bs.length = bs := by
  apply List.ext_getElem
  · simp
  · intro i h1 h2
    have hi : i < bs.length := h2
    simp [Mem.read_eq, Mem.byte_write, hi]

theorem Mem.wf_write (bs : List Byte) : ∀ (m : List Host.Cell) (a : Nat), Memory.wf m = true → Memory.wf (Mem.write m a bs) = true := by
  induction bs with
  | nil => intro m a h; exact h
  | cons x r ih => intro m a h; exact ih _ _ (Tab.wf_set 0 a x m h)

theorem Reg.wf_write (k : Nat) (v : Word64) (t : Tab Word64) (h : Reg.wf t = true) : Reg.wf (Reg.write t k v) = true := by
  simp only [Reg.wf, Bool.and_eq_true] at h ⊢
  by_cases hv : v = Reg.resetValue k
  · simp only [Reg.write, hv, if_true]
    exact ⟨Tab.rising_del k t none h.1, Tab.all_del _ k t h.2⟩
  · simp only [Reg.write, hv, if_false, Tab.put]
    exact ⟨Tab.rising_insert k v _ none (Tab.rising_del k t none h.1) (by simp) (Tab.find?_del_same t k),
      Tab.all_insert _ k v (by simp [hv]) _ (Tab.all_del _ k t h.2)⟩

theorem Reg.wf_filter (p : Nat × Word64 → Bool) (t : Tab Word64) (h : Reg.wf t = true) : Reg.wf (t.filter p) = true := by
  simp only [Reg.wf, Bool.and_eq_true] at h ⊢
  refine ⟨Tab.rising_filter p t none h.1, ?_⟩
  simp only [List.all_eq_true] at h ⊢
  exact fun e he => h.2 e (List.mem_filter.mp he).1

end Sys2Proof.Machine
end

