-- ==== Sys2Proof/Laws/Kept.lean ====
section
/-! SUPPORT. What every operation keeps, whatever it does: the queue of commands, the canonical form of memory, tags and
registers, the bound of the fault log, and the MRAM counters, which never fall (R439). One lemma for each function from state to
state, in the order of the model's files; this file has the predicate and what the lemmas are put together from. -/
namespace Sys2Proof.Machine
variable {P : List Instr} {C : Nat → Nat}

section
/-- The queue is `P`, the state is well formed, and counter k of the MRAM is at least `C k`. -/
@[irreducible] def State.kept (s : State) (P : List Instr) (C : Nat → Nat) : Prop := s.pending = P ∧ s.wf = true ∧ ∀ k, C k ≤ s.counter k
unseal State.kept

/-- The same of the five fields it speaks of. -/
@[irreducible] def Kept (P : List Instr) (C : Nat → Nat) (q : List Instr) (regs : Tab Word64) (m : List Host.Cell) (tg : Tab Tag) (mram : Mram) : Prop :=
  q = P ∧ (Memory.wf m && Tab.wf Tag.none tg && Reg.wf regs && decide (mram.faultLog.length ≤ 4096)) = true ∧
    ∀ k, C k ≤ (Tab.get 0 mram.counters k).toNat
unseal Kept

theorem kept_mk {q regs m tg job cores tick time streams changes slow ownSlow qdefs queues slots memory ckpt fabric host power mram
    sec snap board tests fc sent} :
    (State.mk q regs m tg job cores tick time streams changes slow ownSlow qdefs queues slots memory ckpt fabric host power mram
      sec snap board tests fc sent).kept P C = Kept P C q regs m tg mram := propext ⟨fun h => h, fun h => h⟩

theorem Kept.same {t : State} (h : t.kept P C) : Kept P C t.pending t.regs t.mem t.tags t.mram := h

/-- Each of the five fields may change as it is allowed to. -/
theorem Kept.parts {t : State} {regs : Tab Word64} {m : List Host.Cell} {tg : Tab Tag} {mram : Mram} (h : t.kept P C)
    (hr : Reg.wf t.regs = true → Reg.wf regs = true) (hm : Memory.wf t.mem = true → Memory.wf m = true)
    (ht : Tab.wf Tag.none t.tags = true → Tab.wf Tag.none tg = true)
    (hl : t.mram.faultLog.length ≤ 4096 → mram.faultLog.length ≤ 4096)
    (hc : ∀ k, (Tab.get 0 t.mram.counters k).toNat ≤ (Tab.get 0 mram.counters k).toNat) : Kept P C t.pending regs m tg mram := by
  obtain ⟨h1, h2, h3⟩ := h
  simp only [State.wf, Bool.and_eq_true, decide_eq_true_eq] at h2
  refine ⟨h1, ?_, fun k => Nat.le_trans (h3 k) (hc k)⟩
  simp only [Bool.and_eq_true, decide_eq_true_eq]
  exact ⟨⟨⟨hm h2.1.1.1, ht h2.1.1.2⟩, hr h2.1.2⟩, hl h2.2⟩

theorem Kept.mram {t : State} {m : Mram} (h : t.kept P C) (hl : m.faultLog = t.mram.faultLog) (hc : m.counters = t.mram.counters) :
    Kept P C t.pending t.regs t.mem t.tags m :=
  Kept.parts h id id id (by rw [hl]; exact id) (fun k => Nat.le_of_eq (by rw [hc]))
theorem Kept.filter {t : State} (f : Host.Cell → Bool) (g : Nat × Tag → Bool) (h : t.kept P C) :
    Kept P C t.pending t.regs (t.mem.filter f) (t.tags.filter g) t.mram :=
  Kept.parts h id (Tab.wf_filter _ _ _) (Tab.wf_filter _ _ _) id (fun _ => Nat.le_refl _)
theorem Kept.filterTags {t : State} (g : Nat × Tag → Bool) (h : t.kept P C) :
    Kept P C t.pending t.regs t.mem (t.tags.filter g) t.mram :=
  Kept.parts h id id (Tab.wf_filter _ _ _) id (fun _ => Nat.le_refl _)
theorem Kept.filterRegs {t : State} (g : Nat × Word64 → Bool) (h : t.kept P C) :
    Kept P C t.pending (t.regs.filter g) t.mem t.tags t.mram :=
  Kept.parts h (Reg.wf_filter _ _) id id id (fun _ => Nat.le_refl _)
theorem Kept.empty {t : State} (h : t.kept P C) : Kept P C t.pending t.regs [] [] t.mram :=
  Kept.parts h id (fun _ => rfl) (fun _ => rfl) id (fun _ => Nat.le_refl _)

/-- An answer keeps it where its next state does. -/
@[irreducible] def Result.kept (P : List Instr) (C : Nat → Nat) (r : Result) : Prop := ∀ t, r = .next t → t.kept P C
unseal Result.kept

/-- What an answer keeps, its next state keeps. -/
theorem Result.kept.at {r : Result} {t : State} (h : Result.kept P C r) (e : r = .next t) : t.kept P C := h t e

theorem kept_next {s : State} (h : s.kept P C) : Result.kept P C (.next s) := by
  intro t ht; cases ht; exact h
theorem kept_fault {f : Fault} : Result.kept P C (.fault f) := by
  intro t ht; cases ht
theorem kept_ifUnit {ok : Bool} {s : State} (h : s.kept P C) : Result.kept P C (ifUnit ok s) := by
  unfold ifUnit; split
  · exact kept_next h
  · exact kept_fault
theorem kept_ite_result {c : Prop} [Decidable c] {a b : Result} (ha : c → Result.kept P C a) (hb : ¬c → Result.kept P C b) :
    Result.kept P C (if c then a else b) := by
  split <;> simp_all

theorem State.restoreImage_kept {s : State} (g : Nat) (im : Image) (h : s.kept P C) : (s.restoreImage g im).kept P C :=
  Kept.parts (t := s) h id (fun h => Tab.wf_foldl_set _ _ _ (Tab.wf_filter _ _ _ h))
    (fun h => Tab.wf_foldl_set _ _ _ (Tab.wf_filter _ _ _ h)) id (fun _ => Nat.le_refl _)
theorem State.setTag_kept {s : State} (k : Nat) (g : Tag) (h : s.kept P C) : (s.setTag k g).kept P C :=
  Kept.parts (t := s) h id id (Tab.wf_set _ _ _ _) id (fun _ => Nat.le_refl _)
theorem State.setReg_kept {s : State} (k : Nat) (v : Word64) (h : s.kept P C) : (s.setReg k v).kept P C :=
  Kept.parts (t := s) h (Reg.wf_write _ _ _) id id id (fun _ => Nat.le_refl _)
theorem State.store_kept {s : State} (o : Origin) (a : Nat) (bs : List Byte) (tag : Option Tag) (h : s.kept P C) : (s.store o a bs tag).kept P C := by
  unfold State.store
  exact State.setTag_kept _ _ (by
    rw [kept_mk]
    exact Kept.parts h id (Mem.wf_write _ _ _) id id (fun _ => Nat.le_refl _))
theorem Mram.raise_counter (m : Mram) (i v k : Nat) : (Tab.get 0 m.counters k).toNat ≤ (Tab.get 0 (m.raise i v).counters k).toNat := by
  unfold Mram.raise
  split
  · rename_i h
    by_cases hk : k = i
    · subst hk
      simp only [Tab.get_set_same, BitVec.toNat_ofNat, Nat.mod_eq_of_lt h.2]
      exact Nat.le_of_lt h.1
    · simp only [Tab.get_set_other _ _ _ hk]
      exact Nat.le_refl _
  · exact Nat.le_refl _
theorem Mram.raise_faultLog (m : Mram) (i v : Nat) : (m.raise i v).faultLog = m.faultLog := by
  unfold Mram.raise; split <;> rfl
theorem State.onMram_kept {s : State} {f : Mram → Mram} (hl : (f s.mram).faultLog = s.mram.faultLog)
    (hc : ∀ k, (Tab.get 0 s.mram.counters k).toNat ≤ (Tab.get 0 (f s.mram).counters k).toNat) (h : s.kept P C) : (s.onMram f).kept P C :=
  Kept.parts (t := s) h id id id (by rw [State.onMram_mram, hl]; exact id) hc
/-- What `kept` says of a state. -/
theorem State.kept_iff {s : State} : s.kept P C ↔ s.pending = P ∧ s.wf = true ∧ ∀ k, C k ≤ s.counter k := Iff.rfl
end

theorem kept_ite {c : Prop} [Decidable c] {a b : State} (ha : c → a.kept P C) (hb : ¬c → b.kept P C) : (if c then a else b).kept P C := by
  split <;> simp_all
theorem kept_ite_fst {α : Type} {c : Prop} [Decidable c] {a b : State × α} (ha : c → a.1.kept P C) (hb : ¬c → b.1.kept P C) :
    (if c then a else b).1.kept P C := by
  split <;> simp_all
theorem kept_ite_snd {α : Type} {c : Prop} [Decidable c] {a b : α × State} (ha : c → a.2.kept P C) (hb : ¬c → b.2.kept P C) :
    (if c then a else b).2.kept P C := by
  split <;> simp_all
theorem kept_foldl {α : Type} {f : State → α → State} {s : State} {l : List α} (hf : ∀ t x, t.kept P C → (f t x).kept P C)
    (h : s.kept P C) : (l.foldl f s).kept P C := by
  induction l generalizing s with
  | nil => exact h
  | cons x r ih => exact ih (hf s x h)
theorem kept_foldl_fst {α β : Type} {f : State × β → α → State × β} {s : State × β} {l : List α}
    (hf : ∀ t x, t.1.kept P C → (f t x).1.kept P C) (h : s.1.kept P C) : (l.foldl f s).1.kept P C := by
  induction l generalizing s with
  | nil => exact h
  | cons x r ih => exact ih (hf s x h)
theorem kept_foldl_snd {α β : Type} {f : β × State → α → β × State} {s : β × State} {l : List α}
    (hf : ∀ t x, t.2.kept P C → (f t x).2.kept P C) (h : s.2.kept P C) : (l.foldl f s).2.kept P C := by
  induction l generalizing s with
  | nil => exact h
  | cons x r ih => exact ih (hf s x h)
theorem kept_fst {α : Type} {x : State × α} {s : State} {a : α} (e : x = (s, a)) (h : x.1.kept P C) : s.kept P C := by subst e; exact h
theorem kept_snd {α : Type} {x : α × State} {s : State} {a : α} (e : x = (a, s)) (h : x.2.kept P C) : s.kept P C := by subst e; exact h

end Sys2Proof.Machine
end

