-- ==== Sys2Proof/Laws/KeptMemory.lean ====
section
/-! SUPPORT. What the register file, the routes, the write path, the sequencer and the units of a core keep (Laws/Kept.lean). -/
namespace Sys2Proof.Machine

variable {P : List Instr} {C : Nat → Nat}

theorem State.setFld_kept (s : State) (f : Fld) (v : Nat) (h_s : s.kept P C) : (State.setFld s f v).kept P C := by
  unfold State.setFld
  repeat' first | with_reducible assumption | with_reducible apply State.setReg_kept

theorem State.bump_kept (s : State) (f : Fld) (n : Nat) (h_s : s.kept P C) : (State.bump s f n).kept P C := by
  unfold State.bump
  repeat' first | with_reducible assumption | with_reducible apply State.setFld_kept

theorem State.bump32_kept (s : State) (k n : Nat) (h_s : s.kept P C) : (State.bump32 s k n).kept P C := by
  unfold State.bump32
  repeat' first | with_reducible assumption | with_reducible apply State.bump_kept

theorem State.bump64_kept (s : State) (k n : Nat) (h_s : s.kept P C) : (State.bump64 s k n).kept P C := by
  unfold State.bump64
  repeat' first | with_reducible assumption | with_reducible apply State.bump_kept

theorem State.at__kept (s : State) (t : Nat) (h_s : s.kept P C) : (State.at_ s t).kept P C := by
  unfold State.at_
  repeat' first | with_reducible assumption | intro _ | with_reducible apply kept_ite
                | with_reducible apply State.setReg_kept

theorem State.send_kept (s : State) (x : Sent) (h_s : s.kept P C) : (State.send s x).kept P C := by
  unfold State.send
  repeat' first | with_reducible assumption | with_reducible apply Kept.same | simp only [kept_mk]

theorem State.setDevState_kept (s : State) (v : Nat) (h_s : s.kept P C) : (State.setDevState s v).kept P C := by
  unfold State.setDevState
  repeat' first | with_reducible assumption | with_reducible apply State.setFld_kept

theorem State.fresh_kept (s : State) (h_s : s.kept P C) : (State.fresh s).2.kept P C := by
  unfold State.fresh
  repeat' first | with_reducible assumption | with_reducible apply Kept.same | simp only [kept_mk]

theorem State.upTo_kept (s : State) (bound : Nat) (h_s : s.kept P C) : (State.upTo s bound).2.kept P C := by
  unfold State.upTo
  repeat' first | with_reducible assumption | with_reducible apply State.fresh_kept

theorem State.setPort_kept (s : State) (p : Nat) (x : Port) (h_s : s.kept P C) : (State.setPort s p x).kept P C := by
  unfold State.setPort
  repeat' first | with_reducible assumption | with_reducible apply Kept.same | simp only [kept_mk]

theorem State.injectTx_kept (s : State) (p : Nat) (tx : Tx) (h_s : s.kept P C) : (State.injectTx s p tx).kept P C := by
  unfold State.injectTx
  repeat' first | with_reducible assumption | with_reducible apply State.bump64_kept | with_reducible apply State.send_kept
                | with_reducible apply State.setPort_kept

theorem State.sendBy_kept (s : State) (p : Nat) (tx : Tx) (h_s : s.kept P C) : (State.sendBy s p tx).kept P C := by
  unfold State.sendBy
  repeat' first | with_reducible assumption | intro _ | with_reducible apply kept_ite
                | with_reducible apply State.setPort_kept | with_reducible apply State.injectTx_kept

theorem State.sendTx_kept (s : State) (tx : Tx) (h_s : s.kept P C) : (State.sendTx s tx).kept P C := by
  unfold State.sendTx
  repeat' first | with_reducible assumption | with_reducible apply State.sendBy_kept | with_reducible apply Kept.same
                | simp only [kept_mk] | split

theorem State.flushPort_kept (s : State) (p : Nat) (n_ : Nat) (h_s : s.kept P C) : (State.flushPort s p n_).kept P C := by
  induction n_ generalizing s p with
  | zero =>
    unfold State.flushPort
    repeat' first | with_reducible assumption
  | succ n ih =>
    unfold State.flushPort
    repeat' first | with_reducible assumption | with_reducible apply ih | with_reducible apply State.setPort_kept
                  | with_reducible apply State.injectTx_kept | simp only [kept_mk] | split

theorem State.announce_kept (s : State) (p : Nat) (h_s : s.kept P C) : (State.announce s p).kept P C := by
  unfold State.announce
  repeat' first | with_reducible assumption | intro _ | with_reducible apply State.sendTx_kept
                | with_reducible apply kept_foldl

theorem State.noteSpares_kept (s : State) (h_s : s.kept P C) : (State.noteSpares s).kept P C := by
  unfold State.noteSpares
  repeat' first | with_reducible assumption | intro _ | with_reducible apply kept_ite
                | with_reducible apply State.setFld_kept | with_reducible apply State.announce_kept
                | with_reducible apply Kept.same | simp only [kept_mk] | with_reducible apply kept_foldl

theorem State.excursion_kept (s : State) (i : Nat) (h_s : s.kept P C) : (State.excursion s i).kept P C := by
  unfold State.excursion
  repeat' first | with_reducible assumption | with_reducible apply Kept.same | simp only [kept_mk]

theorem State.recordFlag_kept (s : State) (i : Nat) (h_s : s.kept P C) : (State.recordFlag s i).kept P C := by
  unfold State.recordFlag
  repeat' first | with_reducible assumption | with_reducible apply Kept.same | simp only [kept_mk]

theorem State.onRecord_kept (s : State) (f : TickRec → TickRec) (h_s : s.kept P C) : (State.onRecord s f).kept P C := by
  unfold State.onRecord
  repeat' first | with_reducible assumption | with_reducible apply Kept.same | simp only [kept_mk]

theorem State.triggerPeers_kept (s : State) (op addr word : Nat) (h_s : s.kept P C) :
    (State.triggerPeers s op addr word).kept P C := by
  unfold State.triggerPeers
  repeat' first | with_reducible assumption | intro _ | with_reducible apply State.sendTx_kept
                | with_reducible apply kept_foldl

theorem State.countStall_kept (s : State) (w : WaitWrite) (h_s : s.kept P C) : (State.countStall s w).kept P C := by
  unfold State.countStall
  repeat' first | with_reducible assumption | with_reducible apply State.bump64_kept | split

theorem State.invalidate_kept (s : State) (line : Nat) (h_s : s.kept P C) : (State.invalidate s line).kept P C := by
  unfold State.invalidate
  repeat' first | with_reducible assumption | intro _ | with_reducible apply kept_ite
                | with_reducible apply State.bump64_kept | with_reducible apply State.sendTx_kept
                | with_reducible apply Kept.same | simp only [kept_mk] | with_reducible apply kept_foldl

theorem State.commitWrite_kept (s : State) (w : WaitWrite) (h_s : s.kept P C) : (State.commitWrite s w).1.kept P C := by
  unfold State.commitWrite
  repeat' first | with_reducible assumption | intro _ | with_reducible apply kept_ite_fst
                | with_reducible apply State.store_kept | with_reducible apply State.invalidate_kept
                | with_reducible apply kept_foldl

theorem State.undoFills_kept (s : State) (h_s : s.kept P C) : (State.undoFills s).kept P C := by
  unfold State.undoFills
  repeat' first | with_reducible assumption | intro _ | with_reducible apply kept_ite
                | with_reducible apply State.recordFlag_kept | with_reducible apply State.triggerPeers_kept
                | with_reducible apply Kept.same | simp only [kept_mk]

theorem State.serveWrite_kept (s : State) (w : WaitWrite) (h_s : s.kept P C) : (State.serveWrite s w).1.kept P C := by
  unfold State.serveWrite
  repeat' first | with_reducible assumption | with_reducible apply State.bump32_kept
                | with_reducible apply State.bump64_kept | with_reducible apply State.excursion_kept
                | with_reducible apply State.countStall_kept | with_reducible apply State.commitWrite_kept
                | with_reducible apply State.undoFills_kept | with_reducible apply Kept.same | simp only [kept_mk] | split

theorem State.serveWrites_kept (s : State) (n_ : List WaitWrite) (h_s : s.kept P C) : (State.serveWrites s n_).kept P C := by
  induction n_ generalizing s with
  | nil =>
    unfold State.serveWrites
    repeat' first | with_reducible assumption
  | cons a r ih =>
    unfold State.serveWrites
    repeat' first | with_reducible assumption | with_reducible apply ih | with_reducible apply State.serveWrite_kept
                  | with_reducible apply Kept.same | simp only [kept_mk] | with_reducible refine kept_fst (by assumption) ?_
                  | split

theorem State.retryWrites_kept (s : State) (h_s : s.kept P C) : (State.retryWrites s).kept P C := by
  unfold State.retryWrites
  repeat' first | with_reducible assumption | with_reducible apply State.serveWrites_kept | with_reducible apply Kept.same
                | simp only [kept_mk]

theorem State.writePiece_kept (s : State) (o : Origin) (tag : Option Tag) (a : Nat) (bs : List Byte) (h_s : s.kept P C) :
    (State.writePiece s o tag a bs).kept P C := by
  unfold State.writePiece
  repeat' first | with_reducible assumption | intro _ | with_reducible apply kept_ite
                | with_reducible apply State.store_kept | with_reducible apply State.serveWrites_kept

theorem State.write_kept (s : State) (o : Origin) (a : Nat) (bs : List Byte) (h_s : s.kept P C) :
    (State.write s o a bs).kept P C := by
  unfold State.write
  repeat' first | with_reducible assumption | intro _ | with_reducible apply State.writePiece_kept
                | with_reducible apply kept_foldl

theorem State.writeSealed_kept (s : State) (o : Origin) (sealed_ : Bool) (stamp : Option (ListId × Nat × Nat)) (a : Nat)
    (bs : List Byte) (h_s : s.kept P C) :
    (State.writeSealed s o sealed_ stamp a bs).kept P C := by
  unfold State.writeSealed
  repeat' first | with_reducible assumption | intro _ | with_reducible apply State.writePiece_kept
                | with_reducible apply kept_foldl

theorem State.atomic_kept (s : State) (o : Origin) (opByte a x cmp : Nat) (h_s : s.kept P C) :
    (State.atomic s o opByte a x cmp).2.kept P C := by
  unfold State.atomic
  repeat' first | with_reducible assumption | with_reducible apply State.write_kept

theorem State.signalVector_kept (s : State) (v : Nat) (h_s : s.kept P C) : (State.signalVector s v).kept P C := by
  unfold State.signalVector
  repeat' first | with_reducible assumption | intro _ | with_reducible apply kept_ite | with_reducible apply State.send_kept
                | with_reducible apply Kept.same | simp only [kept_mk]

theorem State.writeEvent_kept (s : State) (e : Event) (h_s : s.kept P C) : (State.writeEvent s e).kept P C := by
  unfold State.writeEvent
  repeat' first | with_reducible assumption | with_reducible apply State.setReg_kept | with_reducible apply State.send_kept
                | with_reducible apply State.signalVector_kept | split

theorem State.setHeld_kept (s : State) (es : List Event) (h_s : s.kept P C) : (State.setHeld s es).kept P C := by
  unfold State.setHeld
  repeat' first | with_reducible assumption | with_reducible apply State.setFld_kept | with_reducible apply Kept.same
                | simp only [kept_mk]

theorem State.writeHeld_kept (s : State) (n_ : List Event) (h_s : s.kept P C) : (State.writeHeld s n_).kept P C := by
  induction n_ generalizing s with
  | nil =>
    unfold State.writeHeld
    repeat' first | with_reducible assumption | with_reducible apply State.setHeld_kept
  | cons a r ih =>
    unfold State.writeHeld
    repeat' first | with_reducible assumption | with_reducible apply ih | intro _ | with_reducible apply kept_ite
                  | with_reducible apply State.writeEvent_kept | with_reducible apply State.setHeld_kept

theorem State.eventDatagram_kept (s : State) (e : Event) (h_s : s.kept P C) : (State.eventDatagram s e).kept P C := by
  unfold State.eventDatagram
  repeat' first | with_reducible assumption | intro _ | with_reducible apply kept_ite | with_reducible apply State.send_kept
                | with_reducible apply State.fresh_kept

theorem State.eventIbi_kept (s : State) (e : Event) (h_s : s.kept P C) : (State.eventIbi s e).kept P C := by
  unfold State.eventIbi
  repeat' first | with_reducible assumption | intro _ | with_reducible apply kept_ite | with_reducible apply State.send_kept

theorem State.ringEvent_kept (s : State) (e : Event) (h_s : s.kept P C) : (State.ringEvent s e).kept P C := by
  unfold State.ringEvent
  repeat' first | with_reducible assumption | intro _ | with_reducible apply kept_ite
                | with_reducible apply State.bump32_kept | with_reducible apply State.writeEvent_kept
                | with_reducible apply State.setHeld_kept

theorem State.postEvent_kept (s : State) (e : Event) (h_s : s.kept P C) : (State.postEvent s e).kept P C := by
  unfold State.postEvent
  repeat' first | with_reducible assumption | with_reducible apply State.eventDatagram_kept
                | with_reducible apply State.eventIbi_kept | with_reducible apply State.ringEvent_kept

theorem State.endLong_kept (s : State) (l : Long) (status detail : Nat) (h_s : s.kept P C) :
    (State.endLong s l status detail).kept P C := by
  unfold State.endLong
  repeat' first | with_reducible assumption | intro _ | with_reducible apply kept_ite
                | with_reducible apply State.postEvent_kept | with_reducible apply Kept.same | simp only [kept_mk]

theorem State.endLongCode_kept (s : State) (code status detail : Nat) (h_s : s.kept P C) :
    (State.endLongCode s code status detail).kept P C := by
  unfold State.endLongCode
  repeat' first | with_reducible assumption | with_reducible apply State.endLong_kept | split

theorem State.flushEvents_kept (s : State) (h_s : s.kept P C) : (State.flushEvents s).kept P C := by
  unfold State.flushEvents
  repeat' first | with_reducible assumption | intro _ | with_reducible apply State.writeHeld_kept
                | with_reducible apply State.postEvent_kept | with_reducible apply Kept.same | simp only [kept_mk]
                | with_reducible apply kept_foldl | split

theorem State.sendSlow_kept (s : State) (factor cause : Nat) (h_s : s.kept P C) : (State.sendSlow s factor cause).kept P C := by
  unfold State.sendSlow
  repeat' first | with_reducible assumption | intro _ | with_reducible apply kept_ite
                | with_reducible apply State.sendTx_kept | with_reducible apply State.excursion_kept
                | with_reducible apply kept_foldl

theorem State.startSlow_kept (s : State) (o : OwnSlow) (h_s : s.kept P C) : (State.startSlow s o).kept P C := by
  unfold State.startSlow
  repeat' first | with_reducible assumption | with_reducible apply State.sendSlow_kept | with_reducible apply Kept.same
                | simp only [kept_mk]

theorem State.beginSlow_kept (s : State) (cause unit factor : Nat) (h_s : s.kept P C) :
    (State.beginSlow s cause unit factor).kept P C := by
  unfold State.beginSlow
  repeat' first | with_reducible assumption | with_reducible apply State.startSlow_kept

theorem State.endSlow_kept (s : State) (cause unit : Nat) (h_s : s.kept P C) : (State.endSlow s cause unit).kept P C := by
  unfold State.endSlow
  repeat' first | with_reducible assumption | intro _ | with_reducible apply kept_ite
                | with_reducible apply State.sendSlow_kept | with_reducible apply Kept.same | simp only [kept_mk]

theorem State.setCount_kept (s : State) (l i v : Nat) (h_s : s.kept P C) : (State.setCount s l i v).kept P C := by
  unfold State.setCount
  repeat' first | with_reducible assumption | with_reducible apply State.setReg_kept

theorem State.countWait_kept (s : State) (l : ListId) (h_s : s.kept P C) : (State.countWait s l).kept P C := by
  unfold State.countWait
  repeat' first | with_reducible assumption | with_reducible apply State.setReg_kept
                | with_reducible apply State.bump64_kept | split

theorem State.settleWaits_kept (s : State) (h_s : s.kept P C) : (State.settleWaits s).kept P C := by
  unfold State.settleWaits
  repeat' first | with_reducible assumption | with_reducible apply State.countWait_kept | with_reducible apply kept_foldl

theorem State.markWaits_kept (s : State) (h_s : s.kept P C) : (State.markWaits s).kept P C := by
  unfold State.markWaits
  repeat' first | with_reducible assumption | intro _ | with_reducible apply State.setReg_kept
                | with_reducible apply kept_foldl

theorem State.setSeq_kept (s : State) (l state wait : Nat) (h_s : s.kept P C) : (State.setSeq s l state wait).kept P C := by
  unfold State.setSeq
  repeat' first | with_reducible assumption | with_reducible apply State.setReg_kept
                | with_reducible apply State.setFld_kept | with_reducible apply State.countWait_kept

theorem State.holdSeq_kept (s : State) (l wait _stall : Nat) (h_s : s.kept P C) : (State.holdSeq s l wait _stall).kept P C := by
  unfold State.holdSeq
  repeat' first | with_reducible assumption | with_reducible apply State.setSeq_kept

theorem State.seqTo_kept (s : State) (l n : Nat) (h_s : s.kept P C) : (State.seqTo s l n).kept P C := by
  unfold State.seqTo
  repeat' first | with_reducible assumption | with_reducible apply State.setFld_kept
                | with_reducible apply State.setSeq_kept

theorem State.advance_kept (s : State) (l : ListId) (h_s : s.kept P C) : (State.advance s l).kept P C := by
  unfold State.advance
  repeat' first | with_reducible assumption | with_reducible apply State.seqTo_kept

theorem State.seqRecord_kept (s : State) (l : ListId) (r : OpRecord) (opcode : Nat) (f : State → State) (h_s : s.kept P C)
    (h_f : ∀ x0, x0.kept P C → (f x0).kept P C) :
    (State.seqRecord s l r opcode f).kept P C := by
  unfold State.seqRecord
  repeat' first | with_reducible assumption | with_reducible apply h_f | with_reducible apply State.holdSeq_kept
                | with_reducible apply State.advance_kept | split

theorem State.refreshPhases_kept (s : State) (l : ListId) (h_s : s.kept P C) : (State.refreshPhases s l).kept P C := by
  unfold State.refreshPhases
  repeat' first | with_reducible assumption | with_reducible apply State.setFld_kept

theorem State.checkStepEnd_kept (s : State) (h_s : s.kept P C) : (State.checkStepEnd s).kept P C := by
  unfold State.checkStepEnd
  repeat' first | with_reducible assumption | with_reducible apply State.setFld_kept | with_reducible apply State.write_kept
                | with_reducible apply Kept.same | simp only [kept_mk] | split

theorem State.endOfStep_kept (s : State) (l : ListId) (h_s : s.kept P C) : (State.endOfStep s l).kept P C := by
  unfold State.endOfStep
  repeat' first | with_reducible assumption | with_reducible apply State.setSeq_kept
                | with_reducible apply State.refreshPhases_kept | with_reducible apply State.checkStepEnd_kept

theorem State.signalFrom_kept (s : State) (l : ListId) (r : OpRecord) (h_s : s.kept P C) : (State.signalFrom s l r).kept P C := by
  unfold State.signalFrom
  repeat' first | with_reducible assumption | intro _ | with_reducible apply kept_ite
                | with_reducible apply State.setCount_kept

theorem State.enterStopped_kept (s : State) (src : Nat) (h_s : s.kept P C) : (State.enterStopped s src).kept P C := by
  unfold State.enterStopped
  repeat' first | with_reducible assumption | intro _ | with_reducible apply kept_ite
                | with_reducible apply State.setDevState_kept | with_reducible apply State.recordFlag_kept
                | with_reducible apply State.postEvent_kept | with_reducible apply State.triggerPeers_kept
                | with_reducible apply Kept.same | simp only [kept_mk]

theorem State.stopSeq_kept (s : State) (l : ListId) (h_s : s.kept P C) : (State.stopSeq s l).kept P C := by
  unfold State.stopSeq
  repeat' first | with_reducible assumption | intro _ | with_reducible apply kept_ite
                | with_reducible apply State.setSeq_kept | with_reducible apply State.enterStopped_kept

theorem State.pushOp_kept (s : State) (o : InFlight) (h_s : s.kept P C) : (State.pushOp s o).kept P C := by
  unfold State.pushOp
  repeat' first | with_reducible assumption | with_reducible apply Kept.same | simp only [kept_mk]

theorem State.setOp_kept (s : State) (o : InFlight) (h_s : s.kept P C) : (State.setOp s o).kept P C := by
  unfold State.setOp
  repeat' first | with_reducible assumption | with_reducible apply Kept.same | simp only [kept_mk]

theorem State.dropOp_kept (s : State) (id : Nat) (h_s : s.kept P C) : (State.dropOp s id).kept P C := by
  unfold State.dropOp
  repeat' first | with_reducible assumption | with_reducible apply Kept.same | simp only [kept_mk]

theorem State.issueOp_kept (s : State) (l : ListId) (r : OpRecord) (run : State → InFlight → State × InFlight)
    (h_s : s.kept P C) (h_run : ∀ x0 x1, x0.kept P C → (run x0 x1).1.kept P C) :
    (State.issueOp s l r run).kept P C := by
  unfold State.issueOp
  repeat' first | with_reducible assumption | intro _ | with_reducible apply kept_ite | with_reducible apply h_run
                | with_reducible apply State.holdSeq_kept | with_reducible apply State.advance_kept
                | with_reducible apply State.pushOp_kept | with_reducible apply State.setOp_kept | split

theorem State.writeRecord_kept (s : State) (o : InFlight) (h_s : s.kept P C) : (State.writeRecord s o).kept P C := by
  unfold State.writeRecord
  repeat' first | with_reducible assumption | intro _ | with_reducible apply kept_ite
                | with_reducible apply State.write_kept | with_reducible apply Kept.same | simp only [kept_mk]

theorem State.logReplay_kept (s : State) (o : InFlight) (h_s : s.kept P C) : (State.logReplay s o).kept P C := by
  unfold State.logReplay
  repeat' first | with_reducible assumption | with_reducible apply Kept.same | simp only [kept_mk]

theorem State.countStalls_kept (s : State) (o : InFlight) (h_s : s.kept P C) : (State.countStalls s o).kept P C := by
  unfold State.countStalls
  repeat' first | with_reducible assumption | intro _ | with_reducible apply State.bump64_kept
                | with_reducible apply kept_foldl

theorem State.finishOp_kept (s : State) (o : InFlight) (h_s : s.kept P C) : (State.finishOp s o).kept P C := by
  unfold State.finishOp
  repeat' first | with_reducible assumption | intro _ | with_reducible apply kept_ite
                | with_reducible apply State.setFld_kept | with_reducible apply State.bump64_kept
                | with_reducible apply State.postEvent_kept | with_reducible apply State.setCount_kept
                | with_reducible apply State.refreshPhases_kept | with_reducible apply State.checkStepEnd_kept
                | with_reducible apply State.signalFrom_kept | with_reducible apply State.stopSeq_kept
                | with_reducible apply State.dropOp_kept | with_reducible apply State.countStalls_kept

theorem State.completeOp_kept (s : State) (o : InFlight) (h_s : s.kept P C) : (State.completeOp s o).kept P C := by
  unfold State.completeOp
  repeat' first | with_reducible assumption | intro _ | with_reducible apply kept_ite
                | with_reducible apply State.setOp_kept | with_reducible apply State.writeRecord_kept
                | with_reducible apply State.logReplay_kept | with_reducible apply State.finishOp_kept

theorem State.writeStats_kept (s : State) (o : Origin) (base : Nat) (covers : List Nat) (stats : List (Nat × Num × Tally))
    (whole : Nat → Bool) (h_s : s.kept P C) :
    (State.writeStats s o base covers stats whole).kept P C := by
  unfold State.writeStats
  repeat' first | with_reducible assumption | intro _ | with_reducible apply State.write_kept
                | with_reducible apply kept_foldl

theorem State.setOverflow_kept (s : State) (o : Origin) (t : Tensor) (j : Nat) (h_s : s.kept P C) :
    (State.setOverflow s o t j).kept P C := by
  unfold State.setOverflow
  repeat' first | with_reducible assumption | with_reducible apply State.write_kept

theorem State.markOverflow_kept (s : State) (o : Origin) (tensorId start : Nat) (dst : Ctl) (blks : List Nat)
    (h_s : s.kept P C) :
    (State.markOverflow s o tensorId start dst blks).kept P C := by
  unfold State.markOverflow
  repeat' first | with_reducible assumption | intro _ | with_reducible apply State.setOverflow_kept
                | with_reducible apply kept_foldl | split

theorem State.writeRuns_kept (s : State) (o : InFlight) (digest : Bool) (ps : List BitRun) (h_s : s.kept P C) :
    (State.writeRuns s o digest ps).1.kept P C := by
  unfold State.writeRuns
  repeat' first | with_reducible assumption | intro _ | with_reducible apply State.writeSealed_kept
                | with_reducible apply kept_foldl

theorem State.writeOut_kept (s : State) (o : InFlight) (c : ConvOut) (dst : Ctl) (start statBase : Nat)
    (inStats : List (Nat × Num × Tally)) (inWhole : List Nat) (h_s : s.kept P C) :
    (State.writeOut s o c dst start statBase inStats inWhole).1.kept P C := by
  unfold State.writeOut
  repeat' first | with_reducible assumption | intro _ | with_reducible apply kept_ite | with_reducible apply kept_ite_fst
                | with_reducible apply State.writeStats_kept | with_reducible apply State.markOverflow_kept
                | with_reducible apply State.writeRuns_kept

theorem State.countFails_kept (s : State) (ts : List Nat) (h_s : s.kept P C) : (State.countFails s ts).kept P C := by
  unfold State.countFails
  repeat' first | with_reducible assumption | intro _ | with_reducible apply kept_ite
                | with_reducible apply State.bump32_kept | with_reducible apply kept_foldl

theorem State.countBad_kept (s : State) (ts : List Nat) (h_s : s.kept P C) : (State.countBad s ts).kept P C := by
  unfold State.countBad
  repeat' first | with_reducible assumption | intro _ | with_reducible apply State.bump32_kept
                | with_reducible apply kept_foldl

theorem State.copyBad_kept (s : State) (t u : Nat) (h_s : s.kept P C) : (State.copyBad s t u).kept P C := by
  unfold State.copyBad
  repeat' first | with_reducible assumption | with_reducible apply Kept.same | simp only [kept_mk]

theorem State.verified_kept (s : State) (o : InFlight) (cls : Bool) (i : Inputs)
    (body : State → InFlight → State × InFlight) (h_s : s.kept P C) (h_body : ∀ x0 x1, x0.kept P C → (body x0 x1).1.kept P C) :
    (State.verified s o cls i body).1.kept P C := by
  unfold State.verified
  repeat' first | with_reducible assumption | intro _ | with_reducible apply kept_ite_fst | with_reducible apply h_body
                | with_reducible apply State.countFails_kept | with_reducible apply State.countBad_kept

theorem State.pickFault_kept (s : State) (faults : List (Nat × Nat)) (h_s : s.kept P C) :
    (State.pickFault s faults).2.kept P C := by
  unfold State.pickFault
  repeat' first | with_reducible assumption | intro _ | with_reducible apply kept_ite_snd | with_reducible apply Kept.same
                | simp only [kept_mk]

theorem State.writeD_kept (s : State) (o : InFlight) (m : MatOp) (elem : Nat → Nat → ElemOut) (h_s : s.kept P C) :
    (State.writeD s o m elem).1.kept P C := by
  unfold State.writeD
  repeat' first | with_reducible assumption | with_reducible apply State.writeOut_kept
                | with_reducible apply State.pickFault_kept | simp only [kept_mk] | split

theorem State.writeAnchors_kept (s : State) (o : InFlight) (m : MatOp) (digest : Bool) (anchors : List Byte)
    (h_s : s.kept P C) :
    (State.writeAnchors s o m digest anchors).1.kept P C := by
  unfold State.writeAnchors
  repeat' first | with_reducible assumption | intro _ | with_reducible apply kept_ite_fst
                | with_reducible apply State.writeRuns_kept

theorem runMatmul_kept (m : MatOp) (s : State) (o : InFlight) (h_s : s.kept P C) : (runMatmul m s o).1.kept P C := by
  unfold runMatmul
  repeat' first | with_reducible assumption | intro _ | with_reducible apply kept_ite_fst
                | with_reducible apply State.writeD_kept | with_reducible apply State.writeAnchors_kept

theorem runMatmulPart_kept (m : MatOp) (s : State) (o : InFlight) (h_s : s.kept P C) : (runMatmulPart m s o).1.kept P C := by
  unfold runMatmulPart
  repeat' first | with_reducible assumption | with_reducible apply State.writeRuns_kept
                | with_reducible apply State.pickFault_kept | with_reducible apply State.writeAnchors_kept | split

theorem runAnchorGather_kept (m : MatOp) (s : State) (o : InFlight) (h_s : s.kept P C) : (runAnchorGather m s o).1.kept P C := by
  unfold runAnchorGather
  repeat' first | with_reducible assumption | with_reducible apply State.writeAnchors_kept

theorem runPartCombine_kept (m : MatOp) (s : State) (o : InFlight) (h_s : s.kept P C) : (runPartCombine m s o).1.kept P C := by
  unfold runPartCombine
  repeat' first | with_reducible assumption | with_reducible apply State.writeD_kept

theorem matrixBody_kept (s : State) (o : InFlight) (h_s : s.kept P C) : (matrixBody s o).1.kept P C := by
  unfold matrixBody
  repeat' first | with_reducible assumption | with_reducible apply State.bump64_kept | with_reducible apply runMatmul_kept
                | with_reducible apply runMatmulPart_kept | with_reducible apply runAnchorGather_kept
                | with_reducible apply runPartCombine_kept | split

theorem matrixRun_kept (s : State) (o : InFlight) (h_s : s.kept P C) : (matrixRun s o).1.kept P C := by
  unfold matrixRun
  repeat' first | with_reducible assumption | with_reducible apply State.verified_kept
                | with_reducible apply matrixBody_kept

theorem State.setVreg_kept (s : State) (n i : Nat) (v : VReg) (h_s : s.kept P C) : (State.setVreg s n i v).kept P C := by
  unfold State.setVreg
  repeat' first | with_reducible assumption | with_reducible apply Kept.same | simp only [kept_mk]

theorem State.setMreg_kept (s : State) (n i : Nat) (v : MReg) (h_s : s.kept P C) : (State.setMreg s n i v).kept P C := by
  unfold State.setMreg
  repeat' first | with_reducible assumption | intro _ | with_reducible apply kept_ite | with_reducible apply Kept.same
                | simp only [kept_mk]

theorem State.runDerive_kept (s : State) (o : InFlight) (op : ChainOp) (h_s : s.kept P C) :
    (State.runDerive s o op).1.kept P C := by
  unfold State.runDerive
  repeat' first | with_reducible assumption | with_reducible apply State.writeRuns_kept

theorem State.writeVreg_kept (s : State) (o : InFlight) (n row : Nat) (op : ChainOp) (outs : List (Option (Option Num)))
    (h_s : s.kept P C) :
    (State.writeVreg s o n row op outs).1.kept P C := by
  unfold State.writeVreg
  repeat' first | with_reducible assumption | intro _ | with_reducible apply kept_ite_fst
                | with_reducible apply State.writeRuns_kept | with_reducible apply State.setVreg_kept

theorem State.writeCmpMask_kept (s : State) (n : Nat) (op : ChainOp) (k : Nat) (fresh : List Bool) (h_s : s.kept P C) :
    (State.writeCmpMask s n op k fresh).kept P C := by
  unfold State.writeCmpMask
  repeat' first | with_reducible assumption | intro _ | with_reducible apply kept_ite
                | with_reducible apply State.setMreg_kept

theorem State.runChain_kept (s : State) (o : InFlight) (op : ChainOp) (k : Nat) (h_s : s.kept P C) :
    (State.runChain s o op k).1.kept P C := by
  unfold State.runChain
  repeat' first | with_reducible assumption | intro _ | with_reducible apply kept_ite | with_reducible apply kept_ite_fst
                | with_reducible apply State.writeStats_kept | with_reducible apply State.writeOut_kept
                | with_reducible apply State.writeVreg_kept | with_reducible apply State.writeCmpMask_kept

theorem vopBody_kept (s : State) (o : InFlight) (h_s : s.kept P C) : (vopBody s o).1.kept P C := by
  unfold vopBody
  repeat' first | with_reducible assumption | with_reducible apply State.bump64_kept
                | with_reducible apply State.runDerive_kept | with_reducible apply State.runChain_kept | simp only [kept_mk]
                | split

theorem vopRun_kept (s : State) (o : InFlight) (h_s : s.kept P C) : (vopRun s o).1.kept P C := by
  unfold vopRun
  repeat' first | with_reducible assumption | with_reducible apply State.verified_kept | with_reducible apply vopBody_kept
                | split

theorem setvlRun_kept (s : State) (o : InFlight) (h_s : s.kept P C) : (setvlRun s o).1.kept P C := by
  unfold setvlRun
  repeat' first | with_reducible assumption | with_reducible apply State.bump64_kept | with_reducible apply Kept.same
                | simp only [kept_mk]

theorem State.sealRange_kept (s : State) (o : InFlight) (a n : Nat) (h_s : s.kept P C) :
    (State.sealRange s o a n).1.kept P C := by
  unfold State.sealRange
  repeat' first | with_reducible assumption | intro _ | with_reducible apply State.setTag_kept
                | with_reducible apply kept_foldl

theorem State.settleOp_kept (s : State) (o : InFlight) (h_s : s.kept P C) : (State.settleOp s o).kept P C := by
  unfold State.settleOp
  repeat' first | with_reducible assumption | with_reducible apply State.setOp_kept
                | with_reducible apply State.completeOp_kept | with_reducible apply State.sealRange_kept | split

theorem State.settle_kept (s : State) (h_s : s.kept P C) : (State.settle s).kept P C := by
  unfold State.settle
  repeat' first | with_reducible assumption | intro _ | with_reducible apply State.settleOp_kept
                | with_reducible apply kept_foldl | split

theorem State.putOp_kept (s : State) (o : InFlight) (h_s : s.kept P C) : (State.putOp s o).kept P C := by
  unfold State.putOp
  repeat' first | with_reducible assumption | with_reducible apply State.setOp_kept | with_reducible apply State.settle_kept

end Sys2Proof.Machine
end

