-- ==== Sys2Proof/Laws/KeptTransfers.lean ====
section
/-! SUPPORT. What the home of remote requests, queues, transfers and Marrow ops keep (Laws/Kept.lean). -/
namespace Sys2Proof.Machine

variable {P : List Instr} {C : Nat → Nat}

theorem State.onFabric_kept (s : State) (f : Fabric → Fabric) (h_s : s.kept P C) : (State.onFabric s f).kept P C := by
  unfold State.onFabric
  repeat' first | with_reducible assumption | with_reducible apply Kept.same | simp only [kept_mk]

theorem State.reply_kept (s : State) (tx : Tx) (word : Nat) (data : List Byte) (crc : Bool) (h_s : s.kept P C) :
    (State.reply s tx word data crc).kept P C := by
  unfold State.reply
  repeat' first | with_reducible assumption | with_reducible apply State.sendTx_kept

theorem State.refuse_kept (s : State) (tx : Tx) (status : Nat) (h_s : s.kept P C) : (State.refuse s tx status).kept P C := by
  unfold State.refuse
  repeat' first | with_reducible assumption | with_reducible apply State.sendTx_kept

theorem State.mark_kept (s : State) (g seq : Nat) (h_s : s.kept P C) : (State.mark s g seq).kept P C := by
  unfold State.mark
  repeat' first | with_reducible assumption | intro _ | with_reducible apply kept_ite
                | with_reducible apply State.onFabric_kept

theorem State.journal_kept (s : State) (tx : Tx) (old : Nat) (h_s : s.kept P C) : (State.journal s tx old).kept P C := by
  unfold State.journal
  repeat' first | with_reducible assumption | with_reducible apply State.setFld_kept
                | with_reducible apply State.onFabric_kept

theorem State.applyAtomic_kept (s : State) (tx : Tx) (h_s : s.kept P C) : (State.applyAtomic s tx).kept P C := by
  unfold State.applyAtomic
  repeat' first | with_reducible assumption | with_reducible apply State.atomic_kept | with_reducible apply State.mark_kept
                | with_reducible apply State.journal_kept

theorem State.setServe_kept (s : State) (v : Serve) (h_s : s.kept P C) : (State.setServe s v).kept P C := by
  unfold State.setServe
  repeat' first | with_reducible assumption | with_reducible apply State.onFabric_kept

theorem State.congestNotice_kept (s : State) (g gap : Nat) (h_s : s.kept P C) : (State.congestNotice s g gap).kept P C := by
  unfold State.congestNotice
  repeat' first | with_reducible assumption | with_reducible apply State.bump64_kept
                | with_reducible apply State.sendTx_kept | with_reducible apply State.onFabric_kept

theorem State.congested_kept (s : State) (line : Nat) (h_s : s.kept P C) : (State.congested s line).kept P C := by
  unfold State.congested
  repeat' first | with_reducible assumption | intro _ | with_reducible apply kept_ite
                | with_reducible apply State.onFabric_kept | with_reducible apply State.congestNotice_kept
                | with_reducible apply kept_foldl

theorem State.relieved_kept (s : State) (line : Nat) (h_s : s.kept P C) : (State.relieved s line).kept P C := by
  unfold State.relieved
  repeat' first | with_reducible assumption | intro _ | with_reducible apply kept_ite
                | with_reducible apply State.onFabric_kept | with_reducible apply State.congestNotice_kept
                | with_reducible apply kept_foldl

theorem State.commitAt_kept (s : State) (v : Serve) (line : Nat) (h_s : s.kept P C) : (State.commitAt s v line).kept P C := by
  unfold State.commitAt
  repeat' first | with_reducible assumption | with_reducible apply State.bump64_kept | with_reducible apply State.write_kept
                | with_reducible apply State.applyAtomic_kept | with_reducible apply kept_foldl | split

theorem State.noteTile_kept (s : State) (tx : Tx) (line : Nat) (h_s : s.kept P C) : (State.noteTile s tx line).kept P C := by
  unfold State.noteTile
  repeat' first | with_reducible assumption | intro _ | with_reducible apply kept_ite | with_reducible apply Kept.same
                | simp only [kept_mk]

theorem State.pull_kept (s : State) (line : Nat) (n_ : Nat) (h_s : s.kept P C) : (State.pull s line n_).kept P C := by
  induction n_ generalizing s line with
  | zero =>
    unfold State.pull
    repeat' first | with_reducible assumption
  | succ n ih =>
    unfold State.pull
    repeat' first | with_reducible assumption | with_reducible apply ih | intro _ | with_reducible apply State.onFabric_kept
                  | with_reducible apply State.setServe_kept | with_reducible apply State.relieved_kept
                  | with_reducible apply State.commitAt_kept | with_reducible apply State.noteTile_kept
                  | with_reducible apply kept_foldl | split

theorem State.answerRead_kept (s : State) (tx : Tx) (bs : List Byte) (lines : Tab (List Byte)) (h_s : s.kept P C) :
    (State.answerRead s tx bs lines).kept P C := by
  unfold State.answerRead
  repeat' first | with_reducible assumption | intro _ | with_reducible apply kept_ite
                | with_reducible apply State.sendTx_kept | with_reducible apply State.onFabric_kept
                | with_reducible apply State.reply_kept | with_reducible apply State.mark_kept
                | with_reducible apply kept_foldl

theorem State.endTile_kept (s : State) (tx : Tx) (h_s : s.kept P C) : (State.endTile s tx).kept P C := by
  unfold State.endTile
  repeat' first | with_reducible assumption | intro _ | with_reducible apply kept_ite | with_reducible apply Kept.same
                | simp only [kept_mk]

theorem State.sealRemote_kept (s : State) (tx : Tx) (h_s : s.kept P C) : (State.sealRemote s tx).kept P C := by
  unfold State.sealRemote
  repeat' first | with_reducible assumption | intro _ | with_reducible apply kept_ite
                | with_reducible apply State.setTag_kept

theorem State.answerWrite_kept (s : State) (tx : Tx) (h_s : s.kept P C) : (State.answerWrite s tx).kept P C := by
  unfold State.answerWrite
  repeat' first | with_reducible assumption | intro _ | with_reducible apply kept_ite
                | with_reducible apply State.reply_kept | with_reducible apply State.refuse_kept
                | with_reducible apply State.mark_kept | with_reducible apply State.endTile_kept
                | with_reducible apply State.sealRemote_kept

theorem State.answerAtomic_kept (s : State) (tx : Tx) (h_s : s.kept P C) : (State.answerAtomic s tx).kept P C := by
  unfold State.answerAtomic
  repeat' first | with_reducible assumption | with_reducible apply State.reply_kept | with_reducible apply State.mark_kept
                | split

theorem State.finishServes_kept (s : State) (h_s : s.kept P C) : (State.finishServes s).kept P C := by
  unfold State.finishServes
  repeat' first | with_reducible assumption | intro _ | with_reducible apply kept_ite
                | with_reducible apply State.bump64_kept | with_reducible apply State.onFabric_kept
                | with_reducible apply State.reply_kept | with_reducible apply State.mark_kept
                | with_reducible apply State.answerRead_kept | with_reducible apply State.answerWrite_kept
                | with_reducible apply State.answerAtomic_kept | with_reducible apply kept_foldl

theorem State.pullAll_kept (s : State) (h_s : s.kept P C) : (State.pullAll s).kept P C := by
  unfold State.pullAll
  repeat' first | with_reducible assumption | intro _ | with_reducible apply State.pull_kept
                | with_reducible apply kept_foldl

theorem State.afterWrites_kept (s : State) (h_s : s.kept P C) : (State.afterWrites s).kept P C := by
  unfold State.afterWrites
  repeat' first | with_reducible assumption | with_reducible apply State.retryWrites_kept
                | with_reducible apply State.settle_kept | with_reducible apply State.finishServes_kept
                | with_reducible apply State.pullAll_kept

theorem State.joinQueues_kept (s : State) (ms : List Tx) (h_s : s.kept P C) : (State.joinQueues s ms).kept P C := by
  unfold State.joinQueues
  repeat' first | with_reducible assumption | intro _ | with_reducible apply State.onFabric_kept
                | with_reducible apply State.congested_kept | with_reducible apply State.pull_kept
                | with_reducible apply State.finishServes_kept | with_reducible apply kept_foldl | split

theorem State.refreshCress_kept (s : State) (h_s : s.kept P C) : (State.refreshCress s).kept P C := by
  unfold State.refreshCress
  repeat' first | with_reducible assumption | with_reducible apply State.setFld_kept

theorem State.closeCress_kept (s : State) (e : Cress) (h_s : s.kept P C) : (State.closeCress s e).kept P C := by
  unfold State.closeCress
  repeat' first | with_reducible assumption | with_reducible apply State.onFabric_kept
                | with_reducible apply State.joinQueues_kept | with_reducible apply State.refreshCress_kept

theorem State.arrive_kept (s : State) (t : Tx) (h_s : s.kept P C) : (State.arrive s t).kept P C := by
  unfold State.arrive
  repeat' first | with_reducible assumption | intro _ | with_reducible apply kept_ite
                | with_reducible apply State.bump64_kept | with_reducible apply State.onFabric_kept
                | with_reducible apply State.joinQueues_kept | with_reducible apply State.refreshCress_kept
                | with_reducible apply State.closeCress_kept | with_reducible apply kept_foldl | split

theorem State.spaced_kept (s : State) (home : Nat) (h_s : s.kept P C) : (State.spaced s home).kept P C := by
  unfold State.spaced
  repeat' first | with_reducible assumption | with_reducible apply State.onFabric_kept

theorem State.creditStall_kept (s : State) (l : ListId) (h_s : s.kept P C) : (State.creditStall s l).kept P C := by
  unfold State.creditStall
  repeat' first | with_reducible assumption | with_reducible apply State.bump64_kept

theorem State.requestFrom_kept (s : State) (stream op req : Nat) (tx : Tx) (h_s : s.kept P C) :
    (State.requestFrom s stream op req tx).1.kept P C := by
  unfold State.requestFrom
  repeat' first | with_reducible assumption | intro _ | with_reducible apply kept_ite
                | with_reducible apply State.sendTx_kept | with_reducible apply State.spaced_kept
                | with_reducible apply Kept.same | simp only [kept_mk]

theorem State.request_kept (s : State) (l : ListId) (op req : Nat) (tx : Tx) (h_s : s.kept P C) :
    (State.request s l op req tx).kept P C := by
  unfold State.request
  repeat' first | with_reducible assumption | intro _ | with_reducible apply kept_ite
                | with_reducible apply State.creditStall_kept | with_reducible apply State.requestFrom_kept

theorem State.sendNext_kept (s : State) (g : Nat) (h_s : s.kept P C) : (State.sendNext s g).kept P C := by
  unfold State.sendNext
  repeat' first | with_reducible assumption | with_reducible apply State.sendTx_kept
                | with_reducible apply State.spaced_kept | with_reducible apply Kept.same | simp only [kept_mk] | split

theorem State.sendWaiting_kept (s : State) (g : Nat) (n_ : Nat) (h_s : s.kept P C) : (State.sendWaiting s g n_).kept P C := by
  induction n_ generalizing s g with
  | zero =>
    unfold State.sendWaiting
    repeat' first | with_reducible assumption
  | succ n ih =>
    unfold State.sendWaiting
    repeat' first | with_reducible assumption | with_reducible apply ih | intro _ | with_reducible apply kept_ite
                  | with_reducible apply State.sendNext_kept

theorem State.resend_kept (s : State) (g : Nat) (counted : Bool) (h_s : s.kept P C) : (State.resend s g counted).kept P C := by
  unfold State.resend
  repeat' first | with_reducible assumption | intro _ | with_reducible apply State.bump64_kept
                | with_reducible apply State.sendTx_kept | with_reducible apply Kept.same | simp only [kept_mk]
                | with_reducible apply kept_foldl

theorem State.setLaunch_kept (s : State) (id : Nat) (l : Launch) (h_s : s.kept P C) : (State.setLaunch s id l).kept P C := by
  unfold State.setLaunch
  repeat' first | with_reducible assumption | with_reducible apply Kept.same | simp only [kept_mk]

theorem State.launchEvent_kept (s : State) (id g cause : Nat) (h_s : s.kept P C) : (State.launchEvent s id g cause).kept P C := by
  unfold State.launchEvent
  repeat' first | with_reducible assumption | with_reducible apply State.postEvent_kept

theorem State.launchTx_kept (s : State) (op dst id low word : Nat) (h_s : s.kept P C) :
    (State.launchTx s op dst id low word).kept P C := by
  unfold State.launchTx
  repeat' first | with_reducible assumption | with_reducible apply State.sendTx_kept

theorem State.launchDoneCheck_kept (s : State) (id : Nat) (h_s : s.kept P C) : (State.launchDoneCheck s id).kept P C := by
  unfold State.launchDoneCheck
  repeat' first | with_reducible assumption | with_reducible apply State.endLongCode_kept
                | with_reducible apply State.setLaunch_kept | with_reducible apply State.launchTx_kept | split

theorem State.launchHeldCheck_kept (s : State) (id : Nat) (h_s : s.kept P C) : (State.launchHeldCheck s id).kept P C := by
  unfold State.launchHeldCheck
  repeat' first | with_reducible assumption | intro _ | with_reducible apply kept_ite
                | with_reducible apply State.endLongCode_kept | with_reducible apply State.setLaunch_kept
                | with_reducible apply State.launchDoneCheck_kept | split

theorem State.dropChild_kept (s : State) (id g : Nat) (h_s : s.kept P C) : (State.dropChild s id g).kept P C := by
  unfold State.dropChild
  repeat' first | with_reducible assumption | with_reducible apply State.setLaunch_kept
                | with_reducible apply State.launchEvent_kept | with_reducible apply State.launchDoneCheck_kept | split

theorem State.markLost_kept (s : State) (g cause : Nat) (h_s : s.kept P C) : (State.markLost s g cause).kept P C := by
  unfold State.markLost
  repeat' first | with_reducible assumption | intro _ | with_reducible apply kept_ite | with_reducible apply State.bump_kept
                | with_reducible apply State.postEvent_kept | with_reducible apply State.setOp_kept
                | with_reducible apply State.onFabric_kept | with_reducible apply State.afterWrites_kept
                | with_reducible apply State.dropChild_kept | with_reducible apply Kept.same | simp only [kept_mk]
                | with_reducible apply kept_foldl

theorem State.requestOrLose_kept (s : State) (l : ListId) (op req : Nat) (tx : Tx) (h_s : s.kept P C) :
    (State.requestOrLose s l op req tx).kept P C := by
  unfold State.requestOrLose
  repeat' first | with_reducible assumption | intro _ | with_reducible apply kept_ite
                | with_reducible apply State.request_kept | with_reducible apply State.markLost_kept

theorem State.setQueue_kept (s : State) (q : Nat) (x : Queue) (h_s : s.kept P C) : (State.setQueue s q x).kept P C := by
  unfold State.setQueue
  repeat' first | with_reducible assumption | with_reducible apply Kept.same | simp only [kept_mk]

theorem State.refreshEngine_kept (s : State) (t : Nat) (h_s : s.kept P C) : (State.refreshEngine s t).kept P C := by
  unfold State.refreshEngine
  repeat' first | with_reducible assumption | with_reducible apply State.setFld_kept

theorem State.spill_kept (s : State) (o : Origin) (counted : Bool) (q x : Nat) (bs : List Byte) (h_s : s.kept P C) :
    (State.spill s o counted q x bs).kept P C := by
  unfold State.spill
  repeat' first | with_reducible assumption | with_reducible apply State.bump64_kept | with_reducible apply State.write_kept
                | split

theorem State.writeBack_kept (s : State) (o : Origin) (q : Nat) (h_s : s.kept P C) : (State.writeBack s o q).kept P C := by
  unfold State.writeBack
  repeat' first | with_reducible assumption | intro _ | with_reducible apply State.setQueue_kept
                | with_reducible apply State.spill_kept | with_reducible apply kept_foldl

theorem State.saveRecord_kept (s : State) (o : Origin) (q : Nat) (h_s : s.kept P C) : (State.saveRecord s o q).kept P C := by
  unfold State.saveRecord
  repeat' first | with_reducible assumption | with_reducible apply State.write_kept | split

theorem State.evict_kept (s : State) (q : Nat) (h_s : s.kept P C) : (State.evict s q).kept P C := by
  unfold State.evict
  repeat' first | with_reducible assumption | with_reducible apply State.bump64_kept
                | with_reducible apply State.setQueue_kept | with_reducible apply State.writeBack_kept
                | with_reducible apply State.saveRecord_kept | with_reducible apply Kept.same | simp only [kept_mk]

theorem State.touch_kept (s : State) (q : Nat) (h_s : s.kept P C) : (State.touch s q).kept P C := by
  unfold State.touch
  repeat' first | with_reducible assumption | with_reducible apply Kept.same | simp only [kept_mk]

theorem State.giveSlot_kept (s : State) (q : Nat) (h_s : s.kept P C) : (State.giveSlot s q).1.kept P C := by
  unfold State.giveSlot
  repeat' first | with_reducible assumption | intro _ | with_reducible apply kept_ite_fst
                | with_reducible apply State.bump64_kept | with_reducible apply State.evict_kept
                | with_reducible apply State.touch_kept | split

theorem State.slotTaken_kept (s : State) (q : Nat) (h_s : s.kept P C) : (State.slotTaken s q).kept P C := by
  unfold State.slotTaken
  repeat' first | with_reducible assumption | with_reducible apply State.bump64_kept
                | with_reducible apply State.setQueue_kept | split

theorem State.needSlot_kept (s : State) (q : Nat) (h_s : s.kept P C) : (State.needSlot s q).kept P C := by
  unfold State.needSlot
  repeat' first | with_reducible assumption | intro _ | with_reducible apply kept_ite
                | with_reducible apply State.setQueue_kept | with_reducible apply State.refreshEngine_kept
                | with_reducible apply State.touch_kept | with_reducible apply State.giveSlot_kept
                | with_reducible apply State.slotTaken_kept | with_reducible refine kept_fst (by assumption) ?_ | split

theorem State.refillHead_kept (s : State) (q : Nat) (h_s : s.kept P C) : (State.refillHead s q).kept P C := by
  unfold State.refillHead
  repeat' first | with_reducible assumption | with_reducible apply State.setQueue_kept

theorem State.fetched_kept (s : State) (q : Nat) (h_s : s.kept P C) : (State.fetched s q).kept P C := by
  unfold State.fetched
  repeat' first | with_reducible assumption | with_reducible apply State.setQueue_kept
                | with_reducible apply State.refreshEngine_kept | with_reducible apply State.refillHead_kept

theorem State.residentNow_kept (s : State) (q : Nat) (h_s : s.kept P C) : (State.residentNow s q).1.kept P C := by
  unfold State.residentNow
  repeat' first | with_reducible assumption | with_reducible apply State.touch_kept
                | with_reducible apply State.giveSlot_kept | with_reducible apply State.fetched_kept
                | with_reducible refine kept_fst (by assumption) ?_ | split

theorem State.setStream_kept (s : State) (id : Nat) (st : Stream) (h_s : s.kept P C) : (State.setStream s id st).kept P C := by
  unfold State.setStream
  repeat' first | with_reducible assumption | with_reducible apply Kept.same | simp only [kept_mk]

theorem State.sendOnPort_kept (s : State) (id p at_ : Nat) (ipv6 : Bool) (dst : Nat × Nat) (bs : List Byte)
    (h_s : s.kept P C) :
    (State.sendOnPort s id p at_ ipv6 dst bs).1.kept P C := by
  unfold State.sendOnPort
  repeat' first | with_reducible assumption | with_reducible apply State.send_kept | with_reducible apply Kept.same
                | simp only [kept_mk]

theorem State.sendActuation_kept (s : State) (id : Nat) (st : Stream) (sched : Nat) (late : Bool) (e payload : List Byte)
    (h_s : s.kept P C) :
    (State.sendActuation s id st sched late e payload).kept P C := by
  unfold State.sendActuation
  repeat' first | with_reducible assumption | intro _ | with_reducible apply State.onRecord_kept
                | with_reducible apply State.setStream_kept | with_reducible apply State.sendOnPort_kept
                | with_reducible apply kept_foldl_fst

theorem State.freeFrame_kept (s : State) (q : Nat) (k : ActFrame) (h_s : s.kept P C) : (State.freeFrame s q k).kept P C := by
  unfold State.freeFrame
  repeat' first | with_reducible assumption | with_reducible apply State.setQueue_kept

theorem State.takeActuation_kept (s : State) (id : Nat) (k : ActFrame) (h_s : s.kept P C) :
    (State.takeActuation s id k).kept P C := by
  unfold State.takeActuation
  repeat' first | with_reducible assumption | with_reducible apply State.onRecord_kept
                | with_reducible apply State.setStream_kept | with_reducible apply State.sendActuation_kept
                | with_reducible apply State.freeFrame_kept | split

theorem State.takeDue_kept (s : State) (q : Nat) (n_ : Nat) (h_s : s.kept P C) : (State.takeDue s q n_).kept P C := by
  induction n_ generalizing s q with
  | zero =>
    unfold State.takeDue
    repeat' first | with_reducible assumption
  | succ n ih =>
    unfold State.takeDue
    repeat' first | with_reducible assumption | with_reducible apply ih | with_reducible apply State.takeActuation_kept
                  | split

theorem State.landStats_kept (s : State) (d : QDef) (x : Nat) (vs : List (Num × Tally)) (h_s : s.kept P C) :
    (State.landStats s d x vs).kept P C := by
  unfold State.landStats
  repeat' first | with_reducible assumption | intro _ | with_reducible apply kept_ite
                | with_reducible apply State.write_kept

theorem State.clearStats_kept (s : State) (d : QDef) (oldF newF : Nat) (h_s : s.kept P C) :
    (State.clearStats s d oldF newF).kept P C := by
  unfold State.clearStats
  repeat' first | with_reducible assumption | intro _ | with_reducible apply kept_ite
                | with_reducible apply State.write_kept | with_reducible apply kept_foldl

theorem State.release_kept (s : State) (q : Nat) (h_s : s.kept P C) : (State.release s q).kept P C := by
  unfold State.release
  repeat' first | with_reducible assumption | with_reducible apply State.setQueue_kept
                | with_reducible apply State.refreshEngine_kept | with_reducible apply State.takeDue_kept | split

theorem State.putEntry_kept (s : State) (o : Origin) (q pos : Nat) (bs : List Byte) (h_s : s.kept P C) :
    (State.putEntry s o q pos bs).kept P C := by
  unfold State.putEntry
  repeat' first | with_reducible assumption | intro _ | with_reducible apply kept_ite
                | with_reducible apply State.setQueue_kept | with_reducible apply State.spill_kept | split

theorem State.countLanding_kept (s : State) (o : Origin) (vs : List (Num × Tally)) (h_s : s.kept P C) :
    (State.countLanding s o vs).kept P C := by
  unfold State.countLanding
  repeat' first | with_reducible assumption | with_reducible apply State.setOp_kept | split

theorem State.landAt_kept (s : State) (o : Origin) (q pos : Nat) (h_s : s.kept P C) : (State.landAt s o q pos).kept P C := by
  unfold State.landAt
  repeat' first | with_reducible assumption | intro _ | with_reducible apply kept_ite
                | with_reducible apply State.setQueue_kept | with_reducible apply State.landStats_kept
                | with_reducible apply State.putEntry_kept | with_reducible apply State.countLanding_kept | split

theorem State.noteRoom_kept (s : State) (q : Nat) (h_s : s.kept P C) : (State.noteRoom s q).kept P C := by
  unfold State.noteRoom
  repeat' first | with_reducible assumption | intro _ | with_reducible apply kept_ite
                | with_reducible apply State.setQueue_kept

theorem State.deliver_kept (s : State) (d : Dequeue) (pos : Nat) (bs : List Byte) (h_s : s.kept P C) :
    (State.deliver s d pos bs).kept P C := by
  unfold State.deliver
  repeat' first | with_reducible assumption | with_reducible apply State.send_kept | with_reducible apply State.write_kept
                | with_reducible apply State.setOp_kept | with_reducible apply State.reply_kept | split

theorem State.failDeq_kept (s : State) (q : Nat) (d : Dequeue) (tile : Nat) (h_s : s.kept P C) :
    (State.failDeq s q d tile).kept P C := by
  unfold State.failDeq
  repeat' first | with_reducible assumption | with_reducible apply State.setOp_kept
                | with_reducible apply State.countBad_kept | with_reducible apply State.refuse_kept
                | with_reducible apply State.mark_kept | with_reducible apply State.setQueue_kept | simp only [kept_mk]
                | split

theorem State.serveDeq_kept (s : State) (q : Nat) (first : Nat) (ps : List Nat) (h_s : s.kept P C) :
    (State.serveDeq s q first ps).kept P C := by
  unfold State.serveDeq
  repeat' first | with_reducible assumption | intro _ | with_reducible apply State.setQueue_kept
                | with_reducible apply State.deliver_kept | with_reducible apply State.failDeq_kept | simp only [kept_mk]
                | with_reducible apply kept_foldl | split

theorem State.freeDone_kept (s : State) (q : Nat) (n_ : Nat) (h_s : s.kept P C) : (State.freeDone s q n_).kept P C := by
  induction n_ generalizing s q with
  | zero =>
    unfold State.freeDone
    repeat' first | with_reducible assumption
  | succ n ih =>
    unfold State.freeDone
    repeat' first | with_reducible assumption | with_reducible apply ih | with_reducible apply State.mark_kept
                  | with_reducible apply State.setQueue_kept | with_reducible apply State.clearStats_kept
                  | with_reducible apply Kept.same | simp only [kept_mk] | split

theorem State.serveDeqs_kept (s : State) (q : Nat) (h_s : s.kept P C) : (State.serveDeqs s q).kept P C := by
  unfold State.serveDeqs
  repeat' first | with_reducible assumption | intro _ | with_reducible apply kept_ite
                | with_reducible apply State.settle_kept | with_reducible apply State.noteRoom_kept
                | with_reducible apply State.serveDeq_kept | with_reducible apply State.freeDone_kept
                | with_reducible apply kept_foldl

theorem State.enqueueCheck_kept (s : State) (o : Origin) (h_s : s.kept P C) : (State.enqueueCheck s o).kept P C := by
  unfold State.enqueueCheck
  repeat' first | with_reducible assumption | with_reducible apply State.putOp_kept | split

theorem State.afterLanding_kept (s : State) (q : Nat) (o : Origin) (h_s : s.kept P C) : (State.afterLanding s q o).kept P C := by
  unfold State.afterLanding
  repeat' first | with_reducible assumption | with_reducible apply State.finishServes_kept
                | with_reducible apply State.release_kept | with_reducible apply State.serveDeqs_kept
                | with_reducible apply State.enqueueCheck_kept

theorem State.landAll_kept (s : State) (q start size : Nat) (o : Origin) (h_s : s.kept P C) :
    (State.landAll s q start size o).kept P C := by
  unfold State.landAll
  repeat' first | with_reducible assumption | intro _ | with_reducible apply State.landAt_kept
                | with_reducible apply State.afterLanding_kept | with_reducible apply kept_foldl

theorem State.reserve_kept (s : State) (q : Nat) (w : Reservation) (h_s : s.kept P C) : (State.reserve s q w).kept P C := by
  unfold State.reserve
  repeat' first | with_reducible assumption | with_reducible apply State.bump64_kept | with_reducible apply State.reply_kept
                | with_reducible apply State.mark_kept | with_reducible apply State.setQueue_kept
                | with_reducible apply State.refreshEngine_kept | with_reducible apply State.landAll_kept
                | with_reducible apply Kept.same | simp only [kept_mk] | split

theorem State.grantWaiting_kept (s : State) (q : Nat) (n_ : Nat) (h_s : s.kept P C) : (State.grantWaiting s q n_).kept P C := by
  induction n_ generalizing s q with
  | zero =>
    unfold State.grantWaiting
    repeat' first | with_reducible assumption
  | succ n ih =>
    unfold State.grantWaiting
    repeat' first | with_reducible assumption | with_reducible apply ih | with_reducible apply State.setQueue_kept
                  | with_reducible apply State.reserve_kept | split

theorem State.ask_kept (s : State) (q : Nat) (w : Reservation) (h_s : s.kept P C) : (State.ask s q w).kept P C := by
  unfold State.ask
  repeat' first | with_reducible assumption | intro _ | with_reducible apply kept_ite
                | with_reducible apply State.creditStall_kept | with_reducible apply State.setQueue_kept
                | with_reducible apply State.needSlot_kept | with_reducible apply State.noteRoom_kept
                | with_reducible apply State.grantWaiting_kept | split

theorem State.grants_kept (s : State) (q : Nat) (h_s : s.kept P C) : (State.grants s q).kept P C := by
  unfold State.grants
  repeat' first | with_reducible assumption | intro _ | with_reducible apply kept_ite
                | with_reducible apply State.needSlot_kept | with_reducible apply State.noteRoom_kept
                | with_reducible apply State.grantWaiting_kept

theorem State.retag_kept (s : State) (t : Nat) (g : Tag) (h_s : s.kept P C) : (State.retag s t g).kept P C := by
  unfold State.retag
  repeat' first | with_reducible assumption | intro _ | with_reducible apply kept_ite
                | with_reducible apply State.setTag_kept | with_reducible apply Kept.same | simp only [kept_mk]

theorem State.enqueueOp_kept (s : State) (o : InFlight) (isGlobal : Bool) (slot : Nat) (bytes : List Byte)
    (h_s : s.kept P C) :
    (State.enqueueOp s o isGlobal slot bytes).1.kept P C := by
  unfold State.enqueueOp
  repeat' first | with_reducible assumption | intro _ | with_reducible apply kept_ite_fst
                | with_reducible apply State.setOp_kept | with_reducible apply State.creditStall_kept
                | with_reducible apply State.ask_kept | split

theorem State.writeAside_kept (s : State) (o : InFlight) (d : XferOp) (c : ConvOut) (h_s : s.kept P C) :
    (State.writeAside s o d c).1.kept P C := by
  unfold State.writeAside
  repeat' first | with_reducible assumption | with_reducible apply State.writeOut_kept

theorem State.sendData_kept (s : State) (o : InFlight) (d : XferOp) (c : ConvOut) (crcAt : Nat → Option Word32)
    (h_s : s.kept P C) :
    (State.sendData s o d c crcAt).1.kept P C := by
  unfold State.sendData
  repeat' first | with_reducible assumption | with_reducible apply State.writeAside_kept

theorem State.deliverData_kept (s : State) (o : InFlight) (d : XferOp) (bytes : List Byte) (crcAt : Nat → Option Word32)
    (h_s : s.kept P C) :
    (State.deliverData s o d bytes crcAt).1.kept P C := by
  unfold State.deliverData
  repeat' first | with_reducible assumption | intro _ | with_reducible apply kept_ite_fst
                | with_reducible apply State.writeOut_kept | with_reducible apply State.retag_kept
                | with_reducible apply State.enqueueOp_kept | with_reducible apply State.writeAside_kept
                | with_reducible apply State.sendData_kept | with_reducible apply kept_foldl | split

theorem xferMove_kept (s : State) (o : InFlight) (d : XferOp) (h_s : s.kept P C) : (xferMove s o d).1.kept P C := by
  unfold xferMove
  repeat' first | with_reducible assumption | intro _ | with_reducible apply kept_ite_fst
                | with_reducible apply State.deliverData_kept | split

theorem xferDequeue_kept (s : State) (o : InFlight) (d : XferOp) (h_s : s.kept P C) : (xferDequeue s o d).1.kept P C := by
  unfold xferDequeue
  repeat' first | with_reducible assumption | with_reducible apply State.setOp_kept
                | with_reducible apply State.setQueue_kept | with_reducible apply State.needSlot_kept
                | with_reducible apply State.refillHead_kept | with_reducible apply State.serveDeqs_kept
                | simp only [kept_mk] | split

theorem State.rankArrive_kept (s : State) (w : RankWait) (h_s : s.kept P C) : (State.rankArrive s w).1.kept P C := by
  unfold State.rankArrive
  repeat' first | with_reducible assumption | intro _ | with_reducible apply kept_ite_fst
                | with_reducible apply State.atomic_kept | with_reducible apply Kept.same | simp only [kept_mk]

theorem xferAtomic_kept (s : State) (o : InFlight) (d : XferOp) (h_s : s.kept P C) : (xferAtomic s o d).1.kept P C := by
  unfold xferAtomic
  repeat' first | with_reducible assumption | with_reducible apply State.write_kept | with_reducible apply State.atomic_kept
                | with_reducible apply State.rankArrive_kept | simp only [kept_mk] | split

theorem State.rlcTouch_kept (s : State) (ls : List Nat) (h_s : s.kept P C) : (State.rlcTouch s ls).kept P C := by
  unfold State.rlcTouch
  repeat' first | with_reducible assumption | with_reducible apply State.onFabric_kept

theorem State.sendReq_kept (s : State) (o : InFlight) (r : Request) (h_s : s.kept P C) : (State.sendReq s o r).kept P C := by
  unfold State.sendReq
  repeat' first | with_reducible assumption | with_reducible apply State.bump64_kept | with_reducible apply State.send_kept
                | with_reducible apply State.setOp_kept | with_reducible apply State.requestOrLose_kept
                | with_reducible apply State.rlcTouch_kept | split

theorem State.pumpAll_kept (s : State) (n_ : Nat) (h_s : s.kept P C) : (State.pumpAll s n_).kept P C := by
  induction n_ generalizing s with
  | zero =>
    unfold State.pumpAll
    repeat' first | with_reducible assumption
  | succ n ih =>
    unfold State.pumpAll
    repeat' first | with_reducible assumption | with_reducible apply ih | with_reducible apply State.sendReq_kept
                  | with_reducible apply Kept.same | simp only [kept_mk] | split

theorem State.pump_kept (s : State) (l : ListId) (n : Nat) (h_s : s.kept P C) : (State.pump s l n).kept P C := by
  unfold State.pump
  repeat' first | with_reducible assumption | intro _ | with_reducible apply kept_ite
                | with_reducible apply State.bump64_kept | with_reducible apply State.pumpAll_kept

theorem State.finishXfer_kept (s : State) (o : InFlight) (h_s : s.kept P C) : (State.finishXfer s o).kept P C := by
  unfold State.finishXfer
  repeat' first | with_reducible assumption | intro _ | with_reducible apply kept_ite
                | with_reducible apply State.setOp_kept | with_reducible apply State.settle_kept
                | with_reducible apply State.putOp_kept | with_reducible apply State.deliverData_kept | split

theorem State.drive_kept (s : State) (l : ListId) (h_s : s.kept P C) : (State.drive s l).kept P C := by
  unfold State.drive
  repeat' first | with_reducible assumption | intro _ | with_reducible apply State.settle_kept
                | with_reducible apply State.pump_kept | with_reducible apply State.finishXfer_kept
                | with_reducible apply kept_foldl | split

theorem State.requestDone_kept (s : State) (o : InFlight) (num : Nat) (data : Option (List Byte)) (h_s : s.kept P C) :
    (State.requestDone s o num data).kept P C := by
  unfold State.requestDone
  repeat' first | with_reducible assumption | with_reducible apply State.setOp_kept | with_reducible apply State.drive_kept

theorem xferBody_kept (s : State) (o : InFlight) (h_s : s.kept P C) : (xferBody s o).1.kept P C := by
  unfold xferBody
  repeat' first | with_reducible assumption | intro _ | with_reducible apply kept_ite_fst
                | with_reducible apply xferMove_kept | with_reducible apply xferDequeue_kept
                | with_reducible apply xferAtomic_kept

theorem xferRun_kept (s : State) (o : InFlight) (h_s : s.kept P C) : (xferRun s o).1.kept P C := by
  unfold xferRun
  repeat' first | with_reducible assumption | intro _ | with_reducible apply kept_ite_fst
                | with_reducible apply State.verified_kept | with_reducible apply xferBody_kept

theorem State.issueXfer_kept (s : State) (l : ListId) (r : OpRecord) (kind : Nat) (h_s : s.kept P C) :
    (State.issueXfer s l r kind).kept P C := by
  unfold State.issueXfer
  repeat' first | with_reducible assumption | intro _ | with_reducible apply kept_ite
                | with_reducible apply State.issueOp_kept | with_reducible apply State.drive_kept
                | with_reducible apply xferRun_kept

theorem State.marrowBusy_kept (s : State) (l : ListId) (cycles : Nat) (h_s : s.kept P C) :
    (State.marrowBusy s l cycles).kept P C := by
  unfold State.marrowBusy
  repeat' first | with_reducible assumption | with_reducible apply State.bump64_kept

theorem State.streamEnqueue_kept (s : State) (o : InFlight) (op : ChainOp) (h_s : s.kept P C) :
    (State.streamEnqueue s o op).1.kept P C := by
  unfold State.streamEnqueue
  repeat' first | with_reducible assumption | intro _ | with_reducible apply State.setOp_kept
                | with_reducible apply State.writeOut_kept | with_reducible apply State.ask_kept | simp only [kept_mk]
                | with_reducible apply kept_foldl | split

theorem mstreamBody_kept (s : State) (o : InFlight) (h_s : s.kept P C) : (mstreamBody s o).1.kept P C := by
  unfold mstreamBody
  repeat' first | with_reducible assumption | with_reducible apply State.runDerive_kept
                | with_reducible apply State.runChain_kept | with_reducible apply State.marrowBusy_kept
                | with_reducible apply State.streamEnqueue_kept | simp only [kept_mk] | split

theorem mstreamRun_kept (s : State) (o : InFlight) (h_s : s.kept P C) : (mstreamRun s o).1.kept P C := by
  unfold mstreamRun
  repeat' first | with_reducible assumption | with_reducible apply State.verified_kept
                | with_reducible apply mstreamBody_kept

theorem State.writeStencil_kept (s : State) (o : InFlight) (op : StencilOp) (outs : List StencilPoint) (h_s : s.kept P C) :
    (State.writeStencil s o op outs).1.kept P C := by
  unfold State.writeStencil
  repeat' first | with_reducible assumption | with_reducible apply State.writeOut_kept

theorem mstencilBody_kept (s : State) (o : InFlight) (h_s : s.kept P C) : (mstencilBody s o).1.kept P C := by
  unfold mstencilBody
  repeat' first | with_reducible assumption | intro _ | with_reducible apply kept_ite_fst
                | with_reducible apply State.marrowBusy_kept | with_reducible apply State.writeStencil_kept

theorem mstencilRun_kept (s : State) (o : InFlight) (h_s : s.kept P C) : (mstencilRun s o).1.kept P C := by
  unfold mstencilRun
  repeat' first | with_reducible assumption | intro _ | with_reducible apply kept_ite_fst
                | with_reducible apply State.verified_kept | with_reducible apply mstencilBody_kept

theorem State.reduceOut_kept (s : State) (o : InFlight) (op : ReduceOp) (x : Num) (counted : Bool) (h_s : s.kept P C) :
    (State.reduceOut s o op x counted).1.kept P C := by
  unfold State.reduceOut
  repeat' first | with_reducible assumption | with_reducible apply State.writeOut_kept

theorem mreduceBody_kept (s : State) (o : InFlight) (h_s : s.kept P C) : (mreduceBody s o).1.kept P C := by
  unfold mreduceBody
  repeat' first | with_reducible assumption | intro _ | with_reducible apply kept_ite_fst
                | with_reducible apply State.writeRuns_kept | with_reducible apply State.marrowBusy_kept
                | with_reducible apply State.reduceOut_kept | simp only [kept_mk] | split

theorem mreduceRun_kept (s : State) (o : InFlight) (h_s : s.kept P C) : (mreduceRun s o).1.kept P C := by
  unfold mreduceRun
  repeat' first | with_reducible assumption | with_reducible apply State.verified_kept
                | with_reducible apply mreduceBody_kept

theorem mindexGatherBody_kept (s : State) (o : InFlight) (h_s : s.kept P C) : (mindexGatherBody s o).1.kept P C := by
  unfold mindexGatherBody
  repeat' first | with_reducible assumption | with_reducible apply State.writeOut_kept
                | with_reducible apply State.marrowBusy_kept | simp only [kept_mk] | split

theorem State.closeRecords_kept (s : State) (o : InFlight) (op : IndexOp) (records : List Nat) (cvs : List ConvOut)
    (h_s : s.kept P C) :
    (State.closeRecords s o op records cvs).1.kept P C := by
  unfold State.closeRecords
  repeat' first | with_reducible assumption | intro _ | with_reducible apply kept_ite
                | with_reducible apply State.writeStats_kept

theorem mindexScatterBody_kept (s : State) (o : InFlight) (h_s : s.kept P C) : (mindexScatterBody s o).1.kept P C := by
  unfold mindexScatterBody
  repeat' first | with_reducible assumption | intro _ | with_reducible apply State.write_kept
                | with_reducible apply State.marrowBusy_kept | with_reducible apply State.closeRecords_kept
                | simp only [kept_mk] | with_reducible apply kept_foldl | split

theorem mindexAtomicBody_kept (s : State) (o : InFlight) (h_s : s.kept P C) : (mindexAtomicBody s o).1.kept P C := by
  unfold mindexAtomicBody
  repeat' first | with_reducible assumption | intro _ | with_reducible apply State.atomic_kept
                | with_reducible apply State.rankArrive_kept | with_reducible apply State.marrowBusy_kept
                | with_reducible apply State.closeRecords_kept | simp only [kept_mk] | with_reducible apply kept_foldl_fst
                | with_reducible refine kept_fst (by assumption) ?_ | split

theorem mindexRun_kept (body : State → InFlight → State × InFlight) (s : State) (o : InFlight)
    (h_body : ∀ x0 x1, x0.kept P C → (body x0 x1).1.kept P C) (h_s : s.kept P C) :
    (mindexRun body s o).1.kept P C := by
  unfold mindexRun
  repeat' first | with_reducible assumption | with_reducible apply State.verified_kept

theorem mindexBody_kept (s : State) (o : InFlight) (h_s : s.kept P C) : (mindexBody s o).1.kept P C := by
  unfold mindexBody
  repeat' first | with_reducible assumption | intro _ | with_reducible apply kept_ite_fst
                | with_reducible apply mindexGatherBody_kept | with_reducible apply mindexScatterBody_kept
                | with_reducible apply mindexAtomicBody_kept

theorem State.tileSeal_kept (s : State) (o : InFlight) (op : TileOp) (h_s : s.kept P C) : (State.tileSeal s o op).1.kept P C := by
  unfold State.tileSeal
  repeat' first | with_reducible assumption | intro _ | with_reducible apply State.writePiece_kept
                | with_reducible apply kept_foldl

theorem State.tileVerify_kept (s : State) (o : InFlight) (op : TileOp) (h_s : s.kept P C) :
    (State.tileVerify s o op).1.kept P C := by
  unfold State.tileVerify
  repeat' first | with_reducible assumption | with_reducible apply State.writeRuns_kept
                | with_reducible apply State.countFails_kept | with_reducible apply State.countBad_kept

theorem State.tileZero_kept (s : State) (o : InFlight) (op : TileOp) (h_s : s.kept P C) : (State.tileZero s o op).1.kept P C := by
  unfold State.tileZero
  repeat' first | with_reducible assumption | with_reducible apply State.writeRuns_kept

theorem State.tileMigrate_kept (s : State) (o : InFlight) (op : TileOp) (h_s : s.kept P C) :
    (State.tileMigrate s o op).1.kept P C := by
  unfold State.tileMigrate
  repeat' first | with_reducible assumption | intro _ | with_reducible apply State.writePiece_kept
                | with_reducible apply State.copyBad_kept | with_reducible apply kept_foldl

theorem mtileBody_kept (s : State) (o : InFlight) (h_s : s.kept P C) : (mtileBody s o).1.kept P C := by
  unfold mtileBody
  repeat' first | with_reducible assumption | with_reducible apply State.marrowBusy_kept
                | with_reducible apply State.tileSeal_kept | with_reducible apply State.tileVerify_kept
                | with_reducible apply State.tileZero_kept | with_reducible apply State.tileMigrate_kept
                | simp only [kept_mk] | split

theorem mtileRun_kept (s : State) (o : InFlight) (h_s : s.kept P C) : (mtileRun s o).1.kept P C := by
  unfold mtileRun
  repeat' first | with_reducible assumption | intro _ | with_reducible apply kept_ite_fst
                | with_reducible apply State.verified_kept | with_reducible apply mtileBody_kept

theorem marrowBody_kept (s : State) (o : InFlight) (h_s : s.kept P C) : (marrowBody s o).1.kept P C := by
  unfold marrowBody
  repeat' first | with_reducible assumption | with_reducible apply mstreamBody_kept | with_reducible apply mstencilBody_kept
                | with_reducible apply mreduceBody_kept | with_reducible apply mindexBody_kept
                | with_reducible apply mtileBody_kept | split

theorem State.issueMarrow_kept (s : State) (l : ListId) (r : OpRecord) (opcode : Nat) (kind : Option Nat)
    (run : State → InFlight → State × InFlight) (h_s : s.kept P C) (h_run : ∀ x0 x1, x0.kept P C → (run x0 x1).1.kept P C) :
    (State.issueMarrow s l r opcode kind run).kept P C := by
  unfold State.issueMarrow
  repeat' first | with_reducible assumption | intro _ | with_reducible apply kept_ite
                | with_reducible apply State.issueOp_kept

end Sys2Proof.Machine
end

