-- ==== Sys2Proof/Laws/KeptFabric.lean ====
section
/-! SUPPORT. What faults, mailboxes, time, checkpoint, the plant framer, collectives, replies, power and links keep (Laws/Kept.lean). -/
namespace Sys2Proof.Machine

variable {P : List Instr} {C : Nat → Nat}

theorem State.logEntry_kept (s : State) (e : FaultEntry) (h_s : s.kept P C) : (State.logEntry s e).kept P C := by
  unfold State.logEntry
  apply State.bump64_kept
  rw [kept_mk]
  exact Kept.parts h_s id id id (fun _ => by simp only [List.length_drop]; omega) (fun _ => Nat.le_refl _)

theorem State.logFault_kept (s : State) (cls unit sub outcome absorb detail : Nat) (h_s : s.kept P C) :
    (State.logFault s cls unit sub outcome absorb detail).kept P C := by
  unfold State.logFault
  repeat' first | with_reducible assumption | with_reducible apply State.logEntry_kept

theorem State.absorb_kept (s : State) (cls unit sub outcome time detail : Nat) (h_s : s.kept P C) :
    (State.absorb s cls unit sub outcome time detail).kept P C := by
  unfold State.absorb
  repeat' first | with_reducible assumption | with_reducible apply State.bump64_kept
                | with_reducible apply State.excursion_kept | with_reducible apply State.startSlow_kept
                | with_reducible apply State.logFault_kept

theorem State.absorbWithin_kept (s : State) (cls unit sub outcome bound detail : Nat) (h_s : s.kept P C) :
    (State.absorbWithin s cls unit sub outcome bound detail).kept P C := by
  unfold State.absorbWithin
  repeat' first | with_reducible assumption | with_reducible apply State.upTo_kept | with_reducible apply State.absorb_kept

theorem State.absorbTile_kept (s : State) (tile : Nat) (h_s : s.kept P C) : (State.absorbTile s tile).kept P C := by
  unfold State.absorbTile
  repeat' first | with_reducible assumption | with_reducible apply State.absorbWithin_kept

theorem State.lostNotices_kept (s : State) (cause : Nat) (h_s : s.kept P C) : (State.lostNotices s cause).kept P C := by
  unfold State.lostNotices
  repeat' first | with_reducible assumption | intro _ | with_reducible apply State.sendTx_kept
                | with_reducible apply kept_foldl

theorem State.stopTickNow_kept (s : State) (h_s : s.kept P C) : (State.stopTickNow s).kept P C := by
  unfold State.stopTickNow
  repeat' first | with_reducible assumption | with_reducible apply State.setFld_kept | with_reducible apply Kept.same
                | simp only [kept_mk]

theorem State.endDevice_kept (s : State) (die : Nat) (h_s : s.kept P C) : (State.endDevice s die).kept P C := by
  unfold State.endDevice
  repeat' first | with_reducible assumption | with_reducible apply State.setDevState_kept
                | with_reducible apply State.postEvent_kept | with_reducible apply State.lostNotices_kept
                | with_reducible apply State.stopTickNow_kept

theorem State.endDeviceOther_kept (s : State) (h_s : s.kept P C) : (State.endDeviceOther s).kept P C := by
  unfold State.endDeviceOther
  repeat' first | with_reducible assumption | with_reducible apply State.upTo_kept
                | with_reducible apply State.endDevice_kept

theorem State.protectiveStop_kept (s : State) (stack celsius : Nat) (h_s : s.kept P C) :
    (State.protectiveStop s stack celsius).kept P C := by
  unfold State.protectiveStop
  repeat' first | with_reducible assumption | intro _ | with_reducible apply kept_ite
                | with_reducible apply State.setDevState_kept | with_reducible apply State.postEvent_kept
                | with_reducible apply State.lostNotices_kept | with_reducible apply State.stopTickNow_kept

theorem State.onHost_kept (s : State) (f : HostIf → HostIf) (h_s : s.kept P C) : (State.onHost s f).kept P C := by
  unfold State.onHost
  repeat' first | with_reducible assumption | with_reducible apply Kept.same | simp only [kept_mk]

theorem State.setPage_kept (s : State) (k off : Nat) (bs : List Byte) (h_s : s.kept P C) :
    (State.setPage s k off bs).kept P C := by
  unfold State.setPage
  repeat' first | with_reducible assumption | with_reducible apply State.onHost_kept

theorem State.setMbx_kept (s : State) (k : Nat) (v : Mbx) (h_s : s.kept P C) : (State.setMbx s k v).kept P C := by
  unfold State.setMbx
  repeat' first | with_reducible assumption | with_reducible apply State.onHost_kept

theorem State.setBusy_kept (s : State) (k : Nat) (on : Bool) (h_s : s.kept P C) : (State.setBusy s k on).kept P C := by
  unfold State.setBusy
  repeat' first | with_reducible assumption | with_reducible apply State.setFld_kept

theorem State.setDone_kept (s : State) (k : Nat) (on : Bool) (h_s : s.kept P C) : (State.setDone s k on).kept P C := by
  unfold State.setDone
  repeat' first | with_reducible assumption | with_reducible apply State.setFld_kept

theorem State.answer_kept (s : State) (k : Nat) (m : Msg) (status detail : Nat) (result : List Byte) (h_s : s.kept P C) :
    (State.answer s k m status detail result).kept P C := by
  unfold State.answer
  repeat' first | with_reducible assumption | intro _ | with_reducible apply kept_ite | with_reducible apply State.send_kept
                | with_reducible apply State.signalVector_kept | with_reducible apply State.onHost_kept
                | with_reducible apply State.setPage_kept | with_reducible apply State.setMbx_kept
                | with_reducible apply State.setBusy_kept | with_reducible apply State.setDone_kept

theorem State.done_kept (s : State) (k : Nat) (m : Msg) (result : List Byte) (h_s : s.kept P C) :
    (State.done s k m result).kept P C := by
  unfold State.done
  repeat' first | with_reducible assumption | with_reducible apply State.answer_kept

theorem State.reject_kept (s : State) (k : Nat) (m : Msg) (status detail : Nat) (h_s : s.kept P C) :
    (State.reject s k m status detail).kept P C := by
  unfold State.reject
  repeat' first | with_reducible assumption | with_reducible apply State.answer_kept

theorem State.wrongState_kept (s : State) (k : Nat) (m : Msg) (h_s : s.kept P C) : (State.wrongState s k m).kept P C := by
  unfold State.wrongState
  repeat' first | with_reducible assumption | with_reducible apply State.reject_kept

theorem State.badField_kept (s : State) (k : Nat) (m : Msg) (off : Nat) (h_s : s.kept P C) :
    (State.badField s k m off).kept P C := by
  unfold State.badField
  repeat' first | with_reducible assumption | with_reducible apply State.reject_kept

theorem State.command_kept (s : State) (k code : Nat) (want : Msg → Nat) (bad : State → Msg → Option Nat)
    (f : State → Msg → State) (h_s : s.kept P C) (h_f : ∀ x0 x1, x0.kept P C → (f x0 x1).kept P C) :
    (State.command s k code want bad f).kept P C := by
  unfold State.command
  repeat' first | with_reducible assumption | intro _ | with_reducible apply kept_ite | with_reducible apply h_f
                | with_reducible apply State.fresh_kept | with_reducible apply State.reject_kept
                | with_reducible apply State.wrongState_kept | with_reducible apply State.badField_kept | split

theorem State.plain_kept (s : State) (k code : Nat) (f : State → Msg → State) (h_s : s.kept P C)
    (h_f : ∀ x0 x1, x0.kept P C → (f x0 x1).kept P C) :
    (State.plain s k code f).kept P C := by
  unfold State.plain
  repeat' first | with_reducible assumption | with_reducible apply State.command_kept

theorem State.startLongExt_kept (s : State) (k : Nat) (m : Msg) (conflicts : List Nat) (ext : List Byte) (f : State → State)
    (h_s : s.kept P C) (h_f : ∀ x0, x0.kept P C → (f x0).kept P C) :
    (State.startLongExt s k m conflicts ext f).kept P C := by
  unfold State.startLongExt
  repeat' first | with_reducible assumption | with_reducible apply h_f | with_reducible apply State.onHost_kept
                | with_reducible apply State.answer_kept | with_reducible apply State.reject_kept | split

theorem State.startLong_kept (s : State) (k : Nat) (m : Msg) (conflicts : List Nat) (f : State → State) (h_s : s.kept P C)
    (h_f : ∀ x0, x0.kept P C → (f x0).kept P C) :
    (State.startLong s k m conflicts f).kept P C := by
  unfold State.startLong
  repeat' first | with_reducible assumption | with_reducible apply State.startLongExt_kept

theorem State.storageMoved_kept (s : State) (target read written : Nat) (h_s : s.kept P C) :
    (State.storageMoved s target read written).kept P C := by
  unfold State.storageMoved
  repeat' first | with_reducible assumption | with_reducible apply State.onHost_kept | split

theorem State.malformed_kept (s : State) (h_s : s.kept P C) : (State.malformed s).kept P C := by
  unfold State.malformed
  repeat' first | with_reducible assumption | with_reducible apply State.bump64_kept

theorem State.lostNotice_kept (s : State) (g : Nat) (h_s : s.kept P C) : (State.lostNotice s g).kept P C := by
  unfold State.lostNotice
  repeat' first | with_reducible assumption | with_reducible apply State.sendTx_kept

theorem State.passOn_kept (s : State) (tx : Tx) (h_s : s.kept P C) : (State.passOn s tx).kept P C := by
  unfold State.passOn
  repeat' first | with_reducible assumption | with_reducible apply State.sendBy_kept | split

theorem State.arrives_kept (s : State) (tx : Tx) (f : State → State) (h_s : s.kept P C)
    (h_f : ∀ x0, x0.kept P C → (f x0).kept P C) :
    (State.arrives s tx f).kept P C := by
  unfold State.arrives
  repeat' first | with_reducible assumption | intro _ | with_reducible apply kept_ite | with_reducible apply h_f
                | with_reducible apply State.passOn_kept

theorem State.serveRequest_kept (s : State) (tx : Tx) (type : Nat) (dup f : State → State) (h_s : s.kept P C)
    (h_dup : ∀ x0, x0.kept P C → (dup x0).kept P C) (h_f : ∀ x0, x0.kept P C → (f x0).kept P C) :
    (State.serveRequest s tx type dup f).kept P C := by
  unfold State.serveRequest
  repeat' first | with_reducible assumption | intro _ | with_reducible apply kept_ite | with_reducible apply h_dup
                | with_reducible apply h_f | with_reducible apply State.bump64_kept | with_reducible apply State.refuse_kept
                | with_reducible apply State.malformed_kept | with_reducible apply State.lostNotice_kept
                | with_reducible apply State.arrives_kept

theorem State.refuseRequest_kept (s : State) (tx : Tx) (status : Nat) (h_s : s.kept P C) :
    (State.refuseRequest s tx status).kept P C := by
  unfold State.refuseRequest
  repeat' first | with_reducible assumption | with_reducible apply State.refuse_kept | with_reducible apply State.mark_kept

theorem State.control_kept (s : State) (tx : Tx) (op : Nat) (f : State → State) (h_s : s.kept P C)
    (h_f : ∀ x0, x0.kept P C → (f x0).kept P C) :
    (State.control s tx op f).kept P C := by
  unfold State.control
  repeat' first | with_reducible assumption | intro _ | with_reducible apply kept_ite | with_reducible apply h_f
                | with_reducible apply State.malformed_kept | with_reducible apply State.arrives_kept

theorem State.arriveInOrder_kept (s : State) (tx : Tx) (h_s : s.kept P C) : (State.arriveInOrder s tx).kept P C := by
  unfold State.arriveInOrder
  repeat' first | with_reducible assumption | intro _ | with_reducible apply kept_ite
                | with_reducible apply State.onFabric_kept | with_reducible apply State.arrive_kept

theorem State.serveRead_kept (s : State) (tx : Tx) (h_s : s.kept P C) : (State.serveRead s tx).kept P C := by
  unfold State.serveRead
  repeat' first | with_reducible assumption | intro _ | with_reducible apply kept_ite
                | with_reducible apply State.noteTile_kept | with_reducible apply State.answerRead_kept
                | with_reducible apply State.refuseRequest_kept | with_reducible apply State.arriveInOrder_kept
                | with_reducible apply kept_foldl

theorem State.answerLater_kept (s : State) (tx : Tx) (h_s : s.kept P C) : (State.answerLater s tx).kept P C := by
  unfold State.answerLater
  repeat' first | with_reducible assumption | with_reducible apply State.onFabric_kept
                | with_reducible apply State.finishServes_kept

theorem State.serveWriteReq_kept (s : State) (tx : Tx) (h_s : s.kept P C) : (State.serveWriteReq s tx).kept P C := by
  unfold State.serveWriteReq
  repeat' first | with_reducible assumption | intro _ | with_reducible apply kept_ite
                | with_reducible apply State.write_kept | with_reducible apply State.refuseRequest_kept
                | with_reducible apply State.arriveInOrder_kept | with_reducible apply State.answerLater_kept

theorem State.launchWrite_kept (s : State) (id : Nat) (l : Launch) (tx : Tx) (h_s : s.kept P C) :
    (State.launchWrite s id l tx).kept P C := by
  unfold State.launchWrite
  repeat' first | with_reducible assumption | with_reducible apply State.write_kept
                | with_reducible apply State.answerWrite_kept | with_reducible apply State.setLaunch_kept
                | with_reducible apply State.launchHeldCheck_kept

theorem State.serveRanked_kept (s : State) (tx : Tx) (h_s : s.kept P C) : (State.serveRanked s tx).kept P C := by
  unfold State.serveRanked
  repeat' first | with_reducible assumption | with_reducible apply State.mark_kept | with_reducible apply State.journal_kept
                | with_reducible apply State.rankArrive_kept | with_reducible apply State.refuseRequest_kept
                | with_reducible apply State.answerLater_kept | simp only [kept_mk] | split

theorem State.serveAtomic_kept (s : State) (tx : Tx) (h_s : s.kept P C) : (State.serveAtomic s tx).kept P C := by
  unfold State.serveAtomic
  repeat' first | with_reducible assumption | intro _ | with_reducible apply kept_ite
                | with_reducible apply State.arrive_kept | with_reducible apply State.serveRanked_kept

theorem State.retryAtomic_kept (s : State) (tx : Tx) (h_s : s.kept P C) : (State.retryAtomic s tx).kept P C := by
  unfold State.retryAtomic
  repeat' first | with_reducible assumption | with_reducible apply State.bump64_kept | with_reducible apply State.reply_kept
                | with_reducible apply State.refuse_kept | split

theorem State.serveAtomicReq_kept (s : State) (tx : Tx) (h_s : s.kept P C) : (State.serveAtomicReq s tx).kept P C := by
  unfold State.serveAtomicReq
  repeat' first | with_reducible assumption | intro _ | with_reducible apply kept_ite
                | with_reducible apply State.onFabric_kept | with_reducible apply State.refuseRequest_kept
                | with_reducible apply State.serveAtomic_kept

theorem State.leekNext_kept (s : State) (h_s : s.kept P C) : (State.leekNext s).kept P C := by
  unfold State.leekNext
  repeat' first | with_reducible assumption | intro _ | with_reducible apply State.bump64_kept
                | with_reducible apply State.onFabric_kept | with_reducible apply State.arrive_kept
                | with_reducible apply State.serveAtomic_kept | with_reducible apply kept_foldl | split

theorem State.serveCredit_kept (s : State) (tx : Tx) (h_s : s.kept P C) : (State.serveCredit s tx).kept P C := by
  unfold State.serveCredit
  repeat' first | with_reducible assumption | with_reducible apply State.ask_kept
                | with_reducible apply State.refuseRequest_kept | simp only [kept_mk] | split

theorem State.repeatCredit_kept (s : State) (tx : Tx) (h_s : s.kept P C) : (State.repeatCredit s tx).kept P C := by
  unfold State.repeatCredit
  repeat' first | with_reducible assumption | with_reducible apply State.reply_kept | split

theorem State.takeEntries_kept (s : State) (q : Nat) (d : QDef) (k : Packet) (tx : Tx) (h_s : s.kept P C) :
    (State.takeEntries s q d k tx).kept P C := by
  unfold State.takeEntries
  repeat' first | with_reducible assumption | intro _ | with_reducible apply State.onFabric_kept
                | with_reducible apply State.setQueue_kept | with_reducible apply State.landAt_kept
                | with_reducible apply State.afterLanding_kept | with_reducible apply kept_foldl

theorem State.serveEnqueue_kept (s : State) (tx : Tx) (h_s : s.kept P C) : (State.serveEnqueue s tx).kept P C := by
  unfold State.serveEnqueue
  repeat' first | with_reducible assumption | with_reducible apply State.refuseRequest_kept
                | with_reducible apply State.takeEntries_kept | simp only [kept_mk] | split

theorem State.repeatDequeue_kept (s : State) (tx : Tx) (h_s : s.kept P C) : (State.repeatDequeue s tx).kept P C := by
  unfold State.repeatDequeue
  repeat' first | with_reducible assumption | intro _ | with_reducible apply State.reply_kept | simp only [kept_mk]
                | with_reducible apply kept_foldl | split

theorem State.serveDequeue_kept (s : State) (tx : Tx) (h_s : s.kept P C) : (State.serveDequeue s tx).kept P C := by
  unfold State.serveDequeue
  repeat' first | with_reducible assumption | intro _ | with_reducible apply kept_ite
                | with_reducible apply State.bump64_kept | with_reducible apply State.setQueue_kept
                | with_reducible apply State.needSlot_kept | with_reducible apply State.refillHead_kept
                | with_reducible apply State.serveDeqs_kept | with_reducible apply State.refuseRequest_kept
                | with_reducible apply State.repeatDequeue_kept

theorem State.serveNow_kept (s : State) (tx : Tx) (h_s : s.kept P C) : (State.serveNow s tx).kept P C := by
  unfold State.serveNow
  repeat' first | with_reducible assumption | with_reducible apply State.serveRead_kept
                | with_reducible apply State.serveWriteReq_kept | with_reducible apply State.serveAtomicReq_kept
                | with_reducible apply State.serveCredit_kept | with_reducible apply State.serveEnqueue_kept
                | with_reducible apply State.serveDequeue_kept | split

theorem State.takeRequest_kept (s : State) (since : Nat) (tx : Tx) (h_s : s.kept P C) :
    (State.takeRequest s since tx).kept P C := by
  unfold State.takeRequest
  repeat' first | with_reducible assumption | intro _ | with_reducible apply kept_ite
                | with_reducible apply State.onFabric_kept | with_reducible apply State.serveNow_kept

theorem State.releaseHeld_kept (s : State) (h_s : s.kept P C) : (State.releaseHeld s).kept P C := by
  unfold State.releaseHeld
  repeat' first | with_reducible assumption | intro _ | with_reducible apply State.onFabric_kept
                | with_reducible apply State.takeRequest_kept | with_reducible apply kept_foldl

theorem State.goOn_kept (s : State) (h_s : s.kept P C) : (State.goOn s).kept P C := by
  unfold State.goOn
  repeat' first | with_reducible assumption | with_reducible apply State.afterWrites_kept
                | with_reducible apply State.releaseHeld_kept

theorem State.setTimeState_kept (s : State) (v : Nat) (h_s : s.kept P C) : (State.setTimeState s v).kept P C := by
  unfold State.setTimeState
  repeat' first | with_reducible assumption | intro _ | with_reducible apply kept_ite
                | with_reducible apply State.setFld_kept | with_reducible apply State.excursion_kept
                | with_reducible apply Kept.same | simp only [kept_mk]

theorem State.timeFault_kept (s : State) (o : Int) (h_s : s.kept P C) : (State.timeFault s o).kept P C := by
  unfold State.timeFault
  repeat' first | with_reducible assumption | with_reducible apply State.postEvent_kept

theorem State.shiftTime_kept (s : State) (o : Int) (h_s : s.kept P C) : (State.shiftTime s o).kept P C := by
  unfold State.shiftTime
  repeat' first | with_reducible assumption | with_reducible apply State.setReg_kept
                | with_reducible apply State.settleWaits_kept | with_reducible apply State.markWaits_kept

theorem State.stepTime_kept (s : State) (o : Int) (h_s : s.kept P C) : (State.stepTime s o).kept P C := by
  unfold State.stepTime
  repeat' first | with_reducible assumption | with_reducible apply State.setTimeState_kept
                | with_reducible apply State.shiftTime_kept

theorem State.steer_kept (s : State) (h_s : s.kept P C) : (State.steer s).kept P C := by
  unfold State.steer
  repeat' first | with_reducible assumption | with_reducible apply State.upTo_kept | with_reducible apply Kept.same
                | simp only [kept_mk]

theorem State.passNs_kept (s : State) (h_s : s.kept P C) : (State.passNs s).kept P C := by
  unfold State.passNs
  repeat' first | with_reducible assumption | with_reducible apply State.at__kept | with_reducible apply Kept.same
                | simp only [kept_mk]

theorem State.goodTime_kept (s : State) (h_s : s.kept P C) : (State.goodTime s).kept P C := by
  unfold State.goodTime
  repeat' first | with_reducible assumption | intro _ | with_reducible apply kept_ite
                | with_reducible apply State.setTimeState_kept | with_reducible apply Kept.same | simp only [kept_mk]

theorem State.measure_kept (s : State) (o : Int) (ok : Bool) (h_s : s.kept P C) : (State.measure s o ok).kept P C := by
  unfold State.measure
  repeat' first | with_reducible assumption | with_reducible apply State.setTimeState_kept
                | with_reducible apply State.timeFault_kept | with_reducible apply State.stepTime_kept
                | with_reducible apply State.steer_kept | with_reducible apply State.goodTime_kept
                | with_reducible apply Kept.same | simp only [kept_mk] | split

theorem State.loseTime_kept (s : State) (h_s : s.kept P C) : (State.loseTime s).kept P C := by
  unfold State.loseTime
  repeat' first | with_reducible assumption | intro _ | with_reducible apply kept_ite
                | with_reducible apply State.setTimeState_kept | with_reducible apply Kept.same | simp only [kept_mk]

theorem State.hearClock_kept (s : State) (p : Nat) (r : PtpRank) (h_s : s.kept P C) : (State.hearClock s p r).kept P C := by
  unfold State.hearClock
  repeat' first | with_reducible assumption | intro _ | with_reducible apply kept_ite | with_reducible apply Kept.same
                | simp only [kept_mk]

theorem State.setSecond_kept (s : State) (o : Int) (h_s : s.kept P C) : (State.setSecond s o).kept P C := by
  unfold State.setSecond
  repeat' first | with_reducible assumption | intro _ | with_reducible apply kept_ite
                | with_reducible apply State.shiftTime_kept

theorem State.ptpOffset_kept (s : State) (p : Nat) (o : Int) (h_s : s.kept P C) : (State.ptpOffset s p o).kept P C := by
  unfold State.ptpOffset
  repeat' first | with_reducible assumption | intro _ | with_reducible apply kept_ite
                | with_reducible apply State.measure_kept | with_reducible apply State.setSecond_kept

theorem State.sendTime_kept (s : State) (lead : Nat) (ps : List Nat) (h_s : s.kept P C) :
    (State.sendTime s lead ps).kept P C := by
  unfold State.sendTime
  repeat' first | with_reducible assumption | intro _ | with_reducible apply State.sendBy_kept
                | with_reducible apply kept_foldl

theorem State.onCkpt_kept (s : State) (f : Ckpt → Ckpt) (h_s : s.kept P C) : (State.onCkpt s f).kept P C := by
  unfold State.onCkpt
  repeat' first | with_reducible assumption | with_reducible apply Kept.same | simp only [kept_mk]

theorem State.captureQueue_kept (s : State) (q : Nat) (h_s : s.kept P C) : (State.captureQueue s q).kept P C := by
  unfold State.captureQueue
  repeat' first | with_reducible assumption | with_reducible apply State.setQueue_kept
                | with_reducible apply State.writeBack_kept | with_reducible apply State.saveRecord_kept | split

theorem State.setSlot_kept (s : State) (i : Nat) (x : Slot) (h_s : s.kept P C) : (State.setSlot s i x).kept P C := by
  unfold State.setSlot
  repeat' first | with_reducible assumption | with_reducible apply State.setReg_kept
                | with_reducible apply State.onCkpt_kept

theorem State.toModule_kept (s : State) (n : Nat) (h_s : s.kept P C) : (State.toModule s n).kept P C := by
  unfold State.toModule
  repeat' first | with_reducible assumption | with_reducible apply State.bump64_kept

theorem State.writeManifest_kept (s : State) (t : Nat) (h_s : s.kept P C) : (State.writeManifest s t).kept P C := by
  unfold State.writeManifest
  repeat' first | with_reducible assumption | with_reducible apply State.setFld_kept | with_reducible apply State.send_kept
                | with_reducible apply State.setSlot_kept | with_reducible apply State.toModule_kept | split

theorem State.ckpIdle_kept (s : State) (h_s : s.kept P C) : (State.ckpIdle s).kept P C := by
  unfold State.ckpIdle
  repeat' first | with_reducible assumption | with_reducible apply State.setFld_kept | split

theorem State.undefine_kept (s : State) (a n : Nat) (h_s : s.kept P C) : (State.undefine s a n).kept P C := by
  unfold State.undefine
  repeat' first | with_reducible assumption | with_reducible apply State.write_kept | with_reducible apply Kept.same
                | simp only [kept_mk]

theorem State.endRestore_kept (s : State) (status detail : Nat) (h_s : s.kept P C) :
    (State.endRestore s status detail).kept P C := by
  unfold State.endRestore
  repeat' first | with_reducible assumption | with_reducible apply State.setFld_kept
                | with_reducible apply State.endLongCode_kept | with_reducible apply State.ckpIdle_kept

theorem State.failRestore_kept (s : State) (status detail : Nat) (h_s : s.kept P C) :
    (State.failRestore s status detail).kept P C := by
  unfold State.failRestore
  repeat' first | with_reducible assumption | intro _ | with_reducible apply State.undefine_kept
                | with_reducible apply State.endRestore_kept | with_reducible apply kept_foldl

theorem State.dropRestore_kept (s : State) (h_s : s.kept P C) : (State.dropRestore s).kept P C := by
  unfold State.dropRestore
  repeat' first | with_reducible assumption | intro _ | with_reducible apply kept_ite
                | with_reducible apply State.setFld_kept

theorem State.dropCheckpoint_kept (s : State) (status : Nat) (h_s : s.kept P C) : (State.dropCheckpoint s status).kept P C := by
  unfold State.dropCheckpoint
  repeat' first | with_reducible assumption | intro _ | with_reducible apply kept_ite
                | with_reducible apply State.setReg_kept | with_reducible apply State.setFld_kept
                | with_reducible apply State.setQueue_kept | with_reducible apply State.goOn_kept
                | with_reducible apply State.onCkpt_kept | with_reducible apply State.ckpIdle_kept
                | with_reducible apply kept_foldl

theorem State.failCheckpoint_kept (s : State) (status detail : Nat) (event : Bool) (h_s : s.kept P C) :
    (State.failCheckpoint s status detail event).kept P C := by
  unfold State.failCheckpoint
  repeat' first | with_reducible assumption | intro _ | with_reducible apply kept_ite
                | with_reducible apply State.postEvent_kept | with_reducible apply State.endLongCode_kept
                | with_reducible apply State.dropCheckpoint_kept

theorem State.endExport_kept (s : State) (status detail : Nat) (h_s : s.kept P C) :
    (State.endExport s status detail).kept P C := by
  unfold State.endExport
  repeat' first | with_reducible assumption | intro _ | with_reducible apply kept_ite
                | with_reducible apply State.setFld_kept | with_reducible apply State.endLongCode_kept
                | with_reducible apply State.onCkpt_kept

theorem State.dropFrame_kept (s : State) (h_s : s.kept P C) : (State.dropFrame s).kept P C := by
  unfold State.dropFrame
  repeat' first | with_reducible assumption | with_reducible apply State.onRecord_kept

theorem State.dropFor_kept (s : State) (id : Nat) (st : Stream) (h_s : s.kept P C) : (State.dropFor s id st).kept P C := by
  unfold State.dropFor
  repeat' first | with_reducible assumption | with_reducible apply State.setStream_kept
                | with_reducible apply State.dropFrame_kept

theorem State.landFrame_kept (s : State) (q : Nat) (entries : List (List Byte)) (h_s : s.kept P C) :
    (State.landFrame s q entries).1.kept P C := by
  unfold State.landFrame
  repeat' first | with_reducible assumption | intro _ | with_reducible apply kept_ite_fst
                | with_reducible apply State.residentNow_kept | with_reducible apply State.landAll_kept
                | with_reducible apply State.reserve_kept | with_reducible refine kept_fst (by assumption) ?_ | split

theorem State.takeFrame_kept (s : State) (d : Datagram) (h_s : s.kept P C) : (State.takeFrame s d).kept P C := by
  unfold State.takeFrame
  repeat' first | with_reducible assumption | with_reducible apply State.onRecord_kept
                | with_reducible apply State.setStream_kept | with_reducible apply State.dropFrame_kept
                | with_reducible apply State.dropFor_kept | with_reducible apply State.landFrame_kept | simp only [kept_mk]
                | with_reducible refine kept_fst (by assumption) ?_ | split

theorem State.collWrite_kept (s : State) (o : InFlight) (dst : Nat) (bs : List Byte) (h_s : s.kept P C) :
    (State.collWrite s o dst bs).1.kept P C := by
  unfold State.collWrite
  repeat' first | with_reducible assumption | intro _ | with_reducible apply kept_ite_fst
                | with_reducible apply State.writeRuns_kept

theorem State.dropColl_kept (s : State) (c : Coll) (h_s : s.kept P C) : (State.dropColl s c).kept P C := by
  unfold State.dropColl
  repeat' first | with_reducible assumption | with_reducible apply Kept.same | simp only [kept_mk]

theorem State.setColl_kept (s : State) (c : Coll) (h_s : s.kept P C) : (State.setColl s c).kept P C := by
  unfold State.setColl
  repeat' first | with_reducible assumption | with_reducible apply Kept.same | simp only [kept_mk]

theorem State.collCheck_kept (s : State) (o : InFlight) (c : Coll) (h_s : s.kept P C) : (State.collCheck s o c).1.kept P C := by
  unfold State.collCheck
  repeat' first | with_reducible assumption | intro _ | with_reducible apply kept_ite_fst
                | with_reducible apply State.collWrite_kept | with_reducible apply State.dropColl_kept

theorem State.runColl_kept (s : State) (c : Coll) (h_s : s.kept P C) : (State.runColl s c).kept P C := by
  unfold State.runColl
  repeat' first | with_reducible assumption | with_reducible apply State.setOp_kept | with_reducible apply State.drive_kept
                | with_reducible apply State.collCheck_kept | split

theorem State.takePiece_kept (s : State) (c : Coll) (t : Tx) (h_s : s.kept P C) : (State.takePiece s c t).kept P C := by
  unfold State.takePiece
  repeat' first | with_reducible assumption | intro _ | with_reducible apply kept_ite
                | with_reducible apply State.setOp_kept | with_reducible apply State.putOp_kept
                | with_reducible apply State.drive_kept | with_reducible apply State.collWrite_kept
                | with_reducible apply State.dropColl_kept | with_reducible apply State.setColl_kept
                | with_reducible apply State.runColl_kept | split

theorem collRun_kept (s : State) (o : InFlight) (h_s : s.kept P C) : (collRun s o).1.kept P C := by
  unfold collRun
  repeat' first | with_reducible assumption | intro _ | with_reducible apply State.setOp_kept
                | with_reducible apply State.collCheck_kept | with_reducible apply State.takePiece_kept
                | with_reducible apply Kept.same | simp only [kept_mk] | with_reducible apply kept_foldl | split

theorem collStart_kept (s : State) (o : InFlight) (h_s : s.kept P C) : (collStart s o).1.kept P C := by
  unfold collStart
  repeat' first | with_reducible assumption | intro _ | with_reducible apply kept_ite_fst
                | with_reducible apply State.verified_kept | with_reducible apply collRun_kept

theorem State.issueColl_kept (s : State) (l : ListId) (r : OpRecord) (kind : Nat) (h_s : s.kept P C) :
    (State.issueColl s l r kind).kept P C := by
  unfold State.issueColl
  repeat' first | with_reducible assumption | intro _ | with_reducible apply kept_ite
                | with_reducible apply State.issueOp_kept | with_reducible apply State.drive_kept
                | with_reducible apply collStart_kept

theorem State.takeContribution_kept (s : State) (tx : Tx) (h_s : s.kept P C) : (State.takeContribution s tx).kept P C := by
  unfold State.takeContribution
  repeat' first | with_reducible assumption | with_reducible apply State.putOp_kept
                | with_reducible apply State.dropColl_kept | with_reducible apply State.takePiece_kept
                | with_reducible apply Kept.same | simp only [kept_mk] | split

theorem State.startCredits_kept (s : State) (h_s : s.kept P C) : (State.startCredits s).kept P C := by
  unfold State.startCredits
  repeat' first | with_reducible assumption | intro _ | with_reducible apply State.setOp_kept
                | with_reducible apply State.drive_kept | with_reducible apply kept_foldl | split

theorem State.takeRefusal_kept (s : State) (o : InFlight) (r : OutReq) (status : Nat) (h_s : s.kept P C) :
    (State.takeRefusal s o r status).kept P C := by
  unfold State.takeRefusal
  repeat' first | with_reducible assumption | with_reducible apply State.postEvent_kept
                | with_reducible apply State.setOp_kept | with_reducible apply State.drive_kept | split

theorem State.takeReply_kept (s : State) (o : InFlight) (r : OutReq) (tx : Tx) (h_s : s.kept P C) :
    (State.takeReply s o r tx).kept P C := by
  unfold State.takeReply
  repeat' first | with_reducible assumption | with_reducible apply State.write_kept
                | with_reducible apply State.requestDone_kept | split

theorem State.takeEntry_kept (s : State) (o : InFlight) (r : OutReq) (tx : Tx) (h_s : s.kept P C) :
    (State.takeEntry s o r tx).kept P C := by
  unfold State.takeEntry
  repeat' first | with_reducible assumption | intro _ | with_reducible apply kept_ite | with_reducible apply State.send_kept
                | with_reducible apply State.write_kept | with_reducible apply State.setOp_kept
                | with_reducible apply State.onFabric_kept | with_reducible apply State.requestDone_kept | split

theorem State.afterReply_kept (s : State) (g : Nat) (h_s : s.kept P C) : (State.afterReply s g).kept P C := by
  unfold State.afterReply
  repeat' first | with_reducible assumption | with_reducible apply State.sendWaiting_kept
                | with_reducible apply State.startCredits_kept

theorem State.takeAnswer_kept (s : State) (r : OutReq) (tx : Tx) (h_s : s.kept P C) : (State.takeAnswer s r tx).kept P C := by
  unfold State.takeAnswer
  repeat' first | with_reducible assumption | with_reducible apply State.onFabric_kept
                | with_reducible apply State.dropChild_kept | with_reducible apply State.takeRefusal_kept
                | with_reducible apply State.takeReply_kept | with_reducible apply State.takeEntry_kept | split

theorem State.endSpacing_kept (s : State) (home : Nat) (h_s : s.kept P C) : (State.endSpacing s home).kept P C := by
  unfold State.endSpacing
  repeat' first | with_reducible assumption | with_reducible apply State.bump64_kept
                | with_reducible apply State.sendWaiting_kept

theorem State.reroute_kept (old s : State) (h_old : old.kept P C) (h_s : s.kept P C) : (State.reroute old s).kept P C := by
  unfold State.reroute
  repeat' first | with_reducible assumption | intro _ | with_reducible apply kept_ite
                | with_reducible apply State.noteSpares_kept | with_reducible apply State.resend_kept
                | with_reducible apply State.markLost_kept | with_reducible apply kept_foldl

theorem State.onPower_kept (s : State) (f : Power → Power) (h_s : s.kept P C) : (State.onPower s f).kept P C := by
  unfold State.onPower
  repeat' first | with_reducible assumption | with_reducible apply Kept.same | simp only [kept_mk]

theorem State.countIntervene_kept (s : State) (h_s : s.kept P C) : (State.countIntervene s).kept P C := by
  unfold State.countIntervene
  repeat' first | with_reducible assumption | with_reducible apply State.bump64_kept
                | with_reducible apply State.onPower_kept | split

theorem State.refreshPower_kept (s : State) (h_s : s.kept P C) : (State.refreshPower s).kept P C := by
  unfold State.refreshPower
  repeat' first | with_reducible assumption | intro _ | with_reducible apply kept_ite
                | with_reducible apply State.setFld_kept | with_reducible apply State.excursion_kept
                | with_reducible apply State.beginSlow_kept | with_reducible apply State.endSlow_kept
                | with_reducible apply State.settleWaits_kept | with_reducible apply State.onPower_kept
                | with_reducible apply State.countIntervene_kept | with_reducible apply kept_foldl

theorem State.stepDown_kept (s : State) (h_s : s.kept P C) : (State.stepDown s).1.kept P C := by
  unfold State.stepDown
  repeat' first | with_reducible assumption | intro _ | with_reducible apply kept_ite_fst
                | with_reducible apply State.onPower_kept

theorem State.stepUp_kept (s : State) (h_s : s.kept P C) : (State.stepUp s).kept P C := by
  unfold State.stepUp
  repeat' first | with_reducible assumption | with_reducible apply State.onPower_kept

theorem State.applyCap_kept (s : State) (h_s : s.kept P C) : (State.applyCap s).kept P C := by
  unfold State.applyCap
  repeat' first | with_reducible assumption | with_reducible apply State.setFld_kept
                | with_reducible apply State.onPower_kept | split

theorem State.countEnergy_kept (s : State) (watts : Nat) (h_s : s.kept P C) : (State.countEnergy s watts).kept P C := by
  unfold State.countEnergy
  repeat' first | with_reducible assumption | with_reducible apply State.bump64_kept
                | with_reducible apply State.onPower_kept

theorem State.balance_kept (s : State) (watts : Nat) (h_s : s.kept P C) : (State.balance s watts).kept P C := by
  unfold State.balance
  repeat' first | with_reducible assumption | with_reducible apply State.setFld_kept
                | with_reducible apply State.onPower_kept | with_reducible apply State.stepDown_kept
                | with_reducible apply State.stepUp_kept | simp only [kept_mk]
                | with_reducible refine kept_fst (by assumption) ?_ | split

theorem State.redirect_kept (s : State) (txs : List Tx) (h_s : s.kept P C) : (State.redirect s txs).kept P C := by
  unfold State.redirect
  repeat' first | with_reducible assumption | intro _ | with_reducible apply kept_ite
                | with_reducible apply State.sendTx_kept | with_reducible apply kept_foldl

theorem State.portDown_kept (s : State) (p : Nat) (h_s : s.kept P C) : (State.portDown s p).kept P C := by
  unfold State.portDown
  repeat' first | with_reducible assumption | with_reducible apply State.setFld_kept
                | with_reducible apply State.setPort_kept | with_reducible apply State.reroute_kept
                | with_reducible apply State.announce_kept | with_reducible apply State.redirect_kept

theorem State.absorbPort_kept (s : State) (p : Nat) (h_s : s.kept P C) : (State.absorbPort s p).kept P C := by
  unfold State.absorbPort
  repeat' first | with_reducible assumption | intro _ | with_reducible apply kept_ite
                | with_reducible apply State.absorbWithin_kept

theorem State.endLaneTest_kept (s : State) (p : Nat) (h_s : s.kept P C) : (State.endLaneTest s p).kept P C := by
  unfold State.endLaneTest
  repeat' first | with_reducible assumption | intro _ | with_reducible apply kept_ite
                | with_reducible apply State.setFld_kept | with_reducible apply State.setPort_kept

theorem State.retrainTo_kept (s : State) (p n : Nat) (h_s : s.kept P C) : (State.retrainTo s p n).kept P C := by
  unfold State.retrainTo
  repeat' first | with_reducible assumption | with_reducible apply State.setFld_kept
                | with_reducible apply State.setPort_kept | with_reducible apply State.announce_kept

theorem State.stopLaneTests_kept (s : State) (p : Nat) (h_s : s.kept P C) : (State.stopLaneTests s p).kept P C := by
  unfold State.stopLaneTests
  repeat' first | with_reducible assumption | intro _ | with_reducible apply kept_ite
                | with_reducible apply State.endLaneTest_kept | with_reducible apply State.retrainTo_kept
                | with_reducible apply kept_foldl

theorem State.linkAcked_kept (s : State) (p ack : Nat) (h_s : s.kept P C) : (State.linkAcked s p ack).kept P C := by
  unfold State.linkAcked
  repeat' first | with_reducible assumption | intro _ | with_reducible apply kept_ite
                | with_reducible apply State.setPort_kept | with_reducible apply State.flushPort_kept

theorem State.nakked_kept (s : State) (p : Nat) (h_s : s.kept P C) : (State.nakked s p).kept P C := by
  unfold State.nakked
  repeat' first | with_reducible assumption | intro _ | with_reducible apply kept_ite
                | with_reducible apply State.bump64_kept | with_reducible apply State.send_kept
                | with_reducible apply State.setPort_kept | with_reducible apply State.onRecord_kept
                | with_reducible apply State.portDown_kept | with_reducible apply State.absorbPort_kept

theorem State.takeFlit_kept (s : State) (p : Nat) (bs : List Byte) (h_s : s.kept P C) : (State.takeFlit s p bs).kept P C := by
  unfold State.takeFlit
  repeat' first | with_reducible assumption | intro _ | with_reducible apply kept_ite
                | with_reducible apply State.bump64_kept | with_reducible apply State.send_kept
                | with_reducible apply State.setPort_kept

end Sys2Proof.Machine
end

