-- ==== Sys2Proof/Laws/KeptTick.lean ====
section
/-! SUPPORT. What stacks, sparing and the tick keep (Laws/Kept.lean). -/
namespace Sys2Proof.Machine

variable {P : List Instr} {C : Nat → Nat}

theorem State.onMemory_kept (s : State) (f : Memory → Memory) (h_s : s.kept P C) : (State.onMemory s f).kept P C := by
  unfold State.onMemory
  repeat' first | with_reducible assumption | with_reducible apply Kept.same | simp only [kept_mk]

theorem State.refreshPool_kept (s : State) (st : Nat) (h_s : s.kept P C) : (State.refreshPool s st).kept P C := by
  unfold State.refreshPool
  repeat' first | with_reducible assumption | with_reducible apply State.setFld_kept

theorem State.usePages_kept (s : State) (st n : Nat) (h_s : s.kept P C) : (State.usePages s st n).kept P C := by
  unfold State.usePages
  repeat' first | with_reducible assumption | with_reducible apply State.onMemory_kept
                | with_reducible apply State.refreshPool_kept

theorem State.freePool_kept (s : State) (st n : Nat) (h_s : s.kept P C) : (State.freePool s st n).kept P C := by
  unfold State.freePool
  repeat' first | with_reducible assumption | with_reducible apply State.onMemory_kept
                | with_reducible apply State.refreshPool_kept

theorem State.useReserve_kept (s : State) (st : Nat) (h_s : s.kept P C) : (State.useReserve s st).kept P C := by
  unfold State.useReserve
  repeat' first | with_reducible assumption | intro _ | with_reducible apply State.fresh_kept
                | with_reducible apply State.usePages_kept | with_reducible apply kept_foldl_fst

theorem State.mapOut_kept (s : State) (st ch : Nat) (h_s : s.kept P C) : (State.mapOut s st ch).kept P C := by
  unfold State.mapOut
  repeat' first | with_reducible assumption | intro _ | with_reducible apply kept_ite
                | with_reducible apply State.setFld_kept | with_reducible apply State.logFault_kept
                | with_reducible apply State.onMemory_kept | with_reducible apply State.useReserve_kept

theorem State.mapStuck_kept (s : State) (h_s : s.kept P C) : (State.mapStuck s).kept P C := by
  unfold State.mapStuck
  repeat' first | with_reducible assumption | intro _ | with_reducible apply State.mapOut_kept
                | with_reducible apply kept_foldl

theorem State.retirePage_kept (s : State) (st ch page addr : Nat) (h_s : s.kept P C) :
    (State.retirePage s st ch page addr).kept P C := by
  unfold State.retirePage
  repeat' first | with_reducible assumption | intro _ | with_reducible apply kept_ite
                | with_reducible apply State.setFld_kept | with_reducible apply State.bump_kept
                | with_reducible apply State.absorbWithin_kept | with_reducible apply State.onMemory_kept
                | with_reducible apply State.usePages_kept | with_reducible apply State.mapOut_kept

theorem State.keepRetired_kept (s : State) (st ch page : Nat) (h_s : s.kept P C) : (State.keepRetired s st ch page).kept P C := by
  unfold State.keepRetired
  repeat' first | with_reducible assumption | intro _ | with_reducible apply kept_ite | with_reducible apply State.bump_kept
                | with_reducible apply State.onMemory_kept | with_reducible apply State.refreshPool_kept
                | with_reducible apply State.mapOut_kept

theorem State.pageFault_kept (s : State) (st ch page : Nat) (h_s : s.kept P C) : (State.pageFault s st ch page).kept P C := by
  unfold State.pageFault
  repeat' first | with_reducible assumption | intro _ | with_reducible apply kept_ite
                | with_reducible apply State.setFld_kept | with_reducible apply State.bump_kept
                | with_reducible apply State.onMemory_kept | with_reducible apply State.freePool_kept
                | with_reducible apply State.keepRetired_kept | with_reducible apply kept_foldl

theorem State.rowFails_kept (s0 : State) (st ch pc row addr : Nat) (h_s0 : s0.kept P C) :
    (State.rowFails s0 st ch pc row addr).kept P C := by
  unfold State.rowFails
  repeat' first | with_reducible assumption | intro _ | with_reducible apply kept_ite | with_reducible apply State.bump_kept
                | with_reducible apply State.absorbWithin_kept | with_reducible apply State.onMemory_kept
                | with_reducible apply State.retirePage_kept | with_reducible apply State.pageFault_kept
                | with_reducible refine Kept.mram ?_ rfl rfl | simp only [kept_mk]

theorem State.findBad_kept (s : State) (a n : Nat) (h_s : s.kept P C) : (State.findBad s a n).kept P C := by
  unfold State.findBad
  repeat' first | with_reducible assumption | with_reducible apply State.fresh_kept | with_reducible apply State.upTo_kept
                | with_reducible apply State.onMemory_kept

theorem State.badRead_kept (s : State) (ls : List (Nat × Nat × Nat × Nat)) (h_s : s.kept P C) :
    (State.badRead s ls).kept P C := by
  unfold State.badRead
  repeat' first | with_reducible assumption | intro _ | with_reducible apply State.bump32_kept
                | with_reducible apply State.rowFails_kept | with_reducible apply kept_foldl

theorem State.noteCool_kept (s : State) (st : Nat) (h_s : s.kept P C) : (State.noteCool s st).kept P C := by
  unfold State.noteCool
  repeat' first | with_reducible assumption | with_reducible apply State.onMemory_kept

theorem State.enterStep_kept (s : State) (st step : Nat) (h_s : s.kept P C) : (State.enterStep s st step).kept P C := by
  unfold State.enterStep
  repeat' first | with_reducible assumption | with_reducible apply State.setFld_kept
                | with_reducible apply State.excursion_kept | with_reducible apply State.beginSlow_kept
                | with_reducible apply State.refreshPower_kept

theorem State.onTests_kept (s : State) (f : Tests → Tests) (h_s : s.kept P C) : (State.onTests s f).kept P C := by
  unfold State.onTests
  repeat' first | with_reducible assumption | with_reducible apply Kept.same | simp only [kept_mk]

theorem State.refreshDie_kept (s : State) (die : Nat) (h_s : s.kept P C) : (State.refreshDie s die).kept P C := by
  unfold State.refreshDie
  repeat' first | with_reducible assumption | with_reducible apply State.setFld_kept

theorem State.retireCore_kept (s : State) (die phys : Nat) (h_s : s.kept P C) : (State.retireCore s die phys).kept P C := by
  unfold State.retireCore
  repeat' first | with_reducible assumption | intro _ | with_reducible apply kept_ite
                | with_reducible apply State.onTests_kept | with_reducible apply State.refreshDie_kept
                | with_reducible refine Kept.mram ?_ rfl rfl | simp only [kept_mk]

theorem State.setActive_kept (s : State) (c : Nat) (on : Bool) (h_s : s.kept P C) : (State.setActive s c on).kept P C := by
  unfold State.setActive
  repeat' first | with_reducible assumption | with_reducible apply State.setFld_kept

theorem State.setDeferred_kept (s : State) (c : Nat) (on : Bool) (h_s : s.kept P C) : (State.setDeferred s c on).kept P C := by
  unfold State.setDeferred
  repeat' first | with_reducible assumption | with_reducible apply State.setFld_kept

theorem State.unitTested_kept (s : State) (c : Nat) (h_s : s.kept P C) : (State.unitTested s c).kept P C := by
  unfold State.unitTested
  repeat' first | with_reducible assumption | intro _ | with_reducible apply kept_ite
                | with_reducible apply State.setFld_kept | with_reducible apply State.bump_kept
                | with_reducible apply State.onTests_kept

theorem State.testFailed_kept (s : State) (cls unit sub detail : Nat) (h_s : s.kept P C) :
    (State.testFailed s cls unit sub detail).kept P C := by
  unfold State.testFailed
  repeat' first | with_reducible assumption | with_reducible apply State.bump64_kept
                | with_reducible apply State.logFault_kept

theorem State.startTest_kept (s : State) (c : Nat) (hot can : Bool) (f : State → State) (h_s : s.kept P C)
    (h_f : ∀ x0, x0.kept P C → (f x0).kept P C) :
    (State.startTest s c hot can f).kept P C := by
  unfold State.startTest
  repeat' first | with_reducible assumption | intro _ | with_reducible apply kept_ite | with_reducible apply h_f
                | with_reducible apply State.setActive_kept | with_reducible apply State.setDeferred_kept

theorem State.refreshCoreTest_kept (s : State) (h_s : s.kept P C) : (State.refreshCoreTest s).kept P C := by
  unfold State.refreshCoreTest
  repeat' first | with_reducible assumption | with_reducible apply State.setActive_kept

theorem State.migrate_kept (s : State) (n target : Nat) (fault : Bool) (h_s : s.kept P C) :
    (State.migrate s n target fault).kept P C := by
  unfold State.migrate
  repeat' first | with_reducible assumption | with_reducible apply State.setFld_kept
                | with_reducible apply State.onTests_kept | with_reducible apply State.refreshDie_kept

theorem State.startTransfers_kept (s : State) (h_s : s.kept P C) : (State.startTransfers s).kept P C := by
  unfold State.startTransfers
  repeat' first | with_reducible assumption | intro _ | with_reducible apply State.setOp_kept
                | with_reducible apply State.drive_kept | with_reducible apply xferRun_kept
                | with_reducible apply collStart_kept | with_reducible apply kept_foldl | split

theorem State.storesOpen_kept (s : State) (h_s : s.kept P C) : (State.storesOpen s).kept P C := by
  unfold State.storesOpen
  repeat' first | with_reducible assumption | with_reducible apply State.goOn_kept
                | with_reducible apply State.startTransfers_kept

theorem State.stopCoreTests_kept (s : State) (keep : Option Nat) (h_s : s.kept P C) : (State.stopCoreTests s keep).kept P C := by
  unfold State.stopCoreTests
  repeat' first | with_reducible assumption | intro _ | with_reducible apply State.setFld_kept
                | with_reducible apply State.onTests_kept | with_reducible apply State.refreshDie_kept
                | with_reducible apply State.refreshCoreTest_kept | with_reducible apply State.storesOpen_kept
                | with_reducible apply kept_foldl

theorem State.coreLost_kept (s : State) (n phys : Nat) (h_s : s.kept P C) : (State.coreLost s n phys).kept P C := by
  unfold State.coreLost
  repeat' first | with_reducible assumption | with_reducible apply State.setFld_kept
                | with_reducible apply State.logFault_kept | with_reducible apply State.endDevice_kept
                | with_reducible apply State.retireCore_kept

theorem State.rescueCore_kept (s : State) (n phys : Nat) (h_s : s.kept P C) : (State.rescueCore s n phys).kept P C := by
  unfold State.rescueCore
  repeat' first | with_reducible assumption | with_reducible apply State.absorbWithin_kept
                | with_reducible apply State.migrate_kept | with_reducible apply State.coreLost_kept | split

theorem State.refreshMarrow_kept (s : State) (st : Nat) (h_s : s.kept P C) : (State.refreshMarrow s st).kept P C := by
  unfold State.refreshMarrow
  repeat' first | with_reducible assumption | with_reducible apply State.setFld_kept

theorem State.moveList_kept (s : State) (m e : Nat) (h_s : s.kept P C) : (State.moveList s m e).kept P C := by
  unfold State.moveList
  repeat' first | with_reducible assumption | with_reducible apply State.setFld_kept | with_reducible apply State.bump_kept

theorem State.evacuate_kept (s : State) (st e : Nat) (h_s : s.kept P C) : (State.evacuate s st e).kept P C := by
  unfold State.evacuate
  repeat' first | with_reducible assumption | intro _ | with_reducible apply State.setFld_kept
                | with_reducible apply State.moveList_kept | with_reducible apply kept_foldl | split

theorem State.moveMarrow_kept (s : State) (h_s : s.kept P C) : (State.moveMarrow s).kept P C := by
  unfold State.moveMarrow
  repeat' first | with_reducible assumption | intro _ | with_reducible apply kept_ite
                | with_reducible apply State.excursion_kept | with_reducible apply State.onTests_kept
                | with_reducible apply State.refreshMarrow_kept | with_reducible apply State.moveList_kept
                | with_reducible apply State.evacuate_kept | with_reducible apply kept_foldl

theorem State.onTick_kept (s : State) (f : TickSt → TickSt) (h_s : s.kept P C) : (State.onTick s f).kept P C := by
  unfold State.onTick
  repeat' first | with_reducible assumption | with_reducible apply Kept.same | simp only [kept_mk]

theorem State.onCores_kept (s : State) (f : Cores → Cores) (h_s : s.kept P C) : (State.onCores s f).kept P C := by
  unfold State.onCores
  repeat' first | with_reducible assumption | with_reducible apply Kept.same | simp only [kept_mk]

theorem State.closeRecord_kept (s : State) (h_s : s.kept P C) : (State.closeRecord s).kept P C := by
  unfold State.closeRecord
  repeat' first | with_reducible assumption | with_reducible apply State.write_kept | with_reducible apply State.upTo_kept
                | with_reducible apply State.onTick_kept | simp only [kept_mk] | split

theorem State.openRecord_kept (s : State) (k : Nat) (h_s : s.kept P C) : (State.openRecord s k).kept P C := by
  unfold State.openRecord
  repeat' first | with_reducible assumption | with_reducible apply State.onTick_kept

theorem State.applyChange_kept (s : State) (c : Change) (h_s : s.kept P C) : (State.applyChange s c).kept P C := by
  unfold State.applyChange
  repeat' first | with_reducible assumption | with_reducible apply State.onFabric_kept | with_reducible apply Kept.same
                | simp only [kept_mk] | split

theorem State.applyChanges_kept (s : State) (k : Nat) (h_s : s.kept P C) : (State.applyChanges s k).kept P C := by
  unfold State.applyChanges
  repeat' first | with_reducible assumption | intro _ | with_reducible apply State.applyChange_kept
                | with_reducible apply Kept.same | simp only [kept_mk] | with_reducible apply kept_foldl

theorem State.applyTestSetting_kept (s : State) (h_s : s.kept P C) : (State.applyTestSetting s).kept P C := by
  unfold State.applyTestSetting
  repeat' first | with_reducible assumption | with_reducible apply State.setFld_kept
                | with_reducible apply State.onTests_kept | split

theorem State.releasePhase_kept (s : State) (p : Nat) (h_s : s.kept P C) : (State.releasePhase s p).kept P C := by
  unfold State.releasePhase
  repeat' first | with_reducible assumption | intro _ | with_reducible apply kept_ite
                | with_reducible apply State.setFld_kept | with_reducible apply State.setSeq_kept
                | with_reducible apply kept_foldl

theorem State.latchStart_kept (s : State) (h_s : s.kept P C) : (State.latchStart s).kept P C := by
  unfold State.latchStart
  repeat' first | with_reducible assumption | with_reducible apply Kept.same | simp only [kept_mk]

theorem State.startSeqs_kept (s : State) (h_s : s.kept P C) : (State.startSeqs s).kept P C := by
  unfold State.startSeqs
  repeat' first | with_reducible assumption | intro _ | with_reducible apply State.setFld_kept
                | with_reducible apply State.seqTo_kept | with_reducible apply State.onCores_kept
                | with_reducible apply Kept.filterRegs | simp only [kept_mk] | with_reducible apply kept_foldl

theorem State.startStep_kept (s : State) (h_s : s.kept P C) : (State.startStep s).kept P C := by
  unfold State.startStep
  repeat' first | with_reducible assumption | intro _ | with_reducible apply kept_ite
                | with_reducible apply State.excursion_kept | with_reducible apply State.refreshPhases_kept
                | with_reducible apply State.checkStepEnd_kept | with_reducible apply State.onTick_kept
                | with_reducible apply State.releasePhase_kept | with_reducible apply State.latchStart_kept
                | with_reducible apply State.startSeqs_kept | with_reducible apply Kept.same | simp only [kept_mk]
                | with_reducible apply kept_foldl

theorem State.latchQueues_kept (s : State) (h_s : s.kept P C) : (State.latchQueues s).kept P C := by
  unfold State.latchQueues
  repeat' first | with_reducible assumption | with_reducible apply Kept.same | simp only [kept_mk]

theorem State.abortStep_kept (s : State) (h_s : s.kept P C) : (State.abortStep s).kept P C := by
  unfold State.abortStep
  repeat' first | with_reducible assumption | intro _ | with_reducible apply State.setSeq_kept
                | with_reducible apply State.refreshEngine_kept | with_reducible apply State.onTick_kept
                | with_reducible apply Kept.same | simp only [kept_mk] | with_reducible apply kept_foldl

theorem State.restoreUndo_kept (s : State) (h_s : s.kept P C) : (State.restoreUndo s).kept P C := by
  unfold State.restoreUndo
  repeat' first | with_reducible assumption | intro _ | with_reducible apply State.restoreImage_kept
                | with_reducible apply kept_foldl

theorem State.decideOverrun_kept (s : State) (h_s : s.kept P C) : (State.decideOverrun s).kept P C := by
  unfold State.decideOverrun
  repeat' first | with_reducible assumption | intro _ | with_reducible apply kept_ite | with_reducible apply State.bump_kept
                | with_reducible apply State.recordFlag_kept | with_reducible apply State.postEvent_kept
                | with_reducible apply State.triggerPeers_kept | with_reducible apply State.enterStopped_kept
                | with_reducible apply State.onTick_kept

theorem State.trigger_kept (s : State) (tx : Tx) (op : Nat) (f : State → State) (h_s : s.kept P C)
    (h_f : ∀ x0, x0.kept P C → (f x0).kept P C) :
    (State.trigger s tx op f).kept P C := by
  unfold State.trigger
  repeat' first | with_reducible assumption | intro _ | with_reducible apply kept_ite | with_reducible apply h_f
                | with_reducible apply State.malformed_kept | with_reducible apply State.arrives_kept

theorem State.boundary_kept (s : State) (k : Nat) (h_s : s.kept P C) : (State.boundary s k).kept P C := by
  unfold State.boundary
  repeat' first | with_reducible assumption | intro _ | with_reducible apply kept_ite
                | with_reducible apply State.setFld_kept | with_reducible apply State.setDevState_kept
                | with_reducible apply State.moveMarrow_kept | with_reducible apply State.onTick_kept
                | with_reducible apply State.closeRecord_kept | with_reducible apply State.openRecord_kept
                | with_reducible apply State.applyChanges_kept | with_reducible apply State.applyTestSetting_kept
                | with_reducible apply State.latchQueues_kept

theorem State.skipTick_kept (s : State) (h_s : s.kept P C) : (State.skipTick s).kept P C := by
  unfold State.skipTick
  repeat' first | with_reducible assumption | with_reducible apply State.recordFlag_kept

theorem State.dropMarks_kept (s : State) (k : Nat) (h_s : s.kept P C) : (State.dropMarks s k).kept P C := by
  unfold State.dropMarks
  repeat' first | with_reducible assumption | with_reducible apply State.onTick_kept

theorem State.startOrHalt_kept (s : State) (k : Nat) (h_s : s.kept P C) : (State.startOrHalt s k).kept P C := by
  unfold State.startOrHalt
  repeat' first | with_reducible assumption | intro _ | with_reducible apply kept_ite
                | with_reducible apply State.setFld_kept | with_reducible apply State.onTick_kept
                | with_reducible apply State.startStep_kept | with_reducible apply State.latchQueues_kept
                | with_reducible apply State.skipTick_kept | with_reducible apply State.dropMarks_kept

theorem State.abortAt_kept (s : State) (h_s : s.kept P C) : (State.abortAt s).kept P C := by
  unfold State.abortAt
  repeat' first | with_reducible assumption | intro _ | with_reducible apply kept_ite
                | with_reducible apply State.setFld_kept | with_reducible apply State.recordFlag_kept
                | with_reducible apply State.onRecord_kept | with_reducible apply State.abortStep_kept

theorem State.stopTick_kept (s : State) (h_s : s.kept P C) : (State.stopTick s).kept P C := by
  unfold State.stopTick
  repeat' first | with_reducible assumption | intro _ | with_reducible apply kept_ite
                | with_reducible apply State.setFld_kept | with_reducible apply State.setDevState_kept
                | with_reducible apply State.refreshPower_kept | with_reducible apply State.onTick_kept
                | with_reducible apply State.closeRecord_kept | with_reducible apply State.restoreUndo_kept
                | with_reducible apply Kept.same | simp only [kept_mk]

theorem State.takeSource_kept (s : State) (body : List Byte) (h_s : s.kept P C) : (State.takeSource s body).kept P C := by
  unfold State.takeSource
  repeat' first | with_reducible assumption | with_reducible apply State.setFld_kept
                | with_reducible apply State.setTimeState_kept | with_reducible apply Kept.same | simp only [kept_mk]

theorem State.arm_kept (s : State) (m : Msg) (h_s : s.kept P C) : (State.arm s m).kept P C := by
  unfold State.arm
  repeat' first | with_reducible assumption | with_reducible apply State.setReg_kept
                | with_reducible apply State.setFld_kept | with_reducible apply State.refreshPower_kept
                | with_reducible apply State.onTick_kept | with_reducible apply Kept.same | simp only [kept_mk]

theorem State.asOf_kept (s : State) (t : Nat) (h_s : s.kept P C) : (State.asOf s t).kept P C := by
  unfold State.asOf
  repeat' first | with_reducible assumption | with_reducible apply State.applyChanges_kept

theorem State.accept_kept (s : State) (t : Nat) (c : Change) (h_s : s.kept P C) : (State.accept s t c).kept P C := by
  unfold State.accept
  repeat' first | with_reducible assumption | with_reducible apply Kept.same | simp only [kept_mk]

end Sys2Proof.Machine
end

