-- ==== Sys2Proof/Laws/KeptHost.lean ====
section
/-! SUPPORT. What admission, job reset, the device commands, launches, resets, debug and the home of queue traffic keep (Laws/Kept.lean). -/
namespace Sys2Proof.Machine

variable {P : List Instr} {C : Nat → Nat}

theorem State.clearJobRegs_kept (s : State) (h_s : s.kept P C) : (State.clearJobRegs s).kept P C := by
  unfold State.clearJobRegs
  repeat' first | with_reducible assumption | intro _ | with_reducible apply State.setFld_kept
                | with_reducible apply Kept.filterRegs | simp only [kept_mk] | with_reducible apply kept_foldl

theorem State.setBacking_kept (s : State) (backed : List Nat) (h_s : s.kept P C) : (State.setBacking s backed).kept P C := by
  unfold State.setBacking
  repeat' first | with_reducible assumption | intro _ | with_reducible apply State.setReg_kept
                | with_reducible apply kept_foldl

theorem State.drawNonce_kept (s : State) (h_s : s.kept P C) : (State.drawNonce s).kept P C := by
  unfold State.drawNonce
  repeat' first | with_reducible assumption | intro _ | with_reducible apply State.setReg_kept
                | with_reducible apply State.fresh_kept | with_reducible apply kept_foldl

theorem State.zeroFill_kept (s : State) (a n : Nat) (h_s : s.kept P C) : (State.zeroFill s a n).kept P C := by
  unfold State.zeroFill
  repeat' first | with_reducible assumption | intro _ | with_reducible apply State.setTag_kept
                | with_reducible apply Kept.filter | simp only [kept_mk] | with_reducible apply kept_foldl

theorem State.load_kept (s : State) (a : Nat) (bs : List Byte) (seals : Bool) (h_s : s.kept P C) :
    (State.load s a bs seals).kept P C := by
  unfold State.load
  repeat' first | with_reducible assumption | intro _ | with_reducible apply kept_ite
                | with_reducible apply State.setTag_kept | with_reducible apply State.write_kept
                | with_reducible apply kept_foldl

theorem State.loadSect_kept (s : State) (x : Sect) (h_s : s.kept P C) : (State.loadSect s x).kept P C := by
  unfold State.loadSect
  repeat' first | with_reducible assumption | with_reducible apply State.load_kept | with_reducible apply Kept.same
                | simp only [kept_mk] | split

theorem State.placeImage_kept (s : State) (im : StepImage) (backed : List Nat) (h_s : s.kept P C) :
    (State.placeImage s im backed).kept P C := by
  unfold State.placeImage
  repeat' first | with_reducible assumption | intro _ | with_reducible apply State.setFld_kept
                | with_reducible apply State.setBacking_kept | with_reducible apply Kept.filter | simp only [kept_mk]
                | with_reducible apply kept_foldl

theorem State.startQueues_kept (s : State) (im : StepImage) (h_s : s.kept P C) : (State.startQueues s im).kept P C := by
  unfold State.startQueues
  repeat' first | with_reducible assumption | intro _ | with_reducible apply kept_ite
                | with_reducible apply State.setQueue_kept | with_reducible apply State.refreshEngine_kept
                | with_reducible apply State.touch_kept | with_reducible apply Kept.same | simp only [kept_mk]
                | with_reducible apply kept_foldl

theorem State.startPeers_kept (s : State) (im : StepImage) (h_s : s.kept P C) : (State.startPeers s im).kept P C := by
  unfold State.startPeers
  repeat' first | with_reducible assumption | with_reducible apply Kept.same | simp only [kept_mk] | split

theorem State.loadJob_kept (s : State) (im : StepImage) (backed : List Nat) (h_s : s.kept P C) :
    (State.loadJob s im backed).kept P C := by
  unfold State.loadJob
  repeat' first | with_reducible assumption | intro _ | with_reducible apply State.setReg_kept
                | with_reducible apply State.setFld_kept | with_reducible apply State.setDevState_kept
                | with_reducible apply State.markWaits_kept | with_reducible apply State.clearJobRegs_kept
                | with_reducible apply State.drawNonce_kept | with_reducible apply State.zeroFill_kept
                | with_reducible apply State.loadSect_kept | with_reducible apply State.placeImage_kept
                | with_reducible apply State.startQueues_kept | with_reducible apply State.startPeers_kept
                | with_reducible apply Kept.same | with_reducible apply Kept.filterTags | simp only [kept_mk]
                | with_reducible apply kept_foldl

theorem State.unbind_kept (s : State) (h_s : s.kept P C) : (State.unbind s).kept P C := by
  unfold State.unbind
  repeat' first | with_reducible assumption | with_reducible apply State.setFld_kept
                | with_reducible apply State.setDevState_kept

theorem State.finishAdmit_kept (s : State) (l : Long) (img blk : List Byte) (staged : Nat × Nat) (h_s : s.kept P C) :
    (State.finishAdmit s l img blk staged).kept P C := by
  unfold State.finishAdmit
  repeat' first | with_reducible assumption | with_reducible apply State.endLong_kept
                | with_reducible apply State.loadJob_kept | with_reducible apply State.unbind_kept | split

theorem State.endAdmit_kept (s : State) (l : Long) (h_s : s.kept P C) : (State.endAdmit s l).kept P C := by
  unfold State.endAdmit
  repeat' first | with_reducible assumption | intro _ | with_reducible apply kept_ite
                | with_reducible apply State.finishAdmit_kept

theorem State.beginAdmit_kept (s : State) (h_s : s.kept P C) : (State.beginAdmit s).kept P C := by
  unfold State.beginAdmit
  repeat' first | with_reducible assumption | with_reducible apply State.setFld_kept
                | with_reducible apply State.setDevState_kept

theorem State.hardRepair_kept (s : State) (h_s : s.kept P C) : (State.hardRepair s).kept P C := by
  unfold State.hardRepair
  repeat' first | with_reducible assumption | intro _ | with_reducible apply State.setFld_kept
                | with_reducible refine Kept.mram ?_ rfl rfl | simp only [kept_mk] | with_reducible apply kept_foldl

theorem State.trainPort_kept (s : State) (p : Nat) (h_s : s.kept P C) : (State.trainPort s p).kept P C := by
  unfold State.trainPort
  repeat' first | with_reducible assumption | with_reducible apply State.setFld_kept
                | with_reducible apply State.setPort_kept | with_reducible apply State.announce_kept
                | with_reducible apply State.redirect_kept

theorem State.standBy_kept (s : State) (h_s : s.kept P C) : (State.standBy s).kept P C := by
  unfold State.standBy
  repeat' first | with_reducible assumption | intro _ | with_reducible apply kept_ite
                | with_reducible apply State.setFld_kept | with_reducible apply State.announce_kept
                | with_reducible apply Kept.same | simp only [kept_mk] | with_reducible apply kept_foldl

theorem State.setDebug_kept (s : State) (level : Nat) (h_s : s.kept P C) : (State.setDebug s level).kept P C := by
  unfold State.setDebug
  repeat' first | with_reducible assumption | intro _ | with_reducible apply kept_ite
                | with_reducible apply State.setReg_kept | with_reducible apply State.setFld_kept

theorem State.abandonLongs_kept (s : State) (h_s : s.kept P C) : (State.abandonLongs s).kept P C := by
  unfold State.abandonLongs
  repeat' first | with_reducible assumption | intro _ | with_reducible apply State.endLong_kept
                | with_reducible apply State.failCheckpoint_kept | with_reducible apply State.endExport_kept
                | with_reducible apply State.dropRestore_kept | with_reducible apply kept_foldl

theorem State.dropJob_kept (s : State) (h_s : s.kept P C) : (State.dropJob s).kept P C := by
  unfold State.dropJob
  repeat' first | with_reducible assumption | intro _ | with_reducible apply State.setFld_kept
                | with_reducible apply State.settleWaits_kept | with_reducible apply State.stopTickNow_kept
                | with_reducible apply State.abandonLongs_kept | with_reducible apply Kept.same | simp only [kept_mk]
                | with_reducible apply kept_foldl

theorem State.zeroMemory_kept (s : State) (h_s : s.kept P C) : (State.zeroMemory s).kept P C := by
  unfold State.zeroMemory
  repeat' first | with_reducible assumption | with_reducible apply State.setBacking_kept | with_reducible apply Kept.empty
                | simp only [kept_mk]

theorem State.scrubDevice_kept (s : State) (h_s : s.kept P C) : (State.scrubDevice s).kept P C := by
  unfold State.scrubDevice
  repeat' first | with_reducible assumption | intro _ | with_reducible apply kept_ite
                | with_reducible apply State.noteSpares_kept | with_reducible apply State.hardRepair_kept
                | with_reducible apply State.trainPort_kept | with_reducible apply State.standBy_kept
                | with_reducible apply State.zeroMemory_kept | with_reducible apply kept_foldl

theorem State.endStops_kept (s : State) (h_s : s.kept P C) : (State.endStops s).kept P C := by
  unfold State.endStops
  repeat' first | with_reducible assumption | intro _ | with_reducible apply kept_ite
                | with_reducible apply State.setFld_kept | with_reducible apply Kept.same | simp only [kept_mk]
                | with_reducible apply kept_foldl

theorem State.beginReset_kept (s : State) (h_s : s.kept P C) : (State.beginReset s).kept P C := by
  unfold State.beginReset
  repeat' first | with_reducible assumption | intro _ | with_reducible apply kept_ite
                | with_reducible apply State.setDevState_kept | with_reducible apply State.refreshPower_kept
                | with_reducible apply State.dropJob_kept

theorem State.finishReset_kept (s : State) (h_s : s.kept P C) : (State.finishReset s).kept P C := by
  unfold State.finishReset
  repeat' first | with_reducible assumption | intro _ | with_reducible apply kept_ite
                | with_reducible apply State.setReg_kept | with_reducible apply State.setFld_kept
                | with_reducible apply State.setDevState_kept | with_reducible apply State.refreshPower_kept
                | with_reducible apply State.clearJobRegs_kept | with_reducible apply State.drawNonce_kept
                | with_reducible apply State.setDebug_kept | with_reducible apply State.scrubDevice_kept
                | with_reducible apply State.endStops_kept

theorem State.connectTarget_kept (s : State) (i : Nat) (body : List Byte) (h_s : s.kept P C) :
    (State.connectTarget s i body).kept P C := by
  unfold State.connectTarget
  repeat' first | with_reducible assumption | intro _ | with_reducible apply kept_ite | with_reducible apply State.send_kept
                | with_reducible apply State.onHost_kept

theorem State.freeBytes_kept (s : State) (n_ : Nat) (h_s : s.kept P C) : (State.freeBytes s n_).2.kept P C := by
  induction n_ generalizing s with
  | zero =>
    unfold State.freeBytes
    repeat' first | with_reducible assumption
  | succ n ih =>
    unfold State.freeBytes
    repeat' first | with_reducible assumption | with_reducible apply ih | with_reducible apply State.fresh_kept

theorem State.forwardChunk_kept (s : State) (id : Nat) (l : Launch) (child c : Nat) (h_s : s.kept P C) :
    (State.forwardChunk s id l child c).kept P C := by
  unfold State.forwardChunk
  repeat' first | with_reducible assumption | intro _ | with_reducible apply kept_ite
                | with_reducible apply State.requestFrom_kept | with_reducible apply State.setLaunch_kept
                | with_reducible apply State.markLost_kept | with_reducible apply kept_foldl

theorem State.orphan_kept (s : State) (id : Nat) (l : Launch) (h_s : s.kept P C) : (State.orphan s id l).kept P C := by
  unfold State.orphan
  repeat' first | with_reducible assumption | intro _ | with_reducible apply kept_ite
                | with_reducible apply State.endLongCode_kept | with_reducible apply State.setLaunch_kept
                | with_reducible apply State.launchEvent_kept | with_reducible apply State.upTo_kept

theorem State.launchControl_kept (s : State) (tx : Tx) (op : Nat) (f : State → Nat → Launch → State) (h_s : s.kept P C)
    (h_f : ∀ x0 x1 x2, x0.kept P C → (f x0 x1 x2).kept P C) :
    (State.launchControl s tx op f).kept P C := by
  unfold State.launchControl
  repeat' first | with_reducible assumption | intro _ | with_reducible apply h_f | with_reducible apply State.malformed_kept
                | with_reducible apply State.arrives_kept | split

theorem State.onBoard_kept (s : State) (f : Board → Board) (h_s : s.kept P C) : (State.onBoard s f).kept P C := by
  unfold State.onBoard
  repeat' first | with_reducible assumption | with_reducible apply Kept.same | simp only [kept_mk]

theorem State.restart_kept (s : State) (keep : Nat → Bool) (memory : Memory) (h_s : s.kept P C) :
    (State.restart s keep memory).kept P C := by
  unfold State.restart
  apply State.drawNonce_kept
  apply State.setFld_kept
  apply State.setFld_kept
  rw [kept_mk]
  exact Kept.parts h_s (Reg.wf_filter _ _) (fun _ => rfl) (fun _ => rfl) id (fun _ => Nat.le_refl _)

theorem State.coldReset_kept (s : State) (h_s : s.kept P C) : (State.coldReset s).kept P C := by
  unfold State.coldReset
  repeat' first | with_reducible assumption | with_reducible apply State.onBoard_kept
                | with_reducible apply State.restart_kept

theorem State.endPageTests_kept (s : State) (h_s : s.kept P C) : (State.endPageTests s).kept P C := by
  unfold State.endPageTests
  repeat' first | with_reducible assumption | intro _ | with_reducible apply State.bump_kept
                | with_reducible apply State.onMemory_kept | with_reducible apply State.freePool_kept
                | with_reducible apply kept_foldl

theorem State.warmReset_kept (s : State) (h_s : s.kept P C) : (State.warmReset s).kept P C := by
  unfold State.warmReset
  repeat' first | with_reducible assumption | intro _ | with_reducible apply State.setFld_kept
                | with_reducible apply State.onBoard_kept | with_reducible apply State.restart_kept
                | with_reducible apply State.endPageTests_kept | with_reducible apply kept_foldl

theorem State.beginBoot_kept (s : State) (h_s : s.kept P C) : (State.beginBoot s).kept P C := by
  unfold State.beginBoot
  repeat' first | with_reducible assumption | with_reducible apply State.setFld_kept
                | with_reducible apply State.refreshPower_kept

theorem State.warmReboot_kept (s : State) (h_s : s.kept P C) : (State.warmReboot s).kept P C := by
  unfold State.warmReboot
  repeat' first | with_reducible assumption | with_reducible apply State.warmReset_kept
                | with_reducible apply State.beginBoot_kept

theorem State.setOwnerKeys_kept (s : State) (keys : Option (List Byte)) (h_s : s.kept P C) :
    (State.setOwnerKeys s keys).kept P C := by
  unfold State.setOwnerKeys
  repeat' first | with_reducible assumption | intro _ | with_reducible apply State.setReg_kept
                | with_reducible apply State.setFld_kept | with_reducible apply Kept.same | simp only [kept_mk]
                | with_reducible apply kept_foldl

theorem State.applyRecords_kept (s : State) (h_s : s.kept P C) : (State.applyRecords s).kept P C := by
  unfold State.applyRecords
  repeat' first | with_reducible assumption | intro _ | with_reducible apply State.setFld_kept
                | with_reducible apply State.onHost_kept | with_reducible apply State.connectTarget_kept
                | with_reducible apply State.setOwnerKeys_kept | with_reducible apply Kept.same | simp only [kept_mk]
                | with_reducible apply kept_foldl | split

theorem State.placeCores_kept (s : State) (die : Nat) (h_s : s.kept P C) : (State.placeCores s die).kept P C := by
  unfold State.placeCores
  repeat' first | with_reducible assumption | intro _ | with_reducible apply State.setFld_kept
                | with_reducible apply State.refreshDie_kept | with_reducible apply kept_foldl_fst | split

theorem State.placeLists_kept (s : State) (st : Nat) (h_s : s.kept P C) : (State.placeLists s st).kept P C := by
  unfold State.placeLists
  repeat' first | with_reducible assumption | intro _ | with_reducible apply State.setFld_kept
                | with_reducible apply State.refreshMarrow_kept | with_reducible apply State.evacuate_kept
                | with_reducible apply kept_foldl

theorem State.refreshFw_kept (s : State) (h_s : s.kept P C) : (State.refreshFw s).kept P C := by
  unfold State.refreshFw
  repeat' first | with_reducible assumption | with_reducible apply State.setFld_kept

theorem State.checkSlot_kept (s : State) (i : Nat) (h_s : s.kept P C) : (State.checkSlot s i).kept P C := by
  unfold State.checkSlot
  repeat' first | with_reducible assumption | intro _ | with_reducible apply kept_ite | with_reducible apply State.send_kept
                | with_reducible apply State.setSlot_kept

theorem State.autoload_kept (s : State) (ext : List Byte) (h_s : s.kept P C) : (State.autoload s ext).kept P C := by
  unfold State.autoload
  repeat' first | with_reducible assumption | intro _ | with_reducible apply kept_ite
                | with_reducible apply State.fresh_kept | with_reducible apply State.postEvent_kept
                | with_reducible apply State.onHost_kept | with_reducible apply State.beginAdmit_kept | split

theorem State.reachReady_kept (s : State) (ms : Nat) (ext : List Byte) (h_s : s.kept P C) :
    (State.reachReady s ms ext).kept P C := by
  unfold State.reachReady
  apply State.autoload_kept
  apply State.setDevState_kept
  apply State.setFld_kept
  apply State.setFld_kept
  apply State.setFld_kept
  apply State.refreshFw_kept
  rw [kept_mk]
  exact Kept.parts (State.endStops_kept _ h_s) id id id (by rw [Mram.raise_faultLog]; exact id) (Mram.raise_counter _ _ _)

theorem State.stageDone_kept (s : State) (n ms : Nat) (ext : List Byte) (h_s : s.kept P C) :
    (State.stageDone s n ms ext).kept P C := by
  unfold State.stageDone
  repeat' first | with_reducible assumption | with_reducible apply State.setReg_kept
                | with_reducible apply State.setFld_kept | with_reducible apply State.refreshPower_kept
                | with_reducible apply State.takeSource_kept | with_reducible apply State.hardRepair_kept
                | with_reducible apply State.zeroMemory_kept | with_reducible apply State.onBoard_kept
                | with_reducible apply State.applyRecords_kept | with_reducible apply State.placeCores_kept
                | with_reducible apply State.placeLists_kept | with_reducible apply State.refreshFw_kept
                | with_reducible apply State.checkSlot_kept | with_reducible apply State.reachReady_kept
                | with_reducible apply kept_foldl | split

theorem State.bootLoss_kept (s : State) (fail : Nat) (h_s : s.kept P C) : (State.bootLoss s fail).kept P C := by
  unfold State.bootLoss
  repeat' first | with_reducible assumption | with_reducible apply State.setFld_kept
                | with_reducible apply State.endDeviceOther_kept

theorem State.onSnap_kept (s : State) (f : Snap → Snap) (h_s : s.kept P C) : (State.onSnap s f).kept P C := by
  unfold State.onSnap
  repeat' first | with_reducible assumption | with_reducible apply Kept.same | simp only [kept_mk]

theorem State.propagateSnap_kept (s : State) (id : Nat) (h_s : s.kept P C) : (State.propagateSnap s id).kept P C := by
  unfold State.propagateSnap
  repeat' first | with_reducible assumption | intro _ | with_reducible apply State.setFld_kept
                | with_reducible apply State.sendTx_kept | with_reducible apply kept_foldl

theorem State.latchSnap_kept (s : State) (source : Nat) (arm : SnapArm) (h_s : s.kept P C) :
    (State.latchSnap s source arm).kept P C := by
  unfold State.latchSnap
  repeat' first | with_reducible assumption | intro _ | with_reducible apply kept_ite
                | with_reducible apply State.setReg_kept | with_reducible apply State.setFld_kept
                | with_reducible apply State.onSnap_kept | with_reducible apply State.propagateSnap_kept

theorem State.fireSnap_kept (s : State) (code : Nat) (want : SnapArm → Bool) (h_s : s.kept P C) :
    (State.fireSnap s code want).kept P C := by
  unfold State.fireSnap
  repeat' first | with_reducible assumption | with_reducible apply State.bump_kept
                | with_reducible apply State.latchSnap_kept | split

theorem State.armSnap_kept (s : State) (a : SnapArm) (h_s : s.kept P C) : (State.armSnap s a).kept P C := by
  unfold State.armSnap
  repeat' first | with_reducible assumption | with_reducible apply State.setReg_kept
                | with_reducible apply State.setFld_kept | with_reducible apply State.onSnap_kept

theorem State.releaseSnap_kept (s : State) (h_s : s.kept P C) : (State.releaseSnap s).kept P C := by
  unfold State.releaseSnap
  repeat' first | with_reducible assumption | with_reducible apply State.setFld_kept
                | with_reducible apply State.onSnap_kept

theorem State.denied_kept (s : State) (k : Nat) (m : Msg) (level : Nat) (h_s : s.kept P C) :
    (State.denied s k m level).kept P C := by
  unfold State.denied
  repeat' first | with_reducible assumption | with_reducible apply State.reject_kept

theorem State.enterD3_kept (s : State) (h_s : s.kept P C) : (State.enterD3 s).kept P C := by
  unfold State.enterD3
  repeat' first | with_reducible assumption | with_reducible apply State.setFld_kept
                | with_reducible apply State.clearJobRegs_kept | with_reducible apply State.setDebug_kept
                | with_reducible apply State.dropJob_kept | with_reducible apply State.scrubDevice_kept

theorem State.failUnlock_kept (s : State) (k : Nat) (m : Msg) (h_s : s.kept P C) : (State.failUnlock s k m).kept P C := by
  unfold State.failUnlock
  repeat' first | with_reducible assumption | with_reducible apply State.bump_kept | with_reducible apply State.denied_kept
                | with_reducible apply Kept.same | simp only [kept_mk]

theorem State.unlocked_kept (s : State) (level : Nat) (h_s : s.kept P C) : (State.unlocked s level).kept P C := by
  unfold State.unlocked
  repeat' first | with_reducible assumption | intro _ | with_reducible apply kept_ite
                | with_reducible apply State.drawNonce_kept | with_reducible apply State.setDebug_kept
                | with_reducible apply Kept.same | simp only [kept_mk]

theorem State.d2Ends_kept (s : State) (h_s : s.kept P C) : (State.d2Ends s).kept P C := by
  unfold State.d2Ends
  repeat' first | with_reducible assumption | intro _ | with_reducible apply kept_ite
                | with_reducible apply State.onTick_kept

theorem State.markTick_kept (s : State) (k : Nat) (m : Msg) (halt : Bool) (h_s : s.kept P C) :
    (State.markTick s k m halt).kept P C := by
  unfold State.markTick
  repeat' first | with_reducible assumption | with_reducible apply State.done_kept | with_reducible apply State.reject_kept
                | with_reducible apply State.onTick_kept | with_reducible apply State.denied_kept | split

theorem State.coherence_kept (s : State) (tx : Tx) (op : Nat) (f : State → State) (h_s : s.kept P C)
    (h_f : ∀ x0, x0.kept P C → (f x0).kept P C) :
    (State.coherence s tx op f).kept P C := by
  unfold State.coherence
  repeat' first | with_reducible assumption | intro _ | with_reducible apply kept_ite | with_reducible apply h_f
                | with_reducible apply State.malformed_kept | with_reducible apply State.arrives_kept

end Sys2Proof.Machine
end

