-- ==== Sys2Proof/Laws/KeptCommands.lean ====
section
/-! SUPPORT. What security, power states, the host interface, restore, replays and the sideband keep (Laws/Kept.lean). -/
namespace Sys2Proof.Machine

variable {P : List Instr} {C : Nat → Nat}

theorem State.setSlotFw_kept (s : State) (i : Nat) (x : FwSlot) (h_s : s.kept P C) : (State.setSlotFw s i x).kept P C := by
  unfold State.setSlotFw
  apply State.refreshFw_kept
  apply State.onMram_kept
  · split <;> rfl
  · intro k; split <;> exact Nat.le_refl _
  · exact h_s

theorem State.startSource_kept (s : State) (k : Nat) (m : Msg) (ext : List Byte) (f : State → State) (h_s : s.kept P C)
    (h_f : ∀ x0, x0.kept P C → (f x0).kept P C) :
    (State.startSource s k m ext f).kept P C := by
  unfold State.startSource
  repeat' first | with_reducible assumption | intro _ | with_reducible apply kept_ite | with_reducible apply h_f
                | with_reducible apply State.send_kept | with_reducible apply State.reject_kept
                | with_reducible apply State.startLongExt_kept | with_reducible apply State.storageMoved_kept

theorem State.endFwStage_kept (s : State) (l : Long) (h_s : s.kept P C) : (State.endFwStage s l).kept P C := by
  unfold State.endFwStage
  repeat' first | with_reducible assumption | intro _ | with_reducible apply kept_ite
                | with_reducible apply State.endLong_kept | with_reducible apply State.setSlotFw_kept

theorem State.endFwActivate_kept (s : State) (l : Long) (h_s : s.kept P C) : (State.endFwActivate s l).kept P C := by
  unfold State.endFwActivate
  repeat' first | with_reducible assumption | intro _ | with_reducible apply State.endLong_kept
                | with_reducible apply State.onBoard_kept | with_reducible apply State.onMram_kept | simp only [kept_mk]
                | exact Nat.le_refl _

theorem Mram.writeRecord_faultLog (m : Mram) (b : List Byte) : (m.writeRecord b).faultLog = m.faultLog := by
  unfold Mram.writeRecord
  simp only [Mram.raise_faultLog]
theorem Mram.writeRecord_counter (m : Mram) (b : List Byte) (k : Nat) :
    (Tab.get 0 m.counters k).toNat ≤ (Tab.get 0 (m.writeRecord b).counters k).toNat := by
  unfold Mram.writeRecord
  refine Nat.le_trans ?_ (Mram.raise_counter _ _ _ k)
  exact Nat.le_refl _
theorem State.endConfigWrite_kept (s : State) (l : Long) (h_s : s.kept P C) : (State.endConfigWrite s l).kept P C := by
  unfold State.endConfigWrite
  split
  · exact State.endLong_kept _ _ _ _ h_s
  · exact State.endLong_kept _ _ _ _ (State.onMram_kept (Mram.writeRecord_faultLog _ _) (Mram.writeRecord_counter _ _) h_s)

theorem State.setPstate_kept (s : State) (t : Nat) (h_s : s.kept P C) : (State.setPstate s t).kept P C := by
  unfold State.setPstate
  repeat' first | with_reducible assumption | with_reducible apply State.setFld_kept

theorem State.enterRetention_kept (s : State) (h_s : s.kept P C) : (State.enterRetention s).kept P C := by
  unfold State.enterRetention
  repeat' first | with_reducible assumption | intro _ | with_reducible apply kept_ite
                | with_reducible apply State.portDown_kept | with_reducible apply Kept.filter | simp only [kept_mk]
                | with_reducible apply kept_foldl

theorem State.enterStandby_kept (s : State) (t : Nat) (h_s : s.kept P C) : (State.enterStandby s t).kept P C := by
  unfold State.enterStandby
  repeat' first | with_reducible assumption | intro _ | with_reducible apply kept_ite
                | with_reducible apply State.onHost_kept | with_reducible apply State.setDebug_kept
                | with_reducible apply State.onBoard_kept

theorem State.endPowerState_kept (s : State) (l : Long) (h_s : s.kept P C) : (State.endPowerState s l).kept P C := by
  unfold State.endPowerState
  repeat' first | with_reducible assumption | intro _ | with_reducible apply kept_ite
                | with_reducible apply State.endLong_kept | with_reducible apply State.trainPort_kept
                | with_reducible apply State.setPstate_kept | with_reducible apply State.enterRetention_kept
                | with_reducible apply State.enterStandby_kept | with_reducible apply kept_foldl

theorem State.testCoreOut_kept (s : State) (die phys : Nat) (h_s : s.kept P C) : (State.testCoreOut s die phys).kept P C := by
  unfold State.testCoreOut
  repeat' first | with_reducible assumption | with_reducible apply State.setFld_kept | with_reducible apply State.bump_kept
                | with_reducible apply State.logFault_kept | with_reducible apply State.endDevice_kept
                | with_reducible apply State.refreshDie_kept | with_reducible apply State.retireCore_kept
                | simp only [kept_mk] | split

theorem State.testEngineOut_kept (s : State) (st e : Nat) (h_s : s.kept P C) : (State.testEngineOut s st e).kept P C := by
  unfold State.testEngineOut
  repeat' first | with_reducible assumption | intro _ | with_reducible apply kept_ite
                | with_reducible apply State.logFault_kept | with_reducible apply State.endDeviceOther_kept
                | with_reducible apply State.refreshMarrow_kept | with_reducible apply State.evacuate_kept
                | with_reducible refine Kept.mram ?_ rfl rfl | simp only [kept_mk]

theorem State.testOut_kept (s : State) (u : TestUnit) (h_s : s.kept P C) : (State.testOut s u).kept P C := by
  unfold State.testOut
  repeat' first | with_reducible assumption | with_reducible apply State.setPort_kept
                | with_reducible apply State.logFault_kept | with_reducible apply State.rowFails_kept
                | with_reducible apply State.onTests_kept | with_reducible apply State.testCoreOut_kept
                | with_reducible apply State.testEngineOut_kept | split

theorem State.endSelfTest_kept (s : State) (l : Long) (h_s : s.kept P C) : (State.endSelfTest s l).kept P C := by
  unfold State.endSelfTest
  repeat' first | with_reducible assumption | intro _ | with_reducible apply kept_ite
                | with_reducible apply State.endLong_kept | with_reducible apply State.endDeviceOther_kept
                | with_reducible apply State.onTests_kept | with_reducible apply State.trainPort_kept
                | with_reducible apply State.testOut_kept | with_reducible apply kept_foldl

theorem State.targetStatus_kept (s : State) (i v : Nat) (h_s : s.kept P C) : (State.targetStatus s i v).kept P C := by
  unfold State.targetStatus
  repeat' first | with_reducible assumption | with_reducible apply State.onHost_kept | split

theorem State.failLong_kept (s : State) (l : Long) (status detail : Nat) (h_s : s.kept P C) :
    (State.failLong s l status detail).kept P C := by
  unfold State.failLong
  repeat' first | with_reducible assumption | intro _ | with_reducible apply kept_ite
                | with_reducible apply State.endLong_kept | with_reducible apply State.failCheckpoint_kept
                | with_reducible apply State.endExport_kept | with_reducible apply State.unbind_kept
                | with_reducible apply State.failRestore_kept

theorem State.post_kept (s : State) (k : Nat) (h_s : s.kept P C) : (State.post s k).kept P C := by
  unfold State.post
  repeat' first | with_reducible assumption | with_reducible apply State.onHost_kept
                | with_reducible apply State.setMbx_kept | with_reducible apply State.setBusy_kept

theorem State.ring_kept (s : State) (k : Nat) (h_s : s.kept P C) : (State.ring s k).kept P C := by
  unfold State.ring
  repeat' first | with_reducible assumption | intro _ | with_reducible apply kept_ite | with_reducible apply State.bump_kept
                | with_reducible apply State.post_kept

theorem State.writePage_kept (s : State) (k offset : Nat) (data : List Byte) (h_s : s.kept P C) :
    (State.writePage s k offset data).kept P C := by
  unfold State.writePage
  repeat' first | with_reducible assumption | intro _ | with_reducible apply kept_ite | with_reducible apply State.bump_kept
                | with_reducible apply State.setPage_kept

theorem State.clearDone_kept (s : State) (mask : Nat) (h_s : s.kept P C) : (State.clearDone s mask).kept P C := by
  unfold State.clearDone
  repeat' first | with_reducible assumption | intro _ | with_reducible apply kept_ite
                | with_reducible apply State.setMbx_kept | with_reducible apply State.setDone_kept
                | with_reducible apply kept_foldl

theorem State.carryOut_kept (s : State) (l : Long) (h_s : s.kept P C) : (State.carryOut s l).kept P C := by
  unfold State.carryOut
  repeat' first | with_reducible assumption | intro _ | with_reducible apply State.setFld_kept
                | with_reducible apply State.endLong_kept | with_reducible apply State.storageMoved_kept
                | with_reducible apply State.endExport_kept | with_reducible apply State.endAdmit_kept
                | with_reducible apply State.endRestore_kept | with_reducible apply State.failRestore_kept
                | with_reducible apply kept_ite
                | with_reducible apply State.hardRepair_kept | with_reducible apply State.finishReset_kept
                | with_reducible apply State.endFwStage_kept | with_reducible apply State.endFwActivate_kept
                | with_reducible apply State.endConfigWrite_kept | with_reducible apply State.endPowerState_kept
                | with_reducible apply State.endSelfTest_kept | with_reducible apply kept_foldl | split

theorem State.endBadly_kept (s : State) (l : Long) (e : Ending) (h_s : s.kept P C) : (State.endBadly s l e).kept P C := by
  unfold State.endBadly
  repeat' first | with_reducible assumption | with_reducible apply State.postEvent_kept
                | with_reducible apply State.targetStatus_kept | with_reducible apply State.failLong_kept | split

theorem State.ownReset_kept (s : State) (l : Long) (h_s : s.kept P C) : (State.ownReset s l).kept P C := by
  unfold State.ownReset
  repeat' first | with_reducible assumption | intro _ | with_reducible apply kept_ite
                | with_reducible apply State.onHost_kept | with_reducible apply State.finishReset_kept

theorem State.writeEvtCtrl_kept (s : State) (v : Nat) (h_s : s.kept P C) : (State.writeEvtCtrl s v).kept P C := by
  unfold State.writeEvtCtrl
  repeat' first | with_reducible assumption | intro _ | with_reducible apply kept_ite
                | with_reducible apply State.setReg_kept | with_reducible apply State.setFld_kept
                | with_reducible apply State.flushEvents_kept

theorem State.writeEvtHead_kept (s : State) (v : Nat) (h_s : s.kept P C) : (State.writeEvtHead s v).kept P C := by
  unfold State.writeEvtHead
  repeat' first | with_reducible assumption | with_reducible apply State.setReg_kept
                | with_reducible apply State.flushEvents_kept

theorem State.bar0Read_kept (s : State) (a : Bar0Access) (h_s : s.kept P C) : (State.bar0Read s a).kept P C := by
  unfold State.bar0Read
  repeat' first | with_reducible assumption | intro _ | with_reducible apply kept_ite | with_reducible apply State.bump_kept
                | with_reducible apply State.send_kept

theorem State.writeHalf_kept (s : State) (key : Nat) (high : Bool) (mask v : Nat) (h_s : s.kept P C) :
    (State.writeHalf s key high mask v).kept P C := by
  unfold State.writeHalf
  repeat' first | with_reducible assumption | with_reducible apply State.setReg_kept

theorem State.writeMsix_kept (s : State) (i v : Nat) (h_s : s.kept P C) : (State.writeMsix s i v).kept P C := by
  unfold State.writeMsix
  repeat' first | with_reducible assumption | intro _ | with_reducible apply kept_ite
                | with_reducible apply State.signalVector_kept | with_reducible apply State.onHost_kept

theorem State.writeWord_kept (s : State) (o v : Nat) (h_s : s.kept P C) : (State.writeWord s o v).kept P C := by
  unfold State.writeWord
  repeat' first | with_reducible assumption | intro _ | with_reducible apply kept_ite | with_reducible apply State.ring_kept
                | with_reducible apply State.clearDone_kept | with_reducible apply State.writeEvtCtrl_kept
                | with_reducible apply State.writeEvtHead_kept | with_reducible apply State.writeHalf_kept
                | with_reducible apply State.writeMsix_kept

theorem State.pageWrite_kept (s : State) (k : Nat) (a : Bar0Access) (h_s : s.kept P C) : (State.pageWrite s k a).kept P C := by
  unfold State.pageWrite
  repeat' first | with_reducible assumption | intro _ | with_reducible apply kept_ite
                | with_reducible apply State.writePage_kept

theorem State.bar0Write_kept (s : State) (a : Bar0Access) (h_s : s.kept P C) : (State.bar0Write s a).kept P C := by
  unfold State.bar0Write
  repeat' first | with_reducible assumption | intro _ | with_reducible apply kept_ite | with_reducible apply State.bump_kept
                | with_reducible apply State.writeWord_kept | with_reducible apply State.pageWrite_kept

theorem State.hostFault_kept (s : State) (status a : Nat) (h_s : s.kept P C) : (State.hostFault s status a).kept P C := by
  unfold State.hostFault
  repeat' first | with_reducible assumption | intro _ | with_reducible apply kept_ite | with_reducible apply State.bump_kept
                | with_reducible apply State.postEvent_kept | with_reducible apply State.onHost_kept

theorem State.bar2Write_kept (s : State) (offset : Nat) (data : List Byte) (h_s : s.kept P C) :
    (State.bar2Write s offset data).kept P C := by
  unfold State.bar2Write
  repeat' first | with_reducible assumption | intro _ | with_reducible apply kept_ite
                | with_reducible apply State.write_kept | with_reducible apply State.hostFault_kept

theorem State.hostDrop_kept (s : State) (q : Nat) (noRoom : Bool) (h_s : s.kept P C) : (State.hostDrop s q noRoom).kept P C := by
  unfold State.hostDrop
  repeat' first | with_reducible assumption | intro _ | with_reducible apply kept_ite | with_reducible apply State.bump_kept
                | with_reducible apply State.postEvent_kept

theorem State.hostPiece_kept (s : State) (offset : Nat) (bs : List Byte) (h_s : s.kept P C) :
    (State.hostPiece s offset bs).kept P C := by
  unfold State.hostPiece
  repeat' first | with_reducible assumption | intro _ | with_reducible apply kept_ite | with_reducible apply State.ask_kept
                | with_reducible apply State.hostDrop_kept

theorem State.carryWrite_kept (s : State) (w : HostWrite) (h_s : s.kept P C) : (State.carryWrite s w).kept P C := by
  unfold State.carryWrite
  repeat' first | with_reducible assumption | with_reducible apply State.ring_kept
                | with_reducible apply State.writePage_kept | with_reducible apply State.clearDone_kept
                | with_reducible apply State.writeEvtCtrl_kept | with_reducible apply State.writeEvtHead_kept
                | with_reducible apply State.bar0Write_kept | with_reducible apply State.bar2Write_kept
                | with_reducible apply State.hostPiece_kept | split

theorem State.postWrite_kept (s : State) (w : HostWrite) (h_s : s.kept P C) : (State.postWrite s w).kept P C := by
  unfold State.postWrite
  repeat' first | with_reducible assumption | intro _ | with_reducible apply kept_ite
                | with_reducible apply State.onHost_kept | with_reducible apply State.carryWrite_kept

theorem State.releasePosted_kept (s : State) (h_s : s.kept P C) : (State.releasePosted s).kept P C := by
  unfold State.releasePosted
  repeat' first | with_reducible assumption | with_reducible apply State.onHost_kept
                | with_reducible apply State.postWrite_kept | with_reducible apply kept_foldl

theorem State.takeWrite_kept (s : State) (w : HostWrite) (h_s : s.kept P C) : (State.takeWrite s w).kept P C := by
  unfold State.takeWrite
  repeat' first | with_reducible assumption | intro _ | with_reducible apply kept_ite
                | with_reducible apply State.postWrite_kept | with_reducible apply State.releasePosted_kept

theorem State.failHostReq_kept (s : State) (id req : Nat) (h_s : s.kept P C) : (State.failHostReq s id req).kept P C := by
  unfold State.failHostReq
  repeat' first | with_reducible assumption | with_reducible apply State.requestDone_kept | split

theorem State.failHostWindow_kept (s : State) (h_s : s.kept P C) : (State.failHostWindow s).kept P C := by
  unfold State.failHostWindow
  repeat' first | with_reducible assumption | intro _ | with_reducible apply State.failHostReq_kept
                | with_reducible apply kept_foldl

theorem State.resetFunction_kept (s : State) (h_s : s.kept P C) : (State.resetFunction s).kept P C := by
  unfold State.resetFunction
  repeat' first | with_reducible assumption | with_reducible apply State.setReg_kept
                | with_reducible apply State.setFld_kept | with_reducible apply State.onHost_kept

theorem State.functionReset_kept (s : State) (h_s : s.kept P C) : (State.functionReset s).kept P C := by
  unfold State.functionReset
  repeat' first | with_reducible assumption | intro _ | with_reducible apply kept_ite
                | with_reducible apply State.onHost_kept | with_reducible apply State.beginReset_kept
                | with_reducible apply State.failHostWindow_kept | with_reducible apply State.resetFunction_kept

theorem State.resendKept_kept (s : State) (d : Datagram) (r : List Byte) (h_s : s.kept P C) :
    (State.resendKept s d r).kept P C := by
  unfold State.resendKept
  repeat' first | with_reducible assumption | intro _ | with_reducible apply kept_ite | with_reducible apply State.send_kept

theorem State.takeRemote_kept (s : State) (d : Datagram) (k key : Nat) (msg : List Byte) (counter : Nat) (h_s : s.kept P C) :
    (State.takeRemote s d k key msg counter).kept P C := by
  unfold State.takeRemote
  repeat' first | with_reducible assumption | intro _ | with_reducible apply kept_ite | with_reducible apply State.bump_kept
                | with_reducible apply State.onHost_kept | with_reducible apply State.setPage_kept
                | with_reducible apply State.setDone_kept | with_reducible apply State.post_kept
                | with_reducible apply State.resendKept_kept

theorem State.goOnAll_kept (s : State) (h_s : s.kept P C) : (State.goOnAll s).kept P C := by
  unfold State.goOnAll
  repeat' first | with_reducible assumption | with_reducible apply State.releaseHeld_kept
                | with_reducible apply State.releasePosted_kept

theorem State.dropHeld_kept (s : State) (q : Nat) (h_s : s.kept P C) : (State.dropHeld s q).kept P C := by
  unfold State.dropHeld
  repeat' first | with_reducible assumption | with_reducible apply State.bump64_kept
                | with_reducible apply State.setQueue_kept | with_reducible apply State.hostDrop_kept

theorem State.sealTile_kept (s : State) (t : Nat) (h_s : s.kept P C) : (State.sealTile s t).kept P C := by
  unfold State.sealTile
  repeat' first | with_reducible assumption | with_reducible apply State.setTag_kept

theorem State.restorePiece_kept (s : State) (p : Piece) (rs : List (Nat × Nat × SourceRec)) (h_s : s.kept P C) :
    (State.restorePiece s p rs).kept P C := by
  unfold State.restorePiece
  repeat' first | with_reducible assumption | intro _ | with_reducible apply kept_ite
                | with_reducible apply State.write_kept | with_reducible apply State.sealTile_kept
                | with_reducible apply kept_foldl

theorem State.restoreContext_kept (s : State) (bs : List Byte) (h_s : s.kept P C) : (State.restoreContext s bs).kept P C := by
  unfold State.restoreContext
  repeat' first | with_reducible assumption | intro _ | with_reducible apply State.setCount_kept
                | with_reducible apply kept_foldl

theorem State.restoreQueues_kept (s : State) (ps : List Piece) (h_s : s.kept P C) : (State.restoreQueues s ps).kept P C := by
  unfold State.restoreQueues
  repeat' first | with_reducible assumption | intro _ | with_reducible apply kept_ite
                | with_reducible apply State.setQueue_kept | with_reducible apply kept_foldl

theorem State.keepOutcome_kept (s : State) (f : Failure) (h_s : s.kept P C) : (State.keepOutcome s f).kept P C := by
  unfold State.keepOutcome
  repeat' first | with_reducible assumption | with_reducible apply State.onHost_kept | with_reducible apply State.setFld_kept

theorem State.restore_kept (s : State) (j : Job) (plan : List Byte) (bytes : Nat → List Byte) (h_s : s.kept P C) :
    (State.restore s j plan bytes).kept P C := by
  unfold State.restore
  repeat' first | with_reducible assumption | intro _ | with_reducible apply State.setReg_kept
                | with_reducible apply State.restorePiece_kept | with_reducible apply State.restoreContext_kept
                | with_reducible apply State.restoreQueues_kept | with_reducible apply State.keepOutcome_kept
                | with_reducible apply kept_foldl | split

theorem State.restoreRead_kept (s : State) (plan : List Byte) (sources : List (List Byte)) (h_s : s.kept P C) :
    (State.restoreRead s plan sources).kept P C := by
  unfold State.restoreRead
  repeat' first | with_reducible assumption | intro _ | with_reducible apply kept_ite
                | with_reducible apply State.storageMoved_kept | with_reducible apply kept_foldl

theorem runOp_kept (s : State) (o : InFlight) (h_s : s.kept P C) : (runOp s o).1.kept P C := by
  unfold runOp
  repeat' first | with_reducible assumption | with_reducible apply matrixRun_kept | with_reducible apply vopRun_kept
                | with_reducible apply setvlRun_kept | with_reducible apply xferRun_kept
                | with_reducible apply mstreamRun_kept | with_reducible apply mstencilRun_kept
                | with_reducible apply mreduceRun_kept | with_reducible apply mindexRun_kept
                | with_reducible apply mindexBody_kept | with_reducible apply mtileRun_kept
                | with_reducible apply collRun_kept | simp only [kept_mk] | split

theorem runBody_kept (s : State) (o : InFlight) (h_s : s.kept P C) : (runBody s o).1.kept P C := by
  unfold runBody
  repeat' first | with_reducible assumption | with_reducible apply matrixBody_kept | with_reducible apply vopBody_kept
                | with_reducible apply setvlRun_kept | with_reducible apply xferBody_kept
                | with_reducible apply marrowBody_kept | with_reducible apply collRun_kept | simp only [kept_mk] | split

theorem State.startNext_kept (s : State) (l : ListId) (u : Nat) (n_ : Nat) (h_s : s.kept P C) :
    (State.startNext s l u n_).kept P C := by
  induction n_ generalizing s l u with
  | zero =>
    unfold State.startNext
    repeat' first | with_reducible assumption
  | succ n ih =>
    unfold State.startNext
    repeat' first | with_reducible assumption | with_reducible apply ih | with_reducible apply State.setOp_kept
                  | with_reducible apply runOp_kept | split

theorem State.startQueued_kept (s : State) (o : InFlight) (h_s : s.kept P C) : (State.startQueued s o).kept P C := by
  unfold State.startQueued
  repeat' first | with_reducible assumption | with_reducible apply State.startNext_kept

theorem State.tileRecovered_kept (s0 : State) (o : InFlight) (tile flag : Nat) (h_s0 : s0.kept P C) :
    (State.tileRecovered s0 o tile flag).kept P C := by
  unfold State.tileRecovered
  repeat' first | with_reducible assumption | intro _ | with_reducible apply kept_ite
                | with_reducible apply State.setOp_kept | with_reducible apply State.drive_kept
                | with_reducible apply State.absorbTile_kept | with_reducible apply runBody_kept
                | with_reducible apply State.startQueued_kept

theorem State.tileLost_kept (s : State) (o : InFlight) (tile : Nat) (h_s : s.kept P C) : (State.tileLost s o tile).kept P C := by
  unfold State.tileLost
  repeat' first | with_reducible assumption | with_reducible apply State.putOp_kept
                | with_reducible apply State.startQueued_kept

theorem State.jump_kept (s : State) (l : ListId) (cur target : Nat) (h_s : s.kept P C) :
    (State.jump s l cur target).kept P C := by
  unfold State.jump
  repeat' first | with_reducible assumption | intro _ | with_reducible apply kept_ite
                | with_reducible apply State.setFld_kept | with_reducible apply Kept.same | simp only [kept_mk]

theorem State.spdm_kept (s : State) (code p1 p2 : Nat) (content : List Byte) (h_s : s.kept P C) :
    (State.spdm s code p1 p2 content).kept P C := by
  unfold State.spdm
  repeat' first | with_reducible assumption | with_reducible apply State.send_kept

theorem State.spdmError_kept (s : State) (code : Nat) (h_s : s.kept P C) : (State.spdmError s code).kept P C := by
  unfold State.spdmError
  repeat' first | with_reducible assumption | with_reducible apply State.spdm_kept

theorem State.onSpdm_kept (s : State) (f : State → State) (h_s : s.kept P C) (h_f : ∀ x0, x0.kept P C → (f x0).kept P C) :
    Result.kept P C (State.onSpdm s f) := by
  unfold State.onSpdm
  repeat' first | with_reducible assumption | intro _ | with_reducible apply kept_next | with_reducible apply kept_ite
                | with_reducible apply h_f

theorem State.signSpdm_kept (s : State) (code p1 p2 : Nat) (before after nonce asked : List Byte) (h_s : s.kept P C) :
    (State.signSpdm s code p1 p2 before after nonce asked).kept P C := by
  unfold State.signSpdm
  repeat' first | with_reducible assumption | with_reducible apply State.send_kept | with_reducible apply Kept.same
                | simp only [kept_mk]

theorem State.largeSpdm_kept (s : State) (bytes : List Byte) (h_s : s.kept P C) : (State.largeSpdm s bytes).kept P C := by
  unfold State.largeSpdm
  repeat' first | with_reducible assumption | with_reducible apply State.upTo_kept | with_reducible apply State.spdm_kept
                | with_reducible apply Kept.same | simp only [kept_mk]

theorem State.jtagTake_kept (s : State) (i : Nat) (f : State → State) (h_s : s.kept P C)
    (h_f : ∀ x0, x0.kept P C → (f x0).kept P C) :
    Result.kept P C (State.jtagTake s i f) := by
  unfold State.jtagTake
  repeat' first | with_reducible assumption | intro _ | with_reducible apply kept_next | with_reducible apply kept_ite
                | with_reducible apply h_f | with_reducible apply State.onBoard_kept

end Sys2Proof.Machine
end

