-- ==== Sys2Proof/Laws/KeptExec.lean ====
section
/-! SUPPORT. What each command keeps where it answers a next state (Laws/Kept.lean). -/
namespace Sys2Proof.Machine

variable {P : List Instr} {C : Nat → Nat}

theorem execVop_kept (l : ListId) (r : OpRecord) (s : State) (h_s : s.kept P C) : Result.kept P C (execVop l r s) := by
  unfold execVop
  repeat' first | with_reducible assumption | intro _ | with_reducible apply kept_ifUnit | with_reducible apply kept_ite
                | with_reducible apply State.issueOp_kept | with_reducible apply vopRun_kept

theorem execSetvl_kept (l : ListId) (r : OpRecord) (s : State) (h_s : s.kept P C) : Result.kept P C (execSetvl l r s) := by
  unfold execSetvl
  repeat' first | with_reducible assumption | intro _ | with_reducible apply kept_ifUnit | with_reducible apply kept_ite
                | with_reducible apply State.issueOp_kept | with_reducible apply setvlRun_kept

theorem execXferCopy_kept (l : ListId) (r : OpRecord) (s : State) (h_s : s.kept P C) : Result.kept P C (execXferCopy l r s) := by
  unfold execXferCopy
  repeat' first | with_reducible assumption | with_reducible apply kept_ifUnit | with_reducible apply State.issueXfer_kept

theorem execXferStridedCopy_kept (l : ListId) (r : OpRecord) (s : State) (h_s : s.kept P C) :
    Result.kept P C (execXferStridedCopy l r s) := by
  unfold execXferStridedCopy
  repeat' first | with_reducible assumption | with_reducible apply kept_ifUnit | with_reducible apply State.issueXfer_kept

theorem execXferEnqueue_kept (l : ListId) (r : OpRecord) (s : State) (h_s : s.kept P C) :
    Result.kept P C (execXferEnqueue l r s) := by
  unfold execXferEnqueue
  repeat' first | with_reducible assumption | with_reducible apply kept_ifUnit | with_reducible apply State.issueXfer_kept

theorem execXferDequeue_kept (l : ListId) (r : OpRecord) (s : State) (h_s : s.kept P C) :
    Result.kept P C (execXferDequeue l r s) := by
  unfold execXferDequeue
  repeat' first | with_reducible assumption | with_reducible apply kept_ifUnit | with_reducible apply State.issueXfer_kept

theorem execXferAtomic_kept (l : ListId) (r : OpRecord) (s : State) (h_s : s.kept P C) :
    Result.kept P C (execXferAtomic l r s) := by
  unfold execXferAtomic
  repeat' first | with_reducible assumption | with_reducible apply kept_ifUnit | with_reducible apply State.issueXfer_kept

theorem execXferFill_kept (l : ListId) (r : OpRecord) (s : State) (h_s : s.kept P C) : Result.kept P C (execXferFill l r s) := by
  unfold execXferFill
  repeat' first | with_reducible assumption | with_reducible apply kept_ifUnit | with_reducible apply State.issueXfer_kept

theorem execMstream_kept (l : ListId) (r : OpRecord) (s : State) (h_s : s.kept P C) : Result.kept P C (execMstream l r s) := by
  unfold execMstream
  repeat' first | with_reducible assumption | with_reducible apply kept_ifUnit | with_reducible apply mstreamRun_kept
                | with_reducible apply State.issueMarrow_kept

theorem execMstencil_kept (l : ListId) (r : OpRecord) (s : State) (h_s : s.kept P C) : Result.kept P C (execMstencil l r s) := by
  unfold execMstencil
  repeat' first | with_reducible assumption | with_reducible apply kept_ifUnit | with_reducible apply mstencilRun_kept
                | with_reducible apply State.issueMarrow_kept

theorem execMreduce_kept (l : ListId) (r : OpRecord) (s : State) (h_s : s.kept P C) : Result.kept P C (execMreduce l r s) := by
  unfold execMreduce
  repeat' first | with_reducible assumption | with_reducible apply kept_ifUnit | with_reducible apply mreduceRun_kept
                | with_reducible apply State.issueMarrow_kept

theorem execMindexGather_kept (l : ListId) (r : OpRecord) (s : State) (h_s : s.kept P C) :
    Result.kept P C (execMindexGather l r s) := by
  unfold execMindexGather
  repeat' first | with_reducible assumption | intro _ | with_reducible apply kept_ifUnit
                | with_reducible apply mindexGatherBody_kept | with_reducible apply mindexRun_kept
                | with_reducible apply State.issueMarrow_kept

theorem execMindexScatter_kept (l : ListId) (r : OpRecord) (s : State) (h_s : s.kept P C) :
    Result.kept P C (execMindexScatter l r s) := by
  unfold execMindexScatter
  repeat' first | with_reducible assumption | intro _ | with_reducible apply kept_ifUnit
                | with_reducible apply mindexScatterBody_kept | with_reducible apply mindexRun_kept
                | with_reducible apply State.issueMarrow_kept

theorem execMindexAtomicScatter_kept (l : ListId) (r : OpRecord) (s : State) (h_s : s.kept P C) :
    Result.kept P C (execMindexAtomicScatter l r s) := by
  unfold execMindexAtomicScatter
  repeat' first | with_reducible assumption | intro _ | with_reducible apply kept_ifUnit
                | with_reducible apply mindexAtomicBody_kept | with_reducible apply mindexRun_kept
                | with_reducible apply State.issueMarrow_kept

theorem execMtileSeal_kept (l : ListId) (r : OpRecord) (s : State) (h_s : s.kept P C) :
    Result.kept P C (execMtileSeal l r s) := by
  unfold execMtileSeal
  repeat' first | with_reducible assumption | with_reducible apply kept_ifUnit | with_reducible apply mtileRun_kept
                | with_reducible apply State.issueMarrow_kept

theorem execMtileVerify_kept (l : ListId) (r : OpRecord) (s : State) (h_s : s.kept P C) :
    Result.kept P C (execMtileVerify l r s) := by
  unfold execMtileVerify
  repeat' first | with_reducible assumption | with_reducible apply kept_ifUnit | with_reducible apply mtileRun_kept
                | with_reducible apply State.issueMarrow_kept

theorem execMtileZeroFill_kept (l : ListId) (r : OpRecord) (s : State) (h_s : s.kept P C) :
    Result.kept P C (execMtileZeroFill l r s) := by
  unfold execMtileZeroFill
  repeat' first | with_reducible assumption | with_reducible apply kept_ifUnit | with_reducible apply mtileRun_kept
                | with_reducible apply State.issueMarrow_kept

theorem execMtileMigrate_kept (l : ListId) (r : OpRecord) (s : State) (h_s : s.kept P C) :
    Result.kept P C (execMtileMigrate l r s) := by
  unfold execMtileMigrate
  repeat' first | with_reducible assumption | with_reducible apply kept_ifUnit | with_reducible apply mtileRun_kept
                | with_reducible apply State.issueMarrow_kept

theorem execPtpMessage_kept (m : PtpMsg) (s : State) (h_s : s.kept P C) : Result.kept P C (execPtpMessage m s) := by
  unfold execPtpMessage
  repeat' first | with_reducible assumption | with_reducible apply kept_ifUnit | with_reducible apply State.send_kept
                | with_reducible apply State.hearClock_kept | with_reducible apply State.ptpOffset_kept | split

theorem execPtpSyncSend_kept (p : Nat) (s : State) (h_s : s.kept P C) : Result.kept P C (execPtpSyncSend p s) := by
  unfold execPtpSyncSend
  repeat' first | with_reducible assumption | intro _ | with_reducible apply kept_ifUnit | with_reducible apply kept_ite
                | with_reducible apply State.send_kept

theorem execDelayRequestSend_kept (p : Nat) (s : State) (h_s : s.kept P C) : Result.kept P C (execDelayRequestSend p s) := by
  unfold execDelayRequestSend
  repeat' first | with_reducible assumption | intro _ | with_reducible apply kept_ifUnit | with_reducible apply kept_ite
                | with_reducible apply State.send_kept

theorem execFabricTimeSend_kept (s : State) (h_s : s.kept P C) : Result.kept P C (execFabricTimeSend s) := by
  unfold execFabricTimeSend
  repeat' first | with_reducible assumption | intro _ | with_reducible apply kept_next | with_reducible apply kept_ite
                | with_reducible apply State.sendTime_kept

theorem execTimeTransaction_kept (p lead : Nat) (offset : Int) (locked : Bool) (s : State) (h_s : s.kept P C) :
    Result.kept P C (execTimeTransaction p lead offset locked s) := by
  unfold execTimeTransaction
  repeat' first | with_reducible assumption | intro _ | with_reducible apply kept_ifUnit | with_reducible apply kept_ite
                | with_reducible apply State.setFld_kept | with_reducible apply State.timeFault_kept
                | with_reducible apply State.measure_kept | with_reducible apply State.loseTime_kept
                | with_reducible apply State.sendTime_kept | with_reducible apply Kept.same | simp only [kept_mk]

theorem execLeadConflictExpiry_kept (s : State) (h_s : s.kept P C) : Result.kept P C (execLeadConflictExpiry s) := by
  unfold execLeadConflictExpiry
  repeat' first | with_reducible assumption | with_reducible apply kept_next | with_reducible apply State.setFld_kept
                | with_reducible apply State.at__kept | with_reducible apply Kept.same | simp only [kept_mk] | split

theorem execLinkDelayMeasurement_kept (p ns : Nat) (s : State) (h_s : s.kept P C) :
    Result.kept P C (execLinkDelayMeasurement p ns s) := by
  unfold execLinkDelayMeasurement
  repeat' first | with_reducible assumption | with_reducible apply kept_ifUnit | with_reducible apply State.setFld_kept

theorem execTimeSourceLoss_kept (i : TimeInput) (s : State) (h_s : s.kept P C) : Result.kept P C (execTimeSourceLoss i s) := by
  unfold execTimeSourceLoss
  repeat' first | with_reducible assumption | with_reducible apply kept_next | with_reducible apply State.setFld_kept
                | with_reducible apply State.loseTime_kept | with_reducible apply Kept.same | simp only [kept_mk] | split

theorem execTime1ppsEdge_kept (tenMhzPresent spacingOk : Bool) (offset : Int) (s : State) (h_s : s.kept P C) :
    Result.kept P C (execTime1ppsEdge tenMhzPresent spacingOk offset s) := by
  unfold execTime1ppsEdge
  repeat' first | with_reducible assumption | intro _ | with_reducible apply kept_next | with_reducible apply kept_ite
                | with_reducible apply State.setFld_kept | with_reducible apply State.measure_kept
                | with_reducible apply State.loseTime_kept

theorem execPpsOutEdge_kept (s : State) (h_s : s.kept P C) : Result.kept P C (execPpsOutEdge s) := by
  unfold execPpsOutEdge
  repeat' first | with_reducible assumption | intro _ | with_reducible apply kept_next | with_reducible apply kept_ite
                | with_reducible apply State.at__kept | with_reducible apply State.send_kept

theorem execCheckpointCapture_kept (s : State) (h_s : s.kept P C) : Result.kept P C (execCheckpointCapture s) := by
  unfold execCheckpointCapture
  repeat' first | with_reducible assumption | intro _ | with_reducible apply kept_next | with_reducible apply kept_ite
                | with_reducible apply State.setReg_kept | with_reducible apply State.setFld_kept
                | with_reducible apply State.send_kept | with_reducible apply State.onCkpt_kept
                | with_reducible apply State.captureQueue_kept | with_reducible apply State.setSlot_kept
                | with_reducible apply State.toModule_kept | with_reducible apply State.writeManifest_kept
                | with_reducible apply kept_foldl

theorem execParsnipGranuleDone_kept (granule : Nat) (s : State) (h_s : s.kept P C) :
    Result.kept P C (execParsnipGranuleDone granule s) := by
  unfold execParsnipGranuleDone
  repeat' first | with_reducible assumption | with_reducible apply kept_next | with_reducible apply State.setReg_kept
                | with_reducible apply State.bump32_kept | with_reducible apply State.send_kept
                | with_reducible apply State.goOn_kept | with_reducible apply State.onCkpt_kept
                | with_reducible apply State.setSlot_kept | with_reducible apply State.toModule_kept
                | with_reducible apply State.writeManifest_kept | split

theorem execCheckpointCommit_kept (s : State) (h_s : s.kept P C) : Result.kept P C (execCheckpointCommit s) := by
  unfold execCheckpointCommit
  repeat' first | with_reducible assumption | with_reducible apply kept_next | with_reducible apply State.setFld_kept
                | with_reducible apply State.ckpIdle_kept | with_reducible apply State.endLongCode_kept | with_reducible apply State.onCkpt_kept
                | with_reducible apply State.setSlot_kept | split

theorem execModuleCommandTimeout_kept (s : State) (h_s : s.kept P C) : Result.kept P C (execModuleCommandTimeout s) := by
  unfold execModuleCommandTimeout
  repeat' first | with_reducible assumption | intro _ | with_reducible apply kept_next | with_reducible apply kept_ite
                | with_reducible apply State.upTo_kept | with_reducible apply State.failCheckpoint_kept
                | with_reducible apply State.endExport_kept

theorem execCkpStart_kept (k : Nat) (s : State) (h_s : s.kept P C) : Result.kept P C (execCkpStart k s) := by
  unfold execCkpStart
  repeat' first | with_reducible assumption | intro _ | with_reducible apply kept_ifUnit
                | with_reducible apply State.setFld_kept | with_reducible apply State.reject_kept
                | with_reducible apply State.wrongState_kept | with_reducible apply State.badField_kept
                | with_reducible apply State.command_kept | with_reducible apply State.startLong_kept
                | with_reducible apply State.onCkpt_kept | split

theorem execCkpStatus_kept (k : Nat) (s : State) (h_s : s.kept P C) : Result.kept P C (execCkpStatus k s) := by
  unfold execCkpStatus
  repeat' first | with_reducible assumption | intro _ | with_reducible apply kept_ifUnit
                | with_reducible apply State.done_kept | with_reducible apply State.plain_kept

theorem execCkpAbandon_kept (k : Nat) (s : State) (h_s : s.kept P C) : Result.kept P C (execCkpAbandon k s) := by
  unfold execCkpAbandon
  repeat' first | with_reducible assumption | intro _ | with_reducible apply kept_ifUnit | with_reducible apply kept_ite
                | with_reducible apply State.done_kept | with_reducible apply State.wrongState_kept
                | with_reducible apply State.plain_kept | with_reducible apply State.failCheckpoint_kept

theorem execCkpExport_kept (k : Nat) (s : State) (h_s : s.kept P C) : Result.kept P C (execCkpExport k s) := by
  unfold execCkpExport
  repeat' first | with_reducible assumption | intro _ | with_reducible apply kept_ifUnit | with_reducible apply kept_ite
                | with_reducible apply State.setFld_kept | with_reducible apply State.send_kept
                | with_reducible apply State.reject_kept | with_reducible apply State.command_kept
                | with_reducible apply State.startLong_kept | with_reducible apply State.onCkpt_kept

theorem execCkpManifestRead_kept (k : Nat) (s : State) (h_s : s.kept P C) : Result.kept P C (execCkpManifestRead k s) := by
  unfold execCkpManifestRead
  repeat' first | with_reducible assumption | intro _ | with_reducible apply kept_ifUnit | with_reducible apply kept_ite
                | with_reducible apply State.done_kept | with_reducible apply State.reject_kept
                | with_reducible apply State.command_kept

theorem execCkpDiscard_kept (k : Nat) (s : State) (h_s : s.kept P C) : Result.kept P C (execCkpDiscard k s) := by
  unfold execCkpDiscard
  repeat' first | with_reducible assumption | intro _ | with_reducible apply kept_ifUnit | with_reducible apply kept_ite
                | with_reducible apply State.send_kept | with_reducible apply State.done_kept
                | with_reducible apply State.wrongState_kept | with_reducible apply State.command_kept
                | with_reducible apply State.setSlot_kept

theorem execMeasurementFrame_kept (d : Datagram) (s : State) (h_s : s.kept P C) : Result.kept P C (execMeasurementFrame d s) := by
  unfold execMeasurementFrame
  repeat' first | with_reducible assumption | intro _ | with_reducible apply kept_ifUnit | with_reducible apply kept_ite
                | with_reducible apply State.at__kept | with_reducible apply State.dropFrame_kept
                | with_reducible apply State.takeFrame_kept | with_reducible apply Kept.same | simp only [kept_mk]

theorem execActuationFrameSend_kept (stream : Nat) (s : State) (h_s : s.kept P C) :
    Result.kept P C (execActuationFrameSend stream s) := by
  unfold execActuationFrameSend
  repeat' first | with_reducible assumption | intro _ | with_reducible apply kept_ifUnit
                | with_reducible apply State.at__kept | with_reducible apply State.takeActuation_kept
                | with_reducible apply kept_foldl | split

theorem execArpRequest_kept (q : NetQuery) (s : State) (h_s : s.kept P C) : Result.kept P C (execArpRequest q s) := by
  unfold execArpRequest
  repeat' first | with_reducible assumption | intro _ | with_reducible apply kept_ifUnit | with_reducible apply kept_ite
                | with_reducible apply State.send_kept

theorem execNeighbourDiscovery_kept (q : NetQuery) (s : State) (h_s : s.kept P C) :
    Result.kept P C (execNeighbourDiscovery q s) := by
  unfold execNeighbourDiscovery
  repeat' first | with_reducible assumption | intro _ | with_reducible apply kept_ifUnit | with_reducible apply kept_ite
                | with_reducible apply State.send_kept

theorem execIcmpEcho_kept (q : NetQuery) (s : State) (h_s : s.kept P C) : Result.kept P C (execIcmpEcho q s) := by
  unfold execIcmpEcho
  repeat' first | with_reducible assumption | intro _ | with_reducible apply kept_ifUnit | with_reducible apply kept_ite
                | with_reducible apply State.send_kept

theorem execCollectiveAllReduce_kept (l : ListId) (r : OpRecord) (s : State) (h_s : s.kept P C) :
    Result.kept P C (execCollectiveAllReduce l r s) := by
  unfold execCollectiveAllReduce
  repeat' first | with_reducible assumption | with_reducible apply kept_ifUnit | with_reducible apply State.issueColl_kept

theorem execCollectiveReduceToRoot_kept (l : ListId) (r : OpRecord) (s : State) (h_s : s.kept P C) :
    Result.kept P C (execCollectiveReduceToRoot l r s) := by
  unfold execCollectiveReduceToRoot
  repeat' first | with_reducible assumption | with_reducible apply kept_ifUnit | with_reducible apply State.issueColl_kept

theorem execCollectiveBroadcast_kept (l : ListId) (r : OpRecord) (s : State) (h_s : s.kept P C) :
    Result.kept P C (execCollectiveBroadcast l r s) := by
  unfold execCollectiveBroadcast
  repeat' first | with_reducible assumption | with_reducible apply kept_ifUnit | with_reducible apply State.issueColl_kept

theorem execCollectiveAllGather_kept (l : ListId) (r : OpRecord) (s : State) (h_s : s.kept P C) :
    Result.kept P C (execCollectiveAllGather l r s) := by
  unfold execCollectiveAllGather
  repeat' first | with_reducible assumption | with_reducible apply kept_ifUnit | with_reducible apply State.issueColl_kept

theorem execCollectiveBarrier_kept (l : ListId) (r : OpRecord) (s : State) (h_s : s.kept P C) :
    Result.kept P C (execCollectiveBarrier l r s) := by
  unfold execCollectiveBarrier
  repeat' first | with_reducible assumption | with_reducible apply kept_ifUnit | with_reducible apply State.issueColl_kept

theorem execCollectiveContribution_kept (tx : Tx) (s : State) (h_s : s.kept P C) :
    Result.kept P C (execCollectiveContribution tx s) := by
  unfold execCollectiveContribution
  repeat' first | with_reducible assumption | intro _ | with_reducible apply kept_next
                | with_reducible apply State.reply_kept | with_reducible apply State.mark_kept
                | with_reducible apply State.serveRequest_kept | with_reducible apply State.takeContribution_kept
                | simp only [id]

theorem execFabricReply_kept (tx : Tx) (s : State) (h_s : s.kept P C) : Result.kept P C (execFabricReply tx s) := by
  unfold execFabricReply
  repeat' first | with_reducible assumption | intro _ | with_reducible apply kept_next
                | with_reducible apply State.bump64_kept | with_reducible apply State.malformed_kept
                | with_reducible apply State.arrives_kept | with_reducible apply State.afterReply_kept
                | with_reducible apply State.takeAnswer_kept | split

theorem execReplyDeadline_kept (peer seq : Nat) (s : State) (h_s : s.kept P C) :
    Result.kept P C (execReplyDeadline peer seq s) := by
  unfold execReplyDeadline
  repeat' first | with_reducible assumption | with_reducible apply kept_next | with_reducible apply State.at__kept
                | with_reducible apply State.resend_kept | with_reducible apply State.markLost_kept
                | with_reducible apply State.absorbWithin_kept | with_reducible apply State.releaseHeld_kept
                | with_reducible apply State.startCredits_kept | split

theorem execPendingNoticeSend_kept (peer : Nat) (s : State) (h_s : s.kept P C) :
    Result.kept P C (execPendingNoticeSend peer s) := by
  unfold execPendingNoticeSend
  repeat' first | with_reducible assumption | intro _ | with_reducible apply kept_next | with_reducible apply kept_ite
                | with_reducible apply State.sendTx_kept

theorem execFabricWaitDeadline_kept (peer : Nat) (s : State) (h_s : s.kept P C) :
    Result.kept P C (execFabricWaitDeadline peer s) := by
  unfold execFabricWaitDeadline
  repeat' first | with_reducible assumption | with_reducible apply kept_next | with_reducible apply State.at__kept
                | with_reducible apply State.markLost_kept | with_reducible apply State.releaseHeld_kept
                | with_reducible apply State.startCredits_kept | split

theorem execPendingNotice_kept (tx : Tx) (s : State) (h_s : s.kept P C) : Result.kept P C (execPendingNotice tx s) := by
  unfold execPendingNotice
  repeat' first | with_reducible assumption | intro _ | with_reducible apply kept_next
                | with_reducible apply State.onFabric_kept | with_reducible apply State.control_kept

theorem execPeerManagement_kept (tx : Tx) (s : State) (h_s : s.kept P C) : Result.kept P C (execPeerManagement tx s) := by
  unfold execPeerManagement
  repeat' first | with_reducible assumption | intro _ | with_reducible apply kept_next
                | with_reducible apply State.control_kept | simp only [id]

theorem execLostNotice_kept (tx : Tx) (s : State) (h_s : s.kept P C) : Result.kept P C (execLostNotice tx s) := by
  unfold execLostNotice
  repeat' first | with_reducible assumption | intro _ | with_reducible apply kept_next
                | with_reducible apply State.markLost_kept | with_reducible apply State.control_kept
                | with_reducible apply State.releaseHeld_kept | with_reducible apply State.startCredits_kept

theorem execCongestionNotice_kept (tx : Tx) (s : State) (h_s : s.kept P C) : Result.kept P C (execCongestionNotice tx s) := by
  unfold execCongestionNotice
  repeat' first | with_reducible assumption | intro _ | with_reducible apply kept_next | with_reducible apply kept_ite
                | with_reducible apply State.bump64_kept | with_reducible apply State.onFabric_kept
                | with_reducible apply State.control_kept | with_reducible apply State.endSpacing_kept

theorem execCongestionNoticeExpiry_kept (home : Nat) (s : State) (h_s : s.kept P C) :
    Result.kept P C (execCongestionNoticeExpiry home s) := by
  unfold execCongestionNoticeExpiry
  repeat' first | with_reducible assumption | with_reducible apply kept_next | with_reducible apply State.at__kept
                | with_reducible apply State.onFabric_kept | with_reducible apply State.endSpacing_kept | split

theorem execThrottleGap_kept (home : Nat) (s : State) (h_s : s.kept P C) : Result.kept P C (execThrottleGap home s) := by
  unfold execThrottleGap
  repeat' first | with_reducible assumption | with_reducible apply kept_next | with_reducible apply State.bump64_kept
                | with_reducible apply State.at__kept | with_reducible apply State.sendNext_kept | split

theorem execPortStateAnnouncement_kept (tx : Tx) (s : State) (h_s : s.kept P C) :
    Result.kept P C (execPortStateAnnouncement tx s) := by
  unfold execPortStateAnnouncement
  repeat' first | with_reducible assumption | intro _ | with_reducible apply kept_next | with_reducible apply kept_ite
                | with_reducible apply State.onFabric_kept | with_reducible apply State.malformed_kept
                | with_reducible apply State.arrives_kept | with_reducible apply State.releaseHeld_kept
                | with_reducible apply State.reroute_kept

theorem execPowerEvaluation_kept (watts : Nat) (s : State) (h_s : s.kept P C) :
    Result.kept P C (execPowerEvaluation watts s) := by
  unfold execPowerEvaluation
  repeat' first | with_reducible assumption | with_reducible apply kept_next | with_reducible apply State.setFld_kept
                | with_reducible apply State.refreshPower_kept | with_reducible apply State.applyCap_kept
                | with_reducible apply State.countEnergy_kept | with_reducible apply State.balance_kept

theorem execFastCurrentLimit_kept (deciamps : Nat) (s : State) (h_s : s.kept P C) :
    Result.kept P C (execFastCurrentLimit deciamps s) := by
  unfold execFastCurrentLimit
  repeat' first | with_reducible assumption | intro _ | with_reducible apply kept_next | with_reducible apply kept_ite
                | with_reducible apply State.setFld_kept | with_reducible apply State.bump64_kept
                | with_reducible apply State.onPower_kept | with_reducible apply State.refreshPower_kept

theorem execFastLimitRelease_kept (deciamps : Nat) (s : State) (h_s : s.kept P C) :
    Result.kept P C (execFastLimitRelease deciamps s) := by
  unfold execFastLimitRelease
  repeat' first | with_reducible assumption | with_reducible apply kept_next | with_reducible apply State.setFld_kept
                | with_reducible apply State.at__kept | with_reducible apply State.onPower_kept
                | with_reducible apply State.refreshPower_kept | simp only [kept_mk] | split

theorem execPwrBrakeAssert_kept (s : State) (h_s : s.kept P C) : Result.kept P C (execPwrBrakeAssert s) := by
  unfold execPwrBrakeAssert
  repeat' first | with_reducible assumption | with_reducible apply kept_next | with_reducible apply State.setFld_kept
                | with_reducible apply State.onPower_kept | with_reducible apply State.refreshPower_kept

theorem execPwrBrakeRelease_kept (s : State) (h_s : s.kept P C) : Result.kept P C (execPwrBrakeRelease s) := by
  unfold execPwrBrakeRelease
  repeat' first | with_reducible assumption | intro _ | with_reducible apply kept_next | with_reducible apply kept_ite
                | with_reducible apply State.setFld_kept | with_reducible apply State.onPower_kept
                | with_reducible apply State.refreshPower_kept

theorem execBrakeHoldExpiry_kept (s : State) (h_s : s.kept P C) : Result.kept P C (execBrakeHoldExpiry s) := by
  unfold execBrakeHoldExpiry
  repeat' first | with_reducible assumption | with_reducible apply kept_next | with_reducible apply State.at__kept
                | with_reducible apply State.onPower_kept | with_reducible apply State.refreshPower_kept | split

theorem execJunctionLimit_kept (die celsius : Nat) (s : State) (h_s : s.kept P C) :
    Result.kept P C (execJunctionLimit die celsius s) := by
  unfold execJunctionLimit
  repeat' first | with_reducible assumption | intro _ | with_reducible apply kept_ifUnit | with_reducible apply kept_ite
                | with_reducible apply State.onPower_kept | with_reducible apply State.refreshPower_kept

theorem execLaneLoss_kept (p lane : Nat) (_f : LaneFault) (s : State) (h_s : s.kept P C) :
    Result.kept P C (execLaneLoss p lane _f s) := by
  unfold execLaneLoss
  repeat' first | with_reducible assumption | intro _ | with_reducible apply kept_ifUnit | with_reducible apply kept_ite
                | with_reducible apply State.setPort_kept | with_reducible apply State.absorbWithin_kept
                | with_reducible apply State.portDown_kept | with_reducible apply State.absorbPort_kept
                | with_reducible apply State.endLaneTest_kept | with_reducible apply State.retrainTo_kept
                | with_reducible apply State.stopLaneTests_kept

theorem execLaneRetrainDone_kept (p : Nat) (s : State) (h_s : s.kept P C) : Result.kept P C (execLaneRetrainDone p s) := by
  unfold execLaneRetrainDone
  repeat' first | with_reducible assumption | intro _ | with_reducible apply kept_ifUnit | with_reducible apply kept_ite
                | with_reducible apply State.setFld_kept | with_reducible apply State.bump64_kept
                | with_reducible apply State.send_kept | with_reducible apply State.setPort_kept
                | with_reducible apply State.flushPort_kept | with_reducible apply State.onRecord_kept
                | with_reducible apply State.reroute_kept | with_reducible apply State.announce_kept

theorem execFlitReceive_kept (p : Nat) (fec : FecResult) (flit : List Byte) (s : State) (h_s : s.kept P C) :
    Result.kept P C (execFlitReceive p fec flit s) := by
  unfold execFlitReceive
  repeat' first | with_reducible assumption | intro _ | with_reducible apply kept_ifUnit | with_reducible apply kept_ite
                | with_reducible apply State.bump64_kept | with_reducible apply State.send_kept
                | with_reducible apply State.linkAcked_kept | with_reducible apply State.nakked_kept
                | with_reducible apply State.takeFlit_kept | split

theorem execLinkUp_kept (p peer lanes : Nat) (s : State) (h_s : s.kept P C) : Result.kept P C (execLinkUp p peer lanes s) := by
  unfold execLinkUp
  repeat' first | with_reducible assumption | intro _ | with_reducible apply kept_ifUnit | with_reducible apply kept_ite
                | with_reducible apply State.setFld_kept | with_reducible apply State.setPort_kept
                | with_reducible apply State.noteSpares_kept | with_reducible apply State.endLongCode_kept
                | with_reducible apply State.announce_kept

theorem execDieToDieReplay_kept (link : Nat) (s : State) (h_s : s.kept P C) : Result.kept P C (execDieToDieReplay link s) := by
  unfold execDieToDieReplay
  repeat' first | with_reducible assumption | with_reducible apply kept_ifUnit | with_reducible apply State.onRecord_kept
                | with_reducible apply Kept.same | simp only [kept_mk]

theorem execDieToDieLaneFailure_kept (link module : Nat) (repairable : Bool) (s : State) (h_s : s.kept P C) :
    Result.kept P C (execDieToDieLaneFailure link module repairable s) := by
  unfold execDieToDieLaneFailure
  repeat' first | with_reducible assumption | intro _ | with_reducible apply kept_ifUnit | with_reducible apply kept_ite
                | with_reducible apply State.logFault_kept | with_reducible apply State.absorbWithin_kept
                | with_reducible apply State.endDevice_kept | with_reducible apply State.endDeviceOther_kept
                | with_reducible apply Kept.same | simp only [kept_mk]

theorem execUndoCopyDone_kept (granule : Nat) (s : State) (h_s : s.kept P C) : Result.kept P C (execUndoCopyDone granule s) := by
  unfold execUndoCopyDone
  repeat' first | with_reducible assumption | with_reducible apply kept_next | with_reducible apply State.goOn_kept
                | with_reducible apply State.onMemory_kept | split

theorem execCbwCopyDone_kept (granule : Nat) (s : State) (h_s : s.kept P C) : Result.kept P C (execCbwCopyDone granule s) := by
  unfold execCbwCopyDone
  repeat' first | with_reducible assumption | with_reducible apply kept_next | with_reducible apply State.goOn_kept
                | with_reducible apply Kept.same | simp only [kept_mk] | split

theorem execScrub_kept (st ch pc row addr : Nat) (f : ScrubFinding) (s : State) (h_s : s.kept P C) :
    Result.kept P C (execScrub st ch pc row addr f s) := by
  unfold execScrub
  repeat' first | with_reducible assumption | with_reducible apply kept_ifUnit | with_reducible apply State.bump32_kept
                | with_reducible apply State.onMemory_kept | with_reducible apply State.rowFails_kept | split

theorem execPageMigrationDone_kept (st ch page : Nat) (s : State) (h_s : s.kept P C) :
    Result.kept P C (execPageMigrationDone st ch page s) := by
  unfold execPageMigrationDone
  repeat' first | with_reducible assumption | intro _ | with_reducible apply kept_ifUnit | with_reducible apply kept_ite
                | with_reducible apply State.onMemory_kept

theorem execChannelMigrationDone_kept (st ch : Nat) (s : State) (h_s : s.kept P C) :
    Result.kept P C (execChannelMigrationDone st ch s) := by
  unfold execChannelMigrationDone
  repeat' first | with_reducible assumption | intro _ | with_reducible apply kept_ifUnit | with_reducible apply kept_ite
                | with_reducible apply State.setFld_kept | with_reducible apply State.bump_kept
                | with_reducible apply State.onMemory_kept | with_reducible apply State.freePool_kept
                | with_reducible apply State.mapStuck_kept

theorem execThermalSample_kept (st celsius : Nat) (s : State) (h_s : s.kept P C) :
    Result.kept P C (execThermalSample st celsius s) := by
  unfold execThermalSample
  repeat' first | with_reducible assumption | intro _ | with_reducible apply kept_ifUnit | with_reducible apply kept_ite
                | with_reducible apply State.setFld_kept | with_reducible apply State.protectiveStop_kept
                | with_reducible apply State.refreshPower_kept | with_reducible apply State.noteCool_kept
                | with_reducible apply State.enterStep_kept

theorem execThermalStepExit_kept (st : Nat) (s : State) (h_s : s.kept P C) : Result.kept P C (execThermalStepExit st s) := by
  unfold execThermalStepExit
  repeat' first | with_reducible assumption | intro _ | with_reducible apply kept_ifUnit | with_reducible apply kept_ite
                | with_reducible apply State.setFld_kept | with_reducible apply State.at__kept
                | with_reducible apply State.endSlow_kept | with_reducible apply State.refreshPower_kept
                | with_reducible apply State.onMemory_kept | with_reducible apply State.noteCool_kept
                | with_reducible apply State.enterStep_kept | split

theorem execCoreRotationStart_kept (n : Nat) (s : State) (h_s : s.kept P C) : Result.kept P C (execCoreRotationStart n s) := by
  unfold execCoreRotationStart
  repeat' first | with_reducible assumption | intro _ | with_reducible apply kept_ifUnit
                | with_reducible apply State.startTest_kept | with_reducible apply State.migrate_kept | split

theorem execMigrationCopyDone_kept (n : Nat) (s : State) (h_s : s.kept P C) : Result.kept P C (execMigrationCopyDone n s) := by
  unfold execMigrationCopyDone
  repeat' first | with_reducible assumption | with_reducible apply kept_ifUnit | with_reducible apply State.setFld_kept
                | with_reducible apply State.bump_kept | with_reducible apply State.onTests_kept
                | with_reducible apply State.refreshDie_kept | with_reducible apply State.retireCore_kept
                | with_reducible apply State.refreshCoreTest_kept | with_reducible apply State.storesOpen_kept | split

theorem execSpareCoreBistStart_kept (die phys : Nat) (s : State) (h_s : s.kept P C) :
    Result.kept P C (execSpareCoreBistStart die phys s) := by
  unfold execSpareCoreBistStart
  repeat' first | with_reducible assumption | intro _ | with_reducible apply kept_ifUnit
                | with_reducible apply State.onTests_kept | with_reducible apply State.startTest_kept

theorem execCoreBistDone_kept (die phys : Nat) (v : Verdict) (s : State) (h_s : s.kept P C) :
    Result.kept P C (execCoreBistDone die phys v s) := by
  unfold execCoreBistDone
  repeat' first | with_reducible assumption | intro _ | with_reducible apply kept_ifUnit | with_reducible apply kept_ite
                | with_reducible apply State.onTests_kept | with_reducible apply State.refreshDie_kept
                | with_reducible apply State.retireCore_kept | with_reducible apply State.unitTested_kept
                | with_reducible apply State.testFailed_kept | with_reducible apply State.refreshCoreTest_kept | split

theorem execCoreCheckerFailure_kept (die phys : Nat) (s : State) (h_s : s.kept P C) :
    Result.kept P C (execCoreCheckerFailure die phys s) := by
  unfold execCoreCheckerFailure
  repeat' first | with_reducible assumption | intro _ | with_reducible apply kept_ifUnit | with_reducible apply kept_ite
                | with_reducible apply State.setFld_kept | with_reducible apply State.absorbWithin_kept
                | with_reducible apply State.onTests_kept | with_reducible apply State.retireCore_kept
                | with_reducible apply State.refreshCoreTest_kept | with_reducible apply State.stopCoreTests_kept
                | with_reducible apply State.rescueCore_kept | split

theorem execMarrowEngineTestStart_kept (m : Nat) (s : State) (h_s : s.kept P C) :
    Result.kept P C (execMarrowEngineTestStart m s) := by
  unfold execMarrowEngineTestStart
  repeat' first | with_reducible assumption | intro _ | with_reducible apply kept_ifUnit
                | with_reducible apply State.onTests_kept | with_reducible apply State.startTest_kept
                | with_reducible apply State.refreshMarrow_kept

theorem execMarrowBistDone_kept (m : Nat) (v : Verdict) (s : State) (h_s : s.kept P C) :
    Result.kept P C (execMarrowBistDone m v s) := by
  unfold execMarrowBistDone
  repeat' first | with_reducible assumption | with_reducible apply kept_ifUnit | with_reducible apply State.onTests_kept
                | with_reducible apply State.setActive_kept | with_reducible apply State.unitTested_kept
                | with_reducible apply State.testFailed_kept | with_reducible apply State.refreshMarrow_kept
                | with_reducible refine Kept.mram ?_ rfl rfl | simp only [kept_mk] | split

theorem execMarrowCheckerFailure_kept (st phys : Nat) (s : State) (h_s : s.kept P C) :
    Result.kept P C (execMarrowCheckerFailure st phys s) := by
  unfold execMarrowCheckerFailure
  repeat' first | with_reducible assumption | intro _ | with_reducible apply kept_ifUnit | with_reducible apply kept_ite
                | with_reducible apply State.logFault_kept | with_reducible apply State.absorbWithin_kept
                | with_reducible apply State.endDeviceOther_kept | with_reducible apply State.onTests_kept
                | with_reducible apply State.setActive_kept | with_reducible apply State.refreshMarrow_kept
                | with_reducible apply State.evacuate_kept | with_reducible refine Kept.mram ?_ rfl rfl
                | simp only [kept_mk] | with_reducible apply kept_foldl

theorem execHbmPageTestStart_kept (st ch page : Nat) (s : State) (h_s : s.kept P C) :
    Result.kept P C (execHbmPageTestStart st ch page s) := by
  unfold execHbmPageTestStart
  repeat' first | with_reducible assumption | intro _ | with_reducible apply kept_ifUnit
                | with_reducible apply State.setFld_kept | with_reducible apply State.onMemory_kept
                | with_reducible apply State.usePages_kept | with_reducible apply State.startTest_kept

theorem execHbmPageTestDone_kept (st ch page : Nat) (v : Verdict) (s : State) (h_s : s.kept P C) :
    Result.kept P C (execHbmPageTestDone st ch page v s) := by
  unfold execHbmPageTestDone
  repeat' first | with_reducible assumption | with_reducible apply kept_ifUnit | with_reducible apply State.bump_kept
                | with_reducible apply State.onMemory_kept | with_reducible apply State.freePool_kept
                | with_reducible apply State.keepRetired_kept | with_reducible apply State.setActive_kept
                | with_reducible apply State.unitTested_kept | with_reducible apply State.testFailed_kept | split

theorem execLaneTestStart_kept (p lane : Nat) (s : State) (h_s : s.kept P C) : Result.kept P C (execLaneTestStart p lane s) := by
  unfold execLaneTestStart
  repeat' first | with_reducible assumption | intro _ | with_reducible apply kept_ifUnit
                | with_reducible apply State.setPort_kept | with_reducible apply State.retrainTo_kept
                | with_reducible apply State.startTest_kept

theorem execLaneTestDone_kept (p lane : Nat) (v : Verdict) (s : State) (h_s : s.kept P C) :
    Result.kept P C (execLaneTestDone p lane v s) := by
  unfold execLaneTestDone
  repeat' first | with_reducible assumption | intro _ | with_reducible apply kept_ifUnit | with_reducible apply kept_ite
                | with_reducible apply State.setPort_kept | with_reducible apply State.retrainTo_kept
                | with_reducible apply State.setActive_kept | with_reducible apply State.unitTested_kept
                | with_reducible apply State.testFailed_kept | split

theorem execManagementMismatch_kept (bist : Verdict) (s : State) (h_s : s.kept P C) :
    Result.kept P C (execManagementMismatch bist s) := by
  unfold execManagementMismatch
  repeat' first | with_reducible assumption | intro _ | with_reducible apply kept_next | with_reducible apply kept_ite
                | with_reducible apply State.logFault_kept | with_reducible apply State.absorbWithin_kept
                | with_reducible apply State.endDeviceOther_kept | with_reducible apply State.onTests_kept

theorem execServiceCoreFault_kept (c : Nat) (s : State) (h_s : s.kept P C) : Result.kept P C (execServiceCoreFault c s) := by
  unfold execServiceCoreFault
  repeat' first | with_reducible assumption | with_reducible apply kept_ifUnit
                | with_reducible apply State.absorbWithin_kept

theorem execRestorationDone_kept (s : State) (h_s : s.kept P C) : Result.kept P C (execRestorationDone s) := by
  unfold execRestorationDone
  repeat' first | with_reducible assumption | intro _ | with_reducible apply kept_next | with_reducible apply kept_ite
                | with_reducible apply State.startStep_kept | with_reducible apply State.restoreUndo_kept

theorem execOverrunDecision_kept (s : State) (h_s : s.kept P C) : Result.kept P C (execOverrunDecision s) := by
  unfold execOverrunDecision
  repeat' first | with_reducible assumption | intro _ | with_reducible apply kept_next | with_reducible apply kept_ite
                | with_reducible apply State.at__kept | with_reducible apply State.decideOverrun_kept

theorem execOverrunTrigger_kept (tx : Tx) (s : State) (h_s : s.kept P C) : Result.kept P C (execOverrunTrigger tx s) := by
  unfold execOverrunTrigger
  repeat' first | with_reducible assumption | intro _ | with_reducible apply kept_next | with_reducible apply kept_ite
                | with_reducible apply State.triggerPeers_kept | with_reducible apply State.onTick_kept
                | with_reducible apply State.trigger_kept

theorem execJobStoppedTrigger_kept (tx : Tx) (s : State) (h_s : s.kept P C) : Result.kept P C (execJobStoppedTrigger tx s) := by
  unfold execJobStoppedTrigger
  repeat' first | with_reducible assumption | intro _ | with_reducible apply kept_next | with_reducible apply kept_ite
                | with_reducible apply State.enterStopped_kept | with_reducible apply State.trigger_kept

theorem execTick_kept (s : State) (h_s : s.kept P C) : Result.kept P C (execTick s) := by
  unfold execTick
  repeat' first | with_reducible assumption | intro _ | with_reducible apply kept_next | with_reducible apply kept_ite
                | with_reducible apply State.at__kept | with_reducible apply State.recordFlag_kept
                | with_reducible apply State.onTick_kept | with_reducible apply State.latchQueues_kept
                | with_reducible apply State.decideOverrun_kept | with_reducible apply State.boundary_kept
                | with_reducible apply State.skipTick_kept | with_reducible apply State.startOrHalt_kept
                | with_reducible apply State.abortAt_kept

theorem execPhaseRelease_kept (p : Nat) (s : State) (h_s : s.kept P C) : Result.kept P C (execPhaseRelease p s) := by
  unfold execPhaseRelease
  repeat' first | with_reducible assumption | intro _ | with_reducible apply kept_ifUnit | with_reducible apply kept_ite
                | with_reducible apply State.at__kept | with_reducible apply State.releasePhase_kept

theorem execPhaseWarning_kept (p : Nat) (s : State) (h_s : s.kept P C) : Result.kept P C (execPhaseWarning p s) := by
  unfold execPhaseWarning
  repeat' first | with_reducible assumption | intro _ | with_reducible apply kept_ifUnit | with_reducible apply kept_ite
                | with_reducible apply State.at__kept | with_reducible apply State.onRecord_kept

theorem execPhaseLate_kept (p : Nat) (s : State) (h_s : s.kept P C) : Result.kept P C (execPhaseLate p s) := by
  unfold execPhaseLate
  repeat' first | with_reducible assumption | intro _ | with_reducible apply kept_ifUnit | with_reducible apply kept_ite
                | with_reducible apply State.at__kept | with_reducible apply State.onRecord_kept

theorem execTickStopBoundary_kept (s : State) (h_s : s.kept P C) : Result.kept P C (execTickStopBoundary s) := by
  unfold execTickStopBoundary
  repeat' first | with_reducible assumption | intro _ | with_reducible apply kept_next | with_reducible apply kept_ite
                | with_reducible apply State.at__kept | with_reducible apply State.stopTick_kept

theorem execTckCtrlRunClear_kept (s : State) (h_s : s.kept P C) : Result.kept P C (execTckCtrlRunClear s) := by
  unfold execTckCtrlRunClear
  repeat' first | with_reducible assumption | intro _ | with_reducible apply kept_next | with_reducible apply kept_ite
                | with_reducible apply State.setFld_kept | with_reducible apply State.onTick_kept

theorem execEffectiveTickReached_kept (s : State) (h_s : s.kept P C) : Result.kept P C (execEffectiveTickReached s) := by
  unfold execEffectiveTickReached
  repeat' first | with_reducible assumption | intro _ | with_reducible apply kept_next | with_reducible apply kept_ite
                | with_reducible apply State.at__kept | with_reducible apply State.applyChanges_kept

theorem execStepHaltTick_kept (s : State) (h_s : s.kept P C) : Result.kept P C (execStepHaltTick s) := by
  unfold execStepHaltTick
  repeat' first | with_reducible assumption | intro _ | with_reducible apply kept_next | with_reducible apply kept_ite
                | with_reducible apply State.setFld_kept | with_reducible apply State.at__kept
                | with_reducible apply State.onTick_kept

theorem execStepResumeTick_kept (s : State) (h_s : s.kept P C) : Result.kept P C (execStepResumeTick s) := by
  unfold execStepResumeTick
  repeat' first | with_reducible assumption | intro _ | with_reducible apply kept_next | with_reducible apply kept_ite
                | with_reducible apply State.setFld_kept | with_reducible apply State.at__kept
                | with_reducible apply State.onTick_kept | with_reducible apply State.dropMarks_kept

theorem execSlowNoticeRepeat_kept (s : State) (h_s : s.kept P C) : Result.kept P C (execSlowNoticeRepeat s) := by
  unfold execSlowNoticeRepeat
  repeat' first | with_reducible assumption | intro _ | with_reducible apply kept_next
                | with_reducible apply State.sendSlow_kept | with_reducible apply Kept.same | simp only [kept_mk]
                | with_reducible apply kept_foldl

theorem execSlowNotice_kept (tx : Tx) (s : State) (h_s : s.kept P C) : Result.kept P C (execSlowNotice tx s) := by
  unfold execSlowNotice
  repeat' first | with_reducible assumption | intro _ | with_reducible apply kept_next
                | with_reducible apply State.excursion_kept | with_reducible apply State.onRecord_kept
                | with_reducible apply State.control_kept | with_reducible apply Kept.same | simp only [kept_mk]

theorem execSlowNoticeExpiry_kept (src : Nat) (s : State) (h_s : s.kept P C) : Result.kept P C (execSlowNoticeExpiry src s) := by
  unfold execSlowNoticeExpiry
  repeat' first | with_reducible assumption | with_reducible apply kept_next | with_reducible apply State.at__kept
                | with_reducible apply Kept.same | simp only [kept_mk] | split

theorem execQueueStatus_kept (k : Nat) (s : State) (h_s : s.kept P C) : Result.kept P C (execQueueStatus k s) := by
  unfold execQueueStatus
  repeat' first | with_reducible assumption | intro _ | with_reducible apply kept_ifUnit
                | with_reducible apply State.done_kept | with_reducible apply State.reject_kept
                | with_reducible apply State.command_kept | simp only [kept_mk] | split

theorem execQueueEngineStatus_kept (k : Nat) (s : State) (h_s : s.kept P C) : Result.kept P C (execQueueEngineStatus k s) := by
  unfold execQueueEngineStatus
  repeat' first | with_reducible assumption | intro _ | with_reducible apply kept_ifUnit
                | with_reducible apply State.done_kept | with_reducible apply State.command_kept

theorem execTimeSetSource_kept (k : Nat) (s : State) (h_s : s.kept P C) : Result.kept P C (execTimeSetSource k s) := by
  unfold execTimeSetSource
  repeat' first | with_reducible assumption | intro _ | with_reducible apply kept_ifUnit | with_reducible apply kept_ite
                | with_reducible apply State.done_kept | with_reducible apply State.wrongState_kept
                | with_reducible apply State.command_kept | with_reducible apply State.takeSource_kept

theorem execTimeStatus_kept (k : Nat) (s : State) (h_s : s.kept P C) : Result.kept P C (execTimeStatus k s) := by
  unfold execTimeStatus
  repeat' first | with_reducible assumption | intro _ | with_reducible apply kept_ifUnit
                | with_reducible apply State.done_kept | with_reducible apply State.plain_kept

theorem execTickArm_kept (k : Nat) (s : State) (h_s : s.kept P C) : Result.kept P C (execTickArm k s) := by
  unfold execTickArm
  repeat' first | with_reducible assumption | intro _ | with_reducible apply kept_ifUnit
                | with_reducible apply State.done_kept | with_reducible apply State.reject_kept
                | with_reducible apply State.wrongState_kept | with_reducible apply State.badField_kept
                | with_reducible apply State.command_kept | with_reducible apply State.arm_kept | split

theorem execTickStop_kept (k : Nat) (s : State) (h_s : s.kept P C) : Result.kept P C (execTickStop k s) := by
  unfold execTickStop
  repeat' first | with_reducible assumption | intro _ | with_reducible apply kept_ifUnit | with_reducible apply kept_ite
                | with_reducible apply State.setFld_kept | with_reducible apply State.done_kept
                | with_reducible apply State.reject_kept | with_reducible apply State.wrongState_kept
                | with_reducible apply State.command_kept | with_reducible apply State.onTick_kept

theorem execTickStatus_kept (k : Nat) (s : State) (h_s : s.kept P C) : Result.kept P C (execTickStatus k s) := by
  unfold execTickStatus
  repeat' first | with_reducible assumption | intro _ | with_reducible apply kept_ifUnit
                | with_reducible apply State.done_kept | with_reducible apply State.plain_kept

theorem execStreamAdd_kept (k : Nat) (s : State) (h_s : s.kept P C) : Result.kept P C (execStreamAdd k s) := by
  unfold execStreamAdd
  repeat' first | with_reducible assumption | intro _ | with_reducible apply kept_ifUnit | with_reducible apply kept_ite
                | with_reducible apply State.done_kept | with_reducible apply State.reject_kept
                | with_reducible apply State.wrongState_kept | with_reducible apply State.badField_kept
                | with_reducible apply State.command_kept | with_reducible apply State.accept_kept | split

theorem execStreamRemove_kept (k : Nat) (s : State) (h_s : s.kept P C) : Result.kept P C (execStreamRemove k s) := by
  unfold execStreamRemove
  repeat' first | with_reducible assumption | intro _ | with_reducible apply kept_ifUnit | with_reducible apply kept_ite
                | with_reducible apply State.done_kept | with_reducible apply State.reject_kept
                | with_reducible apply State.wrongState_kept | with_reducible apply State.command_kept
                | with_reducible apply State.accept_kept | split

theorem execStreamStatus_kept (k : Nat) (s : State) (h_s : s.kept P C) : Result.kept P C (execStreamStatus k s) := by
  unfold execStreamStatus
  repeat' first | with_reducible assumption | intro _ | with_reducible apply kept_ifUnit | with_reducible apply kept_ite
                | with_reducible apply State.upTo_kept | with_reducible apply State.done_kept
                | with_reducible apply State.reject_kept | with_reducible apply State.wrongState_kept
                | with_reducible apply State.command_kept | split

theorem execJobAdmit_kept (k : Nat) (ext : List Byte) (s : State) (h_s : s.kept P C) :
    Result.kept P C (execJobAdmit k ext s) := by
  unfold execJobAdmit
  repeat' first | with_reducible assumption | intro _ | with_reducible apply kept_ifUnit | with_reducible apply kept_ite
                | with_reducible apply State.reject_kept | with_reducible apply State.wrongState_kept
                | with_reducible apply State.command_kept | with_reducible apply State.startLongExt_kept
                | with_reducible apply State.beginAdmit_kept

theorem execJobStatus_kept (k : Nat) (s : State) (h_s : s.kept P C) : Result.kept P C (execJobStatus k s) := by
  unfold execJobStatus
  repeat' first | with_reducible assumption | intro _ | with_reducible apply kept_ifUnit
                | with_reducible apply State.done_kept | with_reducible apply State.plain_kept

theorem execJobReset_kept (k : Nat) (s : State) (h_s : s.kept P C) : Result.kept P C (execJobReset k s) := by
  unfold execJobReset
  repeat' first | with_reducible assumption | intro _ | with_reducible apply kept_ifUnit
                | with_reducible apply State.onHost_kept | with_reducible apply State.answer_kept
                | with_reducible apply State.plain_kept | with_reducible apply State.beginReset_kept

theorem execDevCapabilities_kept (k : Nat) (s : State) (h_s : s.kept P C) : Result.kept P C (execDevCapabilities k s) := by
  unfold execDevCapabilities
  repeat' first | with_reducible assumption | intro _ | with_reducible apply kept_ifUnit
                | with_reducible apply State.done_kept | with_reducible apply State.plain_kept

theorem execDevIdentify_kept (k : Nat) (s : State) (h_s : s.kept P C) : Result.kept P C (execDevIdentify k s) := by
  unfold execDevIdentify
  repeat' first | with_reducible assumption | intro _ | with_reducible apply kept_ifUnit
                | with_reducible apply State.done_kept | with_reducible apply State.plain_kept

theorem execDevStatus_kept (k : Nat) (s : State) (h_s : s.kept P C) : Result.kept P C (execDevStatus k s) := by
  unfold execDevStatus
  repeat' first | with_reducible assumption | intro _ | with_reducible apply kept_ifUnit
                | with_reducible apply State.done_kept | with_reducible apply State.plain_kept

theorem execNetConfig_kept (k : Nat) (s : State) (h_s : s.kept P C) : Result.kept P C (execNetConfig k s) := by
  unfold execNetConfig
  repeat' first | with_reducible assumption | intro _ | with_reducible apply kept_ifUnit | with_reducible apply kept_ite
                | with_reducible apply State.onHost_kept | with_reducible apply State.done_kept
                | with_reducible apply State.wrongState_kept | with_reducible apply State.command_kept

theorem execStorageTargetSet_kept (k : Nat) (s : State) (h_s : s.kept P C) : Result.kept P C (execStorageTargetSet k s) := by
  unfold execStorageTargetSet
  repeat' first | with_reducible assumption | intro _ | with_reducible apply kept_ifUnit | with_reducible apply kept_ite
                | with_reducible apply State.onHost_kept | with_reducible apply State.done_kept
                | with_reducible apply State.wrongState_kept | with_reducible apply State.command_kept
                | with_reducible apply State.connectTarget_kept

theorem execStorageTargetStatus_kept (k : Nat) (s : State) (h_s : s.kept P C) :
    Result.kept P C (execStorageTargetStatus k s) := by
  unfold execStorageTargetStatus
  repeat' first | with_reducible assumption | intro _ | with_reducible apply kept_ifUnit
                | with_reducible apply State.done_kept | with_reducible apply State.reject_kept
                | with_reducible apply State.command_kept | with_reducible apply State.freeBytes_kept | split

theorem execStorageConnectionDone_kept (target p : Nat) (ok : Bool) (s : State) (h_s : s.kept P C) :
    Result.kept P C (execStorageConnectionDone target p ok s) := by
  unfold execStorageConnectionDone
  repeat' first | with_reducible assumption | with_reducible apply kept_ifUnit | with_reducible apply State.onHost_kept
                | split

theorem execNvmeKeepAlive_kept (s : State) (h_s : s.kept P C) : Result.kept P C (execNvmeKeepAlive s) := by
  unfold execNvmeKeepAlive
  repeat' first | with_reducible assumption | intro _ | with_reducible apply kept_next | with_reducible apply kept_ite
                | with_reducible apply State.send_kept | with_reducible apply kept_foldl

theorem execFabricSetIdentity_kept (k : Nat) (s : State) (h_s : s.kept P C) : Result.kept P C (execFabricSetIdentity k s) := by
  unfold execFabricSetIdentity
  repeat' first | with_reducible assumption | intro _ | with_reducible apply kept_ifUnit | with_reducible apply kept_ite
                | with_reducible apply State.setFld_kept | with_reducible apply State.done_kept
                | with_reducible apply State.wrongState_kept | with_reducible apply State.command_kept

theorem execFabricStatus_kept (k : Nat) (s : State) (h_s : s.kept P C) : Result.kept P C (execFabricStatus k s) := by
  unfold execFabricStatus
  repeat' first | with_reducible assumption | intro _ | with_reducible apply kept_ifUnit
                | with_reducible apply State.done_kept | with_reducible apply State.plain_kept

theorem execPeerAdd_kept (k : Nat) (s : State) (h_s : s.kept P C) : Result.kept P C (execPeerAdd k s) := by
  unfold execPeerAdd
  repeat' first | with_reducible assumption | intro _ | with_reducible apply kept_ifUnit | with_reducible apply kept_ite
                | with_reducible apply State.done_kept | with_reducible apply State.reject_kept
                | with_reducible apply State.wrongState_kept | with_reducible apply State.badField_kept
                | with_reducible apply State.command_kept | with_reducible apply State.accept_kept | split

theorem execPeerRemove_kept (k : Nat) (s : State) (h_s : s.kept P C) : Result.kept P C (execPeerRemove k s) := by
  unfold execPeerRemove
  repeat' first | with_reducible assumption | intro _ | with_reducible apply kept_ifUnit | with_reducible apply kept_ite
                | with_reducible apply State.done_kept | with_reducible apply State.reject_kept
                | with_reducible apply State.wrongState_kept | with_reducible apply State.badField_kept
                | with_reducible apply State.command_kept | with_reducible apply State.accept_kept | split

theorem execPeerStatus_kept (k : Nat) (s : State) (h_s : s.kept P C) : Result.kept P C (execPeerStatus k s) := by
  unfold execPeerStatus
  repeat' first | with_reducible assumption | intro _ | with_reducible apply kept_ifUnit | with_reducible apply kept_ite
                | with_reducible apply State.done_kept | with_reducible apply State.reject_kept
                | with_reducible apply State.wrongState_kept | with_reducible apply State.command_kept | split

theorem execGroupSet_kept (k : Nat) (ext : List Byte) (s : State) (h_s : s.kept P C) :
    Result.kept P C (execGroupSet k ext s) := by
  unfold execGroupSet
  repeat' first | with_reducible assumption | intro _ | with_reducible apply kept_ifUnit | with_reducible apply kept_ite
                | with_reducible apply State.send_kept | with_reducible apply State.done_kept
                | with_reducible apply State.reject_kept | with_reducible apply State.wrongState_kept
                | with_reducible apply State.badField_kept | with_reducible apply State.command_kept
                | with_reducible apply State.accept_kept | split

theorem execRouteSetOptical_kept (k : Nat) (s : State) (h_s : s.kept P C) : Result.kept P C (execRouteSetOptical k s) := by
  unfold execRouteSetOptical
  repeat' first | with_reducible assumption | intro _ | with_reducible apply kept_ifUnit | with_reducible apply kept_ite
                | with_reducible apply State.onFabric_kept | with_reducible apply State.done_kept
                | with_reducible apply State.wrongState_kept | with_reducible apply State.command_kept
                | with_reducible apply State.reroute_kept

theorem execPortStatus_kept (k : Nat) (s : State) (h_s : s.kept P C) : Result.kept P C (execPortStatus k s) := by
  unfold execPortStatus
  repeat' first | with_reducible assumption | intro _ | with_reducible apply kept_ifUnit
                | with_reducible apply State.done_kept | with_reducible apply State.command_kept

theorem execPortRetrain_kept (k : Nat) (s : State) (h_s : s.kept P C) : Result.kept P C (execPortRetrain k s) := by
  unfold execPortRetrain
  repeat' first | with_reducible assumption | intro _ | with_reducible apply kept_ifUnit | with_reducible apply kept_ite
                | with_reducible apply State.wrongState_kept | with_reducible apply State.command_kept
                | with_reducible apply State.startLong_kept | with_reducible apply State.trainPort_kept
                | with_reducible apply kept_foldl

theorem execLaunchBroadcast_kept (k : Nat) (s : State) (h_s : s.kept P C) : Result.kept P C (execLaunchBroadcast k s) := by
  unfold execLaunchBroadcast
  repeat' first | with_reducible assumption | intro _ | with_reducible apply kept_ifUnit | with_reducible apply kept_ite
                | with_reducible apply State.setLaunch_kept | with_reducible apply State.launchHeldCheck_kept
                | with_reducible apply State.wrongState_kept | with_reducible apply State.command_kept
                | with_reducible apply State.startLong_kept

theorem execLaunchStatus_kept (k : Nat) (s : State) (h_s : s.kept P C) : Result.kept P C (execLaunchStatus k s) := by
  unfold execLaunchStatus
  repeat' first | with_reducible assumption | intro _ | with_reducible apply kept_ifUnit
                | with_reducible apply State.done_kept | with_reducible apply State.reject_kept
                | with_reducible apply State.command_kept | split

theorem execLaunchChunkForward_kept (id child : Nat) (s : State) (h_s : s.kept P C) :
    Result.kept P C (execLaunchChunkForward id child s) := by
  unfold execLaunchChunkForward
  repeat' first | with_reducible assumption | with_reducible apply kept_next | with_reducible apply State.forwardChunk_kept
                | split

theorem execLaunchHeartbeatSend_kept (id : Nat) (s : State) (h_s : s.kept P C) :
    Result.kept P C (execLaunchHeartbeatSend id s) := by
  unfold execLaunchHeartbeatSend
  repeat' first | with_reducible assumption | intro _ | with_reducible apply kept_next
                | with_reducible apply State.launchTx_kept | with_reducible apply kept_foldl | split

theorem execLaunchParentSilence_kept (id : Nat) (s : State) (h_s : s.kept P C) :
    Result.kept P C (execLaunchParentSilence id s) := by
  unfold execLaunchParentSilence
  repeat' first | with_reducible assumption | with_reducible apply kept_next | with_reducible apply State.at__kept
                | with_reducible apply State.setLaunch_kept | with_reducible apply State.launchEvent_kept
                | with_reducible apply State.launchTx_kept | with_reducible apply State.orphan_kept | split

theorem execLaunchAdoptTimeout_kept (id : Nat) (s : State) (h_s : s.kept P C) :
    Result.kept P C (execLaunchAdoptTimeout id s) := by
  unfold execLaunchAdoptTimeout
  repeat' first | with_reducible assumption | with_reducible apply kept_next | with_reducible apply State.at__kept
                | with_reducible apply State.orphan_kept | split

theorem execLaunchHeartbeat_kept (tx : Tx) (s : State) (h_s : s.kept P C) : Result.kept P C (execLaunchHeartbeat tx s) := by
  unfold execLaunchHeartbeat
  repeat' first | with_reducible assumption | intro _ | with_reducible apply kept_next | with_reducible apply kept_ite
                | with_reducible apply State.setLaunch_kept | with_reducible apply State.launchControl_kept

theorem execLaunchReattach_kept (tx : Tx) (s : State) (h_s : s.kept P C) : Result.kept P C (execLaunchReattach tx s) := by
  unfold execLaunchReattach
  repeat' first | with_reducible assumption | intro _ | with_reducible apply kept_next
                | with_reducible apply State.setLaunch_kept | with_reducible apply State.launchTx_kept
                | with_reducible apply State.launchControl_kept

theorem execLaunchAdopt_kept (tx : Tx) (s : State) (h_s : s.kept P C) : Result.kept P C (execLaunchAdopt tx s) := by
  unfold execLaunchAdopt
  repeat' first | with_reducible assumption | intro _ | with_reducible apply kept_next | with_reducible apply kept_ite
                | with_reducible apply State.setLaunch_kept | with_reducible apply State.launchDoneCheck_kept
                | with_reducible apply State.launchControl_kept

theorem execLaunchDone_kept (tx : Tx) (s : State) (h_s : s.kept P C) : Result.kept P C (execLaunchDone tx s) := by
  unfold execLaunchDone
  repeat' first | with_reducible assumption | intro _ | with_reducible apply kept_next | with_reducible apply kept_ite
                | with_reducible apply State.setLaunch_kept | with_reducible apply State.launchDoneCheck_kept
                | with_reducible apply State.launchControl_kept

theorem execStandbySupplyGood_kept (s : State) (h_s : s.kept P C) : Result.kept P C (execStandbySupplyGood s) := by
  unfold execStandbySupplyGood
  repeat' first | with_reducible assumption | intro _ | with_reducible apply kept_next | with_reducible apply kept_ite
                | with_reducible apply State.setReg_kept | with_reducible apply State.onBoard_kept

theorem execColdResetRelease_kept (st : Straps) (s : State) (h_s : s.kept P C) : Result.kept P C (execColdResetRelease st s) := by
  unfold execColdResetRelease
  repeat' first | with_reducible assumption | intro _ | with_reducible apply kept_next | with_reducible apply kept_ite
                | with_reducible apply State.setFld_kept | with_reducible apply State.onBoard_kept
                | with_reducible apply State.beginBoot_kept

theorem execColdRstNAssert_kept (s : State) (h_s : s.kept P C) : Result.kept P C (execColdRstNAssert s) := by
  unfold execColdRstNAssert
  repeat' first | with_reducible assumption | with_reducible apply kept_next | with_reducible apply State.onBoard_kept
                | with_reducible apply State.coldReset_kept

theorem execSupplyFault_kept (v : Supply) (s : State) (h_s : s.kept P C) : Result.kept P C (execSupplyFault v s) := by
  unfold execSupplyFault
  repeat' first | with_reducible assumption | with_reducible apply kept_next | with_reducible apply State.setFld_kept
                | with_reducible apply State.onBoard_kept | with_reducible apply State.coldReset_kept | split

theorem execInternalResetRelease_kept (s : State) (h_s : s.kept P C) : Result.kept P C (execInternalResetRelease s) := by
  unfold execInternalResetRelease
  repeat' first | with_reducible assumption | intro _ | with_reducible apply kept_next | with_reducible apply kept_ite
                | with_reducible apply State.setFld_kept | with_reducible apply State.onBoard_kept
                | with_reducible apply State.beginBoot_kept

theorem execPerstAssert_kept (micros : Nat) (s : State) (h_s : s.kept P C) : Result.kept P C (execPerstAssert micros s) := by
  unfold execPerstAssert
  repeat' first | with_reducible assumption | intro _ | with_reducible apply kept_next | with_reducible apply kept_ite
                | with_reducible apply State.onHost_kept | with_reducible apply State.onBoard_kept
                | with_reducible apply State.warmReset_kept

theorem execPerstDeassert_kept (s : State) (h_s : s.kept P C) : Result.kept P C (execPerstDeassert s) := by
  unfold execPerstDeassert
  repeat' first | with_reducible assumption | intro _ | with_reducible apply kept_next | with_reducible apply kept_ite
                | with_reducible apply State.onBoard_kept | with_reducible apply State.beginBoot_kept

theorem execPs3BoardControllerExit_kept (s : State) (h_s : s.kept P C) : Result.kept P C (execPs3BoardControllerExit s) := by
  unfold execPs3BoardControllerExit
  repeat' first | with_reducible assumption | intro _ | with_reducible apply kept_next | with_reducible apply kept_ite
                | with_reducible apply State.warmReboot_kept

theorem execFwActivateWarmReset_kept (s : State) (h_s : s.kept P C) : Result.kept P C (execFwActivateWarmReset s) := by
  unfold execFwActivateWarmReset
  repeat' first | with_reducible assumption | with_reducible apply kept_next | with_reducible apply State.at__kept
                | with_reducible apply State.warmReboot_kept | split

theorem execBootStageComplete_kept (f : BootFinding) (ms : Nat) (ext : List Byte) (s : State) (h_s : s.kept P C) :
    Result.kept P C (execBootStageComplete f ms ext s) := by
  unfold execBootStageComplete
  repeat' first | with_reducible assumption | intro _ | with_reducible apply kept_next | with_reducible apply kept_ite
                | with_reducible apply State.setFld_kept | with_reducible apply State.refreshFw_kept
                | with_reducible apply State.stageDone_kept | with_reducible apply State.bootLoss_kept
                | with_reducible apply State.testOut_kept | with_reducible apply kept_foldl | split

theorem execSnapArm_kept (k : Nat) (s : State) (h_s : s.kept P C) : Result.kept P C (execSnapArm k s) := by
  unfold execSnapArm
  repeat' first | with_reducible assumption | intro _ | with_reducible apply kept_ifUnit | with_reducible apply kept_ite
                | with_reducible apply State.done_kept | with_reducible apply State.reject_kept
                | with_reducible apply State.command_kept | with_reducible apply State.armSnap_kept
                | with_reducible apply State.releaseSnap_kept | with_reducible apply State.denied_kept | split

theorem execSnapTrigger_kept (k : Nat) (s : State) (h_s : s.kept P C) : Result.kept P C (execSnapTrigger k s) := by
  unfold execSnapTrigger
  repeat' first | with_reducible assumption | intro _ | with_reducible apply kept_ifUnit | with_reducible apply kept_ite
                | with_reducible apply State.done_kept | with_reducible apply State.wrongState_kept
                | with_reducible apply State.plain_kept | with_reducible apply State.fireSnap_kept
                | with_reducible apply State.denied_kept

theorem execSnapStatus_kept (k : Nat) (s : State) (h_s : s.kept P C) : Result.kept P C (execSnapStatus k s) := by
  unfold execSnapStatus
  repeat' first | with_reducible assumption | intro _ | with_reducible apply kept_ifUnit
                | with_reducible apply State.done_kept | with_reducible apply State.plain_kept

theorem execSnapshotTickMatch_kept (s : State) (h_s : s.kept P C) : Result.kept P C (execSnapshotTickMatch s) := by
  unfold execSnapshotTickMatch
  repeat' first | with_reducible assumption | intro _ | with_reducible apply kept_next | with_reducible apply kept_ite
                | with_reducible apply State.fireSnap_kept

theorem execSnapshotTimeMatch_kept (s : State) (h_s : s.kept P C) : Result.kept P C (execSnapshotTimeMatch s) := by
  unfold execSnapshotTimeMatch
  repeat' first | with_reducible assumption | with_reducible apply kept_next | with_reducible apply State.at__kept
                | with_reducible apply State.fireSnap_kept | split

theorem execSnapshotEventMatch_kept (event source : Nat) (s : State) (h_s : s.kept P C) :
    Result.kept P C (execSnapshotEventMatch event source s) := by
  unfold execSnapshotEventMatch
  repeat' first | with_reducible assumption | with_reducible apply kept_next | with_reducible apply State.fireSnap_kept

theorem execSnapshotTrigger_kept (tx : Tx) (s : State) (h_s : s.kept P C) : Result.kept P C (execSnapshotTrigger tx s) := by
  unfold execSnapshotTrigger
  repeat' first | with_reducible assumption | intro _ | with_reducible apply kept_next
                | with_reducible apply State.trigger_kept | with_reducible apply State.fireSnap_kept

theorem execTagRead_kept (k : Nat) (s : State) (h_s : s.kept P C) : Result.kept P C (execTagRead k s) := by
  unfold execTagRead
  repeat' first | with_reducible assumption | intro _ | with_reducible apply kept_ifUnit | with_reducible apply kept_ite
                | with_reducible apply State.done_kept | with_reducible apply State.command_kept
                | with_reducible apply State.denied_kept

theorem execDebugUnlock_kept (k : Nat) (ext : List Byte) (s : State) (h_s : s.kept P C) :
    Result.kept P C (execDebugUnlock k ext s) := by
  unfold execDebugUnlock
  repeat' first | with_reducible assumption | intro _ | with_reducible apply kept_ifUnit | with_reducible apply kept_ite
                | with_reducible apply State.setReg_kept | with_reducible apply State.send_kept
                | with_reducible apply State.done_kept | with_reducible apply State.reject_kept
                | with_reducible apply State.command_kept | with_reducible apply State.storageMoved_kept
                | with_reducible apply State.denied_kept | with_reducible apply State.enterD3_kept
                | with_reducible apply State.failUnlock_kept | with_reducible apply State.unlocked_kept

theorem execDebugLock_kept (k : Nat) (s : State) (h_s : s.kept P C) : Result.kept P C (execDebugLock k s) := by
  unfold execDebugLock
  repeat' first | with_reducible assumption | intro _ | with_reducible apply kept_ifUnit | with_reducible apply kept_ite
                | with_reducible apply State.done_kept | with_reducible apply State.command_kept
                | with_reducible apply State.setDebug_kept | with_reducible apply State.warmReboot_kept
                | with_reducible apply State.d2Ends_kept

theorem execD2TokenExpiry_kept (s : State) (h_s : s.kept P C) : Result.kept P C (execD2TokenExpiry s) := by
  unfold execD2TokenExpiry
  repeat' first | with_reducible assumption | intro _ | with_reducible apply kept_next | with_reducible apply kept_ite
                | with_reducible apply State.at__kept | with_reducible apply State.setDebug_kept
                | with_reducible apply State.d2Ends_kept

theorem execUnlockLockoutExpiry_kept (s : State) (h_s : s.kept P C) : Result.kept P C (execUnlockLockoutExpiry s) := by
  unfold execUnlockLockoutExpiry
  repeat' first | with_reducible assumption | with_reducible apply kept_next | with_reducible apply State.at__kept
                | with_reducible apply Kept.same | simp only [kept_mk] | split

theorem execStepHalt_kept (k : Nat) (s : State) (h_s : s.kept P C) : Result.kept P C (execStepHalt k s) := by
  unfold execStepHalt
  repeat' first | with_reducible assumption | intro _ | with_reducible apply kept_ifUnit
                | with_reducible apply State.command_kept | with_reducible apply State.markTick_kept

theorem execStepResume_kept (k : Nat) (s : State) (h_s : s.kept P C) : Result.kept P C (execStepResume k s) := by
  unfold execStepResume
  repeat' first | with_reducible assumption | intro _ | with_reducible apply kept_ifUnit
                | with_reducible apply State.command_kept | with_reducible apply State.markTick_kept

theorem execReadRequest_kept (tx : Tx) (s : State) (h_s : s.kept P C) : Result.kept P C (execReadRequest tx s) := by
  unfold execReadRequest
  repeat' first | with_reducible assumption | intro _ | with_reducible apply kept_next
                | with_reducible apply State.serveRequest_kept | with_reducible apply State.serveRead_kept
                | with_reducible apply State.takeRequest_kept | with_reducible apply State.releaseHeld_kept

theorem execWriteRequest_kept (tx : Tx) (s : State) (h_s : s.kept P C) : Result.kept P C (execWriteRequest tx s) := by
  unfold execWriteRequest
  repeat' first | with_reducible assumption | intro _ | with_reducible apply kept_next
                | with_reducible apply State.bump64_kept | with_reducible apply State.reply_kept
                | with_reducible apply State.serveRequest_kept | with_reducible apply State.refuseRequest_kept
                | with_reducible apply State.launchWrite_kept | with_reducible apply State.takeRequest_kept
                | with_reducible apply State.releaseHeld_kept | split

theorem execAtomicRequest_kept (tx : Tx) (s : State) (h_s : s.kept P C) : Result.kept P C (execAtomicRequest tx s) := by
  unfold execAtomicRequest
  repeat' first | with_reducible assumption | intro _ | with_reducible apply kept_next
                | with_reducible apply State.serveRequest_kept | with_reducible apply State.retryAtomic_kept
                | with_reducible apply State.takeRequest_kept | with_reducible apply State.releaseHeld_kept

theorem execLeekEntryExpiry_kept (s : State) (h_s : s.kept P C) : Result.kept P C (execLeekEntryExpiry s) := by
  unfold execLeekEntryExpiry
  repeat' first | with_reducible assumption | with_reducible apply kept_next | with_reducible apply State.at__kept
                | with_reducible apply State.leekNext_kept | with_reducible apply State.releaseHeld_kept | split

theorem execRankedAtomicApply_kept (addr : Nat) (s : State) (h_s : s.kept P C) :
    Result.kept P C (execRankedAtomicApply addr s) := by
  unfold execRankedAtomicApply
  repeat' first | with_reducible assumption | with_reducible apply kept_next | with_reducible apply State.write_kept
                | with_reducible apply State.atomic_kept | with_reducible apply State.setOp_kept
                | with_reducible apply State.settle_kept | with_reducible apply State.onFabric_kept
                | with_reducible apply State.journal_kept | with_reducible apply State.answerLater_kept
                | with_reducible apply State.releaseHeld_kept | simp only [kept_mk] | split

theorem execRankWaitDeadline_kept (addr rank : Nat) (s : State) (h_s : s.kept P C) :
    Result.kept P C (execRankWaitDeadline addr rank s) := by
  unfold execRankWaitDeadline
  repeat' first | with_reducible assumption | with_reducible apply kept_next | with_reducible apply State.at__kept
                | with_reducible apply State.putOp_kept | with_reducible apply State.onFabric_kept
                | with_reducible apply State.refuseRequest_kept | with_reducible apply State.releaseHeld_kept
                | simp only [kept_mk] | split

theorem execCreditRequest_kept (tx : Tx) (s : State) (h_s : s.kept P C) : Result.kept P C (execCreditRequest tx s) := by
  unfold execCreditRequest
  repeat' first | with_reducible assumption | intro _ | with_reducible apply kept_next
                | with_reducible apply State.serveRequest_kept | with_reducible apply State.repeatCredit_kept
                | with_reducible apply State.takeRequest_kept | with_reducible apply State.releaseHeld_kept

theorem execEnqueueTransaction_kept (tx : Tx) (s : State) (h_s : s.kept P C) : Result.kept P C (execEnqueueTransaction tx s) := by
  unfold execEnqueueTransaction
  repeat' first | with_reducible assumption | intro _ | with_reducible apply kept_next
                | with_reducible apply State.reply_kept | with_reducible apply State.serveRequest_kept
                | with_reducible apply State.takeRequest_kept | with_reducible apply State.releaseHeld_kept

theorem execDequeueTransaction_kept (tx : Tx) (s : State) (h_s : s.kept P C) : Result.kept P C (execDequeueTransaction tx s) := by
  unfold execDequeueTransaction
  repeat' first | with_reducible assumption | intro _ | with_reducible apply kept_next
                | with_reducible apply State.serveRequest_kept | with_reducible apply State.repeatDequeue_kept
                | with_reducible apply State.takeRequest_kept | with_reducible apply State.releaseHeld_kept

theorem execLineCommit_kept (line : Nat) (s : State) (h_s : s.kept P C) : Result.kept P C (execLineCommit line s) := by
  unfold execLineCommit
  repeat' first | with_reducible assumption | intro _ | with_reducible apply kept_next | with_reducible apply kept_ite
                | with_reducible apply State.at__kept | with_reducible apply State.settle_kept
                | with_reducible apply State.pull_kept | with_reducible apply State.finishServes_kept
                | with_reducible apply State.releaseHeld_kept

theorem execCressWindowClose_kept (line : Nat) (s : State) (h_s : s.kept P C) :
    Result.kept P C (execCressWindowClose line s) := by
  unfold execCressWindowClose
  repeat' first | with_reducible assumption | with_reducible apply kept_next | with_reducible apply State.at__kept
                | with_reducible apply State.closeCress_kept | with_reducible apply State.releaseHeld_kept | split

theorem execInvalidation_kept (tx : Tx) (s : State) (h_s : s.kept P C) : Result.kept P C (execInvalidation tx s) := by
  unfold execInvalidation
  repeat' first | with_reducible assumption | intro _ | with_reducible apply kept_next
                | with_reducible apply State.sendTx_kept | with_reducible apply State.onFabric_kept
                | with_reducible apply State.coherence_kept

theorem execInvalidationAck_kept (tx : Tx) (s : State) (h_s : s.kept P C) : Result.kept P C (execInvalidationAck tx s) := by
  unfold execInvalidationAck
  repeat' first | with_reducible assumption | intro _ | with_reducible apply kept_next
                | with_reducible apply State.onFabric_kept | with_reducible apply State.goOn_kept
                | with_reducible apply State.coherence_kept

theorem execCoherentFill_kept (tx : Tx) (s : State) (h_s : s.kept P C) : Result.kept P C (execCoherentFill tx s) := by
  unfold execCoherentFill
  repeat' first | with_reducible assumption | intro _ | with_reducible apply kept_next
                | with_reducible apply State.bump64_kept | with_reducible apply State.onFabric_kept
                | with_reducible apply State.coherence_kept

theorem execSecStatus_kept (k : Nat) (s : State) (h_s : s.kept P C) : Result.kept P C (execSecStatus k s) := by
  unfold execSecStatus
  repeat' first | with_reducible assumption | intro _ | with_reducible apply kept_ifUnit
                | with_reducible apply State.done_kept | with_reducible apply State.plain_kept

theorem execFwStage_kept (k : Nat) (ext : List Byte) (s : State) (h_s : s.kept P C) : Result.kept P C (execFwStage k ext s) := by
  unfold execFwStage
  repeat' first | with_reducible assumption | intro _ | with_reducible apply kept_ifUnit
                | with_reducible apply State.command_kept | with_reducible apply State.setSlotFw_kept
                | with_reducible apply State.startSource_kept

theorem execFwActivate_kept (k : Nat) (s : State) (h_s : s.kept P C) : Result.kept P C (execFwActivate k s) := by
  unfold execFwActivate
  repeat' first | with_reducible assumption | intro _ | with_reducible apply kept_ifUnit | with_reducible apply kept_ite
                | with_reducible apply State.reject_kept | with_reducible apply State.wrongState_kept
                | with_reducible apply State.command_kept | with_reducible apply State.startLong_kept | simp only [id]

theorem execConfigRecordWrite_kept (k : Nat) (ext : List Byte) (s : State) (h_s : s.kept P C) :
    Result.kept P C (execConfigRecordWrite k ext s) := by
  unfold execConfigRecordWrite
  repeat' first | with_reducible assumption | intro _ | with_reducible apply kept_ifUnit
                | with_reducible apply State.command_kept | with_reducible apply State.startSource_kept | simp only [id]

theorem execOwnerKeySet_kept (k : Nat) (s : State) (h_s : s.kept P C) : Result.kept P C (execOwnerKeySet k s) := by
  unfold execOwnerKeySet
  repeat' first | with_reducible assumption | intro _ | with_reducible apply kept_ifUnit | with_reducible apply kept_ite
                | with_reducible apply State.done_kept | with_reducible apply State.wrongState_kept
                | with_reducible apply State.command_kept | with_reducible apply State.setOwnerKeys_kept
                | with_reducible apply State.denied_kept

theorem execCertRead_kept (k : Nat) (s : State) (h_s : s.kept P C) : Result.kept P C (execCertRead k s) := by
  unfold execCertRead
  repeat' first | with_reducible assumption | intro _ | with_reducible apply kept_ifUnit
                | with_reducible apply State.done_kept | with_reducible apply State.command_kept

theorem execRecoveryImageStream_kept (image : List Byte) (s : State) (h_s : s.kept P C) :
    Result.kept P C (execRecoveryImageStream image s) := by
  unfold execRecoveryImageStream
  repeat' first | with_reducible assumption | intro _ | with_reducible apply kept_next | with_reducible apply kept_ite
                | with_reducible apply State.warmReboot_kept | with_reducible apply State.onMram_kept
                | with_reducible apply State.setSlotFw_kept | simp only [kept_mk] | exact Nat.le_refl _

theorem execRecoveryD3Grant_kept (grant : List Byte) (s : State) (h_s : s.kept P C) :
    Result.kept P C (execRecoveryD3Grant grant s) := by
  unfold execRecoveryD3Grant
  repeat' first | with_reducible assumption | intro _ | with_reducible apply kept_next | with_reducible apply kept_ite
                | with_reducible apply State.bump_kept | with_reducible apply State.enterD3_kept
                | with_reducible apply State.unlocked_kept

theorem execUnknownCommand_kept (k : Nat) (s : State) (h_s : s.kept P C) : Result.kept P C (execUnknownCommand k s) := by
  unfold execUnknownCommand
  repeat' first | with_reducible assumption | intro _ | with_reducible apply kept_ifUnit | with_reducible apply kept_ite
                | with_reducible apply State.reject_kept

theorem execPowerStateSet_kept (k : Nat) (s : State) (h_s : s.kept P C) : Result.kept P C (execPowerStateSet k s) := by
  unfold execPowerStateSet
  repeat' first | with_reducible assumption | intro _ | with_reducible apply kept_ifUnit | with_reducible apply kept_ite
                | with_reducible apply State.wrongState_kept | with_reducible apply State.command_kept
                | with_reducible apply State.startLong_kept | simp only [id]

theorem execPowerCapSet_kept (k : Nat) (s : State) (h_s : s.kept P C) : Result.kept P C (execPowerCapSet k s) := by
  unfold execPowerCapSet
  repeat' first | with_reducible assumption | intro _ | with_reducible apply kept_ifUnit
                | with_reducible apply State.done_kept | with_reducible apply State.command_kept
                | with_reducible apply State.onPower_kept

theorem execPowerStatus_kept (k : Nat) (s : State) (h_s : s.kept P C) : Result.kept P C (execPowerStatus k s) := by
  unfold execPowerStatus
  repeat' first | with_reducible assumption | intro _ | with_reducible apply kept_ifUnit
                | with_reducible apply State.done_kept | with_reducible apply State.plain_kept

theorem execSelfTest_kept (k found ending : Nat) (units : List TestUnit) (s : State) (h_s : s.kept P C) :
    Result.kept P C (execSelfTest k found ending units s) := by
  unfold execSelfTest
  repeat' first | with_reducible assumption | intro _ | with_reducible apply kept_ifUnit | with_reducible apply kept_ite
                | with_reducible apply State.setFld_kept | with_reducible apply State.wrongState_kept
                | with_reducible apply State.command_kept | with_reducible apply State.startLong_kept
                | with_reducible apply State.portDown_kept | with_reducible apply State.onTests_kept
                | with_reducible apply kept_foldl

theorem execOnlineTestSet_kept (k : Nat) (s : State) (h_s : s.kept P C) : Result.kept P C (execOnlineTestSet k s) := by
  unfold execOnlineTestSet
  repeat' first | with_reducible assumption | intro _ | with_reducible apply kept_ifUnit
                | with_reducible apply State.done_kept | with_reducible apply State.command_kept
                | with_reducible apply State.onTests_kept

theorem execTestStatus_kept (k : Nat) (s : State) (h_s : s.kept P C) : Result.kept P C (execTestStatus k s) := by
  unfold execTestStatus
  repeat' first | with_reducible assumption | intro _ | with_reducible apply kept_ifUnit
                | with_reducible apply State.done_kept | with_reducible apply State.plain_kept

theorem execMemRepairApply_kept (k : Nat) (s : State) (h_s : s.kept P C) : Result.kept P C (execMemRepairApply k s) := by
  unfold execMemRepairApply
  repeat' first | with_reducible assumption | intro _ | with_reducible apply kept_ifUnit | with_reducible apply kept_ite
                | with_reducible apply State.wrongState_kept | with_reducible apply State.plain_kept
                | with_reducible apply State.startLong_kept | simp only [id]

theorem execMemHealth_kept (k : Nat) (s : State) (h_s : s.kept P C) : Result.kept P C (execMemHealth k s) := by
  unfold execMemHealth
  repeat' first | with_reducible assumption | intro _ | with_reducible apply kept_ifUnit
                | with_reducible apply State.done_kept | with_reducible apply State.plain_kept

theorem execFaultLogRead_kept (k : Nat) (s : State) (h_s : s.kept P C) : Result.kept P C (execFaultLogRead k s) := by
  unfold execFaultLogRead
  repeat' first | with_reducible assumption | intro _ | with_reducible apply kept_ifUnit
                | with_reducible apply State.done_kept | with_reducible apply State.command_kept

theorem execModPrsntChange_kept (present : Bool) (s : State) (h_s : s.kept P C) :
    Result.kept P C (execModPrsntChange present s) := by
  unfold execModPrsntChange
  repeat' first | with_reducible assumption | with_reducible apply kept_next | with_reducible apply State.setFld_kept
                | with_reducible apply State.upTo_kept | with_reducible apply State.onCkpt_kept
                | with_reducible apply State.failCheckpoint_kept | with_reducible apply State.endExport_kept

theorem execStorageCommandTimeout_kept (k : Nat) (s : State) (h_s : s.kept P C) :
    Result.kept P C (execStorageCommandTimeout k s) := by
  unfold execStorageCommandTimeout
  repeat' first | with_reducible assumption | with_reducible apply kept_ifUnit | with_reducible apply State.upTo_kept
                | with_reducible apply State.targetStatus_kept | with_reducible apply State.failLong_kept | split

theorem execBar2Read_kept (offset len : Nat) (uncorrectable : Bool) (s : State) (h_s : s.kept P C) :
    Result.kept P C (execBar2Read offset len uncorrectable s) := by
  unfold execBar2Read
  repeat' first | with_reducible assumption | intro _ | with_reducible apply kept_next | with_reducible apply kept_ite
                | with_reducible apply State.send_kept | with_reducible apply State.findBad_kept
                | with_reducible apply State.badRead_kept | with_reducible apply State.hostFault_kept

theorem execMbxDoorbell_kept (k : Nat) (s : State) (h_s : s.kept P C) : Result.kept P C (execMbxDoorbell k s) := by
  unfold execMbxDoorbell
  repeat' first | with_reducible assumption | with_reducible apply kept_ifUnit | with_reducible apply State.takeWrite_kept

theorem execMailboxPageWrite_kept (k offset : Nat) (data : List Byte) (s : State) (h_s : s.kept P C) :
    Result.kept P C (execMailboxPageWrite k offset data s) := by
  unfold execMailboxPageWrite
  repeat' first | with_reducible assumption | with_reducible apply kept_ifUnit | with_reducible apply State.takeWrite_kept

theorem execMbxDoneClear_kept (mask : Nat) (s : State) (h_s : s.kept P C) : Result.kept P C (execMbxDoneClear mask s) := by
  unfold execMbxDoneClear
  repeat' first | with_reducible assumption | with_reducible apply kept_next | with_reducible apply State.takeWrite_kept

theorem execMbxEvtEnable_kept (value : Nat) (s : State) (h_s : s.kept P C) : Result.kept P C (execMbxEvtEnable value s) := by
  unfold execMbxEvtEnable
  repeat' first | with_reducible assumption | with_reducible apply kept_next | with_reducible apply State.takeWrite_kept

theorem execMbxEvtHeadWrite_kept (value : Nat) (s : State) (h_s : s.kept P C) :
    Result.kept P C (execMbxEvtHeadWrite value s) := by
  unfold execMbxEvtHeadWrite
  repeat' first | with_reducible assumption | with_reducible apply kept_next | with_reducible apply State.takeWrite_kept

theorem execRegisterWrite_kept (offset size value : Nat) (s : State) (h_s : s.kept P C) :
    Result.kept P C (execRegisterWrite offset size value s) := by
  unfold execRegisterWrite
  repeat' first | with_reducible assumption | with_reducible apply kept_next | with_reducible apply State.takeWrite_kept

theorem execBar0RefusedAccess_kept (a : Bar0Access) (s : State) (h_s : s.kept P C) :
    Result.kept P C (execBar0RefusedAccess a s) := by
  unfold execBar0RefusedAccess
  repeat' first | with_reducible assumption | intro _ | with_reducible apply kept_next | with_reducible apply kept_ite
                | with_reducible apply State.bar0Read_kept | with_reducible apply State.takeWrite_kept

theorem execBar2Write_kept (offset : Nat) (data : List Byte) (s : State) (h_s : s.kept P C) :
    Result.kept P C (execBar2Write offset data s) := by
  unfold execBar2Write
  repeat' first | with_reducible assumption | with_reducible apply kept_next | with_reducible apply State.takeWrite_kept

theorem execHostEnqueue_kept (offset : Nat) (data : List Byte) (s : State) (h_s : s.kept P C) :
    Result.kept P C (execHostEnqueue offset data s) := by
  unfold execHostEnqueue
  repeat' first | with_reducible assumption | intro _ | with_reducible apply kept_ifUnit
                | with_reducible apply State.takeWrite_kept | with_reducible apply kept_foldl

theorem execLongCommandDone_kept (k : Nat) (e : Ending) (s : State) (h_s : s.kept P C) :
    Result.kept P C (execLongCommandDone k e s) := by
  unfold execLongCommandDone
  repeat' first | with_reducible assumption | with_reducible apply kept_ifUnit | with_reducible apply State.carryOut_kept
                | with_reducible apply State.endBadly_kept | with_reducible apply State.ownReset_kept
                | with_reducible apply State.releasePosted_kept | split

theorem execHostCompletionTimeout_kept (id req : Nat) (s : State) (h_s : s.kept P C) :
    Result.kept P C (execHostCompletionTimeout id req s) := by
  unfold execHostCompletionTimeout
  repeat' first | with_reducible assumption | with_reducible apply kept_next | with_reducible apply State.failHostReq_kept

theorem execPoisonedTlp_kept (write : Bool) (id req : Nat) (s : State) (h_s : s.kept P C) :
    Result.kept P C (execPoisonedTlp write id req s) := by
  unfold execPoisonedTlp
  repeat' first | with_reducible assumption | intro _ | with_reducible apply kept_next | with_reducible apply kept_ite
                | with_reducible apply State.send_kept | with_reducible apply State.failHostReq_kept

theorem execPcieLinkDown_kept (s : State) (h_s : s.kept P C) : Result.kept P C (execPcieLinkDown s) := by
  unfold execPcieLinkDown
  repeat' first | with_reducible assumption | with_reducible apply kept_next | with_reducible apply State.onHost_kept
                | with_reducible apply State.failHostWindow_kept

theorem execPcieLinkUp_kept (hostRate : Nat) (s : State) (h_s : s.kept P C) : Result.kept P C (execPcieLinkUp hostRate s) := by
  unfold execPcieLinkUp
  repeat' first | with_reducible assumption | intro _ | with_reducible apply kept_next | with_reducible apply kept_ite
                | with_reducible apply State.setFld_kept | with_reducible apply State.flushEvents_kept
                | with_reducible apply State.onHost_kept

theorem execFunctionLevelReset_kept (s : State) (h_s : s.kept P C) : Result.kept P C (execFunctionLevelReset s) := by
  unfold execFunctionLevelReset
  repeat' first | with_reducible assumption | intro _ | with_reducible apply kept_next | with_reducible apply kept_ite
                | with_reducible apply State.functionReset_kept

theorem execPcieHotReset_kept (s : State) (h_s : s.kept P C) : Result.kept P C (execPcieHotReset s) := by
  unfold execPcieHotReset
  repeat' first | with_reducible assumption | intro _ | with_reducible apply kept_next | with_reducible apply kept_ite
                | with_reducible apply State.onHost_kept | with_reducible apply State.functionReset_kept

theorem execPcieConfigurationWrite_kept (c : PcieConfig) (s : State) (h_s : s.kept P C) :
    Result.kept P C (execPcieConfigurationWrite c s) := by
  unfold execPcieConfigurationWrite
  repeat' first | with_reducible assumption | with_reducible apply kept_next | with_reducible apply State.flushEvents_kept
                | with_reducible apply State.onHost_kept | with_reducible apply State.failHostWindow_kept | split

theorem execRemoteMailboxDatagram_kept (d : Datagram) (s : State) (h_s : s.kept P C) :
    Result.kept P C (execRemoteMailboxDatagram d s) := by
  unfold execRemoteMailboxDatagram
  repeat' first | with_reducible assumption | with_reducible apply kept_ifUnit | with_reducible apply State.bump_kept
                | with_reducible apply State.onHost_kept | with_reducible apply State.resendKept_kept
                | with_reducible apply State.takeRemote_kept | simp only [kept_mk] | split

theorem execMatmul_kept (l : ListId) (r : OpRecord) (s : State) (h_s : s.kept P C) : Result.kept P C (execMatmul l r s) := by
  unfold execMatmul
  repeat' first | with_reducible assumption | intro _ | with_reducible apply kept_ifUnit | with_reducible apply kept_ite
                | with_reducible apply State.issueOp_kept | with_reducible apply matrixRun_kept

theorem execMatmulPart_kept (l : ListId) (r : OpRecord) (s : State) (h_s : s.kept P C) :
    Result.kept P C (execMatmulPart l r s) := by
  unfold execMatmulPart
  repeat' first | with_reducible assumption | intro _ | with_reducible apply kept_ifUnit | with_reducible apply kept_ite
                | with_reducible apply State.issueOp_kept | with_reducible apply matrixRun_kept

theorem execAnchorGather_kept (l : ListId) (r : OpRecord) (s : State) (h_s : s.kept P C) :
    Result.kept P C (execAnchorGather l r s) := by
  unfold execAnchorGather
  repeat' first | with_reducible assumption | intro _ | with_reducible apply kept_ifUnit | with_reducible apply kept_ite
                | with_reducible apply State.issueOp_kept | with_reducible apply matrixRun_kept

theorem execPartCombine_kept (l : ListId) (r : OpRecord) (s : State) (h_s : s.kept P C) :
    Result.kept P C (execPartCombine l r s) := by
  unfold execPartCombine
  repeat' first | with_reducible assumption | intro _ | with_reducible apply kept_ifUnit | with_reducible apply kept_ite
                | with_reducible apply State.issueOp_kept | with_reducible apply matrixRun_kept

theorem execReservationGrant_kept (q : Nat) (s : State) (h_s : s.kept P C) : Result.kept P C (execReservationGrant q s) := by
  unfold execReservationGrant
  repeat' first | with_reducible assumption | with_reducible apply kept_ifUnit | with_reducible apply State.grants_kept
                | with_reducible apply State.goOnAll_kept

theorem execEntryLanding_kept (q pos : Nat) (s : State) (h_s : s.kept P C) : Result.kept P C (execEntryLanding q pos s) := by
  unfold execEntryLanding
  repeat' first | with_reducible assumption | with_reducible apply kept_ifUnit | with_reducible apply State.landAt_kept
                | with_reducible apply State.afterLanding_kept | with_reducible apply State.goOnAll_kept | split

theorem execWindowFetchDone_kept (q : Nat) (s : State) (h_s : s.kept P C) : Result.kept P C (execWindowFetchDone q s) := by
  unfold execWindowFetchDone
  repeat' first | with_reducible assumption | intro _ | with_reducible apply kept_ifUnit | with_reducible apply kept_ite
                | with_reducible apply State.fetched_kept | with_reducible apply State.serveDeqs_kept
                | with_reducible apply State.grants_kept | with_reducible apply State.goOnAll_kept

theorem execSlotGrant_kept (q : Nat) (s : State) (h_s : s.kept P C) : Result.kept P C (execSlotGrant q s) := by
  unfold execSlotGrant
  repeat' first | with_reducible assumption | with_reducible apply kept_ifUnit
                | with_reducible apply State.refreshEngine_kept | with_reducible apply State.giveSlot_kept
                | with_reducible apply State.slotTaken_kept | with_reducible refine kept_fst (by assumption) ?_ | split

theorem execTrackerGrant_kept (q : Nat) (s : State) (h_s : s.kept P C) : Result.kept P C (execTrackerGrant q s) := by
  unfold execTrackerGrant
  repeat' first | with_reducible assumption | intro _ | with_reducible apply kept_ifUnit | with_reducible apply kept_ite
                | with_reducible apply State.grants_kept | with_reducible apply State.goOnAll_kept

theorem execHeadWindowRefill_kept (q : Nat) (s : State) (h_s : s.kept P C) : Result.kept P C (execHeadWindowRefill q s) := by
  unfold execHeadWindowRefill
  repeat' first | with_reducible assumption | intro _ | with_reducible apply kept_ifUnit | with_reducible apply kept_ite
                | with_reducible apply State.refillHead_kept | with_reducible apply State.serveDeqs_kept
                | with_reducible apply State.goOnAll_kept

theorem execQueueWritebackDone_kept (q : Nat) (s : State) (h_s : s.kept P C) : Result.kept P C (execQueueWritebackDone q s) := by
  unfold execQueueWritebackDone
  repeat' first | with_reducible assumption | intro _ | with_reducible apply kept_ifUnit | with_reducible apply kept_ite
                | with_reducible apply State.excursion_kept | with_reducible apply State.setQueue_kept
                | with_reducible apply State.refillHead_kept | with_reducible apply State.landAt_kept
                | with_reducible apply State.serveDeqs_kept | with_reducible apply State.afterLanding_kept
                | with_reducible apply State.grants_kept | with_reducible apply State.goOnAll_kept
                | with_reducible apply kept_foldl

theorem execHostEnqueueDrop_kept (s : State) (h_s : s.kept P C) : Result.kept P C (execHostEnqueueDrop s) := by
  unfold execHostEnqueueDrop
  repeat' first | with_reducible assumption | with_reducible apply kept_next | with_reducible apply State.at__kept
                | with_reducible apply State.grants_kept | with_reducible apply State.goOnAll_kept
                | with_reducible apply State.dropHeld_kept | split

theorem execCkpRestore_kept (k : Nat) (sources : List (List Byte)) (s : State) (h_s : s.kept P C) :
    Result.kept P C (execCkpRestore k sources s) := by
  unfold execCkpRestore
  repeat' first | with_reducible assumption | intro _ | with_reducible apply kept_ifUnit | with_reducible apply kept_ite
                | with_reducible apply State.wrongState_kept | with_reducible apply State.badField_kept
                | with_reducible apply State.command_kept | with_reducible apply State.startLong_kept
                | with_reducible apply State.restore_kept | with_reducible apply State.restoreRead_kept
                | with_reducible apply State.setFld_kept | split

theorem execOpCompletion_kept (id : Nat) (s : State) (h_s : s.kept P C) : Result.kept P C (execOpCompletion id s) := by
  unfold execOpCompletion
  repeat' first | with_reducible assumption | with_reducible apply kept_next | with_reducible apply State.completeOp_kept
                | with_reducible apply State.startQueued_kept | split

theorem execTransferRequestComplete_kept (id req : Nat) (data : List Byte) (ok : Bool) (s : State) (h_s : s.kept P C) :
    Result.kept P C (execTransferRequestComplete id req data ok s) := by
  unfold execTransferRequestComplete
  repeat' first | with_reducible assumption | with_reducible apply kept_next | with_reducible apply State.bump64_kept
                | with_reducible apply State.requestDone_kept | split

theorem execTagGrant_kept (s : State) (h_s : s.kept P C) : Result.kept P C (execTagGrant s) := by
  unfold execTagGrant
  repeat' first | with_reducible assumption | with_reducible apply kept_next | with_reducible apply State.settle_kept
                | with_reducible apply State.sendReq_kept | with_reducible apply Kept.same | simp only [kept_mk] | split

theorem execQueueWaitReread_kept (l : ListId) (s : State) (h_s : s.kept P C) : Result.kept P C (execQueueWaitReread l s) := by
  unfold execQueueWaitReread
  repeat' first | with_reducible assumption | with_reducible apply kept_ifUnit | with_reducible apply State.countWait_kept
                | with_reducible apply State.setSeq_kept | split

theorem execChecksumReloadDone_kept (id tile : Nat) (verifies : Bool) (s : State) (h_s : s.kept P C) :
    Result.kept P C (execChecksumReloadDone id tile verifies s) := by
  unfold execChecksumReloadDone
  repeat' first | with_reducible assumption | intro _ | with_reducible apply kept_next | with_reducible apply kept_ite
                | with_reducible apply State.setOp_kept | with_reducible apply State.countFails_kept
                | with_reducible apply State.badRead_kept | with_reducible apply State.tileRecovered_kept
                | with_reducible apply State.tileLost_kept | split

theorem execProducerReplay_kept (id tile : Nat) (verifies : Bool) (s : State) (h_s : s.kept P C) :
    Result.kept P C (execProducerReplay id tile verifies s) := by
  unfold execProducerReplay
  repeat' first | with_reducible assumption | with_reducible apply kept_next | with_reducible apply State.bump32_kept
                | with_reducible apply State.excursion_kept | with_reducible apply State.onRecord_kept
                | with_reducible apply State.writePiece_kept | with_reducible apply State.countFails_kept
                | with_reducible apply State.tileRecovered_kept | with_reducible apply State.tileLost_kept | split

theorem execNop_kept (l : ListId) (r : OpRecord) (s : State) (h_s : s.kept P C) : Result.kept P C (execNop l r s) := by
  unfold execNop
  repeat' first | with_reducible assumption | intro _ | with_reducible apply kept_ifUnit
                | with_reducible apply State.seqRecord_kept | simp only [id]

theorem execWait_kept (l : ListId) (r : OpRecord) (s : State) (h_s : s.kept P C) : Result.kept P C (execWait l r s) := by
  unfold execWait
  repeat' first | with_reducible assumption | intro _ | with_reducible apply kept_ifUnit
                | with_reducible apply State.seqRecord_kept | simp only [id]

theorem execSetc_kept (l : ListId) (r : OpRecord) (s : State) (h_s : s.kept P C) : Result.kept P C (execSetc l r s) := by
  unfold execSetc
  repeat' first | with_reducible assumption | intro _ | with_reducible apply kept_ifUnit
                | with_reducible apply State.setCount_kept | with_reducible apply State.seqRecord_kept

theorem execAddc_kept (l : ListId) (r : OpRecord) (s : State) (h_s : s.kept P C) : Result.kept P C (execAddc l r s) := by
  unfold execAddc
  repeat' first | with_reducible assumption | intro _ | with_reducible apply kept_ifUnit
                | with_reducible apply State.setCount_kept | with_reducible apply State.seqRecord_kept

theorem execSubc_kept (l : ListId) (r : OpRecord) (s : State) (h_s : s.kept P C) : Result.kept P C (execSubc l r s) := by
  unfold execSubc
  repeat' first | with_reducible assumption | intro _ | with_reducible apply kept_ifUnit
                | with_reducible apply State.setCount_kept | with_reducible apply State.seqRecord_kept

theorem execLoop_kept (l : ListId) (r : OpRecord) (s : State) (h_s : s.kept P C) : Result.kept P C (execLoop l r s) := by
  unfold execLoop
  repeat' first | with_reducible assumption | intro _ | with_reducible apply kept_ifUnit | with_reducible apply kept_ite
                | with_reducible apply State.seqRecord_kept | with_reducible apply State.jump_kept

theorem execOpListRefetchDone_kept (l : ListId) (s : State) (h_s : s.kept P C) : Result.kept P C (execOpListRefetchDone l s) := by
  unfold execOpListRefetchDone
  repeat' first | with_reducible assumption | intro _ | with_reducible apply kept_ifUnit | with_reducible apply kept_ite
                | with_reducible apply Kept.same | simp only [kept_mk]

theorem execFence_kept (l : ListId) (r : OpRecord) (s : State) (h_s : s.kept P C) : Result.kept P C (execFence l r s) := by
  unfold execFence
  repeat' first | with_reducible assumption | intro _ | with_reducible apply kept_ifUnit | with_reducible apply kept_ite
                | with_reducible apply State.holdSeq_kept | with_reducible apply State.seqRecord_kept | simp only [id]

theorem execSignal_kept (l : ListId) (r : OpRecord) (s : State) (h_s : s.kept P C) : Result.kept P C (execSignal l r s) := by
  unfold execSignal
  repeat' first | with_reducible assumption | intro _ | with_reducible apply kept_ifUnit
                | with_reducible apply State.seqRecord_kept | with_reducible apply State.signalFrom_kept

theorem execPhaseDone_kept (l : ListId) (r : OpRecord) (s : State) (h_s : s.kept P C) :
    Result.kept P C (execPhaseDone l r s) := by
  unfold execPhaseDone
  repeat' first | with_reducible assumption | intro _ | with_reducible apply kept_ifUnit
                | with_reducible apply State.seqRecord_kept | with_reducible apply State.refreshPhases_kept
                | with_reducible apply Kept.same | simp only [kept_mk]

theorem execEndStep_kept (l : ListId) (r : OpRecord) (s : State) (h_s : s.kept P C) : Result.kept P C (execEndStep l r s) := by
  unfold execEndStep
  repeat' first | with_reducible assumption | intro _ | with_reducible apply kept_ifUnit | with_reducible apply kept_ite
                | with_reducible apply State.holdSeq_kept | with_reducible apply State.seqRecord_kept
                | with_reducible apply State.endOfStep_kept

theorem execGetVersion_kept (s : State) (h_s : s.kept P C) : Result.kept P C (execGetVersion s) := by
  unfold execGetVersion
  repeat' first | with_reducible assumption | intro _ | with_reducible apply State.send_kept
                | with_reducible apply State.onSpdm_kept

theorem execGetCapabilities_kept (s : State) (h_s : s.kept P C) : Result.kept P C (execGetCapabilities s) := by
  unfold execGetCapabilities
  repeat' first | with_reducible assumption | intro _ | with_reducible apply State.fresh_kept
                | with_reducible apply State.spdm_kept | with_reducible apply State.onSpdm_kept

theorem execNegotiateAlgorithms_kept (hash asym : Nat) (s : State) (h_s : s.kept P C) :
    Result.kept P C (execNegotiateAlgorithms hash asym s) := by
  unfold execNegotiateAlgorithms
  repeat' first | with_reducible assumption | intro _ | with_reducible apply State.spdm_kept
                | with_reducible apply State.onSpdm_kept

theorem execGetDigests_kept (s : State) (h_s : s.kept P C) : Result.kept P C (execGetDigests s) := by
  unfold execGetDigests
  repeat' first | with_reducible assumption | intro _ | with_reducible apply State.spdm_kept
                | with_reducible apply State.onSpdm_kept

theorem execGetCertificate_kept (slot offset len : Nat) (s : State) (h_s : s.kept P C) :
    Result.kept P C (execGetCertificate slot offset len s) := by
  unfold execGetCertificate
  repeat' first | with_reducible assumption | intro _ | with_reducible apply kept_ite | with_reducible apply State.spdm_kept
                | with_reducible apply State.spdmError_kept | with_reducible apply State.onSpdm_kept

theorem execChallenge_kept (slot : Nat) (nonce : List Byte) (s : State) (h_s : s.kept P C) :
    Result.kept P C (execChallenge slot nonce s) := by
  unfold execChallenge
  repeat' first | with_reducible assumption | intro _ | with_reducible apply kept_ite
                | with_reducible apply State.fresh_kept | with_reducible apply State.spdmError_kept
                | with_reducible apply State.onSpdm_kept | with_reducible apply State.signSpdm_kept

theorem execGetMeasurements_kept (index : Nat) (signed : Bool) (nonce : List Byte) (s : State) (h_s : s.kept P C) :
    Result.kept P C (execGetMeasurements index signed nonce s) := by
  unfold execGetMeasurements
  repeat' first | with_reducible assumption | intro _ | with_reducible apply kept_ite
                | with_reducible apply State.fresh_kept | with_reducible apply State.spdm_kept
                | with_reducible apply State.spdmError_kept | with_reducible apply State.onSpdm_kept
                | with_reducible apply State.signSpdm_kept

theorem execChunkGet_kept (handle seq : Nat) (s : State) (h_s : s.kept P C) : Result.kept P C (execChunkGet handle seq s) := by
  unfold execChunkGet
  repeat' first | with_reducible assumption | intro _ | with_reducible apply kept_ite | with_reducible apply State.upTo_kept
                | with_reducible apply State.spdm_kept | with_reducible apply State.spdmError_kept
                | with_reducible apply State.onSpdm_kept | with_reducible apply Kept.same | simp only [kept_mk]

theorem execVendorDefinedRequest_kept (wantCert : Bool) (nonce : List Byte) (s : State) (h_s : s.kept P C) :
    Result.kept P C (execVendorDefinedRequest wantCert nonce s) := by
  unfold execVendorDefinedRequest
  repeat' first | with_reducible assumption | intro _ | with_reducible apply State.spdmError_kept
                | with_reducible apply State.onSpdm_kept | with_reducible apply State.largeSpdm_kept | split

theorem execSpdmUnsupportedRequest_kept (code : Nat) (s : State) (h_s : s.kept P C) :
    Result.kept P C (execSpdmUnsupportedRequest code s) := by
  unfold execSpdmUnsupportedRequest
  repeat' first | with_reducible assumption | intro _ | with_reducible apply State.spdm_kept
                | with_reducible apply State.onSpdm_kept

theorem execI3cSetdasa_kept (static addr : Nat) (s : State) (h_s : s.kept P C) :
    Result.kept P C (execI3cSetdasa static addr s) := by
  unfold execI3cSetdasa
  repeat' first | with_reducible assumption | intro _ | with_reducible apply kept_next | with_reducible apply kept_ite
                | with_reducible apply State.send_kept | with_reducible apply State.onBoard_kept

theorem execI3cEntdaa_kept (addr : Nat) (s : State) (h_s : s.kept P C) : Result.kept P C (execI3cEntdaa addr s) := by
  unfold execI3cEntdaa
  repeat' first | with_reducible assumption | intro _ | with_reducible apply kept_next | with_reducible apply kept_ite
                | with_reducible apply State.send_kept | with_reducible apply State.onBoard_kept

theorem execI3cPrivateWrite_kept (addr : Nat) (data : List Byte) (s : State) (h_s : s.kept P C) :
    Result.kept P C (execI3cPrivateWrite addr data s) := by
  unfold execI3cPrivateWrite
  repeat' first | with_reducible assumption | intro _ | with_reducible apply kept_next | with_reducible apply kept_ite
                | with_reducible apply State.onBoard_kept

theorem execI3cPrivateRead_kept (addr len : Nat) (s : State) (h_s : s.kept P C) :
    Result.kept P C (execI3cPrivateRead addr len s) := by
  unfold execI3cPrivateRead
  repeat' first | with_reducible assumption | with_reducible apply kept_next | with_reducible apply State.send_kept
                | with_reducible apply State.fresh_kept | split

theorem execBypass_kept (s : State) (h_s : s.kept P C) : Result.kept P C (execBypass s) := by
  unfold execBypass
  repeat' first | with_reducible assumption | intro _ | with_reducible apply State.send_kept
                | with_reducible apply State.jtagTake_kept

theorem execIdcode_kept (s : State) (h_s : s.kept P C) : Result.kept P C (execIdcode s) := by
  unfold execIdcode
  repeat' first | with_reducible assumption | intro _ | with_reducible apply State.send_kept
                | with_reducible apply State.jtagTake_kept

theorem execSamplePreload_kept (pins preload : Nat) (s : State) (h_s : s.kept P C) :
    Result.kept P C (execSamplePreload pins preload s) := by
  unfold execSamplePreload
  repeat' first | with_reducible assumption | intro _ | with_reducible apply State.send_kept
                | with_reducible apply State.onBoard_kept | with_reducible apply State.jtagTake_kept

theorem execExtest_kept (s : State) (h_s : s.kept P C) : Result.kept P C (execExtest s) := by
  unfold execExtest
  repeat' first | with_reducible assumption | intro _ | with_reducible apply kept_next
                | with_reducible apply kept_ite_result | with_reducible apply State.onBoard_kept
                | with_reducible apply State.jtagTake_kept

theorem execClamp_kept (s : State) (h_s : s.kept P C) : Result.kept P C (execClamp s) := by
  unfold execClamp
  repeat' first | with_reducible assumption | intro _ | with_reducible apply kept_next
                | with_reducible apply kept_ite_result | with_reducible apply State.send_kept
                | with_reducible apply State.onBoard_kept | with_reducible apply State.jtagTake_kept

end Sys2Proof.Machine
end

