-- ==== Sys2Proof/Laws/Regs.lean ====
section
/-! SUPPORT. Reading a register or a field after one has been written. -/
namespace Sys2Proof.Machine

/-- Bit `i` of a register whose field [hi:lo] has been set. -/
theorem getLsbD_setBits (r : Word64) (hi lo v i : Nat) (hh : hi < 64) (hl : lo ≤ hi) :
    (setBits r hi lo v).getLsbD i = if lo ≤ i ∧ i ≤ hi then v.testBit (i - lo) else r.getLsbD i := by
  have hw : hi - lo + 1 ≤ 64 := by omega
  unfold setBits
  simp only [BitVec.getLsbD_or, BitVec.getLsbD_and, BitVec.getLsbD_not, BitVec.getLsbD_ofNat, Nat.testBit_shiftLeft,
    Nat.testBit_two_pow_sub_one, Nat.testBit_mod_two_pow]
  by_cases h64 : i < 64
  · by_cases h : lo ≤ i ∧ i ≤ hi
    · have h1 : i ≥ lo := h.1
      have h2 : i - lo < hi - lo + 1 := by omega
      simp [h64, h, h2]
    · by_cases h1 : lo ≤ i
      · have h2 : ¬ (i - lo < hi - lo + 1) := by omega
        have h3 : ¬ (i ≤ hi) := fun h3 => h ⟨h1, h3⟩
        simp [h64, h2, h3]
      · simp [h64, h1]
  · have h3 : ¬ (i ≤ hi) := by omega
    simp [h64, h3]
    exact BitVec.getLsbD_of_ge r i (by omega)

theorem testBit_getBits (r : Word64) (hi lo i : Nat) :
    (getBits r hi lo).testBit i = (decide (i < hi - lo + 1) && r.getLsbD (lo + i)) := by
  simp [getBits, Nat.testBit_mod_two_pow, Nat.testBit_shiftRight, BitVec.testBit_toNat]

/-- A field reads what was written to it, cut to its width. -/
theorem getBits_setBits_same (r : Word64) (hi lo v : Nat) (hh : hi < 64) (hl : lo ≤ hi) :
    getBits (setBits r hi lo v) hi lo = v % 2 ^ (hi - lo + 1) := by
  apply Nat.eq_of_testBit_eq
  intro i
  rw [testBit_getBits, getLsbD_setBits r hi lo v _ hh hl, Nat.testBit_mod_two_pow]
  by_cases h : i < hi - lo + 1
  · have h1 : lo + i ≤ hi := by omega
    simp [h, h1]
  · simp [h]

/-- A field of other bits of the same register is unchanged. -/
theorem getBits_setBits_other (r : Word64) (hi lo v hi' lo' : Nat) (hh : hi < 64) (hl : lo ≤ hi) (hd : hi' < lo ∨ hi < lo')
    (hl' : lo' ≤ hi') : getBits (setBits r hi lo v) hi' lo' = getBits r hi' lo' := by
  apply Nat.eq_of_testBit_eq
  intro i
  rw [testBit_getBits, testBit_getBits, getLsbD_setBits r hi lo v _ hh hl]
  by_cases h : i < hi' - lo' + 1
  · have h1 : ¬ (lo ≤ lo' + i ∧ lo' + i ≤ hi) := by omega
    simp [h1]
  · simp [h]

@[simp] theorem State.reg_setReg_same (s : State) (k : Nat) (v : Word64) : (s.setReg k v).reg k = v := by
  by_cases h : v = Reg.resetValue k
  · simp [State.setReg, State.reg, Reg.write, h, Tab.find?_del_same]
  · simp [State.setReg, State.reg, Reg.write, h]

theorem State.reg_setReg_other (s : State) {j k : Nat} (v : Word64) (h : j ≠ k) : (s.setReg k v).reg j = s.reg j := by
  by_cases hv : v = Reg.resetValue k
  · simp [State.setReg, State.reg, Reg.write, hv, Tab.find?_del_other _ h]
  · simp [State.setReg, State.reg, Reg.write, hv, Tab.find?_put_other _ v h]

/-- What a written register reads, everywhere. -/
theorem State.reg_setReg (s : State) (j k : Nat) (v : Word64) : (s.setReg k v).reg j = if j = k then v else s.reg j := by
  split
  · rename_i h; subst h; simp
  · rename_i h; exact s.reg_setReg_other v h

theorem State.fld_setFld_same (s : State) (f : Fld) (v : Nat) (hh : f.hi < 64) (hl : f.lo ≤ f.hi) :
    (s.setFld f v).fld f = v % 2 ^ (f.hi - f.lo + 1) := by
  simp [State.fld, State.setFld, getBits_setBits_same _ _ _ _ hh hl]

/-- A field of another register, or of other bits of the same one, is unchanged. -/
theorem State.fld_setFld_other (s : State) (f g : Fld) (v : Nat) (hh : f.hi < 64) (hl : f.lo ≤ f.hi) (hl' : g.lo ≤ g.hi)
    (hd : g.key ≠ f.key ∨ g.hi < f.lo ∨ f.hi < g.lo) : (s.setFld f v).fld g = s.fld g := by
  by_cases hk : g.key = f.key
  · have hd' : g.hi < f.lo ∨ f.hi < g.lo := by
      rcases hd with h | h | h
      · exact absurd hk h
      · exact .inl h
      · exact .inr h
    simp [State.fld, State.setFld, hk, getBits_setBits_other _ _ _ v _ _ hh hl hd' hl']
  · simp [State.fld, State.setFld, State.reg_setReg_other _ _ hk]

theorem State.reg_setFld_other (s : State) (f : Fld) (v k : Nat) (h : k ≠ f.key) : (s.setFld f v).reg k = s.reg k := by
  simp [State.setFld, State.reg_setReg_other _ _ h]

/-- Device time never moves backwards, and a time that lies ahead is reached. -/
theorem State.now_at_ (s : State) (t : Nat) (ht : t < 2 ^ 64) : (s.at_ t).now = max s.now t := by
  unfold State.at_
  split
  · simp [State.now] at *; omega
  · omega

end Sys2Proof.Machine
end

