-- ==== Sys2Proof/Laws/Same.lean ====
section
/-! SUPPORT. What every operation leaves as it is, by the parts of the state. A mask has bit i set where part i may differ
(parts in the order of State's fields). One lemma for each function from state to state, in the order of the model's files;
this file has the predicate and what the lemmas are put together from. -/
namespace Sys2Proof.Machine
variable {M : Nat} {z : State}

section
/-- Each part is that of `z`, but for those of the mask. -/
@[irreducible] def Same (M : Nat) (z : State) (pending : List Instr) (regs : Tab Word64) (mem : List Host.Cell) (tags : Tab Tag)
    (job : Option Job) (cores : Cores) (tick : TickSt) (time : TimeSt) (streams : Tab Stream) (changes : List
    (Nat × Change)) (slow : List Slow) (ownSlow : List OwnSlow) (qdefs : Tab QDef) (queues : Tab Queue) (slots : Tab
    (List Nat)) (memory : Memory) (ckpt : Ckpt) (fabric : Fabric) (host : HostIf) (power : Power) (mram : Mram) (sec : Sec)
    (snap : Snap) (board : Board) (tests : Tests) (freeCount : Nat) (sent : List Sent) : Prop :=
  (M.testBit 0 = true ∨ pending = z.pending) ∧ (M.testBit 1 = true ∨ regs = z.regs) ∧ (M.testBit 2 = true ∨ mem = z.mem) ∧
    (M.testBit 3 = true ∨ tags = z.tags) ∧ (M.testBit 4 = true ∨ job = z.job) ∧ (M.testBit 5 = true ∨ cores = z.cores) ∧
    (M.testBit 6 = true ∨ tick = z.tick) ∧ (M.testBit 7 = true ∨ time = z.time) ∧
    (M.testBit 8 = true ∨ streams = z.streams) ∧ (M.testBit 9 = true ∨ changes = z.changes) ∧
    (M.testBit 10 = true ∨ slow = z.slow) ∧ (M.testBit 11 = true ∨ ownSlow = z.ownSlow) ∧
    (M.testBit 12 = true ∨ qdefs = z.qdefs) ∧ (M.testBit 13 = true ∨ queues = z.queues) ∧
    (M.testBit 14 = true ∨ slots = z.slots) ∧ (M.testBit 15 = true ∨ memory = z.memory) ∧
    (M.testBit 16 = true ∨ ckpt = z.ckpt) ∧ (M.testBit 17 = true ∨ fabric = z.fabric) ∧
    (M.testBit 18 = true ∨ host = z.host) ∧ (M.testBit 19 = true ∨ power = z.power) ∧ (M.testBit 20 = true ∨ mram = z.mram) ∧
    (M.testBit 21 = true ∨ sec = z.sec) ∧ (M.testBit 22 = true ∨ snap = z.snap) ∧ (M.testBit 23 = true ∨ board = z.board) ∧
    (M.testBit 24 = true ∨ tests = z.tests) ∧ (M.testBit 25 = true ∨ freeCount = z.freeCount) ∧
    (M.testBit 26 = true ∨ sent = z.sent)
unseal Same

/-- The same of a state. -/
@[irreducible] def State.same (s : State) (M : Nat)
    (z : State) : Prop := Same M z s.pending s.regs s.mem s.tags s.job s.cores s.tick s.time s.streams s.changes s.slow
    s.ownSlow s.qdefs s.queues s.slots s.memory s.ckpt s.fabric s.host s.power s.mram s.sec s.snap s.board s.tests
    s.freeCount s.sent
unseal State.same

/-- Mask `a` lies within mask `m`. -/
def within (a m : Nat) : Bool := a &&& m == a

theorem within_bit {a m i : Nat} (h : within a m = true) (hi : a.testBit i = true) : m.testBit i = true := by
  have e : a &&& m = a := by simpa [within] using h
  rw [← e, Nat.testBit_and] at hi
  exact (Bool.and_eq_true _ _ ▸ hi).2
theorem within_trans {a c m : Nat} (h : within a c = true) (h' : within c m = true) : within a m = true := by
  have e : a &&& c = a := by simpa [within] using h
  have e' : c &&& m = c := by simpa [within] using h'
  have : a &&& m = a := by
    have h3 : (a &&& c) &&& m = a &&& c := by rw [Nat.and_assoc, e']
    rwa [e] at h3
  simp [within, this]
theorem within_self (a : Nat) : within a a = true := by simp [within, Nat.and_self]
theorem State.same_self (s : State) : s.same M s := by
  unfold State.same Same
  exact ⟨.inr rfl, .inr rfl, .inr rfl, .inr rfl, .inr rfl, .inr rfl, .inr rfl, .inr rfl, .inr rfl, .inr rfl, .inr rfl,
    .inr rfl, .inr rfl, .inr rfl, .inr rfl, .inr rfl, .inr rfl, .inr rfl, .inr rfl, .inr rfl, .inr rfl, .inr rfl, .inr rfl,
    .inr rfl, .inr rfl, .inr rfl, .inr rfl⟩

theorem same_mk {pending regs mem tags job cores tick time streams changes slow ownSlow qdefs queues slots memory ckpt fabric
    host power mram sec snap board tests freeCount sent} :
    (State.mk pending regs mem tags job cores tick time streams changes slow ownSlow qdefs queues slots memory ckpt fabric
    host power mram sec snap board tests freeCount sent).same M z = Same M z pending regs mem tags job cores tick time
    streams changes slow ownSlow qdefs queues slots memory ckpt fabric host power mram sec snap board tests freeCount sent :=
    propext ⟨fun h => h, fun h => h⟩

theorem same_or {α : Type} {c : Bool} {x y z : α} (h : c = true ∨ x = y) (k : c = true ∨ y = z) : c = true ∨ x = z := by
  rcases h with h | h
  · exact .inl h
  · rcases k with k | k
    · exact .inl k
    · exact .inr (h.trans k)
/-- A state put together of parts. -/
theorem Same.of {t : State} {regs mem tags job cores tick time streams changes slow ownSlow qdefs queues slots memory ckpt
    fabric host power mram sec snap board tests freeCount sent} (h : t.same M z)
    (h1 : M.testBit 1 = true ∨ regs = t.regs) (h2 : M.testBit 2 = true ∨ mem = t.mem)
    (h3 : M.testBit 3 = true ∨ tags = t.tags) (h4 : M.testBit 4 = true ∨ job = t.job)
    (h5 : M.testBit 5 = true ∨ cores = t.cores) (h6 : M.testBit 6 = true ∨ tick = t.tick)
    (h7 : M.testBit 7 = true ∨ time = t.time) (h8 : M.testBit 8 = true ∨ streams = t.streams)
    (h9 : M.testBit 9 = true ∨ changes = t.changes) (h10 : M.testBit 10 = true ∨ slow = t.slow)
    (h11 : M.testBit 11 = true ∨ ownSlow = t.ownSlow) (h12 : M.testBit 12 = true ∨ qdefs = t.qdefs)
    (h13 : M.testBit 13 = true ∨ queues = t.queues) (h14 : M.testBit 14 = true ∨ slots = t.slots)
    (h15 : M.testBit 15 = true ∨ memory = t.memory) (h16 : M.testBit 16 = true ∨ ckpt = t.ckpt)
    (h17 : M.testBit 17 = true ∨ fabric = t.fabric) (h18 : M.testBit 18 = true ∨ host = t.host)
    (h19 : M.testBit 19 = true ∨ power = t.power) (h20 : M.testBit 20 = true ∨ mram = t.mram)
    (h21 : M.testBit 21 = true ∨ sec = t.sec) (h22 : M.testBit 22 = true ∨ snap = t.snap)
    (h23 : M.testBit 23 = true ∨ board = t.board) (h24 : M.testBit 24 = true ∨ tests = t.tests)
    (h25 : M.testBit 25 = true ∨ freeCount = t.freeCount)
    (h26 : M.testBit 26 = true ∨ sent = t.sent) : Same M z t.pending regs mem tags job cores tick time streams changes slow
    ownSlow qdefs queues slots memory ckpt fabric host power mram sec snap board tests freeCount sent := by
  unfold State.same Same at h
  unfold Same
  obtain ⟨k0, k1, k2, k3, k4, k5, k6, k7, k8, k9, k10, k11, k12, k13, k14, k15, k16, k17, k18, k19, k20, k21, k22, k23, k24,
    k25, k26⟩ := h
  exact ⟨k0, same_or h1 k1, same_or h2 k2, same_or h3 k3, same_or h4 k4, same_or h5 k5, same_or h6 k6, same_or h7 k7,
    same_or h8 k8, same_or h9 k9, same_or h10 k10, same_or h11 k11, same_or h12 k12, same_or h13 k13, same_or h14 k14,
    same_or h15 k15, same_or h16 k16, same_or h17 k17, same_or h18 k18, same_or h19 k19, same_or h20 k20, same_or h21 k21,
    same_or h22 k22, same_or h23 k23, same_or h24 k24, same_or h25 k25, same_or h26 k26⟩
/-- What a mask without the part says. -/
theorem State.same.pending_eq {s : State} (h : s.same M z) (hm : M.testBit 0 = false) : s.pending = z.pending := by
  unfold State.same Same at h; simpa [hm] using h.1
theorem State.same.regs_eq {s : State} (h : s.same M z) (hm : M.testBit 1 = false) : s.regs = z.regs := by
  unfold State.same Same at h; simpa [hm] using h.2.1
theorem State.same.mem_eq {s : State} (h : s.same M z) (hm : M.testBit 2 = false) : s.mem = z.mem := by
  unfold State.same Same at h; simpa [hm] using h.2.2.1
theorem State.same.tags_eq {s : State} (h : s.same M z) (hm : M.testBit 3 = false) : s.tags = z.tags := by
  unfold State.same Same at h; simpa [hm] using h.2.2.2.1
theorem State.same.job_eq {s : State} (h : s.same M z) (hm : M.testBit 4 = false) : s.job = z.job := by
  unfold State.same Same at h; simpa [hm] using h.2.2.2.2.1
theorem State.same.cores_eq {s : State} (h : s.same M z) (hm : M.testBit 5 = false) : s.cores = z.cores := by
  unfold State.same Same at h; simpa [hm] using h.2.2.2.2.2.1
theorem State.same.tick_eq {s : State} (h : s.same M z) (hm : M.testBit 6 = false) : s.tick = z.tick := by
  unfold State.same Same at h; simpa [hm] using h.2.2.2.2.2.2.1
theorem State.same.time_eq {s : State} (h : s.same M z) (hm : M.testBit 7 = false) : s.time = z.time := by
  unfold State.same Same at h; simpa [hm] using h.2.2.2.2.2.2.2.1
theorem State.same.streams_eq {s : State} (h : s.same M z) (hm : M.testBit 8 = false) : s.streams = z.streams := by
  unfold State.same Same at h; simpa [hm] using h.2.2.2.2.2.2.2.2.1
theorem State.same.changes_eq {s : State} (h : s.same M z) (hm : M.testBit 9 = false) : s.changes = z.changes := by
  unfold State.same Same at h; simpa [hm] using h.2.2.2.2.2.2.2.2.2.1
theorem State.same.slow_eq {s : State} (h : s.same M z) (hm : M.testBit 10 = false) : s.slow = z.slow := by
  unfold State.same Same at h; simpa [hm] using h.2.2.2.2.2.2.2.2.2.2.1
theorem State.same.ownSlow_eq {s : State} (h : s.same M z) (hm : M.testBit 11 = false) : s.ownSlow = z.ownSlow := by
  unfold State.same Same at h; simpa [hm] using h.2.2.2.2.2.2.2.2.2.2.2.1
theorem State.same.qdefs_eq {s : State} (h : s.same M z) (hm : M.testBit 12 = false) : s.qdefs = z.qdefs := by
  unfold State.same Same at h; simpa [hm] using h.2.2.2.2.2.2.2.2.2.2.2.2.1
theorem State.same.queues_eq {s : State} (h : s.same M z) (hm : M.testBit 13 = false) : s.queues = z.queues := by
  unfold State.same Same at h; simpa [hm] using h.2.2.2.2.2.2.2.2.2.2.2.2.2.1
theorem State.same.slots_eq {s : State} (h : s.same M z) (hm : M.testBit 14 = false) : s.slots = z.slots := by
  unfold State.same Same at h; simpa [hm] using h.2.2.2.2.2.2.2.2.2.2.2.2.2.2.1
theorem State.same.memory_eq {s : State} (h : s.same M z) (hm : M.testBit 15 = false) : s.memory = z.memory := by
  unfold State.same Same at h; simpa [hm] using h.2.2.2.2.2.2.2.2.2.2.2.2.2.2.2.1
theorem State.same.ckpt_eq {s : State} (h : s.same M z) (hm : M.testBit 16 = false) : s.ckpt = z.ckpt := by
  unfold State.same Same at h; simpa [hm] using h.2.2.2.2.2.2.2.2.2.2.2.2.2.2.2.2.1
theorem State.same.fabric_eq {s : State} (h : s.same M z) (hm : M.testBit 17 = false) : s.fabric = z.fabric := by
  unfold State.same Same at h; simpa [hm] using h.2.2.2.2.2.2.2.2.2.2.2.2.2.2.2.2.2.1
theorem State.same.host_eq {s : State} (h : s.same M z) (hm : M.testBit 18 = false) : s.host = z.host := by
  unfold State.same Same at h; simpa [hm] using h.2.2.2.2.2.2.2.2.2.2.2.2.2.2.2.2.2.2.1
theorem State.same.power_eq {s : State} (h : s.same M z) (hm : M.testBit 19 = false) : s.power = z.power := by
  unfold State.same Same at h; simpa [hm] using h.2.2.2.2.2.2.2.2.2.2.2.2.2.2.2.2.2.2.2.1
theorem State.same.mram_eq {s : State} (h : s.same M z) (hm : M.testBit 20 = false) : s.mram = z.mram := by
  unfold State.same Same at h; simpa [hm] using h.2.2.2.2.2.2.2.2.2.2.2.2.2.2.2.2.2.2.2.2.1
theorem State.same.sec_eq {s : State} (h : s.same M z) (hm : M.testBit 21 = false) : s.sec = z.sec := by
  unfold State.same Same at h; simpa [hm] using h.2.2.2.2.2.2.2.2.2.2.2.2.2.2.2.2.2.2.2.2.2.1
theorem State.same.snap_eq {s : State} (h : s.same M z) (hm : M.testBit 22 = false) : s.snap = z.snap := by
  unfold State.same Same at h; simpa [hm] using h.2.2.2.2.2.2.2.2.2.2.2.2.2.2.2.2.2.2.2.2.2.2.1
theorem State.same.board_eq {s : State} (h : s.same M z) (hm : M.testBit 23 = false) : s.board = z.board := by
  unfold State.same Same at h; simpa [hm] using h.2.2.2.2.2.2.2.2.2.2.2.2.2.2.2.2.2.2.2.2.2.2.2.1
theorem State.same.tests_eq {s : State} (h : s.same M z) (hm : M.testBit 24 = false) : s.tests = z.tests := by
  unfold State.same Same at h; simpa [hm] using h.2.2.2.2.2.2.2.2.2.2.2.2.2.2.2.2.2.2.2.2.2.2.2.2.1
theorem State.same.freeCount_eq {s : State} (h : s.same M z) (hm : M.testBit 25 = false) : s.freeCount = z.freeCount := by
  unfold State.same Same at h; simpa [hm] using h.2.2.2.2.2.2.2.2.2.2.2.2.2.2.2.2.2.2.2.2.2.2.2.2.2.1
theorem State.same.sent_eq {s : State} (h : s.same M z) (hm : M.testBit 26 = false) : s.sent = z.sent := by
  unfold State.same Same at h; simpa [hm] using h.2.2.2.2.2.2.2.2.2.2.2.2.2.2.2.2.2.2.2.2.2.2.2.2.2.2
/-- An answer keeps it where its next state does. -/
@[irreducible] def Result.same (M : Nat) (z : State) (r : Result) : Prop := ∀ t, r = .next t → t.same M z
unseal Result.same

/-- What an answer leaves, its next state leaves. -/
theorem Result.same.at {r : Result} {t : State} (h : Result.same M z r) (e : r = .next t) : t.same M z := h t e

theorem same_next {s : State} (h : s.same M z) : Result.same M z (.next s) := by
  intro t ht; cases ht; exact h
theorem same_fault {f : Fault} : Result.same M z (.fault f) := by
  intro t ht; cases ht
theorem same_ifUnit {ok : Bool} {s : State} (h : s.same M z) : Result.same M z (ifUnit ok s) := by
  unfold ifUnit; split
  · exact same_next h
  · exact same_fault
theorem same_ite_result {c : Prop} [Decidable c] {a b : Result} (ha : c → Result.same M z a) (hb : ¬c → Result.same M z b) :
    Result.same M z (if c then a else b) := by
  split <;> simp_all

theorem State.restoreImage_same {s : State} (g : Nat) (im : Image) (hM : within 12 M = true) (h : s.same M z) :
    (s.restoreImage g im).same M z := by
  unfold State.restoreImage
  rw [same_mk]
  apply Same.of h
  all_goals first | exact .inr rfl | exact .inl (within_bit hM (by decide))
theorem State.setTag_same {s : State} (k : Nat) (g : Tag) (hM : within 8 M = true) (h : s.same M z) :
    (s.setTag k g).same M z := by
  unfold State.setTag
  rw [same_mk]
  apply Same.of h
  all_goals first | exact .inr rfl | exact .inl (within_bit hM (by decide))
theorem State.setReg_same {s : State} (k : Nat) (v : Word64) (hM : within 2 M = true) (h : s.same M z) :
    (s.setReg k v).same M z := by
  unfold State.setReg
  rw [same_mk]
  apply Same.of h
  all_goals first | exact .inr rfl | exact .inl (within_bit hM (by decide))
theorem State.store_same {s : State} (o : Origin) (a : Nat) (bs : List Byte) (tag : Option Tag) (hM : within 32780 M = true)
    (h : s.same M z) : (s.store o a bs tag).same M z := by
  unfold State.store
  apply State.setTag_same _ _ (within_trans (by decide) hM)
  rw [same_mk]
  apply Same.of h
  all_goals first | exact .inr rfl | exact .inl (within_bit hM (by decide))
end


theorem same_ite {c : Prop} [Decidable c] {a b : State} (ha : c → a.same M z) (hb : ¬c → b.same M z) :
    (if c then a else b).same M z := by
  split <;> simp_all
theorem same_ite_fst {α : Type} {c : Prop} [Decidable c] {a b : State × α} (ha : c → a.1.same M z) (hb : ¬c → b.1.same M z) :
    (if c then a else b).1.same M z := by
  split <;> simp_all
theorem same_ite_snd {α : Type} {c : Prop} [Decidable c] {a b : α × State} (ha : c → a.2.same M z) (hb : ¬c → b.2.same M z) :
    (if c then a else b).2.same M z := by
  split <;> simp_all
theorem same_foldl {α : Type} {f : State → α → State} {s : State} {l : List α} (hf : ∀ t x, t.same M z → (f t x).same M z)
    (h : s.same M z) : (l.foldl f s).same M z := by
  induction l generalizing s with
  | nil => exact h
  | cons x r ih => exact ih (hf s x h)
theorem same_foldl_fst {α β : Type} {f : State × β → α → State × β} {s : State × β} {l : List α}
    (hf : ∀ t x, t.1.same M z → (f t x).1.same M z) (h : s.1.same M z) : (l.foldl f s).1.same M z := by
  induction l generalizing s with
  | nil => exact h
  | cons x r ih => exact ih (hf s x h)
theorem same_foldl_snd {α β : Type} {f : β × State → α → β × State} {s : β × State} {l : List α}
    (hf : ∀ t x, t.2.same M z → (f t x).2.same M z) (h : s.2.same M z) : (l.foldl f s).2.same M z := by
  induction l generalizing s with
  | nil => exact h
  | cons x r ih => exact ih (hf s x h)
theorem same_fst {α : Type} {x : State × α} {s : State} {a : α} (e : x = (s, a))
    (h : x.1.same M z) : s.same M z := by subst e; exact h
theorem same_snd {α : Type} {x : α × State} {s : State} {a : α} (e : x = (a, s))
    (h : x.2.same M z) : s.same M z := by subst e; exact h

end Sys2Proof.Machine
end

