-- ==== Sys2Proof/Laws/SameMemory.lean ====
section
/-! SUPPORT. What the register file, the routes, the write path, the sequencer and the units of a core leave as it is, by the parts of the state (Laws/Same.lean). -/
namespace Sys2Proof.Machine

variable {M : Nat} {z : State}

theorem State.setFld_same (s : State) (f : Fld) (v : Nat) (hM : within 2 M = true) (h_s : s.same M z) :
    (State.setFld s f v).same M z := by
  unfold State.setFld
  repeat' first | with_reducible assumption | with_reducible apply State.setReg_same

theorem State.bump_same (s : State) (f : Fld) (n : Nat) (hM : within 2 M = true) (h_s : s.same M z) :
    (State.bump s f n).same M z := by
  unfold State.bump
  repeat' first | with_reducible assumption | with_reducible apply State.setFld_same

theorem State.bump32_same (s : State) (k n : Nat) (hM : within 2 M = true) (h_s : s.same M z) :
    (State.bump32 s k n).same M z := by
  unfold State.bump32
  repeat' first | with_reducible assumption | with_reducible apply State.bump_same

theorem State.bump64_same (s : State) (k n : Nat) (hM : within 2 M = true) (h_s : s.same M z) :
    (State.bump64 s k n).same M z := by
  unfold State.bump64
  repeat' first | with_reducible assumption | with_reducible apply State.bump_same

theorem State.at__same (s : State) (t : Nat) (hM : within 2 M = true) (h_s : s.same M z) : (State.at_ s t).same M z := by
  unfold State.at_
  repeat' first | with_reducible assumption | intro _ | with_reducible apply same_ite
                | with_reducible apply State.setReg_same

theorem State.send_same (s : State) (x : Sent) (hM : within 67108864 M = true) (h_s : s.same M z) :
    (State.send s x).same M z := by
  unfold State.send
  repeat' first | with_reducible assumption | exact Or.inl (within_bit hM (by decide)) | with_reducible exact Or.inr rfl
                | simp only [same_mk] | with_reducible apply Same.of

theorem State.setDevState_same (s : State) (v : Nat) (hM : within 2 M = true) (h_s : s.same M z) :
    (State.setDevState s v).same M z := by
  unfold State.setDevState
  repeat' first | with_reducible assumption | with_reducible apply State.setFld_same

theorem State.fresh_same (s : State) (hM : within 33554432 M = true) (h_s : s.same M z) : (State.fresh s).2.same M z := by
  unfold State.fresh
  repeat' first | with_reducible assumption | exact Or.inl (within_bit hM (by decide)) | with_reducible exact Or.inr rfl
                | simp only [same_mk] | with_reducible apply Same.of

theorem State.upTo_same (s : State) (bound : Nat) (hM : within 33554432 M = true) (h_s : s.same M z) :
    (State.upTo s bound).2.same M z := by
  unfold State.upTo
  repeat' first | with_reducible assumption | with_reducible apply State.fresh_same

theorem State.setPort_same (s : State) (p : Nat) (x : Port) (hM : within 131072 M = true) (h_s : s.same M z) :
    (State.setPort s p x).same M z := by
  unfold State.setPort
  repeat' first | with_reducible assumption | exact Or.inl (within_bit hM (by decide)) | with_reducible exact Or.inr rfl
                | simp only [same_mk] | with_reducible apply Same.of

theorem State.injectTx_same (s : State) (p : Nat) (tx : Tx) (hM : within 67239938 M = true) (h_s : s.same M z) :
    (State.injectTx s p tx).same M z := by
  unfold State.injectTx
  repeat' first | with_reducible assumption | exact within_trans (by decide) hM | with_reducible apply State.bump64_same
                | with_reducible apply State.send_same | with_reducible apply State.setPort_same

theorem State.sendBy_same (s : State) (p : Nat) (tx : Tx) (hM : within 67239938 M = true) (h_s : s.same M z) :
    (State.sendBy s p tx).same M z := by
  unfold State.sendBy
  repeat' first | with_reducible assumption | exact within_trans (by decide) hM | intro _ | with_reducible apply same_ite
                | with_reducible apply State.setPort_same | with_reducible apply State.injectTx_same

theorem State.sendTx_same (s : State) (tx : Tx) (hM : within 67239938 M = true) (h_s : s.same M z) :
    (State.sendTx s tx).same M z := by
  unfold State.sendTx
  repeat' first | with_reducible assumption | exact Or.inl (within_bit hM (by decide)) | with_reducible exact Or.inr rfl
                | with_reducible apply State.sendBy_same | simp only [same_mk] | with_reducible apply Same.of | split

theorem State.flushPort_same (s : State) (p : Nat) (n_ : Nat) (hM : within 67239938 M = true) (h_s : s.same M z) :
    (State.flushPort s p n_).same M z := by
  induction n_ generalizing s p with
  | zero =>
    unfold State.flushPort
    repeat' first | with_reducible assumption
  | succ n ih =>
    unfold State.flushPort
    repeat' first | with_reducible assumption | exact within_trans (by decide) hM | with_reducible apply ih
                  | with_reducible apply State.setPort_same | with_reducible apply State.injectTx_same | simp only [same_mk]
                  | split

theorem State.announce_same (s : State) (p : Nat) (hM : within 67239938 M = true) (h_s : s.same M z) :
    (State.announce s p).same M z := by
  unfold State.announce
  repeat' first | with_reducible assumption | intro _ | with_reducible apply State.sendTx_same
                | with_reducible apply same_foldl

theorem State.noteSpares_same (s : State) (hM : within 67239938 M = true) (h_s : s.same M z) : (State.noteSpares s).same M z := by
  unfold State.noteSpares
  repeat' first | with_reducible assumption | exact Or.inl (within_bit hM (by decide)) | with_reducible exact Or.inr rfl
                | exact within_trans (by decide) hM | intro _ | with_reducible apply same_ite
                | with_reducible apply State.setFld_same | with_reducible apply State.announce_same | simp only [same_mk]
                | with_reducible apply Same.of | with_reducible apply same_foldl

theorem State.excursion_same (s : State) (i : Nat) (hM : within 64 M = true) (h_s : s.same M z) :
    (State.excursion s i).same M z := by
  unfold State.excursion
  repeat' first | with_reducible assumption | exact Or.inl (within_bit hM (by decide)) | with_reducible exact Or.inr rfl
                | simp only [same_mk] | with_reducible apply Same.of

theorem State.recordFlag_same (s : State) (i : Nat) (hM : within 64 M = true) (h_s : s.same M z) :
    (State.recordFlag s i).same M z := by
  unfold State.recordFlag
  repeat' first | with_reducible assumption | exact Or.inl (within_bit hM (by decide)) | with_reducible exact Or.inr rfl
                | simp only [same_mk] | with_reducible apply Same.of

theorem State.onRecord_same (s : State) (f : TickRec → TickRec) (hM : within 64 M = true) (h_s : s.same M z) :
    (State.onRecord s f).same M z := by
  unfold State.onRecord
  repeat' first | with_reducible assumption | exact Or.inl (within_bit hM (by decide)) | with_reducible exact Or.inr rfl
                | simp only [same_mk] | with_reducible apply Same.of

theorem State.triggerPeers_same (s : State) (op addr word : Nat) (hM : within 67239938 M = true) (h_s : s.same M z) :
    (State.triggerPeers s op addr word).same M z := by
  unfold State.triggerPeers
  repeat' first | with_reducible assumption | intro _ | with_reducible apply State.sendTx_same
                | with_reducible apply same_foldl

theorem State.countStall_same (s : State) (w : WaitWrite) (hM : within 2 M = true) (h_s : s.same M z) :
    (State.countStall s w).same M z := by
  unfold State.countStall
  repeat' first | with_reducible assumption | with_reducible apply State.bump64_same | split

theorem State.invalidate_same (s : State) (line : Nat) (hM : within 67239938 M = true) (h_s : s.same M z) :
    (State.invalidate s line).same M z := by
  unfold State.invalidate
  repeat' first | with_reducible assumption | exact Or.inl (within_bit hM (by decide)) | with_reducible exact Or.inr rfl
                | exact within_trans (by decide) hM | intro _ | with_reducible apply same_ite
                | with_reducible apply State.bump64_same | with_reducible apply State.sendTx_same | simp only [same_mk]
                | with_reducible apply Same.of | with_reducible apply same_foldl

theorem State.commitWrite_same (s : State) (w : WaitWrite) (hM : within 67272718 M = true) (h_s : s.same M z) :
    (State.commitWrite s w).1.same M z := by
  unfold State.commitWrite
  repeat' first | with_reducible assumption | exact within_trans (by decide) hM | intro _
                | with_reducible apply same_ite_fst | with_reducible apply State.store_same
                | with_reducible apply State.invalidate_same | with_reducible apply same_foldl

theorem State.undoFills_same (s : State) (hM : within 67272770 M = true) (h_s : s.same M z) : (State.undoFills s).same M z := by
  unfold State.undoFills
  repeat' first | with_reducible assumption | exact Or.inl (within_bit hM (by decide)) | with_reducible exact Or.inr rfl
                | exact within_trans (by decide) hM | intro _ | with_reducible apply same_ite
                | with_reducible apply State.recordFlag_same | with_reducible apply State.triggerPeers_same
                | simp only [same_mk] | with_reducible apply Same.of

theorem State.serveWrite_same (s : State) (w : WaitWrite) (hM : within 67338318 M = true) (h_s : s.same M z) :
    (State.serveWrite s w).1.same M z := by
  unfold State.serveWrite
  repeat' first | with_reducible assumption | exact Or.inl (within_bit hM (by decide)) | with_reducible exact Or.inr rfl
                | exact within_trans (by decide) hM | with_reducible apply State.bump32_same
                | with_reducible apply State.bump64_same | with_reducible apply State.excursion_same
                | with_reducible apply State.countStall_same | with_reducible apply State.commitWrite_same
                | with_reducible apply State.undoFills_same | simp only [same_mk] | with_reducible apply Same.of | split

theorem State.serveWrites_same (s : State) (n_ : List WaitWrite) (hM : within 67338318 M = true) (h_s : s.same M z) :
    (State.serveWrites s n_).same M z := by
  induction n_ generalizing s with
  | nil =>
    unfold State.serveWrites
    repeat' first | with_reducible assumption
  | cons a r ih =>
    unfold State.serveWrites
    repeat' first | with_reducible assumption | exact Or.inl (within_bit hM (by decide)) | with_reducible exact Or.inr rfl
                  | with_reducible apply ih | with_reducible apply State.serveWrite_same | simp only [same_mk]
                  | with_reducible apply Same.of | with_reducible refine same_fst (by assumption) ?_ | split

theorem State.retryWrites_same (s : State) (hM : within 67338318 M = true) (h_s : s.same M z) :
    (State.retryWrites s).same M z := by
  unfold State.retryWrites
  repeat' first | with_reducible assumption | exact Or.inl (within_bit hM (by decide)) | with_reducible exact Or.inr rfl
                | with_reducible apply State.serveWrites_same | simp only [same_mk] | with_reducible apply Same.of

theorem State.writePiece_same (s : State) (o : Origin) (tag : Option Tag) (a : Nat) (bs : List Byte)
    (hM : within 67338318 M = true) (h_s : s.same M z) :
    (State.writePiece s o tag a bs).same M z := by
  unfold State.writePiece
  repeat' first | with_reducible assumption | exact within_trans (by decide) hM | intro _ | with_reducible apply same_ite
                | with_reducible apply State.store_same | with_reducible apply State.serveWrites_same

theorem State.write_same (s : State) (o : Origin) (a : Nat) (bs : List Byte) (hM : within 67338318 M = true)
    (h_s : s.same M z) :
    (State.write s o a bs).same M z := by
  unfold State.write
  repeat' first | with_reducible assumption | intro _ | with_reducible apply State.writePiece_same
                | with_reducible apply same_foldl

theorem State.writeSealed_same (s : State) (o : Origin) (sealed_ : Bool) (stamp : Option (ListId × Nat × Nat)) (a : Nat)
    (bs : List Byte) (hM : within 67338318 M = true) (h_s : s.same M z) :
    (State.writeSealed s o sealed_ stamp a bs).same M z := by
  unfold State.writeSealed
  repeat' first | with_reducible assumption | intro _ | with_reducible apply State.writePiece_same
                | with_reducible apply same_foldl

theorem State.atomic_same (s : State) (o : Origin) (opByte a x cmp : Nat) (hM : within 67338318 M = true) (h_s : s.same M z) :
    (State.atomic s o opByte a x cmp).2.same M z := by
  unfold State.atomic
  repeat' first | with_reducible assumption | with_reducible apply State.write_same

theorem State.signalVector_same (s : State) (v : Nat) (hM : within 67371008 M = true) (h_s : s.same M z) :
    (State.signalVector s v).same M z := by
  unfold State.signalVector
  repeat' first | with_reducible assumption | exact Or.inl (within_bit hM (by decide)) | with_reducible exact Or.inr rfl
                | exact within_trans (by decide) hM | intro _ | with_reducible apply same_ite
                | with_reducible apply State.send_same | simp only [same_mk] | with_reducible apply Same.of

theorem State.writeEvent_same (s : State) (e : Event) (hM : within 67371010 M = true) (h_s : s.same M z) :
    (State.writeEvent s e).same M z := by
  unfold State.writeEvent
  repeat' first | with_reducible assumption | exact within_trans (by decide) hM | with_reducible apply State.setReg_same
                | with_reducible apply State.send_same | with_reducible apply State.signalVector_same | split

theorem State.setHeld_same (s : State) (es : List Event) (hM : within 262146 M = true) (h_s : s.same M z) :
    (State.setHeld s es).same M z := by
  unfold State.setHeld
  repeat' first | with_reducible assumption | exact Or.inl (within_bit hM (by decide)) | with_reducible exact Or.inr rfl
                | exact within_trans (by decide) hM | with_reducible apply State.setFld_same | simp only [same_mk]
                | with_reducible apply Same.of

theorem State.writeHeld_same (s : State) (n_ : List Event) (hM : within 67371010 M = true) (h_s : s.same M z) :
    (State.writeHeld s n_).same M z := by
  induction n_ generalizing s with
  | nil =>
    unfold State.writeHeld
    repeat' first | with_reducible assumption | exact within_trans (by decide) hM | with_reducible apply State.setHeld_same
  | cons a r ih =>
    unfold State.writeHeld
    repeat' first | with_reducible assumption | exact within_trans (by decide) hM | with_reducible apply ih | intro _
                  | with_reducible apply same_ite | with_reducible apply State.writeEvent_same
                  | with_reducible apply State.setHeld_same

theorem State.eventDatagram_same (s : State) (e : Event) (hM : within 100663296 M = true) (h_s : s.same M z) :
    (State.eventDatagram s e).same M z := by
  unfold State.eventDatagram
  repeat' first | with_reducible assumption | exact within_trans (by decide) hM | intro _ | with_reducible apply same_ite
                | with_reducible apply State.send_same | with_reducible apply State.fresh_same

theorem State.eventIbi_same (s : State) (e : Event) (hM : within 67108864 M = true) (h_s : s.same M z) :
    (State.eventIbi s e).same M z := by
  unfold State.eventIbi
  repeat' first | with_reducible assumption | intro _ | with_reducible apply same_ite | with_reducible apply State.send_same

theorem State.ringEvent_same (s : State) (e : Event) (hM : within 67371010 M = true) (h_s : s.same M z) :
    (State.ringEvent s e).same M z := by
  unfold State.ringEvent
  repeat' first | with_reducible assumption | exact within_trans (by decide) hM | intro _ | with_reducible apply same_ite
                | with_reducible apply State.bump32_same | with_reducible apply State.writeEvent_same
                | with_reducible apply State.setHeld_same

theorem State.postEvent_same (s : State) (e : Event) (hM : within 100925442 M = true) (h_s : s.same M z) :
    (State.postEvent s e).same M z := by
  unfold State.postEvent
  repeat' first | with_reducible assumption | exact within_trans (by decide) hM
                | with_reducible apply State.eventDatagram_same | with_reducible apply State.eventIbi_same
                | with_reducible apply State.ringEvent_same

theorem State.endLong_same (s : State) (l : Long) (status detail : Nat) (hM : within 100925442 M = true) (h_s : s.same M z) :
    (State.endLong s l status detail).same M z := by
  unfold State.endLong
  repeat' first | with_reducible assumption | exact Or.inl (within_bit hM (by decide)) | with_reducible exact Or.inr rfl
                | intro _ | with_reducible apply same_ite | with_reducible apply State.postEvent_same | simp only [same_mk]
                | with_reducible apply Same.of

theorem State.endLongCode_same (s : State) (code status detail : Nat) (hM : within 100925442 M = true) (h_s : s.same M z) :
    (State.endLongCode s code status detail).same M z := by
  unfold State.endLongCode
  repeat' first | with_reducible assumption | with_reducible apply State.endLong_same | split

theorem State.flushEvents_same (s : State) (hM : within 100925442 M = true) (h_s : s.same M z) :
    (State.flushEvents s).same M z := by
  unfold State.flushEvents
  repeat' first | with_reducible assumption | exact Or.inl (within_bit hM (by decide)) | with_reducible exact Or.inr rfl
                | exact within_trans (by decide) hM | intro _ | with_reducible apply State.writeHeld_same
                | with_reducible apply State.postEvent_same | simp only [same_mk] | with_reducible apply Same.of
                | with_reducible apply same_foldl | split

theorem State.sendSlow_same (s : State) (factor cause : Nat) (hM : within 67240002 M = true) (h_s : s.same M z) :
    (State.sendSlow s factor cause).same M z := by
  unfold State.sendSlow
  repeat' first | with_reducible assumption | exact within_trans (by decide) hM | intro _ | with_reducible apply same_ite
                | with_reducible apply State.sendTx_same | with_reducible apply State.excursion_same
                | with_reducible apply same_foldl

theorem State.startSlow_same (s : State) (o : OwnSlow) (hM : within 67242050 M = true) (h_s : s.same M z) :
    (State.startSlow s o).same M z := by
  unfold State.startSlow
  repeat' first | with_reducible assumption | exact Or.inl (within_bit hM (by decide)) | with_reducible exact Or.inr rfl
                | exact within_trans (by decide) hM | with_reducible apply State.sendSlow_same | simp only [same_mk]
                | with_reducible apply Same.of

theorem State.beginSlow_same (s : State) (cause unit factor : Nat) (hM : within 67242050 M = true) (h_s : s.same M z) :
    (State.beginSlow s cause unit factor).same M z := by
  unfold State.beginSlow
  repeat' first | with_reducible assumption | with_reducible apply State.startSlow_same

theorem State.endSlow_same (s : State) (cause unit : Nat) (hM : within 67242050 M = true) (h_s : s.same M z) :
    (State.endSlow s cause unit).same M z := by
  unfold State.endSlow
  repeat' first | with_reducible assumption | exact Or.inl (within_bit hM (by decide)) | with_reducible exact Or.inr rfl
                | exact within_trans (by decide) hM | intro _ | with_reducible apply same_ite
                | with_reducible apply State.sendSlow_same | simp only [same_mk] | with_reducible apply Same.of

theorem State.setCount_same (s : State) (l i v : Nat) (hM : within 2 M = true) (h_s : s.same M z) :
    (State.setCount s l i v).same M z := by
  unfold State.setCount
  repeat' first | with_reducible assumption | with_reducible apply State.setReg_same

theorem State.countWait_same (s : State) (l : ListId) (hM : within 2 M = true) (h_s : s.same M z) :
    (State.countWait s l).same M z := by
  unfold State.countWait
  repeat' first | with_reducible assumption | with_reducible apply State.setReg_same
                | with_reducible apply State.bump64_same | split

theorem State.settleWaits_same (s : State) (hM : within 2 M = true) (h_s : s.same M z) : (State.settleWaits s).same M z := by
  unfold State.settleWaits
  repeat' first | with_reducible assumption | intro _ | with_reducible apply State.countWait_same
                | with_reducible apply same_foldl

theorem State.markWaits_same (s : State) (hM : within 2 M = true) (h_s : s.same M z) : (State.markWaits s).same M z := by
  unfold State.markWaits
  repeat' first | with_reducible assumption | intro _ | with_reducible apply State.setReg_same
                | with_reducible apply same_foldl

theorem State.setSeq_same (s : State) (l state wait : Nat) (hM : within 2 M = true) (h_s : s.same M z) :
    (State.setSeq s l state wait).same M z := by
  unfold State.setSeq
  repeat' first | with_reducible assumption | with_reducible apply State.setReg_same
                | with_reducible apply State.setFld_same | with_reducible apply State.countWait_same

theorem State.holdSeq_same (s : State) (l wait _stall : Nat) (hM : within 2 M = true) (h_s : s.same M z) :
    (State.holdSeq s l wait _stall).same M z := by
  unfold State.holdSeq
  repeat' first | with_reducible assumption | with_reducible apply State.setSeq_same

theorem State.seqTo_same (s : State) (l n : Nat) (hM : within 2 M = true) (h_s : s.same M z) : (State.seqTo s l n).same M z := by
  unfold State.seqTo
  repeat' first | with_reducible assumption | with_reducible apply State.setFld_same
                | with_reducible apply State.setSeq_same

theorem State.advance_same (s : State) (l : ListId) (hM : within 2 M = true) (h_s : s.same M z) :
    (State.advance s l).same M z := by
  unfold State.advance
  repeat' first | with_reducible assumption | with_reducible apply State.seqTo_same

theorem State.seqRecord_same (s : State) (l : ListId) (r : OpRecord) (opcode : Nat) (f : State → State)
    (hM : within 2 M = true) (h_s : s.same M z) (h_f : ∀ x0, x0.same M z → (f x0).same M z) :
    (State.seqRecord s l r opcode f).same M z := by
  unfold State.seqRecord
  repeat' first | with_reducible assumption | with_reducible apply h_f | with_reducible apply State.holdSeq_same
                | with_reducible apply State.advance_same | split

theorem State.refreshPhases_same (s : State) (l : ListId) (hM : within 2 M = true) (h_s : s.same M z) :
    (State.refreshPhases s l).same M z := by
  unfold State.refreshPhases
  repeat' first | with_reducible assumption | with_reducible apply State.setFld_same

theorem State.checkStepEnd_same (s : State) (hM : within 67338318 M = true) (h_s : s.same M z) :
    (State.checkStepEnd s).same M z := by
  unfold State.checkStepEnd
  repeat' first | with_reducible assumption | exact Or.inl (within_bit hM (by decide)) | with_reducible exact Or.inr rfl
                | exact within_trans (by decide) hM | with_reducible apply State.setFld_same
                | with_reducible apply State.write_same | simp only [same_mk] | with_reducible apply Same.of | split

theorem State.endOfStep_same (s : State) (l : ListId) (hM : within 67338318 M = true) (h_s : s.same M z) :
    (State.endOfStep s l).same M z := by
  unfold State.endOfStep
  repeat' first | with_reducible assumption | exact within_trans (by decide) hM | with_reducible apply State.setSeq_same
                | with_reducible apply State.refreshPhases_same | with_reducible apply State.checkStepEnd_same

theorem State.signalFrom_same (s : State) (l : ListId) (r : OpRecord) (hM : within 2 M = true) (h_s : s.same M z) :
    (State.signalFrom s l r).same M z := by
  unfold State.signalFrom
  repeat' first | with_reducible assumption | intro _ | with_reducible apply same_ite
                | with_reducible apply State.setCount_same

theorem State.enterStopped_same (s : State) (src : Nat) (hM : within 101056578 M = true) (h_s : s.same M z) :
    (State.enterStopped s src).same M z := by
  unfold State.enterStopped
  repeat' first | with_reducible assumption | exact Or.inl (within_bit hM (by decide)) | with_reducible exact Or.inr rfl
                | exact within_trans (by decide) hM | intro _ | with_reducible apply same_ite
                | with_reducible apply State.setDevState_same | with_reducible apply State.recordFlag_same
                | with_reducible apply State.postEvent_same | with_reducible apply State.triggerPeers_same
                | simp only [same_mk] | with_reducible apply Same.of

theorem State.stopSeq_same (s : State) (l : ListId) (hM : within 101056578 M = true) (h_s : s.same M z) :
    (State.stopSeq s l).same M z := by
  unfold State.stopSeq
  repeat' first | with_reducible assumption | exact within_trans (by decide) hM | intro _ | with_reducible apply same_ite
                | with_reducible apply State.setSeq_same | with_reducible apply State.enterStopped_same

theorem State.pushOp_same (s : State) (o : InFlight) (hM : within 32 M = true) (h_s : s.same M z) :
    (State.pushOp s o).same M z := by
  unfold State.pushOp
  repeat' first | with_reducible assumption | exact Or.inl (within_bit hM (by decide)) | with_reducible exact Or.inr rfl
                | simp only [same_mk] | with_reducible apply Same.of

theorem State.setOp_same (s : State) (o : InFlight) (hM : within 32 M = true) (h_s : s.same M z) :
    (State.setOp s o).same M z := by
  unfold State.setOp
  repeat' first | with_reducible assumption | exact Or.inl (within_bit hM (by decide)) | with_reducible exact Or.inr rfl
                | simp only [same_mk] | with_reducible apply Same.of

theorem State.dropOp_same (s : State) (id : Nat) (hM : within 32800 M = true) (h_s : s.same M z) :
    (State.dropOp s id).same M z := by
  unfold State.dropOp
  repeat' first | with_reducible assumption | exact Or.inl (within_bit hM (by decide)) | with_reducible exact Or.inr rfl
                | simp only [same_mk] | with_reducible apply Same.of

theorem State.issueOp_same (s : State) (l : ListId) (r : OpRecord) (run : State → InFlight → State × InFlight)
    (hM : within 34 M = true) (h_s : s.same M z) (h_run : ∀ x0 x1, x0.same M z → (run x0 x1).1.same M z) :
    (State.issueOp s l r run).same M z := by
  unfold State.issueOp
  repeat' first | with_reducible assumption | exact within_trans (by decide) hM | intro _ | with_reducible apply same_ite
                | with_reducible apply h_run | with_reducible apply State.holdSeq_same
                | with_reducible apply State.advance_same | with_reducible apply State.pushOp_same
                | with_reducible apply State.setOp_same | split

theorem State.writeRecord_same (s : State) (o : InFlight) (hM : within 67338350 M = true) (h_s : s.same M z) :
    (State.writeRecord s o).same M z := by
  unfold State.writeRecord
  repeat' first | with_reducible assumption | exact Or.inl (within_bit hM (by decide)) | with_reducible exact Or.inr rfl
                | exact within_trans (by decide) hM | intro _ | with_reducible apply same_ite
                | with_reducible apply State.write_same | simp only [same_mk] | with_reducible apply Same.of

theorem State.logReplay_same (s : State) (o : InFlight) (hM : within 32 M = true) (h_s : s.same M z) :
    (State.logReplay s o).same M z := by
  unfold State.logReplay
  repeat' first | with_reducible assumption | exact Or.inl (within_bit hM (by decide)) | with_reducible exact Or.inr rfl
                | simp only [same_mk] | with_reducible apply Same.of

theorem State.countStalls_same (s : State) (o : InFlight) (hM : within 2 M = true) (h_s : s.same M z) :
    (State.countStalls s o).same M z := by
  unfold State.countStalls
  repeat' first | with_reducible assumption | intro _ | with_reducible apply State.bump64_same
                | with_reducible apply same_foldl

theorem State.finishOp_same (s : State) (o : InFlight) (hM : within 101154926 M = true) (h_s : s.same M z) :
    (State.finishOp s o).same M z := by
  unfold State.finishOp
  repeat' first | with_reducible assumption | exact within_trans (by decide) hM | intro _ | with_reducible apply same_ite
                | with_reducible apply State.setFld_same | with_reducible apply State.bump64_same
                | with_reducible apply State.postEvent_same | with_reducible apply State.setCount_same
                | with_reducible apply State.refreshPhases_same | with_reducible apply State.checkStepEnd_same
                | with_reducible apply State.signalFrom_same | with_reducible apply State.stopSeq_same
                | with_reducible apply State.dropOp_same | with_reducible apply State.countStalls_same

theorem State.completeOp_same (s : State) (o : InFlight) (hM : within 101154926 M = true) (h_s : s.same M z) :
    (State.completeOp s o).same M z := by
  unfold State.completeOp
  repeat' first | with_reducible assumption | exact within_trans (by decide) hM | intro _ | with_reducible apply same_ite
                | with_reducible apply State.setOp_same | with_reducible apply State.writeRecord_same
                | with_reducible apply State.logReplay_same | with_reducible apply State.finishOp_same

theorem State.writeStats_same (s : State) (o : Origin) (base : Nat) (covers : List Nat) (stats : List (Nat × Num × Tally))
    (whole : Nat → Bool) (hM : within 67338318 M = true) (h_s : s.same M z) :
    (State.writeStats s o base covers stats whole).same M z := by
  unfold State.writeStats
  repeat' first | with_reducible assumption | intro _ | with_reducible apply State.write_same
                | with_reducible apply same_foldl

theorem State.setOverflow_same (s : State) (o : Origin) (t : Tensor) (j : Nat) (hM : within 67338318 M = true)
    (h_s : s.same M z) :
    (State.setOverflow s o t j).same M z := by
  unfold State.setOverflow
  repeat' first | with_reducible assumption | with_reducible apply State.write_same

theorem State.markOverflow_same (s : State) (o : Origin) (tensorId start : Nat) (dst : Ctl) (blks : List Nat)
    (hM : within 67338318 M = true) (h_s : s.same M z) :
    (State.markOverflow s o tensorId start dst blks).same M z := by
  unfold State.markOverflow
  repeat' first | with_reducible assumption | intro _ | with_reducible apply State.setOverflow_same
                | with_reducible apply same_foldl | split

theorem State.writeRuns_same (s : State) (o : InFlight) (digest : Bool) (ps : List BitRun) (hM : within 67338318 M = true)
    (h_s : s.same M z) :
    (State.writeRuns s o digest ps).1.same M z := by
  unfold State.writeRuns
  repeat' first | with_reducible assumption | intro _ | with_reducible apply State.writeSealed_same
                | with_reducible apply same_foldl

theorem State.writeOut_same (s : State) (o : InFlight) (c : ConvOut) (dst : Ctl) (start statBase : Nat)
    (inStats : List (Nat × Num × Tally)) (inWhole : List Nat) (hM : within 67338318 M = true) (h_s : s.same M z) :
    (State.writeOut s o c dst start statBase inStats inWhole).1.same M z := by
  unfold State.writeOut
  repeat' first | with_reducible assumption | intro _ | with_reducible apply same_ite | with_reducible apply same_ite_fst
                | with_reducible apply State.writeStats_same | with_reducible apply State.markOverflow_same
                | with_reducible apply State.writeRuns_same

theorem State.countFails_same (s : State) (ts : List Nat) (hM : within 2 M = true) (h_s : s.same M z) :
    (State.countFails s ts).same M z := by
  unfold State.countFails
  repeat' first | with_reducible assumption | intro _ | with_reducible apply same_ite
                | with_reducible apply State.bump32_same | with_reducible apply same_foldl

theorem State.countBad_same (s : State) (ts : List Nat) (hM : within 2 M = true) (h_s : s.same M z) :
    (State.countBad s ts).same M z := by
  unfold State.countBad
  repeat' first | with_reducible assumption | intro _ | with_reducible apply State.bump32_same
                | with_reducible apply same_foldl

theorem State.copyBad_same (s : State) (t u : Nat) (hM : within 32768 M = true) (h_s : s.same M z) :
    (State.copyBad s t u).same M z := by
  unfold State.copyBad
  repeat' first | with_reducible assumption | exact Or.inl (within_bit hM (by decide)) | with_reducible exact Or.inr rfl
                | simp only [same_mk] | with_reducible apply Same.of

theorem State.verified_same (s : State) (o : InFlight) (cls : Bool) (i : Inputs)
    (body : State → InFlight → State × InFlight) (hM : within 2 M = true) (h_s : s.same M z)
    (h_body : ∀ x0 x1, x0.same M z → (body x0 x1).1.same M z) :
    (State.verified s o cls i body).1.same M z := by
  unfold State.verified
  repeat' first | with_reducible assumption | intro _ | with_reducible apply same_ite_fst | with_reducible apply h_body
                | with_reducible apply State.countFails_same | with_reducible apply State.countBad_same

theorem State.pickFault_same (s : State) (faults : List (Nat × Nat)) (hM : within 33554432 M = true) (h_s : s.same M z) :
    (State.pickFault s faults).2.same M z := by
  unfold State.pickFault
  repeat' first | with_reducible assumption | exact Or.inl (within_bit hM (by decide)) | with_reducible exact Or.inr rfl
                | intro _ | with_reducible apply same_ite_snd | simp only [same_mk] | with_reducible apply Same.of

theorem State.writeD_same (s : State) (o : InFlight) (m : MatOp) (elem : Nat → Nat → ElemOut)
    (hM : within 100892750 M = true) (h_s : s.same M z) :
    (State.writeD s o m elem).1.same M z := by
  unfold State.writeD
  repeat' first | with_reducible assumption | exact within_trans (by decide) hM | with_reducible apply State.writeOut_same
                | with_reducible apply State.pickFault_same | simp only [same_mk] | split

theorem State.writeAnchors_same (s : State) (o : InFlight) (m : MatOp) (digest : Bool) (anchors : List Byte)
    (hM : within 67338318 M = true) (h_s : s.same M z) :
    (State.writeAnchors s o m digest anchors).1.same M z := by
  unfold State.writeAnchors
  repeat' first | with_reducible assumption | intro _ | with_reducible apply same_ite_fst
                | with_reducible apply State.writeRuns_same

theorem runMatmul_same (m : MatOp) (s : State) (o : InFlight) (hM : within 100892750 M = true) (h_s : s.same M z) :
    (runMatmul m s o).1.same M z := by
  unfold runMatmul
  repeat' first | with_reducible assumption | exact within_trans (by decide) hM | intro _
                | with_reducible apply same_ite_fst | with_reducible apply State.writeD_same
                | with_reducible apply State.writeAnchors_same

theorem runMatmulPart_same (m : MatOp) (s : State) (o : InFlight) (hM : within 100892750 M = true) (h_s : s.same M z) :
    (runMatmulPart m s o).1.same M z := by
  unfold runMatmulPart
  repeat' first | with_reducible assumption | exact within_trans (by decide) hM | with_reducible apply State.writeRuns_same
                | with_reducible apply State.pickFault_same | with_reducible apply State.writeAnchors_same | split

theorem runAnchorGather_same (m : MatOp) (s : State) (o : InFlight) (hM : within 67338318 M = true) (h_s : s.same M z) :
    (runAnchorGather m s o).1.same M z := by
  unfold runAnchorGather
  repeat' first | with_reducible assumption | with_reducible apply State.writeAnchors_same

theorem runPartCombine_same (m : MatOp) (s : State) (o : InFlight) (hM : within 100892750 M = true) (h_s : s.same M z) :
    (runPartCombine m s o).1.same M z := by
  unfold runPartCombine
  repeat' first | with_reducible assumption | with_reducible apply State.writeD_same

theorem matrixBody_same (s : State) (o : InFlight) (hM : within 100892750 M = true) (h_s : s.same M z) :
    (matrixBody s o).1.same M z := by
  unfold matrixBody
  repeat' first | with_reducible assumption | exact within_trans (by decide) hM | with_reducible apply State.bump64_same
                | with_reducible apply runMatmul_same | with_reducible apply runMatmulPart_same
                | with_reducible apply runAnchorGather_same | with_reducible apply runPartCombine_same | split

theorem matrixRun_same (s : State) (o : InFlight) (hM : within 100892750 M = true) (h_s : s.same M z) :
    (matrixRun s o).1.same M z := by
  unfold matrixRun
  repeat' first | with_reducible assumption | exact within_trans (by decide) hM | intro _
                | with_reducible apply State.verified_same | with_reducible apply matrixBody_same

theorem State.setVreg_same (s : State) (n i : Nat) (v : VReg) (hM : within 32 M = true) (h_s : s.same M z) :
    (State.setVreg s n i v).same M z := by
  unfold State.setVreg
  repeat' first | with_reducible assumption | exact Or.inl (within_bit hM (by decide)) | with_reducible exact Or.inr rfl
                | simp only [same_mk] | with_reducible apply Same.of

theorem State.setMreg_same (s : State) (n i : Nat) (v : MReg) (hM : within 32 M = true) (h_s : s.same M z) :
    (State.setMreg s n i v).same M z := by
  unfold State.setMreg
  repeat' first | with_reducible assumption | exact Or.inl (within_bit hM (by decide)) | with_reducible exact Or.inr rfl
                | intro _ | with_reducible apply same_ite | simp only [same_mk] | with_reducible apply Same.of

theorem State.runDerive_same (s : State) (o : InFlight) (op : ChainOp) (hM : within 67338318 M = true) (h_s : s.same M z) :
    (State.runDerive s o op).1.same M z := by
  unfold State.runDerive
  repeat' first | with_reducible assumption | with_reducible apply State.writeRuns_same

theorem State.writeVreg_same (s : State) (o : InFlight) (n row : Nat) (op : ChainOp) (outs : List (Option (Option Num)))
    (hM : within 67338350 M = true) (h_s : s.same M z) :
    (State.writeVreg s o n row op outs).1.same M z := by
  unfold State.writeVreg
  repeat' first | with_reducible assumption | exact within_trans (by decide) hM | intro _
                | with_reducible apply same_ite_fst | with_reducible apply State.writeRuns_same
                | with_reducible apply State.setVreg_same

theorem State.writeCmpMask_same (s : State) (n : Nat) (op : ChainOp) (k : Nat) (fresh : List Bool)
    (hM : within 33554464 M = true) (h_s : s.same M z) :
    (State.writeCmpMask s n op k fresh).same M z := by
  unfold State.writeCmpMask
  repeat' first | with_reducible assumption | exact within_trans (by decide) hM | intro _ | with_reducible apply same_ite
                | with_reducible apply State.setMreg_same

theorem State.runChain_same (s : State) (o : InFlight) (op : ChainOp) (k : Nat) (hM : within 100892782 M = true)
    (h_s : s.same M z) :
    (State.runChain s o op k).1.same M z := by
  unfold State.runChain
  repeat' first | with_reducible assumption | exact within_trans (by decide) hM | intro _ | with_reducible apply same_ite
                | with_reducible apply same_ite_fst | with_reducible apply State.writeStats_same
                | with_reducible apply State.writeOut_same | with_reducible apply State.writeVreg_same
                | with_reducible apply State.writeCmpMask_same

theorem vopBody_same (s : State) (o : InFlight) (hM : within 100892782 M = true) (h_s : s.same M z) :
    (vopBody s o).1.same M z := by
  unfold vopBody
  repeat' first | with_reducible assumption | exact within_trans (by decide) hM | with_reducible apply State.bump64_same
                | with_reducible apply State.runDerive_same | with_reducible apply State.runChain_same | simp only [same_mk]
                | split

theorem vopRun_same (s : State) (o : InFlight) (hM : within 100892782 M = true) (h_s : s.same M z) : (vopRun s o).1.same M z := by
  unfold vopRun
  repeat' first | with_reducible assumption | exact within_trans (by decide) hM | intro _
                | with_reducible apply State.verified_same | with_reducible apply vopBody_same | split

theorem setvlRun_same (s : State) (o : InFlight) (hM : within 34 M = true) (h_s : s.same M z) : (setvlRun s o).1.same M z := by
  unfold setvlRun
  repeat' first | with_reducible assumption | exact Or.inl (within_bit hM (by decide)) | with_reducible exact Or.inr rfl
                | exact within_trans (by decide) hM | with_reducible apply State.bump64_same | simp only [same_mk]
                | with_reducible apply Same.of

theorem State.sealRange_same (s : State) (o : InFlight) (a n : Nat) (hM : within 8 M = true) (h_s : s.same M z) :
    (State.sealRange s o a n).1.same M z := by
  unfold State.sealRange
  repeat' first | with_reducible assumption | intro _ | with_reducible apply State.setTag_same
                | with_reducible apply same_foldl

theorem State.settleOp_same (s : State) (o : InFlight) (hM : within 101154926 M = true) (h_s : s.same M z) :
    (State.settleOp s o).same M z := by
  unfold State.settleOp
  repeat' first | with_reducible assumption | exact within_trans (by decide) hM | with_reducible apply State.setOp_same
                | with_reducible apply State.completeOp_same | with_reducible apply State.sealRange_same | split

theorem State.settle_same (s : State) (hM : within 101154926 M = true) (h_s : s.same M z) : (State.settle s).same M z := by
  unfold State.settle
  repeat' first | with_reducible assumption | intro _ | with_reducible apply State.settleOp_same
                | with_reducible apply same_foldl | split

theorem State.putOp_same (s : State) (o : InFlight) (hM : within 101154926 M = true) (h_s : s.same M z) :
    (State.putOp s o).same M z := by
  unfold State.putOp
  repeat' first | with_reducible assumption | exact within_trans (by decide) hM | with_reducible apply State.setOp_same
                | with_reducible apply State.settle_same

end Sys2Proof.Machine
end

