-- ==== Sys2Proof/Laws/SameTransfers.lean ====
section
/-! SUPPORT. What the home of remote requests, queues, transfers and Marrow ops leave as it is, by the parts of the state (Laws/Same.lean). -/
namespace Sys2Proof.Machine

variable {M : Nat} {z : State}

theorem State.onFabric_same (s : State) (f : Fabric → Fabric) (hM : within 131072 M = true) (h_s : s.same M z) :
    (State.onFabric s f).same M z := by
  unfold State.onFabric
  repeat' first | with_reducible assumption | exact Or.inl (within_bit hM (by decide)) | with_reducible exact Or.inr rfl
                | simp only [same_mk] | with_reducible apply Same.of

theorem State.reply_same (s : State) (tx : Tx) (word : Nat) (data : List Byte) (crc : Bool) (hM : within 67239938 M = true)
    (h_s : s.same M z) :
    (State.reply s tx word data crc).same M z := by
  unfold State.reply
  repeat' first | with_reducible assumption | with_reducible apply State.sendTx_same

theorem State.refuse_same (s : State) (tx : Tx) (status : Nat) (hM : within 67239938 M = true) (h_s : s.same M z) :
    (State.refuse s tx status).same M z := by
  unfold State.refuse
  repeat' first | with_reducible assumption | with_reducible apply State.sendTx_same

theorem State.mark_same (s : State) (g seq : Nat) (hM : within 131072 M = true) (h_s : s.same M z) :
    (State.mark s g seq).same M z := by
  unfold State.mark
  repeat' first | with_reducible assumption | intro _ | with_reducible apply same_ite
                | with_reducible apply State.onFabric_same

theorem State.journal_same (s : State) (tx : Tx) (old : Nat) (hM : within 131074 M = true) (h_s : s.same M z) :
    (State.journal s tx old).same M z := by
  unfold State.journal
  repeat' first | with_reducible assumption | exact within_trans (by decide) hM | with_reducible apply State.setFld_same
                | with_reducible apply State.onFabric_same

theorem State.applyAtomic_same (s : State) (tx : Tx) (hM : within 67338318 M = true) (h_s : s.same M z) :
    (State.applyAtomic s tx).same M z := by
  unfold State.applyAtomic
  repeat' first | with_reducible assumption | exact within_trans (by decide) hM | with_reducible apply State.atomic_same
                | with_reducible apply State.mark_same | with_reducible apply State.journal_same

theorem State.setServe_same (s : State) (v : Serve) (hM : within 131072 M = true) (h_s : s.same M z) :
    (State.setServe s v).same M z := by
  unfold State.setServe
  repeat' first | with_reducible assumption | with_reducible apply State.onFabric_same

theorem State.congestNotice_same (s : State) (g gap : Nat) (hM : within 67239938 M = true) (h_s : s.same M z) :
    (State.congestNotice s g gap).same M z := by
  unfold State.congestNotice
  repeat' first | with_reducible assumption | exact within_trans (by decide) hM | with_reducible apply State.bump64_same
                | with_reducible apply State.sendTx_same | with_reducible apply State.onFabric_same

theorem State.congested_same (s : State) (line : Nat) (hM : within 67239938 M = true) (h_s : s.same M z) :
    (State.congested s line).same M z := by
  unfold State.congested
  repeat' first | with_reducible assumption | exact within_trans (by decide) hM | intro _ | with_reducible apply same_ite
                | with_reducible apply State.onFabric_same | with_reducible apply State.congestNotice_same
                | with_reducible apply same_foldl

theorem State.relieved_same (s : State) (line : Nat) (hM : within 67239938 M = true) (h_s : s.same M z) :
    (State.relieved s line).same M z := by
  unfold State.relieved
  repeat' first | with_reducible assumption | exact within_trans (by decide) hM | intro _ | with_reducible apply same_ite
                | with_reducible apply State.onFabric_same | with_reducible apply State.congestNotice_same
                | with_reducible apply same_foldl

theorem State.commitAt_same (s : State) (v : Serve) (line : Nat) (hM : within 67338318 M = true) (h_s : s.same M z) :
    (State.commitAt s v line).same M z := by
  unfold State.commitAt
  repeat' first | with_reducible assumption | exact within_trans (by decide) hM | intro _
                | with_reducible apply State.bump64_same | with_reducible apply State.write_same
                | with_reducible apply State.applyAtomic_same | with_reducible apply same_foldl | split

theorem State.noteTile_same (s : State) (tx : Tx) (line : Nat) (hM : within 32768 M = true) (h_s : s.same M z) :
    (State.noteTile s tx line).same M z := by
  unfold State.noteTile
  repeat' first | with_reducible assumption | exact Or.inl (within_bit hM (by decide)) | with_reducible exact Or.inr rfl
                | intro _ | with_reducible apply same_ite | simp only [same_mk] | with_reducible apply Same.of

theorem State.pull_same (s : State) (line : Nat) (n_ : Nat) (hM : within 67338318 M = true) (h_s : s.same M z) :
    (State.pull s line n_).same M z := by
  induction n_ generalizing s line with
  | zero =>
    unfold State.pull
    repeat' first | with_reducible assumption
  | succ n ih =>
    unfold State.pull
    repeat' first | with_reducible assumption | exact within_trans (by decide) hM | with_reducible apply ih | intro _
                  | with_reducible apply State.onFabric_same | with_reducible apply State.setServe_same
                  | with_reducible apply State.relieved_same | with_reducible apply State.commitAt_same
                  | with_reducible apply State.noteTile_same | with_reducible apply same_foldl | split

theorem State.answerRead_same (s : State) (tx : Tx) (bs : List Byte) (lines : Tab (List Byte))
    (hM : within 67239938 M = true) (h_s : s.same M z) :
    (State.answerRead s tx bs lines).same M z := by
  unfold State.answerRead
  repeat' first | with_reducible assumption | exact within_trans (by decide) hM | intro _ | with_reducible apply same_ite
                | with_reducible apply State.sendTx_same | with_reducible apply State.onFabric_same
                | with_reducible apply State.reply_same | with_reducible apply State.mark_same
                | with_reducible apply same_foldl

theorem State.endTile_same (s : State) (tx : Tx) (hM : within 32768 M = true) (h_s : s.same M z) :
    (State.endTile s tx).same M z := by
  unfold State.endTile
  repeat' first | with_reducible assumption | exact Or.inl (within_bit hM (by decide)) | with_reducible exact Or.inr rfl
                | intro _ | with_reducible apply same_ite | simp only [same_mk] | with_reducible apply Same.of

theorem State.sealRemote_same (s : State) (tx : Tx) (hM : within 8 M = true) (h_s : s.same M z) :
    (State.sealRemote s tx).same M z := by
  unfold State.sealRemote
  repeat' first | with_reducible assumption | intro _ | with_reducible apply same_ite
                | with_reducible apply State.setTag_same

theorem State.answerWrite_same (s : State) (tx : Tx) (hM : within 67272714 M = true) (h_s : s.same M z) :
    (State.answerWrite s tx).same M z := by
  unfold State.answerWrite
  repeat' first | with_reducible assumption | exact within_trans (by decide) hM | intro _ | with_reducible apply same_ite
                | with_reducible apply State.reply_same | with_reducible apply State.refuse_same
                | with_reducible apply State.mark_same | with_reducible apply State.endTile_same
                | with_reducible apply State.sealRemote_same

theorem State.answerAtomic_same (s : State) (tx : Tx) (hM : within 67239938 M = true) (h_s : s.same M z) :
    (State.answerAtomic s tx).same M z := by
  unfold State.answerAtomic
  repeat' first | with_reducible assumption | exact within_trans (by decide) hM | with_reducible apply State.reply_same
                | with_reducible apply State.mark_same | split

theorem State.finishServes_same (s : State) (hM : within 67272714 M = true) (h_s : s.same M z) :
    (State.finishServes s).same M z := by
  unfold State.finishServes
  repeat' first | with_reducible assumption | exact within_trans (by decide) hM | intro _ | with_reducible apply same_ite
                | with_reducible apply State.bump64_same | with_reducible apply State.onFabric_same
                | with_reducible apply State.reply_same | with_reducible apply State.mark_same
                | with_reducible apply State.answerRead_same | with_reducible apply State.answerWrite_same
                | with_reducible apply State.answerAtomic_same | with_reducible apply same_foldl

theorem State.pullAll_same (s : State) (hM : within 67338318 M = true) (h_s : s.same M z) : (State.pullAll s).same M z := by
  unfold State.pullAll
  repeat' first | with_reducible assumption | intro _ | with_reducible apply State.pull_same
                | with_reducible apply same_foldl

theorem State.afterWrites_same (s : State) (hM : within 101154926 M = true) (h_s : s.same M z) :
    (State.afterWrites s).same M z := by
  unfold State.afterWrites
  repeat' first | with_reducible assumption | exact within_trans (by decide) hM
                | with_reducible apply State.retryWrites_same | with_reducible apply State.settle_same
                | with_reducible apply State.finishServes_same | with_reducible apply State.pullAll_same

theorem State.joinQueues_same (s : State) (ms : List Tx) (hM : within 67338318 M = true) (h_s : s.same M z) :
    (State.joinQueues s ms).same M z := by
  unfold State.joinQueues
  repeat' first | with_reducible assumption | exact within_trans (by decide) hM | intro _
                | with_reducible apply State.onFabric_same | with_reducible apply State.congested_same
                | with_reducible apply State.pull_same | with_reducible apply State.finishServes_same
                | with_reducible apply same_foldl | split

theorem State.refreshCress_same (s : State) (hM : within 2 M = true) (h_s : s.same M z) : (State.refreshCress s).same M z := by
  unfold State.refreshCress
  repeat' first | with_reducible assumption | with_reducible apply State.setFld_same

theorem State.closeCress_same (s : State) (e : Cress) (hM : within 67338318 M = true) (h_s : s.same M z) :
    (State.closeCress s e).same M z := by
  unfold State.closeCress
  repeat' first | with_reducible assumption | exact within_trans (by decide) hM | with_reducible apply State.onFabric_same
                | with_reducible apply State.joinQueues_same | with_reducible apply State.refreshCress_same

theorem State.arrive_same (s : State) (t : Tx) (hM : within 67338318 M = true) (h_s : s.same M z) :
    (State.arrive s t).same M z := by
  unfold State.arrive
  repeat' first | with_reducible assumption | exact within_trans (by decide) hM | intro _ | with_reducible apply same_ite
                | with_reducible apply State.bump64_same | with_reducible apply State.onFabric_same
                | with_reducible apply State.joinQueues_same | with_reducible apply State.refreshCress_same
                | with_reducible apply State.closeCress_same | with_reducible apply same_foldl | split

theorem State.spaced_same (s : State) (home : Nat) (hM : within 131072 M = true) (h_s : s.same M z) :
    (State.spaced s home).same M z := by
  unfold State.spaced
  repeat' first | with_reducible assumption | with_reducible apply State.onFabric_same

theorem State.creditStall_same (s : State) (l : ListId) (hM : within 2 M = true) (h_s : s.same M z) :
    (State.creditStall s l).same M z := by
  unfold State.creditStall
  repeat' first | with_reducible assumption | with_reducible apply State.bump64_same

theorem State.requestFrom_same (s : State) (stream op req : Nat) (tx : Tx) (hM : within 67239938 M = true)
    (h_s : s.same M z) :
    (State.requestFrom s stream op req tx).1.same M z := by
  unfold State.requestFrom
  repeat' first | with_reducible assumption | exact Or.inl (within_bit hM (by decide)) | with_reducible exact Or.inr rfl
                | exact within_trans (by decide) hM | intro _ | with_reducible apply same_ite
                | with_reducible apply State.sendTx_same | with_reducible apply State.spaced_same | simp only [same_mk]
                | with_reducible apply Same.of

theorem State.request_same (s : State) (l : ListId) (op req : Nat) (tx : Tx) (hM : within 67239938 M = true)
    (h_s : s.same M z) :
    (State.request s l op req tx).same M z := by
  unfold State.request
  repeat' first | with_reducible assumption | exact within_trans (by decide) hM | intro _ | with_reducible apply same_ite
                | with_reducible apply State.creditStall_same | with_reducible apply State.requestFrom_same

theorem State.sendNext_same (s : State) (g : Nat) (hM : within 67239938 M = true) (h_s : s.same M z) :
    (State.sendNext s g).same M z := by
  unfold State.sendNext
  repeat' first | with_reducible assumption | exact Or.inl (within_bit hM (by decide)) | with_reducible exact Or.inr rfl
                | exact within_trans (by decide) hM | with_reducible apply State.sendTx_same
                | with_reducible apply State.spaced_same | simp only [same_mk] | with_reducible apply Same.of | split

theorem State.sendWaiting_same (s : State) (g : Nat) (n_ : Nat) (hM : within 67239938 M = true) (h_s : s.same M z) :
    (State.sendWaiting s g n_).same M z := by
  induction n_ generalizing s g with
  | zero =>
    unfold State.sendWaiting
    repeat' first | with_reducible assumption
  | succ n ih =>
    unfold State.sendWaiting
    repeat' first | with_reducible assumption | with_reducible apply ih | intro _ | with_reducible apply same_ite
                  | with_reducible apply State.sendNext_same

theorem State.resend_same (s : State) (g : Nat) (counted : Bool) (hM : within 67239938 M = true) (h_s : s.same M z) :
    (State.resend s g counted).same M z := by
  unfold State.resend
  repeat' first | with_reducible assumption | exact Or.inl (within_bit hM (by decide)) | with_reducible exact Or.inr rfl
                | exact within_trans (by decide) hM | intro _ | with_reducible apply State.bump64_same
                | with_reducible apply State.sendTx_same | simp only [same_mk] | with_reducible apply Same.of
                | with_reducible apply same_foldl

theorem State.setLaunch_same (s : State) (id : Nat) (l : Launch) (hM : within 131072 M = true) (h_s : s.same M z) :
    (State.setLaunch s id l).same M z := by
  unfold State.setLaunch
  repeat' first | with_reducible assumption | exact Or.inl (within_bit hM (by decide)) | with_reducible exact Or.inr rfl
                | simp only [same_mk] | with_reducible apply Same.of

theorem State.launchEvent_same (s : State) (id g cause : Nat) (hM : within 100925442 M = true) (h_s : s.same M z) :
    (State.launchEvent s id g cause).same M z := by
  unfold State.launchEvent
  repeat' first | with_reducible assumption | with_reducible apply State.postEvent_same

theorem State.launchTx_same (s : State) (op dst id low word : Nat) (hM : within 67239938 M = true) (h_s : s.same M z) :
    (State.launchTx s op dst id low word).same M z := by
  unfold State.launchTx
  repeat' first | with_reducible assumption | with_reducible apply State.sendTx_same

theorem State.launchDoneCheck_same (s : State) (id : Nat) (hM : within 101056514 M = true) (h_s : s.same M z) :
    (State.launchDoneCheck s id).same M z := by
  unfold State.launchDoneCheck
  repeat' first | with_reducible assumption | exact within_trans (by decide) hM
                | with_reducible apply State.endLongCode_same | with_reducible apply State.setLaunch_same
                | with_reducible apply State.launchTx_same | split

theorem State.launchHeldCheck_same (s : State) (id : Nat) (hM : within 101056514 M = true) (h_s : s.same M z) :
    (State.launchHeldCheck s id).same M z := by
  unfold State.launchHeldCheck
  repeat' first | with_reducible assumption | exact within_trans (by decide) hM | intro _ | with_reducible apply same_ite
                | with_reducible apply State.endLongCode_same | with_reducible apply State.setLaunch_same
                | with_reducible apply State.launchDoneCheck_same | split

theorem State.dropChild_same (s : State) (id g : Nat) (hM : within 101056514 M = true) (h_s : s.same M z) :
    (State.dropChild s id g).same M z := by
  unfold State.dropChild
  repeat' first | with_reducible assumption | exact within_trans (by decide) hM | with_reducible apply State.setLaunch_same
                | with_reducible apply State.launchEvent_same | with_reducible apply State.launchDoneCheck_same | split

theorem State.markLost_same (s : State) (g cause : Nat) (hM : within 101154926 M = true) (h_s : s.same M z) :
    (State.markLost s g cause).same M z := by
  unfold State.markLost
  repeat' first | with_reducible assumption | exact Or.inl (within_bit hM (by decide)) | with_reducible exact Or.inr rfl
                | exact within_trans (by decide) hM | intro _ | with_reducible apply same_ite
                | with_reducible apply State.bump_same | with_reducible apply State.postEvent_same
                | with_reducible apply State.setOp_same | with_reducible apply State.onFabric_same
                | with_reducible apply State.afterWrites_same | with_reducible apply State.dropChild_same
                | simp only [same_mk] | with_reducible apply Same.of | with_reducible apply same_foldl

theorem State.requestOrLose_same (s : State) (l : ListId) (op req : Nat) (tx : Tx) (hM : within 101154926 M = true)
    (h_s : s.same M z) :
    (State.requestOrLose s l op req tx).same M z := by
  unfold State.requestOrLose
  repeat' first | with_reducible assumption | exact within_trans (by decide) hM | intro _ | with_reducible apply same_ite
                | with_reducible apply State.request_same | with_reducible apply State.markLost_same

theorem State.setQueue_same (s : State) (q : Nat) (x : Queue) (hM : within 8192 M = true) (h_s : s.same M z) :
    (State.setQueue s q x).same M z := by
  unfold State.setQueue
  repeat' first | with_reducible assumption | exact Or.inl (within_bit hM (by decide)) | with_reducible exact Or.inr rfl
                | simp only [same_mk] | with_reducible apply Same.of

theorem State.refreshEngine_same (s : State) (t : Nat) (hM : within 2 M = true) (h_s : s.same M z) :
    (State.refreshEngine s t).same M z := by
  unfold State.refreshEngine
  repeat' first | with_reducible assumption | with_reducible apply State.setFld_same

theorem State.spill_same (s : State) (o : Origin) (counted : Bool) (q x : Nat) (bs : List Byte)
    (hM : within 67338318 M = true) (h_s : s.same M z) :
    (State.spill s o counted q x bs).same M z := by
  unfold State.spill
  repeat' first | with_reducible assumption | exact within_trans (by decide) hM | with_reducible apply State.bump64_same
                | with_reducible apply State.write_same | split

theorem State.writeBack_same (s : State) (o : Origin) (q : Nat) (hM : within 67346510 M = true) (h_s : s.same M z) :
    (State.writeBack s o q).same M z := by
  unfold State.writeBack
  repeat' first | with_reducible assumption | exact within_trans (by decide) hM | intro _
                | with_reducible apply State.setQueue_same | with_reducible apply State.spill_same
                | with_reducible apply same_foldl

theorem State.saveRecord_same (s : State) (o : Origin) (q : Nat) (hM : within 67338318 M = true) (h_s : s.same M z) :
    (State.saveRecord s o q).same M z := by
  unfold State.saveRecord
  repeat' first | with_reducible assumption | with_reducible apply State.write_same | split

theorem State.evict_same (s : State) (q : Nat) (hM : within 67362894 M = true) (h_s : s.same M z) :
    (State.evict s q).same M z := by
  unfold State.evict
  repeat' first | with_reducible assumption | exact Or.inl (within_bit hM (by decide)) | with_reducible exact Or.inr rfl
                | exact within_trans (by decide) hM | with_reducible apply State.bump64_same
                | with_reducible apply State.setQueue_same | with_reducible apply State.writeBack_same
                | with_reducible apply State.saveRecord_same | simp only [same_mk] | with_reducible apply Same.of

theorem State.touch_same (s : State) (q : Nat) (hM : within 16384 M = true) (h_s : s.same M z) : (State.touch s q).same M z := by
  unfold State.touch
  repeat' first | with_reducible assumption | exact Or.inl (within_bit hM (by decide)) | with_reducible exact Or.inr rfl
                | simp only [same_mk] | with_reducible apply Same.of

theorem State.giveSlot_same (s : State) (q : Nat) (hM : within 67362894 M = true) (h_s : s.same M z) :
    (State.giveSlot s q).1.same M z := by
  unfold State.giveSlot
  repeat' first | with_reducible assumption | exact within_trans (by decide) hM | intro _
                | with_reducible apply same_ite_fst | with_reducible apply State.bump64_same
                | with_reducible apply State.evict_same | with_reducible apply State.touch_same | split

theorem State.slotTaken_same (s : State) (q : Nat) (hM : within 8194 M = true) (h_s : s.same M z) :
    (State.slotTaken s q).same M z := by
  unfold State.slotTaken
  repeat' first | with_reducible assumption | exact within_trans (by decide) hM | with_reducible apply State.bump64_same
                | with_reducible apply State.setQueue_same | split

theorem State.needSlot_same (s : State) (q : Nat) (hM : within 67362894 M = true) (h_s : s.same M z) :
    (State.needSlot s q).same M z := by
  unfold State.needSlot
  repeat' first | with_reducible assumption | exact within_trans (by decide) hM | intro _ | with_reducible apply same_ite
                | with_reducible apply State.setQueue_same | with_reducible apply State.refreshEngine_same
                | with_reducible apply State.touch_same | with_reducible apply State.giveSlot_same
                | with_reducible apply State.slotTaken_same | with_reducible refine same_fst (by assumption) ?_ | split

theorem State.refillHead_same (s : State) (q : Nat) (hM : within 8192 M = true) (h_s : s.same M z) :
    (State.refillHead s q).same M z := by
  unfold State.refillHead
  repeat' first | with_reducible assumption | with_reducible apply State.setQueue_same

theorem State.fetched_same (s : State) (q : Nat) (hM : within 8194 M = true) (h_s : s.same M z) :
    (State.fetched s q).same M z := by
  unfold State.fetched
  repeat' first | with_reducible assumption | exact within_trans (by decide) hM | with_reducible apply State.setQueue_same
                | with_reducible apply State.refreshEngine_same | with_reducible apply State.refillHead_same

theorem State.residentNow_same (s : State) (q : Nat) (hM : within 67362894 M = true) (h_s : s.same M z) :
    (State.residentNow s q).1.same M z := by
  unfold State.residentNow
  repeat' first | with_reducible assumption | exact within_trans (by decide) hM | with_reducible apply State.touch_same
                | with_reducible apply State.giveSlot_same | with_reducible apply State.fetched_same
                | with_reducible refine same_fst (by assumption) ?_ | split

theorem State.setStream_same (s : State) (id : Nat) (st : Stream) (hM : within 256 M = true) (h_s : s.same M z) :
    (State.setStream s id st).same M z := by
  unfold State.setStream
  repeat' first | with_reducible assumption | exact Or.inl (within_bit hM (by decide)) | with_reducible exact Or.inr rfl
                | simp only [same_mk] | with_reducible apply Same.of

theorem State.sendOnPort_same (s : State) (id p at_ : Nat) (ipv6 : Bool) (dst : Nat × Nat) (bs : List Byte)
    (hM : within 67371010 M = true) (h_s : s.same M z) :
    (State.sendOnPort s id p at_ ipv6 dst bs).1.same M z := by
  unfold State.sendOnPort
  repeat' first | with_reducible assumption | exact Or.inl (within_bit hM (by decide)) | with_reducible exact Or.inr rfl
                | exact within_trans (by decide) hM | with_reducible apply State.send_same | simp only [same_mk]
                | with_reducible apply Same.of

theorem State.sendActuation_same (s : State) (id : Nat) (st : Stream) (sched : Nat) (late : Bool) (e payload : List Byte)
    (hM : within 67371330 M = true) (h_s : s.same M z) :
    (State.sendActuation s id st sched late e payload).same M z := by
  unfold State.sendActuation
  repeat' first | with_reducible assumption | exact within_trans (by decide) hM | intro _
                | with_reducible apply State.onRecord_same | with_reducible apply State.setStream_same
                | with_reducible apply State.sendOnPort_same | with_reducible apply same_foldl_fst

theorem State.freeFrame_same (s : State) (q : Nat) (k : ActFrame) (hM : within 8192 M = true) (h_s : s.same M z) :
    (State.freeFrame s q k).same M z := by
  unfold State.freeFrame
  repeat' first | with_reducible assumption | with_reducible apply State.setQueue_same

theorem State.takeActuation_same (s : State) (id : Nat) (k : ActFrame) (hM : within 67379522 M = true) (h_s : s.same M z) :
    (State.takeActuation s id k).same M z := by
  unfold State.takeActuation
  repeat' first | with_reducible assumption | exact within_trans (by decide) hM | with_reducible apply State.onRecord_same
                | with_reducible apply State.setStream_same | with_reducible apply State.sendActuation_same
                | with_reducible apply State.freeFrame_same | split

theorem State.takeDue_same (s : State) (q : Nat) (n_ : Nat) (hM : within 67379522 M = true) (h_s : s.same M z) :
    (State.takeDue s q n_).same M z := by
  induction n_ generalizing s q with
  | zero =>
    unfold State.takeDue
    repeat' first | with_reducible assumption
  | succ n ih =>
    unfold State.takeDue
    repeat' first | with_reducible assumption | with_reducible apply ih | with_reducible apply State.takeActuation_same
                  | split

theorem State.landStats_same (s : State) (d : QDef) (x : Nat) (vs : List (Num × Tally)) (hM : within 67338318 M = true)
    (h_s : s.same M z) :
    (State.landStats s d x vs).same M z := by
  unfold State.landStats
  repeat' first | with_reducible assumption | intro _ | with_reducible apply same_ite
                | with_reducible apply State.write_same

theorem State.clearStats_same (s : State) (d : QDef) (oldF newF : Nat) (hM : within 67338318 M = true) (h_s : s.same M z) :
    (State.clearStats s d oldF newF).same M z := by
  unfold State.clearStats
  repeat' first | with_reducible assumption | intro _ | with_reducible apply same_ite
                | with_reducible apply State.write_same | with_reducible apply same_foldl

theorem State.release_same (s : State) (q : Nat) (hM : within 67379522 M = true) (h_s : s.same M z) :
    (State.release s q).same M z := by
  unfold State.release
  repeat' first | with_reducible assumption | exact within_trans (by decide) hM | with_reducible apply State.setQueue_same
                | with_reducible apply State.refreshEngine_same | with_reducible apply State.takeDue_same | split

theorem State.putEntry_same (s : State) (o : Origin) (q pos : Nat) (bs : List Byte) (hM : within 67346510 M = true)
    (h_s : s.same M z) :
    (State.putEntry s o q pos bs).same M z := by
  unfold State.putEntry
  repeat' first | with_reducible assumption | exact within_trans (by decide) hM | intro _ | with_reducible apply same_ite
                | with_reducible apply State.setQueue_same | with_reducible apply State.spill_same | split

theorem State.countLanding_same (s : State) (o : Origin) (vs : List (Num × Tally)) (hM : within 32 M = true)
    (h_s : s.same M z) :
    (State.countLanding s o vs).same M z := by
  unfold State.countLanding
  repeat' first | with_reducible assumption | with_reducible apply State.setOp_same | split

theorem State.landAt_same (s : State) (o : Origin) (q pos : Nat) (hM : within 67346542 M = true) (h_s : s.same M z) :
    (State.landAt s o q pos).same M z := by
  unfold State.landAt
  repeat' first | with_reducible assumption | exact within_trans (by decide) hM | intro _ | with_reducible apply same_ite
                | with_reducible apply State.setQueue_same | with_reducible apply State.landStats_same
                | with_reducible apply State.putEntry_same | with_reducible apply State.countLanding_same | split

theorem State.noteRoom_same (s : State) (q : Nat) (hM : within 8192 M = true) (h_s : s.same M z) :
    (State.noteRoom s q).same M z := by
  unfold State.noteRoom
  repeat' first | with_reducible assumption | intro _ | with_reducible apply same_ite
                | with_reducible apply State.setQueue_same

theorem State.deliver_same (s : State) (d : Dequeue) (pos : Nat) (bs : List Byte) (hM : within 67338350 M = true)
    (h_s : s.same M z) :
    (State.deliver s d pos bs).same M z := by
  unfold State.deliver
  repeat' first | with_reducible assumption | exact within_trans (by decide) hM | with_reducible apply State.send_same
                | with_reducible apply State.write_same | with_reducible apply State.setOp_same
                | with_reducible apply State.reply_same | split

theorem State.failDeq_same (s : State) (q : Nat) (d : Dequeue) (tile : Nat) (hM : within 67510306 M = true)
    (h_s : s.same M z) :
    (State.failDeq s q d tile).same M z := by
  unfold State.failDeq
  repeat' first | with_reducible assumption | exact within_trans (by decide) hM | with_reducible apply State.setOp_same
                | with_reducible apply State.countBad_same | with_reducible apply State.refuse_same
                | with_reducible apply State.mark_same | with_reducible apply State.setQueue_same | simp only [same_mk]
                | split

theorem State.serveDeq_same (s : State) (q : Nat) (first : Nat) (ps : List Nat) (hM : within 67608686 M = true)
    (h_s : s.same M z) :
    (State.serveDeq s q first ps).same M z := by
  unfold State.serveDeq
  repeat' first | with_reducible assumption | exact within_trans (by decide) hM | intro _
                | with_reducible apply State.setQueue_same | with_reducible apply State.deliver_same
                | with_reducible apply State.failDeq_same | simp only [same_mk] | with_reducible apply same_foldl | split

theorem State.freeDone_same (s : State) (q : Nat) (n_ : Nat) (hM : within 67346510 M = true) (h_s : s.same M z) :
    (State.freeDone s q n_).same M z := by
  induction n_ generalizing s q with
  | zero =>
    unfold State.freeDone
    repeat' first | with_reducible assumption
  | succ n ih =>
    unfold State.freeDone
    repeat' first | with_reducible assumption | exact Or.inl (within_bit hM (by decide)) | with_reducible exact Or.inr rfl
                  | exact within_trans (by decide) hM | with_reducible apply ih | with_reducible apply State.mark_same
                  | with_reducible apply State.setQueue_same | with_reducible apply State.clearStats_same
                  | simp only [same_mk] | with_reducible apply Same.of | split

theorem State.serveDeqs_same (s : State) (q : Nat) (hM : within 101163118 M = true) (h_s : s.same M z) :
    (State.serveDeqs s q).same M z := by
  unfold State.serveDeqs
  repeat' first | with_reducible assumption | exact within_trans (by decide) hM | intro _ | with_reducible apply same_ite
                | with_reducible apply State.settle_same | with_reducible apply State.noteRoom_same
                | with_reducible apply State.serveDeq_same | with_reducible apply State.freeDone_same
                | with_reducible apply same_foldl

theorem State.enqueueCheck_same (s : State) (o : Origin) (hM : within 101154926 M = true) (h_s : s.same M z) :
    (State.enqueueCheck s o).same M z := by
  unfold State.enqueueCheck
  repeat' first | with_reducible assumption | with_reducible apply State.putOp_same | split

theorem State.afterLanding_same (s : State) (q : Nat) (o : Origin) (hM : within 101163374 M = true) (h_s : s.same M z) :
    (State.afterLanding s q o).same M z := by
  unfold State.afterLanding
  repeat' first | with_reducible assumption | exact within_trans (by decide) hM
                | with_reducible apply State.finishServes_same | with_reducible apply State.release_same
                | with_reducible apply State.serveDeqs_same | with_reducible apply State.enqueueCheck_same

theorem State.landAll_same (s : State) (q start size : Nat) (o : Origin) (hM : within 101163374 M = true) (h_s : s.same M z) :
    (State.landAll s q start size o).same M z := by
  unfold State.landAll
  repeat' first | with_reducible assumption | exact within_trans (by decide) hM | intro _
                | with_reducible apply State.landAt_same | with_reducible apply State.afterLanding_same
                | with_reducible apply same_foldl

theorem State.reserve_same (s : State) (q : Nat) (w : Reservation) (hM : within 101163374 M = true) (h_s : s.same M z) :
    (State.reserve s q w).same M z := by
  unfold State.reserve
  repeat' first | with_reducible assumption | exact Or.inl (within_bit hM (by decide)) | with_reducible exact Or.inr rfl
                | exact within_trans (by decide) hM | with_reducible apply State.bump64_same
                | with_reducible apply State.reply_same | with_reducible apply State.mark_same
                | with_reducible apply State.setQueue_same | with_reducible apply State.refreshEngine_same
                | with_reducible apply State.landAll_same | simp only [same_mk] | with_reducible apply Same.of | split

theorem State.grantWaiting_same (s : State) (q : Nat) (n_ : Nat) (hM : within 101163374 M = true) (h_s : s.same M z) :
    (State.grantWaiting s q n_).same M z := by
  induction n_ generalizing s q with
  | zero =>
    unfold State.grantWaiting
    repeat' first | with_reducible assumption
  | succ n ih =>
    unfold State.grantWaiting
    repeat' first | with_reducible assumption | exact within_trans (by decide) hM | with_reducible apply ih
                  | with_reducible apply State.setQueue_same | with_reducible apply State.reserve_same | split

theorem State.ask_same (s : State) (q : Nat) (w : Reservation) (hM : within 101179758 M = true) (h_s : s.same M z) :
    (State.ask s q w).same M z := by
  unfold State.ask
  repeat' first | with_reducible assumption | exact within_trans (by decide) hM | intro _ | with_reducible apply same_ite
                | with_reducible apply State.creditStall_same | with_reducible apply State.setQueue_same
                | with_reducible apply State.needSlot_same | with_reducible apply State.noteRoom_same
                | with_reducible apply State.grantWaiting_same | split

theorem State.grants_same (s : State) (q : Nat) (hM : within 101179758 M = true) (h_s : s.same M z) :
    (State.grants s q).same M z := by
  unfold State.grants
  repeat' first | with_reducible assumption | exact within_trans (by decide) hM | intro _ | with_reducible apply same_ite
                | with_reducible apply State.needSlot_same | with_reducible apply State.noteRoom_same
                | with_reducible apply State.grantWaiting_same

theorem State.retag_same (s : State) (t : Nat) (g : Tag) (hM : within 32776 M = true) (h_s : s.same M z) :
    (State.retag s t g).same M z := by
  unfold State.retag
  repeat' first | with_reducible assumption | exact Or.inl (within_bit hM (by decide)) | with_reducible exact Or.inr rfl
                | exact within_trans (by decide) hM | intro _ | with_reducible apply same_ite
                | with_reducible apply State.setTag_same | simp only [same_mk] | with_reducible apply Same.of

theorem State.enqueueOp_same (s : State) (o : InFlight) (isGlobal : Bool) (slot : Nat) (bytes : List Byte)
    (hM : within 101179758 M = true) (h_s : s.same M z) :
    (State.enqueueOp s o isGlobal slot bytes).1.same M z := by
  unfold State.enqueueOp
  repeat' first | with_reducible assumption | exact within_trans (by decide) hM | intro _
                | with_reducible apply same_ite_fst | with_reducible apply State.setOp_same
                | with_reducible apply State.creditStall_same | with_reducible apply State.ask_same | split

theorem State.writeAside_same (s : State) (o : InFlight) (d : XferOp) (c : ConvOut) (hM : within 67338318 M = true)
    (h_s : s.same M z) :
    (State.writeAside s o d c).1.same M z := by
  unfold State.writeAside
  repeat' first | with_reducible assumption | with_reducible apply State.writeOut_same

theorem State.sendData_same (s : State) (o : InFlight) (d : XferOp) (c : ConvOut) (crcAt : Nat → Option Word32)
    (hM : within 67338318 M = true) (h_s : s.same M z) :
    (State.sendData s o d c crcAt).1.same M z := by
  unfold State.sendData
  repeat' first | with_reducible assumption | with_reducible apply State.writeAside_same

theorem State.deliverData_same (s : State) (o : InFlight) (d : XferOp) (bytes : List Byte) (crcAt : Nat → Option Word32)
    (hM : within 101179758 M = true) (h_s : s.same M z) :
    (State.deliverData s o d bytes crcAt).1.same M z := by
  unfold State.deliverData
  repeat' first | with_reducible assumption | exact within_trans (by decide) hM | intro _
                | with_reducible apply same_ite_fst | with_reducible apply State.writeOut_same
                | with_reducible apply State.retag_same | with_reducible apply State.enqueueOp_same
                | with_reducible apply State.writeAside_same | with_reducible apply State.sendData_same
                | with_reducible apply same_foldl | split

theorem xferMove_same (s : State) (o : InFlight) (d : XferOp) (hM : within 101179758 M = true) (h_s : s.same M z) :
    (xferMove s o d).1.same M z := by
  unfold xferMove
  repeat' first | with_reducible assumption | intro _ | with_reducible apply same_ite_fst
                | with_reducible apply State.deliverData_same | split

theorem xferDequeue_same (s : State) (o : InFlight) (d : XferOp) (hM : within 101179502 M = true) (h_s : s.same M z) :
    (xferDequeue s o d).1.same M z := by
  unfold xferDequeue
  repeat' first | with_reducible assumption | exact within_trans (by decide) hM | with_reducible apply State.setOp_same
                | with_reducible apply State.setQueue_same | with_reducible apply State.needSlot_same
                | with_reducible apply State.refillHead_same | with_reducible apply State.serveDeqs_same
                | simp only [same_mk] | split

theorem State.rankArrive_same (s : State) (w : RankWait) (hM : within 67338318 M = true) (h_s : s.same M z) :
    (State.rankArrive s w).1.same M z := by
  unfold State.rankArrive
  repeat' first | with_reducible assumption | exact Or.inl (within_bit hM (by decide)) | with_reducible exact Or.inr rfl
                | intro _ | with_reducible apply same_ite_fst | with_reducible apply State.atomic_same | simp only [same_mk]
                | with_reducible apply Same.of

theorem xferAtomic_same (s : State) (o : InFlight) (d : XferOp) (hM : within 67338318 M = true) (h_s : s.same M z) :
    (xferAtomic s o d).1.same M z := by
  unfold xferAtomic
  repeat' first | with_reducible assumption | with_reducible apply State.write_same | with_reducible apply State.atomic_same
                | with_reducible apply State.rankArrive_same | simp only [same_mk] | split

theorem State.rlcTouch_same (s : State) (ls : List Nat) (hM : within 131072 M = true) (h_s : s.same M z) :
    (State.rlcTouch s ls).same M z := by
  unfold State.rlcTouch
  repeat' first | with_reducible assumption | with_reducible apply State.onFabric_same

theorem State.sendReq_same (s : State) (o : InFlight) (r : Request) (hM : within 101154926 M = true) (h_s : s.same M z) :
    (State.sendReq s o r).same M z := by
  unfold State.sendReq
  repeat' first | with_reducible assumption | exact within_trans (by decide) hM | with_reducible apply State.bump64_same
                | with_reducible apply State.send_same | with_reducible apply State.setOp_same
                | with_reducible apply State.requestOrLose_same | with_reducible apply State.rlcTouch_same | split

theorem State.pumpAll_same (s : State) (n_ : Nat) (hM : within 101154926 M = true) (h_s : s.same M z) :
    (State.pumpAll s n_).same M z := by
  induction n_ generalizing s with
  | zero =>
    unfold State.pumpAll
    repeat' first | with_reducible assumption
  | succ n ih =>
    unfold State.pumpAll
    repeat' first | with_reducible assumption | exact Or.inl (within_bit hM (by decide)) | with_reducible exact Or.inr rfl
                  | with_reducible apply ih | with_reducible apply State.sendReq_same | simp only [same_mk]
                  | with_reducible apply Same.of | split

theorem State.pump_same (s : State) (l : ListId) (n : Nat) (hM : within 101154926 M = true) (h_s : s.same M z) :
    (State.pump s l n).same M z := by
  unfold State.pump
  repeat' first | with_reducible assumption | exact within_trans (by decide) hM | intro _ | with_reducible apply same_ite
                | with_reducible apply State.bump64_same | with_reducible apply State.pumpAll_same

theorem State.finishXfer_same (s : State) (o : InFlight) (hM : within 101179758 M = true) (h_s : s.same M z) :
    (State.finishXfer s o).same M z := by
  unfold State.finishXfer
  repeat' first | with_reducible assumption | exact within_trans (by decide) hM | intro _ | with_reducible apply same_ite
                | with_reducible apply State.setOp_same | with_reducible apply State.settle_same
                | with_reducible apply State.putOp_same | with_reducible apply State.deliverData_same | split

theorem State.drive_same (s : State) (l : ListId) (hM : within 101179758 M = true) (h_s : s.same M z) :
    (State.drive s l).same M z := by
  unfold State.drive
  repeat' first | with_reducible assumption | exact within_trans (by decide) hM | intro _
                | with_reducible apply State.settle_same | with_reducible apply State.pump_same
                | with_reducible apply State.finishXfer_same | with_reducible apply same_foldl | split

theorem State.requestDone_same (s : State) (o : InFlight) (num : Nat) (data : Option (List Byte))
    (hM : within 101179758 M = true) (h_s : s.same M z) :
    (State.requestDone s o num data).same M z := by
  unfold State.requestDone
  repeat' first | with_reducible assumption | exact within_trans (by decide) hM | with_reducible apply State.setOp_same
                | with_reducible apply State.drive_same

theorem xferBody_same (s : State) (o : InFlight) (hM : within 101179758 M = true) (h_s : s.same M z) :
    (xferBody s o).1.same M z := by
  unfold xferBody
  repeat' first | with_reducible assumption | exact within_trans (by decide) hM | intro _
                | with_reducible apply same_ite_fst | with_reducible apply xferMove_same
                | with_reducible apply xferDequeue_same | with_reducible apply xferAtomic_same

theorem xferRun_same (s : State) (o : InFlight) (hM : within 101179758 M = true) (h_s : s.same M z) :
    (xferRun s o).1.same M z := by
  unfold xferRun
  repeat' first | with_reducible assumption | exact within_trans (by decide) hM | intro _
                | with_reducible apply same_ite_fst | with_reducible apply State.verified_same
                | with_reducible apply xferBody_same

theorem State.issueXfer_same (s : State) (l : ListId) (r : OpRecord) (kind : Nat) (hM : within 101179758 M = true)
    (h_s : s.same M z) :
    (State.issueXfer s l r kind).same M z := by
  unfold State.issueXfer
  repeat' first | with_reducible assumption | exact within_trans (by decide) hM | intro _ | with_reducible apply same_ite
                | with_reducible apply State.issueOp_same | with_reducible apply State.drive_same
                | with_reducible apply xferRun_same

theorem State.marrowBusy_same (s : State) (l : ListId) (cycles : Nat) (hM : within 2 M = true) (h_s : s.same M z) :
    (State.marrowBusy s l cycles).same M z := by
  unfold State.marrowBusy
  repeat' first | with_reducible assumption | with_reducible apply State.bump64_same

theorem State.streamEnqueue_same (s : State) (o : InFlight) (op : ChainOp) (hM : within 101179758 M = true)
    (h_s : s.same M z) :
    (State.streamEnqueue s o op).1.same M z := by
  unfold State.streamEnqueue
  repeat' first | with_reducible assumption | exact within_trans (by decide) hM | intro _
                | with_reducible apply State.setOp_same | with_reducible apply State.writeOut_same
                | with_reducible apply State.ask_same | simp only [same_mk] | with_reducible apply same_foldl | split

theorem mstreamBody_same (s : State) (o : InFlight) (hM : within 101179758 M = true) (h_s : s.same M z) :
    (mstreamBody s o).1.same M z := by
  unfold mstreamBody
  repeat' first | with_reducible assumption | exact within_trans (by decide) hM | with_reducible apply State.runDerive_same
                | with_reducible apply State.runChain_same | with_reducible apply State.marrowBusy_same
                | with_reducible apply State.streamEnqueue_same | simp only [same_mk] | split

theorem mstreamRun_same (s : State) (o : InFlight) (hM : within 101179758 M = true) (h_s : s.same M z) :
    (mstreamRun s o).1.same M z := by
  unfold mstreamRun
  repeat' first | with_reducible assumption | exact within_trans (by decide) hM | intro _
                | with_reducible apply State.verified_same | with_reducible apply mstreamBody_same

theorem State.writeStencil_same (s : State) (o : InFlight) (op : StencilOp) (outs : List StencilPoint)
    (hM : within 67338318 M = true) (h_s : s.same M z) :
    (State.writeStencil s o op outs).1.same M z := by
  unfold State.writeStencil
  repeat' first | with_reducible assumption | with_reducible apply State.writeOut_same

theorem mstencilBody_same (s : State) (o : InFlight) (hM : within 67338318 M = true) (h_s : s.same M z) :
    (mstencilBody s o).1.same M z := by
  unfold mstencilBody
  repeat' first | with_reducible assumption | exact within_trans (by decide) hM | intro _
                | with_reducible apply same_ite_fst | with_reducible apply State.marrowBusy_same
                | with_reducible apply State.writeStencil_same

theorem mstencilRun_same (s : State) (o : InFlight) (hM : within 67338318 M = true) (h_s : s.same M z) :
    (mstencilRun s o).1.same M z := by
  unfold mstencilRun
  repeat' first | with_reducible assumption | exact within_trans (by decide) hM | intro _
                | with_reducible apply same_ite_fst | with_reducible apply State.verified_same
                | with_reducible apply mstencilBody_same

theorem State.reduceOut_same (s : State) (o : InFlight) (op : ReduceOp) (x : Num) (counted : Bool)
    (hM : within 67338318 M = true) (h_s : s.same M z) :
    (State.reduceOut s o op x counted).1.same M z := by
  unfold State.reduceOut
  repeat' first | with_reducible assumption | with_reducible apply State.writeOut_same

theorem mreduceBody_same (s : State) (o : InFlight) (hM : within 67338318 M = true) (h_s : s.same M z) :
    (mreduceBody s o).1.same M z := by
  unfold mreduceBody
  repeat' first | with_reducible assumption | exact within_trans (by decide) hM | intro _
                | with_reducible apply same_ite_fst | with_reducible apply State.writeRuns_same
                | with_reducible apply State.marrowBusy_same | with_reducible apply State.reduceOut_same
                | simp only [same_mk] | split

theorem mreduceRun_same (s : State) (o : InFlight) (hM : within 67338318 M = true) (h_s : s.same M z) :
    (mreduceRun s o).1.same M z := by
  unfold mreduceRun
  repeat' first | with_reducible assumption | exact within_trans (by decide) hM | intro _
                | with_reducible apply State.verified_same | with_reducible apply mreduceBody_same

theorem mindexGatherBody_same (s : State) (o : InFlight) (hM : within 67338318 M = true) (h_s : s.same M z) :
    (mindexGatherBody s o).1.same M z := by
  unfold mindexGatherBody
  repeat' first | with_reducible assumption | exact within_trans (by decide) hM | with_reducible apply State.writeOut_same
                | with_reducible apply State.marrowBusy_same | simp only [same_mk] | split

theorem State.closeRecords_same (s : State) (o : InFlight) (op : IndexOp) (records : List Nat) (cvs : List ConvOut)
    (hM : within 67338318 M = true) (h_s : s.same M z) :
    (State.closeRecords s o op records cvs).1.same M z := by
  unfold State.closeRecords
  repeat' first | with_reducible assumption | intro _ | with_reducible apply same_ite
                | with_reducible apply State.writeStats_same

theorem mindexScatterBody_same (s : State) (o : InFlight) (hM : within 67338318 M = true) (h_s : s.same M z) :
    (mindexScatterBody s o).1.same M z := by
  unfold mindexScatterBody
  repeat' first | with_reducible assumption | exact within_trans (by decide) hM | intro _
                | with_reducible apply State.write_same | with_reducible apply State.marrowBusy_same
                | with_reducible apply State.closeRecords_same | simp only [same_mk] | with_reducible apply same_foldl
                | split

theorem mindexAtomicBody_same (s : State) (o : InFlight) (hM : within 67338318 M = true) (h_s : s.same M z) :
    (mindexAtomicBody s o).1.same M z := by
  unfold mindexAtomicBody
  repeat' first | with_reducible assumption | exact within_trans (by decide) hM | intro _
                | with_reducible apply State.atomic_same | with_reducible apply State.rankArrive_same
                | with_reducible apply State.marrowBusy_same | with_reducible apply State.closeRecords_same
                | simp only [same_mk] | with_reducible apply same_foldl_fst
                | with_reducible refine same_fst (by assumption) ?_ | split

theorem mindexRun_same (body : State → InFlight → State × InFlight) (s : State) (o : InFlight) (hM : within 2 M = true)
    (h_body : ∀ x0 x1, x0.same M z → (body x0 x1).1.same M z) (h_s : s.same M z) :
    (mindexRun body s o).1.same M z := by
  unfold mindexRun
  repeat' first | with_reducible assumption | with_reducible apply State.verified_same

theorem mindexBody_same (s : State) (o : InFlight) (hM : within 67338318 M = true) (h_s : s.same M z) :
    (mindexBody s o).1.same M z := by
  unfold mindexBody
  repeat' first | with_reducible assumption | intro _ | with_reducible apply same_ite_fst
                | with_reducible apply mindexGatherBody_same | with_reducible apply mindexScatterBody_same
                | with_reducible apply mindexAtomicBody_same

theorem State.tileSeal_same (s : State) (o : InFlight) (op : TileOp) (hM : within 67338318 M = true) (h_s : s.same M z) :
    (State.tileSeal s o op).1.same M z := by
  unfold State.tileSeal
  repeat' first | with_reducible assumption | intro _ | with_reducible apply State.writePiece_same
                | with_reducible apply same_foldl

theorem State.tileVerify_same (s : State) (o : InFlight) (op : TileOp) (hM : within 67338318 M = true) (h_s : s.same M z) :
    (State.tileVerify s o op).1.same M z := by
  unfold State.tileVerify
  repeat' first | with_reducible assumption | exact within_trans (by decide) hM | with_reducible apply State.writeRuns_same
                | with_reducible apply State.countFails_same | with_reducible apply State.countBad_same

theorem State.tileZero_same (s : State) (o : InFlight) (op : TileOp) (hM : within 67338318 M = true) (h_s : s.same M z) :
    (State.tileZero s o op).1.same M z := by
  unfold State.tileZero
  repeat' first | with_reducible assumption | with_reducible apply State.writeRuns_same

theorem State.tileMigrate_same (s : State) (o : InFlight) (op : TileOp) (hM : within 67338318 M = true) (h_s : s.same M z) :
    (State.tileMigrate s o op).1.same M z := by
  unfold State.tileMigrate
  repeat' first | with_reducible assumption | exact within_trans (by decide) hM | intro _
                | with_reducible apply State.writePiece_same | with_reducible apply State.copyBad_same
                | with_reducible apply same_foldl

theorem mtileBody_same (s : State) (o : InFlight) (hM : within 67338318 M = true) (h_s : s.same M z) :
    (mtileBody s o).1.same M z := by
  unfold mtileBody
  repeat' first | with_reducible assumption | exact within_trans (by decide) hM | with_reducible apply State.marrowBusy_same
                | with_reducible apply State.tileSeal_same | with_reducible apply State.tileVerify_same
                | with_reducible apply State.tileZero_same | with_reducible apply State.tileMigrate_same
                | simp only [same_mk] | split

theorem mtileRun_same (s : State) (o : InFlight) (hM : within 67338318 M = true) (h_s : s.same M z) :
    (mtileRun s o).1.same M z := by
  unfold mtileRun
  repeat' first | with_reducible assumption | exact within_trans (by decide) hM | intro _
                | with_reducible apply same_ite_fst | with_reducible apply State.verified_same
                | with_reducible apply mtileBody_same

theorem marrowBody_same (s : State) (o : InFlight) (hM : within 101179758 M = true) (h_s : s.same M z) :
    (marrowBody s o).1.same M z := by
  unfold marrowBody
  repeat' first | with_reducible assumption | exact within_trans (by decide) hM | with_reducible apply mstreamBody_same
                | with_reducible apply mstencilBody_same | with_reducible apply mreduceBody_same
                | with_reducible apply mindexBody_same | with_reducible apply mtileBody_same | split

theorem State.issueMarrow_same (s : State) (l : ListId) (r : OpRecord) (opcode : Nat) (kind : Option Nat)
    (run : State → InFlight → State × InFlight) (hM : within 34 M = true) (h_s : s.same M z)
    (h_run : ∀ x0 x1, x0.same M z → (run x0 x1).1.same M z) :
    (State.issueMarrow s l r opcode kind run).same M z := by
  unfold State.issueMarrow
  repeat' first | with_reducible assumption | intro _ | with_reducible apply same_ite
                | with_reducible apply State.issueOp_same

end Sys2Proof.Machine
end

