-- ==== Sys2Proof/Laws/SameFabric.lean ====
section
/-! SUPPORT. What faults, mailboxes, time, checkpoint, the plant framer, collectives, replies, power and links leave as it is, by the parts of the state (Laws/Same.lean). -/
namespace Sys2Proof.Machine

variable {M : Nat} {z : State}

theorem State.logEntry_same (s : State) (e : FaultEntry) (hM : within 1048578 M = true) (h_s : s.same M z) :
    (State.logEntry s e).same M z := by
  unfold State.logEntry
  repeat' first | with_reducible assumption | exact Or.inl (within_bit hM (by decide)) | with_reducible exact Or.inr rfl
                | exact within_trans (by decide) hM | with_reducible apply State.bump64_same | simp only [same_mk]
                | with_reducible apply Same.of

theorem State.logFault_same (s : State) (cls unit sub outcome absorb detail : Nat) (hM : within 68290626 M = true)
    (h_s : s.same M z) :
    (State.logFault s cls unit sub outcome absorb detail).same M z := by
  unfold State.logFault
  repeat' first | with_reducible assumption | exact within_trans (by decide) hM | with_reducible apply State.logEntry_same

theorem State.absorb_same (s : State) (cls unit sub outcome time detail : Nat) (hM : within 68290626 M = true)
    (h_s : s.same M z) :
    (State.absorb s cls unit sub outcome time detail).same M z := by
  unfold State.absorb
  repeat' first | with_reducible assumption | exact within_trans (by decide) hM | with_reducible apply State.bump64_same
                | with_reducible apply State.excursion_same | with_reducible apply State.startSlow_same
                | with_reducible apply State.logFault_same

theorem State.absorbWithin_same (s : State) (cls unit sub outcome bound detail : Nat) (hM : within 101845058 M = true)
    (h_s : s.same M z) :
    (State.absorbWithin s cls unit sub outcome bound detail).same M z := by
  unfold State.absorbWithin
  repeat' first | with_reducible assumption | exact within_trans (by decide) hM | with_reducible apply State.upTo_same
                | with_reducible apply State.absorb_same

theorem State.absorbTile_same (s : State) (tile : Nat) (hM : within 101845058 M = true) (h_s : s.same M z) :
    (State.absorbTile s tile).same M z := by
  unfold State.absorbTile
  repeat' first | with_reducible assumption | with_reducible apply State.absorbWithin_same

theorem State.lostNotices_same (s : State) (cause : Nat) (hM : within 67239938 M = true) (h_s : s.same M z) :
    (State.lostNotices s cause).same M z := by
  unfold State.lostNotices
  repeat' first | with_reducible assumption | intro _ | with_reducible apply State.sendTx_same
                | with_reducible apply same_foldl

theorem State.stopTickNow_same (s : State) (hM : within 66 M = true) (h_s : s.same M z) : (State.stopTickNow s).same M z := by
  unfold State.stopTickNow
  repeat' first | with_reducible assumption | exact Or.inl (within_bit hM (by decide)) | with_reducible exact Or.inr rfl
                | exact within_trans (by decide) hM | with_reducible apply State.setFld_same | simp only [same_mk]
                | with_reducible apply Same.of

theorem State.endDevice_same (s : State) (die : Nat) (hM : within 101056578 M = true) (h_s : s.same M z) :
    (State.endDevice s die).same M z := by
  unfold State.endDevice
  repeat' first | with_reducible assumption | exact within_trans (by decide) hM
                | with_reducible apply State.setDevState_same | with_reducible apply State.postEvent_same
                | with_reducible apply State.lostNotices_same | with_reducible apply State.stopTickNow_same

theorem State.endDeviceOther_same (s : State) (hM : within 101056578 M = true) (h_s : s.same M z) :
    (State.endDeviceOther s).same M z := by
  unfold State.endDeviceOther
  repeat' first | with_reducible assumption | exact within_trans (by decide) hM | with_reducible apply State.upTo_same
                | with_reducible apply State.endDevice_same

theorem State.protectiveStop_same (s : State) (stack celsius : Nat) (hM : within 101056578 M = true) (h_s : s.same M z) :
    (State.protectiveStop s stack celsius).same M z := by
  unfold State.protectiveStop
  repeat' first | with_reducible assumption | exact within_trans (by decide) hM | intro _ | with_reducible apply same_ite
                | with_reducible apply State.setDevState_same | with_reducible apply State.postEvent_same
                | with_reducible apply State.lostNotices_same | with_reducible apply State.stopTickNow_same

theorem State.onHost_same (s : State) (f : HostIf → HostIf) (hM : within 262144 M = true) (h_s : s.same M z) :
    (State.onHost s f).same M z := by
  unfold State.onHost
  repeat' first | with_reducible assumption | exact Or.inl (within_bit hM (by decide)) | with_reducible exact Or.inr rfl
                | simp only [same_mk] | with_reducible apply Same.of

theorem State.setPage_same (s : State) (k off : Nat) (bs : List Byte) (hM : within 262144 M = true) (h_s : s.same M z) :
    (State.setPage s k off bs).same M z := by
  unfold State.setPage
  repeat' first | with_reducible assumption | with_reducible apply State.onHost_same

theorem State.setMbx_same (s : State) (k : Nat) (v : Mbx) (hM : within 262144 M = true) (h_s : s.same M z) :
    (State.setMbx s k v).same M z := by
  unfold State.setMbx
  repeat' first | with_reducible assumption | with_reducible apply State.onHost_same

theorem State.setBusy_same (s : State) (k : Nat) (on : Bool) (hM : within 2 M = true) (h_s : s.same M z) :
    (State.setBusy s k on).same M z := by
  unfold State.setBusy
  repeat' first | with_reducible assumption | with_reducible apply State.setFld_same

theorem State.setDone_same (s : State) (k : Nat) (on : Bool) (hM : within 2 M = true) (h_s : s.same M z) :
    (State.setDone s k on).same M z := by
  unfold State.setDone
  repeat' first | with_reducible assumption | with_reducible apply State.setFld_same

theorem State.answer_same (s : State) (k : Nat) (m : Msg) (status detail : Nat) (result : List Byte)
    (hM : within 67371010 M = true) (h_s : s.same M z) :
    (State.answer s k m status detail result).same M z := by
  unfold State.answer
  repeat' first | with_reducible assumption | exact within_trans (by decide) hM | intro _ | with_reducible apply same_ite
                | with_reducible apply State.send_same | with_reducible apply State.signalVector_same
                | with_reducible apply State.onHost_same | with_reducible apply State.setPage_same
                | with_reducible apply State.setMbx_same | with_reducible apply State.setBusy_same
                | with_reducible apply State.setDone_same

theorem State.done_same (s : State) (k : Nat) (m : Msg) (result : List Byte) (hM : within 67371010 M = true)
    (h_s : s.same M z) :
    (State.done s k m result).same M z := by
  unfold State.done
  repeat' first | with_reducible assumption | with_reducible apply State.answer_same

theorem State.reject_same (s : State) (k : Nat) (m : Msg) (status detail : Nat) (hM : within 67371010 M = true)
    (h_s : s.same M z) :
    (State.reject s k m status detail).same M z := by
  unfold State.reject
  repeat' first | with_reducible assumption | with_reducible apply State.answer_same

theorem State.wrongState_same (s : State) (k : Nat) (m : Msg) (hM : within 67371010 M = true) (h_s : s.same M z) :
    (State.wrongState s k m).same M z := by
  unfold State.wrongState
  repeat' first | with_reducible assumption | with_reducible apply State.reject_same

theorem State.badField_same (s : State) (k : Nat) (m : Msg) (off : Nat) (hM : within 67371010 M = true) (h_s : s.same M z) :
    (State.badField s k m off).same M z := by
  unfold State.badField
  repeat' first | with_reducible assumption | with_reducible apply State.reject_same

theorem State.command_same (s : State) (k code : Nat) (want : Msg → Nat) (bad : State → Msg → Option Nat)
    (f : State → Msg → State) (hM : within 100925442 M = true) (h_s : s.same M z)
    (h_f : ∀ x0 x1, x0.same M z → (f x0 x1).same M z) :
    (State.command s k code want bad f).same M z := by
  unfold State.command
  repeat' first | with_reducible assumption | exact within_trans (by decide) hM | intro _ | with_reducible apply same_ite
                | with_reducible apply h_f | with_reducible apply State.fresh_same | with_reducible apply State.reject_same
                | with_reducible apply State.wrongState_same | with_reducible apply State.badField_same | split

theorem State.plain_same (s : State) (k code : Nat) (f : State → Msg → State) (hM : within 100925442 M = true)
    (h_s : s.same M z) (h_f : ∀ x0 x1, x0.same M z → (f x0 x1).same M z) :
    (State.plain s k code f).same M z := by
  unfold State.plain
  repeat' first | with_reducible assumption | with_reducible apply State.command_same

theorem State.startLongExt_same (s : State) (k : Nat) (m : Msg) (conflicts : List Nat) (ext : List Byte) (f : State → State)
    (hM : within 67371010 M = true) (h_s : s.same M z) (h_f : ∀ x0, x0.same M z → (f x0).same M z) :
    (State.startLongExt s k m conflicts ext f).same M z := by
  unfold State.startLongExt
  repeat' first | with_reducible assumption | exact within_trans (by decide) hM | with_reducible apply h_f
                | with_reducible apply State.onHost_same | with_reducible apply State.answer_same
                | with_reducible apply State.reject_same | split

theorem State.startLong_same (s : State) (k : Nat) (m : Msg) (conflicts : List Nat) (f : State → State)
    (hM : within 67371010 M = true) (h_s : s.same M z) (h_f : ∀ x0, x0.same M z → (f x0).same M z) :
    (State.startLong s k m conflicts f).same M z := by
  unfold State.startLong
  repeat' first | with_reducible assumption | with_reducible apply State.startLongExt_same

theorem State.storageMoved_same (s : State) (target read written : Nat) (hM : within 262144 M = true) (h_s : s.same M z) :
    (State.storageMoved s target read written).same M z := by
  unfold State.storageMoved
  repeat' first | with_reducible assumption | with_reducible apply State.onHost_same | split

theorem State.malformed_same (s : State) (hM : within 2 M = true) (h_s : s.same M z) : (State.malformed s).same M z := by
  unfold State.malformed
  repeat' first | with_reducible assumption | with_reducible apply State.bump64_same

theorem State.lostNotice_same (s : State) (g : Nat) (hM : within 67239938 M = true) (h_s : s.same M z) :
    (State.lostNotice s g).same M z := by
  unfold State.lostNotice
  repeat' first | with_reducible assumption | with_reducible apply State.sendTx_same

theorem State.passOn_same (s : State) (tx : Tx) (hM : within 67239938 M = true) (h_s : s.same M z) :
    (State.passOn s tx).same M z := by
  unfold State.passOn
  repeat' first | with_reducible assumption | with_reducible apply State.sendBy_same | split

theorem State.arrives_same (s : State) (tx : Tx) (f : State → State) (hM : within 67239938 M = true) (h_s : s.same M z)
    (h_f : ∀ x0, x0.same M z → (f x0).same M z) :
    (State.arrives s tx f).same M z := by
  unfold State.arrives
  repeat' first | with_reducible assumption | intro _ | with_reducible apply same_ite | with_reducible apply h_f
                | with_reducible apply State.passOn_same

theorem State.serveRequest_same (s : State) (tx : Tx) (type : Nat) (dup f : State → State) (hM : within 67239938 M = true)
    (h_s : s.same M z) (h_dup : ∀ x0, x0.same M z → (dup x0).same M z) (h_f : ∀ x0, x0.same M z → (f x0).same M z) :
    (State.serveRequest s tx type dup f).same M z := by
  unfold State.serveRequest
  repeat' first | with_reducible assumption | exact within_trans (by decide) hM | intro _ | with_reducible apply same_ite
                | with_reducible apply h_dup | with_reducible apply h_f | with_reducible apply State.bump64_same
                | with_reducible apply State.refuse_same | with_reducible apply State.malformed_same
                | with_reducible apply State.lostNotice_same | with_reducible apply State.arrives_same

theorem State.refuseRequest_same (s : State) (tx : Tx) (status : Nat) (hM : within 67239938 M = true) (h_s : s.same M z) :
    (State.refuseRequest s tx status).same M z := by
  unfold State.refuseRequest
  repeat' first | with_reducible assumption | exact within_trans (by decide) hM | with_reducible apply State.refuse_same
                | with_reducible apply State.mark_same

theorem State.control_same (s : State) (tx : Tx) (op : Nat) (f : State → State) (hM : within 67239938 M = true)
    (h_s : s.same M z) (h_f : ∀ x0, x0.same M z → (f x0).same M z) :
    (State.control s tx op f).same M z := by
  unfold State.control
  repeat' first | with_reducible assumption | exact within_trans (by decide) hM | intro _ | with_reducible apply same_ite
                | with_reducible apply h_f | with_reducible apply State.malformed_same
                | with_reducible apply State.arrives_same

theorem State.arriveInOrder_same (s : State) (tx : Tx) (hM : within 67338318 M = true) (h_s : s.same M z) :
    (State.arriveInOrder s tx).same M z := by
  unfold State.arriveInOrder
  repeat' first | with_reducible assumption | exact within_trans (by decide) hM | intro _ | with_reducible apply same_ite
                | with_reducible apply State.onFabric_same | with_reducible apply State.arrive_same

theorem State.serveRead_same (s : State) (tx : Tx) (hM : within 67338318 M = true) (h_s : s.same M z) :
    (State.serveRead s tx).same M z := by
  unfold State.serveRead
  repeat' first | with_reducible assumption | exact within_trans (by decide) hM | intro _ | with_reducible apply same_ite
                | with_reducible apply State.noteTile_same | with_reducible apply State.answerRead_same
                | with_reducible apply State.refuseRequest_same | with_reducible apply State.arriveInOrder_same
                | with_reducible apply same_foldl

theorem State.answerLater_same (s : State) (tx : Tx) (hM : within 67272714 M = true) (h_s : s.same M z) :
    (State.answerLater s tx).same M z := by
  unfold State.answerLater
  repeat' first | with_reducible assumption | exact within_trans (by decide) hM | with_reducible apply State.onFabric_same
                | with_reducible apply State.finishServes_same

theorem State.serveWriteReq_same (s : State) (tx : Tx) (hM : within 67338318 M = true) (h_s : s.same M z) :
    (State.serveWriteReq s tx).same M z := by
  unfold State.serveWriteReq
  repeat' first | with_reducible assumption | exact within_trans (by decide) hM | intro _ | with_reducible apply same_ite
                | with_reducible apply State.write_same | with_reducible apply State.refuseRequest_same
                | with_reducible apply State.arriveInOrder_same | with_reducible apply State.answerLater_same

theorem State.launchWrite_same (s : State) (id : Nat) (l : Launch) (tx : Tx) (hM : within 101154894 M = true)
    (h_s : s.same M z) :
    (State.launchWrite s id l tx).same M z := by
  unfold State.launchWrite
  repeat' first | with_reducible assumption | exact within_trans (by decide) hM | with_reducible apply State.write_same
                | with_reducible apply State.answerWrite_same | with_reducible apply State.setLaunch_same
                | with_reducible apply State.launchHeldCheck_same

theorem State.serveRanked_same (s : State) (tx : Tx) (hM : within 67338318 M = true) (h_s : s.same M z) :
    (State.serveRanked s tx).same M z := by
  unfold State.serveRanked
  repeat' first | with_reducible assumption | exact within_trans (by decide) hM | with_reducible apply State.mark_same
                | with_reducible apply State.journal_same | with_reducible apply State.rankArrive_same
                | with_reducible apply State.refuseRequest_same | with_reducible apply State.answerLater_same
                | simp only [same_mk] | split

theorem State.serveAtomic_same (s : State) (tx : Tx) (hM : within 67338318 M = true) (h_s : s.same M z) :
    (State.serveAtomic s tx).same M z := by
  unfold State.serveAtomic
  repeat' first | with_reducible assumption | intro _ | with_reducible apply same_ite
                | with_reducible apply State.arrive_same | with_reducible apply State.serveRanked_same

theorem State.retryAtomic_same (s : State) (tx : Tx) (hM : within 67239938 M = true) (h_s : s.same M z) :
    (State.retryAtomic s tx).same M z := by
  unfold State.retryAtomic
  repeat' first | with_reducible assumption | exact within_trans (by decide) hM | with_reducible apply State.bump64_same
                | with_reducible apply State.reply_same | with_reducible apply State.refuse_same | split

theorem State.serveAtomicReq_same (s : State) (tx : Tx) (hM : within 67338318 M = true) (h_s : s.same M z) :
    (State.serveAtomicReq s tx).same M z := by
  unfold State.serveAtomicReq
  repeat' first | with_reducible assumption | exact within_trans (by decide) hM | intro _ | with_reducible apply same_ite
                | with_reducible apply State.onFabric_same | with_reducible apply State.refuseRequest_same
                | with_reducible apply State.serveAtomic_same

theorem State.leekNext_same (s : State) (hM : within 67338318 M = true) (h_s : s.same M z) : (State.leekNext s).same M z := by
  unfold State.leekNext
  repeat' first | with_reducible assumption | exact within_trans (by decide) hM | intro _
                | with_reducible apply State.bump64_same | with_reducible apply State.onFabric_same
                | with_reducible apply State.arrive_same | with_reducible apply State.serveAtomic_same
                | with_reducible apply same_foldl | split

theorem State.serveCredit_same (s : State) (tx : Tx) (hM : within 101179758 M = true) (h_s : s.same M z) :
    (State.serveCredit s tx).same M z := by
  unfold State.serveCredit
  repeat' first | with_reducible assumption | exact within_trans (by decide) hM | with_reducible apply State.ask_same
                | with_reducible apply State.refuseRequest_same | simp only [same_mk] | split

theorem State.repeatCredit_same (s : State) (tx : Tx) (hM : within 67239938 M = true) (h_s : s.same M z) :
    (State.repeatCredit s tx).same M z := by
  unfold State.repeatCredit
  repeat' first | with_reducible assumption | with_reducible apply State.reply_same | split

theorem State.takeEntries_same (s : State) (q : Nat) (d : QDef) (k : Packet) (tx : Tx) (hM : within 101163374 M = true)
    (h_s : s.same M z) :
    (State.takeEntries s q d k tx).same M z := by
  unfold State.takeEntries
  repeat' first | with_reducible assumption | exact within_trans (by decide) hM | intro _
                | with_reducible apply State.onFabric_same | with_reducible apply State.setQueue_same
                | with_reducible apply State.landAt_same | with_reducible apply State.afterLanding_same
                | with_reducible apply same_foldl

theorem State.serveEnqueue_same (s : State) (tx : Tx) (hM : within 101163374 M = true) (h_s : s.same M z) :
    (State.serveEnqueue s tx).same M z := by
  unfold State.serveEnqueue
  repeat' first | with_reducible assumption | exact within_trans (by decide) hM
                | with_reducible apply State.refuseRequest_same | with_reducible apply State.takeEntries_same
                | simp only [same_mk] | split

theorem State.repeatDequeue_same (s : State) (tx : Tx) (hM : within 67239938 M = true) (h_s : s.same M z) :
    (State.repeatDequeue s tx).same M z := by
  unfold State.repeatDequeue
  repeat' first | with_reducible assumption | intro _ | with_reducible apply State.reply_same | simp only [same_mk]
                | with_reducible apply same_foldl | split

theorem State.serveDequeue_same (s : State) (tx : Tx) (hM : within 101179502 M = true) (h_s : s.same M z) :
    (State.serveDequeue s tx).same M z := by
  unfold State.serveDequeue
  repeat' first | with_reducible assumption | exact within_trans (by decide) hM | intro _ | with_reducible apply same_ite
                | with_reducible apply State.bump64_same | with_reducible apply State.setQueue_same
                | with_reducible apply State.needSlot_same | with_reducible apply State.refillHead_same
                | with_reducible apply State.serveDeqs_same | with_reducible apply State.refuseRequest_same
                | with_reducible apply State.repeatDequeue_same

theorem State.serveNow_same (s : State) (tx : Tx) (hM : within 101179758 M = true) (h_s : s.same M z) :
    (State.serveNow s tx).same M z := by
  unfold State.serveNow
  repeat' first | with_reducible assumption | exact within_trans (by decide) hM | with_reducible apply State.serveRead_same
                | with_reducible apply State.serveWriteReq_same | with_reducible apply State.serveAtomicReq_same
                | with_reducible apply State.serveCredit_same | with_reducible apply State.serveEnqueue_same
                | with_reducible apply State.serveDequeue_same | split

theorem State.takeRequest_same (s : State) (since : Nat) (tx : Tx) (hM : within 101179758 M = true) (h_s : s.same M z) :
    (State.takeRequest s since tx).same M z := by
  unfold State.takeRequest
  repeat' first | with_reducible assumption | exact within_trans (by decide) hM | intro _ | with_reducible apply same_ite
                | with_reducible apply State.onFabric_same | with_reducible apply State.serveNow_same

theorem State.releaseHeld_same (s : State) (hM : within 101179758 M = true) (h_s : s.same M z) :
    (State.releaseHeld s).same M z := by
  unfold State.releaseHeld
  repeat' first | with_reducible assumption | exact within_trans (by decide) hM | intro _
                | with_reducible apply State.onFabric_same | with_reducible apply State.takeRequest_same
                | with_reducible apply same_foldl

theorem State.goOn_same (s : State) (hM : within 101179758 M = true) (h_s : s.same M z) : (State.goOn s).same M z := by
  unfold State.goOn
  repeat' first | with_reducible assumption | exact within_trans (by decide) hM
                | with_reducible apply State.afterWrites_same | with_reducible apply State.releaseHeld_same

theorem State.setTimeState_same (s : State) (v : Nat) (hM : within 194 M = true) (h_s : s.same M z) :
    (State.setTimeState s v).same M z := by
  unfold State.setTimeState
  repeat' first | with_reducible assumption | exact Or.inl (within_bit hM (by decide)) | with_reducible exact Or.inr rfl
                | exact within_trans (by decide) hM | intro _ | with_reducible apply same_ite
                | with_reducible apply State.setFld_same | with_reducible apply State.excursion_same | simp only [same_mk]
                | with_reducible apply Same.of

theorem State.timeFault_same (s : State) (o : Int) (hM : within 100925442 M = true) (h_s : s.same M z) :
    (State.timeFault s o).same M z := by
  unfold State.timeFault
  repeat' first | with_reducible assumption | with_reducible apply State.postEvent_same

theorem State.shiftTime_same (s : State) (o : Int) (hM : within 2 M = true) (h_s : s.same M z) :
    (State.shiftTime s o).same M z := by
  unfold State.shiftTime
  repeat' first | with_reducible assumption | with_reducible apply State.setReg_same
                | with_reducible apply State.settleWaits_same | with_reducible apply State.markWaits_same

theorem State.stepTime_same (s : State) (o : Int) (hM : within 194 M = true) (h_s : s.same M z) :
    (State.stepTime s o).same M z := by
  unfold State.stepTime
  repeat' first | with_reducible assumption | exact within_trans (by decide) hM
                | with_reducible apply State.setTimeState_same | with_reducible apply State.shiftTime_same

theorem State.steer_same (s : State) (hM : within 33554560 M = true) (h_s : s.same M z) : (State.steer s).same M z := by
  unfold State.steer
  repeat' first | with_reducible assumption | exact Or.inl (within_bit hM (by decide)) | with_reducible exact Or.inr rfl
                | exact within_trans (by decide) hM | with_reducible apply State.upTo_same | simp only [same_mk]
                | with_reducible apply Same.of

theorem State.passNs_same (s : State) (hM : within 130 M = true) (h_s : s.same M z) : (State.passNs s).same M z := by
  unfold State.passNs
  repeat' first | with_reducible assumption | exact Or.inl (within_bit hM (by decide)) | with_reducible exact Or.inr rfl
                | exact within_trans (by decide) hM | with_reducible apply State.at__same | simp only [same_mk]
                | with_reducible apply Same.of

theorem State.goodTime_same (s : State) (hM : within 194 M = true) (h_s : s.same M z) : (State.goodTime s).same M z := by
  unfold State.goodTime
  repeat' first | with_reducible assumption | exact Or.inl (within_bit hM (by decide)) | with_reducible exact Or.inr rfl
                | intro _ | with_reducible apply same_ite | with_reducible apply State.setTimeState_same
                | simp only [same_mk] | with_reducible apply Same.of

theorem State.measure_same (s : State) (o : Int) (ok : Bool) (hM : within 100925634 M = true) (h_s : s.same M z) :
    (State.measure s o ok).same M z := by
  unfold State.measure
  repeat' first | with_reducible assumption | exact Or.inl (within_bit hM (by decide)) | with_reducible exact Or.inr rfl
                | exact within_trans (by decide) hM | with_reducible apply State.setTimeState_same
                | with_reducible apply State.timeFault_same | with_reducible apply State.stepTime_same
                | with_reducible apply State.steer_same | with_reducible apply State.goodTime_same | simp only [same_mk]
                | with_reducible apply Same.of | split

theorem State.loseTime_same (s : State) (hM : within 194 M = true) (h_s : s.same M z) : (State.loseTime s).same M z := by
  unfold State.loseTime
  repeat' first | with_reducible assumption | exact Or.inl (within_bit hM (by decide)) | with_reducible exact Or.inr rfl
                | intro _ | with_reducible apply same_ite | with_reducible apply State.setTimeState_same
                | simp only [same_mk] | with_reducible apply Same.of

theorem State.hearClock_same (s : State) (p : Nat) (r : PtpRank) (hM : within 128 M = true) (h_s : s.same M z) :
    (State.hearClock s p r).same M z := by
  unfold State.hearClock
  repeat' first | with_reducible assumption | exact Or.inl (within_bit hM (by decide)) | with_reducible exact Or.inr rfl
                | intro _ | with_reducible apply same_ite | simp only [same_mk] | with_reducible apply Same.of

theorem State.setSecond_same (s : State) (o : Int) (hM : within 2 M = true) (h_s : s.same M z) :
    (State.setSecond s o).same M z := by
  unfold State.setSecond
  repeat' first | with_reducible assumption | intro _ | with_reducible apply same_ite
                | with_reducible apply State.shiftTime_same

theorem State.ptpOffset_same (s : State) (p : Nat) (o : Int) (hM : within 100925634 M = true) (h_s : s.same M z) :
    (State.ptpOffset s p o).same M z := by
  unfold State.ptpOffset
  repeat' first | with_reducible assumption | exact within_trans (by decide) hM | intro _ | with_reducible apply same_ite
                | with_reducible apply State.measure_same | with_reducible apply State.setSecond_same

theorem State.sendTime_same (s : State) (lead : Nat) (ps : List Nat) (hM : within 67239938 M = true) (h_s : s.same M z) :
    (State.sendTime s lead ps).same M z := by
  unfold State.sendTime
  repeat' first | with_reducible assumption | intro _ | with_reducible apply State.sendBy_same
                | with_reducible apply same_foldl

theorem State.onCkpt_same (s : State) (f : Ckpt → Ckpt) (hM : within 65536 M = true) (h_s : s.same M z) :
    (State.onCkpt s f).same M z := by
  unfold State.onCkpt
  repeat' first | with_reducible assumption | exact Or.inl (within_bit hM (by decide)) | with_reducible exact Or.inr rfl
                | simp only [same_mk] | with_reducible apply Same.of

theorem State.captureQueue_same (s : State) (q : Nat) (hM : within 67346510 M = true) (h_s : s.same M z) :
    (State.captureQueue s q).same M z := by
  unfold State.captureQueue
  repeat' first | with_reducible assumption | exact within_trans (by decide) hM | with_reducible apply State.setQueue_same
                | with_reducible apply State.writeBack_same | with_reducible apply State.saveRecord_same | split

theorem State.setSlot_same (s : State) (i : Nat) (x : Slot) (hM : within 65538 M = true) (h_s : s.same M z) :
    (State.setSlot s i x).same M z := by
  unfold State.setSlot
  repeat' first | with_reducible assumption | exact within_trans (by decide) hM | with_reducible apply State.setReg_same
                | with_reducible apply State.onCkpt_same

theorem State.toModule_same (s : State) (n : Nat) (hM : within 2 M = true) (h_s : s.same M z) :
    (State.toModule s n).same M z := by
  unfold State.toModule
  repeat' first | with_reducible assumption | with_reducible apply State.bump64_same

theorem State.writeManifest_same (s : State) (t : Nat) (hM : within 67174402 M = true) (h_s : s.same M z) :
    (State.writeManifest s t).same M z := by
  unfold State.writeManifest
  repeat' first | with_reducible assumption | exact within_trans (by decide) hM | with_reducible apply State.setFld_same
                | with_reducible apply State.send_same | with_reducible apply State.setSlot_same
                | with_reducible apply State.toModule_same | split

theorem State.ckpIdle_same (s : State) (hM : within 2 M = true) (h_s : s.same M z) : (State.ckpIdle s).same M z := by
  unfold State.ckpIdle
  repeat' first | with_reducible assumption | with_reducible apply State.setFld_same | split

theorem State.undefine_same (s : State) (a n : Nat) (hM : within 100892750 M = true) (h_s : s.same M z) :
    (State.undefine s a n).same M z := by
  unfold State.undefine
  repeat' first | with_reducible assumption | exact Or.inl (within_bit hM (by decide)) | with_reducible exact Or.inr rfl
                | exact within_trans (by decide) hM | with_reducible apply State.write_same | simp only [same_mk]
                | with_reducible apply Same.of

theorem State.endRestore_same (s : State) (status detail : Nat) (hM : within 100925442 M = true) (h_s : s.same M z) :
    (State.endRestore s status detail).same M z := by
  unfold State.endRestore
  repeat' first | with_reducible assumption | exact within_trans (by decide) hM | with_reducible apply State.setFld_same
                | with_reducible apply State.endLongCode_same | with_reducible apply State.ckpIdle_same

theorem State.failRestore_same (s : State) (status detail : Nat) (hM : within 101154894 M = true) (h_s : s.same M z) :
    (State.failRestore s status detail).same M z := by
  unfold State.failRestore
  repeat' first | with_reducible assumption | exact within_trans (by decide) hM | intro _
                | with_reducible apply State.undefine_same | with_reducible apply State.endRestore_same
                | with_reducible apply same_foldl

theorem State.dropRestore_same (s : State) (hM : within 2 M = true) (h_s : s.same M z) : (State.dropRestore s).same M z := by
  unfold State.dropRestore
  repeat' first | with_reducible assumption | intro _ | with_reducible apply same_ite
                | with_reducible apply State.setFld_same

theorem State.dropCheckpoint_same (s : State) (status : Nat) (hM : within 101179758 M = true) (h_s : s.same M z) :
    (State.dropCheckpoint s status).same M z := by
  unfold State.dropCheckpoint
  repeat' first | with_reducible assumption | exact within_trans (by decide) hM | intro _ | with_reducible apply same_ite
                | with_reducible apply State.setReg_same | with_reducible apply State.setFld_same
                | with_reducible apply State.setQueue_same | with_reducible apply State.goOn_same
                | with_reducible apply State.onCkpt_same | with_reducible apply State.ckpIdle_same
                | with_reducible apply same_foldl

theorem State.failCheckpoint_same (s : State) (status detail : Nat) (event : Bool) (hM : within 101179758 M = true)
    (h_s : s.same M z) :
    (State.failCheckpoint s status detail event).same M z := by
  unfold State.failCheckpoint
  repeat' first | with_reducible assumption | exact within_trans (by decide) hM | intro _ | with_reducible apply same_ite
                | with_reducible apply State.postEvent_same | with_reducible apply State.endLongCode_same
                | with_reducible apply State.dropCheckpoint_same

theorem State.endExport_same (s : State) (status detail : Nat) (hM : within 100990978 M = true) (h_s : s.same M z) :
    (State.endExport s status detail).same M z := by
  unfold State.endExport
  repeat' first | with_reducible assumption | exact within_trans (by decide) hM | intro _ | with_reducible apply same_ite
                | with_reducible apply State.setFld_same | with_reducible apply State.endLongCode_same
                | with_reducible apply State.onCkpt_same

theorem State.dropFrame_same (s : State) (hM : within 64 M = true) (h_s : s.same M z) : (State.dropFrame s).same M z := by
  unfold State.dropFrame
  repeat' first | with_reducible assumption | with_reducible apply State.onRecord_same

theorem State.dropFor_same (s : State) (id : Nat) (st : Stream) (hM : within 320 M = true) (h_s : s.same M z) :
    (State.dropFor s id st).same M z := by
  unfold State.dropFor
  repeat' first | with_reducible assumption | exact within_trans (by decide) hM | with_reducible apply State.setStream_same
                | with_reducible apply State.dropFrame_same

theorem State.landFrame_same (s : State) (q : Nat) (entries : List (List Byte)) (hM : within 101179758 M = true)
    (h_s : s.same M z) :
    (State.landFrame s q entries).1.same M z := by
  unfold State.landFrame
  repeat' first | with_reducible assumption | exact within_trans (by decide) hM | intro _
                | with_reducible apply same_ite_fst | with_reducible apply State.residentNow_same
                | with_reducible apply State.landAll_same | with_reducible apply State.reserve_same
                | with_reducible refine same_fst (by assumption) ?_ | split

theorem State.takeFrame_same (s : State) (d : Datagram) (hM : within 101179758 M = true) (h_s : s.same M z) :
    (State.takeFrame s d).same M z := by
  unfold State.takeFrame
  repeat' first | with_reducible assumption | exact within_trans (by decide) hM | with_reducible apply State.onRecord_same
                | with_reducible apply State.setStream_same | with_reducible apply State.dropFrame_same
                | with_reducible apply State.dropFor_same | with_reducible apply State.landFrame_same | simp only [same_mk]
                | with_reducible refine same_fst (by assumption) ?_ | split

theorem State.collWrite_same (s : State) (o : InFlight) (dst : Nat) (bs : List Byte) (hM : within 67600462 M = true)
    (h_s : s.same M z) :
    (State.collWrite s o dst bs).1.same M z := by
  unfold State.collWrite
  repeat' first | with_reducible assumption | exact within_trans (by decide) hM | intro _
                | with_reducible apply same_ite_fst | with_reducible apply State.writeRuns_same

theorem State.dropColl_same (s : State) (c : Coll) (hM : within 131072 M = true) (h_s : s.same M z) :
    (State.dropColl s c).same M z := by
  unfold State.dropColl
  repeat' first | with_reducible assumption | exact Or.inl (within_bit hM (by decide)) | with_reducible exact Or.inr rfl
                | simp only [same_mk] | with_reducible apply Same.of

theorem State.setColl_same (s : State) (c : Coll) (hM : within 131072 M = true) (h_s : s.same M z) :
    (State.setColl s c).same M z := by
  unfold State.setColl
  repeat' first | with_reducible assumption | exact Or.inl (within_bit hM (by decide)) | with_reducible exact Or.inr rfl
                | simp only [same_mk] | with_reducible apply Same.of

theorem State.collCheck_same (s : State) (o : InFlight) (c : Coll) (hM : within 67600462 M = true) (h_s : s.same M z) :
    (State.collCheck s o c).1.same M z := by
  unfold State.collCheck
  repeat' first | with_reducible assumption | exact within_trans (by decide) hM | intro _
                | with_reducible apply same_ite_fst | with_reducible apply State.collWrite_same
                | with_reducible apply State.dropColl_same

theorem State.runColl_same (s : State) (c : Coll) (hM : within 101179758 M = true) (h_s : s.same M z) :
    (State.runColl s c).same M z := by
  unfold State.runColl
  repeat' first | with_reducible assumption | exact within_trans (by decide) hM | with_reducible apply State.setOp_same
                | with_reducible apply State.drive_same | with_reducible apply State.collCheck_same | split

theorem State.takePiece_same (s : State) (c : Coll) (t : Tx) (hM : within 101179758 M = true) (h_s : s.same M z) :
    (State.takePiece s c t).same M z := by
  unfold State.takePiece
  repeat' first | with_reducible assumption | exact within_trans (by decide) hM | intro _ | with_reducible apply same_ite
                | with_reducible apply State.setOp_same | with_reducible apply State.putOp_same
                | with_reducible apply State.drive_same | with_reducible apply State.collWrite_same
                | with_reducible apply State.dropColl_same | with_reducible apply State.setColl_same
                | with_reducible apply State.runColl_same | split

theorem collRun_same (s : State) (o : InFlight) (hM : within 101179758 M = true) (h_s : s.same M z) :
    (collRun s o).1.same M z := by
  unfold collRun
  repeat' first | with_reducible assumption | exact Or.inl (within_bit hM (by decide)) | with_reducible exact Or.inr rfl
                | exact within_trans (by decide) hM | intro _ | with_reducible apply State.setOp_same
                | with_reducible apply State.collCheck_same | with_reducible apply State.takePiece_same
                | simp only [same_mk] | with_reducible apply Same.of | with_reducible apply same_foldl | split

theorem collStart_same (s : State) (o : InFlight) (hM : within 101179758 M = true) (h_s : s.same M z) :
    (collStart s o).1.same M z := by
  unfold collStart
  repeat' first | with_reducible assumption | exact within_trans (by decide) hM | intro _
                | with_reducible apply same_ite_fst | with_reducible apply State.verified_same
                | with_reducible apply collRun_same

theorem State.issueColl_same (s : State) (l : ListId) (r : OpRecord) (kind : Nat) (hM : within 101179758 M = true)
    (h_s : s.same M z) :
    (State.issueColl s l r kind).same M z := by
  unfold State.issueColl
  repeat' first | with_reducible assumption | exact within_trans (by decide) hM | intro _ | with_reducible apply same_ite
                | with_reducible apply State.issueOp_same | with_reducible apply State.drive_same
                | with_reducible apply collStart_same

theorem State.takeContribution_same (s : State) (tx : Tx) (hM : within 101179758 M = true) (h_s : s.same M z) :
    (State.takeContribution s tx).same M z := by
  unfold State.takeContribution
  repeat' first | with_reducible assumption | exact Or.inl (within_bit hM (by decide)) | with_reducible exact Or.inr rfl
                | exact within_trans (by decide) hM | with_reducible apply State.putOp_same
                | with_reducible apply State.dropColl_same | with_reducible apply State.takePiece_same | simp only [same_mk]
                | with_reducible apply Same.of | split

theorem State.startCredits_same (s : State) (hM : within 101179758 M = true) (h_s : s.same M z) :
    (State.startCredits s).same M z := by
  unfold State.startCredits
  repeat' first | with_reducible assumption | exact within_trans (by decide) hM | intro _
                | with_reducible apply State.setOp_same | with_reducible apply State.drive_same
                | with_reducible apply same_foldl | split

theorem State.takeRefusal_same (s : State) (o : InFlight) (r : OutReq) (status : Nat) (hM : within 101179758 M = true)
    (h_s : s.same M z) :
    (State.takeRefusal s o r status).same M z := by
  unfold State.takeRefusal
  repeat' first | with_reducible assumption | exact within_trans (by decide) hM | with_reducible apply State.postEvent_same
                | with_reducible apply State.setOp_same | with_reducible apply State.drive_same | split

theorem State.takeReply_same (s : State) (o : InFlight) (r : OutReq) (tx : Tx) (hM : within 101179758 M = true)
    (h_s : s.same M z) :
    (State.takeReply s o r tx).same M z := by
  unfold State.takeReply
  repeat' first | with_reducible assumption | exact within_trans (by decide) hM | with_reducible apply State.write_same
                | with_reducible apply State.requestDone_same | split

theorem State.takeEntry_same (s : State) (o : InFlight) (r : OutReq) (tx : Tx) (hM : within 101179758 M = true)
    (h_s : s.same M z) :
    (State.takeEntry s o r tx).same M z := by
  unfold State.takeEntry
  repeat' first | with_reducible assumption | exact within_trans (by decide) hM | intro _ | with_reducible apply same_ite
                | with_reducible apply State.send_same | with_reducible apply State.write_same
                | with_reducible apply State.setOp_same | with_reducible apply State.onFabric_same
                | with_reducible apply State.requestDone_same | split

theorem State.afterReply_same (s : State) (g : Nat) (hM : within 101179758 M = true) (h_s : s.same M z) :
    (State.afterReply s g).same M z := by
  unfold State.afterReply
  repeat' first | with_reducible assumption | exact within_trans (by decide) hM
                | with_reducible apply State.sendWaiting_same | with_reducible apply State.startCredits_same

theorem State.takeAnswer_same (s : State) (r : OutReq) (tx : Tx) (hM : within 101179758 M = true) (h_s : s.same M z) :
    (State.takeAnswer s r tx).same M z := by
  unfold State.takeAnswer
  repeat' first | with_reducible assumption | exact within_trans (by decide) hM | with_reducible apply State.onFabric_same
                | with_reducible apply State.dropChild_same | with_reducible apply State.takeRefusal_same
                | with_reducible apply State.takeReply_same | with_reducible apply State.takeEntry_same | split

theorem State.endSpacing_same (s : State) (home : Nat) (hM : within 67239938 M = true) (h_s : s.same M z) :
    (State.endSpacing s home).same M z := by
  unfold State.endSpacing
  repeat' first | with_reducible assumption | exact within_trans (by decide) hM | with_reducible apply State.bump64_same
                | with_reducible apply State.sendWaiting_same

theorem State.reroute_same (old s : State) (hM : within 101154926 M = true) (h_old : old.same M z) (h_s : s.same M z) :
    (State.reroute old s).same M z := by
  unfold State.reroute
  repeat' first | with_reducible assumption | exact within_trans (by decide) hM | intro _ | with_reducible apply same_ite
                | with_reducible apply State.noteSpares_same | with_reducible apply State.resend_same
                | with_reducible apply State.markLost_same | with_reducible apply same_foldl

theorem State.onPower_same (s : State) (f : Power → Power) (hM : within 524288 M = true) (h_s : s.same M z) :
    (State.onPower s f).same M z := by
  unfold State.onPower
  repeat' first | with_reducible assumption | exact Or.inl (within_bit hM (by decide)) | with_reducible exact Or.inr rfl
                | simp only [same_mk] | with_reducible apply Same.of

theorem State.countIntervene_same (s : State) (hM : within 524290 M = true) (h_s : s.same M z) :
    (State.countIntervene s).same M z := by
  unfold State.countIntervene
  repeat' first | with_reducible assumption | exact within_trans (by decide) hM | with_reducible apply State.bump64_same
                | with_reducible apply State.onPower_same | split

theorem State.refreshPower_same (s : State) (hM : within 67766338 M = true) (h_s : s.same M z) :
    (State.refreshPower s).same M z := by
  unfold State.refreshPower
  repeat' first | with_reducible assumption | exact within_trans (by decide) hM | intro _ | with_reducible apply same_ite
                | with_reducible apply State.setFld_same | with_reducible apply State.excursion_same
                | with_reducible apply State.beginSlow_same | with_reducible apply State.endSlow_same
                | with_reducible apply State.settleWaits_same | with_reducible apply State.onPower_same
                | with_reducible apply State.countIntervene_same | with_reducible apply same_foldl

theorem State.stepDown_same (s : State) (hM : within 524288 M = true) (h_s : s.same M z) : (State.stepDown s).1.same M z := by
  unfold State.stepDown
  repeat' first | with_reducible assumption | intro _ | with_reducible apply same_ite_fst
                | with_reducible apply State.onPower_same

theorem State.stepUp_same (s : State) (hM : within 524288 M = true) (h_s : s.same M z) : (State.stepUp s).same M z := by
  unfold State.stepUp
  repeat' first | with_reducible assumption | with_reducible apply State.onPower_same

theorem State.applyCap_same (s : State) (hM : within 524290 M = true) (h_s : s.same M z) : (State.applyCap s).same M z := by
  unfold State.applyCap
  repeat' first | with_reducible assumption | exact within_trans (by decide) hM | with_reducible apply State.setFld_same
                | with_reducible apply State.onPower_same | split

theorem State.countEnergy_same (s : State) (watts : Nat) (hM : within 524290 M = true) (h_s : s.same M z) :
    (State.countEnergy s watts).same M z := by
  unfold State.countEnergy
  repeat' first | with_reducible assumption | exact within_trans (by decide) hM | with_reducible apply State.bump64_same
                | with_reducible apply State.onPower_same

theorem State.balance_same (s : State) (watts : Nat) (hM : within 524290 M = true) (h_s : s.same M z) :
    (State.balance s watts).same M z := by
  unfold State.balance
  repeat' first | with_reducible assumption | exact within_trans (by decide) hM | with_reducible apply State.setFld_same
                | with_reducible apply State.onPower_same | with_reducible apply State.stepDown_same
                | with_reducible apply State.stepUp_same | simp only [same_mk]
                | with_reducible refine same_fst (by assumption) ?_ | split

theorem State.redirect_same (s : State) (txs : List Tx) (hM : within 67239938 M = true) (h_s : s.same M z) :
    (State.redirect s txs).same M z := by
  unfold State.redirect
  repeat' first | with_reducible assumption | intro _ | with_reducible apply same_ite
                | with_reducible apply State.sendTx_same | with_reducible apply same_foldl

theorem State.portDown_same (s : State) (p : Nat) (hM : within 101154926 M = true) (h_s : s.same M z) :
    (State.portDown s p).same M z := by
  unfold State.portDown
  repeat' first | with_reducible assumption | exact within_trans (by decide) hM | with_reducible apply State.setFld_same
                | with_reducible apply State.setPort_same | with_reducible apply State.reroute_same
                | with_reducible apply State.announce_same | with_reducible apply State.redirect_same

theorem State.absorbPort_same (s : State) (p : Nat) (hM : within 101845058 M = true) (h_s : s.same M z) :
    (State.absorbPort s p).same M z := by
  unfold State.absorbPort
  repeat' first | with_reducible assumption | intro _ | with_reducible apply same_ite
                | with_reducible apply State.absorbWithin_same

theorem State.endLaneTest_same (s : State) (p : Nat) (hM : within 131074 M = true) (h_s : s.same M z) :
    (State.endLaneTest s p).same M z := by
  unfold State.endLaneTest
  repeat' first | with_reducible assumption | exact within_trans (by decide) hM | intro _ | with_reducible apply same_ite
                | with_reducible apply State.setFld_same | with_reducible apply State.setPort_same

theorem State.retrainTo_same (s : State) (p n : Nat) (hM : within 67239938 M = true) (h_s : s.same M z) :
    (State.retrainTo s p n).same M z := by
  unfold State.retrainTo
  repeat' first | with_reducible assumption | exact within_trans (by decide) hM | with_reducible apply State.setFld_same
                | with_reducible apply State.setPort_same | with_reducible apply State.announce_same

theorem State.stopLaneTests_same (s : State) (p : Nat) (hM : within 67239938 M = true) (h_s : s.same M z) :
    (State.stopLaneTests s p).same M z := by
  unfold State.stopLaneTests
  repeat' first | with_reducible assumption | exact within_trans (by decide) hM | intro _ | with_reducible apply same_ite
                | with_reducible apply State.endLaneTest_same | with_reducible apply State.retrainTo_same
                | with_reducible apply same_foldl

theorem State.linkAcked_same (s : State) (p ack : Nat) (hM : within 67239938 M = true) (h_s : s.same M z) :
    (State.linkAcked s p ack).same M z := by
  unfold State.linkAcked
  repeat' first | with_reducible assumption | exact within_trans (by decide) hM | intro _ | with_reducible apply same_ite
                | with_reducible apply State.setPort_same | with_reducible apply State.flushPort_same

theorem State.nakked_same (s : State) (p : Nat) (hM : within 102205550 M = true) (h_s : s.same M z) :
    (State.nakked s p).same M z := by
  unfold State.nakked
  repeat' first | with_reducible assumption | exact within_trans (by decide) hM | intro _ | with_reducible apply same_ite
                | with_reducible apply State.bump64_same | with_reducible apply State.send_same
                | with_reducible apply State.setPort_same | with_reducible apply State.onRecord_same
                | with_reducible apply State.portDown_same | with_reducible apply State.absorbPort_same

theorem State.takeFlit_same (s : State) (p : Nat) (bs : List Byte) (hM : within 67239938 M = true) (h_s : s.same M z) :
    (State.takeFlit s p bs).same M z := by
  unfold State.takeFlit
  repeat' first | with_reducible assumption | exact within_trans (by decide) hM | intro _ | with_reducible apply same_ite
                | with_reducible apply State.bump64_same | with_reducible apply State.send_same
                | with_reducible apply State.setPort_same

end Sys2Proof.Machine
end

