-- ==== Sys2Proof/Laws/SameTick.lean ====
section
/-! SUPPORT. What stacks, sparing and the tick leave as it is, by the parts of the state (Laws/Same.lean). -/
namespace Sys2Proof.Machine

variable {M : Nat} {z : State}

theorem State.onMemory_same (s : State) (f : Memory → Memory) (hM : within 32768 M = true) (h_s : s.same M z) :
    (State.onMemory s f).same M z := by
  unfold State.onMemory
  repeat' first | with_reducible assumption | exact Or.inl (within_bit hM (by decide)) | with_reducible exact Or.inr rfl
                | simp only [same_mk] | with_reducible apply Same.of

theorem State.refreshPool_same (s : State) (st : Nat) (hM : within 2 M = true) (h_s : s.same M z) :
    (State.refreshPool s st).same M z := by
  unfold State.refreshPool
  repeat' first | with_reducible assumption | with_reducible apply State.setFld_same

theorem State.usePages_same (s : State) (st n : Nat) (hM : within 32770 M = true) (h_s : s.same M z) :
    (State.usePages s st n).same M z := by
  unfold State.usePages
  repeat' first | with_reducible assumption | exact within_trans (by decide) hM | with_reducible apply State.onMemory_same
                | with_reducible apply State.refreshPool_same

theorem State.freePool_same (s : State) (st n : Nat) (hM : within 32770 M = true) (h_s : s.same M z) :
    (State.freePool s st n).same M z := by
  unfold State.freePool
  repeat' first | with_reducible assumption | exact within_trans (by decide) hM | with_reducible apply State.onMemory_same
                | with_reducible apply State.refreshPool_same

theorem State.useReserve_same (s : State) (st : Nat) (hM : within 33587202 M = true) (h_s : s.same M z) :
    (State.useReserve s st).same M z := by
  unfold State.useReserve
  repeat' first | with_reducible assumption | exact within_trans (by decide) hM | intro _
                | with_reducible apply State.fresh_same | with_reducible apply State.usePages_same
                | with_reducible apply same_foldl_fst

theorem State.mapOut_same (s : State) (st ch : Nat) (hM : within 101877826 M = true) (h_s : s.same M z) :
    (State.mapOut s st ch).same M z := by
  unfold State.mapOut
  repeat' first | with_reducible assumption | exact within_trans (by decide) hM | intro _ | with_reducible apply same_ite
                | with_reducible apply State.setFld_same | with_reducible apply State.logFault_same
                | with_reducible apply State.onMemory_same | with_reducible apply State.useReserve_same

theorem State.mapStuck_same (s : State) (hM : within 101877826 M = true) (h_s : s.same M z) : (State.mapStuck s).same M z := by
  unfold State.mapStuck
  repeat' first | with_reducible assumption | intro _ | with_reducible apply State.mapOut_same
                | with_reducible apply same_foldl

theorem State.retirePage_same (s : State) (st ch page addr : Nat) (hM : within 101877826 M = true) (h_s : s.same M z) :
    (State.retirePage s st ch page addr).same M z := by
  unfold State.retirePage
  repeat' first | with_reducible assumption | exact within_trans (by decide) hM | intro _ | with_reducible apply same_ite
                | with_reducible apply State.setFld_same | with_reducible apply State.bump_same
                | with_reducible apply State.absorbWithin_same | with_reducible apply State.onMemory_same
                | with_reducible apply State.usePages_same | with_reducible apply State.mapOut_same

theorem State.keepRetired_same (s : State) (st ch page : Nat) (hM : within 101877826 M = true) (h_s : s.same M z) :
    (State.keepRetired s st ch page).same M z := by
  unfold State.keepRetired
  repeat' first | with_reducible assumption | exact within_trans (by decide) hM | intro _ | with_reducible apply same_ite
                | with_reducible apply State.bump_same | with_reducible apply State.onMemory_same
                | with_reducible apply State.refreshPool_same | with_reducible apply State.mapOut_same

theorem State.pageFault_same (s : State) (st ch page : Nat) (hM : within 101877826 M = true) (h_s : s.same M z) :
    (State.pageFault s st ch page).same M z := by
  unfold State.pageFault
  repeat' first | with_reducible assumption | exact within_trans (by decide) hM | intro _ | with_reducible apply same_ite
                | with_reducible apply State.setFld_same | with_reducible apply State.bump_same
                | with_reducible apply State.onMemory_same | with_reducible apply State.freePool_same
                | with_reducible apply State.keepRetired_same | with_reducible apply same_foldl

theorem State.rowFails_same (s0 : State) (st ch pc row addr : Nat) (hM : within 101877826 M = true) (h_s0 : s0.same M z) :
    (State.rowFails s0 st ch pc row addr).same M z := by
  unfold State.rowFails
  repeat' first | with_reducible assumption | exact Or.inl (within_bit hM (by decide)) | with_reducible exact Or.inr rfl
                | exact within_trans (by decide) hM | intro _ | with_reducible apply same_ite
                | with_reducible apply State.bump_same | with_reducible apply State.absorbWithin_same
                | with_reducible apply State.onMemory_same | with_reducible apply State.retirePage_same
                | with_reducible apply State.pageFault_same | simp only [same_mk] | with_reducible apply Same.of

theorem State.findBad_same (s : State) (a n : Nat) (hM : within 33587200 M = true) (h_s : s.same M z) :
    (State.findBad s a n).same M z := by
  unfold State.findBad
  repeat' first | with_reducible assumption | exact within_trans (by decide) hM | with_reducible apply State.fresh_same
                | with_reducible apply State.upTo_same | with_reducible apply State.onMemory_same

theorem State.badRead_same (s : State) (ls : List (Nat × Nat × Nat × Nat)) (hM : within 101877826 M = true)
    (h_s : s.same M z) :
    (State.badRead s ls).same M z := by
  unfold State.badRead
  repeat' first | with_reducible assumption | exact within_trans (by decide) hM | intro _
                | with_reducible apply State.bump32_same | with_reducible apply State.rowFails_same
                | with_reducible apply same_foldl

theorem State.noteCool_same (s : State) (st : Nat) (hM : within 32768 M = true) (h_s : s.same M z) :
    (State.noteCool s st).same M z := by
  unfold State.noteCool
  repeat' first | with_reducible assumption | with_reducible apply State.onMemory_same

theorem State.enterStep_same (s : State) (st step : Nat) (hM : within 67766338 M = true) (h_s : s.same M z) :
    (State.enterStep s st step).same M z := by
  unfold State.enterStep
  repeat' first | with_reducible assumption | exact within_trans (by decide) hM | with_reducible apply State.setFld_same
                | with_reducible apply State.excursion_same | with_reducible apply State.beginSlow_same
                | with_reducible apply State.refreshPower_same

theorem State.onTests_same (s : State) (f : Tests → Tests) (hM : within 16777216 M = true) (h_s : s.same M z) :
    (State.onTests s f).same M z := by
  unfold State.onTests
  repeat' first | with_reducible assumption | exact Or.inl (within_bit hM (by decide)) | with_reducible exact Or.inr rfl
                | simp only [same_mk] | with_reducible apply Same.of

theorem State.refreshDie_same (s : State) (die : Nat) (hM : within 2 M = true) (h_s : s.same M z) :
    (State.refreshDie s die).same M z := by
  unfold State.refreshDie
  repeat' first | with_reducible assumption | with_reducible apply State.setFld_same

theorem State.retireCore_same (s : State) (die phys : Nat) (hM : within 17825794 M = true) (h_s : s.same M z) :
    (State.retireCore s die phys).same M z := by
  unfold State.retireCore
  repeat' first | with_reducible assumption | exact Or.inl (within_bit hM (by decide)) | with_reducible exact Or.inr rfl
                | exact within_trans (by decide) hM | intro _ | with_reducible apply same_ite
                | with_reducible apply State.onTests_same | with_reducible apply State.refreshDie_same | simp only [same_mk]
                | with_reducible apply Same.of

theorem State.setActive_same (s : State) (c : Nat) (on : Bool) (hM : within 2 M = true) (h_s : s.same M z) :
    (State.setActive s c on).same M z := by
  unfold State.setActive
  repeat' first | with_reducible assumption | with_reducible apply State.setFld_same

theorem State.setDeferred_same (s : State) (c : Nat) (on : Bool) (hM : within 2 M = true) (h_s : s.same M z) :
    (State.setDeferred s c on).same M z := by
  unfold State.setDeferred
  repeat' first | with_reducible assumption | with_reducible apply State.setFld_same

theorem State.unitTested_same (s : State) (c : Nat) (hM : within 16777218 M = true) (h_s : s.same M z) :
    (State.unitTested s c).same M z := by
  unfold State.unitTested
  repeat' first | with_reducible assumption | exact within_trans (by decide) hM | intro _ | with_reducible apply same_ite
                | with_reducible apply State.setFld_same | with_reducible apply State.bump_same
                | with_reducible apply State.onTests_same

theorem State.testFailed_same (s : State) (cls unit sub detail : Nat) (hM : within 68290626 M = true) (h_s : s.same M z) :
    (State.testFailed s cls unit sub detail).same M z := by
  unfold State.testFailed
  repeat' first | with_reducible assumption | exact within_trans (by decide) hM | with_reducible apply State.bump64_same
                | with_reducible apply State.logFault_same

theorem State.startTest_same (s : State) (c : Nat) (hot can : Bool) (f : State → State) (hM : within 2 M = true)
    (h_s : s.same M z) (h_f : ∀ x0, x0.same M z → (f x0).same M z) :
    (State.startTest s c hot can f).same M z := by
  unfold State.startTest
  repeat' first | with_reducible assumption | intro _ | with_reducible apply same_ite | with_reducible apply h_f
                | with_reducible apply State.setActive_same | with_reducible apply State.setDeferred_same

theorem State.refreshCoreTest_same (s : State) (hM : within 2 M = true) (h_s : s.same M z) :
    (State.refreshCoreTest s).same M z := by
  unfold State.refreshCoreTest
  repeat' first | with_reducible assumption | with_reducible apply State.setActive_same

theorem State.migrate_same (s : State) (n target : Nat) (fault : Bool) (hM : within 16777218 M = true) (h_s : s.same M z) :
    (State.migrate s n target fault).same M z := by
  unfold State.migrate
  repeat' first | with_reducible assumption | exact within_trans (by decide) hM | with_reducible apply State.setFld_same
                | with_reducible apply State.onTests_same | with_reducible apply State.refreshDie_same

theorem State.startTransfers_same (s : State) (hM : within 101179758 M = true) (h_s : s.same M z) :
    (State.startTransfers s).same M z := by
  unfold State.startTransfers
  repeat' first | with_reducible assumption | exact within_trans (by decide) hM | intro _
                | with_reducible apply State.setOp_same | with_reducible apply State.drive_same
                | with_reducible apply xferRun_same | with_reducible apply collStart_same | with_reducible apply same_foldl
                | split

theorem State.storesOpen_same (s : State) (hM : within 101179758 M = true) (h_s : s.same M z) :
    (State.storesOpen s).same M z := by
  unfold State.storesOpen
  repeat' first | with_reducible assumption | with_reducible apply State.goOn_same
                | with_reducible apply State.startTransfers_same

theorem State.stopCoreTests_same (s : State) (keep : Option Nat) (hM : within 117956974 M = true) (h_s : s.same M z) :
    (State.stopCoreTests s keep).same M z := by
  unfold State.stopCoreTests
  repeat' first | with_reducible assumption | exact within_trans (by decide) hM | intro _
                | with_reducible apply State.setFld_same | with_reducible apply State.onTests_same
                | with_reducible apply State.refreshDie_same | with_reducible apply State.refreshCoreTest_same
                | with_reducible apply State.storesOpen_same | with_reducible apply same_foldl

theorem State.coreLost_same (s : State) (n phys : Nat) (hM : within 118884418 M = true) (h_s : s.same M z) :
    (State.coreLost s n phys).same M z := by
  unfold State.coreLost
  repeat' first | with_reducible assumption | exact within_trans (by decide) hM | with_reducible apply State.setFld_same
                | with_reducible apply State.logFault_same | with_reducible apply State.endDevice_same
                | with_reducible apply State.retireCore_same

theorem State.rescueCore_same (s : State) (n phys : Nat) (hM : within 118884418 M = true) (h_s : s.same M z) :
    (State.rescueCore s n phys).same M z := by
  unfold State.rescueCore
  repeat' first | with_reducible assumption | exact within_trans (by decide) hM
                | with_reducible apply State.absorbWithin_same | with_reducible apply State.migrate_same
                | with_reducible apply State.coreLost_same | split

theorem State.refreshMarrow_same (s : State) (st : Nat) (hM : within 2 M = true) (h_s : s.same M z) :
    (State.refreshMarrow s st).same M z := by
  unfold State.refreshMarrow
  repeat' first | with_reducible assumption | with_reducible apply State.setFld_same

theorem State.moveList_same (s : State) (m e : Nat) (hM : within 2 M = true) (h_s : s.same M z) :
    (State.moveList s m e).same M z := by
  unfold State.moveList
  repeat' first | with_reducible assumption | with_reducible apply State.setFld_same | with_reducible apply State.bump_same

theorem State.evacuate_same (s : State) (st e : Nat) (hM : within 2 M = true) (h_s : s.same M z) :
    (State.evacuate s st e).same M z := by
  unfold State.evacuate
  repeat' first | with_reducible assumption | intro _ | with_reducible apply State.setFld_same
                | with_reducible apply State.moveList_same | with_reducible apply same_foldl | split

theorem State.moveMarrow_same (s : State) (hM : within 16777282 M = true) (h_s : s.same M z) : (State.moveMarrow s).same M z := by
  unfold State.moveMarrow
  repeat' first | with_reducible assumption | exact within_trans (by decide) hM | intro _ | with_reducible apply same_ite
                | with_reducible apply State.excursion_same | with_reducible apply State.onTests_same
                | with_reducible apply State.refreshMarrow_same | with_reducible apply State.moveList_same
                | with_reducible apply State.evacuate_same | with_reducible apply same_foldl

theorem State.onTick_same (s : State) (f : TickSt → TickSt) (hM : within 64 M = true) (h_s : s.same M z) :
    (State.onTick s f).same M z := by
  unfold State.onTick
  repeat' first | with_reducible assumption | exact Or.inl (within_bit hM (by decide)) | with_reducible exact Or.inr rfl
                | simp only [same_mk] | with_reducible apply Same.of

theorem State.onCores_same (s : State) (f : Cores → Cores) (hM : within 32 M = true) (h_s : s.same M z) :
    (State.onCores s f).same M z := by
  unfold State.onCores
  repeat' first | with_reducible assumption | exact Or.inl (within_bit hM (by decide)) | with_reducible exact Or.inr rfl
                | simp only [same_mk] | with_reducible apply Same.of

theorem State.closeRecord_same (s : State) (hM : within 100892750 M = true) (h_s : s.same M z) :
    (State.closeRecord s).same M z := by
  unfold State.closeRecord
  repeat' first | with_reducible assumption | exact within_trans (by decide) hM | with_reducible apply State.write_same
                | with_reducible apply State.upTo_same | with_reducible apply State.onTick_same | simp only [same_mk]
                | split

theorem State.openRecord_same (s : State) (k : Nat) (hM : within 64 M = true) (h_s : s.same M z) :
    (State.openRecord s k).same M z := by
  unfold State.openRecord
  repeat' first | with_reducible assumption | with_reducible apply State.onTick_same

theorem State.applyChange_same (s : State) (c : Change) (hM : within 131328 M = true) (h_s : s.same M z) :
    (State.applyChange s c).same M z := by
  unfold State.applyChange
  repeat' first | with_reducible assumption | exact Or.inl (within_bit hM (by decide)) | with_reducible exact Or.inr rfl
                | exact within_trans (by decide) hM | with_reducible apply State.onFabric_same | simp only [same_mk]
                | with_reducible apply Same.of | split

theorem State.applyChanges_same (s : State) (k : Nat) (hM : within 131840 M = true) (h_s : s.same M z) :
    (State.applyChanges s k).same M z := by
  unfold State.applyChanges
  repeat' first | with_reducible assumption | exact Or.inl (within_bit hM (by decide)) | with_reducible exact Or.inr rfl
                | exact within_trans (by decide) hM | intro _ | with_reducible apply State.applyChange_same
                | simp only [same_mk] | with_reducible apply Same.of | with_reducible apply same_foldl

theorem State.applyTestSetting_same (s : State) (hM : within 16777218 M = true) (h_s : s.same M z) :
    (State.applyTestSetting s).same M z := by
  unfold State.applyTestSetting
  repeat' first | with_reducible assumption | exact within_trans (by decide) hM | with_reducible apply State.setFld_same
                | with_reducible apply State.onTests_same | split

theorem State.releasePhase_same (s : State) (p : Nat) (hM : within 2 M = true) (h_s : s.same M z) :
    (State.releasePhase s p).same M z := by
  unfold State.releasePhase
  repeat' first | with_reducible assumption | intro _ | with_reducible apply same_ite
                | with_reducible apply State.setFld_same | with_reducible apply State.setSeq_same
                | with_reducible apply same_foldl

theorem State.latchStart_same (s : State) (hM : within 8192 M = true) (h_s : s.same M z) : (State.latchStart s).same M z := by
  unfold State.latchStart
  repeat' first | with_reducible assumption | exact Or.inl (within_bit hM (by decide)) | with_reducible exact Or.inr rfl
                | simp only [same_mk] | with_reducible apply Same.of

theorem State.startSeqs_same (s : State) (hM : within 34 M = true) (h_s : s.same M z) : (State.startSeqs s).same M z := by
  unfold State.startSeqs
  repeat' first | with_reducible assumption | exact Or.inl (within_bit hM (by decide)) | with_reducible exact Or.inr rfl
                | exact within_trans (by decide) hM | intro _ | with_reducible apply State.setFld_same
                | with_reducible apply State.seqTo_same | with_reducible apply State.onCores_same | simp only [same_mk]
                | with_reducible apply Same.of | with_reducible apply same_foldl

theorem State.startStep_same (s : State) (hM : within 67346542 M = true) (h_s : s.same M z) : (State.startStep s).same M z := by
  unfold State.startStep
  repeat' first | with_reducible assumption | exact Or.inl (within_bit hM (by decide)) | with_reducible exact Or.inr rfl
                | exact within_trans (by decide) hM | intro _ | with_reducible apply same_ite
                | with_reducible apply State.excursion_same | with_reducible apply State.refreshPhases_same
                | with_reducible apply State.checkStepEnd_same | with_reducible apply State.onTick_same
                | with_reducible apply State.releasePhase_same | with_reducible apply State.latchStart_same
                | with_reducible apply State.startSeqs_same | simp only [same_mk] | with_reducible apply Same.of
                | with_reducible apply same_foldl

theorem State.latchQueues_same (s : State) (hM : within 8192 M = true) (h_s : s.same M z) : (State.latchQueues s).same M z := by
  unfold State.latchQueues
  repeat' first | with_reducible assumption | exact Or.inl (within_bit hM (by decide)) | with_reducible exact Or.inr rfl
                | simp only [same_mk] | with_reducible apply Same.of

theorem State.abortStep_same (s : State) (hM : within 172130 M = true) (h_s : s.same M z) : (State.abortStep s).same M z := by
  unfold State.abortStep
  repeat' first | with_reducible assumption | exact Or.inl (within_bit hM (by decide)) | with_reducible exact Or.inr rfl
                | exact within_trans (by decide) hM | intro _ | with_reducible apply State.setSeq_same
                | with_reducible apply State.refreshEngine_same | with_reducible apply State.onTick_same
                | simp only [same_mk] | with_reducible apply Same.of | with_reducible apply same_foldl

theorem State.restoreUndo_same (s : State) (hM : within 12 M = true) (h_s : s.same M z) : (State.restoreUndo s).same M z := by
  unfold State.restoreUndo
  repeat' first | with_reducible assumption | intro _ | with_reducible apply State.restoreImage_same
                | with_reducible apply same_foldl

theorem State.decideOverrun_same (s : State) (hM : within 101056578 M = true) (h_s : s.same M z) :
    (State.decideOverrun s).same M z := by
  unfold State.decideOverrun
  repeat' first | with_reducible assumption | exact within_trans (by decide) hM | intro _ | with_reducible apply same_ite
                | with_reducible apply State.bump_same | with_reducible apply State.recordFlag_same
                | with_reducible apply State.postEvent_same | with_reducible apply State.triggerPeers_same
                | with_reducible apply State.enterStopped_same | with_reducible apply State.onTick_same

theorem State.trigger_same (s : State) (tx : Tx) (op : Nat) (f : State → State) (hM : within 67239938 M = true)
    (h_s : s.same M z) (h_f : ∀ x0, x0.same M z → (f x0).same M z) :
    (State.trigger s tx op f).same M z := by
  unfold State.trigger
  repeat' first | with_reducible assumption | exact within_trans (by decide) hM | intro _ | with_reducible apply same_ite
                | with_reducible apply h_f | with_reducible apply State.malformed_same
                | with_reducible apply State.arrives_same

theorem State.boundary_same (s : State) (k : Nat) (hM : within 117678926 M = true) (h_s : s.same M z) :
    (State.boundary s k).same M z := by
  unfold State.boundary
  repeat' first | with_reducible assumption | exact within_trans (by decide) hM | intro _ | with_reducible apply same_ite
                | with_reducible apply State.setFld_same | with_reducible apply State.setDevState_same
                | with_reducible apply State.moveMarrow_same | with_reducible apply State.onTick_same
                | with_reducible apply State.closeRecord_same | with_reducible apply State.openRecord_same
                | with_reducible apply State.applyChanges_same | with_reducible apply State.applyTestSetting_same
                | with_reducible apply State.latchQueues_same

theorem State.skipTick_same (s : State) (hM : within 64 M = true) (h_s : s.same M z) : (State.skipTick s).same M z := by
  unfold State.skipTick
  repeat' first | with_reducible assumption | with_reducible apply State.recordFlag_same

theorem State.dropMarks_same (s : State) (k : Nat) (hM : within 64 M = true) (h_s : s.same M z) :
    (State.dropMarks s k).same M z := by
  unfold State.dropMarks
  repeat' first | with_reducible assumption | with_reducible apply State.onTick_same

theorem State.startOrHalt_same (s : State) (k : Nat) (hM : within 67346542 M = true) (h_s : s.same M z) :
    (State.startOrHalt s k).same M z := by
  unfold State.startOrHalt
  repeat' first | with_reducible assumption | exact within_trans (by decide) hM | intro _ | with_reducible apply same_ite
                | with_reducible apply State.setFld_same | with_reducible apply State.onTick_same
                | with_reducible apply State.startStep_same | with_reducible apply State.latchQueues_same
                | with_reducible apply State.skipTick_same | with_reducible apply State.dropMarks_same

theorem State.abortAt_same (s : State) (hM : within 172130 M = true) (h_s : s.same M z) : (State.abortAt s).same M z := by
  unfold State.abortAt
  repeat' first | with_reducible assumption | exact within_trans (by decide) hM | intro _ | with_reducible apply same_ite
                | with_reducible apply State.setFld_same | with_reducible apply State.recordFlag_same
                | with_reducible apply State.onRecord_same | with_reducible apply State.abortStep_same

theorem State.stopTick_same (s : State) (hM : within 101419086 M = true) (h_s : s.same M z) : (State.stopTick s).same M z := by
  unfold State.stopTick
  repeat' first | with_reducible assumption | exact Or.inl (within_bit hM (by decide)) | with_reducible exact Or.inr rfl
                | exact within_trans (by decide) hM | intro _ | with_reducible apply same_ite
                | with_reducible apply State.setFld_same | with_reducible apply State.setDevState_same
                | with_reducible apply State.refreshPower_same | with_reducible apply State.onTick_same
                | with_reducible apply State.closeRecord_same | with_reducible apply State.restoreUndo_same
                | simp only [same_mk] | with_reducible apply Same.of

theorem State.takeSource_same (s : State) (body : List Byte) (hM : within 194 M = true) (h_s : s.same M z) :
    (State.takeSource s body).same M z := by
  unfold State.takeSource
  repeat' first | with_reducible assumption | exact Or.inl (within_bit hM (by decide)) | with_reducible exact Or.inr rfl
                | exact within_trans (by decide) hM | with_reducible apply State.setFld_same
                | with_reducible apply State.setTimeState_same | simp only [same_mk] | with_reducible apply Same.of

theorem State.arm_same (s : State) (m : Msg) (hM : within 67766594 M = true) (h_s : s.same M z) : (State.arm s m).same M z := by
  unfold State.arm
  repeat' first | with_reducible assumption | exact Or.inl (within_bit hM (by decide)) | with_reducible exact Or.inr rfl
                | exact within_trans (by decide) hM | with_reducible apply State.setReg_same
                | with_reducible apply State.setFld_same | with_reducible apply State.refreshPower_same
                | with_reducible apply State.onTick_same | simp only [same_mk] | with_reducible apply Same.of

theorem State.asOf_same (s : State) (t : Nat) (hM : within 131840 M = true) (h_s : s.same M z) : (State.asOf s t).same M z := by
  unfold State.asOf
  repeat' first | with_reducible assumption | with_reducible apply State.applyChanges_same

theorem State.accept_same (s : State) (t : Nat) (c : Change) (hM : within 512 M = true) (h_s : s.same M z) :
    (State.accept s t c).same M z := by
  unfold State.accept
  repeat' first | with_reducible assumption | exact Or.inl (within_bit hM (by decide)) | with_reducible exact Or.inr rfl
                | simp only [same_mk] | with_reducible apply Same.of

end Sys2Proof.Machine
end

