-- ==== Sys2Proof/Laws/SameHost.lean ====
section
/-! SUPPORT. What admission, job reset, the device commands, launches, resets, debug and the home of queue traffic leave as it is, by the parts of the state (Laws/Same.lean). -/
namespace Sys2Proof.Machine

variable {M : Nat} {z : State}

theorem State.clearJobRegs_same (s : State) (hM : within 2 M = true) (h_s : s.same M z) : (State.clearJobRegs s).same M z := by
  unfold State.clearJobRegs
  repeat' first | with_reducible assumption | exact Or.inl (within_bit hM (by decide)) | with_reducible exact Or.inr rfl
                | intro _ | with_reducible apply State.setFld_same | simp only [same_mk] | with_reducible apply Same.of
                | with_reducible apply same_foldl

theorem State.setBacking_same (s : State) (backed : List Nat) (hM : within 2 M = true) (h_s : s.same M z) :
    (State.setBacking s backed).same M z := by
  unfold State.setBacking
  repeat' first | with_reducible assumption | intro _ | with_reducible apply State.setReg_same
                | with_reducible apply same_foldl

theorem State.drawNonce_same (s : State) (hM : within 33554434 M = true) (h_s : s.same M z) : (State.drawNonce s).same M z := by
  unfold State.drawNonce
  repeat' first | with_reducible assumption | exact within_trans (by decide) hM | intro _
                | with_reducible apply State.setReg_same | with_reducible apply State.fresh_same
                | with_reducible apply same_foldl

theorem State.zeroFill_same (s : State) (a n : Nat) (hM : within 12 M = true) (h_s : s.same M z) :
    (State.zeroFill s a n).same M z := by
  unfold State.zeroFill
  repeat' first | with_reducible assumption | exact Or.inl (within_bit hM (by decide)) | with_reducible exact Or.inr rfl
                | exact within_trans (by decide) hM | intro _ | with_reducible apply State.setTag_same | simp only [same_mk]
                | with_reducible apply Same.of | with_reducible apply same_foldl

theorem State.load_same (s : State) (a : Nat) (bs : List Byte) (seals : Bool) (hM : within 67338318 M = true)
    (h_s : s.same M z) :
    (State.load s a bs seals).same M z := by
  unfold State.load
  repeat' first | with_reducible assumption | exact within_trans (by decide) hM | intro _ | with_reducible apply same_ite
                | with_reducible apply State.setTag_same | with_reducible apply State.write_same
                | with_reducible apply same_foldl

theorem State.loadSect_same (s : State) (x : Sect) (hM : within 67338350 M = true) (h_s : s.same M z) :
    (State.loadSect s x).same M z := by
  unfold State.loadSect
  repeat' first | with_reducible assumption | exact Or.inl (within_bit hM (by decide)) | with_reducible exact Or.inr rfl
                | exact within_trans (by decide) hM | with_reducible apply State.load_same | simp only [same_mk]
                | with_reducible apply Same.of | split

theorem State.placeImage_same (s : State) (im : StepImage) (backed : List Nat) (hM : within 32782 M = true)
    (h_s : s.same M z) :
    (State.placeImage s im backed).same M z := by
  unfold State.placeImage
  repeat' first | with_reducible assumption | exact Or.inl (within_bit hM (by decide)) | with_reducible exact Or.inr rfl
                | exact within_trans (by decide) hM | intro _ | with_reducible apply State.setFld_same
                | with_reducible apply State.setBacking_same | simp only [same_mk] | with_reducible apply Same.of
                | with_reducible apply same_foldl

theorem State.startQueues_same (s : State) (im : StepImage) (hM : within 28674 M = true) (h_s : s.same M z) :
    (State.startQueues s im).same M z := by
  unfold State.startQueues
  repeat' first | with_reducible assumption | exact Or.inl (within_bit hM (by decide)) | with_reducible exact Or.inr rfl
                | exact within_trans (by decide) hM | intro _ | with_reducible apply same_ite
                | with_reducible apply State.setQueue_same | with_reducible apply State.refreshEngine_same
                | with_reducible apply State.touch_same | simp only [same_mk] | with_reducible apply Same.of
                | with_reducible apply same_foldl

theorem State.startPeers_same (s : State) (im : StepImage) (hM : within 131328 M = true) (h_s : s.same M z) :
    (State.startPeers s im).same M z := by
  unfold State.startPeers
  repeat' first | with_reducible assumption | exact Or.inl (within_bit hM (by decide)) | with_reducible exact Or.inr rfl
                | simp only [same_mk] | with_reducible apply Same.of | split

theorem State.loadJob_same (s : State) (im : StepImage) (backed : List Nat) (hM : within 100923262 M = true)
    (h_s : s.same M z) :
    (State.loadJob s im backed).same M z := by
  unfold State.loadJob
  repeat' first | with_reducible assumption | exact Or.inl (within_bit hM (by decide)) | with_reducible exact Or.inr rfl
                | exact within_trans (by decide) hM | intro _ | with_reducible apply State.setReg_same
                | with_reducible apply State.setFld_same | with_reducible apply State.setDevState_same
                | with_reducible apply State.markWaits_same | with_reducible apply State.clearJobRegs_same
                | with_reducible apply State.drawNonce_same | with_reducible apply State.zeroFill_same
                | with_reducible apply State.loadSect_same | with_reducible apply State.placeImage_same
                | with_reducible apply State.startQueues_same | with_reducible apply State.startPeers_same
                | simp only [same_mk] | with_reducible apply Same.of | with_reducible apply same_foldl

theorem State.unbind_same (s : State) (hM : within 2 M = true) (h_s : s.same M z) : (State.unbind s).same M z := by
  unfold State.unbind
  repeat' first | with_reducible assumption | with_reducible apply State.setFld_same
                | with_reducible apply State.setDevState_same

theorem State.finishAdmit_same (s : State) (l : Long) (img blk : List Byte) (staged : Nat × Nat)
    (hM : within 101185406 M = true) (h_s : s.same M z) :
    (State.finishAdmit s l img blk staged).same M z := by
  unfold State.finishAdmit
  repeat' first | with_reducible assumption | exact within_trans (by decide) hM | with_reducible apply State.endLong_same
                | with_reducible apply State.loadJob_same | with_reducible apply State.unbind_same | split

theorem State.endAdmit_same (s : State) (l : Long) (hM : within 101185406 M = true) (h_s : s.same M z) :
    (State.endAdmit s l).same M z := by
  unfold State.endAdmit
  repeat' first | with_reducible assumption | intro _ | with_reducible apply same_ite
                | with_reducible apply State.finishAdmit_same

theorem State.beginAdmit_same (s : State) (hM : within 2 M = true) (h_s : s.same M z) : (State.beginAdmit s).same M z := by
  unfold State.beginAdmit
  repeat' first | with_reducible assumption | with_reducible apply State.setFld_same
                | with_reducible apply State.setDevState_same

theorem State.hardRepair_same (s : State) (hM : within 1081346 M = true) (h_s : s.same M z) : (State.hardRepair s).same M z := by
  unfold State.hardRepair
  repeat' first | with_reducible assumption | exact Or.inl (within_bit hM (by decide)) | with_reducible exact Or.inr rfl
                | exact within_trans (by decide) hM | intro _ | with_reducible apply State.setFld_same | simp only [same_mk]
                | with_reducible apply Same.of | with_reducible apply same_foldl

theorem State.trainPort_same (s : State) (p : Nat) (hM : within 67239938 M = true) (h_s : s.same M z) :
    (State.trainPort s p).same M z := by
  unfold State.trainPort
  repeat' first | with_reducible assumption | exact within_trans (by decide) hM | with_reducible apply State.setFld_same
                | with_reducible apply State.setPort_same | with_reducible apply State.announce_same
                | with_reducible apply State.redirect_same

theorem State.standBy_same (s : State) (hM : within 67239938 M = true) (h_s : s.same M z) : (State.standBy s).same M z := by
  unfold State.standBy
  repeat' first | with_reducible assumption | exact Or.inl (within_bit hM (by decide)) | with_reducible exact Or.inr rfl
                | exact within_trans (by decide) hM | intro _ | with_reducible apply same_ite
                | with_reducible apply State.setFld_same | with_reducible apply State.announce_same | simp only [same_mk]
                | with_reducible apply Same.of | with_reducible apply same_foldl

theorem State.setDebug_same (s : State) (level : Nat) (hM : within 2 M = true) (h_s : s.same M z) :
    (State.setDebug s level).same M z := by
  unfold State.setDebug
  repeat' first | with_reducible assumption | intro _ | with_reducible apply same_ite
                | with_reducible apply State.setReg_same | with_reducible apply State.setFld_same

theorem State.abandonLongs_same (s : State) (hM : within 101179758 M = true) (h_s : s.same M z) :
    (State.abandonLongs s).same M z := by
  unfold State.abandonLongs
  repeat' first | with_reducible assumption | exact within_trans (by decide) hM | intro _
                | with_reducible apply State.endLong_same | with_reducible apply State.failCheckpoint_same
                | with_reducible apply State.endExport_same | with_reducible apply State.dropRestore_same
                | with_reducible apply same_foldl

theorem State.dropJob_same (s : State) (hM : within 101185406 M = true) (h_s : s.same M z) : (State.dropJob s).same M z := by
  unfold State.dropJob
  repeat' first | with_reducible assumption | exact Or.inl (within_bit hM (by decide)) | with_reducible exact Or.inr rfl
                | exact within_trans (by decide) hM | intro _ | with_reducible apply State.setFld_same
                | with_reducible apply State.settleWaits_same | with_reducible apply State.stopTickNow_same
                | with_reducible apply State.abandonLongs_same | simp only [same_mk] | with_reducible apply Same.of
                | with_reducible apply same_foldl

theorem State.zeroMemory_same (s : State) (hM : within 32782 M = true) (h_s : s.same M z) : (State.zeroMemory s).same M z := by
  unfold State.zeroMemory
  repeat' first | with_reducible assumption | exact Or.inl (within_bit hM (by decide)) | with_reducible exact Or.inr rfl
                | exact within_trans (by decide) hM | with_reducible apply State.setBacking_same | simp only [same_mk]
                | with_reducible apply Same.of

theorem State.scrubDevice_same (s : State) (hM : within 68321294 M = true) (h_s : s.same M z) :
    (State.scrubDevice s).same M z := by
  unfold State.scrubDevice
  repeat' first | with_reducible assumption | exact within_trans (by decide) hM | intro _ | with_reducible apply same_ite
                | with_reducible apply State.noteSpares_same | with_reducible apply State.hardRepair_same
                | with_reducible apply State.trainPort_same | with_reducible apply State.standBy_same
                | with_reducible apply State.zeroMemory_same | with_reducible apply same_foldl

theorem State.endStops_same (s : State) (hM : within 2050 M = true) (h_s : s.same M z) : (State.endStops s).same M z := by
  unfold State.endStops
  repeat' first | with_reducible assumption | exact Or.inl (within_bit hM (by decide)) | with_reducible exact Or.inr rfl
                | exact within_trans (by decide) hM | intro _ | with_reducible apply same_ite
                | with_reducible apply State.setFld_same | simp only [same_mk] | with_reducible apply Same.of
                | with_reducible apply same_foldl

theorem State.beginReset_same (s : State) (hM : within 101711742 M = true) (h_s : s.same M z) :
    (State.beginReset s).same M z := by
  unfold State.beginReset
  repeat' first | with_reducible assumption | exact within_trans (by decide) hM | intro _ | with_reducible apply same_ite
                | with_reducible apply State.setDevState_same | with_reducible apply State.refreshPower_same
                | with_reducible apply State.dropJob_same

theorem State.finishReset_same (s : State) (hM : within 102402126 M = true) (h_s : s.same M z) :
    (State.finishReset s).same M z := by
  unfold State.finishReset
  repeat' first | with_reducible assumption | exact within_trans (by decide) hM | intro _ | with_reducible apply same_ite
                | with_reducible apply State.setReg_same | with_reducible apply State.setFld_same
                | with_reducible apply State.setDevState_same | with_reducible apply State.refreshPower_same
                | with_reducible apply State.clearJobRegs_same | with_reducible apply State.drawNonce_same
                | with_reducible apply State.setDebug_same | with_reducible apply State.scrubDevice_same
                | with_reducible apply State.endStops_same

theorem State.connectTarget_same (s : State) (i : Nat) (body : List Byte) (hM : within 67371008 M = true) (h_s : s.same M z) :
    (State.connectTarget s i body).same M z := by
  unfold State.connectTarget
  repeat' first | with_reducible assumption | exact within_trans (by decide) hM | intro _ | with_reducible apply same_ite
                | with_reducible apply State.send_same | with_reducible apply State.onHost_same

theorem State.freeBytes_same (s : State) (n_ : Nat) (hM : within 33554432 M = true) (h_s : s.same M z) :
    (State.freeBytes s n_).2.same M z := by
  induction n_ generalizing s with
  | zero =>
    unfold State.freeBytes
    repeat' first | with_reducible assumption
  | succ n ih =>
    unfold State.freeBytes
    repeat' first | with_reducible assumption | with_reducible apply ih | with_reducible apply State.fresh_same

theorem State.forwardChunk_same (s : State) (id : Nat) (l : Launch) (child c : Nat) (hM : within 101154926 M = true)
    (h_s : s.same M z) :
    (State.forwardChunk s id l child c).same M z := by
  unfold State.forwardChunk
  repeat' first | with_reducible assumption | exact within_trans (by decide) hM | intro _ | with_reducible apply same_ite
                | with_reducible apply State.requestFrom_same | with_reducible apply State.setLaunch_same
                | with_reducible apply State.markLost_same | with_reducible apply same_foldl

theorem State.orphan_same (s : State) (id : Nat) (l : Launch) (hM : within 101056514 M = true) (h_s : s.same M z) :
    (State.orphan s id l).same M z := by
  unfold State.orphan
  repeat' first | with_reducible assumption | exact within_trans (by decide) hM | intro _ | with_reducible apply same_ite
                | with_reducible apply State.endLongCode_same | with_reducible apply State.setLaunch_same
                | with_reducible apply State.launchEvent_same | with_reducible apply State.upTo_same

theorem State.launchControl_same (s : State) (tx : Tx) (op : Nat) (f : State → Nat → Launch → State)
    (hM : within 67239938 M = true) (h_s : s.same M z) (h_f : ∀ x0 x1 x2, x0.same M z → (f x0 x1 x2).same M z) :
    (State.launchControl s tx op f).same M z := by
  unfold State.launchControl
  repeat' first | with_reducible assumption | exact within_trans (by decide) hM | intro _ | with_reducible apply h_f
                | with_reducible apply State.malformed_same | with_reducible apply State.arrives_same | split

theorem State.onBoard_same (s : State) (f : Board → Board) (hM : within 8388608 M = true) (h_s : s.same M z) :
    (State.onBoard s f).same M z := by
  unfold State.onBoard
  repeat' first | with_reducible assumption | exact Or.inl (within_bit hM (by decide)) | with_reducible exact Or.inr rfl
                | simp only [same_mk] | with_reducible apply Same.of

theorem State.restart_same (s : State) (keep : Nat → Bool) (memory : Memory) (hM : within 66060286 M = true)
    (h_s : s.same M z) :
    (State.restart s keep memory).same M z := by
  unfold State.restart
  repeat' first | with_reducible assumption | exact Or.inl (within_bit hM (by decide)) | with_reducible exact Or.inr rfl
                | exact within_trans (by decide) hM | with_reducible apply State.setFld_same
                | with_reducible apply State.drawNonce_same | simp only [same_mk] | with_reducible apply Same.of

theorem State.coldReset_same (s : State) (hM : within 66060286 M = true) (h_s : s.same M z) : (State.coldReset s).same M z := by
  unfold State.coldReset
  repeat' first | with_reducible assumption | exact within_trans (by decide) hM | with_reducible apply State.onBoard_same
                | with_reducible apply State.restart_same

theorem State.endPageTests_same (s : State) (hM : within 32770 M = true) (h_s : s.same M z) :
    (State.endPageTests s).same M z := by
  unfold State.endPageTests
  repeat' first | with_reducible assumption | exact within_trans (by decide) hM | intro _
                | with_reducible apply State.bump_same | with_reducible apply State.onMemory_same
                | with_reducible apply State.freePool_same | with_reducible apply same_foldl

theorem State.warmReset_same (s : State) (hM : within 66060286 M = true) (h_s : s.same M z) : (State.warmReset s).same M z := by
  unfold State.warmReset
  repeat' first | with_reducible assumption | exact within_trans (by decide) hM | intro _
                | with_reducible apply State.setFld_same | with_reducible apply State.onBoard_same
                | with_reducible apply State.restart_same | with_reducible apply State.endPageTests_same
                | with_reducible apply same_foldl

theorem State.beginBoot_same (s : State) (hM : within 67766338 M = true) (h_s : s.same M z) : (State.beginBoot s).same M z := by
  unfold State.beginBoot
  repeat' first | with_reducible assumption | exact within_trans (by decide) hM | with_reducible apply State.setFld_same
                | with_reducible apply State.refreshPower_same

theorem State.warmReboot_same (s : State) (hM : within 133169150 M = true) (h_s : s.same M z) :
    (State.warmReboot s).same M z := by
  unfold State.warmReboot
  repeat' first | with_reducible assumption | exact within_trans (by decide) hM | with_reducible apply State.warmReset_same
                | with_reducible apply State.beginBoot_same

theorem State.setOwnerKeys_same (s : State) (keys : Option (List Byte)) (hM : within 2097154 M = true) (h_s : s.same M z) :
    (State.setOwnerKeys s keys).same M z := by
  unfold State.setOwnerKeys
  repeat' first | with_reducible assumption | exact Or.inl (within_bit hM (by decide)) | with_reducible exact Or.inr rfl
                | exact within_trans (by decide) hM | intro _ | with_reducible apply State.setReg_same
                | with_reducible apply State.setFld_same | simp only [same_mk] | with_reducible apply Same.of
                | with_reducible apply same_foldl

theorem State.applyRecords_same (s : State) (hM : within 69468162 M = true) (h_s : s.same M z) :
    (State.applyRecords s).same M z := by
  unfold State.applyRecords
  repeat' first | with_reducible assumption | exact Or.inl (within_bit hM (by decide)) | with_reducible exact Or.inr rfl
                | exact within_trans (by decide) hM | intro _ | with_reducible apply State.setFld_same
                | with_reducible apply State.onHost_same | with_reducible apply State.connectTarget_same
                | with_reducible apply State.setOwnerKeys_same | simp only [same_mk] | with_reducible apply Same.of
                | with_reducible apply same_foldl | split

theorem State.placeCores_same (s : State) (die : Nat) (hM : within 2 M = true) (h_s : s.same M z) :
    (State.placeCores s die).same M z := by
  unfold State.placeCores
  repeat' first | with_reducible assumption | intro _ | with_reducible apply State.setFld_same
                | with_reducible apply State.refreshDie_same | with_reducible apply same_foldl_fst | split

theorem State.placeLists_same (s : State) (st : Nat) (hM : within 2 M = true) (h_s : s.same M z) :
    (State.placeLists s st).same M z := by
  unfold State.placeLists
  repeat' first | with_reducible assumption | intro _ | with_reducible apply State.setFld_same
                | with_reducible apply State.refreshMarrow_same | with_reducible apply State.evacuate_same
                | with_reducible apply same_foldl

theorem State.refreshFw_same (s : State) (hM : within 2 M = true) (h_s : s.same M z) : (State.refreshFw s).same M z := by
  unfold State.refreshFw
  repeat' first | with_reducible assumption | with_reducible apply State.setFld_same

theorem State.checkSlot_same (s : State) (i : Nat) (hM : within 67174402 M = true) (h_s : s.same M z) :
    (State.checkSlot s i).same M z := by
  unfold State.checkSlot
  repeat' first | with_reducible assumption | exact within_trans (by decide) hM | intro _ | with_reducible apply same_ite
                | with_reducible apply State.send_same | with_reducible apply State.setSlot_same

theorem State.autoload_same (s : State) (ext : List Byte) (hM : within 100925442 M = true) (h_s : s.same M z) :
    (State.autoload s ext).same M z := by
  unfold State.autoload
  repeat' first | with_reducible assumption | exact within_trans (by decide) hM | intro _ | with_reducible apply same_ite
                | with_reducible apply State.fresh_same | with_reducible apply State.postEvent_same
                | with_reducible apply State.onHost_same | with_reducible apply State.beginAdmit_same | split

theorem State.reachReady_same (s : State) (ms : Nat) (ext : List Byte) (hM : within 101976066 M = true) (h_s : s.same M z) :
    (State.reachReady s ms ext).same M z := by
  unfold State.reachReady
  repeat' first | with_reducible assumption | exact Or.inl (within_bit hM (by decide)) | with_reducible exact Or.inr rfl
                | exact within_trans (by decide) hM | with_reducible apply State.setFld_same
                | with_reducible apply State.setDevState_same | with_reducible apply State.endStops_same
                | with_reducible apply State.refreshFw_same | with_reducible apply State.autoload_same | simp only [same_mk]
                | with_reducible apply Same.of

theorem State.stageDone_same (s : State) (n ms : Nat) (ext : List Byte) (hM : within 113215694 M = true) (h_s : s.same M z) :
    (State.stageDone s n ms ext).same M z := by
  unfold State.stageDone
  repeat' first | with_reducible assumption | exact within_trans (by decide) hM | intro _
                | with_reducible apply State.setReg_same | with_reducible apply State.setFld_same
                | with_reducible apply State.refreshPower_same | with_reducible apply State.takeSource_same
                | with_reducible apply State.hardRepair_same | with_reducible apply State.zeroMemory_same
                | with_reducible apply State.onBoard_same | with_reducible apply State.applyRecords_same
                | with_reducible apply State.placeCores_same | with_reducible apply State.placeLists_same
                | with_reducible apply State.refreshFw_same | with_reducible apply State.checkSlot_same
                | with_reducible apply State.reachReady_same | with_reducible apply same_foldl | split

theorem State.bootLoss_same (s : State) (fail : Nat) (hM : within 101056578 M = true) (h_s : s.same M z) :
    (State.bootLoss s fail).same M z := by
  unfold State.bootLoss
  repeat' first | with_reducible assumption | exact within_trans (by decide) hM | with_reducible apply State.setFld_same
                | with_reducible apply State.endDeviceOther_same

theorem State.onSnap_same (s : State) (f : Snap → Snap) (hM : within 4194304 M = true) (h_s : s.same M z) :
    (State.onSnap s f).same M z := by
  unfold State.onSnap
  repeat' first | with_reducible assumption | exact Or.inl (within_bit hM (by decide)) | with_reducible exact Or.inr rfl
                | simp only [same_mk] | with_reducible apply Same.of

theorem State.propagateSnap_same (s : State) (id : Nat) (hM : within 67239938 M = true) (h_s : s.same M z) :
    (State.propagateSnap s id).same M z := by
  unfold State.propagateSnap
  repeat' first | with_reducible assumption | exact within_trans (by decide) hM | intro _
                | with_reducible apply State.setFld_same | with_reducible apply State.sendTx_same
                | with_reducible apply same_foldl

theorem State.latchSnap_same (s : State) (source : Nat) (arm : SnapArm) (hM : within 71434242 M = true) (h_s : s.same M z) :
    (State.latchSnap s source arm).same M z := by
  unfold State.latchSnap
  repeat' first | with_reducible assumption | exact within_trans (by decide) hM | intro _ | with_reducible apply same_ite
                | with_reducible apply State.setReg_same | with_reducible apply State.setFld_same
                | with_reducible apply State.onSnap_same | with_reducible apply State.propagateSnap_same

theorem State.fireSnap_same (s : State) (code : Nat) (want : SnapArm → Bool) (hM : within 71434242 M = true)
    (h_s : s.same M z) :
    (State.fireSnap s code want).same M z := by
  unfold State.fireSnap
  repeat' first | with_reducible assumption | exact within_trans (by decide) hM | with_reducible apply State.bump_same
                | with_reducible apply State.latchSnap_same | split

theorem State.armSnap_same (s : State) (a : SnapArm) (hM : within 4194306 M = true) (h_s : s.same M z) :
    (State.armSnap s a).same M z := by
  unfold State.armSnap
  repeat' first | with_reducible assumption | exact within_trans (by decide) hM | with_reducible apply State.setReg_same
                | with_reducible apply State.setFld_same | with_reducible apply State.onSnap_same

theorem State.releaseSnap_same (s : State) (hM : within 4194306 M = true) (h_s : s.same M z) :
    (State.releaseSnap s).same M z := by
  unfold State.releaseSnap
  repeat' first | with_reducible assumption | exact within_trans (by decide) hM | with_reducible apply State.setFld_same
                | with_reducible apply State.onSnap_same

theorem State.denied_same (s : State) (k : Nat) (m : Msg) (level : Nat) (hM : within 67371010 M = true) (h_s : s.same M z) :
    (State.denied s k m level).same M z := by
  unfold State.denied
  repeat' first | with_reducible assumption | with_reducible apply State.reject_same

theorem State.enterD3_same (s : State) (hM : within 102233982 M = true) (h_s : s.same M z) : (State.enterD3 s).same M z := by
  unfold State.enterD3
  repeat' first | with_reducible assumption | exact within_trans (by decide) hM | with_reducible apply State.setFld_same
                | with_reducible apply State.clearJobRegs_same | with_reducible apply State.setDebug_same
                | with_reducible apply State.dropJob_same | with_reducible apply State.scrubDevice_same

theorem State.failUnlock_same (s : State) (k : Nat) (m : Msg) (hM : within 69468162 M = true) (h_s : s.same M z) :
    (State.failUnlock s k m).same M z := by
  unfold State.failUnlock
  repeat' first | with_reducible assumption | exact Or.inl (within_bit hM (by decide)) | with_reducible exact Or.inr rfl
                | exact within_trans (by decide) hM | with_reducible apply State.bump_same
                | with_reducible apply State.denied_same | simp only [same_mk] | with_reducible apply Same.of

theorem State.unlocked_same (s : State) (level : Nat) (hM : within 35651586 M = true) (h_s : s.same M z) :
    (State.unlocked s level).same M z := by
  unfold State.unlocked
  repeat' first | with_reducible assumption | exact Or.inl (within_bit hM (by decide)) | with_reducible exact Or.inr rfl
                | exact within_trans (by decide) hM | intro _ | with_reducible apply same_ite
                | with_reducible apply State.drawNonce_same | with_reducible apply State.setDebug_same | simp only [same_mk]
                | with_reducible apply Same.of

theorem State.d2Ends_same (s : State) (hM : within 64 M = true) (h_s : s.same M z) : (State.d2Ends s).same M z := by
  unfold State.d2Ends
  repeat' first | with_reducible assumption | intro _ | with_reducible apply same_ite
                | with_reducible apply State.onTick_same

theorem State.markTick_same (s : State) (k : Nat) (m : Msg) (halt : Bool) (hM : within 67371074 M = true) (h_s : s.same M z) :
    (State.markTick s k m halt).same M z := by
  unfold State.markTick
  repeat' first | with_reducible assumption | exact within_trans (by decide) hM | with_reducible apply State.done_same
                | with_reducible apply State.reject_same | with_reducible apply State.onTick_same
                | with_reducible apply State.denied_same | split

theorem State.coherence_same (s : State) (tx : Tx) (op : Nat) (f : State → State) (hM : within 67239938 M = true)
    (h_s : s.same M z) (h_f : ∀ x0, x0.same M z → (f x0).same M z) :
    (State.coherence s tx op f).same M z := by
  unfold State.coherence
  repeat' first | with_reducible assumption | exact within_trans (by decide) hM | intro _ | with_reducible apply same_ite
                | with_reducible apply h_f | with_reducible apply State.malformed_same
                | with_reducible apply State.arrives_same

end Sys2Proof.Machine
end

