-- ==== Sys2Proof/Laws/SameCommands.lean ====
section
/-! SUPPORT. What security, power states, the host interface, restore, replays and the sideband leave as it is, by the parts of the state (Laws/Same.lean). -/
namespace Sys2Proof.Machine

variable {M : Nat} {z : State}

theorem State.onMram_same (s : State) (f : Mram → Mram) (hM : within 1048576 M = true) (h_s : s.same M z) :
    (State.onMram s f).same M z := by
  unfold State.onMram
  repeat' first | with_reducible assumption | exact Or.inl (within_bit hM (by decide)) | with_reducible exact Or.inr rfl
                | simp only [same_mk] | with_reducible apply Same.of

theorem State.setSlotFw_same (s : State) (i : Nat) (x : FwSlot) (hM : within 1048578 M = true) (h_s : s.same M z) :
    (State.setSlotFw s i x).same M z := by
  unfold State.setSlotFw
  repeat' first | with_reducible assumption | exact within_trans (by decide) hM | with_reducible apply State.refreshFw_same
                | with_reducible apply State.onMram_same

theorem State.startSource_same (s : State) (k : Nat) (m : Msg) (ext : List Byte) (f : State → State)
    (hM : within 67371010 M = true) (h_s : s.same M z) (h_f : ∀ x0, x0.same M z → (f x0).same M z) :
    (State.startSource s k m ext f).same M z := by
  unfold State.startSource
  repeat' first | with_reducible assumption | exact within_trans (by decide) hM | intro _ | with_reducible apply same_ite
                | with_reducible apply h_f | with_reducible apply State.send_same | with_reducible apply State.reject_same
                | with_reducible apply State.startLongExt_same | with_reducible apply State.storageMoved_same

theorem State.endFwStage_same (s : State) (l : Long) (hM : within 101974018 M = true) (h_s : s.same M z) :
    (State.endFwStage s l).same M z := by
  unfold State.endFwStage
  repeat' first | with_reducible assumption | exact within_trans (by decide) hM | intro _ | with_reducible apply same_ite
                | with_reducible apply State.endLong_same | with_reducible apply State.setSlotFw_same

theorem State.endFwActivate_same (s : State) (l : Long) (hM : within 110362626 M = true) (h_s : s.same M z) :
    (State.endFwActivate s l).same M z := by
  unfold State.endFwActivate
  repeat' first | with_reducible assumption | exact within_trans (by decide) hM | with_reducible apply State.endLong_same
                | with_reducible apply State.onBoard_same | with_reducible apply State.onMram_same

theorem State.endConfigWrite_same (s : State) (l : Long) (hM : within 101974018 M = true) (h_s : s.same M z) :
    (State.endConfigWrite s l).same M z := by
  unfold State.endConfigWrite
  repeat' first | with_reducible assumption | exact within_trans (by decide) hM | with_reducible apply State.endLong_same
                | with_reducible apply State.onMram_same | split

theorem State.setPstate_same (s : State) (t : Nat) (hM : within 2 M = true) (h_s : s.same M z) :
    (State.setPstate s t).same M z := by
  unfold State.setPstate
  repeat' first | with_reducible assumption | with_reducible apply State.setFld_same

theorem State.enterRetention_same (s : State) (hM : within 101154926 M = true) (h_s : s.same M z) :
    (State.enterRetention s).same M z := by
  unfold State.enterRetention
  repeat' first | with_reducible assumption | exact Or.inl (within_bit hM (by decide)) | with_reducible exact Or.inr rfl
                | intro _ | with_reducible apply same_ite | with_reducible apply State.portDown_same | simp only [same_mk]
                | with_reducible apply Same.of | with_reducible apply same_foldl

theorem State.enterStandby_same (s : State) (t : Nat) (hM : within 8650754 M = true) (h_s : s.same M z) :
    (State.enterStandby s t).same M z := by
  unfold State.enterStandby
  repeat' first | with_reducible assumption | exact within_trans (by decide) hM | intro _ | with_reducible apply same_ite
                | with_reducible apply State.onHost_same | with_reducible apply State.setDebug_same
                | with_reducible apply State.onBoard_same

theorem State.endPowerState_same (s : State) (l : Long) (hM : within 109543534 M = true) (h_s : s.same M z) :
    (State.endPowerState s l).same M z := by
  unfold State.endPowerState
  repeat' first | with_reducible assumption | exact within_trans (by decide) hM | intro _ | with_reducible apply same_ite
                | with_reducible apply State.endLong_same | with_reducible apply State.trainPort_same
                | with_reducible apply State.setPstate_same | with_reducible apply State.enterRetention_same
                | with_reducible apply State.enterStandby_same | with_reducible apply same_foldl

theorem State.testCoreOut_same (s : State) (die phys : Nat) (hM : within 118884418 M = true) (h_s : s.same M z) :
    (State.testCoreOut s die phys).same M z := by
  unfold State.testCoreOut
  repeat' first | with_reducible assumption | exact within_trans (by decide) hM | with_reducible apply State.setFld_same
                | with_reducible apply State.bump_same | with_reducible apply State.logFault_same
                | with_reducible apply State.endDevice_same | with_reducible apply State.refreshDie_same
                | with_reducible apply State.retireCore_same | simp only [same_mk] | split

theorem State.testEngineOut_same (s : State) (st e : Nat) (hM : within 102107202 M = true) (h_s : s.same M z) :
    (State.testEngineOut s st e).same M z := by
  unfold State.testEngineOut
  repeat' first | with_reducible assumption | exact Or.inl (within_bit hM (by decide)) | with_reducible exact Or.inr rfl
                | exact within_trans (by decide) hM | intro _ | with_reducible apply same_ite
                | with_reducible apply State.logFault_same | with_reducible apply State.endDeviceOther_same
                | with_reducible apply State.refreshMarrow_same | with_reducible apply State.evacuate_same
                | simp only [same_mk] | with_reducible apply Same.of

theorem State.testOut_same (s : State) (u : TestUnit) (hM : within 118917186 M = true) (h_s : s.same M z) :
    (State.testOut s u).same M z := by
  unfold State.testOut
  repeat' first | with_reducible assumption | exact within_trans (by decide) hM | with_reducible apply State.setPort_same
                | with_reducible apply State.logFault_same | with_reducible apply State.rowFails_same
                | with_reducible apply State.onTests_same | with_reducible apply State.testCoreOut_same
                | with_reducible apply State.testEngineOut_same | split

theorem State.endSelfTest_same (s : State) (l : Long) (hM : within 118917186 M = true) (h_s : s.same M z) :
    (State.endSelfTest s l).same M z := by
  unfold State.endSelfTest
  repeat' first | with_reducible assumption | exact within_trans (by decide) hM | intro _ | with_reducible apply same_ite
                | with_reducible apply State.endLong_same | with_reducible apply State.endDeviceOther_same
                | with_reducible apply State.onTests_same | with_reducible apply State.trainPort_same
                | with_reducible apply State.testOut_same | with_reducible apply same_foldl

theorem State.targetStatus_same (s : State) (i v : Nat) (hM : within 262144 M = true) (h_s : s.same M z) :
    (State.targetStatus s i v).same M z := by
  unfold State.targetStatus
  repeat' first | with_reducible assumption | with_reducible apply State.onHost_same | split

theorem State.failLong_same (s : State) (l : Long) (status detail : Nat) (hM : within 101179758 M = true) (h_s : s.same M z) :
    (State.failLong s l status detail).same M z := by
  unfold State.failLong
  repeat' first | with_reducible assumption | exact within_trans (by decide) hM | intro _ | with_reducible apply same_ite
                | with_reducible apply State.endLong_same | with_reducible apply State.failCheckpoint_same
                | with_reducible apply State.endExport_same | with_reducible apply State.unbind_same
                | with_reducible apply State.failRestore_same

theorem State.post_same (s : State) (k : Nat) (hM : within 262146 M = true) (h_s : s.same M z) : (State.post s k).same M z := by
  unfold State.post
  repeat' first | with_reducible assumption | exact within_trans (by decide) hM | with_reducible apply State.onHost_same
                | with_reducible apply State.setMbx_same | with_reducible apply State.setBusy_same

theorem State.ring_same (s : State) (k : Nat) (hM : within 262146 M = true) (h_s : s.same M z) : (State.ring s k).same M z := by
  unfold State.ring
  repeat' first | with_reducible assumption | exact within_trans (by decide) hM | intro _ | with_reducible apply same_ite
                | with_reducible apply State.bump_same | with_reducible apply State.post_same

theorem State.writePage_same (s : State) (k offset : Nat) (data : List Byte) (hM : within 262146 M = true)
    (h_s : s.same M z) :
    (State.writePage s k offset data).same M z := by
  unfold State.writePage
  repeat' first | with_reducible assumption | exact within_trans (by decide) hM | intro _ | with_reducible apply same_ite
                | with_reducible apply State.bump_same | with_reducible apply State.setPage_same

theorem State.clearDone_same (s : State) (mask : Nat) (hM : within 67371010 M = true) (h_s : s.same M z) :
    (State.clearDone s mask).same M z := by
  unfold State.clearDone
  repeat' first | with_reducible assumption | exact within_trans (by decide) hM | intro _ | with_reducible apply same_ite
                | with_reducible apply State.setMbx_same | with_reducible apply State.setDone_same
                | with_reducible apply same_foldl

theorem State.carryOut_same (s : State) (l : Long) (hM : within 127926142 M = true) (h_s : s.same M z) :
    (State.carryOut s l).same M z := by
  unfold State.carryOut
  repeat' first | with_reducible assumption | exact within_trans (by decide) hM | intro _
                | with_reducible apply State.setFld_same | with_reducible apply State.endLong_same
                | with_reducible apply State.storageMoved_same | with_reducible apply State.endExport_same
                | with_reducible apply State.endAdmit_same | with_reducible apply State.hardRepair_same
                | with_reducible apply State.endRestore_same | with_reducible apply State.failRestore_same
                | with_reducible apply same_ite
                | with_reducible apply State.finishReset_same | with_reducible apply State.endFwStage_same
                | with_reducible apply State.endFwActivate_same | with_reducible apply State.endConfigWrite_same
                | with_reducible apply State.endPowerState_same | with_reducible apply State.endSelfTest_same
                | with_reducible apply same_foldl | split

theorem State.endBadly_same (s : State) (l : Long) (e : Ending) (hM : within 101179758 M = true) (h_s : s.same M z) :
    (State.endBadly s l e).same M z := by
  unfold State.endBadly
  repeat' first | with_reducible assumption | exact within_trans (by decide) hM | with_reducible apply State.postEvent_same
                | with_reducible apply State.targetStatus_same | with_reducible apply State.failLong_same | split

theorem State.ownReset_same (s : State) (l : Long) (hM : within 102664270 M = true) (h_s : s.same M z) :
    (State.ownReset s l).same M z := by
  unfold State.ownReset
  repeat' first | with_reducible assumption | exact within_trans (by decide) hM | intro _ | with_reducible apply same_ite
                | with_reducible apply State.onHost_same | with_reducible apply State.finishReset_same

theorem State.writeEvtCtrl_same (s : State) (v : Nat) (hM : within 100925442 M = true) (h_s : s.same M z) :
    (State.writeEvtCtrl s v).same M z := by
  unfold State.writeEvtCtrl
  repeat' first | with_reducible assumption | exact within_trans (by decide) hM | intro _ | with_reducible apply same_ite
                | with_reducible apply State.setReg_same | with_reducible apply State.setFld_same
                | with_reducible apply State.flushEvents_same

theorem State.writeEvtHead_same (s : State) (v : Nat) (hM : within 100925442 M = true) (h_s : s.same M z) :
    (State.writeEvtHead s v).same M z := by
  unfold State.writeEvtHead
  repeat' first | with_reducible assumption | exact within_trans (by decide) hM | with_reducible apply State.setReg_same
                | with_reducible apply State.flushEvents_same

theorem State.bar0Read_same (s : State) (a : Bar0Access) (hM : within 67108866 M = true) (h_s : s.same M z) :
    (State.bar0Read s a).same M z := by
  unfold State.bar0Read
  repeat' first | with_reducible assumption | exact within_trans (by decide) hM | intro _ | with_reducible apply same_ite
                | with_reducible apply State.bump_same | with_reducible apply State.send_same

theorem State.writeHalf_same (s : State) (key : Nat) (high : Bool) (mask v : Nat) (hM : within 2 M = true)
    (h_s : s.same M z) :
    (State.writeHalf s key high mask v).same M z := by
  unfold State.writeHalf
  repeat' first | with_reducible assumption | with_reducible apply State.setReg_same

theorem State.writeMsix_same (s : State) (i v : Nat) (hM : within 67371008 M = true) (h_s : s.same M z) :
    (State.writeMsix s i v).same M z := by
  unfold State.writeMsix
  repeat' first | with_reducible assumption | exact within_trans (by decide) hM | intro _ | with_reducible apply same_ite
                | with_reducible apply State.signalVector_same | with_reducible apply State.onHost_same

theorem State.writeWord_same (s : State) (o v : Nat) (hM : within 100925442 M = true) (h_s : s.same M z) :
    (State.writeWord s o v).same M z := by
  unfold State.writeWord
  repeat' first | with_reducible assumption | exact within_trans (by decide) hM | intro _ | with_reducible apply same_ite
                | with_reducible apply State.ring_same | with_reducible apply State.clearDone_same
                | with_reducible apply State.writeEvtCtrl_same | with_reducible apply State.writeEvtHead_same
                | with_reducible apply State.writeHalf_same | with_reducible apply State.writeMsix_same

theorem State.pageWrite_same (s : State) (k : Nat) (a : Bar0Access) (hM : within 262146 M = true) (h_s : s.same M z) :
    (State.pageWrite s k a).same M z := by
  unfold State.pageWrite
  repeat' first | with_reducible assumption | intro _ | with_reducible apply same_ite
                | with_reducible apply State.writePage_same

theorem State.bar0Write_same (s : State) (a : Bar0Access) (hM : within 100925442 M = true) (h_s : s.same M z) :
    (State.bar0Write s a).same M z := by
  unfold State.bar0Write
  repeat' first | with_reducible assumption | exact within_trans (by decide) hM | intro _ | with_reducible apply same_ite
                | with_reducible apply State.bump_same | with_reducible apply State.writeWord_same
                | with_reducible apply State.pageWrite_same

theorem State.hostFault_same (s : State) (status a : Nat) (hM : within 100925442 M = true) (h_s : s.same M z) :
    (State.hostFault s status a).same M z := by
  unfold State.hostFault
  repeat' first | with_reducible assumption | exact within_trans (by decide) hM | intro _ | with_reducible apply same_ite
                | with_reducible apply State.bump_same | with_reducible apply State.postEvent_same
                | with_reducible apply State.onHost_same

theorem State.bar2Write_same (s : State) (offset : Nat) (data : List Byte) (hM : within 101154894 M = true)
    (h_s : s.same M z) :
    (State.bar2Write s offset data).same M z := by
  unfold State.bar2Write
  repeat' first | with_reducible assumption | exact within_trans (by decide) hM | intro _ | with_reducible apply same_ite
                | with_reducible apply State.write_same | with_reducible apply State.hostFault_same

theorem State.hostDrop_same (s : State) (q : Nat) (noRoom : Bool) (hM : within 100925442 M = true) (h_s : s.same M z) :
    (State.hostDrop s q noRoom).same M z := by
  unfold State.hostDrop
  repeat' first | with_reducible assumption | exact within_trans (by decide) hM | intro _ | with_reducible apply same_ite
                | with_reducible apply State.bump_same | with_reducible apply State.postEvent_same

theorem State.hostPiece_same (s : State) (offset : Nat) (bs : List Byte) (hM : within 101179758 M = true) (h_s : s.same M z) :
    (State.hostPiece s offset bs).same M z := by
  unfold State.hostPiece
  repeat' first | with_reducible assumption | exact within_trans (by decide) hM | intro _ | with_reducible apply same_ite
                | with_reducible apply State.ask_same | with_reducible apply State.hostDrop_same

theorem State.carryWrite_same (s : State) (w : HostWrite) (hM : within 101179758 M = true) (h_s : s.same M z) :
    (State.carryWrite s w).same M z := by
  unfold State.carryWrite
  repeat' first | with_reducible assumption | exact within_trans (by decide) hM | with_reducible apply State.ring_same
                | with_reducible apply State.writePage_same | with_reducible apply State.clearDone_same
                | with_reducible apply State.writeEvtCtrl_same | with_reducible apply State.writeEvtHead_same
                | with_reducible apply State.bar0Write_same | with_reducible apply State.bar2Write_same
                | with_reducible apply State.hostPiece_same | split

theorem State.postWrite_same (s : State) (w : HostWrite) (hM : within 101179758 M = true) (h_s : s.same M z) :
    (State.postWrite s w).same M z := by
  unfold State.postWrite
  repeat' first | with_reducible assumption | exact within_trans (by decide) hM | intro _ | with_reducible apply same_ite
                | with_reducible apply State.onHost_same | with_reducible apply State.carryWrite_same

theorem State.releasePosted_same (s : State) (hM : within 101179758 M = true) (h_s : s.same M z) :
    (State.releasePosted s).same M z := by
  unfold State.releasePosted
  repeat' first | with_reducible assumption | exact within_trans (by decide) hM | intro _
                | with_reducible apply State.onHost_same | with_reducible apply State.postWrite_same
                | with_reducible apply same_foldl

theorem State.takeWrite_same (s : State) (w : HostWrite) (hM : within 101179758 M = true) (h_s : s.same M z) :
    (State.takeWrite s w).same M z := by
  unfold State.takeWrite
  repeat' first | with_reducible assumption | intro _ | with_reducible apply same_ite
                | with_reducible apply State.postWrite_same | with_reducible apply State.releasePosted_same

theorem State.failHostReq_same (s : State) (id req : Nat) (hM : within 101179758 M = true) (h_s : s.same M z) :
    (State.failHostReq s id req).same M z := by
  unfold State.failHostReq
  repeat' first | with_reducible assumption | with_reducible apply State.requestDone_same | split

theorem State.failHostWindow_same (s : State) (hM : within 101179758 M = true) (h_s : s.same M z) :
    (State.failHostWindow s).same M z := by
  unfold State.failHostWindow
  repeat' first | with_reducible assumption | intro _ | with_reducible apply State.failHostReq_same
                | with_reducible apply same_foldl

theorem State.resetFunction_same (s : State) (hM : within 262146 M = true) (h_s : s.same M z) :
    (State.resetFunction s).same M z := by
  unfold State.resetFunction
  repeat' first | with_reducible assumption | exact within_trans (by decide) hM | with_reducible apply State.setReg_same
                | with_reducible apply State.setFld_same | with_reducible apply State.onHost_same

theorem State.functionReset_same (s : State) (hM : within 101711742 M = true) (h_s : s.same M z) :
    (State.functionReset s).same M z := by
  unfold State.functionReset
  repeat' first | with_reducible assumption | exact within_trans (by decide) hM | intro _ | with_reducible apply same_ite
                | with_reducible apply State.onHost_same | with_reducible apply State.beginReset_same
                | with_reducible apply State.failHostWindow_same | with_reducible apply State.resetFunction_same

theorem State.resendKept_same (s : State) (d : Datagram) (r : List Byte) (hM : within 67108864 M = true) (h_s : s.same M z) :
    (State.resendKept s d r).same M z := by
  unfold State.resendKept
  repeat' first | with_reducible assumption | intro _ | with_reducible apply same_ite | with_reducible apply State.send_same

theorem State.takeRemote_same (s : State) (d : Datagram) (k key : Nat) (msg : List Byte) (counter : Nat)
    (hM : within 67371010 M = true) (h_s : s.same M z) :
    (State.takeRemote s d k key msg counter).same M z := by
  unfold State.takeRemote
  repeat' first | with_reducible assumption | exact within_trans (by decide) hM | intro _ | with_reducible apply same_ite
                | with_reducible apply State.bump_same | with_reducible apply State.onHost_same
                | with_reducible apply State.setPage_same | with_reducible apply State.setDone_same
                | with_reducible apply State.post_same | with_reducible apply State.resendKept_same

theorem State.goOnAll_same (s : State) (hM : within 101179758 M = true) (h_s : s.same M z) : (State.goOnAll s).same M z := by
  unfold State.goOnAll
  repeat' first | with_reducible assumption | with_reducible apply State.releaseHeld_same
                | with_reducible apply State.releasePosted_same

theorem State.dropHeld_same (s : State) (q : Nat) (hM : within 100933634 M = true) (h_s : s.same M z) :
    (State.dropHeld s q).same M z := by
  unfold State.dropHeld
  repeat' first | with_reducible assumption | exact within_trans (by decide) hM | with_reducible apply State.bump64_same
                | with_reducible apply State.setQueue_same | with_reducible apply State.hostDrop_same

theorem State.sealTile_same (s : State) (t : Nat) (hM : within 8 M = true) (h_s : s.same M z) :
    (State.sealTile s t).same M z := by
  unfold State.sealTile
  repeat' first | with_reducible assumption | with_reducible apply State.setTag_same

theorem State.restorePiece_same (s : State) (p : Piece) (rs : List (Nat × Nat × SourceRec)) (hM : within 67338318 M = true)
    (h_s : s.same M z) :
    (State.restorePiece s p rs).same M z := by
  unfold State.restorePiece
  repeat' first | with_reducible assumption | exact within_trans (by decide) hM | intro _ | with_reducible apply same_ite
                | with_reducible apply State.write_same | with_reducible apply State.sealTile_same
                | with_reducible apply same_foldl

theorem State.restoreContext_same (s : State) (bs : List Byte) (hM : within 2 M = true) (h_s : s.same M z) :
    (State.restoreContext s bs).same M z := by
  unfold State.restoreContext
  repeat' first | with_reducible assumption | intro _ | with_reducible apply State.setCount_same
                | with_reducible apply same_foldl

theorem State.restoreQueues_same (s : State) (ps : List Piece) (hM : within 8192 M = true) (h_s : s.same M z) :
    (State.restoreQueues s ps).same M z := by
  unfold State.restoreQueues
  repeat' first | with_reducible assumption | intro _ | with_reducible apply same_ite
                | with_reducible apply State.setQueue_same | with_reducible apply same_foldl

theorem State.keepOutcome_same (s : State) (f : Failure) (hM : within 262146 M = true) (h_s : s.same M z) :
    (State.keepOutcome s f).same M z := by
  unfold State.keepOutcome
  repeat' first | with_reducible assumption | exact within_trans (by decide) hM | with_reducible apply State.onHost_same
                | with_reducible apply State.setFld_same

theorem State.restore_same (s : State) (j : Job) (plan : List Byte) (bytes : Nat → List Byte)
    (hM : within 101163086 M = true) (h_s : s.same M z) :
    (State.restore s j plan bytes).same M z := by
  unfold State.restore
  repeat' first | with_reducible assumption | exact within_trans (by decide) hM | intro _
                | with_reducible apply State.setReg_same | with_reducible apply State.restorePiece_same
                | with_reducible apply State.restoreContext_same | with_reducible apply State.restoreQueues_same
                | with_reducible apply State.keepOutcome_same
                | with_reducible apply same_foldl | split

theorem State.restoreRead_same (s : State) (plan : List Byte) (sources : List (List Byte)) (hM : within 262144 M = true)
    (h_s : s.same M z) :
    (State.restoreRead s plan sources).same M z := by
  unfold State.restoreRead
  repeat' first | with_reducible assumption | intro _ | with_reducible apply same_ite
                | with_reducible apply State.storageMoved_same | with_reducible apply same_foldl

theorem runOp_same (s : State) (o : InFlight) (hM : within 101179758 M = true) (h_s : s.same M z) : (runOp s o).1.same M z := by
  unfold runOp
  repeat' first | with_reducible assumption | exact within_trans (by decide) hM | intro _
                | with_reducible apply matrixRun_same | with_reducible apply vopRun_same
                | with_reducible apply setvlRun_same | with_reducible apply xferRun_same
                | with_reducible apply mstreamRun_same | with_reducible apply mstencilRun_same
                | with_reducible apply mreduceRun_same | with_reducible apply mindexRun_same
                | with_reducible apply mindexBody_same | with_reducible apply mtileRun_same
                | with_reducible apply collRun_same | simp only [same_mk] | split

theorem runBody_same (s : State) (o : InFlight) (hM : within 101179758 M = true) (h_s : s.same M z) :
    (runBody s o).1.same M z := by
  unfold runBody
  repeat' first | with_reducible assumption | exact within_trans (by decide) hM | with_reducible apply matrixBody_same
                | with_reducible apply vopBody_same | with_reducible apply setvlRun_same
                | with_reducible apply xferBody_same | with_reducible apply marrowBody_same
                | with_reducible apply collRun_same | simp only [same_mk] | split

theorem State.startNext_same (s : State) (l : ListId) (u : Nat) (n_ : Nat) (hM : within 101179758 M = true)
    (h_s : s.same M z) :
    (State.startNext s l u n_).same M z := by
  induction n_ generalizing s l u with
  | zero =>
    unfold State.startNext
    repeat' first | with_reducible assumption
  | succ n ih =>
    unfold State.startNext
    repeat' first | with_reducible assumption | exact within_trans (by decide) hM | with_reducible apply ih
                  | with_reducible apply State.setOp_same | with_reducible apply runOp_same | split

theorem State.startQueued_same (s : State) (o : InFlight) (hM : within 101179758 M = true) (h_s : s.same M z) :
    (State.startQueued s o).same M z := by
  unfold State.startQueued
  repeat' first | with_reducible assumption | with_reducible apply State.startNext_same

theorem State.tileRecovered_same (s0 : State) (o : InFlight) (tile flag : Nat) (hM : within 102230382 M = true)
    (h_s0 : s0.same M z) :
    (State.tileRecovered s0 o tile flag).same M z := by
  unfold State.tileRecovered
  repeat' first | with_reducible assumption | exact within_trans (by decide) hM | intro _ | with_reducible apply same_ite
                | with_reducible apply State.setOp_same | with_reducible apply State.drive_same
                | with_reducible apply State.absorbTile_same | with_reducible apply runBody_same
                | with_reducible apply State.startQueued_same

theorem State.tileLost_same (s : State) (o : InFlight) (tile : Nat) (hM : within 101179758 M = true) (h_s : s.same M z) :
    (State.tileLost s o tile).same M z := by
  unfold State.tileLost
  repeat' first | with_reducible assumption | exact within_trans (by decide) hM | with_reducible apply State.putOp_same
                | with_reducible apply State.startQueued_same

theorem State.jump_same (s : State) (l : ListId) (cur target : Nat) (hM : within 34 M = true) (h_s : s.same M z) :
    (State.jump s l cur target).same M z := by
  unfold State.jump
  repeat' first | with_reducible assumption | exact Or.inl (within_bit hM (by decide)) | with_reducible exact Or.inr rfl
                | exact within_trans (by decide) hM | intro _ | with_reducible apply same_ite
                | with_reducible apply State.setFld_same | simp only [same_mk] | with_reducible apply Same.of

theorem State.spdm_same (s : State) (code p1 p2 : Nat) (content : List Byte) (hM : within 67108864 M = true)
    (h_s : s.same M z) :
    (State.spdm s code p1 p2 content).same M z := by
  unfold State.spdm
  repeat' first | with_reducible assumption | with_reducible apply State.send_same

theorem State.spdmError_same (s : State) (code : Nat) (hM : within 67108864 M = true) (h_s : s.same M z) :
    (State.spdmError s code).same M z := by
  unfold State.spdmError
  repeat' first | with_reducible assumption | with_reducible apply State.spdm_same

theorem State.onSpdm_same (s : State) (f : State → State) (hM : within 0 M = true) (h_s : s.same M z)
    (h_f : ∀ x0, x0.same M z → (f x0).same M z) :
    Result.same M z (State.onSpdm s f) := by
  unfold State.onSpdm
  repeat' first | with_reducible assumption | intro _ | with_reducible apply same_next | with_reducible apply same_ite
                | with_reducible apply h_f

theorem State.signSpdm_same (s : State) (code p1 p2 : Nat) (before after nonce asked : List Byte)
    (hM : within 69206016 M = true) (h_s : s.same M z) :
    (State.signSpdm s code p1 p2 before after nonce asked).same M z := by
  unfold State.signSpdm
  repeat' first | with_reducible assumption | exact Or.inl (within_bit hM (by decide)) | with_reducible exact Or.inr rfl
                | exact within_trans (by decide) hM | with_reducible apply State.send_same | simp only [same_mk]
                | with_reducible apply Same.of

theorem State.largeSpdm_same (s : State) (bytes : List Byte) (hM : within 102760448 M = true) (h_s : s.same M z) :
    (State.largeSpdm s bytes).same M z := by
  unfold State.largeSpdm
  repeat' first | with_reducible assumption | exact Or.inl (within_bit hM (by decide)) | with_reducible exact Or.inr rfl
                | exact within_trans (by decide) hM | with_reducible apply State.upTo_same
                | with_reducible apply State.spdm_same | simp only [same_mk] | with_reducible apply Same.of

theorem State.jtagTake_same (s : State) (i : Nat) (f : State → State) (hM : within 8388608 M = true) (h_s : s.same M z)
    (h_f : ∀ x0, x0.same M z → (f x0).same M z) :
    Result.same M z (State.jtagTake s i f) := by
  unfold State.jtagTake
  repeat' first | with_reducible assumption | intro _ | with_reducible apply same_next | with_reducible apply same_ite
                | with_reducible apply h_f | with_reducible apply State.onBoard_same

end Sys2Proof.Machine
end

