-- ==== Sys2Proof/Laws/SameExec.lean ====
section
/-! SUPPORT. What each command leaves as it is, by the parts of the state (Laws/Same.lean). -/
namespace Sys2Proof.Machine

variable {M : Nat} {z : State}

theorem execVop_same (l : ListId) (r : OpRecord) (s : State) (hM : within 100892782 M = true) (h_s : s.same M z) :
    Result.same M z (execVop l r s) := by
  unfold execVop
  repeat' first | with_reducible assumption | exact within_trans (by decide) hM | intro _ | with_reducible apply same_ifUnit
                | with_reducible apply same_ite | with_reducible apply State.issueOp_same | with_reducible apply vopRun_same

theorem execSetvl_same (l : ListId) (r : OpRecord) (s : State) (hM : within 34 M = true) (h_s : s.same M z) :
    Result.same M z (execSetvl l r s) := by
  unfold execSetvl
  repeat' first | with_reducible assumption | intro _ | with_reducible apply same_ifUnit | with_reducible apply same_ite
                | with_reducible apply State.issueOp_same | with_reducible apply setvlRun_same

theorem execXferCopy_same (l : ListId) (r : OpRecord) (s : State) (hM : within 101179758 M = true) (h_s : s.same M z) :
    Result.same M z (execXferCopy l r s) := by
  unfold execXferCopy
  repeat' first | with_reducible assumption | with_reducible apply same_ifUnit | with_reducible apply State.issueXfer_same

theorem execXferStridedCopy_same (l : ListId) (r : OpRecord) (s : State) (hM : within 101179758 M = true) (h_s : s.same M z) :
    Result.same M z (execXferStridedCopy l r s) := by
  unfold execXferStridedCopy
  repeat' first | with_reducible assumption | with_reducible apply same_ifUnit | with_reducible apply State.issueXfer_same

theorem execXferEnqueue_same (l : ListId) (r : OpRecord) (s : State) (hM : within 101179758 M = true) (h_s : s.same M z) :
    Result.same M z (execXferEnqueue l r s) := by
  unfold execXferEnqueue
  repeat' first | with_reducible assumption | with_reducible apply same_ifUnit | with_reducible apply State.issueXfer_same

theorem execXferDequeue_same (l : ListId) (r : OpRecord) (s : State) (hM : within 101179758 M = true) (h_s : s.same M z) :
    Result.same M z (execXferDequeue l r s) := by
  unfold execXferDequeue
  repeat' first | with_reducible assumption | with_reducible apply same_ifUnit | with_reducible apply State.issueXfer_same

theorem execXferAtomic_same (l : ListId) (r : OpRecord) (s : State) (hM : within 101179758 M = true) (h_s : s.same M z) :
    Result.same M z (execXferAtomic l r s) := by
  unfold execXferAtomic
  repeat' first | with_reducible assumption | with_reducible apply same_ifUnit | with_reducible apply State.issueXfer_same

theorem execXferFill_same (l : ListId) (r : OpRecord) (s : State) (hM : within 101179758 M = true) (h_s : s.same M z) :
    Result.same M z (execXferFill l r s) := by
  unfold execXferFill
  repeat' first | with_reducible assumption | with_reducible apply same_ifUnit | with_reducible apply State.issueXfer_same

theorem execMstream_same (l : ListId) (r : OpRecord) (s : State) (hM : within 101179758 M = true) (h_s : s.same M z) :
    Result.same M z (execMstream l r s) := by
  unfold execMstream
  repeat' first | with_reducible assumption | exact within_trans (by decide) hM | intro _ | with_reducible apply same_ifUnit
                | with_reducible apply mstreamRun_same | with_reducible apply State.issueMarrow_same

theorem execMstencil_same (l : ListId) (r : OpRecord) (s : State) (hM : within 67338350 M = true) (h_s : s.same M z) :
    Result.same M z (execMstencil l r s) := by
  unfold execMstencil
  repeat' first | with_reducible assumption | exact within_trans (by decide) hM | intro _ | with_reducible apply same_ifUnit
                | with_reducible apply mstencilRun_same | with_reducible apply State.issueMarrow_same

theorem execMreduce_same (l : ListId) (r : OpRecord) (s : State) (hM : within 67338350 M = true) (h_s : s.same M z) :
    Result.same M z (execMreduce l r s) := by
  unfold execMreduce
  repeat' first | with_reducible assumption | exact within_trans (by decide) hM | intro _ | with_reducible apply same_ifUnit
                | with_reducible apply mreduceRun_same | with_reducible apply State.issueMarrow_same

theorem execMindexGather_same (l : ListId) (r : OpRecord) (s : State) (hM : within 67338350 M = true) (h_s : s.same M z) :
    Result.same M z (execMindexGather l r s) := by
  unfold execMindexGather
  repeat' first | with_reducible assumption | exact within_trans (by decide) hM | intro _ | with_reducible apply same_ifUnit
                | with_reducible apply mindexGatherBody_same | with_reducible apply mindexRun_same
                | with_reducible apply State.issueMarrow_same

theorem execMindexScatter_same (l : ListId) (r : OpRecord) (s : State) (hM : within 67338350 M = true) (h_s : s.same M z) :
    Result.same M z (execMindexScatter l r s) := by
  unfold execMindexScatter
  repeat' first | with_reducible assumption | exact within_trans (by decide) hM | intro _ | with_reducible apply same_ifUnit
                | with_reducible apply mindexScatterBody_same | with_reducible apply mindexRun_same
                | with_reducible apply State.issueMarrow_same

theorem execMindexAtomicScatter_same (l : ListId) (r : OpRecord) (s : State) (hM : within 67338350 M = true)
    (h_s : s.same M z) :
    Result.same M z (execMindexAtomicScatter l r s) := by
  unfold execMindexAtomicScatter
  repeat' first | with_reducible assumption | exact within_trans (by decide) hM | intro _ | with_reducible apply same_ifUnit
                | with_reducible apply mindexAtomicBody_same | with_reducible apply mindexRun_same
                | with_reducible apply State.issueMarrow_same

theorem execMtileSeal_same (l : ListId) (r : OpRecord) (s : State) (hM : within 67338350 M = true) (h_s : s.same M z) :
    Result.same M z (execMtileSeal l r s) := by
  unfold execMtileSeal
  repeat' first | with_reducible assumption | exact within_trans (by decide) hM | intro _ | with_reducible apply same_ifUnit
                | with_reducible apply mtileRun_same | with_reducible apply State.issueMarrow_same

theorem execMtileVerify_same (l : ListId) (r : OpRecord) (s : State) (hM : within 67338350 M = true) (h_s : s.same M z) :
    Result.same M z (execMtileVerify l r s) := by
  unfold execMtileVerify
  repeat' first | with_reducible assumption | exact within_trans (by decide) hM | intro _ | with_reducible apply same_ifUnit
                | with_reducible apply mtileRun_same | with_reducible apply State.issueMarrow_same

theorem execMtileZeroFill_same (l : ListId) (r : OpRecord) (s : State) (hM : within 67338350 M = true) (h_s : s.same M z) :
    Result.same M z (execMtileZeroFill l r s) := by
  unfold execMtileZeroFill
  repeat' first | with_reducible assumption | exact within_trans (by decide) hM | intro _ | with_reducible apply same_ifUnit
                | with_reducible apply mtileRun_same | with_reducible apply State.issueMarrow_same

theorem execMtileMigrate_same (l : ListId) (r : OpRecord) (s : State) (hM : within 67338350 M = true) (h_s : s.same M z) :
    Result.same M z (execMtileMigrate l r s) := by
  unfold execMtileMigrate
  repeat' first | with_reducible assumption | exact within_trans (by decide) hM | intro _ | with_reducible apply same_ifUnit
                | with_reducible apply mtileRun_same | with_reducible apply State.issueMarrow_same

theorem execPtpMessage_same (m : PtpMsg) (s : State) (hM : within 101056706 M = true) (h_s : s.same M z) :
    Result.same M z (execPtpMessage m s) := by
  unfold execPtpMessage
  repeat' first | with_reducible assumption | exact within_trans (by decide) hM | with_reducible apply same_ifUnit
                | with_reducible apply State.send_same | with_reducible apply State.hearClock_same
                | with_reducible apply State.ptpOffset_same | split

theorem execPtpSyncSend_same (p : Nat) (s : State) (hM : within 67108864 M = true) (h_s : s.same M z) :
    Result.same M z (execPtpSyncSend p s) := by
  unfold execPtpSyncSend
  repeat' first | with_reducible assumption | intro _ | with_reducible apply same_ifUnit | with_reducible apply same_ite
                | with_reducible apply State.send_same

theorem execDelayRequestSend_same (p : Nat) (s : State) (hM : within 67108864 M = true) (h_s : s.same M z) :
    Result.same M z (execDelayRequestSend p s) := by
  unfold execDelayRequestSend
  repeat' first | with_reducible assumption | intro _ | with_reducible apply same_ifUnit | with_reducible apply same_ite
                | with_reducible apply State.send_same

theorem execFabricTimeSend_same (s : State) (hM : within 67239938 M = true) (h_s : s.same M z) :
    Result.same M z (execFabricTimeSend s) := by
  unfold execFabricTimeSend
  repeat' first | with_reducible assumption | intro _ | with_reducible apply same_next | with_reducible apply same_ite
                | with_reducible apply State.sendTime_same

theorem execTimeTransaction_same (p lead : Nat) (offset : Int) (locked : Bool) (s : State) (hM : within 101056706 M = true)
    (h_s : s.same M z) :
    Result.same M z (execTimeTransaction p lead offset locked s) := by
  unfold execTimeTransaction
  repeat' first | with_reducible assumption | exact Or.inl (within_bit hM (by decide)) | with_reducible exact Or.inr rfl
                | exact within_trans (by decide) hM | intro _ | with_reducible apply same_ifUnit
                | with_reducible apply same_ite | with_reducible apply State.setFld_same
                | with_reducible apply State.timeFault_same | with_reducible apply State.measure_same
                | with_reducible apply State.loseTime_same | with_reducible apply State.sendTime_same | simp only [same_mk]
                | with_reducible apply Same.of

theorem execLeadConflictExpiry_same (s : State) (hM : within 130 M = true) (h_s : s.same M z) :
    Result.same M z (execLeadConflictExpiry s) := by
  unfold execLeadConflictExpiry
  repeat' first | with_reducible assumption | exact Or.inl (within_bit hM (by decide)) | with_reducible exact Or.inr rfl
                | exact within_trans (by decide) hM | with_reducible apply same_next
                | with_reducible apply State.setFld_same | with_reducible apply State.at__same | simp only [same_mk]
                | with_reducible apply Same.of | split

theorem execLinkDelayMeasurement_same (p ns : Nat) (s : State) (hM : within 2 M = true) (h_s : s.same M z) :
    Result.same M z (execLinkDelayMeasurement p ns s) := by
  unfold execLinkDelayMeasurement
  repeat' first | with_reducible assumption | with_reducible apply same_ifUnit | with_reducible apply State.setFld_same

theorem execTimeSourceLoss_same (i : TimeInput) (s : State) (hM : within 194 M = true) (h_s : s.same M z) :
    Result.same M z (execTimeSourceLoss i s) := by
  unfold execTimeSourceLoss
  repeat' first | with_reducible assumption | exact Or.inl (within_bit hM (by decide)) | with_reducible exact Or.inr rfl
                | exact within_trans (by decide) hM | with_reducible apply same_next
                | with_reducible apply State.setFld_same | with_reducible apply State.loseTime_same | simp only [same_mk]
                | with_reducible apply Same.of | split

theorem execTime1ppsEdge_same (tenMhzPresent spacingOk : Bool) (offset : Int) (s : State) (hM : within 100925634 M = true)
    (h_s : s.same M z) :
    Result.same M z (execTime1ppsEdge tenMhzPresent spacingOk offset s) := by
  unfold execTime1ppsEdge
  repeat' first | with_reducible assumption | exact within_trans (by decide) hM | intro _ | with_reducible apply same_next
                | with_reducible apply same_ite | with_reducible apply State.setFld_same
                | with_reducible apply State.measure_same | with_reducible apply State.loseTime_same

theorem execPpsOutEdge_same (s : State) (hM : within 67108866 M = true) (h_s : s.same M z) :
    Result.same M z (execPpsOutEdge s) := by
  unfold execPpsOutEdge
  repeat' first | with_reducible assumption | exact within_trans (by decide) hM | intro _ | with_reducible apply same_next
                | with_reducible apply same_ite | with_reducible apply State.at__same | with_reducible apply State.send_same

theorem execCheckpointCapture_same (s : State) (hM : within 67346510 M = true) (h_s : s.same M z) :
    Result.same M z (execCheckpointCapture s) := by
  unfold execCheckpointCapture
  repeat' first | with_reducible assumption | exact within_trans (by decide) hM | intro _ | with_reducible apply same_next
                | with_reducible apply same_ite | with_reducible apply State.setReg_same
                | with_reducible apply State.setFld_same | with_reducible apply State.send_same
                | with_reducible apply State.onCkpt_same | with_reducible apply State.captureQueue_same
                | with_reducible apply State.setSlot_same | with_reducible apply State.toModule_same
                | with_reducible apply State.writeManifest_same | with_reducible apply same_foldl

theorem execParsnipGranuleDone_same (granule : Nat) (s : State) (hM : within 101179758 M = true) (h_s : s.same M z) :
    Result.same M z (execParsnipGranuleDone granule s) := by
  unfold execParsnipGranuleDone
  repeat' first | with_reducible assumption | exact within_trans (by decide) hM | with_reducible apply same_next
                | with_reducible apply State.setReg_same | with_reducible apply State.bump32_same
                | with_reducible apply State.send_same | with_reducible apply State.goOn_same
                | with_reducible apply State.onCkpt_same | with_reducible apply State.setSlot_same
                | with_reducible apply State.toModule_same | with_reducible apply State.writeManifest_same | split

theorem execCheckpointCommit_same (s : State) (hM : within 100990978 M = true) (h_s : s.same M z) :
    Result.same M z (execCheckpointCommit s) := by
  unfold execCheckpointCommit
  repeat' first | with_reducible assumption | exact within_trans (by decide) hM | with_reducible apply same_next
                | with_reducible apply State.ckpIdle_same
                | with_reducible apply State.setFld_same | with_reducible apply State.endLongCode_same
                | with_reducible apply State.onCkpt_same | with_reducible apply State.setSlot_same | split

theorem execModuleCommandTimeout_same (s : State) (hM : within 101179758 M = true) (h_s : s.same M z) :
    Result.same M z (execModuleCommandTimeout s) := by
  unfold execModuleCommandTimeout
  repeat' first | with_reducible assumption | exact within_trans (by decide) hM | intro _ | with_reducible apply same_next
                | with_reducible apply same_ite | with_reducible apply State.upTo_same
                | with_reducible apply State.failCheckpoint_same | with_reducible apply State.endExport_same

theorem execCkpStart_same (k : Nat) (s : State) (hM : within 100990978 M = true) (h_s : s.same M z) :
    Result.same M z (execCkpStart k s) := by
  unfold execCkpStart
  repeat' first | with_reducible assumption | exact within_trans (by decide) hM | intro _ | with_reducible apply same_ifUnit
                | with_reducible apply State.setFld_same | with_reducible apply State.reject_same
                | with_reducible apply State.wrongState_same | with_reducible apply State.badField_same
                | with_reducible apply State.command_same | with_reducible apply State.startLong_same
                | with_reducible apply State.onCkpt_same | split

theorem execCkpStatus_same (k : Nat) (s : State) (hM : within 100925442 M = true) (h_s : s.same M z) :
    Result.same M z (execCkpStatus k s) := by
  unfold execCkpStatus
  repeat' first | with_reducible assumption | exact within_trans (by decide) hM | intro _ | with_reducible apply same_ifUnit
                | with_reducible apply State.done_same | with_reducible apply State.plain_same

theorem execCkpAbandon_same (k : Nat) (s : State) (hM : within 101179758 M = true) (h_s : s.same M z) :
    Result.same M z (execCkpAbandon k s) := by
  unfold execCkpAbandon
  repeat' first | with_reducible assumption | exact within_trans (by decide) hM | intro _ | with_reducible apply same_ifUnit
                | with_reducible apply same_ite | with_reducible apply State.done_same
                | with_reducible apply State.wrongState_same | with_reducible apply State.plain_same
                | with_reducible apply State.failCheckpoint_same

theorem execCkpExport_same (k : Nat) (s : State) (hM : within 100990978 M = true) (h_s : s.same M z) :
    Result.same M z (execCkpExport k s) := by
  unfold execCkpExport
  repeat' first | with_reducible assumption | exact within_trans (by decide) hM | intro _ | with_reducible apply same_ifUnit
                | with_reducible apply same_ite | with_reducible apply State.setFld_same
                | with_reducible apply State.send_same | with_reducible apply State.reject_same
                | with_reducible apply State.command_same | with_reducible apply State.startLong_same
                | with_reducible apply State.onCkpt_same

theorem execCkpManifestRead_same (k : Nat) (s : State) (hM : within 100925442 M = true) (h_s : s.same M z) :
    Result.same M z (execCkpManifestRead k s) := by
  unfold execCkpManifestRead
  repeat' first | with_reducible assumption | exact within_trans (by decide) hM | intro _ | with_reducible apply same_ifUnit
                | with_reducible apply same_ite | with_reducible apply State.done_same
                | with_reducible apply State.reject_same | with_reducible apply State.command_same

theorem execCkpDiscard_same (k : Nat) (s : State) (hM : within 100990978 M = true) (h_s : s.same M z) :
    Result.same M z (execCkpDiscard k s) := by
  unfold execCkpDiscard
  repeat' first | with_reducible assumption | exact within_trans (by decide) hM | intro _ | with_reducible apply same_ifUnit
                | with_reducible apply same_ite | with_reducible apply State.send_same
                | with_reducible apply State.done_same | with_reducible apply State.wrongState_same
                | with_reducible apply State.command_same | with_reducible apply State.setSlot_same

theorem execMeasurementFrame_same (d : Datagram) (s : State) (hM : within 101179758 M = true) (h_s : s.same M z) :
    Result.same M z (execMeasurementFrame d s) := by
  unfold execMeasurementFrame
  repeat' first | with_reducible assumption | exact Or.inl (within_bit hM (by decide)) | with_reducible exact Or.inr rfl
                | exact within_trans (by decide) hM | intro _ | with_reducible apply same_ifUnit
                | with_reducible apply same_ite | with_reducible apply State.at__same
                | with_reducible apply State.dropFrame_same | with_reducible apply State.takeFrame_same
                | simp only [same_mk] | with_reducible apply Same.of

theorem execActuationFrameSend_same (stream : Nat) (s : State) (hM : within 67379522 M = true) (h_s : s.same M z) :
    Result.same M z (execActuationFrameSend stream s) := by
  unfold execActuationFrameSend
  repeat' first | with_reducible assumption | exact within_trans (by decide) hM | intro _ | with_reducible apply same_ifUnit
                | with_reducible apply State.at__same | with_reducible apply State.takeActuation_same
                | with_reducible apply same_foldl | split

theorem execArpRequest_same (q : NetQuery) (s : State) (hM : within 67108864 M = true) (h_s : s.same M z) :
    Result.same M z (execArpRequest q s) := by
  unfold execArpRequest
  repeat' first | with_reducible assumption | intro _ | with_reducible apply same_ifUnit | with_reducible apply same_ite
                | with_reducible apply State.send_same

theorem execNeighbourDiscovery_same (q : NetQuery) (s : State) (hM : within 67108864 M = true) (h_s : s.same M z) :
    Result.same M z (execNeighbourDiscovery q s) := by
  unfold execNeighbourDiscovery
  repeat' first | with_reducible assumption | intro _ | with_reducible apply same_ifUnit | with_reducible apply same_ite
                | with_reducible apply State.send_same

theorem execIcmpEcho_same (q : NetQuery) (s : State) (hM : within 67108864 M = true) (h_s : s.same M z) :
    Result.same M z (execIcmpEcho q s) := by
  unfold execIcmpEcho
  repeat' first | with_reducible assumption | intro _ | with_reducible apply same_ifUnit | with_reducible apply same_ite
                | with_reducible apply State.send_same

theorem execCollectiveAllReduce_same (l : ListId) (r : OpRecord) (s : State) (hM : within 101179758 M = true)
    (h_s : s.same M z) :
    Result.same M z (execCollectiveAllReduce l r s) := by
  unfold execCollectiveAllReduce
  repeat' first | with_reducible assumption | with_reducible apply same_ifUnit | with_reducible apply State.issueColl_same

theorem execCollectiveReduceToRoot_same (l : ListId) (r : OpRecord) (s : State) (hM : within 101179758 M = true)
    (h_s : s.same M z) :
    Result.same M z (execCollectiveReduceToRoot l r s) := by
  unfold execCollectiveReduceToRoot
  repeat' first | with_reducible assumption | with_reducible apply same_ifUnit | with_reducible apply State.issueColl_same

theorem execCollectiveBroadcast_same (l : ListId) (r : OpRecord) (s : State) (hM : within 101179758 M = true)
    (h_s : s.same M z) :
    Result.same M z (execCollectiveBroadcast l r s) := by
  unfold execCollectiveBroadcast
  repeat' first | with_reducible assumption | with_reducible apply same_ifUnit | with_reducible apply State.issueColl_same

theorem execCollectiveAllGather_same (l : ListId) (r : OpRecord) (s : State) (hM : within 101179758 M = true)
    (h_s : s.same M z) :
    Result.same M z (execCollectiveAllGather l r s) := by
  unfold execCollectiveAllGather
  repeat' first | with_reducible assumption | with_reducible apply same_ifUnit | with_reducible apply State.issueColl_same

theorem execCollectiveBarrier_same (l : ListId) (r : OpRecord) (s : State) (hM : within 101179758 M = true)
    (h_s : s.same M z) :
    Result.same M z (execCollectiveBarrier l r s) := by
  unfold execCollectiveBarrier
  repeat' first | with_reducible assumption | with_reducible apply same_ifUnit | with_reducible apply State.issueColl_same

theorem execCollectiveContribution_same (tx : Tx) (s : State) (hM : within 101179758 M = true) (h_s : s.same M z) :
    Result.same M z (execCollectiveContribution tx s) := by
  unfold execCollectiveContribution
  repeat' first | with_reducible assumption | exact within_trans (by decide) hM | intro _ | with_reducible apply same_next
                | with_reducible apply State.reply_same | with_reducible apply State.mark_same
                | with_reducible apply State.serveRequest_same | with_reducible apply State.takeContribution_same
                | simp only [id]

theorem execFabricReply_same (tx : Tx) (s : State) (hM : within 101179758 M = true) (h_s : s.same M z) :
    Result.same M z (execFabricReply tx s) := by
  unfold execFabricReply
  repeat' first | with_reducible assumption | exact within_trans (by decide) hM | intro _ | with_reducible apply same_next
                | with_reducible apply State.bump64_same | with_reducible apply State.malformed_same
                | with_reducible apply State.arrives_same | with_reducible apply State.afterReply_same
                | with_reducible apply State.takeAnswer_same | split

theorem execReplyDeadline_same (peer seq : Nat) (s : State) (hM : within 102230382 M = true) (h_s : s.same M z) :
    Result.same M z (execReplyDeadline peer seq s) := by
  unfold execReplyDeadline
  repeat' first | with_reducible assumption | exact within_trans (by decide) hM | with_reducible apply same_next
                | with_reducible apply State.at__same | with_reducible apply State.resend_same
                | with_reducible apply State.markLost_same | with_reducible apply State.absorbWithin_same
                | with_reducible apply State.releaseHeld_same | with_reducible apply State.startCredits_same | split

theorem execPendingNoticeSend_same (peer : Nat) (s : State) (hM : within 67239938 M = true) (h_s : s.same M z) :
    Result.same M z (execPendingNoticeSend peer s) := by
  unfold execPendingNoticeSend
  repeat' first | with_reducible assumption | intro _ | with_reducible apply same_next | with_reducible apply same_ite
                | with_reducible apply State.sendTx_same

theorem execFabricWaitDeadline_same (peer : Nat) (s : State) (hM : within 101179758 M = true) (h_s : s.same M z) :
    Result.same M z (execFabricWaitDeadline peer s) := by
  unfold execFabricWaitDeadline
  repeat' first | with_reducible assumption | exact within_trans (by decide) hM | with_reducible apply same_next
                | with_reducible apply State.at__same | with_reducible apply State.markLost_same
                | with_reducible apply State.releaseHeld_same | with_reducible apply State.startCredits_same | split

theorem execPendingNotice_same (tx : Tx) (s : State) (hM : within 67239938 M = true) (h_s : s.same M z) :
    Result.same M z (execPendingNotice tx s) := by
  unfold execPendingNotice
  repeat' first | with_reducible assumption | exact within_trans (by decide) hM | intro _ | with_reducible apply same_next
                | with_reducible apply State.onFabric_same | with_reducible apply State.control_same

theorem execPeerManagement_same (tx : Tx) (s : State) (hM : within 67239938 M = true) (h_s : s.same M z) :
    Result.same M z (execPeerManagement tx s) := by
  unfold execPeerManagement
  repeat' first | with_reducible assumption | intro _ | with_reducible apply same_next
                | with_reducible apply State.control_same | simp only [id]

theorem execLostNotice_same (tx : Tx) (s : State) (hM : within 101179758 M = true) (h_s : s.same M z) :
    Result.same M z (execLostNotice tx s) := by
  unfold execLostNotice
  repeat' first | with_reducible assumption | exact within_trans (by decide) hM | intro _ | with_reducible apply same_next
                | with_reducible apply State.markLost_same | with_reducible apply State.control_same
                | with_reducible apply State.releaseHeld_same | with_reducible apply State.startCredits_same

theorem execCongestionNotice_same (tx : Tx) (s : State) (hM : within 67239938 M = true) (h_s : s.same M z) :
    Result.same M z (execCongestionNotice tx s) := by
  unfold execCongestionNotice
  repeat' first | with_reducible assumption | exact within_trans (by decide) hM | intro _ | with_reducible apply same_next
                | with_reducible apply same_ite | with_reducible apply State.bump64_same
                | with_reducible apply State.onFabric_same | with_reducible apply State.control_same
                | with_reducible apply State.endSpacing_same

theorem execCongestionNoticeExpiry_same (home : Nat) (s : State) (hM : within 67239938 M = true) (h_s : s.same M z) :
    Result.same M z (execCongestionNoticeExpiry home s) := by
  unfold execCongestionNoticeExpiry
  repeat' first | with_reducible assumption | exact within_trans (by decide) hM | with_reducible apply same_next
                | with_reducible apply State.at__same | with_reducible apply State.onFabric_same
                | with_reducible apply State.endSpacing_same | split

theorem execThrottleGap_same (home : Nat) (s : State) (hM : within 67239938 M = true) (h_s : s.same M z) :
    Result.same M z (execThrottleGap home s) := by
  unfold execThrottleGap
  repeat' first | with_reducible assumption | exact within_trans (by decide) hM | with_reducible apply same_next
                | with_reducible apply State.bump64_same | with_reducible apply State.at__same
                | with_reducible apply State.sendNext_same | split

theorem execPortStateAnnouncement_same (tx : Tx) (s : State) (hM : within 101179758 M = true) (h_s : s.same M z) :
    Result.same M z (execPortStateAnnouncement tx s) := by
  unfold execPortStateAnnouncement
  repeat' first | with_reducible assumption | exact within_trans (by decide) hM | intro _ | with_reducible apply same_next
                | with_reducible apply same_ite | with_reducible apply State.onFabric_same
                | with_reducible apply State.malformed_same | with_reducible apply State.arrives_same
                | with_reducible apply State.releaseHeld_same | with_reducible apply State.reroute_same

theorem execPowerEvaluation_same (watts : Nat) (s : State) (hM : within 67766338 M = true) (h_s : s.same M z) :
    Result.same M z (execPowerEvaluation watts s) := by
  unfold execPowerEvaluation
  repeat' first | with_reducible assumption | exact within_trans (by decide) hM | with_reducible apply same_next
                | with_reducible apply State.setFld_same | with_reducible apply State.refreshPower_same
                | with_reducible apply State.applyCap_same | with_reducible apply State.countEnergy_same
                | with_reducible apply State.balance_same

theorem execFastCurrentLimit_same (deciamps : Nat) (s : State) (hM : within 67766338 M = true) (h_s : s.same M z) :
    Result.same M z (execFastCurrentLimit deciamps s) := by
  unfold execFastCurrentLimit
  repeat' first | with_reducible assumption | exact within_trans (by decide) hM | intro _ | with_reducible apply same_next
                | with_reducible apply same_ite | with_reducible apply State.setFld_same
                | with_reducible apply State.bump64_same | with_reducible apply State.onPower_same
                | with_reducible apply State.refreshPower_same

theorem execFastLimitRelease_same (deciamps : Nat) (s : State) (hM : within 67766338 M = true) (h_s : s.same M z) :
    Result.same M z (execFastLimitRelease deciamps s) := by
  unfold execFastLimitRelease
  repeat' first | with_reducible assumption | exact within_trans (by decide) hM | with_reducible apply same_next
                | with_reducible apply State.setFld_same | with_reducible apply State.at__same
                | with_reducible apply State.onPower_same | with_reducible apply State.refreshPower_same
                | simp only [same_mk] | split

theorem execPwrBrakeAssert_same (s : State) (hM : within 67766338 M = true) (h_s : s.same M z) :
    Result.same M z (execPwrBrakeAssert s) := by
  unfold execPwrBrakeAssert
  repeat' first | with_reducible assumption | exact within_trans (by decide) hM | with_reducible apply same_next
                | with_reducible apply State.setFld_same | with_reducible apply State.onPower_same
                | with_reducible apply State.refreshPower_same

theorem execPwrBrakeRelease_same (s : State) (hM : within 67766338 M = true) (h_s : s.same M z) :
    Result.same M z (execPwrBrakeRelease s) := by
  unfold execPwrBrakeRelease
  repeat' first | with_reducible assumption | exact within_trans (by decide) hM | intro _ | with_reducible apply same_next
                | with_reducible apply same_ite | with_reducible apply State.setFld_same
                | with_reducible apply State.onPower_same | with_reducible apply State.refreshPower_same

theorem execBrakeHoldExpiry_same (s : State) (hM : within 67766338 M = true) (h_s : s.same M z) :
    Result.same M z (execBrakeHoldExpiry s) := by
  unfold execBrakeHoldExpiry
  repeat' first | with_reducible assumption | exact within_trans (by decide) hM | with_reducible apply same_next
                | with_reducible apply State.at__same | with_reducible apply State.onPower_same
                | with_reducible apply State.refreshPower_same | split

theorem execJunctionLimit_same (die celsius : Nat) (s : State) (hM : within 67766338 M = true) (h_s : s.same M z) :
    Result.same M z (execJunctionLimit die celsius s) := by
  unfold execJunctionLimit
  repeat' first | with_reducible assumption | exact within_trans (by decide) hM | intro _ | with_reducible apply same_ifUnit
                | with_reducible apply same_ite | with_reducible apply State.onPower_same
                | with_reducible apply State.refreshPower_same

theorem execLaneLoss_same (p lane : Nat) (_f : LaneFault) (s : State) (hM : within 102205550 M = true) (h_s : s.same M z) :
    Result.same M z (execLaneLoss p lane _f s) := by
  unfold execLaneLoss
  repeat' first | with_reducible assumption | exact within_trans (by decide) hM | intro _ | with_reducible apply same_ifUnit
                | with_reducible apply same_ite | with_reducible apply State.setPort_same
                | with_reducible apply State.absorbWithin_same | with_reducible apply State.portDown_same
                | with_reducible apply State.absorbPort_same | with_reducible apply State.endLaneTest_same
                | with_reducible apply State.retrainTo_same | with_reducible apply State.stopLaneTests_same

theorem execLaneRetrainDone_same (p : Nat) (s : State) (hM : within 101154926 M = true) (h_s : s.same M z) :
    Result.same M z (execLaneRetrainDone p s) := by
  unfold execLaneRetrainDone
  repeat' first | with_reducible assumption | exact within_trans (by decide) hM | intro _ | with_reducible apply same_ifUnit
                | with_reducible apply same_ite | with_reducible apply State.setFld_same
                | with_reducible apply State.bump64_same | with_reducible apply State.send_same
                | with_reducible apply State.setPort_same | with_reducible apply State.flushPort_same
                | with_reducible apply State.onRecord_same | with_reducible apply State.reroute_same
                | with_reducible apply State.announce_same

theorem execFlitReceive_same (p : Nat) (fec : FecResult) (flit : List Byte) (s : State) (hM : within 102205550 M = true)
    (h_s : s.same M z) :
    Result.same M z (execFlitReceive p fec flit s) := by
  unfold execFlitReceive
  repeat' first | with_reducible assumption | exact within_trans (by decide) hM | intro _ | with_reducible apply same_ifUnit
                | with_reducible apply same_ite | with_reducible apply State.bump64_same
                | with_reducible apply State.send_same | with_reducible apply State.linkAcked_same
                | with_reducible apply State.nakked_same | with_reducible apply State.takeFlit_same | split

theorem execLinkUp_same (p peer lanes : Nat) (s : State) (hM : within 101056514 M = true) (h_s : s.same M z) :
    Result.same M z (execLinkUp p peer lanes s) := by
  unfold execLinkUp
  repeat' first | with_reducible assumption | exact within_trans (by decide) hM | intro _ | with_reducible apply same_ifUnit
                | with_reducible apply same_ite | with_reducible apply State.setFld_same
                | with_reducible apply State.setPort_same | with_reducible apply State.noteSpares_same
                | with_reducible apply State.endLongCode_same | with_reducible apply State.announce_same

theorem execDieToDieReplay_same (link : Nat) (s : State) (hM : within 16777280 M = true) (h_s : s.same M z) :
    Result.same M z (execDieToDieReplay link s) := by
  unfold execDieToDieReplay
  repeat' first | with_reducible assumption | exact Or.inl (within_bit hM (by decide)) | with_reducible exact Or.inr rfl
                | exact within_trans (by decide) hM | with_reducible apply same_ifUnit
                | with_reducible apply State.onRecord_same | simp only [same_mk] | with_reducible apply Same.of

theorem execDieToDieLaneFailure_same (link module : Nat) (repairable : Bool) (s : State) (hM : within 118884418 M = true)
    (h_s : s.same M z) :
    Result.same M z (execDieToDieLaneFailure link module repairable s) := by
  unfold execDieToDieLaneFailure
  repeat' first | with_reducible assumption | exact Or.inl (within_bit hM (by decide)) | with_reducible exact Or.inr rfl
                | exact within_trans (by decide) hM | intro _ | with_reducible apply same_ifUnit
                | with_reducible apply same_ite | with_reducible apply State.logFault_same
                | with_reducible apply State.absorbWithin_same | with_reducible apply State.endDevice_same
                | with_reducible apply State.endDeviceOther_same | simp only [same_mk] | with_reducible apply Same.of

theorem execUndoCopyDone_same (granule : Nat) (s : State) (hM : within 101179758 M = true) (h_s : s.same M z) :
    Result.same M z (execUndoCopyDone granule s) := by
  unfold execUndoCopyDone
  repeat' first | with_reducible assumption | exact within_trans (by decide) hM | with_reducible apply same_next
                | with_reducible apply State.goOn_same | with_reducible apply State.onMemory_same | split

theorem execCbwCopyDone_same (granule : Nat) (s : State) (hM : within 101179758 M = true) (h_s : s.same M z) :
    Result.same M z (execCbwCopyDone granule s) := by
  unfold execCbwCopyDone
  repeat' first | with_reducible assumption | exact Or.inl (within_bit hM (by decide)) | with_reducible exact Or.inr rfl
                | with_reducible apply same_next | with_reducible apply State.goOn_same | simp only [same_mk]
                | with_reducible apply Same.of | split

theorem execScrub_same (st ch pc row addr : Nat) (f : ScrubFinding) (s : State) (hM : within 101877826 M = true)
    (h_s : s.same M z) :
    Result.same M z (execScrub st ch pc row addr f s) := by
  unfold execScrub
  repeat' first | with_reducible assumption | exact within_trans (by decide) hM | with_reducible apply same_ifUnit
                | with_reducible apply State.bump32_same | with_reducible apply State.onMemory_same
                | with_reducible apply State.rowFails_same | split

theorem execPageMigrationDone_same (st ch page : Nat) (s : State) (hM : within 32768 M = true) (h_s : s.same M z) :
    Result.same M z (execPageMigrationDone st ch page s) := by
  unfold execPageMigrationDone
  repeat' first | with_reducible assumption | intro _ | with_reducible apply same_ifUnit | with_reducible apply same_ite
                | with_reducible apply State.onMemory_same

theorem execChannelMigrationDone_same (st ch : Nat) (s : State) (hM : within 101877826 M = true) (h_s : s.same M z) :
    Result.same M z (execChannelMigrationDone st ch s) := by
  unfold execChannelMigrationDone
  repeat' first | with_reducible assumption | exact within_trans (by decide) hM | intro _ | with_reducible apply same_ifUnit
                | with_reducible apply same_ite | with_reducible apply State.setFld_same
                | with_reducible apply State.bump_same | with_reducible apply State.onMemory_same
                | with_reducible apply State.freePool_same | with_reducible apply State.mapStuck_same

theorem execThermalSample_same (st celsius : Nat) (s : State) (hM : within 101615682 M = true) (h_s : s.same M z) :
    Result.same M z (execThermalSample st celsius s) := by
  unfold execThermalSample
  repeat' first | with_reducible assumption | exact within_trans (by decide) hM | intro _ | with_reducible apply same_ifUnit
                | with_reducible apply same_ite | with_reducible apply State.setFld_same
                | with_reducible apply State.protectiveStop_same | with_reducible apply State.refreshPower_same
                | with_reducible apply State.noteCool_same | with_reducible apply State.enterStep_same

theorem execThermalStepExit_same (st : Nat) (s : State) (hM : within 67799106 M = true) (h_s : s.same M z) :
    Result.same M z (execThermalStepExit st s) := by
  unfold execThermalStepExit
  repeat' first | with_reducible assumption | exact within_trans (by decide) hM | intro _ | with_reducible apply same_ifUnit
                | with_reducible apply same_ite | with_reducible apply State.setFld_same
                | with_reducible apply State.at__same | with_reducible apply State.endSlow_same
                | with_reducible apply State.refreshPower_same | with_reducible apply State.onMemory_same
                | with_reducible apply State.noteCool_same | with_reducible apply State.enterStep_same | split

theorem execCoreRotationStart_same (n : Nat) (s : State) (hM : within 16777218 M = true) (h_s : s.same M z) :
    Result.same M z (execCoreRotationStart n s) := by
  unfold execCoreRotationStart
  repeat' first | with_reducible assumption | exact within_trans (by decide) hM | intro _ | with_reducible apply same_ifUnit
                | with_reducible apply State.startTest_same | with_reducible apply State.migrate_same | split

theorem execMigrationCopyDone_same (n : Nat) (s : State) (hM : within 119005550 M = true) (h_s : s.same M z) :
    Result.same M z (execMigrationCopyDone n s) := by
  unfold execMigrationCopyDone
  repeat' first | with_reducible assumption | exact within_trans (by decide) hM | with_reducible apply same_ifUnit
                | with_reducible apply State.setFld_same | with_reducible apply State.bump_same
                | with_reducible apply State.onTests_same | with_reducible apply State.refreshDie_same
                | with_reducible apply State.retireCore_same | with_reducible apply State.refreshCoreTest_same
                | with_reducible apply State.storesOpen_same | split

theorem execSpareCoreBistStart_same (die phys : Nat) (s : State) (hM : within 16777218 M = true) (h_s : s.same M z) :
    Result.same M z (execSpareCoreBistStart die phys s) := by
  unfold execSpareCoreBistStart
  repeat' first | with_reducible assumption | exact within_trans (by decide) hM | intro _ | with_reducible apply same_ifUnit
                | with_reducible apply State.onTests_same | with_reducible apply State.startTest_same

theorem execCoreBistDone_same (die phys : Nat) (v : Verdict) (s : State) (hM : within 85067842 M = true) (h_s : s.same M z) :
    Result.same M z (execCoreBistDone die phys v s) := by
  unfold execCoreBistDone
  repeat' first | with_reducible assumption | exact within_trans (by decide) hM | intro _ | with_reducible apply same_ifUnit
                | with_reducible apply same_ite | with_reducible apply State.onTests_same
                | with_reducible apply State.refreshDie_same | with_reducible apply State.retireCore_same
                | with_reducible apply State.unitTested_same | with_reducible apply State.testFailed_same
                | with_reducible apply State.refreshCoreTest_same | split

theorem execCoreCheckerFailure_same (die phys : Nat) (s : State) (hM : within 119007598 M = true) (h_s : s.same M z) :
    Result.same M z (execCoreCheckerFailure die phys s) := by
  unfold execCoreCheckerFailure
  repeat' first | with_reducible assumption | exact within_trans (by decide) hM | intro _ | with_reducible apply same_ifUnit
                | with_reducible apply same_ite | with_reducible apply State.setFld_same
                | with_reducible apply State.absorbWithin_same | with_reducible apply State.onTests_same
                | with_reducible apply State.retireCore_same | with_reducible apply State.refreshCoreTest_same
                | with_reducible apply State.stopCoreTests_same | with_reducible apply State.rescueCore_same | split

theorem execMarrowEngineTestStart_same (m : Nat) (s : State) (hM : within 16777218 M = true) (h_s : s.same M z) :
    Result.same M z (execMarrowEngineTestStart m s) := by
  unfold execMarrowEngineTestStart
  repeat' first | with_reducible assumption | exact within_trans (by decide) hM | intro _ | with_reducible apply same_ifUnit
                | with_reducible apply State.onTests_same | with_reducible apply State.startTest_same
                | with_reducible apply State.refreshMarrow_same

theorem execMarrowBistDone_same (m : Nat) (v : Verdict) (s : State) (hM : within 85067842 M = true) (h_s : s.same M z) :
    Result.same M z (execMarrowBistDone m v s) := by
  unfold execMarrowBistDone
  repeat' first | with_reducible assumption | exact Or.inl (within_bit hM (by decide)) | with_reducible exact Or.inr rfl
                | exact within_trans (by decide) hM | with_reducible apply same_ifUnit
                | with_reducible apply State.onTests_same | with_reducible apply State.setActive_same
                | with_reducible apply State.unitTested_same | with_reducible apply State.testFailed_same
                | with_reducible apply State.refreshMarrow_same | simp only [same_mk] | with_reducible apply Same.of | split

theorem execMarrowCheckerFailure_same (st phys : Nat) (s : State) (hM : within 118884418 M = true) (h_s : s.same M z) :
    Result.same M z (execMarrowCheckerFailure st phys s) := by
  unfold execMarrowCheckerFailure
  repeat' first | with_reducible assumption | exact Or.inl (within_bit hM (by decide)) | with_reducible exact Or.inr rfl
                | exact within_trans (by decide) hM | intro _ | with_reducible apply same_ifUnit
                | with_reducible apply same_ite | with_reducible apply State.logFault_same
                | with_reducible apply State.absorbWithin_same | with_reducible apply State.endDeviceOther_same
                | with_reducible apply State.onTests_same | with_reducible apply State.setActive_same
                | with_reducible apply State.refreshMarrow_same | with_reducible apply State.evacuate_same
                | simp only [same_mk] | with_reducible apply Same.of | with_reducible apply same_foldl

theorem execHbmPageTestStart_same (st ch page : Nat) (s : State) (hM : within 32770 M = true) (h_s : s.same M z) :
    Result.same M z (execHbmPageTestStart st ch page s) := by
  unfold execHbmPageTestStart
  repeat' first | with_reducible assumption | exact within_trans (by decide) hM | intro _ | with_reducible apply same_ifUnit
                | with_reducible apply State.setFld_same | with_reducible apply State.onMemory_same
                | with_reducible apply State.usePages_same | with_reducible apply State.startTest_same

theorem execHbmPageTestDone_same (st ch page : Nat) (v : Verdict) (s : State) (hM : within 118655042 M = true)
    (h_s : s.same M z) :
    Result.same M z (execHbmPageTestDone st ch page v s) := by
  unfold execHbmPageTestDone
  repeat' first | with_reducible assumption | exact within_trans (by decide) hM | with_reducible apply same_ifUnit
                | with_reducible apply State.bump_same | with_reducible apply State.onMemory_same
                | with_reducible apply State.freePool_same | with_reducible apply State.keepRetired_same
                | with_reducible apply State.setActive_same | with_reducible apply State.unitTested_same
                | with_reducible apply State.testFailed_same | split

theorem execLaneTestStart_same (p lane : Nat) (s : State) (hM : within 67239938 M = true) (h_s : s.same M z) :
    Result.same M z (execLaneTestStart p lane s) := by
  unfold execLaneTestStart
  repeat' first | with_reducible assumption | exact within_trans (by decide) hM | intro _ | with_reducible apply same_ifUnit
                | with_reducible apply State.setPort_same | with_reducible apply State.retrainTo_same
                | with_reducible apply State.startTest_same

theorem execLaneTestDone_same (p lane : Nat) (v : Verdict) (s : State) (hM : within 85067842 M = true) (h_s : s.same M z) :
    Result.same M z (execLaneTestDone p lane v s) := by
  unfold execLaneTestDone
  repeat' first | with_reducible assumption | exact within_trans (by decide) hM | intro _ | with_reducible apply same_ifUnit
                | with_reducible apply same_ite | with_reducible apply State.setPort_same
                | with_reducible apply State.retrainTo_same | with_reducible apply State.setActive_same
                | with_reducible apply State.unitTested_same | with_reducible apply State.testFailed_same | split

theorem execManagementMismatch_same (bist : Verdict) (s : State) (hM : within 118884418 M = true) (h_s : s.same M z) :
    Result.same M z (execManagementMismatch bist s) := by
  unfold execManagementMismatch
  repeat' first | with_reducible assumption | exact within_trans (by decide) hM | intro _ | with_reducible apply same_next
                | with_reducible apply same_ite | with_reducible apply State.logFault_same
                | with_reducible apply State.absorbWithin_same | with_reducible apply State.endDeviceOther_same
                | with_reducible apply State.onTests_same

theorem execServiceCoreFault_same (c : Nat) (s : State) (hM : within 101845058 M = true) (h_s : s.same M z) :
    Result.same M z (execServiceCoreFault c s) := by
  unfold execServiceCoreFault
  repeat' first | with_reducible assumption | with_reducible apply same_ifUnit
                | with_reducible apply State.absorbWithin_same

theorem execRestorationDone_same (s : State) (hM : within 67346542 M = true) (h_s : s.same M z) :
    Result.same M z (execRestorationDone s) := by
  unfold execRestorationDone
  repeat' first | with_reducible assumption | exact within_trans (by decide) hM | intro _ | with_reducible apply same_next
                | with_reducible apply same_ite | with_reducible apply State.startStep_same
                | with_reducible apply State.restoreUndo_same

theorem execOverrunDecision_same (s : State) (hM : within 101056578 M = true) (h_s : s.same M z) :
    Result.same M z (execOverrunDecision s) := by
  unfold execOverrunDecision
  repeat' first | with_reducible assumption | exact within_trans (by decide) hM | intro _ | with_reducible apply same_next
                | with_reducible apply same_ite | with_reducible apply State.at__same
                | with_reducible apply State.decideOverrun_same

theorem execOverrunTrigger_same (tx : Tx) (s : State) (hM : within 67240002 M = true) (h_s : s.same M z) :
    Result.same M z (execOverrunTrigger tx s) := by
  unfold execOverrunTrigger
  repeat' first | with_reducible assumption | exact within_trans (by decide) hM | intro _ | with_reducible apply same_next
                | with_reducible apply same_ite | with_reducible apply State.triggerPeers_same
                | with_reducible apply State.onTick_same | with_reducible apply State.trigger_same

theorem execJobStoppedTrigger_same (tx : Tx) (s : State) (hM : within 101056578 M = true) (h_s : s.same M z) :
    Result.same M z (execJobStoppedTrigger tx s) := by
  unfold execJobStoppedTrigger
  repeat' first | with_reducible assumption | exact within_trans (by decide) hM | intro _ | with_reducible apply same_next
                | with_reducible apply same_ite | with_reducible apply State.enterStopped_same
                | with_reducible apply State.trigger_same

theorem execTick_same (s : State) (hM : within 117941102 M = true) (h_s : s.same M z) : Result.same M z (execTick s) := by
  unfold execTick
  repeat' first | with_reducible assumption | exact within_trans (by decide) hM | intro _ | with_reducible apply same_next
                | with_reducible apply same_ite | with_reducible apply State.at__same
                | with_reducible apply State.recordFlag_same | with_reducible apply State.onTick_same
                | with_reducible apply State.latchQueues_same | with_reducible apply State.decideOverrun_same
                | with_reducible apply State.boundary_same | with_reducible apply State.skipTick_same
                | with_reducible apply State.startOrHalt_same | with_reducible apply State.abortAt_same

theorem execPhaseRelease_same (p : Nat) (s : State) (hM : within 2 M = true) (h_s : s.same M z) :
    Result.same M z (execPhaseRelease p s) := by
  unfold execPhaseRelease
  repeat' first | with_reducible assumption | intro _ | with_reducible apply same_ifUnit | with_reducible apply same_ite
                | with_reducible apply State.at__same | with_reducible apply State.releasePhase_same

theorem execPhaseWarning_same (p : Nat) (s : State) (hM : within 66 M = true) (h_s : s.same M z) :
    Result.same M z (execPhaseWarning p s) := by
  unfold execPhaseWarning
  repeat' first | with_reducible assumption | exact within_trans (by decide) hM | intro _ | with_reducible apply same_ifUnit
                | with_reducible apply same_ite | with_reducible apply State.at__same
                | with_reducible apply State.onRecord_same

theorem execPhaseLate_same (p : Nat) (s : State) (hM : within 66 M = true) (h_s : s.same M z) :
    Result.same M z (execPhaseLate p s) := by
  unfold execPhaseLate
  repeat' first | with_reducible assumption | exact within_trans (by decide) hM | intro _ | with_reducible apply same_ifUnit
                | with_reducible apply same_ite | with_reducible apply State.at__same
                | with_reducible apply State.onRecord_same

theorem execTickStopBoundary_same (s : State) (hM : within 101419086 M = true) (h_s : s.same M z) :
    Result.same M z (execTickStopBoundary s) := by
  unfold execTickStopBoundary
  repeat' first | with_reducible assumption | exact within_trans (by decide) hM | intro _ | with_reducible apply same_next
                | with_reducible apply same_ite | with_reducible apply State.at__same
                | with_reducible apply State.stopTick_same

theorem execTckCtrlRunClear_same (s : State) (hM : within 66 M = true) (h_s : s.same M z) :
    Result.same M z (execTckCtrlRunClear s) := by
  unfold execTckCtrlRunClear
  repeat' first | with_reducible assumption | exact within_trans (by decide) hM | intro _ | with_reducible apply same_next
                | with_reducible apply same_ite | with_reducible apply State.setFld_same
                | with_reducible apply State.onTick_same

theorem execEffectiveTickReached_same (s : State) (hM : within 131842 M = true) (h_s : s.same M z) :
    Result.same M z (execEffectiveTickReached s) := by
  unfold execEffectiveTickReached
  repeat' first | with_reducible assumption | exact within_trans (by decide) hM | intro _ | with_reducible apply same_next
                | with_reducible apply same_ite | with_reducible apply State.at__same
                | with_reducible apply State.applyChanges_same

theorem execStepHaltTick_same (s : State) (hM : within 66 M = true) (h_s : s.same M z) :
    Result.same M z (execStepHaltTick s) := by
  unfold execStepHaltTick
  repeat' first | with_reducible assumption | exact within_trans (by decide) hM | intro _ | with_reducible apply same_next
                | with_reducible apply same_ite | with_reducible apply State.setFld_same
                | with_reducible apply State.at__same | with_reducible apply State.onTick_same

theorem execStepResumeTick_same (s : State) (hM : within 66 M = true) (h_s : s.same M z) :
    Result.same M z (execStepResumeTick s) := by
  unfold execStepResumeTick
  repeat' first | with_reducible assumption | exact within_trans (by decide) hM | intro _ | with_reducible apply same_next
                | with_reducible apply same_ite | with_reducible apply State.setFld_same
                | with_reducible apply State.at__same | with_reducible apply State.onTick_same
                | with_reducible apply State.dropMarks_same

theorem execSlowNoticeRepeat_same (s : State) (hM : within 67242050 M = true) (h_s : s.same M z) :
    Result.same M z (execSlowNoticeRepeat s) := by
  unfold execSlowNoticeRepeat
  repeat' first | with_reducible assumption | exact Or.inl (within_bit hM (by decide)) | with_reducible exact Or.inr rfl
                | exact within_trans (by decide) hM | intro _ | with_reducible apply same_next
                | with_reducible apply State.sendSlow_same | simp only [same_mk] | with_reducible apply Same.of
                | with_reducible apply same_foldl

theorem execSlowNotice_same (tx : Tx) (s : State) (hM : within 67241026 M = true) (h_s : s.same M z) :
    Result.same M z (execSlowNotice tx s) := by
  unfold execSlowNotice
  repeat' first | with_reducible assumption | exact Or.inl (within_bit hM (by decide)) | with_reducible exact Or.inr rfl
                | exact within_trans (by decide) hM | intro _ | with_reducible apply same_next
                | with_reducible apply State.excursion_same | with_reducible apply State.onRecord_same
                | with_reducible apply State.control_same | simp only [same_mk] | with_reducible apply Same.of

theorem execSlowNoticeExpiry_same (src : Nat) (s : State) (hM : within 1026 M = true) (h_s : s.same M z) :
    Result.same M z (execSlowNoticeExpiry src s) := by
  unfold execSlowNoticeExpiry
  repeat' first | with_reducible assumption | exact Or.inl (within_bit hM (by decide)) | with_reducible exact Or.inr rfl
                | exact within_trans (by decide) hM | with_reducible apply same_next | with_reducible apply State.at__same
                | simp only [same_mk] | with_reducible apply Same.of | split

theorem execQueueStatus_same (k : Nat) (s : State) (hM : within 100925442 M = true) (h_s : s.same M z) :
    Result.same M z (execQueueStatus k s) := by
  unfold execQueueStatus
  repeat' first | with_reducible assumption | exact within_trans (by decide) hM | intro _ | with_reducible apply same_ifUnit
                | with_reducible apply State.done_same | with_reducible apply State.reject_same
                | with_reducible apply State.command_same | simp only [same_mk] | split

theorem execQueueEngineStatus_same (k : Nat) (s : State) (hM : within 100925442 M = true) (h_s : s.same M z) :
    Result.same M z (execQueueEngineStatus k s) := by
  unfold execQueueEngineStatus
  repeat' first | with_reducible assumption | exact within_trans (by decide) hM | intro _ | with_reducible apply same_ifUnit
                | with_reducible apply State.done_same | with_reducible apply State.command_same

theorem execTimeSetSource_same (k : Nat) (s : State) (hM : within 100925634 M = true) (h_s : s.same M z) :
    Result.same M z (execTimeSetSource k s) := by
  unfold execTimeSetSource
  repeat' first | with_reducible assumption | exact within_trans (by decide) hM | intro _ | with_reducible apply same_ifUnit
                | with_reducible apply same_ite | with_reducible apply State.done_same
                | with_reducible apply State.wrongState_same | with_reducible apply State.command_same
                | with_reducible apply State.takeSource_same

theorem execTimeStatus_same (k : Nat) (s : State) (hM : within 100925442 M = true) (h_s : s.same M z) :
    Result.same M z (execTimeStatus k s) := by
  unfold execTimeStatus
  repeat' first | with_reducible assumption | exact within_trans (by decide) hM | intro _ | with_reducible apply same_ifUnit
                | with_reducible apply State.done_same | with_reducible apply State.plain_same

theorem execTickArm_same (k : Nat) (s : State) (hM : within 101583170 M = true) (h_s : s.same M z) :
    Result.same M z (execTickArm k s) := by
  unfold execTickArm
  repeat' first | with_reducible assumption | exact within_trans (by decide) hM | intro _ | with_reducible apply same_ifUnit
                | with_reducible apply State.done_same | with_reducible apply State.reject_same
                | with_reducible apply State.wrongState_same | with_reducible apply State.badField_same
                | with_reducible apply State.command_same | with_reducible apply State.arm_same | split

theorem execTickStop_same (k : Nat) (s : State) (hM : within 100925506 M = true) (h_s : s.same M z) :
    Result.same M z (execTickStop k s) := by
  unfold execTickStop
  repeat' first | with_reducible assumption | exact within_trans (by decide) hM | intro _ | with_reducible apply same_ifUnit
                | with_reducible apply same_ite | with_reducible apply State.setFld_same
                | with_reducible apply State.done_same | with_reducible apply State.reject_same
                | with_reducible apply State.wrongState_same | with_reducible apply State.command_same
                | with_reducible apply State.onTick_same

theorem execTickStatus_same (k : Nat) (s : State) (hM : within 100925442 M = true) (h_s : s.same M z) :
    Result.same M z (execTickStatus k s) := by
  unfold execTickStatus
  repeat' first | with_reducible assumption | exact within_trans (by decide) hM | intro _ | with_reducible apply same_ifUnit
                | with_reducible apply State.done_same | with_reducible apply State.plain_same

theorem execStreamAdd_same (k : Nat) (s : State) (hM : within 100925954 M = true) (h_s : s.same M z) :
    Result.same M z (execStreamAdd k s) := by
  unfold execStreamAdd
  repeat' first | with_reducible assumption | exact within_trans (by decide) hM | intro _ | with_reducible apply same_ifUnit
                | with_reducible apply same_ite | with_reducible apply State.done_same
                | with_reducible apply State.reject_same | with_reducible apply State.wrongState_same
                | with_reducible apply State.badField_same | with_reducible apply State.command_same
                | with_reducible apply State.accept_same | split

theorem execStreamRemove_same (k : Nat) (s : State) (hM : within 100925954 M = true) (h_s : s.same M z) :
    Result.same M z (execStreamRemove k s) := by
  unfold execStreamRemove
  repeat' first | with_reducible assumption | exact within_trans (by decide) hM | intro _ | with_reducible apply same_ifUnit
                | with_reducible apply same_ite | with_reducible apply State.done_same
                | with_reducible apply State.reject_same | with_reducible apply State.wrongState_same
                | with_reducible apply State.command_same | with_reducible apply State.accept_same | split

theorem execStreamStatus_same (k : Nat) (s : State) (hM : within 100925442 M = true) (h_s : s.same M z) :
    Result.same M z (execStreamStatus k s) := by
  unfold execStreamStatus
  repeat' first | with_reducible assumption | exact within_trans (by decide) hM | intro _ | with_reducible apply same_ifUnit
                | with_reducible apply same_ite | with_reducible apply State.upTo_same
                | with_reducible apply State.done_same | with_reducible apply State.reject_same
                | with_reducible apply State.wrongState_same | with_reducible apply State.command_same | split

theorem execJobAdmit_same (k : Nat) (ext : List Byte) (s : State) (hM : within 100925442 M = true) (h_s : s.same M z) :
    Result.same M z (execJobAdmit k ext s) := by
  unfold execJobAdmit
  repeat' first | with_reducible assumption | exact within_trans (by decide) hM | intro _ | with_reducible apply same_ifUnit
                | with_reducible apply same_ite | with_reducible apply State.reject_same
                | with_reducible apply State.wrongState_same | with_reducible apply State.command_same
                | with_reducible apply State.startLongExt_same | with_reducible apply State.beginAdmit_same

theorem execJobStatus_same (k : Nat) (s : State) (hM : within 100925442 M = true) (h_s : s.same M z) :
    Result.same M z (execJobStatus k s) := by
  unfold execJobStatus
  repeat' first | with_reducible assumption | exact within_trans (by decide) hM | intro _ | with_reducible apply same_ifUnit
                | with_reducible apply State.done_same | with_reducible apply State.plain_same

theorem execJobReset_same (k : Nat) (s : State) (hM : within 101711742 M = true) (h_s : s.same M z) :
    Result.same M z (execJobReset k s) := by
  unfold execJobReset
  repeat' first | with_reducible assumption | exact within_trans (by decide) hM | intro _ | with_reducible apply same_ifUnit
                | with_reducible apply State.onHost_same | with_reducible apply State.answer_same
                | with_reducible apply State.plain_same | with_reducible apply State.beginReset_same

theorem execDevCapabilities_same (k : Nat) (s : State) (hM : within 100925442 M = true) (h_s : s.same M z) :
    Result.same M z (execDevCapabilities k s) := by
  unfold execDevCapabilities
  repeat' first | with_reducible assumption | exact within_trans (by decide) hM | intro _ | with_reducible apply same_ifUnit
                | with_reducible apply State.done_same | with_reducible apply State.plain_same

theorem execDevIdentify_same (k : Nat) (s : State) (hM : within 100925442 M = true) (h_s : s.same M z) :
    Result.same M z (execDevIdentify k s) := by
  unfold execDevIdentify
  repeat' first | with_reducible assumption | exact within_trans (by decide) hM | intro _ | with_reducible apply same_ifUnit
                | with_reducible apply State.done_same | with_reducible apply State.plain_same

theorem execDevStatus_same (k : Nat) (s : State) (hM : within 100925442 M = true) (h_s : s.same M z) :
    Result.same M z (execDevStatus k s) := by
  unfold execDevStatus
  repeat' first | with_reducible assumption | exact within_trans (by decide) hM | intro _ | with_reducible apply same_ifUnit
                | with_reducible apply State.done_same | with_reducible apply State.plain_same

theorem execNetConfig_same (k : Nat) (s : State) (hM : within 100925442 M = true) (h_s : s.same M z) :
    Result.same M z (execNetConfig k s) := by
  unfold execNetConfig
  repeat' first | with_reducible assumption | exact within_trans (by decide) hM | intro _ | with_reducible apply same_ifUnit
                | with_reducible apply same_ite | with_reducible apply State.onHost_same
                | with_reducible apply State.done_same | with_reducible apply State.wrongState_same
                | with_reducible apply State.command_same

theorem execStorageTargetSet_same (k : Nat) (s : State) (hM : within 100925442 M = true) (h_s : s.same M z) :
    Result.same M z (execStorageTargetSet k s) := by
  unfold execStorageTargetSet
  repeat' first | with_reducible assumption | exact within_trans (by decide) hM | intro _ | with_reducible apply same_ifUnit
                | with_reducible apply same_ite | with_reducible apply State.onHost_same
                | with_reducible apply State.done_same | with_reducible apply State.wrongState_same
                | with_reducible apply State.command_same | with_reducible apply State.connectTarget_same

theorem execStorageTargetStatus_same (k : Nat) (s : State) (hM : within 100925442 M = true) (h_s : s.same M z) :
    Result.same M z (execStorageTargetStatus k s) := by
  unfold execStorageTargetStatus
  repeat' first | with_reducible assumption | exact within_trans (by decide) hM | intro _ | with_reducible apply same_ifUnit
                | with_reducible apply State.done_same | with_reducible apply State.reject_same
                | with_reducible apply State.command_same | with_reducible apply State.freeBytes_same | split

theorem execStorageConnectionDone_same (target p : Nat) (ok : Bool) (s : State) (hM : within 262144 M = true)
    (h_s : s.same M z) :
    Result.same M z (execStorageConnectionDone target p ok s) := by
  unfold execStorageConnectionDone
  repeat' first | with_reducible assumption | with_reducible apply same_ifUnit | with_reducible apply State.onHost_same
                | split

theorem execNvmeKeepAlive_same (s : State) (hM : within 67108864 M = true) (h_s : s.same M z) :
    Result.same M z (execNvmeKeepAlive s) := by
  unfold execNvmeKeepAlive
  repeat' first | with_reducible assumption | intro _ | with_reducible apply same_next | with_reducible apply same_ite
                | with_reducible apply State.send_same | with_reducible apply same_foldl

theorem execFabricSetIdentity_same (k : Nat) (s : State) (hM : within 100925442 M = true) (h_s : s.same M z) :
    Result.same M z (execFabricSetIdentity k s) := by
  unfold execFabricSetIdentity
  repeat' first | with_reducible assumption | exact within_trans (by decide) hM | intro _ | with_reducible apply same_ifUnit
                | with_reducible apply same_ite | with_reducible apply State.setFld_same
                | with_reducible apply State.done_same | with_reducible apply State.wrongState_same
                | with_reducible apply State.command_same

theorem execFabricStatus_same (k : Nat) (s : State) (hM : within 100925442 M = true) (h_s : s.same M z) :
    Result.same M z (execFabricStatus k s) := by
  unfold execFabricStatus
  repeat' first | with_reducible assumption | exact within_trans (by decide) hM | intro _ | with_reducible apply same_ifUnit
                | with_reducible apply State.done_same | with_reducible apply State.plain_same

theorem execPeerAdd_same (k : Nat) (s : State) (hM : within 100925954 M = true) (h_s : s.same M z) :
    Result.same M z (execPeerAdd k s) := by
  unfold execPeerAdd
  repeat' first | with_reducible assumption | exact within_trans (by decide) hM | intro _ | with_reducible apply same_ifUnit
                | with_reducible apply same_ite | with_reducible apply State.done_same
                | with_reducible apply State.reject_same | with_reducible apply State.wrongState_same
                | with_reducible apply State.badField_same | with_reducible apply State.command_same
                | with_reducible apply State.accept_same | split

theorem execPeerRemove_same (k : Nat) (s : State) (hM : within 100925954 M = true) (h_s : s.same M z) :
    Result.same M z (execPeerRemove k s) := by
  unfold execPeerRemove
  repeat' first | with_reducible assumption | exact within_trans (by decide) hM | intro _ | with_reducible apply same_ifUnit
                | with_reducible apply same_ite | with_reducible apply State.done_same
                | with_reducible apply State.reject_same | with_reducible apply State.wrongState_same
                | with_reducible apply State.badField_same | with_reducible apply State.command_same
                | with_reducible apply State.accept_same | split

theorem execPeerStatus_same (k : Nat) (s : State) (hM : within 100925442 M = true) (h_s : s.same M z) :
    Result.same M z (execPeerStatus k s) := by
  unfold execPeerStatus
  repeat' first | with_reducible assumption | exact within_trans (by decide) hM | intro _ | with_reducible apply same_ifUnit
                | with_reducible apply same_ite | with_reducible apply State.done_same
                | with_reducible apply State.reject_same | with_reducible apply State.wrongState_same
                | with_reducible apply State.command_same | split

theorem execGroupSet_same (k : Nat) (ext : List Byte) (s : State) (hM : within 100925954 M = true) (h_s : s.same M z) :
    Result.same M z (execGroupSet k ext s) := by
  unfold execGroupSet
  repeat' first | with_reducible assumption | exact within_trans (by decide) hM | intro _ | with_reducible apply same_ifUnit
                | with_reducible apply same_ite | with_reducible apply State.send_same
                | with_reducible apply State.done_same | with_reducible apply State.reject_same
                | with_reducible apply State.wrongState_same | with_reducible apply State.badField_same
                | with_reducible apply State.command_same | with_reducible apply State.accept_same | split

theorem execRouteSetOptical_same (k : Nat) (s : State) (hM : within 101154926 M = true) (h_s : s.same M z) :
    Result.same M z (execRouteSetOptical k s) := by
  unfold execRouteSetOptical
  repeat' first | with_reducible assumption | exact within_trans (by decide) hM | intro _ | with_reducible apply same_ifUnit
                | with_reducible apply same_ite | with_reducible apply State.onFabric_same
                | with_reducible apply State.done_same | with_reducible apply State.wrongState_same
                | with_reducible apply State.command_same | with_reducible apply State.reroute_same

theorem execPortStatus_same (k : Nat) (s : State) (hM : within 100925442 M = true) (h_s : s.same M z) :
    Result.same M z (execPortStatus k s) := by
  unfold execPortStatus
  repeat' first | with_reducible assumption | exact within_trans (by decide) hM | intro _ | with_reducible apply same_ifUnit
                | with_reducible apply State.done_same | with_reducible apply State.command_same

theorem execPortRetrain_same (k : Nat) (s : State) (hM : within 101056514 M = true) (h_s : s.same M z) :
    Result.same M z (execPortRetrain k s) := by
  unfold execPortRetrain
  repeat' first | with_reducible assumption | exact within_trans (by decide) hM | intro _ | with_reducible apply same_ifUnit
                | with_reducible apply same_ite | with_reducible apply State.wrongState_same
                | with_reducible apply State.command_same | with_reducible apply State.startLong_same
                | with_reducible apply State.trainPort_same | with_reducible apply same_foldl

theorem execLaunchBroadcast_same (k : Nat) (s : State) (hM : within 101056514 M = true) (h_s : s.same M z) :
    Result.same M z (execLaunchBroadcast k s) := by
  unfold execLaunchBroadcast
  repeat' first | with_reducible assumption | exact within_trans (by decide) hM | intro _ | with_reducible apply same_ifUnit
                | with_reducible apply same_ite | with_reducible apply State.setLaunch_same
                | with_reducible apply State.launchHeldCheck_same | with_reducible apply State.wrongState_same
                | with_reducible apply State.command_same | with_reducible apply State.startLong_same

theorem execLaunchStatus_same (k : Nat) (s : State) (hM : within 100925442 M = true) (h_s : s.same M z) :
    Result.same M z (execLaunchStatus k s) := by
  unfold execLaunchStatus
  repeat' first | with_reducible assumption | exact within_trans (by decide) hM | intro _ | with_reducible apply same_ifUnit
                | with_reducible apply State.done_same | with_reducible apply State.reject_same
                | with_reducible apply State.command_same | split

theorem execLaunchChunkForward_same (id child : Nat) (s : State) (hM : within 101154926 M = true) (h_s : s.same M z) :
    Result.same M z (execLaunchChunkForward id child s) := by
  unfold execLaunchChunkForward
  repeat' first | with_reducible assumption | with_reducible apply same_next | with_reducible apply State.forwardChunk_same
                | split

theorem execLaunchHeartbeatSend_same (id : Nat) (s : State) (hM : within 67239938 M = true) (h_s : s.same M z) :
    Result.same M z (execLaunchHeartbeatSend id s) := by
  unfold execLaunchHeartbeatSend
  repeat' first | with_reducible assumption | intro _ | with_reducible apply same_next
                | with_reducible apply State.launchTx_same | with_reducible apply same_foldl | split

theorem execLaunchParentSilence_same (id : Nat) (s : State) (hM : within 101056514 M = true) (h_s : s.same M z) :
    Result.same M z (execLaunchParentSilence id s) := by
  unfold execLaunchParentSilence
  repeat' first | with_reducible assumption | exact within_trans (by decide) hM | with_reducible apply same_next
                | with_reducible apply State.at__same | with_reducible apply State.setLaunch_same
                | with_reducible apply State.launchEvent_same | with_reducible apply State.launchTx_same
                | with_reducible apply State.orphan_same | split

theorem execLaunchAdoptTimeout_same (id : Nat) (s : State) (hM : within 101056514 M = true) (h_s : s.same M z) :
    Result.same M z (execLaunchAdoptTimeout id s) := by
  unfold execLaunchAdoptTimeout
  repeat' first | with_reducible assumption | exact within_trans (by decide) hM | with_reducible apply same_next
                | with_reducible apply State.at__same | with_reducible apply State.orphan_same | split

theorem execLaunchHeartbeat_same (tx : Tx) (s : State) (hM : within 67239938 M = true) (h_s : s.same M z) :
    Result.same M z (execLaunchHeartbeat tx s) := by
  unfold execLaunchHeartbeat
  repeat' first | with_reducible assumption | exact within_trans (by decide) hM | intro _ | with_reducible apply same_next
                | with_reducible apply same_ite | with_reducible apply State.setLaunch_same
                | with_reducible apply State.launchControl_same

theorem execLaunchReattach_same (tx : Tx) (s : State) (hM : within 67239938 M = true) (h_s : s.same M z) :
    Result.same M z (execLaunchReattach tx s) := by
  unfold execLaunchReattach
  repeat' first | with_reducible assumption | exact within_trans (by decide) hM | intro _ | with_reducible apply same_next
                | with_reducible apply State.setLaunch_same | with_reducible apply State.launchTx_same
                | with_reducible apply State.launchControl_same

theorem execLaunchAdopt_same (tx : Tx) (s : State) (hM : within 101056514 M = true) (h_s : s.same M z) :
    Result.same M z (execLaunchAdopt tx s) := by
  unfold execLaunchAdopt
  repeat' first | with_reducible assumption | exact within_trans (by decide) hM | intro _ | with_reducible apply same_next
                | with_reducible apply same_ite | with_reducible apply State.setLaunch_same
                | with_reducible apply State.launchDoneCheck_same | with_reducible apply State.launchControl_same

theorem execLaunchDone_same (tx : Tx) (s : State) (hM : within 101056514 M = true) (h_s : s.same M z) :
    Result.same M z (execLaunchDone tx s) := by
  unfold execLaunchDone
  repeat' first | with_reducible assumption | exact within_trans (by decide) hM | intro _ | with_reducible apply same_next
                | with_reducible apply same_ite | with_reducible apply State.setLaunch_same
                | with_reducible apply State.launchDoneCheck_same | with_reducible apply State.launchControl_same

theorem execStandbySupplyGood_same (s : State) (hM : within 8388610 M = true) (h_s : s.same M z) :
    Result.same M z (execStandbySupplyGood s) := by
  unfold execStandbySupplyGood
  repeat' first | with_reducible assumption | exact within_trans (by decide) hM | intro _ | with_reducible apply same_next
                | with_reducible apply same_ite | with_reducible apply State.setReg_same
                | with_reducible apply State.onBoard_same

theorem execColdResetRelease_same (st : Straps) (s : State) (hM : within 76154946 M = true) (h_s : s.same M z) :
    Result.same M z (execColdResetRelease st s) := by
  unfold execColdResetRelease
  repeat' first | with_reducible assumption | exact within_trans (by decide) hM | intro _ | with_reducible apply same_next
                | with_reducible apply same_ite | with_reducible apply State.setFld_same
                | with_reducible apply State.onBoard_same | with_reducible apply State.beginBoot_same

theorem execColdRstNAssert_same (s : State) (hM : within 66060286 M = true) (h_s : s.same M z) :
    Result.same M z (execColdRstNAssert s) := by
  unfold execColdRstNAssert
  repeat' first | with_reducible assumption | exact within_trans (by decide) hM | with_reducible apply same_next
                | with_reducible apply State.onBoard_same | with_reducible apply State.coldReset_same

theorem execSupplyFault_same (v : Supply) (s : State) (hM : within 66060286 M = true) (h_s : s.same M z) :
    Result.same M z (execSupplyFault v s) := by
  unfold execSupplyFault
  repeat' first | with_reducible assumption | exact within_trans (by decide) hM | with_reducible apply same_next
                | with_reducible apply State.setFld_same | with_reducible apply State.onBoard_same
                | with_reducible apply State.coldReset_same | split

theorem execInternalResetRelease_same (s : State) (hM : within 76154946 M = true) (h_s : s.same M z) :
    Result.same M z (execInternalResetRelease s) := by
  unfold execInternalResetRelease
  repeat' first | with_reducible assumption | exact within_trans (by decide) hM | intro _ | with_reducible apply same_next
                | with_reducible apply same_ite | with_reducible apply State.setFld_same
                | with_reducible apply State.onBoard_same | with_reducible apply State.beginBoot_same

theorem execPerstAssert_same (micros : Nat) (s : State) (hM : within 66060286 M = true) (h_s : s.same M z) :
    Result.same M z (execPerstAssert micros s) := by
  unfold execPerstAssert
  repeat' first | with_reducible assumption | exact within_trans (by decide) hM | intro _ | with_reducible apply same_next
                | with_reducible apply same_ite | with_reducible apply State.onHost_same
                | with_reducible apply State.onBoard_same | with_reducible apply State.warmReset_same

theorem execPerstDeassert_same (s : State) (hM : within 76154946 M = true) (h_s : s.same M z) :
    Result.same M z (execPerstDeassert s) := by
  unfold execPerstDeassert
  repeat' first | with_reducible assumption | exact within_trans (by decide) hM | intro _ | with_reducible apply same_next
                | with_reducible apply same_ite | with_reducible apply State.onBoard_same
                | with_reducible apply State.beginBoot_same

theorem execPs3BoardControllerExit_same (s : State) (hM : within 133169150 M = true) (h_s : s.same M z) :
    Result.same M z (execPs3BoardControllerExit s) := by
  unfold execPs3BoardControllerExit
  repeat' first | with_reducible assumption | intro _ | with_reducible apply same_next | with_reducible apply same_ite
                | with_reducible apply State.warmReboot_same

theorem execFwActivateWarmReset_same (s : State) (hM : within 133169150 M = true) (h_s : s.same M z) :
    Result.same M z (execFwActivateWarmReset s) := by
  unfold execFwActivateWarmReset
  repeat' first | with_reducible assumption | exact within_trans (by decide) hM | with_reducible apply same_next
                | with_reducible apply State.at__same | with_reducible apply State.warmReboot_same | split

theorem execBootStageComplete_same (f : BootFinding) (ms : Nat) (ext : List Byte) (s : State)
    (hM : within 129992910 M = true) (h_s : s.same M z) :
    Result.same M z (execBootStageComplete f ms ext s) := by
  unfold execBootStageComplete
  repeat' first | with_reducible assumption | exact within_trans (by decide) hM | intro _ | with_reducible apply same_next
                | with_reducible apply same_ite | with_reducible apply State.setFld_same
                | with_reducible apply State.refreshFw_same | with_reducible apply State.stageDone_same
                | with_reducible apply State.bootLoss_same | with_reducible apply State.testOut_same
                | with_reducible apply same_foldl | split

theorem execSnapArm_same (k : Nat) (s : State) (hM : within 105119746 M = true) (h_s : s.same M z) :
    Result.same M z (execSnapArm k s) := by
  unfold execSnapArm
  repeat' first | with_reducible assumption | exact within_trans (by decide) hM | intro _ | with_reducible apply same_ifUnit
                | with_reducible apply same_ite | with_reducible apply State.done_same
                | with_reducible apply State.reject_same | with_reducible apply State.command_same
                | with_reducible apply State.armSnap_same | with_reducible apply State.releaseSnap_same
                | with_reducible apply State.denied_same | split

theorem execSnapTrigger_same (k : Nat) (s : State) (hM : within 105250818 M = true) (h_s : s.same M z) :
    Result.same M z (execSnapTrigger k s) := by
  unfold execSnapTrigger
  repeat' first | with_reducible assumption | exact within_trans (by decide) hM | intro _ | with_reducible apply same_ifUnit
                | with_reducible apply same_ite | with_reducible apply State.done_same
                | with_reducible apply State.wrongState_same | with_reducible apply State.plain_same
                | with_reducible apply State.fireSnap_same | with_reducible apply State.denied_same

theorem execSnapStatus_same (k : Nat) (s : State) (hM : within 100925442 M = true) (h_s : s.same M z) :
    Result.same M z (execSnapStatus k s) := by
  unfold execSnapStatus
  repeat' first | with_reducible assumption | exact within_trans (by decide) hM | intro _ | with_reducible apply same_ifUnit
                | with_reducible apply State.done_same | with_reducible apply State.plain_same

theorem execSnapshotTickMatch_same (s : State) (hM : within 71434242 M = true) (h_s : s.same M z) :
    Result.same M z (execSnapshotTickMatch s) := by
  unfold execSnapshotTickMatch
  repeat' first | with_reducible assumption | intro _ | with_reducible apply same_next | with_reducible apply same_ite
                | with_reducible apply State.fireSnap_same

theorem execSnapshotTimeMatch_same (s : State) (hM : within 71434242 M = true) (h_s : s.same M z) :
    Result.same M z (execSnapshotTimeMatch s) := by
  unfold execSnapshotTimeMatch
  repeat' first | with_reducible assumption | exact within_trans (by decide) hM | with_reducible apply same_next
                | with_reducible apply State.at__same | with_reducible apply State.fireSnap_same | split

theorem execSnapshotEventMatch_same (event source : Nat) (s : State) (hM : within 71434242 M = true) (h_s : s.same M z) :
    Result.same M z (execSnapshotEventMatch event source s) := by
  unfold execSnapshotEventMatch
  repeat' first | with_reducible assumption | with_reducible apply same_next | with_reducible apply State.fireSnap_same

theorem execSnapshotTrigger_same (tx : Tx) (s : State) (hM : within 71434242 M = true) (h_s : s.same M z) :
    Result.same M z (execSnapshotTrigger tx s) := by
  unfold execSnapshotTrigger
  repeat' first | with_reducible assumption | exact within_trans (by decide) hM | intro _ | with_reducible apply same_next
                | with_reducible apply State.trigger_same | with_reducible apply State.fireSnap_same

theorem execTagRead_same (k : Nat) (s : State) (hM : within 100925442 M = true) (h_s : s.same M z) :
    Result.same M z (execTagRead k s) := by
  unfold execTagRead
  repeat' first | with_reducible assumption | exact within_trans (by decide) hM | intro _ | with_reducible apply same_ifUnit
                | with_reducible apply same_ite | with_reducible apply State.done_same
                | with_reducible apply State.command_same | with_reducible apply State.denied_same

theorem execDebugUnlock_same (k : Nat) (ext : List Byte) (s : State) (hM : within 104331134 M = true) (h_s : s.same M z) :
    Result.same M z (execDebugUnlock k ext s) := by
  unfold execDebugUnlock
  repeat' first | with_reducible assumption | exact within_trans (by decide) hM | intro _ | with_reducible apply same_ifUnit
                | with_reducible apply same_ite | with_reducible apply State.setReg_same
                | with_reducible apply State.send_same | with_reducible apply State.done_same
                | with_reducible apply State.reject_same | with_reducible apply State.command_same
                | with_reducible apply State.storageMoved_same | with_reducible apply State.denied_same
                | with_reducible apply State.enterD3_same | with_reducible apply State.failUnlock_same
                | with_reducible apply State.unlocked_same

theorem execDebugLock_same (k : Nat) (s : State) (hM : within 133169150 M = true) (h_s : s.same M z) :
    Result.same M z (execDebugLock k s) := by
  unfold execDebugLock
  repeat' first | with_reducible assumption | exact within_trans (by decide) hM | intro _ | with_reducible apply same_ifUnit
                | with_reducible apply same_ite | with_reducible apply State.done_same
                | with_reducible apply State.command_same | with_reducible apply State.setDebug_same
                | with_reducible apply State.warmReboot_same | with_reducible apply State.d2Ends_same

theorem execD2TokenExpiry_same (s : State) (hM : within 66 M = true) (h_s : s.same M z) :
    Result.same M z (execD2TokenExpiry s) := by
  unfold execD2TokenExpiry
  repeat' first | with_reducible assumption | exact within_trans (by decide) hM | intro _ | with_reducible apply same_next
                | with_reducible apply same_ite | with_reducible apply State.at__same
                | with_reducible apply State.setDebug_same | with_reducible apply State.d2Ends_same

theorem execUnlockLockoutExpiry_same (s : State) (hM : within 2097154 M = true) (h_s : s.same M z) :
    Result.same M z (execUnlockLockoutExpiry s) := by
  unfold execUnlockLockoutExpiry
  repeat' first | with_reducible assumption | exact Or.inl (within_bit hM (by decide)) | with_reducible exact Or.inr rfl
                | exact within_trans (by decide) hM | with_reducible apply same_next | with_reducible apply State.at__same
                | simp only [same_mk] | with_reducible apply Same.of | split

theorem execStepHalt_same (k : Nat) (s : State) (hM : within 100925506 M = true) (h_s : s.same M z) :
    Result.same M z (execStepHalt k s) := by
  unfold execStepHalt
  repeat' first | with_reducible assumption | exact within_trans (by decide) hM | intro _ | with_reducible apply same_ifUnit
                | with_reducible apply State.command_same | with_reducible apply State.markTick_same

theorem execStepResume_same (k : Nat) (s : State) (hM : within 100925506 M = true) (h_s : s.same M z) :
    Result.same M z (execStepResume k s) := by
  unfold execStepResume
  repeat' first | with_reducible assumption | exact within_trans (by decide) hM | intro _ | with_reducible apply same_ifUnit
                | with_reducible apply State.command_same | with_reducible apply State.markTick_same

theorem execReadRequest_same (tx : Tx) (s : State) (hM : within 101179758 M = true) (h_s : s.same M z) :
    Result.same M z (execReadRequest tx s) := by
  unfold execReadRequest
  repeat' first | with_reducible assumption | exact within_trans (by decide) hM | intro _ | with_reducible apply same_next
                | with_reducible apply State.serveRequest_same | with_reducible apply State.serveRead_same
                | with_reducible apply State.takeRequest_same | with_reducible apply State.releaseHeld_same

theorem execWriteRequest_same (tx : Tx) (s : State) (hM : within 101179758 M = true) (h_s : s.same M z) :
    Result.same M z (execWriteRequest tx s) := by
  unfold execWriteRequest
  repeat' first | with_reducible assumption | exact within_trans (by decide) hM | intro _ | with_reducible apply same_next
                | with_reducible apply State.bump64_same | with_reducible apply State.reply_same
                | with_reducible apply State.serveRequest_same | with_reducible apply State.refuseRequest_same
                | with_reducible apply State.launchWrite_same | with_reducible apply State.takeRequest_same
                | with_reducible apply State.releaseHeld_same | split

theorem execAtomicRequest_same (tx : Tx) (s : State) (hM : within 101179758 M = true) (h_s : s.same M z) :
    Result.same M z (execAtomicRequest tx s) := by
  unfold execAtomicRequest
  repeat' first | with_reducible assumption | exact within_trans (by decide) hM | intro _ | with_reducible apply same_next
                | with_reducible apply State.serveRequest_same | with_reducible apply State.retryAtomic_same
                | with_reducible apply State.takeRequest_same | with_reducible apply State.releaseHeld_same

theorem execLeekEntryExpiry_same (s : State) (hM : within 101179758 M = true) (h_s : s.same M z) :
    Result.same M z (execLeekEntryExpiry s) := by
  unfold execLeekEntryExpiry
  repeat' first | with_reducible assumption | exact within_trans (by decide) hM | with_reducible apply same_next
                | with_reducible apply State.at__same | with_reducible apply State.leekNext_same
                | with_reducible apply State.releaseHeld_same | split

theorem execRankedAtomicApply_same (addr : Nat) (s : State) (hM : within 101179758 M = true) (h_s : s.same M z) :
    Result.same M z (execRankedAtomicApply addr s) := by
  unfold execRankedAtomicApply
  repeat' first | with_reducible assumption | exact within_trans (by decide) hM | with_reducible apply same_next
                | with_reducible apply State.write_same | with_reducible apply State.atomic_same
                | with_reducible apply State.setOp_same | with_reducible apply State.settle_same
                | with_reducible apply State.onFabric_same | with_reducible apply State.journal_same
                | with_reducible apply State.answerLater_same | with_reducible apply State.releaseHeld_same
                | simp only [same_mk] | split

theorem execRankWaitDeadline_same (addr rank : Nat) (s : State) (hM : within 101179758 M = true) (h_s : s.same M z) :
    Result.same M z (execRankWaitDeadline addr rank s) := by
  unfold execRankWaitDeadline
  repeat' first | with_reducible assumption | exact within_trans (by decide) hM | with_reducible apply same_next
                | with_reducible apply State.at__same | with_reducible apply State.putOp_same
                | with_reducible apply State.onFabric_same | with_reducible apply State.refuseRequest_same
                | with_reducible apply State.releaseHeld_same | simp only [same_mk] | split

theorem execCreditRequest_same (tx : Tx) (s : State) (hM : within 101179758 M = true) (h_s : s.same M z) :
    Result.same M z (execCreditRequest tx s) := by
  unfold execCreditRequest
  repeat' first | with_reducible assumption | exact within_trans (by decide) hM | intro _ | with_reducible apply same_next
                | with_reducible apply State.serveRequest_same | with_reducible apply State.repeatCredit_same
                | with_reducible apply State.takeRequest_same | with_reducible apply State.releaseHeld_same

theorem execEnqueueTransaction_same (tx : Tx) (s : State) (hM : within 101179758 M = true) (h_s : s.same M z) :
    Result.same M z (execEnqueueTransaction tx s) := by
  unfold execEnqueueTransaction
  repeat' first | with_reducible assumption | exact within_trans (by decide) hM | intro _ | with_reducible apply same_next
                | with_reducible apply State.reply_same | with_reducible apply State.serveRequest_same
                | with_reducible apply State.takeRequest_same | with_reducible apply State.releaseHeld_same

theorem execDequeueTransaction_same (tx : Tx) (s : State) (hM : within 101179758 M = true) (h_s : s.same M z) :
    Result.same M z (execDequeueTransaction tx s) := by
  unfold execDequeueTransaction
  repeat' first | with_reducible assumption | exact within_trans (by decide) hM | intro _ | with_reducible apply same_next
                | with_reducible apply State.serveRequest_same | with_reducible apply State.repeatDequeue_same
                | with_reducible apply State.takeRequest_same | with_reducible apply State.releaseHeld_same

theorem execLineCommit_same (line : Nat) (s : State) (hM : within 101179758 M = true) (h_s : s.same M z) :
    Result.same M z (execLineCommit line s) := by
  unfold execLineCommit
  repeat' first | with_reducible assumption | exact within_trans (by decide) hM | intro _ | with_reducible apply same_next
                | with_reducible apply same_ite | with_reducible apply State.at__same
                | with_reducible apply State.settle_same | with_reducible apply State.pull_same
                | with_reducible apply State.finishServes_same | with_reducible apply State.releaseHeld_same

theorem execCressWindowClose_same (line : Nat) (s : State) (hM : within 101179758 M = true) (h_s : s.same M z) :
    Result.same M z (execCressWindowClose line s) := by
  unfold execCressWindowClose
  repeat' first | with_reducible assumption | exact within_trans (by decide) hM | with_reducible apply same_next
                | with_reducible apply State.at__same | with_reducible apply State.closeCress_same
                | with_reducible apply State.releaseHeld_same | split

theorem execInvalidation_same (tx : Tx) (s : State) (hM : within 67239938 M = true) (h_s : s.same M z) :
    Result.same M z (execInvalidation tx s) := by
  unfold execInvalidation
  repeat' first | with_reducible assumption | exact within_trans (by decide) hM | intro _ | with_reducible apply same_next
                | with_reducible apply State.sendTx_same | with_reducible apply State.onFabric_same
                | with_reducible apply State.coherence_same

theorem execInvalidationAck_same (tx : Tx) (s : State) (hM : within 101179758 M = true) (h_s : s.same M z) :
    Result.same M z (execInvalidationAck tx s) := by
  unfold execInvalidationAck
  repeat' first | with_reducible assumption | exact within_trans (by decide) hM | intro _ | with_reducible apply same_next
                | with_reducible apply State.onFabric_same | with_reducible apply State.goOn_same
                | with_reducible apply State.coherence_same

theorem execCoherentFill_same (tx : Tx) (s : State) (hM : within 67239938 M = true) (h_s : s.same M z) :
    Result.same M z (execCoherentFill tx s) := by
  unfold execCoherentFill
  repeat' first | with_reducible assumption | exact within_trans (by decide) hM | intro _ | with_reducible apply same_next
                | with_reducible apply State.bump64_same | with_reducible apply State.onFabric_same
                | with_reducible apply State.coherence_same

theorem execSecStatus_same (k : Nat) (s : State) (hM : within 100925442 M = true) (h_s : s.same M z) :
    Result.same M z (execSecStatus k s) := by
  unfold execSecStatus
  repeat' first | with_reducible assumption | exact within_trans (by decide) hM | intro _ | with_reducible apply same_ifUnit
                | with_reducible apply State.done_same | with_reducible apply State.plain_same

theorem execFwStage_same (k : Nat) (ext : List Byte) (s : State) (hM : within 101974018 M = true) (h_s : s.same M z) :
    Result.same M z (execFwStage k ext s) := by
  unfold execFwStage
  repeat' first | with_reducible assumption | exact within_trans (by decide) hM | intro _ | with_reducible apply same_ifUnit
                | with_reducible apply State.command_same | with_reducible apply State.setSlotFw_same
                | with_reducible apply State.startSource_same

theorem execFwActivate_same (k : Nat) (s : State) (hM : within 100925442 M = true) (h_s : s.same M z) :
    Result.same M z (execFwActivate k s) := by
  unfold execFwActivate
  repeat' first | with_reducible assumption | exact within_trans (by decide) hM | intro _ | with_reducible apply same_ifUnit
                | with_reducible apply same_ite | with_reducible apply State.reject_same
                | with_reducible apply State.wrongState_same | with_reducible apply State.command_same
                | with_reducible apply State.startLong_same | simp only [id]

theorem execConfigRecordWrite_same (k : Nat) (ext : List Byte) (s : State) (hM : within 100925442 M = true)
    (h_s : s.same M z) :
    Result.same M z (execConfigRecordWrite k ext s) := by
  unfold execConfigRecordWrite
  repeat' first | with_reducible assumption | exact within_trans (by decide) hM | intro _ | with_reducible apply same_ifUnit
                | with_reducible apply State.command_same | with_reducible apply State.startSource_same | simp only [id]

theorem execOwnerKeySet_same (k : Nat) (s : State) (hM : within 103022594 M = true) (h_s : s.same M z) :
    Result.same M z (execOwnerKeySet k s) := by
  unfold execOwnerKeySet
  repeat' first | with_reducible assumption | exact within_trans (by decide) hM | intro _ | with_reducible apply same_ifUnit
                | with_reducible apply same_ite | with_reducible apply State.done_same
                | with_reducible apply State.wrongState_same | with_reducible apply State.command_same
                | with_reducible apply State.setOwnerKeys_same | with_reducible apply State.denied_same

theorem execCertRead_same (k : Nat) (s : State) (hM : within 100925442 M = true) (h_s : s.same M z) :
    Result.same M z (execCertRead k s) := by
  unfold execCertRead
  repeat' first | with_reducible assumption | exact within_trans (by decide) hM | intro _ | with_reducible apply same_ifUnit
                | with_reducible apply State.done_same | with_reducible apply State.command_same

theorem execRecoveryImageStream_same (image : List Byte) (s : State) (hM : within 134217726 M = true) (h_s : s.same M z) :
    Result.same M z (execRecoveryImageStream image s) := by
  unfold execRecoveryImageStream
  repeat' first | with_reducible assumption | exact within_trans (by decide) hM | intro _ | with_reducible apply same_next
                | with_reducible apply same_ite | with_reducible apply State.warmReboot_same
                | with_reducible apply State.onMram_same | with_reducible apply State.setSlotFw_same

theorem execRecoveryD3Grant_same (grant : List Byte) (s : State) (hM : within 104331134 M = true) (h_s : s.same M z) :
    Result.same M z (execRecoveryD3Grant grant s) := by
  unfold execRecoveryD3Grant
  repeat' first | with_reducible assumption | exact within_trans (by decide) hM | intro _ | with_reducible apply same_next
                | with_reducible apply same_ite | with_reducible apply State.bump_same
                | with_reducible apply State.enterD3_same | with_reducible apply State.unlocked_same

theorem execUnknownCommand_same (k : Nat) (s : State) (hM : within 67371010 M = true) (h_s : s.same M z) :
    Result.same M z (execUnknownCommand k s) := by
  unfold execUnknownCommand
  repeat' first | with_reducible assumption | intro _ | with_reducible apply same_ifUnit | with_reducible apply same_ite
                | with_reducible apply State.reject_same

theorem execPowerStateSet_same (k : Nat) (s : State) (hM : within 100925442 M = true) (h_s : s.same M z) :
    Result.same M z (execPowerStateSet k s) := by
  unfold execPowerStateSet
  repeat' first | with_reducible assumption | exact within_trans (by decide) hM | intro _ | with_reducible apply same_ifUnit
                | with_reducible apply same_ite | with_reducible apply State.wrongState_same
                | with_reducible apply State.command_same | with_reducible apply State.startLong_same | simp only [id]

theorem execPowerCapSet_same (k : Nat) (s : State) (hM : within 101449730 M = true) (h_s : s.same M z) :
    Result.same M z (execPowerCapSet k s) := by
  unfold execPowerCapSet
  repeat' first | with_reducible assumption | exact within_trans (by decide) hM | intro _ | with_reducible apply same_ifUnit
                | with_reducible apply State.done_same | with_reducible apply State.command_same
                | with_reducible apply State.onPower_same

theorem execPowerStatus_same (k : Nat) (s : State) (hM : within 100925442 M = true) (h_s : s.same M z) :
    Result.same M z (execPowerStatus k s) := by
  unfold execPowerStatus
  repeat' first | with_reducible assumption | exact within_trans (by decide) hM | intro _ | with_reducible apply same_ifUnit
                | with_reducible apply State.done_same | with_reducible apply State.plain_same

theorem execSelfTest_same (k found ending : Nat) (units : List TestUnit) (s : State) (hM : within 117932142 M = true)
    (h_s : s.same M z) :
    Result.same M z (execSelfTest k found ending units s) := by
  unfold execSelfTest
  repeat' first | with_reducible assumption | exact within_trans (by decide) hM | intro _ | with_reducible apply same_ifUnit
                | with_reducible apply same_ite | with_reducible apply State.setFld_same
                | with_reducible apply State.wrongState_same | with_reducible apply State.command_same
                | with_reducible apply State.startLong_same | with_reducible apply State.portDown_same
                | with_reducible apply State.onTests_same | with_reducible apply same_foldl

theorem execOnlineTestSet_same (k : Nat) (s : State) (hM : within 117702658 M = true) (h_s : s.same M z) :
    Result.same M z (execOnlineTestSet k s) := by
  unfold execOnlineTestSet
  repeat' first | with_reducible assumption | exact within_trans (by decide) hM | intro _ | with_reducible apply same_ifUnit
                | with_reducible apply State.done_same | with_reducible apply State.command_same
                | with_reducible apply State.onTests_same

theorem execTestStatus_same (k : Nat) (s : State) (hM : within 100925442 M = true) (h_s : s.same M z) :
    Result.same M z (execTestStatus k s) := by
  unfold execTestStatus
  repeat' first | with_reducible assumption | exact within_trans (by decide) hM | intro _ | with_reducible apply same_ifUnit
                | with_reducible apply State.done_same | with_reducible apply State.plain_same

theorem execMemRepairApply_same (k : Nat) (s : State) (hM : within 100925442 M = true) (h_s : s.same M z) :
    Result.same M z (execMemRepairApply k s) := by
  unfold execMemRepairApply
  repeat' first | with_reducible assumption | exact within_trans (by decide) hM | intro _ | with_reducible apply same_ifUnit
                | with_reducible apply same_ite | with_reducible apply State.wrongState_same
                | with_reducible apply State.plain_same | with_reducible apply State.startLong_same | simp only [id]

theorem execMemHealth_same (k : Nat) (s : State) (hM : within 100925442 M = true) (h_s : s.same M z) :
    Result.same M z (execMemHealth k s) := by
  unfold execMemHealth
  repeat' first | with_reducible assumption | exact within_trans (by decide) hM | intro _ | with_reducible apply same_ifUnit
                | with_reducible apply State.done_same | with_reducible apply State.plain_same

theorem execFaultLogRead_same (k : Nat) (s : State) (hM : within 100925442 M = true) (h_s : s.same M z) :
    Result.same M z (execFaultLogRead k s) := by
  unfold execFaultLogRead
  repeat' first | with_reducible assumption | exact within_trans (by decide) hM | intro _ | with_reducible apply same_ifUnit
                | with_reducible apply State.done_same | with_reducible apply State.command_same

theorem execModPrsntChange_same (present : Bool) (s : State) (hM : within 101179758 M = true) (h_s : s.same M z) :
    Result.same M z (execModPrsntChange present s) := by
  unfold execModPrsntChange
  repeat' first | with_reducible assumption | exact within_trans (by decide) hM | with_reducible apply same_next
                | with_reducible apply State.setFld_same | with_reducible apply State.upTo_same
                | with_reducible apply State.onCkpt_same | with_reducible apply State.failCheckpoint_same
                | with_reducible apply State.endExport_same

theorem execStorageCommandTimeout_same (k : Nat) (s : State) (hM : within 101179758 M = true) (h_s : s.same M z) :
    Result.same M z (execStorageCommandTimeout k s) := by
  unfold execStorageCommandTimeout
  repeat' first | with_reducible assumption | exact within_trans (by decide) hM | with_reducible apply same_ifUnit
                | with_reducible apply State.upTo_same | with_reducible apply State.targetStatus_same
                | with_reducible apply State.failLong_same | split

theorem execBar2Read_same (offset len : Nat) (uncorrectable : Bool) (s : State) (hM : within 102139970 M = true)
    (h_s : s.same M z) :
    Result.same M z (execBar2Read offset len uncorrectable s) := by
  unfold execBar2Read
  repeat' first | with_reducible assumption | exact within_trans (by decide) hM | intro _ | with_reducible apply same_next
                | with_reducible apply same_ite | with_reducible apply State.send_same
                | with_reducible apply State.findBad_same | with_reducible apply State.badRead_same
                | with_reducible apply State.hostFault_same

theorem execMbxDoorbell_same (k : Nat) (s : State) (hM : within 101179758 M = true) (h_s : s.same M z) :
    Result.same M z (execMbxDoorbell k s) := by
  unfold execMbxDoorbell
  repeat' first | with_reducible assumption | with_reducible apply same_ifUnit | with_reducible apply State.takeWrite_same

theorem execMailboxPageWrite_same (k offset : Nat) (data : List Byte) (s : State) (hM : within 101179758 M = true)
    (h_s : s.same M z) :
    Result.same M z (execMailboxPageWrite k offset data s) := by
  unfold execMailboxPageWrite
  repeat' first | with_reducible assumption | with_reducible apply same_ifUnit | with_reducible apply State.takeWrite_same

theorem execMbxDoneClear_same (mask : Nat) (s : State) (hM : within 101179758 M = true) (h_s : s.same M z) :
    Result.same M z (execMbxDoneClear mask s) := by
  unfold execMbxDoneClear
  repeat' first | with_reducible assumption | with_reducible apply same_next | with_reducible apply State.takeWrite_same

theorem execMbxEvtEnable_same (value : Nat) (s : State) (hM : within 101179758 M = true) (h_s : s.same M z) :
    Result.same M z (execMbxEvtEnable value s) := by
  unfold execMbxEvtEnable
  repeat' first | with_reducible assumption | with_reducible apply same_next | with_reducible apply State.takeWrite_same

theorem execMbxEvtHeadWrite_same (value : Nat) (s : State) (hM : within 101179758 M = true) (h_s : s.same M z) :
    Result.same M z (execMbxEvtHeadWrite value s) := by
  unfold execMbxEvtHeadWrite
  repeat' first | with_reducible assumption | with_reducible apply same_next | with_reducible apply State.takeWrite_same

theorem execRegisterWrite_same (offset size value : Nat) (s : State) (hM : within 101179758 M = true) (h_s : s.same M z) :
    Result.same M z (execRegisterWrite offset size value s) := by
  unfold execRegisterWrite
  repeat' first | with_reducible assumption | with_reducible apply same_next | with_reducible apply State.takeWrite_same

theorem execBar0RefusedAccess_same (a : Bar0Access) (s : State) (hM : within 101179758 M = true) (h_s : s.same M z) :
    Result.same M z (execBar0RefusedAccess a s) := by
  unfold execBar0RefusedAccess
  repeat' first | with_reducible assumption | exact within_trans (by decide) hM | intro _ | with_reducible apply same_next
                | with_reducible apply same_ite | with_reducible apply State.bar0Read_same
                | with_reducible apply State.takeWrite_same

theorem execBar2Write_same (offset : Nat) (data : List Byte) (s : State) (hM : within 101179758 M = true) (h_s : s.same M z) :
    Result.same M z (execBar2Write offset data s) := by
  unfold execBar2Write
  repeat' first | with_reducible assumption | with_reducible apply same_next | with_reducible apply State.takeWrite_same

theorem execHostEnqueue_same (offset : Nat) (data : List Byte) (s : State) (hM : within 101179758 M = true)
    (h_s : s.same M z) :
    Result.same M z (execHostEnqueue offset data s) := by
  unfold execHostEnqueue
  repeat' first | with_reducible assumption | intro _ | with_reducible apply same_ifUnit
                | with_reducible apply State.takeWrite_same | with_reducible apply same_foldl

theorem execLongCommandDone_same (k : Nat) (e : Ending) (s : State) (hM : within 127926142 M = true) (h_s : s.same M z) :
    Result.same M z (execLongCommandDone k e s) := by
  unfold execLongCommandDone
  repeat' first | with_reducible assumption | exact within_trans (by decide) hM | with_reducible apply same_ifUnit
                | with_reducible apply State.carryOut_same | with_reducible apply State.endBadly_same
                | with_reducible apply State.ownReset_same | with_reducible apply State.releasePosted_same | split

theorem execHostCompletionTimeout_same (id req : Nat) (s : State) (hM : within 101179758 M = true) (h_s : s.same M z) :
    Result.same M z (execHostCompletionTimeout id req s) := by
  unfold execHostCompletionTimeout
  repeat' first | with_reducible assumption | with_reducible apply same_next | with_reducible apply State.failHostReq_same

theorem execPoisonedTlp_same (write : Bool) (id req : Nat) (s : State) (hM : within 101179758 M = true) (h_s : s.same M z) :
    Result.same M z (execPoisonedTlp write id req s) := by
  unfold execPoisonedTlp
  repeat' first | with_reducible assumption | exact within_trans (by decide) hM | intro _ | with_reducible apply same_next
                | with_reducible apply same_ite | with_reducible apply State.send_same
                | with_reducible apply State.failHostReq_same

theorem execPcieLinkDown_same (s : State) (hM : within 101179758 M = true) (h_s : s.same M z) :
    Result.same M z (execPcieLinkDown s) := by
  unfold execPcieLinkDown
  repeat' first | with_reducible assumption | exact within_trans (by decide) hM | with_reducible apply same_next
                | with_reducible apply State.onHost_same | with_reducible apply State.failHostWindow_same

theorem execPcieLinkUp_same (hostRate : Nat) (s : State) (hM : within 100925442 M = true) (h_s : s.same M z) :
    Result.same M z (execPcieLinkUp hostRate s) := by
  unfold execPcieLinkUp
  repeat' first | with_reducible assumption | exact within_trans (by decide) hM | intro _ | with_reducible apply same_next
                | with_reducible apply same_ite | with_reducible apply State.setFld_same
                | with_reducible apply State.flushEvents_same | with_reducible apply State.onHost_same

theorem execFunctionLevelReset_same (s : State) (hM : within 101711742 M = true) (h_s : s.same M z) :
    Result.same M z (execFunctionLevelReset s) := by
  unfold execFunctionLevelReset
  repeat' first | with_reducible assumption | intro _ | with_reducible apply same_next | with_reducible apply same_ite
                | with_reducible apply State.functionReset_same

theorem execPcieHotReset_same (s : State) (hM : within 101711742 M = true) (h_s : s.same M z) :
    Result.same M z (execPcieHotReset s) := by
  unfold execPcieHotReset
  repeat' first | with_reducible assumption | exact within_trans (by decide) hM | intro _ | with_reducible apply same_next
                | with_reducible apply same_ite | with_reducible apply State.onHost_same
                | with_reducible apply State.functionReset_same

theorem execPcieConfigurationWrite_same (c : PcieConfig) (s : State) (hM : within 101179758 M = true) (h_s : s.same M z) :
    Result.same M z (execPcieConfigurationWrite c s) := by
  unfold execPcieConfigurationWrite
  repeat' first | with_reducible assumption | exact within_trans (by decide) hM | with_reducible apply same_next
                | with_reducible apply State.flushEvents_same | with_reducible apply State.onHost_same
                | with_reducible apply State.failHostWindow_same | split

theorem execRemoteMailboxDatagram_same (d : Datagram) (s : State) (hM : within 67371010 M = true) (h_s : s.same M z) :
    Result.same M z (execRemoteMailboxDatagram d s) := by
  unfold execRemoteMailboxDatagram
  repeat' first | with_reducible assumption | exact within_trans (by decide) hM | with_reducible apply same_ifUnit
                | with_reducible apply State.bump_same | with_reducible apply State.onHost_same
                | with_reducible apply State.resendKept_same | with_reducible apply State.takeRemote_same
                | simp only [same_mk] | split

theorem execMatmul_same (l : ListId) (r : OpRecord) (s : State) (hM : within 100892782 M = true) (h_s : s.same M z) :
    Result.same M z (execMatmul l r s) := by
  unfold execMatmul
  repeat' first | with_reducible assumption | exact within_trans (by decide) hM | intro _ | with_reducible apply same_ifUnit
                | with_reducible apply same_ite | with_reducible apply State.issueOp_same
                | with_reducible apply matrixRun_same

theorem execMatmulPart_same (l : ListId) (r : OpRecord) (s : State) (hM : within 100892782 M = true) (h_s : s.same M z) :
    Result.same M z (execMatmulPart l r s) := by
  unfold execMatmulPart
  repeat' first | with_reducible assumption | exact within_trans (by decide) hM | intro _ | with_reducible apply same_ifUnit
                | with_reducible apply same_ite | with_reducible apply State.issueOp_same
                | with_reducible apply matrixRun_same

theorem execAnchorGather_same (l : ListId) (r : OpRecord) (s : State) (hM : within 100892782 M = true) (h_s : s.same M z) :
    Result.same M z (execAnchorGather l r s) := by
  unfold execAnchorGather
  repeat' first | with_reducible assumption | exact within_trans (by decide) hM | intro _ | with_reducible apply same_ifUnit
                | with_reducible apply same_ite | with_reducible apply State.issueOp_same
                | with_reducible apply matrixRun_same

theorem execPartCombine_same (l : ListId) (r : OpRecord) (s : State) (hM : within 100892782 M = true) (h_s : s.same M z) :
    Result.same M z (execPartCombine l r s) := by
  unfold execPartCombine
  repeat' first | with_reducible assumption | exact within_trans (by decide) hM | intro _ | with_reducible apply same_ifUnit
                | with_reducible apply same_ite | with_reducible apply State.issueOp_same
                | with_reducible apply matrixRun_same

theorem execReservationGrant_same (q : Nat) (s : State) (hM : within 101179758 M = true) (h_s : s.same M z) :
    Result.same M z (execReservationGrant q s) := by
  unfold execReservationGrant
  repeat' first | with_reducible assumption | with_reducible apply same_ifUnit | with_reducible apply State.grants_same
                | with_reducible apply State.goOnAll_same

theorem execEntryLanding_same (q pos : Nat) (s : State) (hM : within 101179758 M = true) (h_s : s.same M z) :
    Result.same M z (execEntryLanding q pos s) := by
  unfold execEntryLanding
  repeat' first | with_reducible assumption | exact within_trans (by decide) hM | with_reducible apply same_ifUnit
                | with_reducible apply State.landAt_same | with_reducible apply State.afterLanding_same
                | with_reducible apply State.goOnAll_same | split

theorem execWindowFetchDone_same (q : Nat) (s : State) (hM : within 101179758 M = true) (h_s : s.same M z) :
    Result.same M z (execWindowFetchDone q s) := by
  unfold execWindowFetchDone
  repeat' first | with_reducible assumption | exact within_trans (by decide) hM | intro _ | with_reducible apply same_ifUnit
                | with_reducible apply same_ite | with_reducible apply State.fetched_same
                | with_reducible apply State.serveDeqs_same | with_reducible apply State.grants_same
                | with_reducible apply State.goOnAll_same

theorem execSlotGrant_same (q : Nat) (s : State) (hM : within 67362894 M = true) (h_s : s.same M z) :
    Result.same M z (execSlotGrant q s) := by
  unfold execSlotGrant
  repeat' first | with_reducible assumption | exact within_trans (by decide) hM | with_reducible apply same_ifUnit
                | with_reducible apply State.refreshEngine_same | with_reducible apply State.giveSlot_same
                | with_reducible apply State.slotTaken_same | with_reducible refine same_fst (by assumption) ?_ | split

theorem execTrackerGrant_same (q : Nat) (s : State) (hM : within 101179758 M = true) (h_s : s.same M z) :
    Result.same M z (execTrackerGrant q s) := by
  unfold execTrackerGrant
  repeat' first | with_reducible assumption | intro _ | with_reducible apply same_ifUnit | with_reducible apply same_ite
                | with_reducible apply State.grants_same | with_reducible apply State.goOnAll_same

theorem execHeadWindowRefill_same (q : Nat) (s : State) (hM : within 101179758 M = true) (h_s : s.same M z) :
    Result.same M z (execHeadWindowRefill q s) := by
  unfold execHeadWindowRefill
  repeat' first | with_reducible assumption | exact within_trans (by decide) hM | intro _ | with_reducible apply same_ifUnit
                | with_reducible apply same_ite | with_reducible apply State.refillHead_same
                | with_reducible apply State.serveDeqs_same | with_reducible apply State.goOnAll_same

theorem execQueueWritebackDone_same (q : Nat) (s : State) (hM : within 101179758 M = true) (h_s : s.same M z) :
    Result.same M z (execQueueWritebackDone q s) := by
  unfold execQueueWritebackDone
  repeat' first | with_reducible assumption | exact within_trans (by decide) hM | intro _ | with_reducible apply same_ifUnit
                | with_reducible apply same_ite | with_reducible apply State.excursion_same
                | with_reducible apply State.setQueue_same | with_reducible apply State.refillHead_same
                | with_reducible apply State.landAt_same | with_reducible apply State.serveDeqs_same
                | with_reducible apply State.afterLanding_same | with_reducible apply State.grants_same
                | with_reducible apply State.goOnAll_same | with_reducible apply same_foldl

theorem execHostEnqueueDrop_same (s : State) (hM : within 101179758 M = true) (h_s : s.same M z) :
    Result.same M z (execHostEnqueueDrop s) := by
  unfold execHostEnqueueDrop
  repeat' first | with_reducible assumption | exact within_trans (by decide) hM | with_reducible apply same_next
                | with_reducible apply State.at__same | with_reducible apply State.grants_same
                | with_reducible apply State.goOnAll_same | with_reducible apply State.dropHeld_same | split

theorem execCkpRestore_same (k : Nat) (sources : List (List Byte)) (s : State) (hM : within 101163086 M = true)
    (h_s : s.same M z) :
    Result.same M z (execCkpRestore k sources s) := by
  unfold execCkpRestore
  repeat' first | with_reducible assumption | exact within_trans (by decide) hM | intro _ | with_reducible apply same_ifUnit
                | with_reducible apply same_ite | with_reducible apply State.wrongState_same
                | with_reducible apply State.badField_same | with_reducible apply State.command_same
                | with_reducible apply State.startLong_same | with_reducible apply State.restore_same
                | with_reducible apply State.restoreRead_same | with_reducible apply State.setFld_same | split

theorem execOpCompletion_same (id : Nat) (s : State) (hM : within 101179758 M = true) (h_s : s.same M z) :
    Result.same M z (execOpCompletion id s) := by
  unfold execOpCompletion
  repeat' first | with_reducible assumption | exact within_trans (by decide) hM | with_reducible apply same_next
                | with_reducible apply State.completeOp_same | with_reducible apply State.startQueued_same | split

theorem execTransferRequestComplete_same (id req : Nat) (data : List Byte) (ok : Bool) (s : State)
    (hM : within 101179758 M = true) (h_s : s.same M z) :
    Result.same M z (execTransferRequestComplete id req data ok s) := by
  unfold execTransferRequestComplete
  repeat' first | with_reducible assumption | exact within_trans (by decide) hM | with_reducible apply same_next
                | with_reducible apply State.bump64_same | with_reducible apply State.requestDone_same | split

theorem execTagGrant_same (s : State) (hM : within 101154926 M = true) (h_s : s.same M z) : Result.same M z (execTagGrant s) := by
  unfold execTagGrant
  repeat' first | with_reducible assumption | exact Or.inl (within_bit hM (by decide)) | with_reducible exact Or.inr rfl
                | with_reducible apply same_next | with_reducible apply State.settle_same
                | with_reducible apply State.sendReq_same | simp only [same_mk] | with_reducible apply Same.of | split

theorem execQueueWaitReread_same (l : ListId) (s : State) (hM : within 2 M = true) (h_s : s.same M z) :
    Result.same M z (execQueueWaitReread l s) := by
  unfold execQueueWaitReread
  repeat' first | with_reducible assumption | with_reducible apply same_ifUnit | with_reducible apply State.countWait_same
                | with_reducible apply State.setSeq_same | split

theorem execChecksumReloadDone_same (id tile : Nat) (verifies : Bool) (s : State) (hM : within 102230382 M = true)
    (h_s : s.same M z) :
    Result.same M z (execChecksumReloadDone id tile verifies s) := by
  unfold execChecksumReloadDone
  repeat' first | with_reducible assumption | exact within_trans (by decide) hM | intro _ | with_reducible apply same_next
                | with_reducible apply same_ite | with_reducible apply State.setOp_same
                | with_reducible apply State.countFails_same | with_reducible apply State.badRead_same
                | with_reducible apply State.tileRecovered_same | with_reducible apply State.tileLost_same | split

theorem execProducerReplay_same (id tile : Nat) (verifies : Bool) (s : State) (hM : within 102230382 M = true)
    (h_s : s.same M z) :
    Result.same M z (execProducerReplay id tile verifies s) := by
  unfold execProducerReplay
  repeat' first | with_reducible assumption | exact within_trans (by decide) hM | with_reducible apply same_next
                | with_reducible apply State.bump32_same | with_reducible apply State.excursion_same
                | with_reducible apply State.onRecord_same | with_reducible apply State.writePiece_same
                | with_reducible apply State.countFails_same | with_reducible apply State.tileRecovered_same
                | with_reducible apply State.tileLost_same | split

theorem execNop_same (l : ListId) (r : OpRecord) (s : State) (hM : within 2 M = true) (h_s : s.same M z) :
    Result.same M z (execNop l r s) := by
  unfold execNop
  repeat' first | with_reducible assumption | intro _ | with_reducible apply same_ifUnit
                | with_reducible apply State.seqRecord_same | simp only [id]

theorem execWait_same (l : ListId) (r : OpRecord) (s : State) (hM : within 2 M = true) (h_s : s.same M z) :
    Result.same M z (execWait l r s) := by
  unfold execWait
  repeat' first | with_reducible assumption | intro _ | with_reducible apply same_ifUnit
                | with_reducible apply State.seqRecord_same | simp only [id]

theorem execSetc_same (l : ListId) (r : OpRecord) (s : State) (hM : within 2 M = true) (h_s : s.same M z) :
    Result.same M z (execSetc l r s) := by
  unfold execSetc
  repeat' first | with_reducible assumption | intro _ | with_reducible apply same_ifUnit
                | with_reducible apply State.setCount_same | with_reducible apply State.seqRecord_same

theorem execAddc_same (l : ListId) (r : OpRecord) (s : State) (hM : within 2 M = true) (h_s : s.same M z) :
    Result.same M z (execAddc l r s) := by
  unfold execAddc
  repeat' first | with_reducible assumption | intro _ | with_reducible apply same_ifUnit
                | with_reducible apply State.setCount_same | with_reducible apply State.seqRecord_same

theorem execSubc_same (l : ListId) (r : OpRecord) (s : State) (hM : within 2 M = true) (h_s : s.same M z) :
    Result.same M z (execSubc l r s) := by
  unfold execSubc
  repeat' first | with_reducible assumption | intro _ | with_reducible apply same_ifUnit
                | with_reducible apply State.setCount_same | with_reducible apply State.seqRecord_same

theorem execLoop_same (l : ListId) (r : OpRecord) (s : State) (hM : within 34 M = true) (h_s : s.same M z) :
    Result.same M z (execLoop l r s) := by
  unfold execLoop
  repeat' first | with_reducible assumption | exact within_trans (by decide) hM | intro _ | with_reducible apply same_ifUnit
                | with_reducible apply same_ite | with_reducible apply State.seqRecord_same
                | with_reducible apply State.jump_same

theorem execOpListRefetchDone_same (l : ListId) (s : State) (hM : within 32 M = true) (h_s : s.same M z) :
    Result.same M z (execOpListRefetchDone l s) := by
  unfold execOpListRefetchDone
  repeat' first | with_reducible assumption | exact Or.inl (within_bit hM (by decide)) | with_reducible exact Or.inr rfl
                | intro _ | with_reducible apply same_ifUnit | with_reducible apply same_ite | simp only [same_mk]
                | with_reducible apply Same.of

theorem execFence_same (l : ListId) (r : OpRecord) (s : State) (hM : within 2 M = true) (h_s : s.same M z) :
    Result.same M z (execFence l r s) := by
  unfold execFence
  repeat' first | with_reducible assumption | intro _ | with_reducible apply same_ifUnit | with_reducible apply same_ite
                | with_reducible apply State.holdSeq_same | with_reducible apply State.seqRecord_same | simp only [id]

theorem execSignal_same (l : ListId) (r : OpRecord) (s : State) (hM : within 2 M = true) (h_s : s.same M z) :
    Result.same M z (execSignal l r s) := by
  unfold execSignal
  repeat' first | with_reducible assumption | intro _ | with_reducible apply same_ifUnit
                | with_reducible apply State.seqRecord_same | with_reducible apply State.signalFrom_same

theorem execPhaseDone_same (l : ListId) (r : OpRecord) (s : State) (hM : within 34 M = true) (h_s : s.same M z) :
    Result.same M z (execPhaseDone l r s) := by
  unfold execPhaseDone
  repeat' first | with_reducible assumption | exact Or.inl (within_bit hM (by decide)) | with_reducible exact Or.inr rfl
                | exact within_trans (by decide) hM | intro _ | with_reducible apply same_ifUnit
                | with_reducible apply State.seqRecord_same | with_reducible apply State.refreshPhases_same
                | simp only [same_mk] | with_reducible apply Same.of

theorem execEndStep_same (l : ListId) (r : OpRecord) (s : State) (hM : within 67338318 M = true) (h_s : s.same M z) :
    Result.same M z (execEndStep l r s) := by
  unfold execEndStep
  repeat' first | with_reducible assumption | exact within_trans (by decide) hM | intro _ | with_reducible apply same_ifUnit
                | with_reducible apply same_ite | with_reducible apply State.holdSeq_same
                | with_reducible apply State.seqRecord_same | with_reducible apply State.endOfStep_same

theorem execGetVersion_same (s : State) (hM : within 67108864 M = true) (h_s : s.same M z) :
    Result.same M z (execGetVersion s) := by
  unfold execGetVersion
  repeat' first | with_reducible assumption | exact within_trans (by decide) hM | intro _
                | with_reducible apply State.send_same | with_reducible apply State.onSpdm_same

theorem execGetCapabilities_same (s : State) (hM : within 100663296 M = true) (h_s : s.same M z) :
    Result.same M z (execGetCapabilities s) := by
  unfold execGetCapabilities
  repeat' first | with_reducible assumption | exact within_trans (by decide) hM | intro _
                | with_reducible apply State.fresh_same | with_reducible apply State.spdm_same
                | with_reducible apply State.onSpdm_same

theorem execNegotiateAlgorithms_same (hash asym : Nat) (s : State) (hM : within 67108864 M = true) (h_s : s.same M z) :
    Result.same M z (execNegotiateAlgorithms hash asym s) := by
  unfold execNegotiateAlgorithms
  repeat' first | with_reducible assumption | exact within_trans (by decide) hM | intro _
                | with_reducible apply State.spdm_same | with_reducible apply State.onSpdm_same

theorem execGetDigests_same (s : State) (hM : within 67108864 M = true) (h_s : s.same M z) :
    Result.same M z (execGetDigests s) := by
  unfold execGetDigests
  repeat' first | with_reducible assumption | exact within_trans (by decide) hM | intro _
                | with_reducible apply State.spdm_same | with_reducible apply State.onSpdm_same

theorem execGetCertificate_same (slot offset len : Nat) (s : State) (hM : within 67108864 M = true) (h_s : s.same M z) :
    Result.same M z (execGetCertificate slot offset len s) := by
  unfold execGetCertificate
  repeat' first | with_reducible assumption | exact within_trans (by decide) hM | intro _ | with_reducible apply same_ite
                | with_reducible apply State.spdm_same | with_reducible apply State.spdmError_same
                | with_reducible apply State.onSpdm_same

theorem execChallenge_same (slot : Nat) (nonce : List Byte) (s : State) (hM : within 102760448 M = true) (h_s : s.same M z) :
    Result.same M z (execChallenge slot nonce s) := by
  unfold execChallenge
  repeat' first | with_reducible assumption | exact within_trans (by decide) hM | intro _ | with_reducible apply same_ite
                | with_reducible apply State.fresh_same | with_reducible apply State.spdmError_same
                | with_reducible apply State.onSpdm_same | with_reducible apply State.signSpdm_same

theorem execGetMeasurements_same (index : Nat) (signed : Bool) (nonce : List Byte) (s : State)
    (hM : within 102760448 M = true) (h_s : s.same M z) :
    Result.same M z (execGetMeasurements index signed nonce s) := by
  unfold execGetMeasurements
  repeat' first | with_reducible assumption | exact within_trans (by decide) hM | intro _ | with_reducible apply same_ite
                | with_reducible apply State.fresh_same | with_reducible apply State.spdm_same
                | with_reducible apply State.spdmError_same | with_reducible apply State.onSpdm_same
                | with_reducible apply State.signSpdm_same

theorem execChunkGet_same (handle seq : Nat) (s : State) (hM : within 102760448 M = true) (h_s : s.same M z) :
    Result.same M z (execChunkGet handle seq s) := by
  unfold execChunkGet
  repeat' first | with_reducible assumption | exact Or.inl (within_bit hM (by decide)) | with_reducible exact Or.inr rfl
                | exact within_trans (by decide) hM | intro _ | with_reducible apply same_ite
                | with_reducible apply State.upTo_same | with_reducible apply State.spdm_same
                | with_reducible apply State.spdmError_same | with_reducible apply State.onSpdm_same | simp only [same_mk]
                | with_reducible apply Same.of

theorem execVendorDefinedRequest_same (wantCert : Bool) (nonce : List Byte) (s : State) (hM : within 102760448 M = true)
    (h_s : s.same M z) :
    Result.same M z (execVendorDefinedRequest wantCert nonce s) := by
  unfold execVendorDefinedRequest
  repeat' first | with_reducible assumption | exact within_trans (by decide) hM | intro _
                | with_reducible apply State.spdmError_same | with_reducible apply State.onSpdm_same
                | with_reducible apply State.largeSpdm_same | split

theorem execSpdmUnsupportedRequest_same (code : Nat) (s : State) (hM : within 67108864 M = true) (h_s : s.same M z) :
    Result.same M z (execSpdmUnsupportedRequest code s) := by
  unfold execSpdmUnsupportedRequest
  repeat' first | with_reducible assumption | exact within_trans (by decide) hM | intro _
                | with_reducible apply State.spdm_same | with_reducible apply State.onSpdm_same

theorem execI3cSetdasa_same (static addr : Nat) (s : State) (hM : within 75497472 M = true) (h_s : s.same M z) :
    Result.same M z (execI3cSetdasa static addr s) := by
  unfold execI3cSetdasa
  repeat' first | with_reducible assumption | exact within_trans (by decide) hM | intro _ | with_reducible apply same_next
                | with_reducible apply same_ite | with_reducible apply State.send_same
                | with_reducible apply State.onBoard_same

theorem execI3cEntdaa_same (addr : Nat) (s : State) (hM : within 75497472 M = true) (h_s : s.same M z) :
    Result.same M z (execI3cEntdaa addr s) := by
  unfold execI3cEntdaa
  repeat' first | with_reducible assumption | exact within_trans (by decide) hM | intro _ | with_reducible apply same_next
                | with_reducible apply same_ite | with_reducible apply State.send_same
                | with_reducible apply State.onBoard_same

theorem execI3cPrivateWrite_same (addr : Nat) (data : List Byte) (s : State) (hM : within 8388608 M = true)
    (h_s : s.same M z) :
    Result.same M z (execI3cPrivateWrite addr data s) := by
  unfold execI3cPrivateWrite
  repeat' first | with_reducible assumption | intro _ | with_reducible apply same_next | with_reducible apply same_ite
                | with_reducible apply State.onBoard_same

theorem execI3cPrivateRead_same (addr len : Nat) (s : State) (hM : within 100663296 M = true) (h_s : s.same M z) :
    Result.same M z (execI3cPrivateRead addr len s) := by
  unfold execI3cPrivateRead
  repeat' first | with_reducible assumption | exact within_trans (by decide) hM | with_reducible apply same_next
                | with_reducible apply State.send_same | with_reducible apply State.fresh_same | split

theorem execBypass_same (s : State) (hM : within 75497472 M = true) (h_s : s.same M z) : Result.same M z (execBypass s) := by
  unfold execBypass
  repeat' first | with_reducible assumption | exact within_trans (by decide) hM | intro _
                | with_reducible apply State.send_same | with_reducible apply State.jtagTake_same

theorem execIdcode_same (s : State) (hM : within 75497472 M = true) (h_s : s.same M z) : Result.same M z (execIdcode s) := by
  unfold execIdcode
  repeat' first | with_reducible assumption | exact within_trans (by decide) hM | intro _
                | with_reducible apply State.send_same | with_reducible apply State.jtagTake_same

theorem execSamplePreload_same (pins preload : Nat) (s : State) (hM : within 75497472 M = true) (h_s : s.same M z) :
    Result.same M z (execSamplePreload pins preload s) := by
  unfold execSamplePreload
  repeat' first | with_reducible assumption | exact within_trans (by decide) hM | intro _
                | with_reducible apply State.send_same | with_reducible apply State.onBoard_same
                | with_reducible apply State.jtagTake_same

theorem execExtest_same (s : State) (hM : within 8388608 M = true) (h_s : s.same M z) : Result.same M z (execExtest s) := by
  unfold execExtest
  repeat' first | with_reducible assumption | intro _ | with_reducible apply same_next
                | with_reducible apply same_ite_result | with_reducible apply State.onBoard_same
                | with_reducible apply State.jtagTake_same

theorem execClamp_same (s : State) (hM : within 75497472 M = true) (h_s : s.same M z) : Result.same M z (execClamp s) := by
  unfold execClamp
  repeat' first | with_reducible assumption | exact within_trans (by decide) hM | intro _ | with_reducible apply same_next
                | with_reducible apply same_ite_result | with_reducible apply State.send_same
                | with_reducible apply State.onBoard_same | with_reducible apply State.jtagTake_same

end Sys2Proof.Machine
end

