-- ==== Sys2Proof/Tests/Slice0.lean ====
section
/-! SUPPORT. Tests: small states, ill-formed terms that the checks refuse, and a witness for the hypotheses of every statement. -/
namespace Sys2Proof.Tests
open Sys2Proof Sys2Proof.Machine
set_option Elab.async false

-- ill-formed terms, one for each check

def tx0 : Tx := ⟨0, 0, false, false, false, false, false, 1, 0, 5, 0, 0, 0, 0, 0, []⟩
def query0 : NetQuery := ⟨0, 0, 0, 0, 0, []⟩

theorem test_wf_accepts : Instr.wf (.mbxDoorbell 63) = true ∧ Instr.wf (.nop 383 0) = true ∧ Instr.wf (.readRequest tx0) = true := by decide
theorem test_wf_list : Instr.wf (.nop 384 0) = false ∧ Instr.wf (.opListRefetchDone 384) = false := by decide
theorem test_wf_core_list : Instr.wf (.vop 192 (BitVec.ofNat 256 (3 * 2 ^ 253 + 2 ^ 248))) = false := by decide
theorem test_wf_marrow_list : Instr.wf (.mstream 191 (BitVec.ofNat 256 (5 * 2 ^ 253 + 2 ^ 248))) = false := by decide
theorem test_wf_record : Instr.wf (.wait 0 0) = false ∧ Instr.wf (.vop 0 0) = false := by decide
theorem test_wf_mailbox : Instr.wf (.mbxDoorbell 64) = false ∧ Instr.wf (.mailboxPageWrite 0 4095 [0, 0]) = false := by decide
theorem test_wf_stack : Instr.wf (.thermalSample 12 0) = false ∧ Instr.wf (.pageMigrationDone 0 32 0) = false := by decide
theorem test_wf_row : Instr.wf (.scrub 0 0 2 0 0 .clean) = false ∧ Instr.wf (.scrub 0 32 0 0 0 .clean) = false := by decide
theorem test_wf_port : Instr.wf (.laneRetrainDone 48) = false ∧ Instr.wf (.laneTestStart 7 2) = false ∧ Instr.wf (.linkUp 0 0 5) = false := by decide
theorem test_wf_net_port : Instr.wf (.ptpSyncSend 2) = false ∧ Instr.wf (.arpRequest { query0 with port := 2 }) = false := by decide
theorem test_wf_queue : Instr.wf (.slotGrant 1048576) = false ∧ Instr.wf (.hostEnqueue (262144 * 64) [0]) = false := by decide
theorem test_wf_phase : Instr.wf (.phaseRelease 16) = false := by decide
theorem test_wf_stream : Instr.wf (.actuationFrameSend 4096) = false := by decide
theorem test_wf_core : Instr.wf (.coreRotationStart 192) = false ∧ Instr.wf (.coreCheckerFailure 0 52) = false := by decide
theorem test_wf_marrow : Instr.wf (.marrowCheckerFailure 0 16) = false := by decide
theorem test_wf_link : Instr.wf (.dieToDieReplay 24) = false ∧ Instr.wf (.dieToDieLaneFailure 23 2 true) = false := by decide
theorem test_wf_service : Instr.wf (.serviceCoreFault 16) = false := by decide
theorem test_wf_test_unit : Instr.wf (.selfTest 0 0 0 [.lane 48 0]) = false ∧ Instr.wf (.selfTest 0 0 0 [.engine 12 0]) = false := by decide
theorem test_wf_target : Instr.wf (.storageConnectionDone 16 0 true) = false := by decide
theorem test_wf_transaction : Instr.wf (.readRequest { tx0 with len := 513 }) = false ∧ Instr.wf (.readRequest { tx0 with type := 16 }) = false := by decide
theorem test_wf_query : Instr.wf (.arpRequest { query0 with vlan := 65536 }) = false := by decide
theorem test_wf_flit : Instr.wf (.flitReceive 0 .clean []) = false := by decide
theorem test_wf_register : Instr.wf (.registerWrite 0 3 0) = false ∧ Instr.wf (.registerWrite 0 4 (2 ^ 32)) = false := by decide
theorem test_wf_straps : Instr.wf (.coldResetRelease ⟨8, 0, false⟩) = false := by decide
theorem test_wf_i3c : Instr.wf (.i3cEntdaa 128) = false := by decide
theorem test_wf_spdm : Instr.wf (.challenge 0 []) = false ∧ Instr.wf (.spdmUnsupportedRequest 256) = false := by decide

-- states

/-- A device in READY: powered, out of reset, its PCIe link up. -/
def ready : State :=
  { ((State.reset.setFld Fld.state 1).setFld Fld.sstate 1).setFld Fld.bootStage 15 with
    board := { State.reset.board with standbyGood := true, coldRstLow := false, perstLow := false, vin12Good := true }
    host := { State.reset.host with linkUp := true, busMaster := true } }

/-- A message of this code and body in mailbox k, its doorbell rung. -/
def posted (s : State) (k code : Nat) (body : List Byte) : State :=
  (s.setPage k 0 (Msg.bytes ⟨code, 0, 7, body.length, 0, 0, 0, 0, body⟩)).post k

/-- An admitted job with nothing in it. -/
def job : Job := ⟨[], false, false, 0, 0, 0, 0, [], [], [], false, []⟩

/-- A device with a job. -/
def bound : State := { (ready.setFld Fld.state 3).setFld Fld.sstate 2 with job := some job }

/-- The tick runs; tick 4 has fired and a step that began at it goes on. -/
def ticking : State :=
  { ((bound.setFld Fld.run 1).setFld Fld.running 1).setFld Fld.tickNumber 4 with
    tick := { TickSt.zero with next := 5, stepRunning := true, stepTick := 4 } }

/-- A list whose first record is `r`, with every phase released. -/
def listed (l : ListId) (r : OpRecord) : State :=
  let s := ((ticking.setFld (Fld.seqState l) 0).setFld (Fld.seqNext l) 0).setFld (Fld.released l) 0xFFFF
  { s with cores := { s.cores with lists := [(l, [r])], nextId := 9 } }

/-- A record of a unit and opcode with its low bits. -/
def rec (unit opcode low : Nat) : OpRecord := BitVec.ofNat 256 (unit * 2 ^ 253 + opcode * 2 ^ 248 + low)

def atByte (s : State) (a : Nat) (v : Byte) : State := { s with mem := [(a, v)] }

-- witnesses: steps and frames

theorem w_step : State.reset.pending = [] ∧ State.reset.now + 2 < 2 ^ 64 ∧
    step { State.reset with pending := [.tckCtrlRunClear] } = .next State.reset ∧ State.reset.wf = true :=
  ⟨rfl, by decide +kernel, rfl, by decide +kernel⟩
theorem w_frames : exec .tckCtrlRunClear State.reset = .next State.reset := rfl
theorem w_units : Instr.unitsOk .tick = true ∧ Instr.unitsOk (.mbxDoorbell 64) = false := by decide

-- witnesses: sequencers and ops

theorem w_sequencer : ∀ op, op < 10 → (listed 383 (rec 0 op 0)).issues 383 (rec 0 op 0) 0 op = true := by decide +kernel
theorem w_loop : let s := (listed 0 (rec 0 5 0)).setCount 0 0 1; s.issues 0 (rec 0 5 0) 0 5 = true ∧ s.count 0 (rec 0 5 0).loopCnt ≠ 0 ∧
    Tab.get 0 s.cores.bufFirst 0 ≤ (rec 0 5 0).loopTarget ∧ s.fld (Fld.seqNext 0) ≤ (rec 0 5 0).loopTarget + 2047 := by decide +kernel
theorem w_loop_refetch : let s0 := (listed 0 (rec 0 5 0)).setCount 0 0 1; let s : State := { s0 with cores := { s0.cores with bufFirst := [(0, 1)] } }
    s.issues 0 (rec 0 5 0) 0 5 = true ∧ (rec 0 5 0).loopTarget < Tab.get 0 s.cores.bufFirst 0 := by decide +kernel
theorem w_loop_zero : (listed 0 (rec 0 5 0)).count 0 (rec 0 5 0).loopCnt = 0 := by decide +kernel
theorem w_fence_end : (listed 383 (rec 0 6 1)).listOps 383 = [] := by decide +kernel
theorem w_refetch : 383 ∈ { State.reset with cores := { State.reset.cores with refetching := [383] } }.cores.refetching := by decide
theorem w_held : (listed 0 (rec 0 0 0)).gate 0 (rec 0 1 0) = .notNext ∧
    ((listed 0 (rec 0 0 0)).setFld (Fld.released 0) 0).gate 0 (rec 0 0 0) = .held 1 7 ∧
    ((listed 191 (rec 2 4 0)).setFld (Fld.released 191) 0).gate 191 (rec 2 4 0) = .held 1 7 ∧
    ((listed 191 (rec 3 2 0)).setFld (Fld.released 191) 0).gate 191 (rec 3 2 0) = .held 1 7 ∧
    ((listed 192 (rec 5 3 0)).setFld (Fld.released 192) 0).gate 192 (rec 5 3 0) = .held 1 7 := by decide +kernel
theorem w_matrix : ∀ u, u < 3 → 0 < u → ∀ op, op < 5 → 0 < op → (listed 191 (rec u op 0)).issues 191 (rec u op 0) u op = true := by decide +kernel
theorem w_vector : (listed 191 (rec 3 1 0)).issues 191 (rec 3 1 0) 3 1 = true ∧ (listed 191 (rec 3 2 0)).issues 191 (rec 3 2 0) 3 2 = true ∧
    ∀ o ∈ (listed 191 (rec 3 2 0)).cores.inflight, o.id ≠ 9 := by decide +kernel
theorem w_transfer : ∀ kind, kind < 6 → let s := atByte (listed 0 (rec 4 1 0)) (coreStore 0 + 16) (BitVec.ofNat 8 kind)
    s.issues 0 (rec 4 1 0) 4 1 = true ∧ s.xferKind 0 (rec 4 1 0) = kind := by decide +kernel
theorem w_collective : ∀ kind, kind < 5 → let s := { listed 0 (rec 4 1 0) with mem := [(coreStore 0 + 16, 6), (coreStore 0 + 66, BitVec.ofNat 8 kind)] }
    let d := XferOp.of (s.rd (coreStore 0 + (rec 4 1 0).desc) 128)
    s.issues 0 (rec 4 1 0) 4 1 = true ∧ d.kind = 6 ∧ (CollOp.of d.ext).kind = kind := by decide +kernel
theorem w_marrow : ∀ kind, kind < 4 → ∀ op, op < 6 → 0 < op →
    let s := atByte (listed 383 (rec 5 op 0)) (stackScratch (marrowStack 383)) (BitVec.ofNat 8 kind)
    s.issues 383 (rec 5 op 0) 5 op = true ∧ s.rdLE (stackScratch (marrowStack 383) + (rec 5 op 0).desc) 1 = kind := by decide +kernel
/-- An op of list l in flight as number 3. -/
def opOf (l : ListId) (r : OpRecord) (reqs : List Request) (reloading : List Nat) : InFlight :=
  ⟨3, l, 0, r, 0, 0, Counters.zero, 0, 0, 0, reqs, [], [], .done, 0, false, reloading, [], false, false, 0⟩

def inFlight (s : State) (o : InFlight) : State := { s with cores := { s.cores with inflight := [o] } }

def request (path : ReqPath) (sent : Bool) : Request := ⟨0, path, 4096, 64, [], sent⟩

/-- Tile 0 stamped by the first record of list 0, whose replay log entry has fingerprint 0. -/
def tiled : State :=
  let s := listed 0 (rec 3 1 0)
  { s with tags := [(0, ⟨0, true, true, 0, 0, 0⟩)], cores := { s.cores with replay := [(0, ⟨0, true, rec 3 1 0, 0⟩)] } }

theorem w_completion : let o := opOf 383 (rec 5 3 0) [] []; let s := inFlight ready o
    s.op? 3 = some o ∧ o.record.unit ≠ 4 ∧ s.running o = true ∧ s.startable o.list o.record.unit = none := by decide +kernel
theorem w_waiting_records : (let s := inFlight (listed 0 (rec 0 6 1)) (opOf 0 (rec 1 1 0) [] []); s.issues 0 (rec 0 6 1) 0 6 = true ∧ ∃ o ∈ s.listOps 0, o.record.unit ∈ fenceUnits 0 (rec 0 6 1).fenceMask) ∧
    (let s := inFlight (listed 0 (rec 0 9 0)) (opOf 0 (rec 1 1 0) [] []); s.issues 0 (rec 0 9 0) 0 9 = true ∧ s.listOps 0 ≠ []) := by decide +kernel
theorem w_request_end : ∀ p ∈ [ReqPath.memory, .hostRead, .hostWrite], let o := opOf 0 (rec 4 1 0) [request p true] []; let s := inFlight ready o
    s.op? 3 = some o ∧ o.requests.find? (fun r => decide (r.num = 0) && r.sent) = some (request p true) ∧ o.record.unit = 4 := by decide +kernel
theorem w_tag : let o := opOf 191 (rec 4 1 0) [request .memory false] []; let s := inFlight ready o
    s.tagsUsed < 45056 ∧ s.outstanding 191 < 256 ∧ s.nextUnsent 191 = some (o, request .memory false) ∧
    (roundRobin s.cores.tagTurn).find? (fun m => (s.nextUnsent m).isSome && decide (s.outstanding m < 256)) = some 191 := by decide +kernel
/-- List 383 waits for count register 1. -/
def rereading (v : Nat) : State :=
  ((((listed 383 (rec 0 0 (2 ^ 231 + 2 ^ 211 + 2 ^ 179))).setFld (Fld.seqState 383) 1).setFld (Fld.seqWait 383) 3).setCount 383 1 v)
theorem w_reread : ∀ v ∈ [0, 0xFFFFFFFF], let s := rereading v
    s.fld (Fld.seqState 383) = 1 ∧ s.fld (Fld.seqWait 383) = 3 ∧ ((s.list 383)[s.fld (Fld.seqNext 383)]?).isSome = true ∧
    s.preWait 383 (rec 0 0 (2 ^ 231 + 2 ^ 211 + 2 ^ 179)) = decide (v ≠ 0) := by decide +kernel
theorem w_reload : let o := opOf 0 (rec 3 1 0) [] [0]
    o.awaits 0 = true ∧ 0 ∉ o.replaying ∧ (inFlight ready o).op? 3 = some o ∧ (inFlight ready o).badTile 0 = false ∧ ((inFlight ready o).countFails [0]).replayable 0 = false ∧
    (inFlight tiled o).op? 3 = some o ∧ ((inFlight tiled o).countFails [0]).replayable 0 = true ∧
    (let p := { o with replaying := [0] }; p.awaits 0 = true ∧ 0 ∈ p.replaying ∧ (inFlight tiled p).op? 3 = some p ∧ ((inFlight tiled p).replayOf 0).isSome = true) := by
  decide +kernel

-- witnesses: ticks

/-- A ticking state with another tick record of the machine. -/
def tickOf (f : TickSt → TickSt) : State := { ticking with tick := f ticking.tick }

theorem w_tick : ticking.armed = true ∧ (tickOf (fun t => { t with stopAt := some 6 })).tick.next < 6 ∧
    (∀ p : Option Nat × Bool, p ∈ [(none, false), (some 0, true), (some 1, true)] →
      let s := tickOf (fun t => { t with pointPassed := true, overrun := p.1, stepRunning := p.2 })
      s.armed = true ∧ s.tick.stopAt = none ∧ s.tick.pointPassed = true ∧ s.tick.stopped = none ∧ s.tick.overrun = p.1 ∧ s.tick.stepRunning = p.2 ∧
      s.tick.rerun = false) := by decide +kernel
theorem w_tick_stop : (tickOf (fun t => { t with stopAt := some 5 })).tick.stopAt = some 5 ∧ 5 ≤ ticking.tick.next ∧ ticking.fld Fld.run = 1 := by
  decide +kernel
theorem w_boundary : let s : State := { tickOf (fun t => { t with stepRunning := false, marks := [(5, true)] }) with changes := [(5, .streamRemove 1)] }
    s.armed = true ∧ (∃ c ∈ s.changes, c.1 ≤ s.tick.next) ∧ s.haltNow s.tick.next = true ∧ s.tick.stepRunning = false ∧ s.tick.rerun = false ∧
    (let r := tickOf (fun t => { t with halted := true, marks := [(5, false)] })
     r.armed = true ∧ r.tick.halted = true ∧ r.haltNow r.tick.next = false) := by decide +kernel
/-- Phase 15 is open; 192 of its records are missing. -/
def phased : State :=
  { ((ticking.setFld (Fld.phaseValid 15) 1).setFld Fld.warnFrac 1) with
    tick := { ticking.tick with rerun := true }, cores := { ticking.cores with lists := [(0, [rec 0 8 (15 * 2 ^ 212)])] } }
theorem w_phase : phased.tick.stepRunning = true ∧ phased.phaseValid 15 = true ∧ phased.phaseOpen 15 = true ∧ phased.fld Fld.warnFrac ≠ 0 := by
  decide +kernel

-- witnesses: peers

/-- Peers 5 and 6 of a device of number 0 with a job. -/
def peered (s : State) : State := { s with fabric := { s.fabric with peers := [(0, ⟨5, true, false⟩), (1, ⟨6, true, true⟩)] } }

def txOf (type op src : Nat) : Tx := { tx0 with type := type, op := op, src := src, len := 0, word := 2 }

theorem w_triggers : (let s := peered (tickOf id); s.fld Fld.running ≠ 0 ∧ s.tick.pointPassed = false) ∧
    (∀ op ∈ [0, 2], let s := peered ticking; let tx := txOf 0xA op 5
      tx.type = 0xA ∧ tx.op = op ∧ tx.dst = s.gdn ∧ s.fromPeer tx = true ∧ s.fld Fld.running ≠ 0 ∧ s.tick.stopped = none ∧ s.tick.overrun = none ∧
      s.memory.undoFull = false ∧ s.job.isSome = true ∧ s.fld Fld.state ≠ 6 ∧ s.fld Fld.state ≠ 8) ∧
    (let s := tickOf (fun t => { t with rerun := true, stepRunning := false }); s.tick.rerun = true ∧ s.fld Fld.running ≠ 0 ∧ s.tick.stopped = none ∧ s.tick.stepRunning = false) := by
  decide +kernel
theorem w_slow : (let tx := txOf 8 0 6; tx.type = 8 ∧ tx.op = 0 ∧ tx.dst = (peered ticking).gdn ∧ (peered ticking).fromPeer tx = true) ∧
    (let s : State := { ticking with slow := [⟨6, 0x20, 1, 2 ^ 64 - 1⟩] }
     s.slow.find? (fun n => n.src = 6) = some ⟨6, 0x20, 1, 2 ^ 64 - 1⟩ ∧ 2 ^ 64 - 1 < 2 ^ 64) := by decide +kernel

-- witnesses: time

theorem w_measure : ∀ t ∈ [1, 2, 3], let s := ready.setFld Fld.timeState t
    s.fld Fld.timeState = t ∧ s.armed = false ∧ (s.setFld Fld.run 1).armed = true ∧ (s.setFld Fld.run 1).fld Fld.timeState = t ∧
    (-1000 : Int).natAbs ≤ 1000 ∧ 1000 < (1001 : Int).natAbs ∧ s.time.good + 1 < 16 ∧
    16 ≤ ({ s with time := { s.time with good := 15 } } : State).time.good + 1 := by decide +kernel
/-- PTP on both ports with this source, role, profile and best clock. -/
def ptp (src role profile : Nat) (best : Option (Nat × PtpRank)) : State :=
  { ready.setFld Fld.timeSrc src with time := { ready.time with ptpPorts := 3, ptpRole := role, ptpProfile := profile, best := best } }
theorem w_ptp : (∀ k ∈ [PtpKind.management, .announce, .sync, .followUp, .delayResp, .delayReq, .pdelayReq], let m : PtpMsg := ⟨1, k, 0, .udp4, some ⟨0, 0, 0, 0⟩, some 7⟩
    ∀ s ∈ [ptp 0 0 0 (some (1, ⟨0, 0, 0, 0⟩)), ptp 2 0 0 (some (1, ⟨0, 0, 0, 0⟩)), ptp 0 1 0 none, ptp 0 1 1 none], m.kind = k ∧ m.offset = some 7 ∧ s.ptpOn m.port = true ∧ m.domain = s.time.ptpDomain ∧
      m.transport = s.ptpTransport ∧ s.twoStep = true) ∧ ready.ptpOn 1 = false ∧
    (∀ src ∈ [0, 2], let s := ptp src 0 0 (some (1, ⟨0, 0, 0, 0⟩)); s.ptpPort 1 = .slave ∧ s.ptpPort 0 ≠ .slave ∧ s.timeSource = src ∧ s.time.ptpProfile = 0) ∧
    (ptp 0 1 0 none).ptpPort 1 = .master ∧ (ptp 0 1 1 none).time.ptpProfile = 1 := by decide +kernel
/-- A device with this time source, time state and lead bit. -/
def timed (src state lead : Nat) : State := ((ready.setFld Fld.timeSrc src).setFld Fld.timeState state).setFld Fld.timeLead lead
theorem w_leads : (timed 0 2 1).fld Fld.timeLead = 1 ∧ (timed 1 2 0).timeSource = 1 ∧
    ({ (timed 1 2 0) with time := { ready.time with lead := some 4 } } : State).time.lead = some 4 ∧ (timed 1 2 0).time.lead = none ∧
    (let s := (timed 0 2 1).setFld Fld.slot 7; s.timeSource ≠ 1 ∧ s.fld Fld.timeLead = 1 ∧ 6 < s.gdn) ∧
    ({ ready with time := { ready.time with lowerLead := some 0 } } : State).time.lowerLead = some 0 ∧
    (∀ n ∈ [0, 1, 2], (timed n 2 0).timeSource = n ∧ (timed n 2 0).fld Fld.timeState = 2) ∧
    (let s : State := { timed 2 1 0 with time := { ready.time with good := 15 } }
     s.timeSource = 2 ∧ s.fld Fld.timeState = 1 ∧ s.time.good = 15 ∧ (-1000 : Int).natAbs ≤ 1000) ∧
    (∀ n ∈ [2, 3], let s := timed 0 n 0; s.fld Fld.timeState = n ∧ s.now / us 1000000 + 1 < 2 ^ 34) := by decide +kernel

-- witnesses: the plant network

/-- Queue 7 of stack 0, resident, of 16 entries from address 2^20. -/
def qdef7 : QDef := ⟨0, false, 4, 0, 2 ^ 20, 0xFFFF0000, 0, 0, 0, 0, 0, 2 ^ 21⟩
def queued (s : State) (q : Queue) : State := { s with qdefs := [(7, qdef7)], queues := [(7, q)], slots := [(0, [7])] }
def resident : Queue := { Queue.empty with resident := true }

def streamOf (type : Nat) : Stream := ⟨type, 3, 7, 100, 0, 0, none, none, 0, 0, 0, 0, 0⟩

def streaming (st : Stream) : State := { queued ticking resident with streams := [(9, st)] }

/-- A plant frame of stream 9 with this kind, length field and sequence number. -/
def frame (kind n seq : Nat) : List Byte :=
  toLE 2 0x5C47 ++ [1, BitVec.ofNat 8 kind] ++ toLE 2 9 ++ toLE 2 0 ++ toLE 4 seq ++ toLE 2 n ++ List.replicate 14 0
    ++ toLE 4 (crc32c (List.replicate 64 0)).toNat ++ List.replicate 64 0

def datagram (bs : List Byte) : Datagram := ⟨1, 0, false, false, 0, 0, 47000, bs⟩

theorem w_frame : let s := streaming (streamOf 1); let d := datagram (frame 1 64 1); let bs := d.bytes; let id := fieldLE bs 4 2
    d.fragment = false ∧ d.dstPort = s.plantPort d.port ∧ { d with dstPort := 1 }.dstPort ≠ s.plantPort d.port ∧
    Tab.find? ticking.streams id = none ∧ Tab.find? s.streams id = some (streamOf 1) ∧ (streamOf 1).admits d = true ∧
    fieldLE bs 3 1 = 1 ∧ frameForm bs = true ∧ (crc32c (bs.drop 32)).toNat = fieldLE bs 0x1C 4 ∧
    ((s.at_ d.arrival).landFrame 7 (frameDesc (streamOf 1) id d :: chunksOf 64 128 (bs.drop 32))).2 = true := by decide +kernel
theorem w_frame_drops : (streamOf 2).admits (datagram (frame 1 64 1)) = false ∧ fieldLE (frame 2 64 1) 3 1 ≠ 1 ∧ frameForm (frame 1 65 1) = false ∧
    (crc32c ((frame 1 64 1 ++ [0]).drop 32)).toNat ≠ fieldLE (frame 1 64 1) 0x1C 4 ∧ newer (fieldLE (frame 1 64 1) 8 4) 1 = false ∧
    newer (fieldLE (frame 1 64 1) 8 4) 0 = true ∧
    (let full : Queue := { resident with pos := ⟨15, 0, 0, 0⟩ }
     ((({ queued ticking full with streams := [(9, streamOf 1)] } : State).at_ 0).landFrame 7 [[], []]).2 = false) := by decide +kernel
/-- An actuation stream whose queue holds one frame of step 4. -/
def actuating (offset : Nat) : State :=
  let q := { resident with pos := ⟨2, 2, 0, 0⟩, frames := [⟨0, 2, 4, 0, 0⟩], win := [(0, toLE 2 64 ++ List.replicate 62 0)] }
  { queued (ticking.setFld Fld.running 1) q with streams := [(4095, { streamOf 2 with offset := offset })] }
theorem w_actuation : ∀ offset ∈ [199, 200], let s := actuating offset; let k : ActFrame := ⟨0, 2, 4, 0, 0⟩
    s.queues.head?.map (fun e => e.2.frames) = some [k] ∧ (∃ st ∈ s.streams, st.2.taken ≠ some k.step ∧ st.2.type = 2 ∧ actForm (s.entryBytes st.2.queue k.start) k.size = true ∧
      decide (k.time + 2000 ≤ k.stepTime + st.2.offset * 10) = decide (offset = 200) ∧ bitOf st.2.flags 3 = false ∧ bitOf (st.2.flags + 8) 3 = true) ∧
    s.tick.stopped = none ∧ s.fld Fld.running = 1 ∧ { s.tick with stopped := some 1 }.stopped.isSome = true := by decide +kernel
theorem w_query : ready.netField 1 8 4 = 0 ∧ bitOf (ready.netField 1 6 2) 12 = false ∧
    (let s : State := { ready with host := { ready.host with net := List.replicate 70 0 ++ [1, 0x10, 1, 0, 0, 10] ++ List.replicate 52 0 } }
     bitOf (s.netField 1 6 2) 12 = true ∧ s.vlanOk { query0 with port := 1, vlan := 1 } = true) := by decide +kernel
/-- A datagram to the remote mailbox, its message of n bytes followed by counter and signature. -/
def remoteBytes (n tail : Nat) : List Byte := padTo 8 (toLE 2 3) ++ toLE 2 n ++ List.replicate (22 + n + tail) 0

/-- The kept datagram compares unequal to any that carries a message. A signature that some key makes good is a value of the
opaque Config.rsaVerifies, so `fits` itself has no concrete witness; with no key it fails for every one. -/
theorem w_remote : (let s := ready.setFld Fld.remoteMbx 1; let n := 32 + fieldLE (remoteBytes 4064 392) 8 2
    s.served = true ∧ n = 4096 ∧ (remoteBytes 4064 392).length = n + 392 ∧ (remoteBytes 4064 391).length ≠ n + 392 ∧
    remoteBytes 4064 392 ≠ (Tab.get ([], []) s.host.remoteKept 48).1 ∧ min 4 (fieldLE s.remoteRecord 1 1) = 0 ∧
    ready.fld Fld.remoteMbx ≠ 1) ∧
    (let s : State := { ready.setFld Fld.remoteMbx 1 with host := { ready.host with remoteKept := [(48, ([1, 2], [3]))] } }
     Tab.get ([], []) s.host.remoteKept 48 = ([1, 2], [3]) ∧ s.served = true) ∧
    (let s : State := { ready.setFld Fld.remoteMbx 1 with sec := { ready.sec with records := [(8, List.replicate 33 0 ++ [4])] } }
     min 4 (fieldLE s.remoteRecord 1 1) = 4) := by decide +kernel

-- witnesses: rows, pages, channels, granules, lines

theorem w_row : ready.memory.remapped = [] ∧ ready.fld (Fld.chanRetired 11 31) < 32 ∧ (ready.setFld (Fld.poolFree 11) 1).fld (Fld.poolFree 11) ≠ 0 ∧
    ready.memory.pageTest = [] ∧ ready.memory.pageMig = [] ∧ ready.memory.retired = [] ∧
    (let s := (ready.setFld (Fld.chanRetired 11 31) 32).setFld Fld.freePages 24576
     32 ≤ s.fld (Fld.chanRetired 11 31) ∧ s.fld (Fld.chanState 11 31) = 0 ∧ 24576 ≤ s.fld Fld.freePages) ∧
    (let s : State := { ready with memory := { ready.memory with remapped := (List.range 64).map (fun r => (11, 31, 1, r)) } }
     64 ≤ (s.memory.remapped.filter (fun r => r.1 = 11 && r.2.1 = 31 && r.2.2.1 = 1)).length ∧ (11, 31, 1, 63) ∈ s.memory.remapped) ∧
    (let s := (ready.setFld (Fld.chanRetired 11 31) 32).setFld Fld.freePages 24575; s.fld Fld.freePages < 24576 ∧ s.fld (Fld.chanState 11 31) = 0) := by
  decide +kernel
theorem w_memory_work : (let s : State := { ready with memory := { ready.memory with pageMig := [(11, 31, 5)], chanMig := [(11, 31)], undo := [(4, ⟨⟨[], []⟩, false⟩)] } }
     (11, 31, 5) ∈ s.memory.pageMig ∧ (11, 31) ∈ s.memory.chanMig ∧ Tab.find? s.memory.undo 4 = some ⟨⟨[], []⟩, false⟩) ∧
    (let s : State := { ready with ckpt := { ready.ckpt with grans := [(4, .saving ⟨[], []⟩)] } }
     Tab.find? s.ckpt.grans 4 = some (.saving ⟨[], []⟩)) ∧
    (let s : State := { ready with fabric := { ready.fabric with commit := [(4, [0])] } }
     s.queueAt 4 ≠ []) := by decide +kernel
theorem w_thermal : (∀ v, v < 4 → (ready.setFld (Fld.tstep 11) v).fld (Fld.tstep 11) = v) ∧ ready.fld Fld.state ≠ 6 ∧
    (let s : State := { ready with memory := { ready.memory with coolSince := [(11, 1)] } }
     Tab.get 0 s.memory.coolSince 11 = 0 + 1 ∧ 0 + us 1000 < 2 ^ 64) ∧ Tab.get 0 ready.memory.coolSince 11 = 0 := by decide +kernel

-- witnesses: queues

def hold (o : Origin) (n : Nat) : Reservation := { Reservation.of n n [] o 0 with roomSince := some 0 }

theorem w_reserve : let q := { resident with waiting := [hold (.op 3) 16, hold .host 1] }; let s := queued ready q
    (s.queue 7).waiting = [hold (.op 3) 16, hold .host 1] ∧ s.canReserve 7 16 = true ∧ s.canReserve 7 17 = false ∧ s.qRoom 7 = 16 ∧
    s.mayGrant 7 (hold (.op 3) 16) = true ∧ s.mayGrant 7 (hold .host 17) = false ∧ s.hasWaits .host = false := by decide +kernel
theorem w_advance : (∀ p ∈ [(3, [0, 1, 2], 0, true), (3, [0, 2], 0, false), (3, [0, 2], 1, true), (256, [0], 2, false)],
      let k : Packet := ⟨4, p.1, p.1, [], p.2.1, .host⟩
      k.landed.Nodup ∧ (∀ i ∈ k.landed, i < k.size) ∧ k.start ≤ 4 ∧ 4 ≤ k.start + k.size ∧ k.isOpen p.2.2.1 = p.2.2.2) ∧
    (let k : Packet := ⟨4, 3, 3, [], [0, 2], .host⟩; (∀ i, i < 1 → i ∈ k.landed) ∧ 1 ∉ k.landed ∧ 4 - k.start ≤ 1 ∧ 1 < k.size) := by decide +kernel
theorem w_queue_engine : (queued ready resident).openPackets 0 < 2048 ∧
    (let q := { resident with packets := [⟨0, 2, 2, [], [], .host⟩] }; ((queued ready q).queue 7).packetOf 1 = some ⟨0, 2, 2, [], [], .host⟩ ∧ q.writeback = false) ∧
    ((queued ready { Queue.empty with fetching := true }).queue 7).fetching = true ∧
    (let s := queued ready { Queue.empty with slotSince := some 0 }; (s.queue 7).slotSince = some 0 ∧ (s.giveSlot 7).2 = true) ∧
    (queued ready resident).queue 7 = resident ∧ resident.slotSince = none ∧
    (let q := { resident with writeback := true }; ((queued ready q).queue 7).writeback = true ∧ ((queued ready q).queue 7).packets = []) := by
  decide +kernel
/-- Queue 7 fed by the host. -/
def hostQueue (q : Queue) : State := { queued ready q with qdefs := [(7, { qdef7 with producer := 2 ^ 31 })] }
theorem w_host_writes : ready.writesPass = true ∧ State.reset.barOpen = false ∧ (let s := hostQueue resident; s.barOpen = true ∧ s.hostHeld = false ∧ s.host.posted = [] ∧ (s.qdef? 7).any (fun d => d.hostFed) = true) ∧
    (let s := hostQueue { resident with waiting := [hold .host 17] }; s.barOpen = true ∧ s.hostHeld = true) ∧
    ready.bar0Refuses ⟨false, 0, 4, 0⟩ = false ∧ bar0Fits ⟨false, 0, 4, 0⟩ = true := by decide +kernel
theorem w_host_enqueue : 262143 * 64 + (List.replicate 64 (0 : Byte)).length ≤ 262144 * 64 ∧
    (let s := queued ready { resident with waiting := [hold .host 17] }
     let s1 := (s.at_ (0 + us 1000)).grantWaiting 7 (s.queue 7).waiting.length
     s.oldestHold = some (7, 0) ∧ s1.oldestHold = some (7, 0) ∧ s1.lacksRoom 7 = true) ∧
    (let s := queued ready { resident with waiting := [hold .host 1] }
     s.oldestHold = some (7, 0) ∧ ((s.at_ (0 + us 1000)).grantWaiting 7 (s.queue 7).waiting.length).oldestHold ≠ some (7, 0)) ∧
    ready.oldestHold = none := by decide +kernel

-- witnesses: online tests and sparing

/-- A device with a job, every class of online test enabled, its sequencers done. -/
def testing : State :=
  let s := ((bound.setFld Fld.testEnable 15).setFld Fld.running 1).setFld (Fld.poolFree 11) 3
  { s with tick := { TickSt.zero with next := 4 } }
theorem w_tests_start : (let s := testing; s.job.isSome = true ∧ (∀ c, c < 4 → bitOf (s.fld Fld.testEnable) c = true) ∧ s.fld (Fld.seqState 191) = 2 ∧
    s.fld Fld.running = 1 ∧ (s.reg Reg.tckTime).toNat + 6000 ≤ s.fld Fld.startTime + s.tick.next * s.fld Fld.period * 10 ∧
    s.tests.coreTest = none ∧ s.tests.migrating = [] ∧ s.fld (Fld.coreState 191) = 0 ∧ s.spares (191 / 48) = [48, 49, 50, 51] ∧
    s.testHeld 0 (decide (s.dieStep (191 / 48) ≠ 0)) = false ∧ (s.setFld Fld.intervening 1).testHeld 0 false = true ∧
    s.isSpare 3 51 = true ∧ coreKey 3 51 ∉ s.tests.spareTests ∧ s.testHeld 0 (decide (s.dieStep 3 ≠ 0)) = false) := by decide +kernel
theorem w_marrow_test_starts : let s := testing
    s.fld (Fld.seqState (192 + 191)) = 2 ∧ s.fld (Fld.mrwState 191) = 0 ∧ (s.hostFor 11 (s.fld (Fld.mrwPhys 191))).isSome = true ∧ s.tests.marrowTest = [] ∧
    (s.listsOn 11 (s.fld (Fld.mrwPhys 191))).length = 1 ∧ s.testHeld 1 (decide (s.fld (Fld.tstep 11) ≠ 0)) = false ∧
    s.memory.pageTest = [] ∧ s.memory.retired = [] ∧ s.fld (Fld.chanState 11 31) = 0 ∧
    s.testHeld 2 (decide (s.fld (Fld.tstep 11) ≠ 0) || decide (s.fld (Fld.poolFree 11) = 0)) = false := by decide +kernel
/-- Port 47 up with this many lanes. -/
def linked (s : State) (lanes : Nat) : State := (s.setFld (Fld.portState 47) 3).setFld (Fld.portLanes 47) lanes
theorem w_lane_test_starts : let s := linked testing 2
    s.carries 47 = true ∧ (lanesOf 47 - 1) ∉ (s.port 47).lanesLost ∧ 1 < s.fld (Fld.portLanes 47) ∧ s.fabric.ports = [] ∧ s.testHeld 3 false = false := by
  decide +kernel
theorem w_tests_end : (∀ b ∈ [false, true], let s : State := { testing with tests := { testing.tests with migrating := [⟨191, 51, b⟩] } }
     s.tests.migrating = [⟨191, 51, b⟩]) ∧
    (let s : State := { testing with
       tests := { testing.tests with coreTest := some (coreKey 3 51), marrowTest := [191] }
       memory := { testing.memory with pageTest := [(11, 31, 5)] }
       fabric := { testing.fabric with ports := [(47, { Port.zero with testing := some 1 })] } }
     s.tests.coreTest = some (coreKey 3 51) ∧ 191 ∈ s.tests.marrowTest ∧ (11, 31, 5) ∈ s.memory.pageTest ∧ (s.port 47).testing = some 1) := by
  decide +kernel
theorem w_failures : (let s := ready; s.isRetired 3 47 = false ∧ s.tests.migrating = [] ∧ s.coreOn 3 47 = some 191 ∧
      (s.stopCoreTests (some 191)).spares 3 = [48, 49, 50, 51] ∧ s.marrowFailed 11 15 = false ∧ s.tests.standby = true ∧
      ({ s with tests := { s.tests with standby := false } } : State).tests.standby = false ∧ (∀ m, m < modulesOf 23 → bitOf (Tab.get 0 s.tests.d2dOut 23) m = false)) ∧
    (let s : State := { ready with mram := { ready.mram with retiredCores := [240, 241, 242, 243], failedMarrow := (List.range 15).map (fun e => 176 + e) }
                                   tests := { ready.tests with d2dOut := [(23, 1)] } }
     s.isRetired 3 47 = false ∧ s.coreOn 3 47 = some 191 ∧ (s.stopCoreTests (some 191)).spares 3 = [] ∧ s.marrowFailed 11 15 = false ∧
     (∀ e, e < 16 → e ≠ 15 → s.marrowFailed 11 e = true) ∧ bitOf (Tab.get 0 s.tests.d2dOut 23) 0 = true) := by decide +kernel

-- witnesses: ports and flits

theorem w_lane : (∀ v ∈ [1, 2, 4, 8], let s := linked ready v
      s.carries 47 = true ∧ (lanesOf 47 - 1) ∉ (s.port 47).lanesLost ∧ (s.port 47).testing = none ∧ s.fabric.ports = [] ∧ s.fld (Fld.portLanes 47) = v) ∧
    (let s : State := { ready with fabric := { ready.fabric with ports := [(47, { Port.zero with retraining := true })] } }
     (s.port 47).retraining = true ∧ (s.port 47).unacked = []) := by decide +kernel
theorem w_link_up : (∀ v ∈ [1, 6], let s := ready.setFld (Fld.portState 39) v
      s.fld (Fld.portState 39) = v ∧ (s.port 39).retraining = false ∧ s.fld Fld.idValid = 0 ∧ (s.setFld Fld.idValid 1).fld Fld.idValid = 1 ∧
      (s.setFld Fld.idValid 1).wiredTo 39 ≠ 65535) := by decide +kernel
/-- A flit of this header with its CRC. -/
def flit (h : Nat) : List Byte := let b := padTo 248 (toLE 8 h); b ++ toLE 8 (crc64 b).toNat
theorem w_flit : ready.carries 47 = false ∧ (∀ h ∈ [0, 5 * 2 ^ 48], let f := flit h; let v := fieldLE f 0 8
    (linked ready 4).carries 47 = true ∧ f.length = 256 ∧ (crc64 (f.take 248)).toNat = fieldLE f 248 8 ∧ bitOf v 31 = false ∧ bitOf v 30 = false ∧
    decide (bitsOf v 63 48 = ((linked ready 4).port 47).expect) = decide (h = 0)) ∧ (flit 0 ++ [0]).length ≠ 256 ∧
    (let f := (1 : Byte) :: (flit 0).drop 1; (crc64 (f.take 248)).toNat ≠ fieldLE f 248 8) := by decide +kernel
-- witnesses: requests of peers

/-- Segment 0 of job HBM backed. -/
def backed (s : State) : State := s.setReg (Reg.segMap 0) 1

/-- A new transaction of peer 6. -/
def txFrom (type addr word len : Nat) : Tx := { tx0 with type := type, src := 6, addr := addr, word := word, len := len, stream := 3, data := List.replicate len 0 }

theorem w_served_reads : (let s := peered (backed bound)
    let a := txFrom 1 0 0 512; let b := txFrom 1 storeBase 0 512
    s.serves a 1 = true ∧ s.remoteOk a false a.len = true ∧ rangeOf (txAddr a) = .hbm ∧ s.badLines a = false ∧ s.mustHold a = false ∧ s.mustHold b = false ∧
    ({ s with memory := { s.memory with bad := [(7, 0, 0, 0)] } } : State).badLines a = true ∧ ({ s with memory := { s.memory with bad := [(7, 0, 0, 0)] } } : State).serves a 1 = true ∧
    s.serves b 1 = true ∧ s.remoteOk b false b.len = true ∧ rangeOf (txAddr b) ≠ .hbm ∧
    s.serves (txFrom 1 0 0 0) 1 = true ∧ s.remoteOk (txFrom 1 0 0 0) false 0 = false) := by decide +kernel
theorem w_held_request : let s := peered (backed bound); let a := txFrom 2 0 0 512
    let w : State := { s with fabric := { s.fabric with serving := [⟨0, [{ a with seq := 1 }], [0], [], 0⟩] } }
    w.serves a 2 = true ∧ w.launchFor a = none ∧ w.mustHold a = true ∧
    ({ s with fabric := { s.fabric with serving := [⟨0, [a], [0], [], 0⟩] } } : State).holding a.src a.seq = true := by decide +kernel
theorem w_served_writes : (let s := peered (backed bound)
    let a := txFrom 2 0 0 512; let b := txFrom 2 storeBase 0 1
    s.serves a 2 = true ∧ s.launchFor a = none ∧ a.data.length = a.len ∧ s.remoteOk a true a.len = true ∧ rangeOf (txAddr a) = .hbm ∧ s.mustHold a = false ∧ s.mustHold b = false ∧
    s.serves b 2 = true ∧ s.launchFor b = none ∧ b.data.length = b.len ∧ s.remoteOk b true b.len = true ∧ rangeOf (txAddr b) ≠ .hbm) := by decide +kernel
theorem w_served_atomic : (let s := peered (backed bound); let a := txFrom 3 0 0 8; s.serves a 3 = true ∧ s.atomicOk a = true ∧ s.leekReady = true ∧ s.mustHold a = false ∧ s.badLines a = false) := by decide +kernel
/-- A full journal: as many young entries as it holds. -/
theorem w_journal_full : ({ peered bound with fabric := { (peered bound).fabric with leek := List.replicate leekCap ⟨6, 0, 0, 0, 0, 0, false, 0⟩ } } : State).leekReady = false := by
  have h : (List.replicate leekCap (⟨6, 0, 0, 0, 0, 0, false, 0⟩ : Leek)).length = leekCap := List.length_replicate
  have e : List.replicate leekCap (⟨6, 0, 0, 0, 0, 0, false, 0⟩ : Leek) = ⟨6, 0, 0, 0, 0, 0, false, 0⟩ :: List.replicate (leekCap - 1) ⟨6, 0, 0, 0, 0, 0, false, 0⟩ := rfl
  unfold State.leekReady State.leekFree
  simp only [h]
  rw [e]
  decide +kernel
/-- Queue 7 produced and consumed by stream 3 of device 6, with a credit of its packet at position 0. -/
def remoteQueue : State :=
  let q : Queue := { resident with packets := [⟨0, 2, 2, [], [], .remote 6 9 3⟩] }
  let s := peered (queued bound q)
  { s with qdefs := [(7, { qdef7 with producer := remoteAgentWord 6 3, consumer := remoteAgentWord 6 3 })]
           fabric := { s.fabric with credits := [⟨7, 6, 9, 0, 2⟩], colls := [⟨1, 5, 0, 0, 0, false, 4, 0, 3, 0, 0, [], []⟩] } }
theorem w_served_queue : let s := remoteQueue; ∃ d, s.qdef? 7 = some d ∧ d.consumer = remoteAgentWord 6 3 ∧ d.producer = remoteAgentWord 6 3 ∧
    (let tx := txFrom 4 7 256 0; s.serves tx 4 = true ∧ tx.addr % 2 ^ 20 = 7 ∧ d.landing? tx.word = some 256) ∧
    (let tx := txFrom 5 7 9 64; s.serves tx 5 = true ∧ s.fabric.credits.find? (fun c => decide (c.queue = tx.addr % 2 ^ 20) && decide (c.src = tx.src) && decide (c.seq = tx.word)) = some ⟨7, 6, 9, 0, 2⟩ ∧
      ((s.queue 7).packetOf 0).isSome = true) ∧
    (let tx := txFrom 6 7 256 0; s.serves tx 6 = true ∧ 1 ≤ tx.word ∧ tx.word ≤ 256 ∧ (s.queue 7).deqs = [] ∧ s.mustHold tx = false) ∧
    (let tx := txFrom 7 1 5 64; s.serves tx 7 = true ∧ (s.fabric.colls.find? (fun c => c.group = tx.addr % 2 ^ 10 && c.inst = tx.word)).isSome = true) :=
  ⟨{ qdef7 with producer := remoteAgentWord 6 3, consumer := remoteAgentWord 6 3 }, by decide +kernel⟩
theorem w_checked : (∀ type, type < 8 → (txFrom type 0 0 0).type = type) ∧ (txFrom 2 0 0 0).dst = bound.gdn ∧ (bound.setFld Fld.state 6).halted = true ∧ (bound.setFld Fld.state 8).halted = true ∧ bound.halted = false ∧
    bound.fromPeer (txFrom 2 0 0 0) = false ∧ { txFrom 2 0 0 0 with dst := 65535 }.dst ≠ bound.gdn ∧ bound.launchFor (txFrom 2 0 0 0) = none ∧
    (let s : State := { peered bound with fabric := { (peered bound).fabric with rx := [(6, ⟨9, []⟩)] } }
     s.fromPeer (txFrom 2 0 0 0) = true ∧ s.marked 6 (txFrom 2 0 0 0).seq = true) := by decide +kernel
theorem w_control : (∀ op ∈ [1, 3, 4, 5], (peered bound).hears { txFrom 8 0 1 0 with op := op } op = true) ∧ (txFrom 8 0 65535 0).word % 2 ^ 16 ≠ 0 ∧
    (let tx := { txFrom 8 0 47 0 with op := 2 }; tx.type = 8 ∧ tx.op = 2 ∧ tx.dst = bound.gdn ∧ podOf tx.src = podOf bound.gdn ∧ tx.word % 64 < 48 ∧
      (((linked bound 8).setFld (Fld.portPeer 47) 999).opticalNeighbour 999 = true)) ∧
    bound.fromPeer (txFrom 8 0 0 0) = false ∧
    (∀ op ∈ [0, 1, 2], let tx := { txFrom 0xB 0 0 0 with op := op }; tx.type = 0xB ∧ tx.op = op ∧ (peered bound).fromPeer tx = true ∧ tx.src / 8 = (peered bound).gdn / 8) := by
  decide +kernel

-- witnesses: replies, deadlines, timers of a home

/-- A request to device 6, with this many resends behind it. -/
def outReq (resends : Nat) (waiting : Bool) : OutReq := ⟨6, 5, tx0, 3, 0, resends, 100000, waiting⟩
def outOf (r : OutReq) : State := { peered bound with fabric := { (peered bound).fabric with out := [r] } }
theorem w_replies : (let tx := txFrom 0xF 0 0 0; let s := outOf (outReq 0 false)
     tx.dst = s.gdn ∧ s.isLost 6 = false ∧ s.answered tx = some (outReq 0 false) ∧ (peered bound).answered tx = none ∧ (peered bound).fromPeer tx = true ∧
     bound.isLost 6 = false ∧ bound.answered tx = none ∧ bound.fromPeer tx = false ∧ ({ bound with fabric := { bound.fabric with lost := [6] } } : State).isLost tx.src = true) ∧
    (∀ n ∈ [0, 2, 3], (outOf (outReq n false)).fabric.out.find? (fun r => decide (r.dst = 6) && decide (r.seq = 5) && !r.waiting) = some (outReq n false)) ∧
    ({ bound with fabric := { bound.fabric with leekWait := [(0, txFrom 3 0 0 8)] } } : State).holdsFor 6 = true ∧ bound.holdsFor 6 = false ∧
    (let o := { opOf 0 (rec 4 1 0) [] [] with pending := .credit 7 6 [] true }; (inFlight bound o).cores.inflight.filter (fun o => bound.waitsFor 6 o) = [o]) := by
  decide +kernel
theorem w_home_timers : (let e : Leek := ⟨6, 0, 0, 0, 0, 0, false, 0⟩; ({ bound with fabric := { bound.fabric with leek := [e] } } : State).fabric.leek = [e]) ∧
    (let e : Cress := ⟨4, [tx0], 0⟩; ({ bound with fabric := { bound.fabric with cress := [e] } } : State).fabric.cress.find? (fun e => e.line = 4) = some e) ∧
    (let w : RankWait := ⟨64, 0, .remote 6 0 3, 0, 0, 0, 0⟩; let s : State := { bound with fabric := { bound.fabric with rankWait := [w] } }
     s.fabric.rankWait.find? (fun w => decide (w.addr = 64) && decide (w.rank = Tab.get 0 s.fabric.rankNext 64)) = some w) ∧
    (let w : RankWait := ⟨64, 0, .op 3, 0, 8, 0, 0⟩; let s : State := { inFlight bound (opOf 0 (rec 4 1 0) [] []) with fabric := { bound.fabric with rankWait := [w] } }
     s.fabric.rankWait.find? (fun w => decide (w.addr = 64) && decide (w.rank = 0)) = some w ∧ (s.op? 3).isSome = true ∧ ((s.atomic w.origin w.opByte 64 w.operand 0).2.op? 3).isSome = true ∧ w.oldAt = 0) ∧
    (let c : Congest := ⟨6, 50, 1000, 0⟩; let s := outOf (outReq 0 true); let s : State := { s with fabric := { s.fabric with congestIn := [c] } }
     s.fabric.congestIn.find? (fun c => c.home = 6) = some c ∧ s.spacing? 6 = some c ∧ s.unacked 6 < 1024 ∧
     s.fabric.out.find? (fun r => decide (r.dst = 6) && r.waiting) = some (outReq 0 true)) := by decide +kernel

-- witnesses: launch trees

/-- A node of launch 9, below device 5 and above device 6. -/
def node : Launch := ⟨1, 3, some 5, some 4, [6], 131072, 0, [], 1, [], 0, 0, 0, [], false, [], false, false, 0⟩
def launching (l : Launch) : State := { peered bound with fabric := { (peered bound).fabric with launches := [(9, l)] } }
theorem w_launch : (∀ l ∈ [node, { node with grandparent := none }, { node with reattaching := true }], Tab.find? (launching l).fabric.launches 9 = some l) ∧
    6 ∈ node.children ∧ Tab.get 0 node.next 6 < node.held ∧ (launching node).chunksInFlight 9 node 6 < 8 ∧ (launching node).isLost 6 = false ∧
    node.parent = some 5 ∧ node.rank ≠ 0 ∧ node.doneSent = false ∧ 6 ∉ node.finished ∧
    (∀ p ∈ [(6, 5), (7, 6), (8, 4), (9, 6)], let tx := { txFrom 8 (9 * 2 ^ 32) 0 0 with op := p.1, src := p.2 }
      tx.type = 8 ∧ tx.dst = (launching node).gdn ∧ tx.addr / 2 ^ 32 % 2 ^ 32 = 9 ∧ tx.op = p.1) := by decide +kernel

-- witnesses: the host interface

theorem w_mailbox : ready.writesPass = true ∧ ready.isRemote 63 = false ∧ ready.served = true ∧ ready.mbxState 63 = .idle ∧
    (∀ m ∈ [Mbx.posted, .executing, .done], let s := ready.setMbx 63 m; s.mbxState 63 = m ∧ s.writesPass = true ∧ s.isRemote 63 = false) ∧ 4092 + [0, 0, 0, (0 : Byte)].length ≤ 4096 ∧
    bitOf (2 ^ 63) 63 = true ∧ bitOf (2 ^ 63) 62 = false := by decide +kernel
theorem w_host_registers : ready.fld Fld.evtEnable = 0 ∧ (ready.setFld Fld.evtEnable 1).fld Fld.evtEnable = 1 ∧ (2 ^ 31 + 16) / 2 ^ 31 % 2 = 1 ∧ (2 ^ 31 + 16) % 32 = 16 ∧
    (ready.reg Reg.hostWinBase).toNat % 4096 = 0 ∧ ready.bar0Refuses ⟨true, 0x400000, 4, 0⟩ = true ∧ ready.bar0Refuses ⟨false, 0x2000000, 4, 0⟩ = true ∧
    ready.bar0Refuses ⟨false, 0, 4, 0⟩ = false ∧ bar0Fits ⟨false, 0, 2, 0⟩ = false ∧ ready.bar0Refuses ⟨false, 0, 2, 0⟩ = false := by decide +kernel
theorem w_bar2 : let bound := backed bound; let ready := backed ready
    bound.barOpen = true ∧ bound.bar2Reaches false 0 64 = true ∧ bound.bar2Reaches true (2 ^ 30 - 1) 1 = true ∧ bound.bar2Reaches false (2 ^ 30 - 1) 2 = false ∧
    bound.bar2Reaches true (2 ^ 30 - 1) 2 = false ∧ bound.memory.bad = [] ∧
    (ready.bar2Reaches true 0 64 = true ∧ ready.writesPass = true ∧ ready.fld Fld.ckpState < 2 ∧ ready.job = none ∧ ready.memory.waits = [] ∧ ready.fabric.directory = [] ∧ ready.fabric.invalWait = []) := by
  decide +kernel
theorem w_writes : (hbmBytes - 64) + 64 ≤ hbmBytes ∧ ready.fld Fld.ckpState < 2 ∧ ready.tick.stepRunning = false ∧ ready.memory.waits = [] ∧ ready.fabric.directory = [] ∧
    ready.fabric.invalWait = [] := by decide +kernel
theorem w_pcie : ready.board.perstLow = false ∧ ready.heldCold = false ∧ ready.fld Fld.pstate < 3 ∧ ready.host.linkUp = true ∧ State.reset.host.linkUp = false ∧
    (∀ p ∈ [ReqPath.hostRead, .hostWrite], let o := opOf 0 (rec 4 1 0) [request p true] []; let s := inFlight ready o
     s.op? 3 = some o ∧ (o.requests.find? (fun r => decide (r.num = 0) && (decide (r.path = .hostRead) || decide (r.path = .hostWrite)))).isSome = true) := by decide +kernel

-- witnesses: mailbox commands

/-- A command of this code whose body is n zero bytes, first in mailbox 63. -/
def zeros (s : State) (code n : Nat) : State := posted s 63 code (List.replicate n 0)

theorem w_checks : (let s := zeros ready 0x10 128; s.served = true ∧ s.host.order.head? = some 63 ∧ s.mbxState 63 = .posted ∧ (s.msg 63).code = 0x10 ∧
      s.bootRefuses 0x10 = false ∧ (s.msg 63).len = 128 ∧ s.headerOk 63 (s.msg 63) = true) ∧
    (zeros ready 0x10 127 |>.msg 63).len ≠ 128 ∧ ready.host.order.head? ≠ some 63 ∧ (zeros ready 2 0 |>.msg 63).code ≠ 0x10 ∧
    (let s := (ready.setPage 63 0 (Msg.bytes ⟨0x10, 0, 7, 128, 2, 0, 0, 0, []⟩)).post 63; (s.msg 63).len = 128 ∧ s.headerOk 63 (s.msg 63) = false) ∧
    (let s := zeros (ready.setFld Fld.state 0) 0x303 32; s.served = true ∧ (s.msg 63).code = 0x303 ∧ s.fld Fld.state = 0) ∧
    ((zeros ready 0xFFFF 0).msg 63).code ∉ commandCodes := by decide +kernel
theorem w_answer : ready.isRemote 63 = false ∧ (zeros ready 0x10 128 |>.msg 63).code < 2 ^ 16 ∧ (List.replicate 4064 (0 : Byte)).length ≤ 4064 := by decide +kernel
theorem w_reports : ∀ code ∈ [1, 2, 3, 0x103, 0x302, 0x305, 0x402, 0x503, 0x601, 0x703, 0x712, 0x721, 0x802], (zeros ready code 0).takes 63 code 0 = true := by
  decide +kernel
/-- Peers, a queue, a stream, a target, a launch and a committed slot to look up. -/
def known : State :=
  let s := streaming { streamOf 1 with last := some 8 }
  { s with fabric := (launching node).fabric
           host := { s.host with targets := [(2, ⟨[], 2, 1, 0, 0, 0⟩)] }
           ckpt := { s.ckpt with slotA := { Slot.empty with committed := true, gen := 4 } } }
def ask (s : State) (code : Nat) (body : List Byte) : State := posted s 63 code body

theorem w_lookups : ∀ p ∈ [(0x201, 4), (0x202, 4), (0x12, 4), (0x312, 8), (0x406, 24), (0x606, 8), (0x730, 4), (0x805, 4), (0x808, 4), (0x80B, 4)],
    (zeros known p.1 p.2).takes 63 p.1 p.2 = true := by decide +kernel
theorem w_lookup_found : known.admitted = true ∧
    (let s := ask known 0x201 (toLE 4 7); (s.msg 63).get 0 4 = 7 ∧ s.qdef? 7 = some qdef7 ∧ s.qdef? 8 = none) ∧
    (let s := ask known 0x202 (toLE 4 11); (s.msg 63).get 0 4 < 12) ∧
    (let s := ask known 0x12 (toLE 4 2); (s.msg 63).get 0 4 ≤ 15 ∧ (Tab.find? s.host.targets ((s.msg 63).get 0 4)).isSome = true ∧ Tab.find? s.host.targets 3 = none) ∧
    (let s := ask known 0x312 (toLE 8 9); nonZero (s.msg 63) 2 6 = false ∧ Tab.find? s.streams ((s.msg 63).get 0 2) = some { streamOf 1 with last := some 8 } ∧ Tab.find? s.streams 0 = none) ∧
    (let s := zeros known 0x406 24; let m := s.msg 63; m.get 0 4 ≤ 1 ∧ nonZero m 4 4 = false ∧ m.get 16 4 ≤ 4032 ∧ nonZero m 20 4 = false ∧
      (s.slot (m.get 0 4)).committed = true ∧ (s.slot 1).committed = false) ∧
    (let s := ask (known.setFld Fld.debug 1) 0x504 (toLE 8 0 ++ toLE 8 254); let m := s.msg 63
     s.takes 63 0x504 16 = true ∧ 1 ≤ s.fld Fld.debug ∧ m.get 8 4 ≤ 254 ∧ (m.get 0 8 / 4096 + m.get 8 4) * 4096 ≤ hbmBytes ∧ m.get 0 8 < hbmBytes ∧ nonZero m 12 4 = false) ∧
    (let s := ask known 0x606 (toLE 8 5); (s.msg 63).get 0 4 ≤ 5) ∧
    (let s := ask known 0x805 (toLE 4 6); nonZero (s.msg 63) 2 2 = false ∧ (∃ e ∈ s.fabric.peers, e.2.gdn = (s.msg 63).get 0 2) ∧ (∀ e ∈ s.fabric.peers, e.2.gdn ≠ 4)) ∧
    (let s := ask known 0x808 (toLE 4 47); (s.msg 63).get 0 1 ≤ 47 ∧ nonZero (s.msg 63) 1 3 = false) ∧
    (let s := ask known 0x80B (toLE 4 9); Tab.find? s.fabric.launches ((s.msg 63).get 0 4) = some node ∧ Tab.find? s.fabric.launches 0 = none) := by decide +kernel

def armBody (start : Nat) : List Byte := toLE 8 start ++ toLE 4 2000 ++ toLE 4 1999 ++ [3, 20, 0xC0] ++ List.replicate 13 0

theorem w_time_source : (let s := ask ready 0x301 ([2] ++ List.replicate 15 0); s.takes 63 0x301 16 = true ∧ timeSourceBad (s.msg 63) = none ∧ s.armed = false) ∧
    (let s := ask ticking 0x301 ([3] ++ List.replicate 15 0); s.takes 63 0x301 16 = true ∧ timeSourceBad (s.msg 63) = none ∧ s.armed = true) := by decide +kernel
theorem w_arm : (let s := ask (bound.setFld Fld.timeSrc 3) 0x303 (armBody 1000000); let m := s.msg 63
      s.takes 63 0x303 32 = true ∧ m.get 12 4 < 2 ^ 20 ∧ m.get 16 1 < 4 ∧ m.get 16 1 / 2 < 2 ∧ nonZero m 0x13 13 = false ∧ s.armed = false ∧ s.job.isSome = true ∧
      s.fld Fld.pstate = 0 ∧ s.fld Fld.state ≠ 6 ∧ s.fld Fld.state ≠ 8 ∧ s.fld Fld.timeSrc = 3 ∧ s.now + 1000000 ≤ m.get 0 8 ∧ 2000 ≤ m.get 8 4 ∧ m.get 8 4 < 2 ^ 27 ∧
      20 ≤ m.get 0x11 1 ∧ m.get 0x11 1 ≤ 80 ∧ 0 < m.get 12 4 ∧ m.get 12 4 < m.get 8 4 ∧ (∀ p, p < 16 → s.phaseValid p = false) ∧ s.streams = []) ∧
    (ask bound 0x303 (armBody 999999)).fld Fld.timeSrc = 3 ∧ ((ask (bound.setFld Fld.timeSrc 0) 0x303 (armBody 0)).fld Fld.timeState ≠ 2 ∧ (bound.setFld Fld.timeSrc 0).fld Fld.timeSrc ≠ 3) ∧
    ((ask bound 0x303 (armBody 999999)).msg 63).get 0 8 < (ask bound 0x303 (armBody 999999)).now + 1000000 ∧ (bound.setFld Fld.state 6).fld Fld.state = 6 ∧
    ¬2000 ≤ ((zeros bound 0x303 32).msg 63).get 8 4 := by decide +kernel
theorem w_stop : (∀ n ∈ [0, 5], let s := ask ticking 0x304 (toLE 8 n); s.takes 63 0x304 8 = true ∧ s.armed = true ∧ (s.msg 63).get 0 8 = n ∧ s.tick.next ≤ (if n = 0 then s.tick.next else n)) ∧
    ((ask ticking 0x304 (toLE 8 4)).msg 63).get 0 8 < ticking.tick.next ∧ (zeros ready 0x304 8).takes 63 0x304 8 = true ∧ ready.armed = false := by decide +kernel
theorem w_stream : (let b : List Byte := toLE 2 9 ++ [1, 3] ++ toLE 4 7 ++ List.replicate 56 0; let s := ask (queued bound resident) 0x310 b; let m := s.msg 63
      s.takes 63 0x310 64 = true ∧ streamBad m.body = none ∧ s.job.isSome = true ∧ s.streamQueueOk (Stream.of m.body) = true ∧
      Tab.find? (s.asOf (m.get 8 8)).streams (m.get 0 2) = none ∧ s.armed = false ∧ (s.asOf (m.get 8 8)).streams = [] ∧ s.tooSoon (m.get 8 8) = none) ∧
    (let s0 := streaming (streamOf 1); let s := ask { s0 with regs := bound.regs } 0x311 (toLE 8 9 ++ toLE 8 0); let m := s.msg 63
     s.takes 63 0x311 16 = true ∧ nonZero m 2 6 = false ∧ s.job.isSome = true ∧ (Tab.find? (s.asOf (m.get 8 8)).streams (m.get 0 2)).isSome = true ∧ s.tooSoon (m.get 8 8) = none) := by
  decide +kernel
theorem w_halt : ∀ code ∈ [0x507, 0x508], (zeros (bound.setFld Fld.debug 2) code 8).takes 63 code 8 = true ∧ 2 ≤ (bound.setFld Fld.debug 2).fld Fld.debug ∧
    (zeros bound code 8).takes 63 code 8 = true ∧ bound.fld Fld.debug < 2 ∧ bound.tooSoon 0 = none := by decide +kernel

-- witnesses: settings

def netEntry : List Byte := List.replicate 14 0 ++ toLE 2 1500 ++ List.replicate 48 0
/-- `ready` and `bound` both take these bodies. -/
theorem w_settings : (∀ s ∈ [ready, bound], let t := ask s 0x10 (netEntry ++ netEntry)
      t.takes 63 0x10 128 = true ∧ firstBad (netEntryBad (t.msg 63) 0 ++ netEntryBad (t.msg 63) 64) = none) ∧
    (∀ f ∈ [3, 8], ∀ s ∈ [ready, bound], let t := ask s 0x11 (toLE 1 15 ++ toLE 1 f ++ List.replicate 318 0); let m := t.msg 63
      t.takes 63 0x11 320 = true ∧ m.get 0 1 ≤ 15 ∧ m.get 1 1 ≤ 15 ∧ nonZero m 4 4 = false ∧ nonZero m 0x18 8 = false ∧ nonZero m 0xFF 33 = false ∧ nonZero m 0x120 32 = false) ∧
    (∀ s ∈ [ready, bound], let t := ask s 0x801 (toLE 4 (2 ^ 13 - 1)); t.takes 63 0x801 4 = true ∧ (t.msg 63).get 0 4 < 2 ^ 13) ∧
    (∀ s ∈ [ready, bound, ready.setFld Fld.policy 2], let t := ask s 0x605 (toLE 4 0 ++ toLE 4 65537 ++ toLE 4 128 ++ List.replicate 428 0); let m := t.msg 63
      t.takes 63 0x605 440 = true ∧ m.get 0 4 = 0 ∧ m.get 4 4 % 2 = 1 ∧ 65537 ≤ m.get 4 4 ∧ 128 ≤ m.get 8 1) ∧
    (∀ s ∈ [ready, bound], let t := ask s 0x807 (toLE 4 1 ++ [5, 1, 7, 0, 40, 0, 0, 0]); let m := t.msg 63
      t.takes 63 0x807 12 = true ∧ m.get 0 1 = 1 ∧ nonZero m 1 3 = false ∧ firstBad (routesBad m (podOf t.gdn)) = none) ∧
    ready.job = none ∧ ready.fld Fld.state ≠ 2 ∧ ready.fld Fld.policy ≠ 2 ∧ (ready.setFld Fld.policy 2).fld Fld.policy = 2 ∧ bound.job.isSome = true := by decide +kernel
theorem w_power_settings : (∀ v ∈ [1500, 3600], let t := ask ready 0x702 (toLE 2 v ++ toLE 2 80); let m := t.msg 63; t.takes 63 0x702 4 = true ∧ m.get 0 2 = v ∧ 20 ≤ m.get 2 2 ∧ m.get 2 2 ≤ 80) ∧
    (∀ v ∈ [16, 720 * 16 + 15], let t := ask ready 0x711 (toLE 4 v); let m := t.msg 63; t.takes 63 0x711 4 = true ∧ m.get 0 4 < 2 ^ 20 ∧ 1 ≤ m.get 0 4 / 16 ∧ m.get 0 4 / 16 ≤ 720) := by
  decide +kernel
def group : List Byte := toLE 2 3 ++ toLE 2 1 ++ toLE 4 0 ++ toLE 2 0 ++ toLE 2 1 ++ List.replicate 4 0
theorem w_peer_settings : (let s := ask bound 0x803 (toLE 4 2 ++ toLE 4 0 ++ toLE 8 0 ++ toLE 4 (5 + 65536) ++ toLE 4 6); let m := s.msg 63
      s.takes 63 0x803 (16 + 4 * m.get 0 4) = true ∧ s.job.isSome = true ∧ s.tooSoon (m.get 8 8) = none ∧ nonZero m 4 4 = false ∧ 1 ≤ m.get 0 4 ∧ m.get 0 4 ≤ 1008 ∧
      (∀ e ∈ peerWords m, e.2 < 2 ^ 18 ∧ (∀ p ∈ (s.asOf (m.get 8 8)).fabric.peers, p.2.gdn ≠ e.2 % 65536) ∧ ∀ d ∈ peerWords m, d.1 < e.1 → d.2 % 65536 ≠ e.2 % 65536) ∧
      (s.asOf (m.get 8 8)).fabric.peers.length + m.get 0 4 ≤ 65536) ∧
    (let s := ask (peered bound) 0x804 (toLE 4 1 ++ toLE 4 0 ++ toLE 8 0 ++ toLE 4 5); let m := s.msg 63
     s.takes 63 0x804 (16 + (2 * m.get 0 4 + 3) / 4 * 4) = true ∧ 1 ≤ m.get 0 4 ∧ m.get 0 4 ≤ 2016 ∧ nonZero m 4 4 = false ∧ nonZero m (16 + 2 * m.get 0 4) 2 = false ∧
     (∀ e ∈ removeNumbers m, (∃ p ∈ (s.asOf (m.get 8 8)).fabric.peers, p.2.gdn = e.2) ∧ (s.asOf (m.get 8 8)).grouped e.2 = false)) ∧
    (let s := ask (peered bound) 0x806 (toLE 8 0 ++ toLE 8 0 ++ toLE 4 16 ++ toLE 4 0 ++ group); let m := s.msg 63; let b := slice m.body 24 (m.get 16 4)
     s.takes 63 0x806 (24 + m.get 16 4) = true ∧ nonZero m 20 4 = false ∧ m.get 8 8 = 0 ∧ b.length = m.get 16 4 ∧ 8 ≤ b.length ∧ b.length = groupSize (groupCount b) ∧
     groupBad b (s.asOf (m.get 0 8)).fabric.peers = none ∧ (s.asOf (m.get 0 8)).fabric.groups.length < 1024 ∧ 24 ≤ m.len) := by decide +kernel

-- witnesses: snapshots and debug

def armSnap (source : Nat) (matchAt : Nat) : List Byte := toLE 1 source ++ List.replicate 7 0 ++ toLE 8 matchAt ++ List.replicate 16 0
def d1 : State := (ready.setFld Fld.debug 1).setFld Fld.secDebug 1
/-- A device with an armed snapshot, held or not. -/
def armedSnap (source : Nat) (held : Bool) : State := { peered d1 with snap := ⟨some ⟨source, false, 0x18, 0xFFFF, 0, 2⟩, held, [], []⟩ }
theorem w_snap_arm : (∀ v ∈ [0, 4, 0xFF], ∀ s ∈ [ready, d1], let t := ask s 0x501 (armSnap v 0); let m := t.msg 63; let a := snapArmOf m
      t.takes 63 0x501 32 = true ∧ a.source = v ∧ m.get 1 1 ≤ 1 ∧ nonZero m 6 2 = false ∧ nonZero m 0x14 12 = false ∧ (a.source = 0 → t.tooSoon a.match_ = none)) ∧
    (∀ v ∈ [999999, 1000000], let t := ask d1 0x501 (armSnap 1 v); t.takes 63 0x501 32 = true ∧ (snapArmOf (t.msg 63)).source = 1 ∧ (snapArmOf (t.msg 63)).match_ = v ∧ t.now = 0) ∧
    ready.fld Fld.debug = 0 ∧ 1 ≤ d1.fld Fld.debug := by decide +kernel
theorem w_snapshots : (zeros d1 0x502 0).takes 63 0x502 0 = true ∧ d1.snap.arm = none ∧ (zeros (armedSnap 2 false) 0x502 0).takes 63 0x502 0 = true ∧
    (∀ h ∈ [false, true], ∀ v ∈ [0, 1, 2, 4], (armedSnap v h).snap.held = h ∧ (armedSnap v h).snap.arm = some ⟨v, false, 0x18, 0xFFFF, 0, 2⟩) ∧
    ((armedSnap 0 false).setFld Fld.running 1).fld Fld.running = 1 ∧ (armedSnap 0 false).fld Fld.tickNumber = 0 ∧
    (let tx := txOf 0xA 1 6; tx.dst = (armedSnap 4 false).gdn ∧ tx.type = 0xA ∧ tx.op = 1 ∧ (armedSnap 4 false).fromPeer tx = true ∧ tx.word = 2) := by decide +kernel
/-- A credential that verifies is a value of Config's opaque functions and has no concrete witness; an empty one fails. -/
theorem w_debug : (∀ p ∈ [(1, 2), (2, 0), (3, 0)], ∀ s ∈ [ready, bound], let t := ask s 0x505 (toLE 1 p.1 ++ toLE 1 p.2 ++ List.replicate 30 0); let m := t.msg 63
      t.takes 63 0x505 32 = true ∧ m.get 0 1 = p.1 ∧ nonZero m 2 2 = false ∧ nonZero m 24 8 = false ∧ m.get 1 1 = p.2) ∧
    ready.sec.lockout = none ∧ ready.mayUnlock 1 = true ∧ ready.mayUnlock 2 = false ∧ bound.mayUnlock 2 = true ∧ ready.mayUnlock 3 = true ∧ ready.d3Grant [] = false ∧ bound.d2Token [] = false ∧
    (∀ n ∈ [0, 7], ({ ready with sec := { ready.sec with fails := n } } : State).sec.fails = n) ∧ ({ ready with sec := { ready.sec with lockout := some 5 } } : State).sec.lockout = some 5 := by
  decide +kernel
theorem w_lock : (∀ v ∈ [1, 2, 3], let s := ask ((bound.setFld Fld.debug v).setFld Fld.secDebug v) 0x506 (toLE 4 0); s.takes 63 0x506 4 = true ∧ (s.msg 63).get 0 4 < s.fld Fld.debug ∧ s.fld Fld.debug = v) ∧
    (let s := ask ready 0x506 (toLE 4 3); s.takes 63 0x506 4 = true ∧ s.fld Fld.debug ≤ (s.msg 63).get 0 4 ∧ (s.msg 63).get 0 4 ≤ 3) ∧ ready.fld Fld.debug ≠ 2 := by decide +kernel
-- witnesses: long commands

def moduled : State := { (bound.setFld Fld.moduleReady 1) with job := some { job with restorable := true } }
def saved : State := { ready with ckpt := { ready.ckpt with slotA := { Slot.empty with committed := true, gen := 4 } }
                                  host := { ready.host with targets := [(2, ⟨[], 2, 1, 0, 0, 0⟩)] } }
/-- A device in which a long command of this code runs. -/
def long (s : State) (code : Nat) (body ext : List Byte) : State := { s with host := { s.host with longs := [⟨1, code, 5, false, none, body, ext⟩] } }

theorem w_long : (let s := ready; s.fld Fld.state = 1 ∧ s.job = none ∧ s.fld Fld.pstate = 0 ∧ s.fld Fld.sstate = 1 ∧ bound.job.isSome = true) ∧
    (∀ c ∈ [0x101, 0x401, 0x404, 0x602, 0x604, 0x603, 0x701, 0x710, 0x720, 0x809, 0x80A], ready.mayStart c [0x401, 0x404, 0x405] = true ∧
      ((long ready c [] []).runningOf [c]).isSome = true) ∧
    (∀ s ∈ [ready, bound], (let t := zeros s 0x101 24; t.takes 63 0x101 24 = true ∧ (t.msg 63).get 0 1 = 0 ∧ nonZero (t.msg 63) 1 7 = false ∧ t.stagedOk 0 0 = true) ∧
      (zeros s 0x102 0).takes 63 0x102 0 = true ∧ (zeros s 0x720 0).takes 63 0x720 0 = true ∧
      (∀ p, p < 5 → (ask s 0x701 (toLE 4 p)).takes 63 0x701 4 = true ∧ ((ask s 0x701 (toLE 4 p)).msg 63).get 0 4 = p) ∧
      (let t := ask s 0x809 (toLE 4 47); t.takes 63 0x809 4 = true ∧ (t.msg 63).get 0 1 ≤ 47 ∧ nonZero (t.msg 63) 1 3 = false) ∧
      (let t := zeros s 0x603 4; t.takes 63 0x603 4 = true ∧ (t.msg 63).get 0 4 ≤ 1)) ∧
    (∀ p, p < 5 → ready.mayEnter p = true) ∧ bound.mayEnter 4 = false ∧ (bound.setFld Fld.state 8).fld Fld.state = 8 ∧ bound.fld Fld.state ≠ 8 ∧
    (({ ready with mram := { ready.mram with slotA := ⟨true, 1, []⟩ } } : State).mram.slot 0).valid = true := by decide +kernel
theorem w_long_work : (let s := ask moduled 0x401 (toLE 8 1 ++ toLE 8 0); let m := s.msg 63
      s.takes 63 0x401 16 = true ∧ s.job = some { job with restorable := true } ∧ s.fld Fld.moduleReady ≠ 0 ∧ s.tooSoon (m.get 8 8) = none ∧ (s.reg Reg.ckpGenA).toNat < m.get 0 8 ∧ (s.reg Reg.ckpGenB).toNat < m.get 0 8) ∧
    (let s := ask saved 0x404 (toLE 4 0 ++ toLE 4 2 ++ List.replicate 16 0); let m := s.msg 63
     s.takes 63 0x404 24 = true ∧ m.get 0 1 ≤ 1 ∧ nonZero m 1 3 = false ∧ nonZero m 12 4 = false ∧ (s.slot (m.get 0 1)).committed = true ∧ (Tab.find? s.host.targets (m.get 4 4)).isSome = true) ∧
    (∀ c ∈ [0x602, 0x604], let s := ask ready c (toLE 8 0 ++ toLE 8 4096 ++ toLE 8 3 ++ toLE 8 0); s.takes 63 c 32 = true ∧ sourceBad (s.msg 63) = none ∧ (s.msg 63).get 0 1 = 0) ∧
    (let s := ask ready 0x710 (toLE 4 255); s.takes 63 0x710 4 = true ∧ (s.msg 63).get 0 4 ≤ 255 ∧ bitOf 255 7 = true) ∧
    (let s := ask (backed ready) 0x80A (padTo 0x50 (toLE 4 9 ++ toLE 4 1 ++ toLE 4 7 ++ [1, 1, 0, 0] ++ toLE 8 65536) ++ toLE 2 8); let m := s.msg 63
     s.takes 63 0x80A (0x50 + 2 * m.get 0xD 1) = true ∧ m.get 0xC 1 < 4 ∧ m.get 0xD 1 = 1 ∧ nonZero m 0xE 2 = false ∧ m.get 0x10 8 % 65536 = 0 ∧ 0 < m.get 0x10 8 ∧ m.get 0x10 8 ≤ 2 ^ 36 ∧
     m.get 0x18 8 % 65536 = 0 ∧ s.stagedOk (m.get 0x18 8) (m.get 0x10 8) = true ∧ m.get 4 4 ≠ 0) := by decide +kernel
theorem w_events : ready.host.held.length < 1024 ∧ ready.ringOpen = false ∧
    1024 ≤ ({ ready with host := { ready.host with held := List.replicate 1024 ⟨1, 0, 0, 0, 0, 0, 0, 0, none⟩ } } : State).host.held.length ∧
    (let s := (ready.setFld Fld.evtEnable 1).setFld Fld.evtLog2 16; s.ringOpen = true ∧ s.host.held = [] ∧ s.fld Fld.remoteMbx = 0 ∧ s.ringUsed < 2 ^ 32 - 1) := by decide +kernel
/-- An image or a record that verifies is a value of Config's opaque functions and has no concrete witness. -/
theorem w_long_ends : (∀ c ∈ endedByDone, let s := long ready c [] []
      s.host.longs.find? (fun x => decide (x.mbx = 1) && decide (x.ended = none) && (decide (x.code ∈ endedByDone) || decide (0 = Status.internalError))) = some ⟨1, c, 5, false, none, [], []⟩) ∧
    (ready.admission (ready.rd 0 0) (ready.rd (sigOffset 0) sigSize) (0, 0)).isLeft = true ∧ ready.tooHot = false ∧ ((ready.setFld (Fld.tstep 11) 3).setFld (Fld.temp 11) 106).tooHot = true ∧
    ready.imageOk [] = false ∧ (ready.recordFail []).isSome = true ∧ ready.mram.active ≤ 1 ∧ ({ saved with ckpt := { saved.ckpt with exporting := some 0 } } : State).ckpt.exporting.isSome = true ∧
    (∀ p, p < 5 → ready.mayEnter (fieldLE (toLE 4 p) 0 4) = true) ∧ bound.mayEnter (fieldLE (toLE 4 4) 0 4) = false ∧
    (∀ ending ∈ [0, 8], ({ ready with tests := { ready.tests with self := some (3, ending, []) } } : State).tests.self = some (3, ending, [])) ∧
    (∀ st ∈ [0, 0x33], let s := long ready 0x405 [] (toLE 2 st ++ toLE 8 0); s.ckpt.exporting = none ∧
      s.longOf? 0x405 = some ⟨1, 0x405, 5, false, none, [], toLE 2 st ++ toLE 8 0⟩) ∧
    bitOf (fieldLE (toLE 4 15) 0 4) 7 = false ∧ 8 &&& fieldLE (toLE 4 15) 0 4 ≠ 0 ∧ fieldLE (toLE 4 47) 0 1 < 48 := by decide +kernel

-- witnesses: checkpoints, restores, the module

def capturing : State := let s := moduled.setFld Fld.ckpState 1
  { s with tick := { s.tick with stepRunning := true, stepTick := 5 }, ckpt := { s.ckpt with gen := 3, tick := 5 } }
def copying (g : Tab Gran) : State := { moduled.setFld Fld.ckpState 2 with ckpt := { moduled.ckpt with writing := some 0, grans := g } }
def committing : State := { moduled.setFld Fld.ckpState 3 with ckpt := { moduled.ckpt with writing := some 1 } }
theorem w_checkpoints : ready.captureDue = false ∧ capturing.captureDue = true ∧
    (∀ g ∈ [[(0, Gran.pending)], [(0, .saved ⟨[], []⟩), (12 * 24576, .pending)]], let s := copying g
      s.ckpt.writing = some 0 ∧ s.fld Fld.ckpState = 2 ∧ s.nextGranule (granuleStack 0) = some 0 ∧ s.job.isSome = true ∧ (s.reg Reg.ckpDone).toNat < 2 ^ 32 - 1) ∧
    ready.ckpt.writing = none ∧ committing.ckpt.writing = some 1 ∧ committing.fld Fld.ckpState = 3 ∧
    (zeros ready 0x403 0).takes 63 0x403 0 = true ∧ ready.checkpointing = false ∧ (zeros committing 0x403 0).takes 63 0x403 0 = true ∧ committing.checkpointing = true ∧
    (∀ v ∈ [0, 1], (ask saved 0x407 (toLE 4 v)).takes 63 0x407 4 = true ∧ ((ask saved 0x407 (toLE 4 v)).msg 63).get 0 4 ≤ 1) ∧ saved.checkpointing = false ∧ saved.ckpt.exporting = none ∧
    (ask committing 0x407 (toLE 4 0)).takes 63 0x407 4 = true := by decide +kernel
/-- A plan that names one source in this device's slot A. -/
def plan : List Byte := toLE 4 1 ++ List.replicate 28 0 ++ List.replicate 8 0 ++ toLE 8 4 ++ List.replicate 16 0
def planned : State := { backed bound with mem := Mem.write [] 0 plan }
/-- A restore that succeeds checks SHA-384 digests, values of Config's opaque functions, and has no concrete witness. -/
theorem w_restore : (let s := ask { planned with mem := Mem.write [] 0 plan } 0x405 (toLE 8 0 ++ toLE 8 64); let m := s.msg 63
      s.takes 63 0x405 16 = true ∧ s.job = some job ∧ s.fld Fld.pstate = 0 ∧ s.fresh_ = true ∧ rangeOf (m.get 0 8) = .hbm ∧
      s.mayReach .firmware false (m.get 0 8) (m.get 8 8) = true ∧ job.pieces = [] ∧ planOk (s.rd (m.get 0 8) (m.get 8 8)) = true ∧ s.mayStart 0x405 [0x401, 0x404] = true ∧
      (match restorePlan (s.rd 0 64) (s.sourceBytes (s.rd 0 64) []) job.pieces with | .error _ => true | .ok _ => false) = true) ∧
    (zeros ready 0x405 16).takes 63 0x405 16 = true ∧ ready.job = none ∧ (bound.setFld Fld.state 4).fresh_ = false ∧ (zeros (bound.setFld Fld.state 4) 0x405 16).takes 63 0x405 16 = true ∧
    (let s := ask planned 0x405 (toLE 8 storeBase ++ toLE 8 64); s.takes 63 0x405 16 = true ∧ rangeOf ((s.msg 63).get 0 8) ≠ .hbm) ∧
    (let s := ask planned 0x405 (toLE 8 0 ++ toLE 8 63); s.takes 63 0x405 16 = true ∧ planOk (s.rd 0 63) = false ∧ s.mayReach .firmware false 0 63 = true) := by decide +kernel
theorem w_module : (∀ c ∈ [(1, 1), (2, 3)], let s : State := { ready with host := { ready.host with targets := [(15, ⟨[], c.1, c.2, 0, 0, 0⟩)] } }
      Tab.find? s.host.targets 15 = some ⟨[], c.1, c.2, 0, 0, 0⟩) ∧
    (let s := long saved 0x604 ([1, 0, 0, 0] ++ toLE 4 2 ++ List.replicate 24 0) []
     (s.host.longs.find? (fun l => decide (l.mbx = 1) && decide (l.ended = none) && (longTarget l).isSome)).isSome = true) ∧
    ready.checkpointing = false ∧ ready.ckpt.exporting = none ∧ committing.checkpointing = true ∧
    (let s : State := { saved with ckpt := { saved.ckpt with exporting := some 0 } }; s.checkpointing = false ∧ s.ckpt.exporting = some 0) := by decide +kernel

-- witnesses: resets, boot, power

def boarded (f : Board → Board) : State := { ready with board := f ready.board }
theorem w_resets : (boarded (fun b => { b with standbyGood := false })).board.standbyGood = false ∧ ready.board.standbyGood = true ∧
    (∀ v ∈ [false, true], let s := boarded (fun b => { b with coldRstLow := true, vin12Good := v }); s.board.coldRstLow = true ∧ s.board.standbyGood = true ∧ s.board.vin12Good = v) ∧
    (⟨7, 3, false⟩ : Straps).slot < 8 ∧ (⟨7, 3, false⟩ : Straps).width < 4 ∧ ready.board.coldRstLow = false ∧
    (let s := boarded (fun b => { b with internalHold := true }); s.board.internalHold = true ∧ s.board.straps.slot < 8 ∧ s.heldCold = true) ∧ ready.board.internalHold = false ∧
    ready.heldCold = false ∧ (let s := (boarded (fun b => { b with perstLow := true, warmBoot := true })).setFld Fld.bootStage 0; s.board.perstLow = true ∧ s.board.warmBoot = true ∧ s.fld Fld.bootStage = 0 ∧ s.heldCold = false) ∧
    (ready.setFld Fld.pstate 3).fld Fld.pstate = 3 ∧ ready.fld Fld.pstate ≠ 3 ∧ (boarded (fun b => { b with warmDue := some (2 ^ 64 - 1) })).board.warmDue = some (2 ^ 64 - 1) ∧ ready.board.warmDue = none := by
  decide +kernel
/-- A device in this boot stage. -/
def bootAt (n : Nat) : State := ((ready.setFld Fld.state 0).setFld Fld.sstate 0).setFld Fld.bootStage n
theorem w_boot : ready.booting = false ∧ (∀ n, n < 9 → (bootAt n).booting = true ∧ max 1 ((bootAt n).fld Fld.bootStage) = max 1 n) ∧ (bootAt 8).recordBody 5 = none ∧
    ready.fld Fld.sstate ≠ 3 ∧ (ready.setFld Fld.sstate 3).fld Fld.sstate = 3 ∧ ready.imageOk [] = false ∧ (ready.setFld Fld.sstate 3).d3Grant [] = false := by decide +kernel
/-- A device booting with a stack still hot after a protective stop (R239). -/
def bootHot : State := ((bootAt 8).setFld (Fld.tstep 3) 3).setFld (Fld.temp 3) 85
theorem w_boot_hot : (bootAt 8).tooHot = false ∧ bootHot.booting = true ∧ bootHot.fld Fld.bootStage = 8 ∧ bootHot.tooHot = true := by
  decide +kernel
/-- R240, R242 and R383: a warm reset keeps the stacks' register pages, not the segment map between two that it also keeps. -/
theorem test_warm_keeps_pages : (List.map Reg.keptWarm [0x40000, 0x4B17C, 0x4F000, 0x4F100, 0x80010, 0x80018, 0x80020]) =
    [true, true, false, true, true, true, false] := by decide
def powered (f : Power → Power) : State := { ready with power := f ready.power }
theorem w_power : (powered id).power.next = none ∧ ready.lowerable = [0, 1, 2, 3] ∧
    (∀ p ∈ [(5, 10), (4, 6), (4, 5)], let s := powered (fun w => { w with duty := p.1, bandwidth := p.2, below := (List.range 4).map (fun d => (d, 60)) })
      s.lowerable = [] ∧ s.power.duty = p.1 ∧ s.power.bandwidth = p.2) ∧ ready.fld Fld.cap = 3600 ∧
    (∀ d ∈ [DownStep.duty, .bandwidth, .clocks [0]], let s := powered (fun w => { w with upCount := 3, downs := [d] }); 3 ≤ s.power.upCount ∧ s.power.downs.getLast? = some d) ∧ ready.power.upCount < 3 := by
  decide +kernel
theorem w_limits : ready.power.fastSince = none ∧ 3600 * 125 < 3751 * 120 ∧ 3750 * 120 ≤ 3600 * 125 ∧
    (powered (fun p => { p with fastSince := some 7 })).power.fastSince = some 7 ∧ 3374 * 1200 < 3600 * 1125 ∧ 3600 * 1125 ≤ 3375 * 1200 ∧
    (powered (fun p => { p with brakeLow := true })).power.brakeLow = true ∧ ready.power.brakeLow = false ∧ (powered (fun p => { p with brakeHold := some 7 })).power.brakeHold = some 7 ∧ ready.power.brakeHold = none ∧
    3 ∉ ready.power.junction ∧ 3 ∈ (powered (fun p => { p with junction := [3] })).power.junction := by decide +kernel

-- witnesses: sideband

theorem w_spdm : State.reset.spdmUp = false ∧ ready.spdmUp = true ∧ ready.fld Fld.keysErased = 0 ∧ (ready.setFld Fld.keysErased 1).fld Fld.keysErased = 1 ∧ 0 ≤ rsaChain.length ∧
    ready.sec.chunks = [] ∧ ({ ready with sec := { ready.sec with chunks := [1] } } : State).sec.chunks ≠ [] ∧ ready.sec.signed = [] := by decide +kernel
theorem w_sideband : ready.board.standbyGood = true ∧ ready.board.i3cAddr = none ∧
    (let s := boarded (fun b => { b with i3cAddr := some 9, i3cOffset := some 0x3FFFFC }); s.board.i3cAddr = some 9 ∧ s.board.i3cOffset = some 0x3FFFFC ∧ 0x3FFFFC % 4 = 0 ∧ 0x3FFFFC < 0x400000) ∧
    (boarded (fun b => { b with i3cAddr := some 9 })).board.i3cOffset = none ∧ (toLE 4 5).length = 4 ∧ (boarded (fun b => { b with coldRstLow := true })).board.coldRstLow = true := by decide +kernel

-- witnesses: numbers

/-- Each rounding mode on both signs; the tie 1 ½ rounds to even under 0 and away under 4. -/
theorem w_rounding : (∀ rnd, rnd < 6 → (rnd = 0 ∨ rnd = 1 ∨ rnd = 2 ∨ rnd = 3 ∨ rnd = 4 ∨ rnd = 5)) ∧ 2 * (roundMag 0 false 3 0 1 0 * 2 ^ 1) = 2 * 3 + 2 ^ 1 ∧
    roundMag 0 false 3 0 1 0 % 2 = 0 ∧ roundMag 0 false 5 0 1 0 = 2 ∧ roundMag 4 false 5 0 1 0 = 3 := by decide +kernel
theorem w_representable : (floatFmt? 0).isSome = true ∧ (floatFmt? 0xD).isSome = false ∧ (2 ^ 24 - 1) < 2 ^ 24 := by decide +kernel
theorem w_integers : ∀ fmt ∈ [0x9, 0xA, 0xB, 0xC, 0xE], ∀ sgn ∈ [false, true], let c : Ctl := ⟨fmt, sgn, 0x7F, 0⟩
    floatFmt? c.fmt = none ∧ c.fmt ≠ 0xD ∧ 0 < c.width ∧ roundMag 0 true 1 (-70) (-(c.frac : Int)) 0 = 0 := by decide +kernel
-- worked examples and check values of the spec

def ascii19 : List Byte := [0x31, 0x32, 0x33, 0x34, 0x35, 0x36, 0x37, 0x38, 0x39]
/-- spec/08, R225: the check value of "123456789". -/
theorem test_crc32c : crc32c ascii19 = 0xE3069283 := by decide +kernel
/-- spec/11, R305: the check value of "123456789". -/
theorem test_crc64 : crc64 ascii19 = 0x62EC59E3F1A4F00A := by decide +kernel
/-- spec/06, the voltage loop: record 3 is a VOP of phase 1 with desc 0x1000, index register 2 and completion slot 3. -/
theorem test_record : let r : OpRecord := BitVec.ofNat 256 (0x0A001000 + 0x0007F80000300000 * 2 ^ 128 + 0x6110000000000000 * 2 ^ 192)
    r.unit = 3 ∧ r.opcode = 1 ∧ r.phase = 1 ∧ r.desc = 0x1000 ∧ r.crIndex = 3 ∧ r.sigTgt = 0xFF ∧ r.idxEn = true ∧ r.idxCnt = 2 := by decide +kernel
def e4m3 : Ctl := ⟨4, false, 0, 0⟩
def even : Rounding := ⟨0, false, false⟩
/-- spec/03, the field exchange of the nowcast: blocks A and B under scale 0x70, each source to the nearest multiple of 2^-21 or 2^-40. -/
theorem test_block_a : convert even e4m3 0x70 0 (.fin false 25795 (-21)) = (0x7D, .inexact) ∧ convert even e4m3 0x70 0 (.fin true 8389 (-21)) = (0xF0, .inexact) ∧
    convert even e4m3 0x70 0 (.fin false 329853 (-40)) = (0x05, .inexact) ∧ convert even e4m3 0x70 0 (.fin false 0 0) = (0, .none) ∧
    convert ⟨0, true, false⟩ e4m3 0x70 0 (.fin false 329853 (-40)) = (0, .flushed) := by decide +kernel
theorem test_block_b : convert even e4m3 0x70 0 (.fin false 31038 (-21)) = (0x7E, .saturated) ∧ convert even e4m3 0x70 0 (.fin false 29570 (-21)) = (0x7E, .inexact) ∧
    convert even e4m3 0x70 0 (.fin true 18874 (-21)) = (0xF9, .inexact) := by decide +kernel
/-- R87: 464 rounds to 448, and any larger magnitude saturates; a negative saturation into INT8 gives 0x80. -/
theorem test_saturation : convert even e4m3 127 0 (.fin false 464 0) = (0x7E, .inexact) ∧ convert even e4m3 127 0 (.fin false 929 (-1)) = (0x7E, .saturated) ∧
    convert even ⟨9, true, 0, 0⟩ 127 0 (.fin true 300 0) = (0x80, .saturated) := by decide +kernel
end Sys2Proof.Tests
end

/-! O5 and O6: the canonical form holds at reset and every step keeps it. One lemma says that each command keeps it, by the
command's own lemma of Laws/KeptExec.lean; a step is a command on the queue's rest, or 1 ns. -/
namespace Sys2Proof.Machine

variable {P : List Instr} {C : Nat → Nat}

/-- Every command keeps the queue's rest, the canonical form and the MRAM's counters. -/
theorem exec_kept (c : Instr) (s : State) (h : s.kept P C) : Result.kept P C (exec c s) := by
  cases c with
  | nop l r => exact execNop_kept l r s h
  | wait l r => exact execWait_kept l r s h
  | setc l r => exact execSetc_kept l r s h
  | addc l r => exact execAddc_kept l r s h
  | subc l r => exact execSubc_kept l r s h
  | loop l r => exact execLoop_kept l r s h
  | opListRefetchDone l => exact execOpListRefetchDone_kept l s h
  | fence l r => exact execFence_kept l r s h
  | signal l r => exact execSignal_kept l r s h
  | phaseDone l r => exact execPhaseDone_kept l r s h
  | endStep l r => exact execEndStep_kept l r s h
  | matmul l r => exact execMatmul_kept l r s h
  | matmulPart l r => exact execMatmulPart_kept l r s h
  | anchorGather l r => exact execAnchorGather_kept l r s h
  | partCombine l r => exact execPartCombine_kept l r s h
  | vop l r => exact execVop_kept l r s h
  | setvl l r => exact execSetvl_kept l r s h
  | xferCopy l r => exact execXferCopy_kept l r s h
  | xferStridedCopy l r => exact execXferStridedCopy_kept l r s h
  | xferEnqueue l r => exact execXferEnqueue_kept l r s h
  | xferDequeue l r => exact execXferDequeue_kept l r s h
  | xferAtomic l r => exact execXferAtomic_kept l r s h
  | xferFill l r => exact execXferFill_kept l r s h
  | collectiveAllReduce l r => exact execCollectiveAllReduce_kept l r s h
  | collectiveReduceToRoot l r => exact execCollectiveReduceToRoot_kept l r s h
  | collectiveBroadcast l r => exact execCollectiveBroadcast_kept l r s h
  | collectiveAllGather l r => exact execCollectiveAllGather_kept l r s h
  | collectiveBarrier l r => exact execCollectiveBarrier_kept l r s h
  | mstream l r => exact execMstream_kept l r s h
  | mstencil l r => exact execMstencil_kept l r s h
  | mreduce l r => exact execMreduce_kept l r s h
  | mindexGather l r => exact execMindexGather_kept l r s h
  | mindexScatter l r => exact execMindexScatter_kept l r s h
  | mindexAtomicScatter l r => exact execMindexAtomicScatter_kept l r s h
  | mtileSeal l r => exact execMtileSeal_kept l r s h
  | mtileVerify l r => exact execMtileVerify_kept l r s h
  | mtileZeroFill l r => exact execMtileZeroFill_kept l r s h
  | mtileMigrate l r => exact execMtileMigrate_kept l r s h
  | opCompletion id => exact execOpCompletion_kept id s h
  | transferRequestComplete id req data ok => exact execTransferRequestComplete_kept id req data ok s h
  | tagGrant => exact execTagGrant_kept s h
  | queueWaitReread l => exact execQueueWaitReread_kept l s h
  | tick => exact execTick_kept s h
  | phaseRelease p => exact execPhaseRelease_kept p s h
  | phaseWarning p => exact execPhaseWarning_kept p s h
  | phaseLate p => exact execPhaseLate_kept p s h
  | overrunDecision => exact execOverrunDecision_kept s h
  | overrunTrigger tx => exact execOverrunTrigger_kept tx s h
  | jobStoppedTrigger tx => exact execJobStoppedTrigger_kept tx s h
  | undoCopyDone granule => exact execUndoCopyDone_kept granule s h
  | restorationDone => exact execRestorationDone_kept s h
  | tickStopBoundary => exact execTickStopBoundary_kept s h
  | tckCtrlRunClear => exact execTckCtrlRunClear_kept s h
  | effectiveTickReached => exact execEffectiveTickReached_kept s h
  | slowNoticeRepeat => exact execSlowNoticeRepeat_kept s h
  | slowNotice tx => exact execSlowNotice_kept tx s h
  | slowNoticeExpiry src => exact execSlowNoticeExpiry_kept src s h
  | ptpMessage m => exact execPtpMessage_kept m s h
  | ptpSyncSend p => exact execPtpSyncSend_kept p s h
  | timeTransaction p lead offset locked => exact execTimeTransaction_kept p lead offset locked s h
  | fabricTimeSend => exact execFabricTimeSend_kept s h
  | timeSourceLoss inp => exact execTimeSourceLoss_kept inp s h
  | leadConflictExpiry => exact execLeadConflictExpiry_kept s h
  | time1ppsEdge tenMhzPresent spacingOk offset => exact execTime1ppsEdge_kept tenMhzPresent spacingOk offset s h
  | ppsOutEdge => exact execPpsOutEdge_kept s h
  | measurementFrame d => exact execMeasurementFrame_kept d s h
  | actuationFrameSend stream => exact execActuationFrameSend_kept stream s h
  | arpRequest q => exact execArpRequest_kept q s h
  | neighbourDiscovery q => exact execNeighbourDiscovery_kept q s h
  | icmpEcho q => exact execIcmpEcho_kept q s h
  | lineCommit line => exact execLineCommit_kept line s h
  | cbwCopyDone granule => exact execCbwCopyDone_kept granule s h
  | scrub st ch pc row addr f => exact execScrub_kept st ch pc row addr f s h
  | pageMigrationDone st ch page => exact execPageMigrationDone_kept st ch page s h
  | channelMigrationDone st ch => exact execChannelMigrationDone_kept st ch s h
  | checksumReloadDone id tile verifies => exact execChecksumReloadDone_kept id tile verifies s h
  | producerReplay id tile verifies => exact execProducerReplay_kept id tile verifies s h
  | thermalSample st celsius => exact execThermalSample_kept st celsius s h
  | thermalStepExit st => exact execThermalStepExit_kept st s h
  | reservationGrant q => exact execReservationGrant_kept q s h
  | entryLanding q pos => exact execEntryLanding_kept q pos s h
  | windowFetchDone q => exact execWindowFetchDone_kept q s h
  | slotGrant q => exact execSlotGrant_kept q s h
  | trackerGrant q => exact execTrackerGrant_kept q s h
  | headWindowRefill q => exact execHeadWindowRefill_kept q s h
  | hostEnqueue offset data => exact execHostEnqueue_kept offset data s h
  | hostEnqueueDrop => exact execHostEnqueueDrop_kept s h
  | coreRotationStart n => exact execCoreRotationStart_kept n s h
  | migrationCopyDone n => exact execMigrationCopyDone_kept n s h
  | coreBistDone die phys v => exact execCoreBistDone_kept die phys v s h
  | marrowEngineTestStart m => exact execMarrowEngineTestStart_kept m s h
  | marrowBistDone m v => exact execMarrowBistDone_kept m v s h
  | hbmPageTestStart st ch page => exact execHbmPageTestStart_kept st ch page s h
  | hbmPageTestDone st ch page v => exact execHbmPageTestDone_kept st ch page v s h
  | laneTestStart p lane => exact execLaneTestStart_kept p lane s h
  | laneTestDone p lane v => exact execLaneTestDone_kept p lane v s h
  | coreCheckerFailure die phys => exact execCoreCheckerFailure_kept die phys s h
  | marrowCheckerFailure st phys => exact execMarrowCheckerFailure_kept st phys s h
  | managementMismatch bist => exact execManagementMismatch_kept bist s h
  | serviceCoreFault c => exact execServiceCoreFault_kept c s h
  | laneLoss p lane f => exact execLaneLoss_kept p lane f s h
  | laneRetrainDone p => exact execLaneRetrainDone_kept p s h
  | flitReceive p fec flit => exact execFlitReceive_kept p fec flit s h
  | linkUp p peer lanes => exact execLinkUp_kept p peer lanes s h
  | readRequest tx => exact execReadRequest_kept tx s h
  | writeRequest tx => exact execWriteRequest_kept tx s h
  | atomicRequest tx => exact execAtomicRequest_kept tx s h
  | creditRequest tx => exact execCreditRequest_kept tx s h
  | enqueueTransaction tx => exact execEnqueueTransaction_kept tx s h
  | dequeueTransaction tx => exact execDequeueTransaction_kept tx s h
  | collectiveContribution tx => exact execCollectiveContribution_kept tx s h
  | pendingNotice tx => exact execPendingNotice_kept tx s h
  | portStateAnnouncement tx => exact execPortStateAnnouncement_kept tx s h
  | peerManagement tx => exact execPeerManagement_kept tx s h
  | congestionNotice tx => exact execCongestionNotice_kept tx s h
  | lostNotice tx => exact execLostNotice_kept tx s h
  | launchHeartbeat tx => exact execLaunchHeartbeat_kept tx s h
  | launchReattach tx => exact execLaunchReattach_kept tx s h
  | launchAdopt tx => exact execLaunchAdopt_kept tx s h
  | launchDone tx => exact execLaunchDone_kept tx s h
  | invalidation tx => exact execInvalidation_kept tx s h
  | invalidationAck tx => exact execInvalidationAck_kept tx s h
  | coherentFill tx => exact execCoherentFill_kept tx s h
  | fabricReply tx => exact execFabricReply_kept tx s h
  | replyDeadline peer seq => exact execReplyDeadline_kept peer seq s h
  | pendingNoticeSend peer => exact execPendingNoticeSend_kept peer s h
  | fabricWaitDeadline peer => exact execFabricWaitDeadline_kept peer s h
  | rankedAtomicApply addr => exact execRankedAtomicApply_kept addr s h
  | rankWaitDeadline addr rank => exact execRankWaitDeadline_kept addr rank s h
  | congestionNoticeExpiry home => exact execCongestionNoticeExpiry_kept home s h
  | throttleGap home => exact execThrottleGap_kept home s h
  | cressWindowClose line => exact execCressWindowClose_kept line s h
  | leekEntryExpiry => exact execLeekEntryExpiry_kept s h
  | launchChunkForward id child => exact execLaunchChunkForward_kept id child s h
  | launchHeartbeatSend id => exact execLaunchHeartbeatSend_kept id s h
  | launchParentSilence id => exact execLaunchParentSilence_kept id s h
  | launchAdoptTimeout id => exact execLaunchAdoptTimeout_kept id s h
  | checkpointCapture => exact execCheckpointCapture_kept s h
  | queueWritebackDone q => exact execQueueWritebackDone_kept q s h
  | parsnipGranuleDone granule => exact execParsnipGranuleDone_kept granule s h
  | checkpointCommit => exact execCheckpointCommit_kept s h
  | moduleCommandTimeout => exact execModuleCommandTimeout_kept s h
  | mbxDoorbell k => exact execMbxDoorbell_kept k s h
  | mailboxPageWrite k offset data => exact execMailboxPageWrite_kept k offset data s h
  | mbxDoneClear mask => exact execMbxDoneClear_kept mask s h
  | longCommandDone k e => exact execLongCommandDone_kept k e s h
  | mbxEvtEnable value => exact execMbxEvtEnable_kept value s h
  | mbxEvtHeadWrite value => exact execMbxEvtHeadWrite_kept value s h
  | registerWrite offset size value => exact execRegisterWrite_kept offset size value s h
  | bar0RefusedAccess a => exact execBar0RefusedAccess_kept a s h
  | bar2Read offset len uncorrectable => exact execBar2Read_kept offset len uncorrectable s h
  | bar2Write offset data => exact execBar2Write_kept offset data s h
  | hostCompletionTimeout id req => exact execHostCompletionTimeout_kept id req s h
  | poisonedTlp write id req => exact execPoisonedTlp_kept write id req s h
  | pcieLinkDown => exact execPcieLinkDown_kept s h
  | pcieLinkUp hostRate => exact execPcieLinkUp_kept hostRate s h
  | functionLevelReset => exact execFunctionLevelReset_kept s h
  | pcieHotReset => exact execPcieHotReset_kept s h
  | remoteMailboxDatagram d => exact execRemoteMailboxDatagram_kept d s h
  | devCapabilities k => exact execDevCapabilities_kept k s h
  | devIdentify k => exact execDevIdentify_kept k s h
  | devStatus k => exact execDevStatus_kept k s h
  | netConfig k => exact execNetConfig_kept k s h
  | storageTargetSet k => exact execStorageTargetSet_kept k s h
  | storageTargetStatus k => exact execStorageTargetStatus_kept k s h
  | jobAdmit k ext => exact execJobAdmit_kept k ext s h
  | jobReset k => exact execJobReset_kept k s h
  | jobStatus k => exact execJobStatus_kept k s h
  | queueStatus k => exact execQueueStatus_kept k s h
  | queueEngineStatus k => exact execQueueEngineStatus_kept k s h
  | timeSetSource k => exact execTimeSetSource_kept k s h
  | timeStatus k => exact execTimeStatus_kept k s h
  | tickArm k => exact execTickArm_kept k s h
  | tickStop k => exact execTickStop_kept k s h
  | tickStatus k => exact execTickStatus_kept k s h
  | streamAdd k => exact execStreamAdd_kept k s h
  | streamRemove k => exact execStreamRemove_kept k s h
  | streamStatus k => exact execStreamStatus_kept k s h
  | ckpStart k => exact execCkpStart_kept k s h
  | ckpStatus k => exact execCkpStatus_kept k s h
  | ckpAbandon k => exact execCkpAbandon_kept k s h
  | ckpExport k => exact execCkpExport_kept k s h
  | ckpRestore k sources => exact execCkpRestore_kept k sources s h
  | ckpManifestRead k => exact execCkpManifestRead_kept k s h
  | ckpDiscard k => exact execCkpDiscard_kept k s h
  | snapArm k => exact execSnapArm_kept k s h
  | snapTrigger k => exact execSnapTrigger_kept k s h
  | snapStatus k => exact execSnapStatus_kept k s h
  | snapshotTickMatch => exact execSnapshotTickMatch_kept s h
  | snapshotTimeMatch => exact execSnapshotTimeMatch_kept s h
  | snapshotEventMatch event source => exact execSnapshotEventMatch_kept event source s h
  | snapshotTrigger tx => exact execSnapshotTrigger_kept tx s h
  | tagRead k => exact execTagRead_kept k s h
  | debugUnlock k ext => exact execDebugUnlock_kept k ext s h
  | debugLock k => exact execDebugLock_kept k s h
  | stepHalt k => exact execStepHalt_kept k s h
  | stepResume k => exact execStepResume_kept k s h
  | stepHaltTick => exact execStepHaltTick_kept s h
  | stepResumeTick => exact execStepResumeTick_kept s h
  | d2TokenExpiry => exact execD2TokenExpiry_kept s h
  | unlockLockoutExpiry => exact execUnlockLockoutExpiry_kept s h
  | secStatus k => exact execSecStatus_kept k s h
  | fwStage k ext => exact execFwStage_kept k ext s h
  | fwActivate k => exact execFwActivate_kept k s h
  | fwActivateWarmReset => exact execFwActivateWarmReset_kept s h
  | configRecordWrite k ext => exact execConfigRecordWrite_kept k ext s h
  | ownerKeySet k => exact execOwnerKeySet_kept k s h
  | certRead k => exact execCertRead_kept k s h
  | powerStateSet k => exact execPowerStateSet_kept k s h
  | powerCapSet k => exact execPowerCapSet_kept k s h
  | powerStatus k => exact execPowerStatus_kept k s h
  | selfTest k found ending units => exact execSelfTest_kept k found ending units s h
  | onlineTestSet k => exact execOnlineTestSet_kept k s h
  | testStatus k => exact execTestStatus_kept k s h
  | memRepairApply k => exact execMemRepairApply_kept k s h
  | memHealth k => exact execMemHealth_kept k s h
  | faultLogRead k => exact execFaultLogRead_kept k s h
  | fabricSetIdentity k => exact execFabricSetIdentity_kept k s h
  | fabricStatus k => exact execFabricStatus_kept k s h
  | peerAdd k => exact execPeerAdd_kept k s h
  | peerRemove k => exact execPeerRemove_kept k s h
  | peerStatus k => exact execPeerStatus_kept k s h
  | groupSet k ext => exact execGroupSet_kept k ext s h
  | routeSetOptical k => exact execRouteSetOptical_kept k s h
  | portStatus k => exact execPortStatus_kept k s h
  | portRetrain k => exact execPortRetrain_kept k s h
  | launchBroadcast k => exact execLaunchBroadcast_kept k s h
  | launchStatus k => exact execLaunchStatus_kept k s h
  | standbySupplyGood => exact execStandbySupplyGood_kept s h
  | coldResetRelease st => exact execColdResetRelease_kept st s h
  | coldRstNAssert => exact execColdRstNAssert_kept s h
  | supplyFault v => exact execSupplyFault_kept v s h
  | perstAssert micros => exact execPerstAssert_kept micros s h
  | perstDeassert => exact execPerstDeassert_kept s h
  | bootStageComplete f ms ext => exact execBootStageComplete_kept f ms ext s h
  | powerEvaluation watts => exact execPowerEvaluation_kept watts s h
  | fastCurrentLimit deciamps => exact execFastCurrentLimit_kept deciamps s h
  | fastLimitRelease deciamps => exact execFastLimitRelease_kept deciamps s h
  | pwrBrakeAssert => exact execPwrBrakeAssert_kept s h
  | pwrBrakeRelease => exact execPwrBrakeRelease_kept s h
  | brakeHoldExpiry => exact execBrakeHoldExpiry_kept s h
  | junctionLimit die celsius => exact execJunctionLimit_kept die celsius s h
  | modPrsntChange present => exact execModPrsntChange_kept present s h
  | nvmeKeepAlive => exact execNvmeKeepAlive_kept s h
  | storageCommandTimeout k => exact execStorageCommandTimeout_kept k s h
  | recoveryImageStream image => exact execRecoveryImageStream_kept image s h
  | recoveryD3Grant grant => exact execRecoveryD3Grant_kept grant s h
  | getVersion => exact execGetVersion_kept s h
  | getCapabilities => exact execGetCapabilities_kept s h
  | negotiateAlgorithms hash asym => exact execNegotiateAlgorithms_kept hash asym s h
  | getDigests => exact execGetDigests_kept s h
  | getCertificate slot offset len => exact execGetCertificate_kept slot offset len s h
  | challenge slot nonce => exact execChallenge_kept slot nonce s h
  | getMeasurements index signed nonce => exact execGetMeasurements_kept index signed nonce s h
  | chunkGet handle seq => exact execChunkGet_kept handle seq s h
  | vendorDefinedRequest wantCert nonce => exact execVendorDefinedRequest_kept wantCert nonce s h
  | i3cSetdasa static addr => exact execI3cSetdasa_kept static addr s h
  | i3cEntdaa addr => exact execI3cEntdaa_kept addr s h
  | i3cPrivateWrite addr data => exact execI3cPrivateWrite_kept addr data s h
  | i3cPrivateRead addr len => exact execI3cPrivateRead_kept addr len s h
  | bypass => exact execBypass_kept s h
  | idcode => exact execIdcode_kept s h
  | samplePreload pins preload => exact execSamplePreload_kept pins preload s h
  | extest => exact execExtest_kept s h
  | clamp => exact execClamp_kept s h
  | unknownCommand k => exact execUnknownCommand_kept k s h
  | internalResetRelease => exact execInternalResetRelease_kept s h
  | ps3BoardControllerExit => exact execPs3BoardControllerExit_kept s h
  | pcieConfigurationWrite c => exact execPcieConfigurationWrite_kept c s h
  | dieToDieReplay link => exact execDieToDieReplay_kept link s h
  | dieToDieLaneFailure link module repairable => exact execDieToDieLaneFailure_kept link module repairable s h
  | spdmUnsupportedRequest code => exact execSpdmUnsupportedRequest_kept code s h
  | spareCoreBistStart die phys => exact execSpareCoreBistStart_kept die phys s h
  | delayRequestSend p => exact execDelayRequestSend_kept p s h
  | linkDelayMeasurement p ns => exact execLinkDelayMeasurement_kept p ns s h
  | storageConnectionDone target p connected => exact execStorageConnectionDone_kept target p connected s h

/-- A step leaves the queue's tail, the canonical form, and no counter lower than it was. -/
theorem step_kept {s t : State} (h : s.wf = true) (e : step s = .next t) : t.kept s.pending.tail s.counter := by
  unfold step at e
  split at e
  · rename_i c rest hp
    rw [hp]
    have hk : State.kept { s with pending := rest } rest s.counter := State.kept_iff.mpr ⟨rfl, h, fun _ => Nat.le_refl _⟩
    exact (exec_kept c _ hk).at e
  · rename_i hp
    rw [hp]
    have hk : s.kept [] s.counter := State.kept_iff.mpr ⟨hp, h, fun _ => Nat.le_refl _⟩
    exact (kept_next (s.passNs_kept hk)).at e

/-- Settles O5: nothing is listed at reset, so there is nothing out of order. -/
theorem resetIsWellFormed : Obligations.ResetIsWellFormed := by
  unfold Obligations.ResetIsWellFormed
  have hmem : State.reset.mem = [] := rfl
  have htags : State.reset.tags = [] := rfl
  have hregs : State.reset.regs = [] := rfl
  have hlog : State.reset.mram.faultLog = [] := rfl
  simp [State.wf, Memory.wf, Reg.wf, Tab.rising, hmem, htags, hregs, hlog]

/-- Settles O6, from what every step keeps. -/
theorem stepKeepsWellFormedAndCounters : Obligations.StepKeepsWellFormedAndCounters := by
  unfold Obligations.StepKeepsWellFormedAndCounters
  constructor
  · intro s t hwf e
    obtain ⟨-, hwf', -⟩ := State.kept_iff.mp (step_kept hwf e)
    exact hwf'
  · intro s t k hwf e
    obtain ⟨-, -, hcounters⟩ := State.kept_iff.mp (step_kept hwf e)
    exact hcounters k

end Sys2Proof.Machine

/-! Posted writes of the host in their order (R291). Where nothing is held and none waits, a write is carried
out by the command that brings it; behind a held one it joins the end of those that wait. -/
namespace Sys2Proof.Machine

variable {s : State} {w : HostWrite}

theorem State.onHost_id {f : HostIf → HostIf} (h : f s.host = s.host) : s.onHost f = s := by
  unfold State.onHost; rw [h]

/-- Whether a write is held is a matter of the queues, which no update of the host interface touches. -/
@[simp] theorem State.hostHeld_onHost (f : HostIf → HostIf) : (s.onHost f).hostHeld = s.hostHeld := rfl

/-- What passes: the function is reached, no write is held and none waits. -/
theorem State.writesPass_iff : s.writesPass = true ↔ s.barOpen = true ∧ s.hostHeld = false ∧ s.host.posted = [] := by
  simp [State.writesPass, and_assoc]

theorem State.barOpen_of_passes (h : s.writesPass = true) : s.barOpen = true :=
  (State.writesPass_iff.mp h).1

theorem State.releasePosted_of_nil (h : s.host.posted = []) : s.releasePosted = s := by
  unfold State.releasePosted
  rw [h, List.foldl_nil]
  exact State.onHost_id (by rw [← h])

theorem State.takeWrite_closed (h : s.barOpen = false) : s.takeWrite w = s := by
  simp [State.takeWrite, h]

theorem State.takeWrite_passes (h : s.writesPass = true) : s.takeWrite w = s.carryWrite w := by
  obtain ⟨hopen, hheld, hnone⟩ := State.writesPass_iff.mp h
  unfold State.takeWrite State.postWrite
  rw [if_pos hopen, State.releasePosted_of_nil hnone, hheld, hnone, if_neg (by simp)]

theorem State.postWrite_held (h : s.hostHeld = true) : s.postWrite w = s.onHost (fun x => { x with posted := x.posted ++ [w] }) := by
  simp [State.postWrite, h]

/-- Behind a held write every write waits, in its order. -/
theorem State.postWrites_held (ws : List HostWrite) : ∀ {s : State}, s.hostHeld = true →
    ws.foldl (fun t v => t.postWrite v) s = s.onHost (fun x => { x with posted := x.posted ++ ws }) := by
  induction ws with
  | nil => intro s _; exact (State.onHost_id (by rw [List.append_nil])).symm
  | cons v r ih =>
    intro s h
    rw [List.foldl_cons, State.postWrite_held h, ih (by simpa using h)]
    simp [State.onHost]

theorem State.takeWrite_held (hopen : s.barOpen = true) (hheld : s.hostHeld = true) :
    s.takeWrite w = { s with host := { s.host with posted := s.host.posted ++ [w] } } := by
  have hrelease : s.releasePosted = s := by
    unfold State.releasePosted
    rw [State.postWrites_held _ (by simpa using hheld)]
    simp [State.onHost]
  unfold State.takeWrite
  rw [if_pos hopen, hrelease, State.postWrite_held hheld]
  rfl

/-- A write of the host does nothing where it reaches no function, waits behind a held one, and else is carried out. -/
theorem State.takeWrite_cases {r : Result} (e : r = .next (s.takeWrite w)) :
    (s.barOpen = false → r = .next s) ∧
    (s.barOpen = true → s.hostHeld = true → r = .next { s with host := { s.host with posted := s.host.posted ++ [w] } }) ∧
    (s.writesPass = true → r = .next (s.carryWrite w)) := by
  subst e
  refine ⟨fun h => ?_, fun hopen hheld => ?_, fun h => ?_⟩
  · rw [State.takeWrite_closed h]
  · rw [State.takeWrite_held hopen hheld]
  · rw [State.takeWrite_passes h]

-- the commands that bring a posted write

theorem exec_mbxDoorbell {k : Nat} (hk : k < 64) : exec (.mbxDoorbell k) s = .next (s.takeWrite (.doorbell k)) :=
  ifUnit_true (decide_eq_true hk)

theorem exec_mailboxPageWrite {k offset : Nat} {data : List Byte} (hk : k < 64) (hd : offset + data.length ≤ 4096) :
    exec (.mailboxPageWrite k offset data) s = .next (s.takeWrite (.page k offset data)) :=
  ifUnit_true (by simp [mbxOk, hk, hd])

theorem exec_mbxDoneClear (mask : Nat) : exec (.mbxDoneClear mask) s = .next (s.takeWrite (.doneClear mask)) := rfl

theorem exec_mbxEvtEnable (v : Nat) : exec (.mbxEvtEnable v) s = .next (s.takeWrite (.evtEnable v)) := rfl

theorem exec_mbxEvtHeadWrite (v : Nat) : exec (.mbxEvtHeadWrite v) s = .next (s.takeWrite (.evtHead v)) := rfl

theorem exec_registerWrite (offset size v : Nat) :
    exec (.registerWrite offset size v) s = .next (s.takeWrite (.bar0 ⟨true, offset, size, v⟩)) := rfl

theorem exec_bar2Write (offset : Nat) (data : List Byte) : exec (.bar2Write offset data) s = .next (s.takeWrite (.bar2 offset data)) := rfl

theorem exec_bar0RefusedAccess_write {a : Bar0Access} (ha : a.write = true) :
    exec (.bar0RefusedAccess a) s = .next (s.takeWrite (.bar0 a)) := by
  change execBar0RefusedAccess a s = _
  cases hopen : s.barOpen <;> simp [execBar0RefusedAccess, State.takeWrite, hopen, ha]

theorem exec_bar0RefusedAccess_read {a : Bar0Access} (hopen : s.barOpen = true) (ha : a.write = false) :
    exec (.bar0RefusedAccess a) s = .next (s.bar0Read a) := by
  change execBar0RefusedAccess a s = _
  simp [execBar0RefusedAccess, hopen, ha]

-- what each kind of write does where it passes

theorem State.takeWrite_doorbell {k : Nat} (hp : s.writesPass = true) : s.takeWrite (.doorbell k) = s.ring k := by
  simp [State.takeWrite_passes hp, State.carryWrite, State.barOpen_of_passes hp]

theorem State.takeWrite_page {k offset : Nat} {data : List Byte} (hp : s.writesPass = true) :
    s.takeWrite (.page k offset data) = s.writePage k offset data := by
  simp [State.takeWrite_passes hp, State.carryWrite, State.barOpen_of_passes hp]

theorem State.takeWrite_doneClear {mask : Nat} (hp : s.writesPass = true) : s.takeWrite (.doneClear mask) = s.clearDone mask := by
  simp [State.takeWrite_passes hp, State.carryWrite, State.barOpen_of_passes hp]

theorem State.takeWrite_evtEnable {v : Nat} (hp : s.writesPass = true) : s.takeWrite (.evtEnable v) = s.writeEvtCtrl v := by
  simp [State.takeWrite_passes hp, State.carryWrite, State.barOpen_of_passes hp]

theorem State.takeWrite_evtHead {v : Nat} (hp : s.writesPass = true) : s.takeWrite (.evtHead v) = s.writeEvtHead v := by
  simp [State.takeWrite_passes hp, State.carryWrite, State.barOpen_of_passes hp]

theorem State.takeWrite_bar0 {a : Bar0Access} (hp : s.writesPass = true) : s.takeWrite (.bar0 a) = s.bar0Write a := by
  simp [State.takeWrite_passes hp, State.carryWrite, State.barOpen_of_passes hp]

end Sys2Proof.Machine

/-! Doorbells, mailbox pages and MBX_DONE (R398, R399). -/
namespace Sys2Proof.Machine

variable {s : State} {k : Nat}

theorem State.mbxState_congr {t : State} (h : t.host.mbx = s.host.mbx) (j : Nat) : t.mbxState j = s.mbxState j := by
  unfold State.mbxState; rw [h]

@[simp] theorem State.mbxState_setMbx (v : Mbx) (j : Nat) : (s.setMbx k v).mbxState j = if j = k then v else s.mbxState j :=
  Tab.get_set Mbx.idle s.host.mbx j k v

@[simp] theorem State.mbxState_setDone (on : Bool) (j : Nat) : (s.setDone k on).mbxState j = s.mbxState j :=
  State.mbxState_congr (by rw [State.setDone, State.setFld_host]) j

@[simp] theorem State.post_host : (s.post k).host = { (s.setMbx k .posted).host with order := s.host.order ++ [k] } := by
  simp [State.post, State.setBusy, State.setMbx]
@[simp] theorem State.post_mem : (s.post k).mem = s.mem := by simp [State.post, State.setBusy, State.setMbx]

/-- A posted message changes its own mailbox's state only. -/
theorem State.mbxState_post (j : Nat) : (s.post k).mbxState j = if j = k then .posted else s.mbxState j :=
  (State.mbxState_congr (by rw [State.post_host]) j).trans (State.mbxState_setMbx _ _)

/-- The doorbell of an idle mailbox that is served posts its message. -/
theorem State.ring_idle (hopen : s.barOpen = true) (hlocal : s.isRemote k = false) (hserved : s.served = true)
    (hidle : s.mbxState k = .idle) : s.ring k = s.post k := by
  simp [State.ring, hopen, hlocal, hserved, hidle]

/-- The doorbell of a mailbox that is not idle is counted. -/
theorem State.ring_not_idle (hopen : s.barOpen = true) (hlocal : s.isRemote k = false) (hbusy : s.mbxState k ≠ .idle) :
    s.ring k = s.bump Fld.ringIgnored 1 := by
  simp [State.ring, hopen, hlocal, hbusy]

/-- The bytes of a page are written like bytes of memory, from their offset on. -/
theorem foldl_zipIdx_set (bs : List Byte) : ∀ (t : Tab Byte) (a n : Nat),
    (bs.zipIdx n).foldl (fun t e => Tab.set 0 (a + e.2) e.1 t) t = Mem.write t (a + n) bs := by
  induction bs with
  | nil => intro t a n; rfl
  | cons b r ih =>
    intro t a n
    rw [List.zipIdx_cons, List.foldl_cons, ih]
    rfl

theorem State.setPage_pages (off : Nat) (bs : List Byte) :
    (s.setPage k off bs).host.pages = Mem.write s.host.pages (k * 4096 + off) bs := by
  simp only [State.setPage, State.onHost_host, foldl_zipIdx_set, Nat.add_zero]

/-- A page reads what was written to it. -/
theorem State.get_setPage_inside {off i : Nat} {bs : List Byte} (h : i < bs.length) :
    Tab.get 0 (s.setPage k off bs).host.pages (k * 4096 + off + i) = bs[i] := by
  rw [State.setPage_pages]
  have hbyte := Mem.byte_write bs s.host.pages (k * 4096 + off) (k * 4096 + off + i)
  rw [if_pos ⟨by omega, by omega⟩, Nat.add_sub_cancel_left, ← List.getElem_eq_getD (h := h)] at hbyte
  exact hbyte

/-- Every other byte of the pages is left alone. -/
theorem State.get_setPage_outside {off a : Nat} {bs : List Byte} (h : a < k * 4096 + off ∨ k * 4096 + off + bs.length ≤ a) :
    Tab.get 0 (s.setPage k off bs).host.pages a = Tab.get 0 s.host.pages a := by
  rw [State.setPage_pages]
  exact Mem.byte_write_other bs _ _ a h

theorem State.writePage_taken {off : Nat} {bs : List Byte} (h : s.mbxState k = .posted ∨ s.mbxState k = .executing) :
    s.writePage k off bs = s.bump Fld.writeDropped 1 := by
  have htaken : s.mbxTaken k = true := by simpa [State.mbxTaken] using h
  rw [State.writePage, if_pos htaken]

theorem State.writePage_free {off : Nat} {bs : List Byte} (h : s.mbxState k = .idle ∨ s.mbxState k = .done) :
    s.writePage k off bs = s.setPage k off bs := by
  have hfree : s.mbxTaken k ≠ true := by rcases h with h | h <;> simp [State.mbxTaken, h]
  rw [State.writePage, if_neg hfree]

/-- One mailbox under a write of MBX_DONE. -/
def State.clearDoneOf (mask : Nat) (s : State) (k : Nat) : State :=
  if bitOf mask k && decide (s.mbxState k = .done) then (s.setMbx k .idle).setDone k false else s

theorem State.clearDone_eq (mask : Nat) : s.clearDone mask = (List.range 64).foldl (State.clearDoneOf mask) s := rfl

/-- What becomes of a mailbox's state where its bit of MBX_DONE is written. -/
def Mbx.cleared (m : Mbx) : Mbx := if m = .done then .idle else m

theorem State.mbxState_clearDoneOf (mask j : Nat) :
    (State.clearDoneOf mask s k).mbxState j = if j = k ∧ bitOf mask k = true then (s.mbxState j).cleared else s.mbxState j := by
  unfold State.clearDoneOf Mbx.cleared
  by_cases hj : j = k <;> by_cases hb : bitOf mask k = true <;> by_cases hd : s.mbxState k = .done <;> simp_all

theorem Mbx.cleared_cleared (m : Mbx) : m.cleared.cleared = m.cleared := by cases m <;> rfl

/-- Clearing a list of mailboxes clears those of it whose bit is set. -/
theorem State.mbxState_foldl_clearDoneOf (mask j : Nat) (ks : List Nat) : ∀ s : State,
    (ks.foldl (State.clearDoneOf mask) s).mbxState j =
      if j ∈ ks ∧ bitOf mask j = true then (s.mbxState j).cleared else s.mbxState j := by
  induction ks with
  | nil => intro s; simp
  | cons k r ih =>
    intro s
    rw [List.foldl_cons, ih, State.mbxState_clearDoneOf]
    by_cases hj : j = k
    · subst hj
      by_cases hb : bitOf mask j = true <;> simp [hb, Mbx.cleared_cleared]
    · simp [hj]

theorem State.mbxState_clearDone (mask : Nat) (hk : k < 64) :
    (s.clearDone mask).mbxState k = if bitOf mask k = true then (s.mbxState k).cleared else s.mbxState k := by
  rw [State.clearDone_eq, State.mbxState_foldl_clearDoneOf]
  simp [hk]

end Sys2Proof.Machine

/-! The event ring's registers (R406), and what the events that waited for the ring change of the register
file (R408). -/
namespace Sys2Proof.Machine

variable {s : State}

section
variable {x : Nat} (htail : x ≠ Reg.evtTail) (hheld : x ≠ Reg.evtHeld) (hlost : x ≠ Reg.evtLost)

theorem State.reg_congr {t : State} (h : t.regs = s.regs) (x : Nat) : t.reg x = s.reg x := by unfold State.reg; rw [h]

theorem State.signalVector_regs (v : Nat) : (s.signalVector v).regs = s.regs :=
  (State.signalVector_same s v (within_self _) s.same_self).regs_eq (by decide)

include htail in
theorem State.writeEvent_reg (e : Event) : (s.writeEvent e).reg x = s.reg x := by
  unfold State.writeEvent
  cases e.vector with
  | none => exact State.reg_setReg_other _ _ htail
  | some v => exact (State.reg_congr (State.signalVector_regs v) x).trans (State.reg_setReg_other _ _ htail)

include hheld in
theorem State.setHeld_reg (es : List Event) : (s.setHeld es).reg x = s.reg x :=
  State.reg_setFld_other _ _ _ _ hheld

include htail hheld in
theorem State.writeHeld_reg (es : List Event) : ∀ s : State, (s.writeHeld es).reg x = s.reg x := by
  induction es with
  | nil => intro s; exact State.setHeld_reg hheld []
  | cons e r ih =>
    intro s
    unfold State.writeHeld
    split
    · rw [ih, State.writeEvent_reg htail]
    · exact State.setHeld_reg hheld _

include htail hheld hlost in
theorem State.ringEvent_reg (e : Event) : (s.ringEvent e).reg x = s.reg x := by
  unfold State.ringEvent
  split
  · exact State.writeEvent_reg htail e
  · split
    · exact State.setHeld_reg hheld _
    · exact State.reg_setFld_other _ _ _ _ hlost

include htail hheld hlost in
theorem State.postEvent_reg (e : Event) : (s.postEvent e).reg x = s.reg x := by
  have hibi : ((s.ringEvent e).eventIbi e).regs = (s.ringEvent e).regs :=
    (State.eventIbi_same _ e (within_self _) (State.same_self _)).regs_eq (by decide)
  have hdatagram : (s.postEvent e).regs = ((s.ringEvent e).eventIbi e).regs :=
    (State.eventDatagram_same _ e (within_self _) (State.same_self _)).regs_eq (by decide)
  rw [State.reg_congr (hdatagram.trans hibi), State.ringEvent_reg htail hheld hlost]

theorem State.reg_foldl {α : Type} {f : State → α → State} (hf : ∀ t a, (f t a).reg x = t.reg x) (l : List α) :
    ∀ s : State, (l.foldl f s).reg x = s.reg x := by
  induction l with
  | nil => intro s; rfl
  | cons a r ih => intro s; rw [List.foldl_cons, ih, hf]

include htail hheld hlost in
/-- Events that waited for the ring change its tail and the counts of held and lost events, and no other register. -/
theorem State.flushEvents_reg : s.flushEvents.reg x = s.reg x := by
  unfold State.flushEvents
  refine (State.reg_foldl (fun t l => ?_) _ _).trans (State.writeHeld_reg htail hheld _ s)
  split
  · split
    · exact State.postEvent_reg htail hheld hlost _
    · rfl
  · rfl
end

theorem State.fld_congr {t : State} {f : Fld} (h : t.reg f.key = s.reg f.key) : t.fld f = s.fld f := by unfold State.fld; rw [h]

theorem State.flushEvents_fld {f : Fld} (htail : f.key ≠ Reg.evtTail) (hheld : f.key ≠ Reg.evtHeld) (hlost : f.key ≠ Reg.evtLost) :
    s.flushEvents.fld f = s.fld f := State.fld_congr (State.flushEvents_reg htail hheld hlost)

/-- While the ring is enabled a write to MBX_EVT_CTRL sets its enable bit only. -/
theorem State.writeEvtCtrl_enabled (v : Nat) (h : s.fld Fld.evtEnable = 1) :
    s.writeEvtCtrl v = s.setFld Fld.evtEnable (v / 2 ^ 31 % 2) := by
  rw [State.writeEvtCtrl, if_pos h]

/-- The state as a write to MBX_EVT_CTRL leaves the size of a disabled ring. -/
def State.sizeRing (s : State) (v : Nat) : State := if 6 ≤ v % 32 ∧ v % 32 ≤ 16 then s.setFld Fld.evtLog2 (v % 32) else s

/-- The ring enabled: head and tail at 0. -/
def State.enableRing (s : State) : State := ((s.setReg Reg.evtHead 0).setReg Reg.evtTail 0).setFld Fld.evtEnable 1

theorem State.writeEvtCtrl_enables {v : Nat} (h : s.fld Fld.evtEnable = 0) (hv : v / 2 ^ 31 % 2 = 1) :
    s.writeEvtCtrl v = (s.sizeRing v).enableRing.flushEvents := by
  rw [State.writeEvtCtrl, if_neg (by rw [h]; decide)]
  exact if_pos hv

theorem State.sizeRing_log2 {v : Nat} (hlo : 6 ≤ v % 32) (hhi : v % 32 ≤ 16) : (s.sizeRing v).fld Fld.evtLog2 = v % 32 := by
  rw [State.sizeRing, if_pos ⟨hlo, hhi⟩, State.fld_setFld_same _ _ _ (by decide) (by decide)]
  exact Nat.mod_mod _ _

theorem State.enableRing_enable : s.enableRing.fld Fld.evtEnable = 1 :=
  State.fld_setFld_same _ _ _ (by decide) (by decide)

theorem State.enableRing_head : s.enableRing.reg Reg.evtHead = 0 := by
  unfold State.enableRing
  rw [State.reg_setFld_other _ _ _ _ (by decide), State.reg_setReg_other _ _ (by decide), State.reg_setReg_same]

theorem State.enableRing_log2 : s.enableRing.fld Fld.evtLog2 = s.fld Fld.evtLog2 := by
  unfold State.enableRing
  rw [State.fld_setFld_other _ _ _ _ (by decide) (by decide) (by decide) (by decide)]
  apply State.fld_congr
  rw [State.reg_setReg_other _ _ (by decide), State.reg_setReg_other _ _ (by decide)]

end Sys2Proof.Machine

/-! Accesses of BAR0 (R12, R391, R392): what is refused, what is read, and a word written to HOST_WIN_BASE. -/
namespace Sys2Proof.Machine

variable {s : State} {a : Bar0Access}

theorem State.bar0Write_refused (h : s.bar0Refuses a = true) : s.bar0Write a = s.bump Fld.denied 1 := by
  rw [State.bar0Write, if_pos h]

theorem State.bar0Read_refused (h : s.bar0Refuses a = true) :
    s.bar0Read a = (s.bump Fld.denied 1).send (.hostCompletion (toLE a.size 0)) := by
  rw [State.bar0Read, if_pos h]

theorem State.bar0Read_unfit (h : s.bar0Refuses a = false) (hfit : bar0Fits a = false) : s.bar0Read a = s.send .unsupportedRequest := by
  simp [State.bar0Read, h, hfit]

theorem State.bar0Read_fits (h : s.bar0Refuses a = false) (hfit : bar0Fits a = true) :
    s.bar0Read a = s.send (.hostCompletion ((List.range a.size).map (fun i => s.bar0Byte (a.offset + i)))) := by
  simp [State.bar0Read, h, hfit]

/-- A write to the lower word of a 4 KiB aligned base sets its bits [31:12]. -/
theorem State.writeHalf_base (key v : Nat) :
    s.writeHalf key false (2 ^ 64 - 4096) v = s.setReg key (setBits (s.reg key) 31 12 (v / 4096)) := by
  have hmask : (BitVec.ofNat 64 (2 ^ 64 - 4096) &&& BitVec.ofNat 64 ((2 ^ 32 - 1) <<< 0) : Word64) =
      BitVec.ofNat 64 ((2 ^ (31 - 12 + 1) - 1) <<< 12) := by decide
  have hvalue : (BitVec.ofNat 64 (v <<< 0) &&& BitVec.ofNat 64 ((2 ^ (31 - 12 + 1) - 1) <<< 12) : Word64) =
      BitVec.ofNat 64 ((v / 4096 % 2 ^ (31 - 12 + 1)) <<< 12) := by
    apply BitVec.eq_of_getLsbD_eq
    intro i hi
    simp only [BitVec.getLsbD_and, BitVec.getLsbD_ofNat, Nat.testBit_shiftLeft, Nat.testBit_two_pow_sub_one,
      Nat.testBit_mod_two_pow, show (4096 : Nat) = 2 ^ 12 from rfl, Nat.testBit_div_two_pow]
    by_cases h : 12 ≤ i
    · simp [hi, h, Bool.and_comm]
    · simp [h]
  simp only [State.writeHalf, setBits, hmask, hvalue, Bool.false_eq_true, if_false]

/-- A word written to the lower half of HOST_WIN_BASE. -/
theorem State.bar0Write_hostWinBase (v : Nat) (hv : v < 2 ^ 32) :
    s.bar0Write ⟨true, 0x18, 4, v⟩ =
      s.setReg Reg.hostWinBase (setBits (s.reg Reg.hostWinBase) 31 12 (v / 4096)) := by
  have hrefuses : s.bar0Refuses ⟨true, 0x18, 4, v⟩ = false := by simp [State.bar0Refuses, bar0Area, snapLevel]
  have hfits : bar0Fits ⟨true, 0x18, 4, v⟩ = true := by simp [bar0Fits]
  rw [← State.writeHalf_base]
  simp [State.bar0Write, hrefuses, hfits, State.writeWord, Nat.mod_eq_of_lt (show v < 4294967296 from hv)]

/-- A register in its fields. -/
theorem toNat_eq_fields (r : Word64) : r.toNat = getBits r 63 32 * 2 ^ 32 + getBits r 31 12 * 4096 + getBits r 11 0 := by
  have := r.isLt
  simp only [getBits, Nat.shiftRight_eq_div_pow]
  omega

/-- What HOST_WIN_BASE holds after such a write, where it was aligned before. -/
theorem toNat_setBits_base (r : Word64) (v : Nat) (hv : v < 2 ^ 32) (hr : r.toNat % 4096 = 0) :
    (setBits r 31 12 (v / 4096)).toNat % 2 ^ 32 = v / 4096 * 4096 ∧
    (setBits r 31 12 (v / 4096)).toNat / 2 ^ 32 = r.toNat / 2 ^ 32 := by
  have hmid := getBits_setBits_same r 31 12 (v / 4096) (by decide) (by decide)
  have hlow := getBits_setBits_other r 31 12 (v / 4096) 11 0 (by decide) (by decide) (by decide) (by decide)
  have hhigh := getBits_setBits_other r 31 12 (v / 4096) 63 32 (by decide) (by decide) (by decide) (by decide)
  have hfields := toNat_eq_fields (setBits r 31 12 (v / 4096))
  have hrfields := toNat_eq_fields r
  have hzero : getBits r 11 0 = 0 := by simpa [getBits] using hr
  have hlt : getBits r 31 12 < 2 ^ 20 := Nat.mod_lt _ (by decide)
  rw [hmid, hlow, hhigh, hzero] at hfields
  omega

end Sys2Proof.Machine

/-! What each command of the host does where its posted write passes, and O37 from it. -/
namespace Sys2Proof.Machine

variable {s : State} {k : Nat} {a : Bar0Access}

section
variable (hk : k < 64) (hp : s.writesPass = true)
include hk hp

theorem mbxDoorbell_posts (hlocal : s.isRemote k = false) (hserved : s.served = true) (hidle : s.mbxState k = .idle) :
    ∃ t, exec (.mbxDoorbell k) s = .next t ∧ t.mbxState k = .posted ∧ t.host.order = s.host.order ++ [k] ∧
      (∀ j, j ≠ k → t.mbxState j = s.mbxState j) ∧ t.mem = s.mem ∧ t.host.pages = s.host.pages := by
  refine ⟨s.post k, ?_, ?_, ?_, fun j hj => ?_, State.post_mem, ?_⟩
  · rw [exec_mbxDoorbell hk, State.takeWrite_doorbell hp, State.ring_idle (State.barOpen_of_passes hp) hlocal hserved hidle]
  · rw [State.mbxState_post, if_pos rfl]
  · rw [State.post_host]
  · rw [State.mbxState_post, if_neg hj]
  · rw [State.post_host]; rfl

theorem mbxDoorbell_ignored (hlocal : s.isRemote k = false) (hbusy : s.mbxState k ≠ .idle) :
    exec (.mbxDoorbell k) s = .next (s.bump Fld.ringIgnored 1) := by
  rw [exec_mbxDoorbell hk, State.takeWrite_doorbell hp, State.ring_not_idle (State.barOpen_of_passes hp) hlocal hbusy]

theorem mailboxPageWrite_dropped {offset : Nat} {data : List Byte} (hd : offset + data.length ≤ 4096)
    (htaken : s.mbxState k = .posted ∨ s.mbxState k = .executing) :
    exec (.mailboxPageWrite k offset data) s = .next (s.bump Fld.writeDropped 1) := by
  rw [exec_mailboxPageWrite hk hd, State.takeWrite_page hp, State.writePage_taken htaken]

theorem mailboxPageWrite_stored {offset : Nat} {data : List Byte} (hd : offset + data.length ≤ 4096)
    (hfree : s.mbxState k = .idle ∨ s.mbxState k = .done) :
    ∃ t, exec (.mailboxPageWrite k offset data) s = .next t ∧
      (∀ i, (h : i < data.length) → Tab.get 0 t.host.pages (k * 4096 + offset + i) = data[i]) ∧
      (∀ b, (b < k * 4096 + offset ∨ k * 4096 + offset + data.length ≤ b) → Tab.get 0 t.host.pages b = Tab.get 0 s.host.pages b) ∧
      t.regs = s.regs ∧ t.mem = s.mem := by
  refine ⟨s.setPage k offset data, ?_, fun i h => State.get_setPage_inside h, fun b h => State.get_setPage_outside h, rfl, rfl⟩
  rw [exec_mailboxPageWrite hk hd, State.takeWrite_page hp, State.writePage_free hfree]

theorem mbxDoneClear_clears (mask : Nat) :
    ∃ t, exec (.mbxDoneClear mask) s = .next t ∧ (s.mbxState k = .done → bitOf mask k = true → t.mbxState k = .idle) ∧
      (bitOf mask k = false ∨ s.mbxState k ≠ .done → t.mbxState k = s.mbxState k) := by
  have hstate := State.mbxState_clearDone (s := s) mask hk
  refine ⟨s.clearDone mask, ?_, fun hdone hbit => ?_, fun h => ?_⟩
  · rw [exec_mbxDoneClear, State.takeWrite_doneClear hp]
  · rw [hstate, if_pos hbit, hdone]; rfl
  · rcases h with hbit | hbusy
    · rw [hstate, if_neg (by simp [hbit])]
    · rw [hstate, Mbx.cleared, if_neg hbusy, ite_self]
end

section
variable (hp : s.writesPass = true)
include hp

theorem mbxEvtEnable_enabled (v : Nat) (hon : s.fld Fld.evtEnable = 1) :
    exec (.mbxEvtEnable v) s = .next (s.setFld Fld.evtEnable (v / 2 ^ 31 % 2)) := by
  rw [exec_mbxEvtEnable, State.takeWrite_evtEnable hp, State.writeEvtCtrl_enabled v hon]

theorem mbxEvtEnable_enables (v : Nat) (hoff : s.fld Fld.evtEnable = 0) (hv : v / 2 ^ 31 % 2 = 1) :
    ∃ t, exec (.mbxEvtEnable v) s = .next t ∧ t.fld Fld.evtEnable = 1 ∧ t.reg Reg.evtHead = 0 ∧
      (6 ≤ v % 32 → v % 32 ≤ 16 → t.fld Fld.evtLog2 = v % 32) := by
  refine ⟨(s.sizeRing v).enableRing.flushEvents, ?_, ?_, ?_, fun hlo hhi => ?_⟩
  · rw [exec_mbxEvtEnable, State.takeWrite_evtEnable hp, State.writeEvtCtrl_enables hoff hv]
  · rw [State.flushEvents_fld (by decide) (by decide) (by decide), State.enableRing_enable]
  · rw [State.flushEvents_reg (by decide) (by decide) (by decide), State.enableRing_head]
  · rw [State.flushEvents_fld (by decide) (by decide) (by decide), State.enableRing_log2, State.sizeRing_log2 hlo hhi]

theorem mbxEvtHeadWrite_sets (v : Nat) :
    exec (.mbxEvtHeadWrite v) s = .next (s.setReg Reg.evtHead (BitVec.ofNat 64 (v % 2 ^ 32))).flushEvents := by
  rw [exec_mbxEvtHeadWrite, State.takeWrite_evtHead hp, State.writeEvtHead]

theorem registerWrite_hostWinBase (v : Nat) (hv : v < 2 ^ 32) (hbase : (s.reg Reg.hostWinBase).toNat % 4096 = 0) :
    ∃ t, exec (.registerWrite 0x18 4 v) s = .next t ∧ t.host = s.host ∧ t.mem = s.mem ∧
      (t.reg Reg.hostWinBase).toNat % 2 ^ 32 = v / 4096 * 4096 ∧
      (t.reg Reg.hostWinBase).toNat / 2 ^ 32 = (s.reg Reg.hostWinBase).toNat / 2 ^ 32 := by
  refine ⟨s.setReg Reg.hostWinBase (setBits (s.reg Reg.hostWinBase) 31 12 (v / 4096)), ?_, rfl, rfl, ?_⟩
  · rw [exec_registerWrite, State.takeWrite_bar0 hp, State.bar0Write_hostWinBase v hv]
  · rw [State.reg_setReg_same]
    exact toNat_setBits_base _ v hv hbase

theorem bar0RefusedAccess_read (ha : a.write = false) : exec (.bar0RefusedAccess a) s = .next (s.bar0Read a) :=
  exec_bar0RefusedAccess_read (State.barOpen_of_passes hp) ha

/-- A refused write is counted, whichever command brings it. -/
theorem bar0_write_refused (href : s.bar0Refuses a = true) (ha : a.write = true) :
    exec (.bar0RefusedAccess a) s = .next (s.bump Fld.denied 1) ∧
      exec (.registerWrite a.offset a.size a.value) s = .next (s.bump Fld.denied 1) := by
  have hwrite : s.takeWrite (.bar0 a) = s.bump Fld.denied 1 := by rw [State.takeWrite_bar0 hp, State.bar0Write_refused href]
  have haccess : (⟨true, a.offset, a.size, a.value⟩ : Bar0Access) = a := by rw [← ha]
  exact ⟨by rw [exec_bar0RefusedAccess_write ha, hwrite], by rw [exec_registerWrite, haccess, hwrite]⟩
end

/-- Settles O37: mailboxes, then the registers of BAR0, then the order of posted writes, which every command that brings one keeps. -/
theorem mailboxesAndHostRegisters : Obligations.MailboxesAndHostRegisters := by
  unfold Obligations.MailboxesAndHostRegisters
  refine ⟨fun s k hk hp => ?mailbox, fun s hp => ?bar0, fun s c w hw => State.takeWrite_cases ?order⟩
  case mailbox =>
    exact ⟨mbxDoorbell_posts hk hp, mbxDoorbell_ignored hk hp,
      fun offset data hd => ⟨mailboxPageWrite_dropped hk hp hd, mailboxPageWrite_stored hk hp hd⟩, mbxDoneClear_clears hk hp⟩
  case bar0 =>
    refine ⟨mbxEvtEnable_enabled hp, mbxEvtEnable_enables hp, mbxEvtHeadWrite_sets hp, registerWrite_hostWinBase hp,
      fun a href => ⟨fun ha => ?refused, bar0_write_refused hp href⟩, fun a ha href hfit => ?unfit, fun a ha href hfit => ?fits⟩
    case refused => rw [bar0RefusedAccess_read hp ha, State.bar0Read_refused href]
    case unfit => rw [bar0RefusedAccess_read hp ha, State.bar0Read_unfit href hfit]
    case fits => rw [bar0RefusedAccess_read hp ha, State.bar0Read_fits href hfit]
  case order =>
    rcases hw with ⟨k, hk, rfl, rfl⟩ | ⟨k, offset, data, hk, hd, rfl, rfl⟩ | ⟨mask, rfl, rfl⟩ | ⟨v, rfl, rfl⟩ | ⟨v, rfl, rfl⟩ |
      ⟨offset, size, v, rfl, rfl⟩ | ⟨a, ha, rfl, rfl⟩ | ⟨offset, data, rfl, rfl⟩
    · exact exec_mbxDoorbell hk
    · exact exec_mailboxPageWrite hk hd
    · exact exec_mbxDoneClear mask
    · exact exec_mbxEvtEnable v
    · exact exec_mbxEvtHeadWrite v
    · exact exec_registerWrite offset size v
    · exact exec_bar0RefusedAccess_write ha
    · exact exec_bar2Write offset data

end Sys2Proof.Machine

/-! What every command may change, by the parts of the state: the command's own lemma of Laws/SameExec.lean, put together over
the commands; and O7 from it. -/
namespace Sys2Proof.Machine

/-- The parts of the state that a command may change: bit i stands for part i, in the order of `Same`. -/
def mayChange (c : Instr) : Nat :=
  match c with
  | .nop .. | .wait .. | .setc .. | .addc .. | .subc .. | .fence .. | .signal .. | .queueWaitReread .. | .phaseRelease ..
  | .linkDelayMeasurement .. => 0x2
  | .opListRefetchDone .. => 0x20
  | .pageMigrationDone .. => 0x8000
  | .storageConnectionDone .. => 0x40000
  | .i3cPrivateWrite .. | .extest => 0x800000
  | .ptpSyncSend .. | .arpRequest .. | .neighbourDiscovery .. | .icmpEcho .. | .nvmeKeepAlive | .getVersion
  | .negotiateAlgorithms .. | .getDigests | .getCertificate .. | .spdmUnsupportedRequest .. | .delayRequestSend .. => 0x4000000
  | .loop .. | .phaseDone .. | .setvl .. => 0x22
  | .phaseWarning .. | .phaseLate .. | .tckCtrlRunClear | .stepHaltTick | .stepResumeTick | .d2TokenExpiry => 0x42
  | .leadConflictExpiry => 0x82
  | .slowNoticeExpiry .. => 0x402
  | .hbmPageTestStart .. => 0x8002
  | .unlockLockoutExpiry => 0x200002
  | .standbySupplyGood => 0x800002
  | .coreRotationStart .. | .marrowEngineTestStart .. | .spareCoreBistStart .. => 0x1000002
  | .dieToDieReplay .. => 0x1000040
  | .ppsOutEdge => 0x4000002
  | .i3cSetdasa .. | .i3cEntdaa .. | .bypass | .idcode | .samplePreload .. | .clamp => 0x4800000
  | .getCapabilities | .i3cPrivateRead .. => 0x6000000
  | .timeSourceLoss .. => 0xC2
  | .fabricTimeSend | .laneTestStart .. | .pendingNotice .. | .peerManagement .. | .congestionNotice ..
  | .launchHeartbeat .. | .launchReattach .. | .invalidation .. | .coherentFill .. | .pendingNoticeSend ..
  | .congestionNoticeExpiry .. | .throttleGap .. | .launchHeartbeatSend .. => 0x4020002
  | .remoteMailboxDatagram .. | .unknownCommand .. => 0x4040002
  | .challenge .. | .getMeasurements .. | .chunkGet .. | .vendorDefinedRequest .. => 0x6200000
  | .effectiveTickReached => 0x20302
  | .overrunTrigger .. => 0x4020042
  | .snapshotTickMatch | .snapshotTimeMatch | .snapshotEventMatch .. | .snapshotTrigger .. => 0x4420002
  | .pcieLinkUp .. | .devCapabilities .. | .devIdentify .. | .devStatus .. | .netConfig .. | .storageTargetSet ..
  | .storageTargetStatus .. | .jobAdmit .. | .jobStatus .. | .queueStatus .. | .queueEngineStatus .. | .timeStatus ..
  | .tickStatus .. | .streamStatus .. | .ckpStatus .. | .ckpManifestRead .. | .snapStatus .. | .tagRead .. | .secStatus ..
  | .fwActivate .. | .configRecordWrite .. | .certRead .. | .powerStateSet .. | .powerStatus .. | .testStatus ..
  | .memRepairApply .. | .memHealth .. | .faultLogRead .. | .fabricSetIdentity .. | .fabricStatus .. | .peerStatus ..
  | .portStatus .. | .launchStatus .. => 0x6040002
  | .slowNotice .. => 0x4020442
  | .slowNoticeRepeat => 0x4020842
  | .tickStop .. | .stepHalt .. | .stepResume .. => 0x6040042
  | .streamAdd .. | .streamRemove .. | .peerAdd .. | .peerRemove .. | .groupSet .. => 0x6040202
  | .checkpointCommit | .ckpStart .. | .ckpExport .. | .ckpDiscard .. => 0x6050002
  | .linkUp .. | .launchAdopt .. | .launchDone .. | .launchParentSilence .. | .launchAdoptTimeout .. | .portRetrain ..
  | .launchBroadcast .. => 0x6060002
  | .powerCapSet .. => 0x60C0002
  | .fwStage .. => 0x6140002
  | .ownerKeySet .. => 0x6240002
  | .snapArm .. => 0x6440002
  | .onlineTestSet .. => 0x7040002
  | .actuationFrameSend .. => 0x4042142
  | .powerEvaluation .. | .fastCurrentLimit .. | .fastLimitRelease .. | .pwrBrakeAssert | .pwrBrakeRelease
  | .brakeHoldExpiry | .junctionLimit .. => 0x40A0842
  | .time1ppsEdge .. | .timeSetSource .. => 0x60400C2
  | .overrunDecision | .jobStoppedTrigger .. => 0x6060042
  | .snapTrigger .. => 0x6460002
  | .thermalStepExit .. => 0x40A8842
  | .coldResetRelease .. | .perstDeassert | .internalResetRelease => 0x48A0842
  | .coreBistDone .. | .marrowBistDone .. | .laneTestDone .. => 0x5120842
  | .ptpMessage .. | .timeTransaction .. => 0x60600C2
  | .serviceCoreFault .. => 0x6120842
  | .endStep .. => 0x403804E
  | .scrub .. | .channelMigrationDone .. => 0x6128842
  | .mstencil .. | .mreduce .. | .mindexGather .. | .mindexScatter .. | .mindexAtomicScatter .. | .mtileSeal ..
  | .mtileVerify .. | .mtileZeroFill .. | .mtileMigrate .. => 0x403806E
  | .checkpointCapture => 0x403A04E
  | .tickArm .. => 0x60E0942
  | .thermalSample .. => 0x60E8842
  | .bar2Read .. => 0x6168842
  | .hbmPageTestDone .. => 0x7128842
  | .marrowCheckerFailure .. | .managementMismatch .. | .dieToDieLaneFailure .. => 0x7160842
  | .restorationDone => 0x403A06E
  | .slotGrant .. => 0x403E04E
  | .matmul .. | .matmulPart .. | .anchorGather .. | .partCombine .. | .vop .. => 0x603806E
  | .tagGrant | .laneRetrainDone .. | .launchChunkForward .. | .routeSetOptical .. => 0x607806E
  | .ckpRestore .. => 0x607A04E
  | .tickStopBoundary => 0x60B884E
  | .selfTest .. => 0x707806E
  | .laneLoss .. | .flitReceive .. => 0x617886E
  | .xferCopy .. | .xferStridedCopy .. | .xferEnqueue .. | .xferDequeue .. | .xferAtomic .. | .xferFill ..
  | .collectiveAllReduce .. | .collectiveReduceToRoot .. | .collectiveBroadcast .. | .collectiveAllGather ..
  | .collectiveBarrier .. | .mstream .. | .opCompletion .. | .transferRequestComplete .. | .undoCopyDone ..
  | .measurementFrame .. | .lineCommit .. | .cbwCopyDone .. | .reservationGrant .. | .entryLanding .. | .windowFetchDone ..
  | .trackerGrant .. | .headWindowRefill .. | .hostEnqueue .. | .hostEnqueueDrop | .readRequest .. | .writeRequest ..
  | .atomicRequest .. | .creditRequest .. | .enqueueTransaction .. | .dequeueTransaction .. | .collectiveContribution ..
  | .portStateAnnouncement .. | .lostNotice .. | .invalidationAck .. | .fabricReply .. | .fabricWaitDeadline ..
  | .rankedAtomicApply .. | .rankWaitDeadline .. | .cressWindowClose .. | .leekEntryExpiry | .queueWritebackDone ..
  | .parsnipGranuleDone .. | .moduleCommandTimeout | .mbxDoorbell .. | .mailboxPageWrite .. | .mbxDoneClear ..
  | .mbxEvtEnable .. | .mbxEvtHeadWrite .. | .registerWrite .. | .bar0RefusedAccess .. | .bar2Write ..
  | .hostCompletionTimeout .. | .poisonedTlp .. | .pcieLinkDown | .ckpAbandon .. | .modPrsntChange ..
  | .storageCommandTimeout .. | .pcieConfigurationWrite .. => 0x607E16E
  | .tick => 0x707A36E
  | .checksumReloadDone .. | .producerReplay .. | .replyDeadline .. => 0x617E96E
  | .migrationCopyDone .. => 0x717E16E
  | .coreCheckerFailure .. => 0x717E96E
  | .bootStageComplete .. => 0x7BF88CE
  | .functionLevelReset | .pcieHotReset | .jobReset .. => 0x60FFF7E
  | .debugUnlock .. | .recoveryD3Grant .. => 0x637F77E
  | .longCommandDone .. => 0x79FFF7E
  | .coldRstNAssert | .supplyFault .. | .perstAssert .. => 0x3EFFFFE
  | .debugLock .. | .fwActivateWarmReset | .ps3BoardControllerExit => 0x7EFFFFE
  | .recoveryImageStream .. => 0x7FFFFFE

/-- Every command leaves the parts outside its mask as they are. -/
theorem exec_same (c : Instr) (s : State) : Result.same (mayChange c) s (exec c s) := by
  have hM : within (mayChange c) (mayChange c) = true := within_self _
  have h : s.same (mayChange c) s := s.same_self
  cases c with
  | nop l r => exact execNop_same l r s hM h
  | wait l r => exact execWait_same l r s hM h
  | setc l r => exact execSetc_same l r s hM h
  | addc l r => exact execAddc_same l r s hM h
  | subc l r => exact execSubc_same l r s hM h
  | loop l r => exact execLoop_same l r s hM h
  | opListRefetchDone l => exact execOpListRefetchDone_same l s hM h
  | fence l r => exact execFence_same l r s hM h
  | signal l r => exact execSignal_same l r s hM h
  | phaseDone l r => exact execPhaseDone_same l r s hM h
  | endStep l r => exact execEndStep_same l r s hM h
  | matmul l r => exact execMatmul_same l r s hM h
  | matmulPart l r => exact execMatmulPart_same l r s hM h
  | anchorGather l r => exact execAnchorGather_same l r s hM h
  | partCombine l r => exact execPartCombine_same l r s hM h
  | vop l r => exact execVop_same l r s hM h
  | setvl l r => exact execSetvl_same l r s hM h
  | xferCopy l r => exact execXferCopy_same l r s hM h
  | xferStridedCopy l r => exact execXferStridedCopy_same l r s hM h
  | xferEnqueue l r => exact execXferEnqueue_same l r s hM h
  | xferDequeue l r => exact execXferDequeue_same l r s hM h
  | xferAtomic l r => exact execXferAtomic_same l r s hM h
  | xferFill l r => exact execXferFill_same l r s hM h
  | collectiveAllReduce l r => exact execCollectiveAllReduce_same l r s hM h
  | collectiveReduceToRoot l r => exact execCollectiveReduceToRoot_same l r s hM h
  | collectiveBroadcast l r => exact execCollectiveBroadcast_same l r s hM h
  | collectiveAllGather l r => exact execCollectiveAllGather_same l r s hM h
  | collectiveBarrier l r => exact execCollectiveBarrier_same l r s hM h
  | mstream l r => exact execMstream_same l r s hM h
  | mstencil l r => exact execMstencil_same l r s hM h
  | mreduce l r => exact execMreduce_same l r s hM h
  | mindexGather l r => exact execMindexGather_same l r s hM h
  | mindexScatter l r => exact execMindexScatter_same l r s hM h
  | mindexAtomicScatter l r => exact execMindexAtomicScatter_same l r s hM h
  | mtileSeal l r => exact execMtileSeal_same l r s hM h
  | mtileVerify l r => exact execMtileVerify_same l r s hM h
  | mtileZeroFill l r => exact execMtileZeroFill_same l r s hM h
  | mtileMigrate l r => exact execMtileMigrate_same l r s hM h
  | opCompletion id => exact execOpCompletion_same id s hM h
  | transferRequestComplete id req data ok => exact execTransferRequestComplete_same id req data ok s hM h
  | tagGrant => exact execTagGrant_same s hM h
  | queueWaitReread l => exact execQueueWaitReread_same l s hM h
  | tick => exact execTick_same s hM h
  | phaseRelease p => exact execPhaseRelease_same p s hM h
  | phaseWarning p => exact execPhaseWarning_same p s hM h
  | phaseLate p => exact execPhaseLate_same p s hM h
  | overrunDecision => exact execOverrunDecision_same s hM h
  | overrunTrigger tx => exact execOverrunTrigger_same tx s hM h
  | jobStoppedTrigger tx => exact execJobStoppedTrigger_same tx s hM h
  | undoCopyDone granule => exact execUndoCopyDone_same granule s hM h
  | restorationDone => exact execRestorationDone_same s hM h
  | tickStopBoundary => exact execTickStopBoundary_same s hM h
  | tckCtrlRunClear => exact execTckCtrlRunClear_same s hM h
  | effectiveTickReached => exact execEffectiveTickReached_same s hM h
  | slowNoticeRepeat => exact execSlowNoticeRepeat_same s hM h
  | slowNotice tx => exact execSlowNotice_same tx s hM h
  | slowNoticeExpiry src => exact execSlowNoticeExpiry_same src s hM h
  | ptpMessage m => exact execPtpMessage_same m s hM h
  | ptpSyncSend p => exact execPtpSyncSend_same p s hM h
  | timeTransaction p lead offset locked => exact execTimeTransaction_same p lead offset locked s hM h
  | fabricTimeSend => exact execFabricTimeSend_same s hM h
  | timeSourceLoss inp => exact execTimeSourceLoss_same inp s hM h
  | leadConflictExpiry => exact execLeadConflictExpiry_same s hM h
  | time1ppsEdge tenMhzPresent spacingOk offset => exact execTime1ppsEdge_same tenMhzPresent spacingOk offset s hM h
  | ppsOutEdge => exact execPpsOutEdge_same s hM h
  | measurementFrame d => exact execMeasurementFrame_same d s hM h
  | actuationFrameSend stream => exact execActuationFrameSend_same stream s hM h
  | arpRequest q => exact execArpRequest_same q s hM h
  | neighbourDiscovery q => exact execNeighbourDiscovery_same q s hM h
  | icmpEcho q => exact execIcmpEcho_same q s hM h
  | lineCommit line => exact execLineCommit_same line s hM h
  | cbwCopyDone granule => exact execCbwCopyDone_same granule s hM h
  | scrub st ch pc row addr f => exact execScrub_same st ch pc row addr f s hM h
  | pageMigrationDone st ch page => exact execPageMigrationDone_same st ch page s hM h
  | channelMigrationDone st ch => exact execChannelMigrationDone_same st ch s hM h
  | checksumReloadDone id tile verifies => exact execChecksumReloadDone_same id tile verifies s hM h
  | producerReplay id tile verifies => exact execProducerReplay_same id tile verifies s hM h
  | thermalSample st celsius => exact execThermalSample_same st celsius s hM h
  | thermalStepExit st => exact execThermalStepExit_same st s hM h
  | reservationGrant q => exact execReservationGrant_same q s hM h
  | entryLanding q pos => exact execEntryLanding_same q pos s hM h
  | windowFetchDone q => exact execWindowFetchDone_same q s hM h
  | slotGrant q => exact execSlotGrant_same q s hM h
  | trackerGrant q => exact execTrackerGrant_same q s hM h
  | headWindowRefill q => exact execHeadWindowRefill_same q s hM h
  | hostEnqueue offset data => exact execHostEnqueue_same offset data s hM h
  | hostEnqueueDrop => exact execHostEnqueueDrop_same s hM h
  | coreRotationStart n => exact execCoreRotationStart_same n s hM h
  | migrationCopyDone n => exact execMigrationCopyDone_same n s hM h
  | coreBistDone die phys v => exact execCoreBistDone_same die phys v s hM h
  | marrowEngineTestStart m => exact execMarrowEngineTestStart_same m s hM h
  | marrowBistDone m v => exact execMarrowBistDone_same m v s hM h
  | hbmPageTestStart st ch page => exact execHbmPageTestStart_same st ch page s hM h
  | hbmPageTestDone st ch page v => exact execHbmPageTestDone_same st ch page v s hM h
  | laneTestStart p lane => exact execLaneTestStart_same p lane s hM h
  | laneTestDone p lane v => exact execLaneTestDone_same p lane v s hM h
  | coreCheckerFailure die phys => exact execCoreCheckerFailure_same die phys s hM h
  | marrowCheckerFailure st phys => exact execMarrowCheckerFailure_same st phys s hM h
  | managementMismatch bist => exact execManagementMismatch_same bist s hM h
  | serviceCoreFault c => exact execServiceCoreFault_same c s hM h
  | laneLoss p lane f => exact execLaneLoss_same p lane f s hM h
  | laneRetrainDone p => exact execLaneRetrainDone_same p s hM h
  | flitReceive p fec flit => exact execFlitReceive_same p fec flit s hM h
  | linkUp p peer lanes => exact execLinkUp_same p peer lanes s hM h
  | readRequest tx => exact execReadRequest_same tx s hM h
  | writeRequest tx => exact execWriteRequest_same tx s hM h
  | atomicRequest tx => exact execAtomicRequest_same tx s hM h
  | creditRequest tx => exact execCreditRequest_same tx s hM h
  | enqueueTransaction tx => exact execEnqueueTransaction_same tx s hM h
  | dequeueTransaction tx => exact execDequeueTransaction_same tx s hM h
  | collectiveContribution tx => exact execCollectiveContribution_same tx s hM h
  | pendingNotice tx => exact execPendingNotice_same tx s hM h
  | portStateAnnouncement tx => exact execPortStateAnnouncement_same tx s hM h
  | peerManagement tx => exact execPeerManagement_same tx s hM h
  | congestionNotice tx => exact execCongestionNotice_same tx s hM h
  | lostNotice tx => exact execLostNotice_same tx s hM h
  | launchHeartbeat tx => exact execLaunchHeartbeat_same tx s hM h
  | launchReattach tx => exact execLaunchReattach_same tx s hM h
  | launchAdopt tx => exact execLaunchAdopt_same tx s hM h
  | launchDone tx => exact execLaunchDone_same tx s hM h
  | invalidation tx => exact execInvalidation_same tx s hM h
  | invalidationAck tx => exact execInvalidationAck_same tx s hM h
  | coherentFill tx => exact execCoherentFill_same tx s hM h
  | fabricReply tx => exact execFabricReply_same tx s hM h
  | replyDeadline peer seq => exact execReplyDeadline_same peer seq s hM h
  | pendingNoticeSend peer => exact execPendingNoticeSend_same peer s hM h
  | fabricWaitDeadline peer => exact execFabricWaitDeadline_same peer s hM h
  | rankedAtomicApply addr => exact execRankedAtomicApply_same addr s hM h
  | rankWaitDeadline addr rank => exact execRankWaitDeadline_same addr rank s hM h
  | congestionNoticeExpiry home => exact execCongestionNoticeExpiry_same home s hM h
  | throttleGap home => exact execThrottleGap_same home s hM h
  | cressWindowClose line => exact execCressWindowClose_same line s hM h
  | leekEntryExpiry => exact execLeekEntryExpiry_same s hM h
  | launchChunkForward id child => exact execLaunchChunkForward_same id child s hM h
  | launchHeartbeatSend id => exact execLaunchHeartbeatSend_same id s hM h
  | launchParentSilence id => exact execLaunchParentSilence_same id s hM h
  | launchAdoptTimeout id => exact execLaunchAdoptTimeout_same id s hM h
  | checkpointCapture => exact execCheckpointCapture_same s hM h
  | queueWritebackDone q => exact execQueueWritebackDone_same q s hM h
  | parsnipGranuleDone granule => exact execParsnipGranuleDone_same granule s hM h
  | checkpointCommit => exact execCheckpointCommit_same s hM h
  | moduleCommandTimeout => exact execModuleCommandTimeout_same s hM h
  | mbxDoorbell k => exact execMbxDoorbell_same k s hM h
  | mailboxPageWrite k offset data => exact execMailboxPageWrite_same k offset data s hM h
  | mbxDoneClear mask => exact execMbxDoneClear_same mask s hM h
  | longCommandDone k e => exact execLongCommandDone_same k e s hM h
  | mbxEvtEnable value => exact execMbxEvtEnable_same value s hM h
  | mbxEvtHeadWrite value => exact execMbxEvtHeadWrite_same value s hM h
  | registerWrite offset size value => exact execRegisterWrite_same offset size value s hM h
  | bar0RefusedAccess a => exact execBar0RefusedAccess_same a s hM h
  | bar2Read offset len uncorrectable => exact execBar2Read_same offset len uncorrectable s hM h
  | bar2Write offset data => exact execBar2Write_same offset data s hM h
  | hostCompletionTimeout id req => exact execHostCompletionTimeout_same id req s hM h
  | poisonedTlp write id req => exact execPoisonedTlp_same write id req s hM h
  | pcieLinkDown => exact execPcieLinkDown_same s hM h
  | pcieLinkUp hostRate => exact execPcieLinkUp_same hostRate s hM h
  | functionLevelReset => exact execFunctionLevelReset_same s hM h
  | pcieHotReset => exact execPcieHotReset_same s hM h
  | remoteMailboxDatagram d => exact execRemoteMailboxDatagram_same d s hM h
  | devCapabilities k => exact execDevCapabilities_same k s hM h
  | devIdentify k => exact execDevIdentify_same k s hM h
  | devStatus k => exact execDevStatus_same k s hM h
  | netConfig k => exact execNetConfig_same k s hM h
  | storageTargetSet k => exact execStorageTargetSet_same k s hM h
  | storageTargetStatus k => exact execStorageTargetStatus_same k s hM h
  | jobAdmit k ext => exact execJobAdmit_same k ext s hM h
  | jobReset k => exact execJobReset_same k s hM h
  | jobStatus k => exact execJobStatus_same k s hM h
  | queueStatus k => exact execQueueStatus_same k s hM h
  | queueEngineStatus k => exact execQueueEngineStatus_same k s hM h
  | timeSetSource k => exact execTimeSetSource_same k s hM h
  | timeStatus k => exact execTimeStatus_same k s hM h
  | tickArm k => exact execTickArm_same k s hM h
  | tickStop k => exact execTickStop_same k s hM h
  | tickStatus k => exact execTickStatus_same k s hM h
  | streamAdd k => exact execStreamAdd_same k s hM h
  | streamRemove k => exact execStreamRemove_same k s hM h
  | streamStatus k => exact execStreamStatus_same k s hM h
  | ckpStart k => exact execCkpStart_same k s hM h
  | ckpStatus k => exact execCkpStatus_same k s hM h
  | ckpAbandon k => exact execCkpAbandon_same k s hM h
  | ckpExport k => exact execCkpExport_same k s hM h
  | ckpRestore k sources => exact execCkpRestore_same k sources s hM h
  | ckpManifestRead k => exact execCkpManifestRead_same k s hM h
  | ckpDiscard k => exact execCkpDiscard_same k s hM h
  | snapArm k => exact execSnapArm_same k s hM h
  | snapTrigger k => exact execSnapTrigger_same k s hM h
  | snapStatus k => exact execSnapStatus_same k s hM h
  | snapshotTickMatch => exact execSnapshotTickMatch_same s hM h
  | snapshotTimeMatch => exact execSnapshotTimeMatch_same s hM h
  | snapshotEventMatch event source => exact execSnapshotEventMatch_same event source s hM h
  | snapshotTrigger tx => exact execSnapshotTrigger_same tx s hM h
  | tagRead k => exact execTagRead_same k s hM h
  | debugUnlock k ext => exact execDebugUnlock_same k ext s hM h
  | debugLock k => exact execDebugLock_same k s hM h
  | stepHalt k => exact execStepHalt_same k s hM h
  | stepResume k => exact execStepResume_same k s hM h
  | stepHaltTick => exact execStepHaltTick_same s hM h
  | stepResumeTick => exact execStepResumeTick_same s hM h
  | d2TokenExpiry => exact execD2TokenExpiry_same s hM h
  | unlockLockoutExpiry => exact execUnlockLockoutExpiry_same s hM h
  | secStatus k => exact execSecStatus_same k s hM h
  | fwStage k ext => exact execFwStage_same k ext s hM h
  | fwActivate k => exact execFwActivate_same k s hM h
  | fwActivateWarmReset => exact execFwActivateWarmReset_same s hM h
  | configRecordWrite k ext => exact execConfigRecordWrite_same k ext s hM h
  | ownerKeySet k => exact execOwnerKeySet_same k s hM h
  | certRead k => exact execCertRead_same k s hM h
  | powerStateSet k => exact execPowerStateSet_same k s hM h
  | powerCapSet k => exact execPowerCapSet_same k s hM h
  | powerStatus k => exact execPowerStatus_same k s hM h
  | selfTest k found ending units => exact execSelfTest_same k found ending units s hM h
  | onlineTestSet k => exact execOnlineTestSet_same k s hM h
  | testStatus k => exact execTestStatus_same k s hM h
  | memRepairApply k => exact execMemRepairApply_same k s hM h
  | memHealth k => exact execMemHealth_same k s hM h
  | faultLogRead k => exact execFaultLogRead_same k s hM h
  | fabricSetIdentity k => exact execFabricSetIdentity_same k s hM h
  | fabricStatus k => exact execFabricStatus_same k s hM h
  | peerAdd k => exact execPeerAdd_same k s hM h
  | peerRemove k => exact execPeerRemove_same k s hM h
  | peerStatus k => exact execPeerStatus_same k s hM h
  | groupSet k ext => exact execGroupSet_same k ext s hM h
  | routeSetOptical k => exact execRouteSetOptical_same k s hM h
  | portStatus k => exact execPortStatus_same k s hM h
  | portRetrain k => exact execPortRetrain_same k s hM h
  | launchBroadcast k => exact execLaunchBroadcast_same k s hM h
  | launchStatus k => exact execLaunchStatus_same k s hM h
  | standbySupplyGood => exact execStandbySupplyGood_same s hM h
  | coldResetRelease st => exact execColdResetRelease_same st s hM h
  | coldRstNAssert => exact execColdRstNAssert_same s hM h
  | supplyFault v => exact execSupplyFault_same v s hM h
  | perstAssert micros => exact execPerstAssert_same micros s hM h
  | perstDeassert => exact execPerstDeassert_same s hM h
  | bootStageComplete f ms ext => exact execBootStageComplete_same f ms ext s hM h
  | powerEvaluation watts => exact execPowerEvaluation_same watts s hM h
  | fastCurrentLimit deciamps => exact execFastCurrentLimit_same deciamps s hM h
  | fastLimitRelease deciamps => exact execFastLimitRelease_same deciamps s hM h
  | pwrBrakeAssert => exact execPwrBrakeAssert_same s hM h
  | pwrBrakeRelease => exact execPwrBrakeRelease_same s hM h
  | brakeHoldExpiry => exact execBrakeHoldExpiry_same s hM h
  | junctionLimit die celsius => exact execJunctionLimit_same die celsius s hM h
  | modPrsntChange present => exact execModPrsntChange_same present s hM h
  | nvmeKeepAlive => exact execNvmeKeepAlive_same s hM h
  | storageCommandTimeout k => exact execStorageCommandTimeout_same k s hM h
  | recoveryImageStream image => exact execRecoveryImageStream_same image s hM h
  | recoveryD3Grant grant => exact execRecoveryD3Grant_same grant s hM h
  | getVersion => exact execGetVersion_same s hM h
  | getCapabilities => exact execGetCapabilities_same s hM h
  | negotiateAlgorithms hash asym => exact execNegotiateAlgorithms_same hash asym s hM h
  | getDigests => exact execGetDigests_same s hM h
  | getCertificate slot offset len => exact execGetCertificate_same slot offset len s hM h
  | challenge slot nonce => exact execChallenge_same slot nonce s hM h
  | getMeasurements index signed nonce => exact execGetMeasurements_same index signed nonce s hM h
  | chunkGet handle seq => exact execChunkGet_same handle seq s hM h
  | vendorDefinedRequest wantCert nonce => exact execVendorDefinedRequest_same wantCert nonce s hM h
  | i3cSetdasa static addr => exact execI3cSetdasa_same static addr s hM h
  | i3cEntdaa addr => exact execI3cEntdaa_same addr s hM h
  | i3cPrivateWrite addr data => exact execI3cPrivateWrite_same addr data s hM h
  | i3cPrivateRead addr len => exact execI3cPrivateRead_same addr len s hM h
  | bypass => exact execBypass_same s hM h
  | idcode => exact execIdcode_same s hM h
  | samplePreload pins preload => exact execSamplePreload_same pins preload s hM h
  | extest => exact execExtest_same s hM h
  | clamp => exact execClamp_same s hM h
  | unknownCommand k => exact execUnknownCommand_same k s hM h
  | internalResetRelease => exact execInternalResetRelease_same s hM h
  | ps3BoardControllerExit => exact execPs3BoardControllerExit_same s hM h
  | pcieConfigurationWrite c => exact execPcieConfigurationWrite_same c s hM h
  | dieToDieReplay link => exact execDieToDieReplay_same link s hM h
  | dieToDieLaneFailure link module repairable => exact execDieToDieLaneFailure_same link module repairable s hM h
  | spdmUnsupportedRequest code => exact execSpdmUnsupportedRequest_same code s hM h
  | spareCoreBistStart die phys => exact execSpareCoreBistStart_same die phys s hM h
  | delayRequestSend p => exact execDelayRequestSend_same p s hM h
  | linkDelayMeasurement p ns => exact execLinkDelayMeasurement_same p ns s hM h
  | storageConnectionDone target p connected => exact execStorageConnectionDone_same target p connected s hM h

/-- The state after a command has every part outside the command's mask from the state before. -/
theorem same_of_exec {c : Instr} {s t : State} (e : exec c s = .next t) : t.same (mayChange c) s := (exec_same c s).at e

/-- Settles O7: a command that a clause names may do anything to the parts of the clause; every other command lacks them in its
mask. -/
theorem memoryJobAndStableStateChange : Obligations.MemoryJobAndStableStateChange := by
  unfold Obligations.MemoryJobAndStableStateChange
  refine ⟨fun c s t e => ?job, fun c s t e => ?memory, fun c s t e => ⟨?mram, ?sec⟩⟩
  all_goals have h := same_of_exec e
  case job =>
    cases c
    all_goals try exact True.intro
    all_goals dsimp only [mayChange] at h
    all_goals exact ⟨h.job_eq (by decide), h.qdefs_eq (by decide)⟩
  case memory =>
    cases c
    all_goals try exact True.intro
    all_goals dsimp only [mayChange] at h
    all_goals exact ⟨h.mem_eq (by decide), h.tags_eq (by decide)⟩
  case mram =>
    cases c
    all_goals try exact True.intro
    all_goals dsimp only [mayChange] at h
    all_goals exact h.mram_eq (by decide)
  case sec =>
    cases c
    all_goals try exact True.intro
    all_goals dsimp only [mayChange] at h
    all_goals exact h.sec_eq (by decide)

end Sys2Proof.Machine

/-! O3: a command is a check of the units that it names around a meaning that always answers a next state. -/
namespace Sys2Proof.Machine

theorem portLanes_eq (p : Nat) : portLanes p = lanesOf p := by
  simp [portLanes, lanesOf, Nat.lt_succ_iff]

/-- The check of a lane in the commands of the ports is that of the spec's numbering (R299). -/
theorem laneCheck_eq (p lane : Nat) : (portOk p && decide (lane < portLanes p)) = laneOk p lane := by
  rw [portLanes_eq]; rfl

theorem selfTestUnit_eq (u : TestUnit) : selfTestUnit u = u.wf := by
  cases u with
  | lane p n => exact laneCheck_eq p n
  | core die phys => rfl
  | engine st phys => rfl
  | row st ch pc row addr => rfl
  | module link m => rfl

theorem ifUnit_of_check {ok ok' : Bool} {r : Result} {t : State} (e : r = ifUnit ok t) (h : ok = ok') :
    ∃ t, r = ifUnit ok' t := ⟨t, h ▸ e⟩

theorem ifUnit_false {ok : Bool} {t : State} (h : ok = false) : ifUnit ok t = .fault .noSuchUnit := by simp [ifUnit, h]

/-- Every command checks that its units exist, and nothing else stops it. -/
theorem exec_checks_units (c : Instr) (s : State) : ∃ t, exec c s = ifUnit c.unitsOk t := by
  cases c
  case laneTestStart p lane => exact ifUnit_of_check rfl (laneCheck_eq p lane)
  case laneTestDone p lane v => exact ifUnit_of_check rfl (laneCheck_eq p lane)
  case laneLoss p lane f => exact ifUnit_of_check rfl (laneCheck_eq p lane)
  case linkUp p peer lanes => exact ifUnit_of_check rfl (by rw [portLanes_eq]; rfl)
  case selfTest k found ending units =>
    exact ifUnit_of_check rfl (by rw [funext selfTestUnit_eq]; rfl)
  case extest =>
    cases h : s.board.coldRstLow
    all_goals exact ⟨_, by simp only [exec, execExtest, h]; rfl⟩
  case clamp =>
    cases h : s.board.coldRstLow
    all_goals exact ⟨_, by simp only [exec, execClamp, h]; rfl⟩
  all_goals exact ⟨_, rfl⟩

/-- Settles O3: what stops a command is the check of its units. -/
theorem commandsFaultOnlyOnMissingUnits : Obligations.CommandsFaultOnlyOnMissingUnits := by
  unfold Obligations.CommandsFaultOnlyOnMissingUnits
  intro c s
  obtain ⟨t, e⟩ := exec_checks_units c s
  exact ⟨fun h => ⟨t, by rw [e, ifUnit_true h]⟩, fun h => by rw [e, ifUnit_false h]⟩

end Sys2Proof.Machine

/-! The registers that traffic, faults and events move, and what the end of the device leaves (R21, R476). -/
namespace Sys2Proof.Machine

/-- A register that is neither a port's flit count, nor a count of faults, nor one of the event ring's. -/
structure Reg.Still (k : Nat) : Prop where
  port : ∀ p, k ≠ Reg.portTx p
  logged : k ≠ Reg.faultLogged
  absorbed : k ≠ Reg.faultAbsorbed
  tail : k ≠ Reg.evtTail
  held : k ≠ Reg.evtHeld
  lost : k ≠ Reg.evtLost

theorem Reg.still_devState : Reg.Still Reg.devState where
  port p := by simp only [Reg.devState, Reg.bar0, Reg.portTx, Reg.portPage]; omega
  logged := by decide
  absorbed := by decide
  tail := by decide
  held := by decide
  lost := by decide

theorem Reg.coreMap_lt {n : Nat} (hn : n < 192) : Reg.coreMap n < 0x10400 := by
  simp only [Reg.coreMap]; omega

theorem Reg.coreMap_ne {n k : Nat} (hn : n < 192) (hk : 0x10400 ≤ k) : Reg.coreMap n ≠ k :=
  Nat.ne_of_lt (Nat.lt_of_lt_of_le (Reg.coreMap_lt hn) hk)

theorem Reg.still_coreMap {n : Nat} (hn : n < 192) : Reg.Still (Reg.coreMap n) where
  port p := Reg.coreMap_ne hn (by simp only [Reg.portTx, Reg.portPage]; omega)
  logged := Reg.coreMap_ne hn (by decide)
  absorbed := Reg.coreMap_ne hn (by decide)
  tail := Reg.coreMap_ne hn (by decide)
  held := Reg.coreMap_ne hn (by decide)
  lost := Reg.coreMap_ne hn (by decide)

variable {s : State}

theorem State.bump64_reg {j k : Nat} (h : k ≠ j) (n : Nat) : (s.bump64 j n).reg k = s.reg k :=
  State.reg_setFld_other _ _ _ _ h

/-- An entry of the fault log is written to the log and counted, and that is all. -/
theorem State.logFault_eq (cls unit sub outcome time detail : Nat) : ∃ log, s.logFault cls unit sub outcome time detail =
    ({ s with mram := { s.mram with faultLog := log } } : State).bump64 Reg.faultLogged 1 := ⟨_, rfl⟩

theorem State.send_reg (x : Sent) (k : Nat) : (s.send x).reg k = s.reg k := rfl

theorem State.setPort_reg (p : Nat) (x : Port) (k : Nat) : (s.setPort p x).reg k = s.reg k := rfl

theorem State.excursion_reg (i k : Nat) : (s.excursion i).reg k = s.reg k := rfl

section
variable {k : Nat} (hk : Reg.Still k)
include hk

theorem State.injectTx_reg (p : Nat) (tx : Tx) : (s.injectTx p tx).reg k = s.reg k := by
  unfold State.injectTx
  rw [State.send_reg, State.bump64_reg (hk.port p), State.setPort_reg]

theorem State.sendBy_reg (p : Nat) (tx : Tx) : (s.sendBy p tx).reg k = s.reg k := by
  unfold State.sendBy
  split
  · exact State.injectTx_reg hk p tx
  · rfl

theorem State.sendTx_reg (tx : Tx) : (s.sendTx tx).reg k = s.reg k := by
  unfold State.sendTx
  split
  · exact State.sendBy_reg hk _ tx
  · rfl

theorem State.sendSlow_reg (factor cause : Nat) : (s.sendSlow factor cause).reg k = s.reg k := by
  unfold State.sendSlow
  split
  · rfl
  · exact State.reg_foldl (fun _ _ => State.sendTx_reg hk _) _ _

theorem State.startSlow_reg (o : OwnSlow) : (s.startSlow o).reg k = s.reg k :=
  State.sendSlow_reg hk _ _

theorem State.logFault_reg (cls unit sub outcome time detail : Nat) :
    (s.logFault cls unit sub outcome time detail).reg k = s.reg k := by
  obtain ⟨log, e⟩ := State.logFault_eq (s := s) cls unit sub outcome time detail
  rw [e, State.bump64_reg hk.logged]
  rfl

theorem State.absorbWithin_reg (cls unit sub outcome bound detail : Nat) :
    (s.absorbWithin cls unit sub outcome bound detail).reg k = s.reg k := by
  unfold State.absorbWithin State.absorb
  rw [State.logFault_reg hk, State.startSlow_reg hk, State.excursion_reg, State.bump64_reg hk.absorbed]
  rfl

theorem State.lostNotices_reg (cause : Nat) : (s.lostNotices cause).reg k = s.reg k :=
  State.reg_foldl (fun _ _ => State.sendTx_reg hk _) _ _
end

theorem State.stopTickNow_reg {k : Nat} (hctrl : k ≠ Reg.tckCtrl) (hstatus : k ≠ Reg.tckStatus) :
    s.stopTickNow.reg k = s.reg k := by
  unfold State.stopTickNow
  rw [State.reg_setFld_other _ _ _ _ hstatus, State.reg_setFld_other _ _ _ _ hstatus, State.reg_setFld_other _ _ _ _ hctrl]
  rfl

/-- The end of the device changes DEV_STATE, the alert and the tick's control, and what its notices and its event count. -/
theorem State.endDevice_reg {k : Nat} (hk : Reg.Still k) (hstate : k ≠ Reg.devState) (halert : k ≠ Reg.boardStatus)
    (hctrl : k ≠ Reg.tckCtrl) (hstatus : k ≠ Reg.tckStatus) (die : Nat) : (s.endDevice die).reg k = s.reg k := by
  unfold State.endDevice
  rw [State.postEvent_reg hk.tail hk.held hk.lost, State.stopTickNow_reg hctrl hstatus]
  unfold State.setDevState
  rw [State.reg_setFld_other _ _ _ _ halert, State.reg_setFld_other _ _ _ _ hstate, State.lostNotices_reg hk]

theorem State.setDevState_state (v : Nat) : (s.setDevState v).fld Fld.state = v % 16 := by
  unfold State.setDevState
  rw [State.fld_setFld_other _ _ _ _ (by decide) (by decide) (by decide) (by decide)]
  exact State.fld_setFld_same _ _ _ (by decide) (by decide)

/-- A device that ends needs service (R21, R392). -/
theorem State.endDevice_state (die : Nat) : (s.endDevice die).fld Fld.state = 8 := by
  have hk := Reg.still_devState
  unfold State.endDevice
  rw [State.fld_congr (State.postEvent_reg hk.tail hk.held hk.lost _),
    State.fld_congr (State.stopTickNow_reg (by decide) (by decide)), State.setDevState_state]

theorem State.endDeviceOther_state : s.endDeviceOther.fld Fld.state = 8 :=
  State.endDevice_state _

theorem State.absorbWithin_fld {f : Fld} (hf : Reg.Still f.key) (cls unit sub outcome bound detail : Nat) :
    (s.absorbWithin cls unit sub outcome bound detail).fld f = s.fld f :=
  State.fld_congr (State.absorbWithin_reg hf ..)

theorem State.absorbWithin_tests (cls unit sub outcome bound detail : Nat) :
    (s.absorbWithin cls unit sub outcome bound detail).tests = s.tests :=
  (State.absorbWithin_same s cls unit sub outcome bound detail (within_self _) s.same_self).tests_eq (by decide)

theorem State.absorbWithin_mem (cls unit sub outcome bound detail : Nat) :
    (s.absorbWithin cls unit sub outcome bound detail).mem = s.mem :=
  (State.absorbWithin_same s cls unit sub outcome bound detail (within_self _) s.same_self).mem_eq (by decide)

theorem State.logFault_retiredCores (cls unit sub outcome time detail : Nat) :
    (s.logFault cls unit sub outcome time detail).mram.retiredCores = s.mram.retiredCores := by
  obtain ⟨log, e⟩ := State.logFault_eq (s := s) cls unit sub outcome time detail
  rw [e]; rfl

theorem State.logFault_failedMarrow (cls unit sub outcome time detail : Nat) :
    (s.logFault cls unit sub outcome time detail).mram.failedMarrow = s.mram.failedMarrow := by
  obtain ⟨log, e⟩ := State.logFault_eq (s := s) cls unit sub outcome time detail
  rw [e]; rfl

theorem State.logFault_tests (cls unit sub outcome time detail : Nat) :
    (s.logFault cls unit sub outcome time detail).tests = s.tests := rfl

theorem State.startSlow_mram (o : OwnSlow) : (s.startSlow o).mram = s.mram :=
  (State.startSlow_same s o (within_self _) s.same_self).mram_eq (by decide)

theorem State.absorbWithin_retiredCores (cls unit sub outcome bound detail : Nat) :
    (s.absorbWithin cls unit sub outcome bound detail).mram.retiredCores = s.mram.retiredCores := by
  unfold State.absorbWithin State.absorb
  rw [State.logFault_retiredCores, State.startSlow_mram]
  rfl

theorem State.absorbWithin_failedMarrow (cls unit sub outcome bound detail : Nat) :
    (s.absorbWithin cls unit sub outcome bound detail).mram.failedMarrow = s.mram.failedMarrow := by
  unfold State.absorbWithin State.absorb
  rw [State.logFault_failedMarrow, State.startSlow_mram]
  rfl

theorem State.endDevice_mram (die : Nat) : (s.endDevice die).mram = s.mram :=
  (State.endDevice_same s die (within_self _) s.same_self).mram_eq (by decide)

theorem State.endDeviceOther_mram : s.endDeviceOther.mram = s.mram :=
  (State.endDeviceOther_same s (within_self _) s.same_self).mram_eq (by decide)

theorem State.endDeviceOther_tests : s.endDeviceOther.tests = s.tests :=
  (State.endDeviceOther_same s (within_self _) s.same_self).tests_eq (by decide)

end Sys2Proof.Machine

/-! A core that fails (R19 to R21, R465, R468). -/
namespace Sys2Proof.Machine

variable {s : State} {die phys n : Nat}

theorem State.coreOn_range (hd : die < 4) (h : s.coreOn die phys = some n) : n < 192 ∧ n / 48 = die := by
  obtain ⟨i, hi, rfl⟩ := List.mem_map.mp (List.mem_of_find?_eq_some h)
  have hi48 := List.mem_range.mp hi
  omega

theorem State.refreshDie_reg {k : Nat} (hk : k ≠ Reg.dieCore die) : (s.refreshDie die).reg k = s.reg k := by
  unfold State.refreshDie
  rw [State.reg_setFld_other _ _ _ _ hk, State.reg_setFld_other _ _ _ _ hk, State.reg_setFld_other _ _ _ _ hk]

theorem State.retireCore_reg {k : Nat} (hk : k ≠ Reg.dieCore die) : (s.retireCore die phys).reg k = s.reg k := by
  unfold State.retireCore
  split
  · rfl
  · rw [State.refreshDie_reg hk]; rfl

theorem Reg.coreMap_ne_dieCore (hn : n < 192) : Reg.coreMap n ≠ Reg.dieCore die :=
  Reg.coreMap_ne hn (by simp only [Reg.dieCore]; omega)

theorem State.onTests_fld (g : Tests → Tests) (f : Fld) : (s.onTests g).fld f = s.fld f := rfl

theorem State.coreState_setFld (v : Nat) : (s.setFld (Fld.coreState n) v).fld (Fld.coreState n) = v % 4 :=
  State.fld_setFld_same _ _ _ (by simp [Fld.coreState]) (by simp [Fld.coreState])

theorem State.refreshDie_mram : (s.refreshDie die).mram = s.mram :=
  (State.refreshDie_same s die (within_self _) s.same_self).mram_eq (by decide)

theorem State.refreshDie_tests : (s.refreshDie die).tests = s.tests :=
  (State.refreshDie_same s die (within_self _) s.same_self).tests_eq (by decide)

theorem State.mem_retireCore : coreKey die phys ∈ (s.retireCore die phys).mram.retiredCores := by
  unfold State.retireCore
  split
  case isTrue h => simpa [State.isRetired] using h
  case isFalse =>
    rw [State.refreshDie_mram]
    exact List.mem_append_right _ (List.mem_singleton.mpr rfl)

theorem State.retireCore_migrating : (s.retireCore die phys).tests.migrating = s.tests.migrating := by
  unfold State.retireCore
  split
  · rfl
  · rw [State.refreshDie_tests]; rfl

/-- Where no core migrates, none does once the tests of cores have stopped (R473). -/
theorem State.stopCoreTests_migrating (h : s.tests.migrating = []) (keep : Option Nat) :
    (s.stopCoreTests keep).tests.migrating = [] := by
  have hdies (l : List Nat) (t : State) : (l.foldl (fun s d => s.refreshDie d) t).tests = t.tests :=
    (same_foldl (M := 2) (fun u d hu => State.refreshDie_same u d (by decide) hu) t.same_self).tests_eq (by decide)
  have htest (t : State) : t.refreshCoreTest.tests = t.tests :=
    (State.refreshCoreTest_same t (within_self _) t.same_self).tests_eq (by decide)
  have hopen (t : State) : t.storesOpen.tests = t.tests :=
    (State.storesOpen_same t (within_self _) t.same_self).tests_eq (by decide)
  unfold State.stopCoreTests
  rw [hopen, htest, hdies]
  simp [State.onTests, h]

theorem State.rescueCore_spare {p : Nat} {ps : List Nat} (h : s.spares (n / 48) = p :: ps) :
    s.rescueCore n phys = (s.migrate n p true).absorbWithin 1 (n / 48) phys 1 6000 n := by
  unfold State.rescueCore; rw [h]

theorem State.rescueCore_none (h : s.spares (n / 48) = []) : s.rescueCore n phys = s.coreLost n phys := by
  unfold State.rescueCore; rw [h]

theorem State.migrate_coreState (hn : n < 192) (p : Nat) (fault : Bool) : (s.migrate n p fault).fld (Fld.coreState n) = 1 := by
  unfold State.migrate
  rw [State.fld_congr (State.refreshDie_reg (Reg.coreMap_ne_dieCore hn)), State.onTests_fld, State.coreState_setFld]

/-- A core without a spare is failed, and its device needs service (R21). -/
theorem State.coreLost_fields (hn : n < 192) (phys : Nat) :
    (s.coreLost n phys).fld (Fld.coreState n) = 3 ∧ (s.coreLost n phys).fld Fld.state = 8 ∧
      coreKey (n / 48) phys ∈ (s.coreLost n phys).mram.retiredCores := by
  have hk := Reg.still_coreMap hn
  refine ⟨?_, State.endDevice_state _, ?_⟩
  · unfold State.coreLost
    have hend (t : State) (d : Nat) : (t.endDevice d).fld (Fld.coreState n) = t.fld (Fld.coreState n) :=
      State.fld_congr (State.endDevice_reg hk (Reg.coreMap_ne hn (by decide)) (Reg.coreMap_ne hn (by decide))
        (Reg.coreMap_ne hn (by decide)) (Reg.coreMap_ne hn (by decide)) d)
    rw [hend, State.fld_congr (State.logFault_reg hk ..), State.fld_congr (State.retireCore_reg (Reg.coreMap_ne_dieCore hn)),
      State.coreState_setFld]
  · unfold State.coreLost
    rw [State.endDevice_mram, State.logFault_retiredCores]
    exact State.mem_retireCore

section
variable (hd : die < 4) (hp : phys < 52)
include hd hp

theorem coreCheckerFailure_retired (h : s.isRetired die phys = true) : exec (.coreCheckerFailure die phys) s = .next s := by
  change execCoreCheckerFailure die phys s = _
  rw [execCoreCheckerFailure, ifUnit_true (by simp [hd, hp]), if_pos h]

variable (hr : s.isRetired die phys = false) (hm : s.tests.migrating = [])
include hr hm

theorem coreCheckerFailure_mapped (hc : s.coreOn die phys = some n) :
    exec (.coreCheckerFailure die phys) s = .next ((s.stopCoreTests (some n)).rescueCore n phys) := by
  have hidle := State.stopCoreTests_migrating hm (some n)
  change execCoreCheckerFailure die phys s = _
  rw [execCoreCheckerFailure, ifUnit_true (by simp [hd, hp])]
  simp [hr, hm, hc, hidle]

theorem coreCheckerFailure_unmapped (hc : s.coreOn die phys = none) : exec (.coreCheckerFailure die phys) s =
    .next (((s.stopCoreTests none).retireCore die phys).absorbWithin 1 die phys 1 6000 0) := by
  change execCoreCheckerFailure die phys s = _
  rw [execCoreCheckerFailure, ifUnit_true (by simp [hd, hp])]
  simp [hr, hm, hc]

/-- A core with a spare migrates to the first of them, without a byte of memory changed (R468). -/
theorem coreCheckerFailure_migrates {p : Nat} {ps : List Nat} (hc : s.coreOn die phys = some n)
    (hs : (s.stopCoreTests (some n)).spares die = p :: ps) :
    ∃ t, exec (.coreCheckerFailure die phys) s = .next t ∧ t.fld (Fld.coreState n) = 1 ∧
      t.tests.migrating = [⟨n, p, true⟩] ∧ t.mem = (s.stopCoreTests (some n)).mem := by
  obtain ⟨hn, rfl⟩ := State.coreOn_range hd hc
  have hmem (t : State) : (t.migrate n p true).mem = t.mem :=
    (State.migrate_same t n p true (within_self _) t.same_self).mem_eq (by decide)
  have hidle := State.stopCoreTests_migrating hm (some n)
  refine ⟨_, coreCheckerFailure_mapped hd hp hr hm hc, ?_⟩
  rw [State.rescueCore_spare hs]
  refine ⟨?_, ?_, ?_⟩
  · rw [State.absorbWithin_fld (Reg.still_coreMap hn), State.migrate_coreState hn]
  · rw [State.absorbWithin_tests, State.migrate, State.refreshDie_tests]
    simp [State.onTests, hidle]
  · rw [State.absorbWithin_mem, hmem]

/-- A core without a spare ends the device (R21). -/
theorem coreCheckerFailure_ends (hc : s.coreOn die phys = some n) (hs : (s.stopCoreTests (some n)).spares die = []) :
    ∃ t, exec (.coreCheckerFailure die phys) s = .next t ∧ t.fld (Fld.coreState n) = 3 ∧ t.fld Fld.state = 8 ∧
      coreKey die phys ∈ t.mram.retiredCores := by
  obtain ⟨hn, rfl⟩ := State.coreOn_range hd hc
  refine ⟨_, coreCheckerFailure_mapped hd hp hr hm hc, ?_⟩
  rw [State.rescueCore_none hs]
  exact State.coreLost_fields hn phys

/-- A core that serves no logical core is retired (R468). -/
theorem coreCheckerFailure_retires (hc : s.coreOn die phys = none) : ∃ t, exec (.coreCheckerFailure die phys) s = .next t ∧
    coreKey die phys ∈ t.mram.retiredCores ∧ t.tests.migrating = [] := by
  refine ⟨_, coreCheckerFailure_unmapped hd hp hr hm hc, ?_, ?_⟩
  · rw [State.absorbWithin_retiredCores]
    exact State.mem_retireCore
  · rw [State.absorbWithin_tests, State.retireCore_migrating, State.stopCoreTests_migrating hm]
end

end Sys2Proof.Machine

/-! A Marrow engine, the management pair and the die-to-die links (R15, R25, R26, R469, R470, R476); and O29. -/
namespace Sys2Proof.Machine

variable {s : State}

/-- The device once a Marrow engine has failed: its tests stopped, the engine recorded, its lists moved (R273, R469). -/
def State.engineOut (s : State) (st phys : Nat) : State :=
  let back := s.tests.marrowTest.filter (fun x => decide (x ≠ st * 16 + phys) && !(decide (x ∈ s.tests.marrowOut)))
  let s1 := (s.onTests (fun t => { t with
    marrowTest := [], marrowOut := [], marrowReturn := t.marrowReturn ++ back })).setActive 1 false
  let s2 : State := { s1 with mram := { s1.mram with failedMarrow := s1.mram.failedMarrow ++ [st * 16 + phys] } }
  (List.range 12).foldl (fun s i => s.refreshMarrow i) (s2.evacuate st phys)

/-- Moving lists and the die's registers change registers only. -/
theorem State.movedLists_same (st phys : Nat) :
    ((List.range 12).foldl (fun s i => s.refreshMarrow i) (s.evacuate st phys)).same 2 s :=
  same_foldl (fun t i h => State.refreshMarrow_same t i (by decide) h) (State.evacuate_same s st phys (by decide) s.same_self)

theorem State.engineOut_marrowTest (st phys : Nat) : (s.engineOut st phys).tests.marrowTest = [] := by
  unfold State.engineOut
  rw [(State.movedLists_same st phys).tests_eq (by decide)]
  rfl

theorem State.engineOut_failedMarrow (st phys : Nat) :
    (s.engineOut st phys).mram.failedMarrow = s.mram.failedMarrow ++ [st * 16 + phys] := by
  unfold State.engineOut
  rw [(State.movedLists_same st phys).mram_eq (by decide)]
  rfl

theorem State.engineOut_lastOfDie {st phys : Nat} (h : ∀ e, e < 16 → e ≠ phys → s.marrowFailed st e = true) :
    (List.range 16).all (fun e => (s.engineOut st phys).marrowFailed st e) = true := by
  simp only [List.all_eq_true, List.mem_range, State.marrowFailed, State.engineOut_failedMarrow, List.mem_append,
    List.mem_singleton, decide_eq_true_eq]
  intro e he
  by_cases hphys : e = phys
  · exact .inr (by rw [hphys])
  · exact .inl (of_decide_eq_true (h e he hphys))

/-- An engine that fails leaves the device, and the last of its die ends it (R469, R476). -/
theorem marrowCheckerFailure_records {st phys : Nat} (hst : st < 12) (hp : phys < 16) (hf : s.marrowFailed st phys = false) :
    ∃ t, exec (.marrowCheckerFailure st phys) s = .next t ∧
      st * 16 + phys ∈ t.mram.failedMarrow ∧ t.tests.marrowTest = [] ∧
      ((∀ e, e < 16 → e ≠ phys → s.marrowFailed st e = true) → t.fld Fld.state = 8) := by
  have e : exec (.marrowCheckerFailure st phys) s = .next
      (if (List.range 16).all (fun e => (s.engineOut st phys).marrowFailed st e)
        then ((s.engineOut st phys).logFault 3 st phys 3 0 (st * 16 + phys)).endDeviceOther
        else (s.engineOut st phys).absorbWithin 3 st phys 1 2000 (st * 16 + phys)) := by
    change execMarrowCheckerFailure st phys s = _
    rw [execMarrowCheckerFailure, ifUnit_true (by simp [hst, hp]), if_neg (by simp [hf])]
    rfl
  have hin : st * 16 + phys ∈ (s.engineOut st phys).mram.failedMarrow := by
    rw [State.engineOut_failedMarrow]
    exact List.mem_append_right _ (List.mem_singleton.mpr rfl)
  refine ⟨_, e, ?_⟩
  split
  · rw [State.endDeviceOther_mram, State.endDeviceOther_tests, State.logFault_failedMarrow, State.logFault_tests]
    exact ⟨hin, State.engineOut_marrowTest st phys, fun _ => State.endDeviceOther_state⟩
  case isFalse hrest =>
    rw [State.absorbWithin_failedMarrow, State.absorbWithin_tests]
    exact ⟨hin, State.engineOut_marrowTest st phys, fun h => absurd (State.engineOut_lastOfDie h) hrest⟩

theorem managementMismatch_standby (v : Verdict) (h : s.tests.standby = true) :
    ∃ t, exec (.managementMismatch v) s = .next t ∧
      t.tests.standby = decide (v = .pass) ∧ t.fld Fld.state = s.fld Fld.state := by
  refine ⟨_, congrArg Host.Outcome.next (if_pos h), ?_, ?_⟩
  · rw [State.absorbWithin_tests]; rfl
  · rw [State.absorbWithin_fld Reg.still_devState]; rfl

theorem managementMismatch_alone (v : Verdict) (h : s.tests.standby = false) :
    ∃ t, exec (.managementMismatch v) s = .next t ∧ t.fld Fld.state = 8 :=
  ⟨_, congrArg Host.Outcome.next (if_neg (by simp [h])), State.endDeviceOther_state⟩

theorem bitOf_eq_testBit (v i : Nat) : bitOf v i = v.testBit i := by
  rw [bitOf, Nat.testBit_eq_decide_div_mod_eq, Nat.shiftRight_eq_div_pow]

theorem bitOf_setBit (v i : Nat) : bitOf (setBit v i) i = true := by
  rw [bitOf_eq_testBit, setBit, Nat.testBit_or, Nat.testBit_shiftLeft]
  simp

section
variable {link m : Nat} (hl : link < 24) (hm : m < modulesOf link) (hin : bitOf (Tab.get 0 s.tests.d2dOut link) m = false)
include hl hm hin

/-- A lane repaired in its module counts there, and the module stays in service (R26). -/
theorem dieToDieLaneFailure_repaired : ∃ t, exec (.dieToDieLaneFailure link m true) s = .next t ∧
    Tab.get 0 t.tests.d2dLanes (link * 16 + m) = Tab.get 0 s.tests.d2dLanes (link * 16 + m) + 1 ∧
    t.tests.d2dOut = s.tests.d2dOut := by
  change ∃ t, execDieToDieLaneFailure link m true s = .next t ∧ _
  rw [execDieToDieLaneFailure, ifUnit_true (by simp [hl]; exact hm), if_neg (by simp [hin]), if_pos rfl]
  refine ⟨_, rfl, ?_⟩
  rw [State.absorbWithin_tests]
  exact ⟨Tab.get_set_same 0 s.tests.d2dLanes (link * 16 + m) (Tab.get 0 s.tests.d2dLanes (link * 16 + m) + 1), rfl⟩

/-- A module that cannot be repaired goes out of service, and the last of its link ends the device (R15, R26). -/
theorem dieToDieLaneFailure_out : ∃ t, exec (.dieToDieLaneFailure link m false) s = .next t ∧
    bitOf (Tab.get 0 t.tests.d2dOut link) m = true ∧
    ((∀ k, k < modulesOf link → k ≠ m → bitOf (Tab.get 0 s.tests.d2dOut link) k = true) → t.fld Fld.state = 8) := by
  have hout : bitOf (Tab.get 0 (Tab.set 0 link (setBit (Tab.get 0 s.tests.d2dOut link) m) s.tests.d2dOut) link) m = true := by
    rw [Tab.get_set_same]
    exact bitOf_setBit _ m
  change ∃ t, execDieToDieLaneFailure link m false s = .next t ∧ _
  rw [execDieToDieLaneFailure, ifUnit_true (by simp [hl]; exact hm), if_neg (by simp [hin]), if_neg (by decide)]
  refine ⟨_, rfl, ?_⟩
  split
  · split
    · rw [(State.endDevice_same _ _ (within_self _) (State.same_self _)).tests_eq (by decide), State.logFault_tests]
      exact ⟨hout, fun _ => State.endDevice_state _⟩
    · rw [State.endDeviceOther_tests, State.logFault_tests]
      exact ⟨hout, fun _ => State.endDeviceOther_state⟩
  case isFalse hrest =>
    rw [State.absorbWithin_tests]
    refine ⟨hout, fun h => absurd (List.all_eq_true.mpr fun k hk => ?_) hrest⟩
    by_cases hkm : k = m
    · simp [hkm]
    · simp [h k (List.mem_range.mp hk) hkm]
end

theorem dieToDieReplay_counts {link : Nat} (hl : link < 24) : ∃ t, exec (.dieToDieReplay link) s = .next t ∧
    t.tick.record.replays = s.tick.record.replays + 1 ∧
    Tab.get 0 t.tests.d2dReplays link = Tab.get 0 s.tests.d2dReplays link + 1 ∧ t.regs = s.regs ∧ t.mem = s.mem :=
  ⟨_, ifUnit_true (decide_eq_true hl), rfl,
    Tab.get_set_same 0 s.tests.d2dReplays link (Tab.get 0 s.tests.d2dReplays link + 1), rfl, rfl⟩

/-- Settles O29, family by family: cores, Marrow engines, the management pair, service cores and die-to-die links. -/
theorem failedUnitsAreReplacedOrEndTheDevice : Obligations.FailedUnitsAreReplacedOrEndTheDevice := by
  unfold Obligations.FailedUnitsAreReplacedOrEndTheDevice
  intro s
  refine ⟨fun die phys hd hp => ⟨coreCheckerFailure_retired hd hp, fun hr hm => ⟨?migrates, ?ends, ?retires⟩⟩,
    fun st phys hst hp hf => marrowCheckerFailure_records hst hp hf,
    fun v => ⟨managementMismatch_standby v, managementMismatch_alone v⟩,
    fun c hc => ifUnit_true (decide_eq_true hc),
    fun link hl => dieToDieReplay_counts hl,
    fun link m hl hm hin => ⟨dieToDieLaneFailure_repaired hl hm hin, dieToDieLaneFailure_out hl hm hin⟩⟩
  case migrates => exact fun n p ps hc hs => coreCheckerFailure_migrates hd hp hr hm hc hs
  case ends => exact fun n hc hs => coreCheckerFailure_ends hd hp hr hm hc hs
  case retires => exact fun hc => coreCheckerFailure_retires hd hp hr hm hc

end Sys2Proof.Machine

/-! O39: a write that has to wait stores nothing. The statement leaves open which stack a segment lies on, so it also speaks of a
state in which a granule of job HBM has the number that stands for a core's store (R20), and waits with it. -/
namespace Sys2Proof.Machine

variable {s : State} {o : Origin} {a : Nat} {b : Byte}

/-- A write whose granule waits is kept, and memory stays as it is (R20, R369). -/
theorem State.serveWrites_wait {w : WaitWrite} (hw : s.memory.waits = []) (hn : s.writeNeed w.granule w.origin = .wait) :
    (s.serveWrites [w]).mem = s.mem := by
  have hserve : s.serveWrite w = (s, some w) := by simp [State.serveWrite, hn]
  simp [State.serveWrites, hw, hserve]

theorem tilePieces_singleton : tilePieces a [b] = [(a, [b])] := by
  have hroom : [b].length ≤ 4096 - a % 4096 := by simp only [List.length_singleton]; omega
  simp only [tilePieces, if_pos hroom]
  rfl

theorem State.write_byte_wait (ha : rangeOf a = .hbm) (hw : s.memory.waits = [])
    (hn : s.writeNeed (s.granuleOf a) o = .wait) : (s.write o a [b]).mem = s.mem := by
  rw [State.write, tilePieces_singleton, List.foldl_cons, List.foldl_nil, State.writePiece, if_pos ha]
  exact State.serveWrites_wait hw hn

/-- A granule number of a core's store waits while that core migrates (R20). -/
theorem State.writeNeed_migrating {n : Nat} (h : s.fld (Fld.coreState n) = 1) : s.writeNeed (storeGranule + n) o = .wait := by
  simp [State.writeNeed, h]

/-- A device just reset, but for core 0, which migrates, and segment 0, which is mapped to a stack of a number so large that its
granule 16384 is numbered as core 0's store. -/
def strayStack : State :=
  { State.reset.setFld (Fld.coreState 0) 1 with memory := { State.reset.memory with segStack := [(0, 44739243)] } }

/-- Refutes O39: in `strayStack` nothing of what the last clause names holds a write back, and yet a byte written to granule 16384
of segment 0 waits for the migration of core 0. An admitted image gives a segment's stack in one byte (R211), so the state is none
of a running device: the statement lacks a premise on the stacks of the segments. -/
theorem not_writesChangeOnlyTheirBytes : ¬ Obligations.WritesChangeOnlyTheirBytes := by
  unfold Obligations.WritesChangeOnlyTheirBytes
  intro h
  obtain ⟨-, -, hstored⟩ := h strayStack .host 0x40000000 [1]
  have hgranule : strayStack.granuleOf 0x40000000 = storeGranule + 0 := by decide
  have hmigrates : strayStack.fld (Fld.coreState 0) = 1 := by decide
  have hone : (strayStack.write .host 0x40000000 [1]).byteAt 0x40000000 = 1 :=
    hstored (by decide) (by decide) rfl rfl rfl rfl 0 (by decide)
  have hwaits : (strayStack.write .host 0x40000000 [1]).mem = strayStack.mem :=
    State.write_byte_wait (by decide) rfl (by rw [hgranule]; exact State.writeNeed_migrating hmigrates)
  have hzero : (strayStack.write .host 0x40000000 [1]).byteAt 0x40000000 = 0 := by rw [State.byteAt, hwaits]; rfl
  exact absurd (hone.symm.trans hzero) (by decide)

end Sys2Proof.Machine

/-! What passing to a later time leaves as it is. -/
namespace Sys2Proof.Machine

variable (s : State) (t : Nat)

/-- Passing to a later time writes a register, and that is all. -/
theorem State.at_eq : s.at_ t = { s with regs := (s.at_ t).regs } := by
  unfold State.at_
  split <;> rfl

@[simp] theorem State.at_mem : (s.at_ t).mem = s.mem := by rw [State.at_eq]
@[simp] theorem State.at_tick : (s.at_ t).tick = s.tick := by rw [State.at_eq]
@[simp] theorem State.at_streams : (s.at_ t).streams = s.streams := by rw [State.at_eq]
@[simp] theorem State.at_changes : (s.at_ t).changes = s.changes := by rw [State.at_eq]
@[simp] theorem State.at_slow : (s.at_ t).slow = s.slow := by rw [State.at_eq]
@[simp] theorem State.at_queues : (s.at_ t).queues = s.queues := by rw [State.at_eq]
@[simp] theorem State.at_host : (s.at_ t).host = s.host := by rw [State.at_eq]

variable {s t}

theorem State.at_reg {k : Nat} (h : k ≠ Reg.tckTime) : (s.at_ t).reg k = s.reg k := by
  unfold State.at_
  split
  · exact State.reg_setReg_other _ _ h
  · rfl

theorem State.at_fld {f : Fld} (h : f.key ≠ Reg.tckTime) : (s.at_ t).fld f = s.fld f :=
  State.fld_congr (State.at_reg h)

end Sys2Proof.Machine

/-! O8: a command that a clause names may do anything to the clause's part of the state; every other command lacks the part in its
mask (`mayChange`). -/
namespace Sys2Proof.Machine

/-- Settles O8, part by part: the commands that the clause does not name leave the part, by their masks. -/
theorem tablesTimeAndPowerStateChange : Obligations.TablesTimeAndPowerStateChange := by
  unfold Obligations.TablesTimeAndPowerStateChange
  refine ⟨fun c s t e => ⟨?time, ?streams, ?changes, ?slow⟩, fun c s t e => ⟨?board, ?snap, ?tests, ?power⟩⟩
  all_goals have h := same_of_exec e
  case time =>
    cases c
    all_goals try exact True.intro
    all_goals dsimp only [mayChange] at h
    all_goals exact h.time_eq (by decide)
  case streams =>
    cases c
    all_goals try exact True.intro
    all_goals dsimp only [mayChange] at h
    all_goals exact h.streams_eq (by decide)
  case changes =>
    cases c
    all_goals try exact True.intro
    all_goals dsimp only [mayChange] at h
    all_goals exact h.changes_eq (by decide)
  case slow =>
    cases c
    all_goals try exact True.intro
    all_goals dsimp only [mayChange] at h
    all_goals exact h.slow_eq (by decide)
  case board =>
    cases c
    all_goals try exact True.intro
    all_goals dsimp only [mayChange] at h
    all_goals exact h.board_eq (by decide)
  case snap =>
    cases c
    all_goals try exact True.intro
    all_goals dsimp only [mayChange] at h
    all_goals exact h.snap_eq (by decide)
  case tests =>
    cases c
    all_goals try exact True.intro
    all_goals dsimp only [mayChange] at h
    all_goals exact h.tests_eq (by decide)
  case power =>
    cases c
    all_goals try exact True.intro
    all_goals dsimp only [mayChange] at h
    all_goals exact h.power_eq (by decide)

end Sys2Proof.Machine

/-! O2: one nanosecond moves the time base alone, and no command touches the queue of commands (log entries 1 and 97). -/
namespace Sys2Proof.Machine

variable {s : State}

/-- The nanoseconds by which device time moves as one nanosecond of the oscillator passes: 1, and where the parts of a nanosecond
make up a whole one, one more or one less (R40). -/
def State.nsStep (s : State) : Nat :=
  if 1000000000 ≤ s.time.phase + s.time.rate then 2 else if s.time.phase + s.time.rate ≤ -1000000000 then 0 else 1

theorem State.nsStep_le (s : State) : s.nsStep ≤ 2 := by
  unfold State.nsStep
  split
  · decide
  · split <;> decide

theorem State.passNs_eq (s : State) : s.passNs = { s.at_ (s.now + s.nsStep) with
    time := { s.time with phase := s.time.phase + s.time.rate - ((s.nsStep : Int) - 1) * 1000000000 } } := rfl

theorem State.passNs_now (h : s.now + 2 < 2 ^ 64) : s.passNs.now = s.now + s.nsStep := by
  have hstep := s.nsStep_le
  rw [State.passNs_eq]
  change (s.at_ _).now = _
  rw [State.now_at_ _ _ (by omega)]
  omega

theorem mayChange_pending (c : Instr) : (mayChange c).testBit 0 = false := by
  cases c
  all_goals dsimp only [mayChange]
  all_goals decide

theorem exec_pending {c : Instr} {t : State} (e : exec c s = .next t) : t.pending = s.pending :=
  (same_of_exec e).pending_eq (mayChange_pending c)

theorem step_idle (h : s.pending = []) : step s = .next s.passNs := by
  unfold step
  rw [h]

theorem step_pending {t : State} (e : step s = .next t) : t.pending = s.pending.tail := by
  unfold step at e
  split at e
  case h_1 c rest hp =>
    rw [hp]
    exact exec_pending e
  case h_2 hp =>
    cases e
    rw [(State.passNs_same s (within_self _) s.same_self).pending_eq (by decide), hp]
    rfl

/-- Settles O2: the parts of a nanosecond that time does not move by stay in the phase, and the queue's rest comes through. -/
theorem stepTakesOneCommandOrIdles : Obligations.StepTakesOneCommandOrIdles := by
  unfold Obligations.StepTakesOneCommandOrIdles
  refine ⟨fun s hidle hnow => ⟨s.passNs, step_idle hidle, ?clock, fun k hk => ?regs, ?frame, rfl⟩, fun s t => step_pending⟩
  case clock =>
    rw [State.passNs_now hnow, State.passNs_eq]
    dsimp only
    omega
  case regs => exact State.at_reg hk
  case frame => rw [State.passNs_eq, State.at_eq]

end Sys2Proof.Machine

/-! O4: nothing is listed at reset, so a register reads the reset value of its table, and the arrays of one layout their place in
it (R22, R179, R275). -/
namespace Sys2Proof.Machine

theorem State.reset_reg (k : Nat) : State.reset.reg k = Reg.resetValue k := rfl

/-- The core map, the Marrow map and the pages of the sequencers hold no register with a reset value of its own. -/
theorem Reg.resetValue_array {k : Nat} (h : k < 0x20000 ∨ 0x50000 ≤ k ∧ k < 0x50300 ∨ 0x100000 ≤ k ∧ k < 0x2C0000) :
    Reg.resetValue k = BitVec.ofNat 64 (Reg.resetArray k) := by
  have hne {j : Nat} (hj : 0x20000 ≤ j ∧ j < 0x50000 ∨ 0x90000 ≤ j ∧ j < 0x100000 ∨ 0x2C0000 ≤ j) : k ≠ j := by omega
  unfold Reg.resetValue
  repeat rw [if_neg (hne (by decide))]
  rw [if_neg (by omega)]

theorem getBits_ofNat {v : Nat} (h : v < 2 ^ 64) (hi lo : Nat) :
    getBits (BitVec.ofNat 64 v) hi lo = v / 2 ^ lo % 2 ^ (hi - lo + 1) := by
  rw [getBits, BitVec.toNat_ofNat, Nat.mod_eq_of_lt h, Nat.shiftRight_eq_div_pow]

theorem Reg.reset_coreMap {n : Nat} (hn : n < 192) :
    Reg.resetValue (Reg.coreMap n) = BitVec.ofNat 64 (n / 48 * 2 ^ 16 + n % 48) := by
  rw [Reg.resetValue_array (by simp only [Reg.coreMap]; omega)]
  unfold Reg.resetArray Reg.coreMap
  rw [if_pos (by omega), show (0x10000 + n * 4 - 0x10000) / 4 = n by omega]

theorem Reg.reset_mrwMap {n : Nat} (hn : n < 192) : Reg.resetValue (Reg.mrwMap n) = BitVec.ofNat 64 (n % 16) := by
  rw [Reg.resetValue_array (by simp only [Reg.mrwMap]; omega)]
  unfold Reg.resetArray Reg.mrwMap
  rw [if_neg (by omega), if_neg (by omega), if_pos (by omega), show (0x50000 + n * 4 - 0x50000) / 4 = n by omega]

/-- The page of a list's sequencer: the cores' from 0x100000 on, the Marrow engines' from 0x200000 on (R178). -/
theorem Reg.seqStatus_page {l : Nat} (hl : l < 384) : Reg.seqStatus l % 0x1000 = 0 ∧
    (0x100000 ≤ Reg.seqStatus l ∧ Reg.seqStatus l < 0x1C0000 ∨ 0x200000 ≤ Reg.seqStatus l ∧ Reg.seqStatus l < 0x2C0000) := by
  unfold Reg.seqStatus Reg.seqPage
  split <;> omega

theorem Reg.reset_seqStatus {l : Nat} (hl : l < 384) : Reg.resetValue (Reg.seqStatus l) = BitVec.ofNat 64 0x80000000 := by
  obtain ⟨hpage, hrange⟩ := Reg.seqStatus_page hl
  generalize Reg.seqStatus l = k at hpage hrange
  rw [Reg.resetValue_array (by omega)]
  unfold Reg.resetArray
  repeat rw [if_neg (by omega)]
  rcases hrange with h | h
  · rw [if_pos ⟨h.1, h.2, hpage⟩]
  · rw [if_neg (by omega), if_pos ⟨h.1, h.2, hpage⟩]

/-- The stepping is the part's own and lies below the family in DEV_IDENTITY (R392). -/
theorem getBits_identity (x : BitVec 8) : getBits (0x04000000#64 ||| ((x.zeroExtend 64) <<< 16)) 31 24 = 4 := by
  have hx : x.toNat < 2 ^ 8 := x.isLt
  have hshift : ((x.zeroExtend 64) <<< 16).toNat = x.toNat * 2 ^ 16 := by
    rw [BitVec.toNat_shiftLeft, BitVec.toNat_setWidth, Nat.shiftLeft_eq]
    omega
  have hor : 2 ^ 24 * 4 ||| x.toNat * 2 ^ 16 = 2 ^ 24 * 4 + x.toNat * 2 ^ 16 :=
    (Nat.two_pow_add_eq_or_of_lt (by omega) 4).symm
  rw [getBits, BitVec.toNat_or, hshift, Nat.shiftRight_eq_div_pow]
  change (2 ^ 24 * 4 ||| x.toNat * 2 ^ 16) / _ % _ = _
  rw [hor]
  omega

/-- Settles O4: register by register, each array by its place. -/
theorem resetLeavesSpecValues : Obligations.ResetLeavesSpecValues := by
  unfold Obligations.ResetLeavesSpecValues
  refine ⟨by decide, by decide, by decide, by decide, getBits_identity Config.stepping, by decide, by decide, by decide, by decide,
    by decide, by decide, by decide, by decide, by decide, fun n hn => ?cores, fun n hn => ?marrow, fun l hl => ?lists,
    rfl, rfl, rfl, rfl, rfl⟩
  case cores =>
    simp only [State.fld, Fld.corePhys, Fld.coreState, State.reset_reg, Reg.reset_coreMap hn]
    have hhigh : (n / 48 * 2 ^ 16 + n % 48) / 2 ^ 18 = 0 := Nat.div_eq_of_lt (by omega)
    rw [getBits_ofNat (by omega), getBits_ofNat (by omega), hhigh]
    omega
  case marrow =>
    simp only [State.fld, Fld.mrwPhys, State.reset_reg, Reg.reset_mrwMap hn]
    rw [getBits_ofNat (by omega)]
    omega
  case lists =>
    simp only [State.fld, Fld.seqState, Fld.seqWait, Fld.seqNext, State.reset_reg, Reg.reset_seqStatus hl]
    decide

end Sys2Proof.Machine

/-! O20: the framer takes a datagram on the plant port (R61 to R64). A frame of a known stream meets the checks of R63 one after
the other; the first that it fails says how it is dropped. -/
namespace Sys2Proof.Machine

variable {s : State} {d : Datagram} {st : Stream}

/-- A frame dropped for a reason of its stream counts there and in the tick record; nothing lands. -/
theorem State.dropFor_counts (id : Nat) (st : Stream) : Tab.find? (s.dropFor id st).streams id = some st ∧
    (s.dropFor id st).tick.record.dropped = s.tick.record.dropped + 1 ∧ (s.dropFor id st).mem = s.mem ∧
    (s.dropFor id st).queues = s.queues :=
  ⟨Tab.find?_put_same _ _ _, rfl, rfl, rfl⟩

theorem State.plantPort_at (t p : Nat) : (s.at_ t).plantPort p = s.plantPort p := by
  rw [State.at_eq]; rfl

/-- The entries that a frame lands as: its descriptor and its payload (R62). -/
def frameEntries (st : Stream) (d : Datagram) : List (List Byte) :=
  frameDesc st (fieldLE d.bytes 4 2) d :: chunksOf 64 128 (d.bytes.drop 32)

-- the checks of R63, in their order

theorem Stream.notStale {seq : Nat} (h : ∀ l, st.last = some l → newer seq l = true) :
    ¬ st.last.any (fun l => !newer seq l) = true := by
  cases hl : st.last with
  | none => exact Bool.false_ne_true
  | some l => rw [Option.any_some, h l hl]; exact Bool.false_ne_true

theorem State.takeFrame_noStream (h : Tab.find? s.streams (fieldLE d.bytes 4 2) = none) : s.takeFrame d = s.dropFrame := by
  simp only [State.takeFrame, h]

section
variable (hst : Tab.find? s.streams (fieldLE d.bytes 4 2) = some st)
include hst

theorem State.takeFrame_refused (h : st.admits d = false ∨ fieldLE d.bytes 3 1 ≠ 1) :
    s.takeFrame d = s.dropFor (fieldLE d.bytes 4 2) { st with c0 := st.c0 + 1 } := by
  simp only [State.takeFrame, hst]
  exact if_pos (h.imp_left (by simp))

variable (hadmits : st.admits d = true) (hkind : fieldLE d.bytes 3 1 = 1)
include hadmits hkind

theorem State.takeFrame_malformed (h : frameForm d.bytes = false) :
    s.takeFrame d = s.dropFor (fieldLE d.bytes 4 2) { st with c1 := st.c1 + 1 } := by
  simp [State.takeFrame, hst, hadmits, hkind, h]

variable (hform : frameForm d.bytes = true)
include hform

theorem State.takeFrame_badSum (h : (crc32c (d.bytes.drop 32)).toNat ≠ fieldLE d.bytes 0x1C 4) :
    s.takeFrame d = s.dropFor (fieldLE d.bytes 4 2) { st with c2 := st.c2 + 1 } := by
  simp [State.takeFrame, hst, hadmits, hkind, hform, h]

variable (hsum : (crc32c (d.bytes.drop 32)).toNat = fieldLE d.bytes 0x1C 4)
include hsum

theorem State.takeFrame_stale {l : Nat} (hl : st.last = some l) (h : newer (fieldLE d.bytes 8 4) l = false) :
    s.takeFrame d = s.dropFor (fieldLE d.bytes 4 2) { st with c3 := st.c3 + 1 } := by
  simp only [State.takeFrame, hst]
  rw [if_neg (by simp [hadmits, hkind]), if_neg (by simp [hform]), if_neg (by simp [hsum]),
    if_pos (by rw [hl, Option.any_some, h]; rfl)]

variable (hnew : ∀ l, st.last = some l → newer (fieldLE d.bytes 8 4) l = true)
include hnew

/-- A frame that passes every check lands where there is room. -/
theorem State.takeFrame_checked :
    ((s.landFrame st.queue (frameEntries st d)).2 = false →
      s.takeFrame d = s.dropFor (fieldLE d.bytes 4 2) { st with c4 := st.c4 + 1 }) ∧
    ((s.landFrame st.queue (frameEntries st d)).2 = true → s.takeFrame d =
      ((s.landFrame st.queue (frameEntries st d)).1.setStream (fieldLE d.bytes 4 2)
        { st with last := some (fieldLE d.bytes 8 4) }).onRecord (fun r => { r with landed := r.landed + 1 })) := by
  simp only [State.takeFrame, hst]
  rw [if_neg (by simp [hadmits, hkind]), if_neg (by simp [hform]), if_neg (by simp [hsum]),
    if_neg (Stream.notStale hnew), frameEntries]
  split
  case h_1 s1 hland =>
    rw [hland]
    exact ⟨nofun, fun _ => rfl⟩
  case h_2 s1 hland =>
    rw [hland]
    exact ⟨fun _ => rfl, nofun⟩
end

-- the command

section
variable (hp : d.port < 2)
include hp

theorem exec_measurementFrame : exec (.measurementFrame d) s = .next
    (if d.fragment then
      State.dropFrame { s.at_ d.arrival with host := { s.host with ipFragments := s.host.ipFragments + 1 } }
    else if d.dstPort ≠ s.plantPort d.port then s.at_ d.arrival
    else (s.at_ d.arrival).takeFrame d) := by
  change execMeasurementFrame d s = _
  rw [execMeasurementFrame, ifUnit_true (decide_eq_true hp)]
  simp only [State.plantPort_at, State.at_host]

theorem measurementFrame_fragment (hf : d.fragment = true) : ∃ t, exec (.measurementFrame d) s = .next t ∧
    t.host.ipFragments = s.host.ipFragments + 1 ∧ t.tick.record.dropped = s.tick.record.dropped + 1 ∧ t.mem = s.mem ∧
    t.queues = s.queues ∧ t.streams = s.streams := by
  refine ⟨_, (exec_measurementFrame hp).trans (by rw [if_pos hf]), ?_⟩
  simp [State.dropFrame]

variable (hf : d.fragment = false)
include hf

theorem measurementFrame_other (hd : d.dstPort ≠ s.plantPort d.port) :
    exec (.measurementFrame d) s = .next (s.at_ d.arrival) := by
  rw [exec_measurementFrame hp, if_neg (by simp [hf]), if_pos hd]

variable (hd : d.dstPort = s.plantPort d.port)
include hd

theorem measurementFrame_plant : exec (.measurementFrame d) s = .next ((s.at_ d.arrival).takeFrame d) := by
  rw [exec_measurementFrame hp, if_neg (by simp [hf]), if_neg (by simp [hd])]

theorem measurementFrame_dropped {id : Nat} {st : Stream} (h : (s.at_ d.arrival).takeFrame d = (s.at_ d.arrival).dropFor id st) :
    ∃ t, exec (.measurementFrame d) s = .next t ∧ Tab.find? t.streams id = some st ∧
      t.tick.record.dropped = s.tick.record.dropped + 1 ∧ t.mem = s.mem ∧ t.queues = s.queues := by
  refine ⟨_, (measurementFrame_plant hp hf hd).trans (congrArg _ h), ?_⟩
  simpa using State.dropFor_counts (s := s.at_ d.arrival) id st

theorem measurementFrame_landed {id : Nat} {st : Stream} {u : State} (h : (s.at_ d.arrival).takeFrame d =
      (u.setStream id st).onRecord (fun r => { r with landed := r.landed + 1 })) :
    ∃ t, exec (.measurementFrame d) s = .next t ∧ Tab.find? t.streams id = some st ∧
      t.tick.record.landed = u.tick.record.landed + 1 ∧ t.mem = u.mem ∧ t.queues = u.queues :=
  ⟨_, (measurementFrame_plant hp hf hd).trans (congrArg _ h), Tab.find?_put_same _ _ _, rfl, rfl, rfl⟩

theorem measurementFrame_noStream (h : Tab.find? s.streams (fieldLE d.bytes 4 2) = none) :
    ∃ t, exec (.measurementFrame d) s = .next t ∧ t.streams = s.streams ∧
      t.tick.record.dropped = s.tick.record.dropped + 1 := by
  refine ⟨_, (measurementFrame_plant hp hf hd).trans (congrArg _ (State.takeFrame_noStream (by simpa using h))), ?_⟩
  simp [State.dropFrame]
end

/-- Settles O20: each check of R63 in its order, and the landing. -/
theorem measurementFramesLandOrDrop : Obligations.MeasurementFramesLandOrDrop := by
  unfold Obligations.MeasurementFramesLandOrDrop
  intro s d hp
  refine ⟨measurementFrame_fragment hp, measurementFrame_other hp, fun hf hd =>
    ⟨measurementFrame_noStream hp hf hd, fun st hst => ?_⟩⟩
  have hst1 : Tab.find? (s.at_ d.arrival).streams (fieldLE d.bytes 4 2) = some st := by simpa using hst
  have hdrop {st' : Stream} := measurementFrame_dropped (id := fieldLE d.bytes 4 2) (st := st') hp hf hd
  refine ⟨fun h => hdrop (State.takeFrame_refused hst1 h), fun ha hk => ⟨fun h => hdrop (State.takeFrame_malformed hst1 ha hk h),
    fun hform => ⟨fun h => hdrop (State.takeFrame_badSum hst1 ha hk hform h), fun hsum => ⟨fun l hl h =>
      hdrop (State.takeFrame_stale hst1 ha hk hform hsum hl h), fun hnew => ?_⟩⟩⟩⟩
  obtain ⟨hnoRoom, hroom⟩ := State.takeFrame_checked hst1 ha hk hform hsum hnew
  exact ⟨fun h => hdrop (hnoRoom h), fun h => measurementFrame_landed hp hf hd (hroom h)⟩

end Sys2Proof.Machine

/-! O21: the framer takes a frame of an actuation queue (R65 to R68). What it sends goes out on each port of the stream; what it
does with the stream's entry and the tick record depends on the frame's form, its step and its time. -/
namespace Sys2Proof.Machine

variable {s : State} {id : Nat} {st : Stream} {k : ActFrame}

-- sending on the ports

/-- `xs` are frames with the bytes `bs` on the ports `ps`, one on each, none before the time `at_` (R66). -/
def State.FramesOn (s : State) (id at_ : Nat) (ipv6 : Bool) (dst : Nat × Nat) (bs : List Byte) (ps : List Nat) (xs : List Sent) :
    Prop :=
  xs.length = ps.length ∧ ∀ x ∈ xs, ∃ p t, p ∈ ps ∧ at_ ≤ t ∧ x = .actuation id p t dst (s.portIp p ipv6, s.plantPort p) bs

/-- A state that has sent `xs` since, its ports busy until the ends in `ends`. -/
def State.sentOn (s : State) (ends : Tab Nat) (xs : List Sent) : State :=
  { s with host := { s.host with macEnd := ends }, sent := s.sent ++ xs }

theorem State.sentOn_sentOn (e e' : Tab Nat) (xs ys : List Sent) : (s.sentOn e xs).sentOn e' ys = s.sentOn e' (xs ++ ys) := by
  simp only [State.sentOn, List.append_assoc]

/-- A frame never leaves before its own time (log entry 136). -/
theorem State.sendOnPort_spec (id p at_ : Nat) (ipv6 : Bool) (dst : Nat × Nat) (bs : List Byte) :
    ∃ e xs, (s.sendOnPort id p at_ ipv6 dst bs).1 = s.sentOn e xs ∧ s.FramesOn id at_ ipv6 dst bs [p] xs := by
  refine ⟨_, [_], rfl, rfl, fun x hx => ⟨p, _, List.mem_singleton_self p, ?_, List.mem_singleton.mp hx⟩⟩
  split
  · exact Nat.le_max_right _ _
  · exact Nat.le_refl _

/-- One port after another: the second component tells whether any frame has slipped. -/
def State.sendOnPorts (s : State) (id at_ : Nat) (ipv6 : Bool) (dst : Nat × Nat) (bs : List Byte) (slipped : Bool)
    (ps : List Nat) : State × Bool :=
  ps.foldl (fun (a : State × Bool) p =>
    let r := a.1.sendOnPort id p at_ ipv6 dst bs
    (r.1, a.2 || r.2)) (s, slipped)

theorem State.sendOnPorts_spec (id at_ : Nat) (ipv6 : Bool) (dst : Nat × Nat) (bs : List Byte) (ps : List Nat) :
    ∀ (s : State) (b : Bool), ∃ e xs, (s.sendOnPorts id at_ ipv6 dst bs b ps).1 = s.sentOn e xs ∧
      s.FramesOn id at_ ipv6 dst bs ps xs := by
  induction ps with
  | nil => exact fun s b => ⟨s.host.macEnd, [], by simp [State.sendOnPorts, State.sentOn], rfl, nofun⟩
  | cons p ps ih =>
    intro s b
    obtain ⟨e, xs, hs, hlen, hxs⟩ := s.sendOnPort_spec id p at_ ipv6 dst bs
    obtain ⟨e', ys, hs', hlen', hys⟩ := ih (s.sentOn e xs) (b || (s.sendOnPort id p at_ ipv6 dst bs).2)
    refine ⟨e', xs ++ ys, ?_, ?_, fun x hx => ?_⟩
    · rw [← State.sentOn_sentOn, ← hs', ← hs]
      rfl
    · simp [hlen, hlen', Nat.add_comm]
    · rcases List.mem_append.mp hx with h | h
      · obtain ⟨q, t, hq, ht, e⟩ := hxs x h
        exact ⟨q, t, by simp_all, ht, e⟩
      · obtain ⟨q, t, hq, ht, e⟩ := hys x h
        exact ⟨q, t, List.mem_cons_of_mem _ hq, ht, e⟩

/-- The sequence number of the stream's next frame (R65, log entry 11). -/
def Stream.nextSeq (st : Stream) : Nat :=
  match st.last with
  | some l => (l + 1) % 2 ^ 32
  | none => 0

/-- Ports of the stream (R72). -/
def Stream.ports (st : Stream) : List Nat := (List.range 2).filter (fun p => bitOf st.flags p)

/-- What sending a step's frame does; `m` says whether it counts as late. -/
theorem State.sendActuation_spec (s : State) (id : Nat) (st : Stream) (sched : Nat) (late : Bool) (e payload : List Byte) :
    ∃ ends xs m, s.sendActuation id st sched late e payload =
      ((s.sentOn ends xs).setStream id { st with last := some st.nextSeq, c0 := st.c0 + 1, c1 := st.c1 + m }).onRecord
        (fun r => { r with actSent := r.actSent + 1, actLate := r.actLate + m }) ∧
      s.FramesOn id sched (bitOf st.flags 2) (st.ip, st.udpPort) (actBytes id st.nextSeq sched late e payload) st.ports xs := by
  let t := if late then max s.now sched else sched
  let bs := actBytes id st.nextSeq sched late e payload
  let sent := s.sendOnPorts id t (bitOf st.flags 2) (st.ip, st.udpPort) bs false st.ports
  have ht : sched ≤ t := by
    cases late
    · exact Nat.le_refl _
    · exact Nat.le_max_right _ _
  obtain ⟨ends, xs, hs, hlen, hxs⟩ := State.sendOnPorts_spec id t (bitOf st.flags 2) (st.ip, st.udpPort) bs st.ports s false
  refine ⟨ends, xs, if late || sent.2 then 1 else 0, ?_, hlen, fun x hx => ?_⟩
  · rw [← hs]
    rfl
  · obtain ⟨p, a, hp, ha, e⟩ := hxs x hx
    exact ⟨p, a, hp, Nat.le_trans ht ha, e⟩

-- one frame taken

/-- The payload of a packet: its entries but for the first (R294). -/
def State.packetPayload (s : State) (q : Nat) (k : ActFrame) : List Byte :=
  (List.range (k.size - 1)).flatMap (fun i => s.entryBytes q (k.start + 1 + i))

/-- A frame counted as late in the tick record (R50, R67). -/
def State.countLate (s : State) : State := s.onRecord (fun r => { r with actLate := r.actLate + 1 })

theorem State.freeFrame_pos (q : Nat) : ((s.freeFrame q k).queue q).pos = { (s.queue q).pos with f := k.start + k.size } := by
  unfold State.freeFrame State.setQueue
  simp [State.queue]

section
variable (hst : Tab.find? s.streams id = some st)
include hst

/-- Taking a frame moves F over it and does nothing else to the queue's positions, and nothing to memory (R281). -/
theorem State.takeActuation_queue :
    ((s.takeActuation id k).queue st.queue).pos = { (s.queue st.queue).pos with f := k.start + k.size } ∧
    (s.takeActuation id k).mem = s.mem := by
  obtain ⟨s1, e, hqueues, hmem⟩ : ∃ s1 : State,
      s.takeActuation id k = s1.freeFrame st.queue k ∧ s1.queues = s.queues ∧ s1.mem = s.mem := by
    simp only [State.takeActuation, hst]
    have hsend (st : Stream) (sched : Nat) (late : Bool) (e p : List Byte) :=
      State.sendActuation_same s id st sched late e p (within_self _) s.same_self
    refine ⟨_, rfl, ?_⟩
    split
    · exact ⟨rfl, rfl⟩
    split
    · exact ⟨(hsend ..).queues_eq (by decide), (hsend ..).mem_eq (by decide)⟩
    split
    · exact ⟨(hsend ..).queues_eq (by decide), (hsend ..).mem_eq (by decide)⟩
    · exact ⟨rfl, rfl⟩
  rw [e]
  refine ⟨?_, hmem⟩
  rw [State.freeFrame_pos, State.queue, hqueues]
  rfl

theorem State.takeActuation_discards (h : st.taken = some k.step ∨ actForm (s.entryBytes st.queue k.start) k.size = false) :
    s.takeActuation id k =
      ((s.setStream id { st with taken := some k.step, c3 := st.c3 + 1 }).countLate).freeFrame st.queue k := by
  simp only [State.takeActuation, hst]
  rw [if_pos (by simpa using h)]
  rfl

variable (htaken : st.taken ≠ some k.step) (hform : actForm (s.entryBytes st.queue k.start) k.size = true)
include htaken hform

theorem State.takeActuation_sends {late : Bool} (hlate : k.late (k.stepTime + st.offset * 10) = late)
    (h : late = false ∨ bitOf st.flags 3 = true) : s.takeActuation id k =
      (s.sendActuation id { st with taken := some k.step } (k.stepTime + st.offset * 10) late (s.entryBytes st.queue k.start)
        (s.packetPayload st.queue k)).freeFrame st.queue k := by
  simp only [State.takeActuation, hst]
  rw [if_neg (by simp [htaken, hform])]
  cases late with
  | false => rw [if_pos (by simp [hlate])]; rfl
  | true =>
    rw [if_neg (by simp [hlate]), if_pos (by simpa using h)]
    rfl

theorem State.takeActuation_drops (hlate : k.late (k.stepTime + st.offset * 10) = true) (h : bitOf st.flags 3 = false) :
    s.takeActuation id k =
      ((s.setStream id { st with taken := some k.step, c2 := st.c2 + 1 }).countLate).freeFrame st.queue k := by
  simp only [State.takeActuation, hst]
  rw [if_neg (by simp [htaken, hform]), if_neg (by simp [hlate]), if_neg (by simp [h])]
  rfl
end

theorem exec_actuationFrameSend (hid : id < 4096) (hst : Tab.find? s.streams id = some st) (htype : st.type = 2)
    (hstopped : s.tick.stopped = none) : exec (.actuationFrameSend id) s = .next
      (((s.at_ (s.tick.record.time + st.offset * 10)).queue st.queue).frames.foldl (fun s k => s.takeActuation id k)
        (s.at_ (s.tick.record.time + st.offset * 10))) := by
  change execActuationFrameSend id s = _
  rw [execActuationFrameSend, ifUnit_true (decide_eq_true hid), hst]
  simp [htype, hstopped]

theorem exec_actuationFrameSend_stopped (hid : id < 4096) (hst : Tab.find? s.streams id = some st)
    (hstopped : s.tick.stopped.isSome = true) : exec (.actuationFrameSend id) s = .next s := by
  change execActuationFrameSend id s = _
  rw [execActuationFrameSend, ifUnit_true (decide_eq_true hid), hst]
  simp [hstopped]

/-- Settles O21: what one frame does by its form, its step and its time; and the frames of a queue one after another. -/
theorem actuationFramesFollowTheLatePolicy : Obligations.ActuationFramesFollowTheLatePolicy := by
  unfold Obligations.ActuationFramesFollowTheLatePolicy
  refine ⟨fun s id st k hst => ?_, fun s id st hid hst htype =>
    ⟨exec_actuationFrameSend hid hst htype, exec_actuationFrameSend_stopped hid hst⟩⟩
  intro t e payload sched late seq
  obtain ⟨hpos, hmem⟩ := State.takeActuation_queue (k := k) hst
  refine ⟨hpos, hmem, fun h => ?discards, fun htaken hform => ⟨fun h => ?sends, fun hlate h => ?drops⟩⟩
  case discards =>
    have ht : t = _ := State.takeActuation_discards hst h
    rw [ht]
    exact ⟨_, Tab.find?_put_same _ _ _, rfl, rfl, rfl, rfl⟩
  case drops =>
    have ht : t = _ := State.takeActuation_drops hst htaken hform hlate h
    rw [ht]
    exact ⟨_, Tab.find?_put_same _ _ _, rfl, rfl, rfl, rfl, rfl⟩
  case sends =>
    obtain ⟨ends, xs, m, hsend, hlen, hxs⟩ := s.sendActuation_spec id { st with taken := some k.step } sched late e payload
    have ht : t = _ := (State.takeActuation_sends hst htaken hform rfl h).trans (congrArg (fun u => u.freeFrame st.queue k) hsend)
    rw [ht]
    refine ⟨_, Tab.find?_put_same _ _ _, rfl, rfl, rfl, rfl, xs, rfl, hlen, fun x hx => ?_⟩
    obtain ⟨p, at_, hp, hat, hx⟩ := hxs x hx
    exact ⟨p, at_, (List.mem_filter.mp hp).2, hat, hx⟩

end Sys2Proof.Machine

/-! The tick in progress through what a write does beside memory (R54, R55, R369), the end of a record and the start of a step: the
tick that fires next, the number of the record, and the step that runs. -/
namespace Sys2Proof.Machine

/-- The same tick fires next, and the record in progress is of the same tick. -/
structure TickSt.SameTick (t z : TickSt) : Prop where
  next : t.next = z.next
  number : t.record.number = z.record.number

/-- Beside it, the same step runs or waits for its rerun. -/
structure TickSt.SameStep (t z : TickSt) : Prop extends TickSt.SameTick t z where
  running : t.stepRunning = z.stepRunning
  stepTick : t.stepTick = z.stepTick
  rerun : t.rerun = z.rerun

theorem TickSt.SameTick.rfl {t : TickSt} : t.SameTick t := ⟨.refl _, .refl _⟩

theorem TickSt.SameTick.trans {t y z : TickSt} (h : t.SameTick y) (h' : y.SameTick z) : t.SameTick z :=
  ⟨h.next.trans h'.next, h.number.trans h'.number⟩

theorem TickSt.SameStep.rfl {t : TickSt} : t.SameStep t := ⟨.rfl, .refl _, .refl _, .refl _⟩

theorem TickSt.SameStep.of_eq {t z : TickSt} (h : t = z) : t.SameStep z := h ▸ .rfl

theorem TickSt.SameStep.trans {t y z : TickSt} (h : t.SameStep y) (h' : y.SameStep z) : t.SameStep z :=
  ⟨h.toSameTick.trans h'.toSameTick, h.running.trans h'.running, h.stepTick.trans h'.stepTick, h.rerun.trans h'.rerun⟩

variable {s : State}

theorem State.excursion_sameStep (i : Nat) : (s.excursion i).tick.SameStep s.tick := ⟨⟨rfl, rfl⟩, rfl, rfl, rfl⟩

theorem State.recordFlag_sameStep (i : Nat) : (s.recordFlag i).tick.SameStep s.tick := ⟨⟨rfl, rfl⟩, rfl, rfl, rfl⟩

-- a write

theorem State.commitWrite_tick (w : WaitWrite) : (s.commitWrite w).1.tick = s.tick :=
  (State.commitWrite_same s w (within_self _) s.same_self).tick_eq (by decide)

theorem State.triggerPeers_tick (op addr word : Nat) : (s.triggerPeers op addr word).tick = s.tick :=
  (State.triggerPeers_same s op addr word (within_self _) s.same_self).tick_eq (by decide)

theorem State.countStall_tick (w : WaitWrite) : (s.countStall w).tick = s.tick :=
  (State.countStall_same s w (within_self _) s.same_self).tick_eq (by decide)

/-- A full undo reserve marks the record and takes back an abort that was decided (R55). -/
theorem State.undoFills_sameStep : s.undoFills.tick.SameStep s.tick := by
  unfold State.undoFills
  dsimp only
  split
  · rw [State.triggerPeers_tick]
    exact ⟨⟨rfl, rfl⟩, rfl, rfl, rfl⟩
  · exact ⟨⟨rfl, rfl⟩, rfl, rfl, rfl⟩

theorem State.serveWrite_sameStep (w : WaitWrite) : (s.serveWrite w).1.tick.SameStep s.tick := by
  unfold State.serveWrite
  split
  · exact .of_eq (State.commitWrite_tick w)
  · exact (TickSt.SameStep.of_eq (State.commitWrite_tick w)).trans State.undoFills_sameStep
  · exact .rfl
  · exact State.excursion_sameStep 3
  · exact (State.excursion_sameStep 3).trans (.of_eq (State.countStall_tick w))
  · exact .rfl

theorem State.serveWrites_sameStep (ws : List WaitWrite) : ∀ s : State, (s.serveWrites ws).tick.SameStep s.tick := by
  induction ws with
  | nil => exact fun s => .rfl
  | cons w ws ih =>
    intro s
    have hw := State.serveWrite_sameStep (s := s) w
    unfold State.serveWrites
    split
    · exact ih _
    split
    case h_1 s1 e => exact (ih s1).trans (by rw [e] at hw; exact hw)
    case h_2 s1 w1 e => exact (ih _).trans (by rw [e] at hw; exact hw)

theorem State.writePiece_sameStep (o : Origin) (tag : Option Tag) (a : Nat) (bs : List Byte) :
    (s.writePiece o tag a bs).tick.SameStep s.tick := by
  unfold State.writePiece
  split
  · exact State.serveWrites_sameStep _ s
  split
  · exact State.serveWrites_sameStep _ s
  · exact .of_eq ((State.store_same o a bs tag (within_self _) s.same_self).tick_eq (by decide))

theorem State.write_sameStep (o : Origin) (a : Nat) (bs : List Byte) : (s.write o a bs).tick.SameStep s.tick := by
  unfold State.write
  induction tilePieces a bs generalizing s with
  | nil => exact .rfl
  | cons p ps ih => exact ih.trans (State.writePiece_sameStep o none p.1 p.2)

-- the boundary of a tick

theorem State.closeRecord_sameStep : s.closeRecord.tick.SameStep s.tick := by
  unfold State.closeRecord
  split
  · exact .rfl
  · dsimp only
    split
    · exact (State.write_sameStep _ _ _).trans ⟨⟨rfl, rfl⟩, rfl, rfl, rfl⟩
    · exact ⟨⟨rfl, rfl⟩, rfl, rfl, rfl⟩

theorem State.applyChanges_tick (k : Nat) : (s.applyChanges k).tick = s.tick :=
  (State.applyChanges_same s k (within_self _) s.same_self).tick_eq (by decide)

theorem State.applyTestSetting_tick : s.applyTestSetting.tick = s.tick :=
  (State.applyTestSetting_same s (within_self _) s.same_self).tick_eq (by decide)

/-- A fold of updates of registers leaves the tick. -/
theorem State.foldl_tick {α : Type} {f : State → α → State} (hf : ∀ t x, (f t x).same 2 t) (l : List α) :
    (l.foldl f s).tick = s.tick := by
  induction l generalizing s with
  | nil => rfl
  | cons x r ih => exact ih.trans ((hf s x).tick_eq (by decide))

/-- Lists that move change registers and the tests; where one has moved, the record says so (R273). -/
theorem State.moveMarrow_sameStep : s.moveMarrow.tick.SameStep s.tick := by
  unfold State.moveMarrow
  dsimp only
  split
  case' isFalse => apply TickSt.SameStep.trans (State.excursion_sameStep 2)
  all_goals
    apply TickSt.SameStep.of_eq
    rw [State.foldl_tick (fun t m => State.refreshMarrow_same _ _ (by decide) (State.moveList_same t _ _ (by decide) t.same_self)),
      State.onTests_tick,
      State.foldl_tick (fun t m => State.refreshMarrow_same _ _ (by decide) (State.evacuate_same t _ _ (by decide) t.same_self)),
      State.onTests_tick]

/-- What the boundary of tick k leaves of the tick that ends: the step that runs, or waits for its rerun. -/
structure State.AtTick (s : State) (k : Nat) (z : TickSt) : Prop where
  next : s.tick.next = k + 1
  number : s.tick.record.number = k
  running : s.tick.stepRunning = z.stepRunning
  stepTick : s.tick.stepTick = z.stepTick
  rerun : s.tick.rerun = z.rerun

theorem State.AtTick.of_sameStep {t : State} {k : Nat} {z : TickSt} (h : s.AtTick k z) (ht : t.tick.SameStep s.tick) :
    t.AtTick k z :=
  ⟨ht.next.trans h.next, ht.number.trans h.number, ht.running.trans h.running, ht.stepTick.trans h.stepTick,
    ht.rerun.trans h.rerun⟩

/-- The device as tick k fires, with the tick before closed and no change yet in effect. -/
def State.enterTick (s : State) (k : Nat) : State :=
  let s2 := ((s.closeRecord.setFld Fld.running 1).setFld Fld.tickNumber k).onTick
    (fun t => { t with next := k + 1, pointPassed := false })
  if s2.fld Fld.state = 3 then s2.setDevState 4 else s2

theorem State.enterTick_tick (k : Nat) :
    (s.enterTick k).tick = { s.closeRecord.tick with next := k + 1, pointPassed := false } := by
  unfold State.enterTick
  dsimp only
  split <;> rfl

theorem State.boundary_eq (k : Nat) : s.boundary k =
    ((((s.enterTick k).applyChanges k).applyTestSetting).openRecord k).moveMarrow.latchQueues := rfl

/-- At the boundary of tick k the next tick is k + 1 and the record of tick k begins (R42, R50). -/
theorem State.boundary_atTick (k : Nat) : (s.boundary k).AtTick k s.tick := by
  have hclose := State.closeRecord_sameStep (s := s)
  have htick : (((s.enterTick k).applyChanges k).applyTestSetting).tick =
      { s.closeRecord.tick with next := k + 1, pointPassed := false } := by
    rw [State.applyTestSetting_tick, State.applyChanges_tick, State.enterTick_tick]
  have hopen : ((((s.enterTick k).applyChanges k).applyTestSetting).openRecord k).AtTick k s.tick := by
    unfold State.openRecord
    refine ⟨?next, rfl, ?running, ?stepTick, ?rerun⟩
    case next => exact congrArg TickSt.next htick
    case running => exact (congrArg TickSt.stepRunning htick).trans hclose.running
    case stepTick => exact (congrArg TickSt.stepTick htick).trans hclose.stepTick
    case rerun => exact (congrArg TickSt.rerun htick).trans hclose.rerun
  rw [State.boundary_eq]
  exact hopen.of_sameStep ((TickSt.SameStep.of_eq rfl).trans State.moveMarrow_sameStep)

-- the start of a step

/-- A step that ends at once notes its time in its record (R50). -/
theorem State.checkStepEnd_sameTick : s.checkStepEnd.tick.SameTick s.tick := by
  unfold State.checkStepEnd
  split
  case isFalse => exact .rfl
  dsimp only
  split
  · exact ⟨rfl, rfl⟩
  split
  · exact (State.write_sameStep _ _ _).toSameTick.trans (by split <;> exact ⟨rfl, rfl⟩)
  · split <;> exact ⟨rfl, rfl⟩

theorem State.startStep_sameTick : s.startStep.tick.SameTick s.tick := by
  have hseqs : s.startSeqs.latchStart.tick = s.tick :=
    ((State.latchStart_same _ (within_self _) (State.same_self _)).tick_eq (by decide)).trans
      ((State.startSeqs_same s (within_self _) s.same_self).tick_eq (by decide))
  have hnext : s.startSeqs.latchStart.tick.next = s.tick.next := by rw [hseqs]
  have hnumber : s.startSeqs.latchStart.tick.record.number = s.tick.record.number := by rw [hseqs]
  unfold State.startStep
  dsimp only
  refine State.checkStepEnd_sameTick.trans ?_
  split
  case' isTrue => apply TickSt.SameTick.trans (State.excursion_sameStep 2).toSameTick
  all_goals
    rw [State.foldl_tick (fun t l => State.refreshPhases_same t l (by decide) t.same_self),
      State.foldl_tick (fun t p => State.releasePhase_same t p (by decide) t.same_self)]
    exact ⟨hnext, hnumber⟩

theorem State.startOrHalt_sameTick (k : Nat) : (s.startOrHalt k).tick.SameTick s.tick := by
  unfold State.startOrHalt
  split
  · exact ⟨rfl, rfl⟩
  · exact State.startStep_sameTick.trans ⟨rfl, rfl⟩

end Sys2Proof.Machine

/-! O16: the tick fires, stops and takes changes and halts at its boundaries, and phases are released, warned of and late (R42 to
R56, R69, R158, R457). -/
namespace Sys2Proof.Machine

variable {s : State}

-- TICK

theorem State.stopAt_later {k : Nat} (h : ∀ j, s.tick.stopAt = some j → k < j) :
    ¬ s.tick.stopAt.any (fun t => decide (t ≤ k)) = true := by
  cases hs : s.tick.stopAt with
  | none => simp
  | some j => simpa using h j hs

/-- The overrun decision of the tick that ends, where its point has not passed before (R51). -/
def State.decidePending (s : State) : State := if s.fld Fld.running = 1 ∧ !s.tick.pointPassed then s.decideOverrun else s

/-- Tick k fires under the decision `act` on the step before: no step starts, the step is taken back or its rerun waits, or a step
starts unless a halt holds it (R52, R53, R56, R161). -/
def State.fireTick (s : State) (act : Option Nat) (k : Nat) : State :=
  if s.tick.stopped.isSome then (s.boundary k).skipTick
  else if act = some 1 ∧
      ((s.tick.rerun || (s.fld Fld.running = 1 && s.tick.stepTick = s.tick.record.number : Bool)) ∨ s.tick.stepRunning) then
    ((if s.tick.rerun then s.recordFlag 2 else s.abortAt).boundary k).recordFlag 3
  else if act.isSome ∨ s.tick.stepRunning then (s.boundary k).skipTick
  else if s.tick.rerun then (s.boundary k).recordFlag 3
  else (s.boundary k).startOrHalt k

/-- The decision taken up: none is left for the next tick. -/
def State.clearOverrun (s : State) : State := s.onTick (fun t => { t with overrun := none })

theorem State.clearOverrun_none (h : s.tick.overrun = none) : s.clearOverrun = s := by
  unfold State.clearOverrun State.onTick
  rw [← h]

/-- The boundary with a flag in the new record. -/
theorem State.boundary_flagged (k i : Nat) : ((s.boundary k).recordFlag i).AtTick k s.tick :=
  (State.boundary_atTick k).of_sameStep (State.recordFlag_sameStep i)

theorem State.recordFlag_flag (i : Nat) : bitOf (s.recordFlag i).tick.record.flags i = true := bitOf_setBit _ i

/-- Tick k fires at its boundary in each case: the next tick is k + 1, and the record is that of tick k. -/
theorem State.fireTick_fires (act : Option Nat) (k : Nat) :
    (s.fireTick act k).tick.next = k + 1 ∧ (s.fireTick act k).tick.record.number = k := by
  have hflag (s : State) (i : Nat) : ((s.boundary k).recordFlag i).tick.next = k + 1 ∧
      ((s.boundary k).recordFlag i).tick.record.number = k :=
    ⟨(State.boundary_flagged k i).next, (State.boundary_flagged k i).number⟩
  have hboundary := State.boundary_atTick (s := s) k
  have hstart := State.startOrHalt_sameTick (s := s.boundary k) k
  unfold State.fireTick
  split
  · exact hflag s 1
  split
  · exact hflag _ 3
  split
  · exact hflag s 1
  split
  · exact hflag s 3
  · exact ⟨hstart.next.trans hboundary.next, hstart.number.trans hboundary.number⟩

section
variable (harmed : s.armed = true) (hstop : ∀ k, s.tick.stopAt = some k → s.tick.next < k)
include harmed hstop

theorem exec_tick : exec .tick s = .next ((s.at_ (s.tickTime s.tick.next)).decidePending.clearOverrun.fireTick
    (s.at_ (s.tickTime s.tick.next)).decidePending.tick.overrun s.tick.next) := by
  change execTick s = _
  unfold execTick
  rw [if_neg (by simp [harmed, State.stopAt_later hstop])]
  rfl

theorem tick_fires : ∃ t, exec .tick s = .next t ∧ t.tick.next = s.tick.next + 1 ∧ t.tick.record.number = s.tick.next :=
  ⟨_, exec_tick harmed hstop, State.fireTick_fires _ _⟩

variable (hpoint : s.tick.pointPassed = true)
include hpoint

/-- Past the overrun point the decision is what it was. -/
theorem exec_tick_decided : exec .tick s =
    .next ((s.at_ (s.tickTime s.tick.next)).clearOverrun.fireTick s.tick.overrun s.tick.next) := by
  have hdecided : (s.at_ (s.tickTime s.tick.next)).decidePending = s.at_ (s.tickTime s.tick.next) := if_neg (by simp [hpoint])
  rw [exec_tick harmed hstop, hdecided, State.at_tick]

variable (hstopped : s.tick.stopped = none)
include hstopped

theorem tick_starts (hover : s.tick.overrun = none) (hstep : s.tick.stepRunning = false) (hrerun : s.tick.rerun = false) :
    exec .tick s = .next (((s.at_ (s.tickTime s.tick.next)).boundary s.tick.next).startOrHalt s.tick.next) := by
  rw [exec_tick_decided harmed hstop hpoint, State.clearOverrun_none (by rw [State.at_tick, hover])]
  simp [State.fireTick, hstopped, hover, hstep, hrerun]

theorem tick_skips (hover : s.tick.overrun = some 0) (hstep : s.tick.stepRunning = true) : ∃ t, exec .tick s = .next t ∧
    bitOf t.tick.record.flags 1 = true ∧ t.tick.stepRunning = true ∧ t.tick.stepTick = s.tick.stepTick := by
  let u := (s.at_ (s.tickTime s.tick.next)).clearOverrun
  have hu : u.tick = { s.tick with overrun := none } := by simp [u, State.clearOverrun]
  have hfire : u.fireTick s.tick.overrun s.tick.next = (u.boundary s.tick.next).skipTick := by
    simp [State.fireTick, hu, hstopped, hover, hstep]
  have hb := State.boundary_flagged (s := u) s.tick.next 1
  refine ⟨_, (exec_tick_decided harmed hstop hpoint).trans (congrArg _ hfire), State.recordFlag_flag 1, ?_, ?_⟩
  · exact hb.running.trans (by rw [hu, hstep])
  · exact hb.stepTick.trans (by rw [hu])

theorem tick_aborts (hover : s.tick.overrun = some 1) (hstep : s.tick.stepRunning = true) (hrerun : s.tick.rerun = false) :
    ∃ t, exec .tick s = .next t ∧ bitOf t.tick.record.flags 3 = true ∧ t.tick.stepRunning = false ∧ t.tick.rerun = true := by
  let u := (s.at_ (s.tickTime s.tick.next)).clearOverrun
  have hu : u.tick = { s.tick with overrun := none } := by simp [u, State.clearOverrun]
  have hfire : u.fireTick s.tick.overrun s.tick.next = (u.abortAt.boundary s.tick.next).recordFlag 3 := by
    simp [State.fireTick, hu, hstopped, hover, hstep, hrerun]
  have hb := State.boundary_flagged (s := u.abortAt) s.tick.next 3
  exact ⟨_, (exec_tick_decided harmed hstop hpoint).trans (congrArg _ hfire), State.recordFlag_flag 3, hb.running, hb.rerun⟩
end

-- stopping, changes and halts

theorem exec_tickStopBoundary {k : Nat} (hstop : s.tick.stopAt = some k) (hk : k ≤ s.tick.next) :
    exec .tickStopBoundary s = .next (s.at_ (s.tickTime s.tick.next)).stopTick := by
  change execTickStopBoundary s = _
  rw [execTickStopBoundary, if_pos (by simpa [hstop] using hk)]

theorem tckCtrlRunClear_stops (hrun : s.fld Fld.run = 1) : ∃ t, exec .tckCtrlRunClear s = .next t ∧ t.fld Fld.run = 0 ∧
    t.fld Fld.stopPending = 1 ∧ (∃ k, t.tick.stopAt = some k ∧ k ≤ s.tick.next) ∧ t.mem = s.mem ∧ t.queues = s.queues := by
  let u := (s.setFld Fld.run 0).setFld Fld.stopPending 1
  have hclear : u.fld Fld.run = 0 :=
    (State.fld_setFld_other (s.setFld Fld.run 0) Fld.stopPending Fld.run 1 (by decide) (by decide) (by decide) (by decide)).trans
      (State.fld_setFld_same s Fld.run 0 (by decide) (by decide))
  have hpending : u.fld Fld.stopPending = 1 := State.fld_setFld_same (s.setFld Fld.run 0) Fld.stopPending 1 (by decide) (by decide)
  refine ⟨_, congrArg Host.Outcome.next (if_pos hrun), hclear, hpending, ?_, rfl, rfl⟩
  rw [State.onTick_tick]
  dsimp only
  split
  · exact ⟨_, rfl, Nat.min_le_right _ _⟩
  · exact ⟨_, rfl, Nat.le_refl _⟩

theorem State.applyChanges_changes (k : Nat) :
    (s.applyChanges k).changes = s.changes.filter (fun c => !decide (c.1 ≤ k)) := by
  have hkeep (t : State) (c : Nat × Change) : (t.applyChange c.2).changes = t.changes :=
    (State.applyChange_same t c.2 (within_self _) t.same_self).changes_eq (by decide)
  have hfold (l : List (Nat × Change)) : ∀ t : State, (l.foldl (fun s c => s.applyChange c.2) t).changes = t.changes := by
    induction l with
    | nil => exact fun _ => rfl
    | cons c r ih => exact fun t => (ih _).trans (hkeep t c)
  exact hfold _ _

theorem effectiveTickReached_applies (harmed : s.armed = true) (hdue : ∃ c ∈ s.changes, c.1 ≤ s.tick.next) :
    ∃ t, exec .effectiveTickReached s = .next t ∧ (∀ c ∈ t.changes, s.tick.next < c.1) := by
  refine ⟨_, congrArg Host.Outcome.next (if_pos (by simpa [harmed] using hdue)), fun c hc => ?_⟩
  rw [State.applyChanges_changes] at hc
  simpa using (List.mem_filter.mp hc).2

theorem stepHaltTick_halts (harmed : s.armed = true) (hhalt : s.haltNow s.tick.next = true) (hstep : s.tick.stepRunning = false)
    (hrerun : s.tick.rerun = false) : ∃ t, exec .stepHaltTick s = .next t ∧ t.fld Fld.halted = 1 ∧ t.tick.halted = true :=
  ⟨_, congrArg Host.Outcome.next (if_pos (by simp [harmed, hhalt, hstep, hrerun])),
    State.fld_setFld_same _ _ _ (by decide) (by decide), rfl⟩

theorem stepResumeTick_resumes (harmed : s.armed = true) (hhalted : s.tick.halted = true) (hhalt : s.haltNow s.tick.next = false) :
    ∃ t, exec .stepResumeTick s = .next t ∧ t.fld Fld.halted = 0 ∧ t.tick.halted = false :=
  ⟨_, congrArg Host.Outcome.next (if_pos (by simp [harmed, hhalted, hhalt])),
    State.fld_setFld_same _ _ _ (by decide) (by decide), rfl⟩

-- phases

/-- Noting something in the record at a later time changes the time and the record. -/
theorem State.at_onRecord_frame (t : Nat) (f : TickRec → TickRec) :
    (∀ k, k ≠ Reg.tckTime → ((s.at_ t).onRecord f).reg k = s.reg k) ∧
    { (s.at_ t).onRecord f with tick := s.tick, regs := s.regs } = s := by
  refine ⟨fun k hk => State.at_reg hk, ?_⟩
  rw [State.at_eq]
  rfl

section
variable {p : Nat} (hp : p < 16)
include hp

theorem exec_phaseRelease (hstep : s.tick.stepRunning = true) (hvalid : s.phaseValid p = true) :
    exec (.phaseRelease p) s = .next ((s.at_ (s.stepAt (s.fld (Fld.phaseStart p)))).releasePhase p) := by
  change execPhaseRelease p s = _
  rw [execPhaseRelease, ifUnit_true (decide_eq_true hp), if_pos (by simp [hstep, hvalid])]

variable (hopen : s.phaseOpen p = true)
include hopen

theorem phaseWarning_warns (hfrac : s.fld Fld.warnFrac ≠ 0) : ∃ t, exec (.phaseWarning p) s = .next t ∧
    bitOf t.tick.record.warning p = true ∧ (∀ k, k ≠ Reg.tckTime → t.reg k = s.reg k) ∧
    { t with tick := s.tick, regs := s.regs } = s :=
  ⟨_, (ifUnit_true (decide_eq_true hp)).trans (congrArg Host.Outcome.next (if_pos ⟨hfrac, hopen⟩)), bitOf_setBit _ p,
    State.at_onRecord_frame _ _⟩

theorem phaseLate_records : ∃ t, exec (.phaseLate p) s = .next t ∧ bitOf t.tick.record.late p = true ∧
    (∀ k, k ≠ Reg.tckTime → t.reg k = s.reg k) ∧ { t with tick := s.tick, regs := s.regs } = s :=
  ⟨_, (ifUnit_true (decide_eq_true hp)).trans (congrArg Host.Outcome.next (if_pos hopen)), bitOf_setBit _ p,
    State.at_onRecord_frame _ _⟩
end

/-- Settles O16: the tick, its boundary, and the phases of its step. -/
theorem ticksAndPhasesFollowTheirTimes : Obligations.TicksAndPhasesFollowTheirTimes := by
  unfold Obligations.TicksAndPhasesFollowTheirTimes
  refine ⟨fun s harmed hstop => ⟨tick_fires harmed hstop, fun hpoint hstopped => ⟨tick_starts harmed hstop hpoint hstopped,
      tick_skips harmed hstop hpoint hstopped, tick_aborts harmed hstop hpoint hstopped⟩⟩,
    fun s => ⟨fun k => exec_tickStopBoundary, tckCtrlRunClear_stops, effectiveTickReached_applies, stepHaltTick_halts,
      stepResumeTick_resumes⟩,
    fun s p hp => ⟨exec_phaseRelease hp, fun hopen => ⟨phaseWarning_warns hp hopen, phaseLate_records hp hopen⟩⟩⟩

end Sys2Proof.Machine

/-! O17: the overrun decision, what peers say about overruns, faults and slowdowns, and the end of a restoration (R49 to R58,
R161). -/
namespace Sys2Proof.Machine

variable {s : State} {tx : Tx}

theorem exec_overrunDecision (hrun : s.fld Fld.running ≠ 0) (hpoint : s.tick.pointPassed = false) :
    exec .overrunDecision s = .next (s.at_ (s.tickTime s.tick.next - s.fld Fld.guard * 10)).decideOverrun := by
  change execOverrunDecision s = _
  rw [execOverrunDecision, if_neg (by simp [hrun, hpoint])]

theorem exec_restorationDone (hrerun : s.tick.rerun = true) (hrun : s.fld Fld.running ≠ 0) (hstopped : s.tick.stopped = none)
    (hstep : s.tick.stepRunning = false) : exec .restorationDone s = .next s.restoreUndo.startStep := by
  change execRestorationDone s = _
  rw [execRestorationDone, if_neg (by simp [hrerun, hrun, hstopped, hstep])]

-- triggers from peers

/-- A trigger of a peer of this job, for this device, does what its operation says (R310, R460). -/
theorem State.trigger_fromPeer {op : Nat} {f : State → State} (htype : tx.type = 0xA) (hdst : tx.dst = s.gdn)
    (hpeer : s.fromPeer tx = true) (hop : tx.op = op) : s.trigger tx op f = f s := by
  rw [State.trigger, State.arrives, if_pos hdst, if_pos ⟨htype, hop, hpeer⟩]

theorem State.control_fromPeer {op : Nat} {f : State → State} (htype : tx.type = 8) (hdst : tx.dst = s.gdn)
    (hpeer : s.fromPeer tx = true) (hop : tx.op = op) : s.control tx op f = f s := by
  rw [State.control, State.arrives, if_pos hdst, if_pos ⟨htype, hop, hpeer⟩]

theorem State.policy_roomy (h : s.memory.undoFull = false) : s.policy = if s.fld Fld.overrunPolicy = 1 then 1 else 0 := by
  simp [State.policy, h]

theorem overrunTrigger_applies (htype : tx.type = 0xA) (hdst : tx.dst = s.gdn) (hpeer : s.fromPeer tx = true) (hop : tx.op = 0)
    (hrun : s.fld Fld.running ≠ 0) (hstopped : s.tick.stopped = none) (hidle : s.tick.overrun = none)
    (hroom : s.memory.undoFull = false) : ∃ t, exec (.overrunTrigger tx) s = .next t ∧
      t.tick.overrun = some (if tx.word % 2 = 1 then 0 else if s.fld Fld.overrunPolicy = 1 then 1 else 0) ∧
      t.regs = s.regs ∧ t.mem = s.mem := by
  refine ⟨s.onTick (fun t => { t with overrun := some (if tx.word % 2 = 1 then 0 else s.policy) }), ?_, ?_, rfl, rfl⟩
  · change execOverrunTrigger tx s = _
    rw [execOverrunTrigger, State.trigger_fromPeer htype hdst hpeer hop, if_neg (by simp [hrun, hstopped])]
    simp [State.onTick, hidle, hroom]
  · rw [← State.policy_roomy hroom]
    rfl

/-- An event that is posted leaves the tick and DEV_STATE. -/
theorem State.postEvent_tick (e : Event) : (s.postEvent e).tick = s.tick :=
  (State.postEvent_same s e (within_self _) s.same_self).tick_eq (by decide)

theorem State.postEvent_state (e : Event) : (s.postEvent e).fld Fld.state = s.fld Fld.state :=
  State.fld_congr (State.postEvent_reg Reg.still_devState.tail Reg.still_devState.held Reg.still_devState.lost e)

/-- A device that enters the job-stopped state notes whose fault began it and shows it in DEV_STATE (R161, R392). -/
theorem State.enterStopped_shows (src : Nat) (hstopped : s.tick.stopped = none) (h6 : s.fld Fld.state ≠ 6)
    (h8 : s.fld Fld.state ≠ 8) : (s.enterStopped src).tick.stopped = some src ∧ (s.enterStopped src).fld Fld.state = 5 := by
  unfold State.enterStopped
  rw [if_neg (by simp [hstopped, h6, h8])]
  have htold (s1 : State) (e : Event) : (((s1.triggerPeers 2 0 src).setDevState 5).postEvent e).tick = s1.tick :=
    (State.postEvent_tick e).trans (State.triggerPeers_tick 2 0 src)
  have hstate (s1 : State) (e : Event) : ((s1.setDevState 5).postEvent e).fld Fld.state = 5 :=
    (State.postEvent_state e).trans (State.setDevState_state 5)
  split
  all_goals exact ⟨congrArg TickSt.stopped (htold _ _), hstate _ _⟩

theorem jobStoppedTrigger_stops (htype : tx.type = 0xA) (hdst : tx.dst = s.gdn) (hpeer : s.fromPeer tx = true) (hop : tx.op = 2)
    (hjob : s.job.isSome = true) (hstopped : s.tick.stopped = none) (h6 : s.fld Fld.state ≠ 6) (h8 : s.fld Fld.state ≠ 8) :
    ∃ t, exec (.jobStoppedTrigger tx) s = .next t ∧ t.tick.stopped = some (tx.word % 2 ^ 16) ∧ t.fld Fld.state = 5 := by
  refine ⟨s.enterStopped (tx.word % 2 ^ 16), ?_, State.enterStopped_shows _ hstopped h6 h8⟩
  change execJobStoppedTrigger tx s = _
  rw [execJobStoppedTrigger, State.trigger_fromPeer htype hdst hpeer hop, if_pos hjob]

-- slow notices

theorem slowNotice_replaces (htype : tx.type = 8) (hop : tx.op = 0) (hdst : tx.dst = s.gdn) (hpeer : s.fromPeer tx = true) :
    ∃ t, exec (.slowNotice tx) s = .next t ∧
      (∀ n, n ∈ t.slow ↔ (n ∈ s.slow ∧ ¬(n.src = tx.src ∧ n.cause = tx.word / 256 % 4)) ∨
        (tx.word % 256 ≠ 0x10 ∧ n = ⟨tx.src, tx.word % 256, tx.word / 256 % 4, s.now + us 250⟩)) := by
  refine ⟨_, congrArg Host.Outcome.next (State.control_fromPeer htype hdst hpeer hop), fun n => ?_⟩
  have hkept : n ∈ s.slow.filter (fun n => !(n.src = tx.src && n.cause = tx.word / 256 % 4)) ↔
      n ∈ s.slow ∧ ¬(n.src = tx.src ∧ n.cause = tx.word / 256 % 4) := by
    rw [List.mem_filter, Bool.not_eq_true', ← Bool.not_eq_true, Bool.and_eq_true, decide_eq_true_eq, decide_eq_true_eq]
  change n ∈ (if tx.word % 256 = 0x10 then _ else _) ↔ _
  split
  case isTrue h =>
    rw [hkept]
    exact ⟨.inl, fun hn => hn.resolve_right fun hnew => hnew.1 h⟩
  case isFalse h =>
    rw [List.mem_append, hkept, List.mem_singleton, and_iff_right h]

theorem slowNoticeExpiry_clears {src : Nat} {n : Slow} (hfind : s.slow.find? (fun n => n.src = src) = some n)
    (hn : n.expiry < 2 ^ 64) : ∃ t, exec (.slowNoticeExpiry src) s = .next t ∧
      n.expiry ≤ t.now ∧ n ∉ t.slow ∧ (∀ m ∈ s.slow, m.src ≠ src → m ∈ t.slow) := by
  have hsrc : n.src = src := by simpa using List.find?_some hfind
  have hnow : n.expiry ≤ (s.at_ n.expiry).now := by
    rw [State.now_at_ _ _ hn]
    exact Nat.le_max_right _ _
  refine ⟨{ s.at_ n.expiry with slow := s.slow.filter (fun m => !(m.src = src && decide (m.expiry ≤ (s.at_ n.expiry).now))) },
    ?_, hnow, ?_, ?_⟩
  · change execSlowNoticeExpiry src s = _
    simp [execSlowNoticeExpiry, hfind]
  · simp [hsrc, hnow]
  · intro m hm hne
    simp [hm, hne]

/-- Settles O17: the policy at a peer's trigger, the job-stopped state, and the table of notices in force. -/
theorem peersStopAndSlowTheTick : Obligations.PeersStopAndSlowTheTick := by
  unfold Obligations.PeersStopAndSlowTheTick
  refine ⟨fun s => ⟨exec_overrunDecision, fun tx htype hdst hpeer => ⟨overrunTrigger_applies htype hdst hpeer,
    jobStoppedTrigger_stops htype hdst hpeer⟩, exec_restorationDone⟩, fun s => ⟨fun tx htype hop hdst hpeer =>
    slowNotice_replaces htype hop hdst hpeer, fun src n => slowNoticeExpiry_clears, fun s1 h => ?repeats⟩⟩
  case repeats =>
    subst h
    rfl

end Sys2Proof.Machine

/-! O58: rounding in a unit above the value's own (R85, R86). What each mode takes, as a quotient, and from it how far the result
lies from the magnitude. -/
namespace Sys2Proof.Machine

variable {rnd m d draw : Nat} {neg : Bool} {e k : Int}

/-- A unit at or below the exponent divides the magnitude: nothing is rounded. -/
theorem roundMag_finer (h : k ≤ e) : roundMag rnd neg m e k draw = m <<< (e - k).toNat := if_pos h

/-- A magnitude is its quotient in units and a rest of less than one; the next multiple is a unit more. -/
theorem units_and_rest (m d : Nat) : m = m / 2 ^ d * 2 ^ d + m % 2 ^ d ∧ m % 2 ^ d < 2 ^ d ∧
    (m / 2 ^ d + 1) * 2 ^ d = m / 2 ^ d * 2 ^ d + 2 ^ d :=
  ⟨(Nat.div_add_mod' m _).symm, Nat.mod_lt m (Nat.two_pow_pos d), Nat.add_one_mul _ _⟩

section
variable (hd : 0 < d)
include hd

theorem two_mul_half : 2 * 2 ^ (d - 1) = 2 ^ d := by
  rw [Nat.two_mul, Nat.two_pow_pred_add_two_pow_pred hd]

-- what each mode takes

/-- The unit 2^(e + d) is above the exponent, by d. -/
theorem unit_above (e : Int) : ¬ e + (d : Int) ≤ e ∧ (e + (d : Int) - e).toNat = d := by omega

theorem roundMag_cut (h : rnd = 1 ∨ (rnd = 2 ∧ neg = true) ∨ (rnd = 3 ∧ neg = false)) :
    roundMag rnd neg m e (e + d) draw = m / 2 ^ d := by
  obtain rfl | ⟨rfl, rfl⟩ | ⟨rfl, rfl⟩ := h <;> simp [roundMag, unit_above hd, Nat.shiftRight_eq_div_pow]

theorem roundMag_raise (h : (rnd = 2 ∧ neg = false) ∨ (rnd = 3 ∧ neg = true)) :
    roundMag rnd neg m e (e + d) draw = if m % 2 ^ d = 0 then m / 2 ^ d else m / 2 ^ d + 1 := by
  obtain ⟨rfl, rfl⟩ | ⟨rfl, rfl⟩ := h <;> simp [roundMag, unit_above hd, Nat.shiftRight_eq_div_pow]

theorem roundMag_nearestEven : roundMag 0 neg m e (e + d) draw =
    if 2 ^ (d - 1) < m % 2 ^ d ∨ m % 2 ^ d = 2 ^ (d - 1) ∧ m / 2 ^ d % 2 = 1 then m / 2 ^ d + 1 else m / 2 ^ d := by
  simp [roundMag, unit_above hd, Nat.shiftRight_eq_div_pow]

theorem roundMag_nearestAway : roundMag 4 neg m e (e + d) draw =
    if 2 ^ (d - 1) ≤ m % 2 ^ d then m / 2 ^ d + 1 else m / 2 ^ d := by
  simp [roundMag, unit_above hd, Nat.shiftRight_eq_div_pow]

/-- The draw is less than a unit, so the rest and the draw make up at most one. -/
theorem roundMag_stochastic (hdraw : draw < 2 ^ 24) :
    roundMag 5 neg m e (e + d) draw = (m * 2 ^ 24 + draw * 2 ^ d) / (2 ^ d * 2 ^ 24) := by
  have hrest : m % 2 ^ d < 2 ^ d := (units_and_rest m d).2.1
  have hadd : draw * 2 ^ d < 2 ^ d * 2 ^ 24 := by
    rw [Nat.mul_comm (2 ^ d)]
    exact Nat.mul_lt_mul_of_pos_right hdraw (Nat.two_pow_pos d)
  have hsplit : m * 2 ^ 24 + draw * 2 ^ d = (m % 2 ^ d * 2 ^ 24 + draw * 2 ^ d) + m / 2 ^ d * (2 ^ d * 2 ^ 24) := by
    have hquot : m * 2 ^ 24 = m / 2 ^ d * (2 ^ d * 2 ^ 24) + m % 2 ^ d * 2 ^ 24 := by
      rw [← Nat.mul_assoc, ← Nat.add_mul, Nat.div_add_mod']
    rw [hquot, Nat.add_assoc, Nat.add_comm]
  rw [hsplit, Nat.add_mul_div_right _ _ (Nat.mul_pos (Nat.two_pow_pos d) (Nat.two_pow_pos 24)), Nat.add_comm]
  simp only [roundMag, unit_above hd, Nat.shiftRight_eq_div_pow, Nat.pow_add, if_false, decide_eq_true_eq]
  split
  case isTrue hup => exact congrArg (m / 2 ^ d + ·) (Nat.div_eq_of_lt_le (by omega) (by omega)).symm
  case isFalse hup => exact congrArg (m / 2 ^ d + ·) (Nat.div_eq_of_lt (by omega)).symm

-- how far the result lies from the magnitude

theorem roundMag_cut_bounds (h : rnd = 1 ∨ (rnd = 2 ∧ neg = true) ∨ (rnd = 3 ∧ neg = false)) :
    roundMag rnd neg m e (e + d) draw * 2 ^ d ≤ m ∧ m < roundMag rnd neg m e (e + d) draw * 2 ^ d + 2 ^ d := by
  have := units_and_rest m d
  rw [roundMag_cut hd h]
  omega

theorem roundMag_raise_bounds (h : (rnd = 2 ∧ neg = false) ∨ (rnd = 3 ∧ neg = true)) :
    m ≤ roundMag rnd neg m e (e + d) draw * 2 ^ d ∧ roundMag rnd neg m e (e + d) draw * 2 ^ d < m + 2 ^ d := by
  have := units_and_rest m d
  rw [roundMag_raise hd h]
  split <;> omega

theorem roundMag_nearest_bounds (h : rnd = 0 ∨ rnd = 4) :
    2 * (roundMag rnd neg m e (e + d) draw * 2 ^ d) ≤ 2 * m + 2 ^ d ∧
      2 * m ≤ 2 * (roundMag rnd neg m e (e + d) draw * 2 ^ d) + 2 ^ d := by
  have := units_and_rest m d
  have := two_mul_half hd
  obtain rfl | rfl := h
  case inl =>
    rw [roundMag_nearestEven hd]
    split <;> omega
  case inr =>
    rw [roundMag_nearestAway hd]
    split <;> omega

theorem roundMag_tie_even (h : 2 * (roundMag 0 neg m e (e + d) draw * 2 ^ d) = 2 * m + 2 ^ d ∨
    2 * m = 2 * (roundMag 0 neg m e (e + d) draw * 2 ^ d) + 2 ^ d) : roundMag 0 neg m e (e + d) draw % 2 = 0 := by
  have := units_and_rest m d
  have := two_mul_half hd
  rw [roundMag_nearestEven hd] at h ⊢
  split at h
  case isTrue hup =>
    rw [if_pos hup]
    omega
  case isFalse hup =>
    rw [if_neg hup]
    omega

theorem roundMag_tie_away : 2 * m ≠ 2 * (roundMag 4 neg m e (e + d) draw * 2 ^ d) + 2 ^ d := by
  have := units_and_rest m d
  have := two_mul_half hd
  rw [roundMag_nearestAway hd]
  split <;> omega

/-- A multiple of the unit leaves no rest, and a draw alone is less than a unit. -/
theorem roundMag_multiple (hrnd : rnd ≤ 5) (hdraw : draw < 2 ^ 24) :
    roundMag rnd neg (m * 2 ^ d) e (e + d) draw = m := by
  have hhalf : 0 < 2 ^ (d - 1) := Nat.two_pow_pos _
  have hquot : m * 2 ^ d / 2 ^ d = m := Nat.mul_div_cancel m (Nat.two_pow_pos d)
  have hrest : m * 2 ^ d % 2 ^ d = 0 := Nat.mul_mod_left m _
  have hraise : (if m * 2 ^ d % 2 ^ d = 0 then m * 2 ^ d / 2 ^ d else m * 2 ^ d / 2 ^ d + 1) = m := by rw [if_pos hrest, hquot]
  obtain rfl | rfl | rfl | rfl | rfl | rfl : rnd = 0 ∨ rnd = 1 ∨ rnd = 2 ∨ rnd = 3 ∨ rnd = 4 ∨ rnd = 5 := by omega
  · rw [roundMag_nearestEven hd, hrest, hquot, if_neg (by omega)]
  · rw [roundMag_cut hd (.inl rfl), hquot]
  · cases neg
    · rw [roundMag_raise hd (.inl ⟨rfl, rfl⟩), hraise]
    · rw [roundMag_cut hd (.inr (.inl ⟨rfl, rfl⟩)), hquot]
  · cases neg
    · rw [roundMag_cut hd (.inr (.inr ⟨rfl, rfl⟩)), hquot]
    · rw [roundMag_raise hd (.inr ⟨rfl, rfl⟩), hraise]
  · rw [roundMag_nearestAway hd, hrest, hquot, if_neg (by omega)]
  · have hunits : m * 2 ^ d * 2 ^ 24 + draw * 2 ^ d = 2 ^ d * (m * 2 ^ 24 + draw) := by
      rw [Nat.mul_right_comm, ← Nat.add_mul, Nat.mul_comm]
    rw [roundMag_stochastic hd hdraw, hunits, Nat.mul_div_mul_left _ _ (Nat.two_pow_pos d)]
    omega
end

/-- Settles O58: each mode by the quotient that it takes. -/
theorem roundingFollowsItsMode : Obligations.RoundingFollowsItsMode := by
  unfold Obligations.RoundingFollowsItsMode
  intro rnd m draw d neg e hd
  refine ⟨roundMag_cut_bounds hd, roundMag_raise_bounds hd, roundMag_nearest_bounds hd, ?even, ?away, ?stochastic,
    fun i hrnd hdraw => ⟨roundMag_multiple hd hrnd hdraw, ?finer⟩⟩
  case even =>
    rintro rfl
    exact roundMag_tie_even hd
  case away =>
    rintro rfl
    exact roundMag_tie_away hd
  case stochastic =>
    rintro rfl
    exact roundMag_stochastic hd
  case finer =>
    have hshift : (e + (i : Int) - e).toNat = i := by omega
    rw [roundMag_finer (by omega), hshift, Nat.shiftLeft_eq]

end Sys2Proof.Machine

/-! O59: a pattern decodes to a value in the format's own units, and conversion of such a value rounds nothing and encodes it again
(R73, R87, R90, R91). -/
namespace Sys2Proof.Machine

variable {f : FloatFmt} {rd : Rounding} {neg : Bool} {m n draw v : Nat} {e k : Int}

-- comparing magnitudes

/-- Two magnitudes may be compared in any unit that is at most both of their own. -/
theorem aboveMag_units {u : Int} (he : u ≤ e) (hk : u ≤ k) :
    aboveMag m e n k = decide (n * 2 ^ (k - u).toNat < m * 2 ^ (e - u).toNat) := by
  let c := min e k
  have hex : (e - u).toNat = (e - c).toNat + (c - u).toNat := by omega
  have hkx : (k - u).toNat = (k - c).toNat + (c - u).toNat := by omega
  rw [hex, hkx, Nat.pow_add, Nat.pow_add, ← Nat.mul_assoc, ← Nat.mul_assoc]
  simp only [Nat.mul_lt_mul_right (Nat.two_pow_pos _), aboveMag, Nat.shiftLeft_eq, gt_iff_lt, c]

/-- A magnitude written in a smaller unit is the same magnitude. -/
theorem aboveMag_shiftLeft {u : Int} (hu : u ≤ e) : aboveMag (m <<< (e - u).toNat) u n k = aboveMag m e n k := by
  let c := min u k
  have hshift : (e - u).toNat + (u - c).toNat = (e - c).toNat := by omega
  rw [aboveMag_units (u := c) (by omega) (by omega), aboveMag_units (u := c) (by omega) (by omega), Nat.shiftLeft_eq,
    Nat.mul_assoc, ← Nat.pow_add, hshift]

theorem aboveMag_of_le (he : e ≤ k) (hm : m ≤ n * 2 ^ (k - e).toNat) : aboveMag m e n k = false := by
  rw [aboveMag_units (Int.le_refl e) he, Int.sub_self, Int.toNat_zero, Nat.pow_zero, Nat.mul_one]
  exact decide_eq_false (Nat.not_lt.mpr hm)

theorem sameMag_self : sameMag m e m e = true := decide_eq_true rfl

-- the parts of a pattern

/-- What the formats of R73 have in common. -/
structure FloatFmt.Wf (f : FloatFmt) : Prop where
  ebits : 1 < f.ebits
  mbits : 0 < f.mbits
  nan : f.hasInf = true → f.hasNan = true

theorem floatFmt?_wf {code : Nat} (h : floatFmt? code = some f) : f.Wf := by
  unfold floatFmt? at h
  split at h
  case h_10 => cases h
  all_goals
    cases h
    exact ⟨by decide, by decide, by decide⟩

/-- The exponent field of a pattern, directly below its sign. -/
def FloatFmt.expField (f : FloatFmt) (v : Nat) : Nat := bitsOf v (f.width - 2) f.mbits

/-- The mantissa field of a pattern. -/
def FloatFmt.mantField (f : FloatFmt) (v : Nat) : Nat := v % 2 ^ f.mbits

theorem FloatFmt.expField_eq (hf : f.Wf) : f.expField v = v / 2 ^ f.mbits % 2 ^ f.ebits := by
  have hbits : f.width - 2 - f.mbits + 1 = f.ebits := by
    have := hf.ebits
    unfold FloatFmt.width
    omega
  rw [FloatFmt.expField, bitsOf, Nat.shiftRight_eq_div_pow, hbits]

theorem FloatFmt.width_pos (f : FloatFmt) : 1 ≤ f.width := by
  unfold FloatFmt.width
  omega

theorem FloatFmt.signBit_bitOf (hv : v < 2 ^ f.width) :
    f.signBit (bitOf v (f.width - 1)) = v / 2 ^ f.mbits / 2 ^ f.ebits * 2 ^ f.ebits * 2 ^ f.mbits := by
  have htop : f.width - 1 = f.mbits + f.ebits := by
    unfold FloatFmt.width
    omega
  have hone : v / 2 ^ (f.mbits + f.ebits) < 2 := by
    apply Nat.div_lt_of_lt_mul
    rw [← Nat.pow_succ, ← htop, Nat.succ_eq_add_one, Nat.sub_add_cancel f.width_pos]
    exact hv
  rw [FloatFmt.signBit, bitOf, Nat.shiftRight_eq_div_pow, htop, Nat.div_div_eq_div_mul, ← Nat.pow_add, Nat.mul_assoc, ← Nat.pow_add,
    Nat.add_comm f.ebits]
  generalize v / 2 ^ (f.mbits + f.ebits) = b at hone ⊢
  obtain rfl | rfl : b = 0 ∨ b = 1 := by omega
  all_goals simp

theorem FloatFmt.fields_eq (hf : f.Wf) (hv : v < 2 ^ f.width) :
    f.signBit (bitOf v (f.width - 1)) + f.expField v * 2 ^ f.mbits + f.mantField v = v := by
  rw [FloatFmt.signBit_bitOf hv, FloatFmt.expField_eq hf, FloatFmt.mantField, ← Nat.add_mul, Nat.div_add_mod', Nat.div_add_mod']

-- values that a format holds

/-- m × 2^e in the units in which the format holds it: a normal value has its leading bit, any other is in units of a subnormal. -/
structure FloatFmt.Holds (f : FloatFmt) (m : Nat) (e : Int) : Prop where
  unit : f.minUnit ≤ e
  narrow : m < 2 ^ (f.mbits + 1)
  normal : e = f.minUnit ∨ 2 ^ f.mbits ≤ m
  top : aboveMag m e f.maxFinite.1 f.maxFinite.2 = false

/-- The pattern of a value in these units: a leading bit carries into the exponent field. -/
def FloatFmt.pattern (f : FloatFmt) (neg : Bool) (m : Nat) (e : Int) : Nat :=
  f.signBit neg + (e - f.minUnit).toNat * 2 ^ f.mbits + m

theorem FloatFmt.two_pow_le_topMant (hf : f.Wf) : 2 ^ f.mbits ≤ f.topMant := by
  have hpow : 2 ^ (f.mbits + 1) = 2 * 2 ^ f.mbits := Nat.pow_succ'
  have hone : 2 ≤ 2 ^ f.mbits := Nat.pow_le_pow_right Nat.two_pos hf.mbits
  unfold FloatFmt.topMant
  split <;> omega

/-- Below the top exponent every significand is in range; at the top one, the significands up to the top. -/
theorem FloatFmt.not_above_maxFinite (hf : f.Wf) (hm : m < 2 ^ (f.mbits + 1)) {ex : Nat}
    (h : ex < f.topExp ∨ ex = f.topExp ∧ m ≤ f.topMant) :
    aboveMag m ((ex : Int) - f.bias - f.mbits) f.maxFinite.1 f.maxFinite.2 = false := by
  obtain hlt | ⟨rfl, hle⟩ := h
  case inr => exact aboveMag_of_le (Int.le_refl _) (Nat.le_trans hle (Nat.le_mul_of_pos_right _ (Nat.two_pow_pos _)))
  case inl =>
    have hroom : 2 ^ 1 ≤ 2 ^ ((f.topExp : Int) - f.bias - f.mbits - (ex - f.bias - f.mbits)).toNat :=
      Nat.pow_le_pow_right Nat.two_pos (by omega)
    exact aboveMag_of_le (by simp only [FloatFmt.maxFinite]; omega)
      (Nat.le_trans (Nat.le_of_lt hm) (Nat.mul_le_mul (FloatFmt.two_pow_le_topMant hf) hroom))

theorem FloatFmt.holds_subnormal (hf : f.Wf) (hm : m < 2 ^ f.mbits) : f.Holds m f.minUnit where
  unit := Int.le_refl _
  narrow := Nat.lt_trans hm (Nat.pow_lt_pow_succ Nat.one_lt_two)
  normal := .inl rfl
  top := by
    have hexp : 2 ^ 2 ≤ 2 ^ f.ebits := Nat.pow_le_pow_right Nat.two_pos hf.ebits
    have htop : 1 < f.topExp ∨ 1 = f.topExp := by
      unfold FloatFmt.topExp
      split <;> omega
    have hmant := Nat.le_trans (Nat.le_of_lt hm) (FloatFmt.two_pow_le_topMant hf)
    exact FloatFmt.not_above_maxFinite (ex := 1) hf (Nat.lt_trans hm (Nat.pow_lt_pow_succ Nat.one_lt_two)) (htop.imp_right (And.intro · hmant))

theorem FloatFmt.holds_normal (hf : f.Wf) {ex man : Nat} (hex : 0 < ex) (hman : man < 2 ^ f.mbits)
    (h : ex < f.topExp ∨ ex = f.topExp ∧ man + 2 ^ f.mbits ≤ f.topMant) :
    f.Holds (man + 2 ^ f.mbits) ((ex : Int) - f.bias - f.mbits) where
  unit := by
    unfold FloatFmt.minUnit
    omega
  narrow := by omega
  normal := .inr (Nat.le_add_left _ _)
  top := FloatFmt.not_above_maxFinite hf (by omega) h

-- decoding

theorem FloatFmt.decode_eq : f.decode v =
    if f.expField v = 2 ^ f.ebits - 1 ∧ f.hasInf then if f.mantField v = 0 then .inf (bitOf v (f.width - 1)) else .nan
    else if f.expField v = 2 ^ f.ebits - 1 ∧ f.hasNan ∧ f.mantField v = 2 ^ f.mbits - 1 then .nan
    else if f.expField v = 0 then .fin (bitOf v (f.width - 1)) (f.mantField v) f.minUnit
    else .fin (bitOf v (f.width - 1)) (f.mantField v + 2 ^ f.mbits) ((f.expField v : Int) - f.bias - f.mbits) := rfl

/-- An exponent field and a mantissa that are neither an infinity's nor a NaN's are at most the largest finite ones. -/
theorem FloatFmt.finite_le_top {ex man : Nat} (hex : ex < 2 ^ f.ebits) (hman : man < 2 ^ f.mbits)
    (hinf : ¬ (ex = 2 ^ f.ebits - 1 ∧ f.hasInf = true))
    (hnan : ¬ (ex = 2 ^ f.ebits - 1 ∧ f.hasNan = true ∧ man = 2 ^ f.mbits - 1)) :
    ex < f.topExp ∨ ex = f.topExp ∧ man + 2 ^ f.mbits ≤ f.topMant := by
  have hpow : 2 ^ (f.mbits + 1) = 2 * 2 ^ f.mbits := Nat.pow_succ'
  unfold FloatFmt.topExp FloatFmt.topMant
  cases hi : f.hasInf
  case true =>
    have hlt : ex ≠ 2 ^ f.ebits - 1 := fun h => hinf ⟨h, hi⟩
    simp only [if_true, Bool.not_true, Bool.and_false, Bool.false_eq_true, if_false]
    omega
  case false =>
    cases hn : f.hasNan
    case true =>
      have hlt : ex = 2 ^ f.ebits - 1 → man ≠ 2 ^ f.mbits - 1 := fun h hm => hnan ⟨h, hn, hm⟩
      simp only [Bool.not_false, Bool.and_self, Bool.false_eq_true, if_true, if_false]
      omega
    case false =>
      simp only [Bool.not_false, Bool.and_true, Bool.false_eq_true, if_false]
      omega

/-- A pattern is a NaN, an infinity's, or that of a finite value in the format's own units. -/
theorem FloatFmt.decode_cases (hf : f.Wf) (hv : v < 2 ^ f.width) :
    (f.decode v = .nan ∧ f.hasNan = true) ∨
    (∃ neg, f.decode v = .inf neg ∧ f.hasInf = true ∧ v = f.infBits neg) ∨
    (∃ neg m e, f.decode v = .fin neg m e ∧ f.Holds m e ∧ v = f.pattern neg m e) := by
  have hfields := FloatFmt.fields_eq hf hv
  have hex : f.expField v < 2 ^ f.ebits := by
    rw [FloatFmt.expField_eq hf]
    exact Nat.mod_lt _ (Nat.two_pow_pos _)
  have hman : f.mantField v < 2 ^ f.mbits := Nat.mod_lt _ (Nat.two_pow_pos _)
  rw [FloatFmt.decode_eq]
  split
  case isTrue hinf =>
    split
    case isTrue hzero =>
      refine .inr (.inl ⟨_, rfl, hinf.2, ?_⟩)
      rw [FloatFmt.infBits, Nat.shiftLeft_eq, ← hinf.1]
      omega
    case isFalse hpayload => exact .inl ⟨rfl, hf.nan hinf.2⟩
  case isFalse hinf =>
    split
    case isTrue hnan => exact .inl ⟨rfl, hnan.2.1⟩
    case isFalse hnan =>
      refine .inr (.inr ?_)
      split
      case isTrue hsub =>
        refine ⟨_, _, _, rfl, FloatFmt.holds_subnormal hf hman, ?_⟩
        rw [FloatFmt.pattern, Int.sub_self, Int.toNat_zero, ← hsub]
        exact hfields.symm
      case isFalse hsub =>
        refine ⟨_, _, _, rfl,
          FloatFmt.holds_normal hf (Nat.pos_of_ne_zero hsub) hman (FloatFmt.finite_le_top hex hman hinf hnan), ?_⟩
        have hcarry : ((f.expField v : Int) - f.bias - f.mbits - f.minUnit).toNat + 1 = f.expField v := by
          unfold FloatFmt.minUnit
          omega
        rw [← hcarry, Nat.add_one_mul] at hfields
        unfold FloatFmt.pattern
        omega

-- conversion

section
variable (h : f.Holds m e)
include h

theorem FloatFmt.Holds.unit_eq (hm : m ≠ 0) : max ((m.log2 : Int) + e - f.mbits) f.minUnit = e := by
  have hnarrow : m.log2 < f.mbits + 1 := (Nat.log2_lt hm).mpr h.narrow
  have hunit := h.unit
  obtain hsub | hlead := h.normal
  case inl => omega
  case inr =>
    have : f.mbits ≤ m.log2 := (Nat.le_log2 hm).mpr hlead
    omega

theorem FloatFmt.Holds.encode_eq (hm : m ≠ 0) : f.encode neg m e = f.pattern neg m e := by
  have hunit := h.unit
  rw [FloatFmt.encode, if_neg hm]
  simp only [h.unit_eq hm, Int.le_refl, if_true, Int.sub_self, Int.toNat_zero, Nat.shiftLeft_zero]
  split
  case isTrue hsub =>
    have : e = f.minUnit := h.normal.resolve_right (by omega)
    simp [FloatFmt.pattern, this]
  case isFalse hlead =>
    have hnext : (e - f.minUnit + 1).toNat = (e - f.minUnit).toNat + 1 := by omega
    rw [hnext, Nat.shiftLeft_eq, Nat.add_one_mul, FloatFmt.pattern]
    omega

theorem FloatFmt.Holds.convertFloat_eq (hflush : rd.flush = false) :
    convertFloat rd f neg m e draw = (f.pattern neg m e, .none) := by
  by_cases hm : m = 0
  case pos =>
    subst hm
    have hunit : e = f.minUnit := h.normal.resolve_right (Nat.not_le.mpr (Nat.two_pow_pos _))
    rw [convertFloat, if_pos rfl, FloatFmt.pattern, hunit, Int.sub_self, Int.toNat_zero, Nat.zero_mul]
    rfl
  case neg =>
    have hmax := h.unit_eq hm
    have hunit : (m.log2 : Int) + e - f.mbits ≤ e := by omega
    simp [convertFloat, hm, roundUnbounded, roundMag_finer hunit, roundMag_finer (Int.le_refl e), aboveMag_shiftLeft hunit, h.top,
      hmax, hflush, h.encode_eq hm, sameMag_self]
end

/-- Settles O59: by what a pattern decodes to. -/
theorem representableValuesConvertToThemselves : Obligations.RepresentableValuesConvertToThemselves := by
  unfold Obligations.RepresentableValuesConvertToThemselves
  intro code f rd c draw v hcode hfmt _ hflush _ hv
  subst hfmt
  obtain ⟨hnan, hhas⟩ | ⟨neg, hinf, hhas, rfl⟩ | ⟨neg, m, e, hfin, hholds, rfl⟩ :=
    FloatFmt.decode_cases (floatFmt?_wf hcode) hv
  · simp [hnan, convert, Ctl.nanBits, hcode, hhas]
  · simp [hinf, convert, hcode, hhas]
  · simp [hfin, convert, hcode, hholds.convertFloat_eq hflush]

end Sys2Proof.Machine

/-! O12: the ops of a core issue (R98, R126, R153, R171, R328). A command of a matrix or vector op checks its core, unit and opcode;
one of a transfer or a collective also checks the kind in the op's descriptor, and sends the requests of the issued op. -/
namespace Sys2Proof.Machine

variable {s : State} {l : ListId} {r : OpRecord} {u op kind : Nat} {units : List Nat}
  {run : State → InFlight → State × InFlight}

theorem coreRecord_of_issues (hl : l < 192) (hu : u ∈ units) (h : s.issues l r u op = true) : coreRecord l r units op = true := by
  simp [coreRecord, hl, hu, State.issues_unit h, State.issues_opcode h]

theorem coreOp_issues (hl : l < 192) (hu : u ∈ units) (h : s.issues l r u op = true) :
    ifUnit (l < 192) (if coreRecord l r units op then s.issueOp l r run else s) = .next (s.issued l r run) := by
  rw [ifUnit_true (decide_eq_true hl), if_pos (coreRecord_of_issues hl hu h), State.issueOp_issues h]

theorem State.issueXfer_issues (h : s.issues l r 4 1 = true) (hkind : s.xferKind l r = kind) :
    s.issueXfer l r kind = (s.issued l r xferRun).drive l := by
  rw [State.issueXfer, if_pos ⟨State.issues_unit h, State.issues_opcode h, hkind⟩, State.issueOp_issues h]

theorem xferOp_issues (hl : l < 192) (h : s.issues l r 4 1 = true) (hkind : s.xferKind l r = kind) :
    ifUnit (l < 192) (s.issueXfer l r kind) = .next ((s.issued l r xferRun).drive l) := by
  rw [ifUnit_true (decide_eq_true hl), State.issueXfer_issues h hkind]

theorem State.issueColl_issues (h : s.issues l r 4 1 = true) (hcoll : s.xferKind l r = 6)
    (hkind : (CollOp.of (XferOp.of (s.rd (coreStore l + r.desc) 128)).ext).kind = kind) :
    s.issueColl l r kind = (s.issued l r collStart).drive l := by
  unfold State.issueColl
  rw [if_pos ⟨State.issues_unit h, State.issues_opcode h, hcoll, hkind⟩, State.issueOp_issues h]

theorem collOp_issues (hl : l < 192) (h : s.issues l r 4 1 = true) (hcoll : s.xferKind l r = 6)
    (hkind : (CollOp.of (XferOp.of (s.rd (coreStore l + r.desc) 128)).ext).kind = kind) :
    ifUnit (l < 192) (s.issueColl l r kind) = .next ((s.issued l r collStart).drive l) := by
  rw [ifUnit_true (decide_eq_true hl), State.issueColl_issues h hcoll hkind]

/-- A barrier has no source to wait for; any other collective starts where no store that it reads moves (R20). -/
theorem collStart_starts {o : InFlight}
    (h : (CollOp.of (s.xferOp o).ext).kind = 4 ∨ s.moving (s.xferOp o).src = false) :
    collStart s o = s.verified { o with queued := false } false
      (Inputs.of (if (CollOp.of (s.xferOp o).ext).kind = 4 ∨
          (s.sideFault o.list false false (s.xferOp o).src (s.xferOp o).rowBytes).isSome then []
        else [((s.xferOp o).src, (s.xferOp o).rowBytes)])) collRun := by
  have hstarts : ¬ ((CollOp.of (s.xferOp o).ext).kind ≠ 4 ∧ s.moving (s.xferOp o).src = true) := by
    rintro ⟨hsource, hmoves⟩
    obtain hbarrier | hstays := h
    · exact hsource hbarrier
    · exact Bool.false_ne_true (hstays.symm.trans hmoves)
  exact if_neg hstarts

/-- Settles O12: each command is the check of its core around the issue of its op. -/
theorem coreOpsIssue : Obligations.CoreOpsIssue := by
  unfold Obligations.CoreOpsIssue
  refine ⟨fun s l r hl => ⟨fun u hu => ?matrix, ?vector, fun h => ?transfer⟩, fun s l r hl h => ?collective⟩
  case matrix =>
    have hunit : u ∈ [1, 2] := by simpa using hu
    exact ⟨coreOp_issues hl hunit, coreOp_issues hl hunit, coreOp_issues hl hunit, coreOp_issues hl hunit⟩
  case vector => exact coreOp_issues hl (List.mem_singleton.mpr rfl)
  case transfer =>
    exact ⟨xferOp_issues hl h, xferOp_issues hl h, xferOp_issues hl h, xferOp_issues hl h, xferOp_issues hl h, xferOp_issues hl h⟩
  case collective =>
    exact ⟨collOp_issues hl h, collOp_issues hl h, collOp_issues hl h, collOp_issues hl h, collOp_issues hl h,
      fun _ _ => collStart_starts⟩

end Sys2Proof.Machine

/-! O14: SETVL (R126, R129, R167). It runs at once where its vector engine is free; its run sets the vector length and leaves the
grant in the op in flight, which brings it to its count register when it completes. -/
namespace Sys2Proof.Machine

variable {s : State} {l : ListId} {r : OpRecord} {k : Nat}

-- registers as a sequencer moves on

theorem State.reg_bump64_other {key : Nat} (n : Nat) (h : k ≠ key) : (s.bump64 key n).reg k = s.reg k :=
  s.reg_setFld_other _ _ _ h

section
variable (hstatus : k ≠ Reg.seqStatus l) (hwaited : k ≠ Reg.waited l) (hcounter : ∀ j, k ≠ Reg.seqCounter l j)

include hwaited hcounter in
theorem State.countWait_reg_other : (s.countWait l).reg k = s.reg k := by
  unfold State.countWait
  cases s.waitCounter l with
  | none => rfl
  | some j => exact (State.reg_setReg_other _ _ hwaited).trans (State.reg_bump64_other _ (hcounter j))

include hstatus hwaited hcounter in
/-- A sequencer that moves on changes its status, the mark of its waiting and the counters of its waiting. -/
theorem State.advance_reg_other : (s.advance l).reg k = s.reg k :=
  calc (s.advance l).reg k
    _ = (s.setSeq l 0 0).reg k := State.reg_setFld_other _ _ _ _ hstatus
    _ = (((s.countWait l).setFld (Fld.seqState l) 0).setFld (Fld.seqWait l) 0).reg k := State.reg_setReg_other _ _ hwaited
    _ = ((s.countWait l).setFld (Fld.seqState l) 0).reg k := State.reg_setFld_other _ _ _ _ hstatus
    _ = (s.countWait l).reg k := State.reg_setFld_other _ _ _ _ hstatus
    _ = s.reg k := State.countWait_reg_other hwaited hcounter
end

-- a list's count registers stand apart from the other registers of its page (R178)

theorem Reg.count_ne_seqStatus (l i : Nat) : Reg.count l i ≠ Reg.seqStatus l := by
  unfold Reg.count Reg.seqStatus; omega

theorem Reg.count_ne_seqCounter {l i : Nat} (hi : i < 64) (j : Nat) : Reg.count l i ≠ Reg.seqCounter l j := by
  unfold Reg.count Reg.seqCounter; omega

theorem Reg.count_ne_waited {l i : Nat} (hl : l < 192) (hi : i < 64) : Reg.count l i ≠ Reg.waited l := by
  unfold Reg.count Reg.waited Reg.seqPage; rw [if_pos hl]; omega

theorem State.advance_count {i : Nat} (hl : l < 192) (hi : i < 64) : (s.advance l).count l i = s.count l i :=
  congrArg BitVec.toNat
    (State.advance_reg_other (Reg.count_ne_seqStatus l i) (Reg.count_ne_waited hl hi) (Reg.count_ne_seqCounter hi))

-- an op that issues to a free engine

theorem State.op?_id {id : Nat} {o : InFlight} (h : s.op? id = some o) : o.id = id :=
  of_decide_eq_true (List.find?_some (p := fun q : InFlight => decide (q.id = id)) h)

/-- An op in flight that is written again is found under its identifier. -/
theorem State.op?_setOp_same {o p : InFlight} (hp : p ∈ s.cores.inflight) (hid : p.id = o.id) :
    (s.setOp o).op? o.id = some o := by
  have hin : o ∈ (s.setOp o).cores.inflight := List.mem_map.mpr ⟨p, hp, if_pos hid⟩
  obtain ⟨x, hx⟩ : ∃ x, (s.setOp o).op? o.id = some x :=
    Option.isSome_iff_exists.mp (List.find?_isSome.mpr ⟨o, hin, decide_eq_true rfl⟩)
  obtain ⟨q, _, rfl⟩ := List.mem_map.mp (List.mem_of_find?_eq_some hx)
  by_cases hq : q.id = o.id
  · rwa [if_pos hq] at hx
  · rw [if_neg hq] at hx
    exact absurd (State.op?_id hx) hq

theorem State.setOp_count (o : InFlight) (i : Nat) : (s.setOp o).count l i = s.count l i := rfl
theorem State.pushOp_count (o : InFlight) (i : Nat) : (s.pushOp o).count l i = s.count l i := rfl

/-- The state as the op of a record has issued and not yet started. -/
def State.withOp (s : State) (l : ListId) (r : OpRecord) : State := (s.advance l).pushOp (s.newOp l r)

theorem State.withOp_mem : (s.withOp l r).mem = s.mem := by
  rw [State.withOp, State.pushOp_mem, State.advance_mem]

theorem State.withOp_cores :
    (s.withOp l r).cores = { s.cores with inflight := s.cores.inflight ++ [s.newOp l r], nextId := s.cores.nextId + 1 } := by
  rw [State.withOp, State.pushOp_cores, State.advance_cores]; rfl

theorem State.withOp_count {i : Nat} (hl : l < 192) (hi : i < 64) : (s.withOp l r).count l i = s.count l i := by
  rw [State.withOp, State.pushOp_count, State.advance_count hl hi]

theorem State.newOp_mem_withOp : s.newOp l r ∈ (s.withOp l r).cores.inflight := by
  rw [State.withOp_cores]; exact List.mem_append_right _ (List.mem_singleton.mpr rfl)

/-- An op that finds its engine free runs as it issues. -/
theorem State.issued_free {run : State → InFlight → State × InFlight} (h : (s.withOp l r).engineBusy (s.newOp l r) = false) :
    s.issued l r run =
      (run (s.withOp l r) (s.newOp l r)).1.setOp (run (s.withOp l r) (s.newOp l r)).2 :=
  if_neg (by rw [← State.withOp, h]; exact Bool.false_ne_true)

/-- The vector engine of a core is free for a new op once every older one has started and waits for no tile (R153). -/
theorem State.vectorEngine_free (hunit : r.unit = 3)
    (hfree : ∀ o ∈ s.listOps l, o.record.unit = 3 → o.queued = false ∧ o.reloading = []) :
    (s.withOp l r).engineBusy (s.newOp l r) = false := by
  have hrecord : (s.newOp l r).record.unit = 3 := hunit
  rw [State.engineBusy, State.withOp_cores, Bool.and_eq_false_iff, List.any_eq_false]
  refine .inr fun p hp hbusy => ?_
  simp only [hrecord, Bool.and_eq_true, decide_eq_true_eq] at hbusy
  obtain ⟨⟨hother, hvector⟩, hwaits⟩ := hbusy
  obtain holder | hnew := List.mem_append.mp hp
  · rw [if_neg (fun h => absurd h.1 (by decide))] at hwaits
    simp only [Bool.and_eq_true, decide_eq_true_eq] at hwaits
    obtain ⟨⟨hlist, _⟩, hheld⟩ := hwaits
    obtain ⟨hstarted, hloaded⟩ := hfree p (List.mem_filter.mpr ⟨holder, decide_eq_true hlist⟩) hvector
    simp [hstarted, hloaded] at hheld
  · exact hother (congrArg InFlight.id (List.mem_singleton.mp hnew))

-- SETVL

theorem State.newOp_list : (s.newOp l r).list = l := rfl

/-- The request of a SETVL (R129, R167). -/
theorem State.newOp_request (hunit : r.unit = 3) (hop : r.opcode = 2) :
    (s.newOp l r).idx = if r.src then s.count l r.srcReg else r.imm := if_pos ⟨hunit, hop⟩

theorem setvlRun_vl (o : InFlight) (m : Nat) :
    Tab.get 0 (setvlRun s o).1.cores.vl m = if m = o.list then (setvlRun s o).2.idx else Tab.get 0 s.cores.vl m :=
  Tab.get_set 0 s.cores.vl m o.list _

theorem setvlRun_vregs (o : InFlight) : (setvlRun s o).1.cores.vregs = s.cores.vregs := rfl

theorem setvlRun_mem (o : InFlight) : (setvlRun s o).1.mem = s.mem := by
  rw [setvlRun, State.bump64_mem]

theorem setvlRun_count {o : InFlight} {i : Nat} (hlist : o.list = l) (hi : i < 64) : (setvlRun s o).1.count l i = s.count l i :=
  congrArg BitVec.toNat (State.reg_bump64_other 1 (hlist ▸ Reg.count_ne_seqCounter hi 2))

/-- A SETVL op that has run: it stays in flight with its grant. -/
theorem setvlRun_op {o : InFlight} (ho : o ∈ s.cores.inflight) :
    ((setvlRun s o).1.setOp (setvlRun s o).2).op? o.id = some (setvlRun s o).2 :=
  State.op?_setOp_same (o := (setvlRun s o).2) (p := o) ho rfl

/-- A SETVL that issues while its engine is free runs at once. -/
theorem exec_setvl_free (hl : l < 192) (h : s.issues l r 3 2 = true)
    (hfree : ∀ o ∈ s.listOps l, o.record.unit = 3 → o.queued = false ∧ o.reloading = []) :
    exec (.setvl l r) s =
      .next ((setvlRun (s.withOp l r) (s.newOp l r)).1.setOp (setvlRun (s.withOp l r) (s.newOp l r)).2) := by
  rw [← State.issued_free (State.vectorEngine_free (State.issues_unit h) hfree)]
  exact coreOp_issues hl (List.mem_singleton.mpr rfl) h

/-- Settles O14: the vector engine is free, so the SETVL runs as it issues. -/
theorem setvlGrants : Obligations.SetvlGrants := by
  unfold Obligations.SetvlGrants
  intro s l r hl h n g hfree
  have hrequest : (s.newOp l r).idx = n := State.newOp_request (State.issues_unit h) (State.issues_opcode h)
  have hgrant : (setvlRun (s.withOp l r) (s.newOp l r)).2.idx = g := congrArg (min · (4096 / (8 * 2 ^ r.ew))) hrequest
  refine ⟨_, exec_setvl_free hl h hfree, ?length, fun m hm => ?others, ?vregs, ?memory, fun i hi => ?counts, fun _ =>
    ⟨_, setvlRun_op State.newOp_mem_withOp, rfl, rfl, hgrant, rfl⟩⟩
  case length => rw [State.setOp_cores, setvlRun_vl, State.newOp_list, if_pos rfl, hgrant]
  case others => rw [State.setOp_cores, setvlRun_vl, State.newOp_list, if_neg hm, State.withOp_cores]
  case vregs => rw [State.setOp_cores, setvlRun_vregs, State.withOp_cores]
  case memory => rw [State.setOp_mem, setvlRun_mem, State.withOp_mem]
  case counts => rw [State.setOp_count, setvlRun_count State.newOp_list hi, State.withOp_count hl hi]

end Sys2Proof.Machine

/-! O9: the commands that a clause does not name leave the part, by their masks (`mayChange`). -/
namespace Sys2Proof.Machine

/-- Settles O9, part by part: the commands that the clause does not name leave the part, by their masks. -/
theorem coreAndQueueStateChanges : Obligations.CoreAndQueueStateChanges := by
  unfold Obligations.CoreAndQueueStateChanges
  intro c s t e
  have h := same_of_exec e
  refine ⟨?cores, ?queues, ?slots⟩
  case cores =>
    cases c
    all_goals try exact True.intro
    all_goals dsimp only [mayChange] at h
    all_goals exact h.cores_eq (by decide)
  case queues =>
    cases c
    all_goals try exact True.intro
    all_goals dsimp only [mayChange] at h
    all_goals exact h.queues_eq (by decide)
  case slots =>
    cases c
    all_goals try exact True.intro
    all_goals dsimp only [mayChange] at h
    all_goals exact h.slots_eq (by decide)

end Sys2Proof.Machine

/-! O10: the sequencer records (R166, R167). A record that issues takes effect on the state in which its sequencer has moved on. -/
namespace Sys2Proof.Machine

variable {s : State} {l : ListId} {r : OpRecord} {i op : Nat} {f : State → State}

-- the registers of a list's page, and the numbers in a record, keep apart (R165, R178)

theorem OpRecord.dst_lt (r : OpRecord) : r.dst < 64 := Nat.mod_lt _ (by decide)
theorem OpRecord.srcReg_lt (r : OpRecord) : r.srcReg < 64 := Nat.mod_lt _ (by decide)
theorem OpRecord.loopCnt_lt (r : OpRecord) : r.loopCnt < 64 := Nat.mod_lt _ (by decide)
theorem OpRecord.loopTarget_lt (r : OpRecord) : r.loopTarget < 2 ^ 20 := Nat.mod_lt _ (by decide)

theorem Reg.seqPage_lt_waited {l : Nat} (hl : l < 384) : Reg.seqPage l + 0x1000 ≤ Reg.waited l := by
  unfold Reg.seqPage Reg.waited
  split <;> omega

theorem Reg.seqStatus_ne_waited {l : Nat} (hl : l < 384) : Reg.seqStatus l ≠ Reg.waited l := by
  have := Reg.seqPage_lt_waited hl
  unfold Reg.seqStatus; omega

theorem Reg.count_ne_mark {l i : Nat} (hl : l < 384) (hi : i < 64) : Reg.count l i ≠ Reg.waited l := by
  have := Reg.seqPage_lt_waited hl
  unfold Reg.count; omega

theorem Reg.seqPhase_ne_seqStatus (l : ListId) : Reg.seqPhase l ≠ Reg.seqStatus l := by
  unfold Reg.seqPhase Reg.seqStatus; omega

-- fields of one register, by their bits

theorem State.fld_setFld_bits {key hi lo v : Nat} (hh : hi < 64) (hl : lo ≤ hi) :
    (s.setFld ⟨key, hi, lo⟩ v).fld ⟨key, hi, lo⟩ = v % 2 ^ (hi - lo + 1) := s.fld_setFld_same _ v hh hl

theorem State.fld_setFld_apart {key hi lo hi' lo' v : Nat} (hh : hi < 64) (hl : lo ≤ hi) (hl' : lo' ≤ hi')
    (hd : hi' < lo ∨ hi < lo') : (s.setFld ⟨key, hi, lo⟩ v).fld ⟨key, hi', lo'⟩ = s.fld ⟨key, hi', lo'⟩ :=
  s.fld_setFld_other _ _ v hh hl hl' (.inr hd)

-- a sequencer that is set, or moves on

/-- A sequencer that moves on writes registers, and that is all. -/
theorem State.advance_frame (regs : Tab Word64) : { s.advance l with regs := regs } = { s with regs := regs } := by simp

theorem State.setSeq_seqState (hl : l < 384) (state wait : Nat) : (s.setSeq l state wait).fld (Fld.seqState l) = state % 4 :=
  calc (s.setSeq l state wait).fld (Fld.seqState l)
    _ = (((s.countWait l).setFld (Fld.seqState l) state).setFld (Fld.seqWait l) wait).fld (Fld.seqState l) :=
      State.fld_congr (State.reg_setReg_other _ _ (Reg.seqStatus_ne_waited hl))
    _ = ((s.countWait l).setFld (Fld.seqState l) state).fld (Fld.seqState l) :=
      State.fld_setFld_apart (by decide) (by decide) (by decide) (.inr (by decide))
    _ = state % 4 := State.fld_setFld_bits (by decide) (by decide)

theorem State.setSeq_seqWait (hl : l < 384) (state wait : Nat) : (s.setSeq l state wait).fld (Fld.seqWait l) = wait % 8 :=
  calc (s.setSeq l state wait).fld (Fld.seqWait l)
    _ = (((s.countWait l).setFld (Fld.seqState l) state).setFld (Fld.seqWait l) wait).fld (Fld.seqWait l) :=
      State.fld_congr (State.reg_setReg_other _ _ (Reg.seqStatus_ne_waited hl))
    _ = wait % 8 := State.fld_setFld_bits (by decide) (by decide)

theorem State.advance_seqNext : (s.advance l).fld (Fld.seqNext l) = (s.fld (Fld.seqNext l) + 1) % 2 ^ 20 :=
  State.fld_setFld_bits (by decide) (by decide)

theorem State.advance_seqState (hl : l < 384) : (s.advance l).fld (Fld.seqState l) = 0 :=
  (State.fld_setFld_apart (by decide) (by decide) (by decide) (.inr (by decide))).trans
    (State.setSeq_seqState hl 0 0)

theorem State.advance_seqWait (hl : l < 384) : (s.advance l).fld (Fld.seqWait l) = 0 :=
  (State.fld_setFld_apart (by decide) (by decide) (by decide) (.inr (by decide))).trans
    (State.setSeq_seqWait hl 0 0)

/-- Moving on leaves the count registers of every list (R155), that of a Marrow engine too. -/
theorem State.advance_keeps_count (hl : l < 384) (hi : i < 64) : (s.advance l).count l i = s.count l i :=
  congrArg BitVec.toNat
    (State.advance_reg_other (Reg.count_ne_seqStatus l i) (Reg.count_ne_mark hl hi) (Reg.count_ne_seqCounter hi))

theorem State.advance_operand (hl : l < 384) : (s.advance l).operand l r = s.operand l r := by
  unfold State.operand
  rw [State.advance_keeps_count hl (OpRecord.srcReg_lt r)]

-- a count register written

theorem State.setCount_count (s : State) (l i v : Nat) : (s.setCount l i v).count l i = v % 2 ^ 32 := by
  unfold State.count State.setCount
  rw [State.reg_setReg_same, BitVec.toNat_ofNat]
  omega

theorem State.setCount_frame (v : Nat) (regs : Tab Word64) :
    { s.setCount l i v with regs := regs } = { s with regs := regs } := rfl

theorem State.setCount_fld {g : Fld} (v : Nat) (h : g.key ≠ Reg.count l i) : (s.setCount l i v).fld g = s.fld g :=
  State.fld_congr (State.reg_setReg_other _ _ h)

-- records that issue

theorem seqRecord_next (h : s.issues l r 0 op = true) :
    ifUnit (listOk l) (s.seqRecord l r op f) = .next (f (s.advance l)) := by
  rw [listOk, ifUnit_true (decide_eq_true (State.issues_list h)), State.seqRecord_issues h]

theorem exec_setc (h : s.issues l r 0 2 = true) : exec (.setc l r) s = .next ((s.advance l).setCount l r.dst r.imm) :=
  seqRecord_next h

theorem exec_addc (h : s.issues l r 0 3 = true) :
    exec (.addc l r) s = .next ((s.advance l).setCount l r.dst (s.count l r.dst + s.operand l r)) := by
  have hl := State.issues_list h
  rw [← State.advance_keeps_count hl (OpRecord.dst_lt r), ← State.advance_operand hl]
  exact seqRecord_next h

theorem exec_subc (h : s.issues l r 0 4 = true) :
    exec (.subc l r) s =
      .next ((s.advance l).setCount l r.dst (s.count l r.dst + 2 ^ 32 - s.operand l r % 2 ^ 32)) := by
  have hl := State.issues_list h
  rw [← State.advance_keeps_count hl (OpRecord.dst_lt r), ← State.advance_operand hl]
  exact seqRecord_next h

/-- A FENCE with no op of its units in flight issues. -/
theorem exec_fence_free (h : s.issues l r 0 6 = true) (hfree : ∀ o ∈ s.listOps l, o.record.unit ∉ fenceUnits l r.fenceMask) :
    exec (.fence l r) s = .next (s.advance l) := by
  have hnone : (s.listOps l).any (fun o => o.record.unit ∈ fenceUnits l r.fenceMask) = false := by simpa using hfree
  simp only [exec, execFence, hnone, Bool.false_eq_true, and_false, if_false]
  exact seqRecord_next h

/-- An END_STEP with no op of its list in flight issues. -/
theorem exec_endStep_free (h : s.issues l r 0 9 = true) (hfree : s.listOps l = []) :
    exec (.endStep l r) s = .next ((s.advance l).endOfStep l) := by
  simp only [exec, execEndStep, hfree, List.isEmpty_nil, Bool.not_true, Bool.false_eq_true, and_false, if_false]
  exact seqRecord_next h

/-- PHASE_DONE marks its phase as passed (R159). -/
def State.passPhase (s : State) (l : ListId) (p : Nat) : State :=
  { s with cores := { s.cores with passed := Tab.set 0 l (setBit (Tab.get 0 s.cores.passed l) p) s.cores.passed } }

theorem State.passPhase_fld (p : Nat) (g : Fld) : (s.passPhase l p).fld g = s.fld g := rfl

theorem exec_phaseDone (h : s.issues l r 0 8 = true) :
    exec (.phaseDone l r) s = .next (((s.advance l).passPhase l r.phase).refreshPhases l) :=
  seqRecord_next h

theorem State.refreshPhases_passed : (s.refreshPhases l).cores.passed = s.cores.passed := rfl

theorem State.refreshPhases_seqNext : (s.refreshPhases l).fld (Fld.seqNext l) = s.fld (Fld.seqNext l) :=
  State.fld_congr (State.reg_setFld_other _ _ _ _ (Reg.seqPhase_ne_seqStatus l).symm)

/-- What PHASE_DONE leaves: its phase passed, and the sequencer at the next record. -/
theorem State.phaseDone_passed (p : Nat) :
    Tab.get 0 (((s.advance l).passPhase l p).refreshPhases l).cores.passed l = setBit (Tab.get 0 s.cores.passed l) p := by
  rw [State.refreshPhases_passed, State.passPhase, Tab.get_set_same, State.advance_cores]

theorem State.phaseDone_seqNext (p : Nat) :
    (((s.advance l).passPhase l p).refreshPhases l).fld (Fld.seqNext l) = (s.fld (Fld.seqNext l) + 1) % 2 ^ 20 :=
  State.refreshPhases_seqNext.trans ((State.passPhase_fld p _).trans State.advance_seqNext)

-- LOOP

section
variable (cur target : Nat)

/-- A jump writes registers and what the device knows of the op buffers. -/
theorem State.jump_frame (regs : Tab Word64) (cores : Cores) :
    { s.jump l cur target with regs := regs, cores := cores } = { s with regs := regs, cores := cores } := by
  unfold State.jump
  split <;> rfl

theorem State.jump_inflight : (s.jump l cur target).cores.inflight = s.cores.inflight := by
  unfold State.jump
  split <;> rfl

theorem State.jump_seqNext : (s.jump l cur target).fld (Fld.seqNext l) = target % 2 ^ 20 := by
  have hset : (s.setFld (Fld.seqNext l) target).fld (Fld.seqNext l) = target % 2 ^ 20 :=
    State.fld_setFld_bits (by decide) (by decide)
  unfold State.jump
  split
  · exact hset
  · exact hset

end

/-- A target within the op buffer is the next record at once (R167). -/
theorem State.jump_buffered {cur target : Nat} (hfirst : Tab.get 0 s.cores.bufFirst l ≤ target) (hback : target ≤ cur)
    (hnear : cur ≤ target + 2047) : (s.jump l cur target).cores = s.cores := by
  unfold State.jump
  rw [if_pos ⟨hfirst, hback, by omega⟩]; rfl

/-- A target before the op buffer is refetched (R167). -/
theorem State.jump_refetches {cur target : Nat} (h : target < Tab.get 0 s.cores.bufFirst l) :
    (s.jump l cur target).cores.refetching = s.cores.refetching ++ [l] := by
  unfold State.jump
  rw [if_neg (fun hin => absurd hin.1 (Nat.not_le.mpr h))]; rfl

theorem exec_loop_ends (h : s.issues l r 0 5 = true) (hzero : s.count l r.loopCnt = 0) :
    exec (.loop l r) s = .next (s.advance l) := by
  refine (seqRecord_next h).trans (congrArg _ (if_neg (not_not_intro ?_)))
  rw [State.advance_keeps_count (State.issues_list h) (OpRecord.loopCnt_lt r), hzero]

theorem exec_loop_jumps (h : s.issues l r 0 5 = true) (hcount : s.count l r.loopCnt ≠ 0) :
    exec (.loop l r) s = .next ((s.advance l).jump l (s.fld (Fld.seqNext l)) r.loopTarget) := by
  refine (seqRecord_next h).trans (congrArg _ (if_pos ?_))
  rwa [State.advance_keeps_count (State.issues_list h) (OpRecord.loopCnt_lt r)]

/-- The refetched list has reached the op buffer, from its next record on. -/
theorem exec_opListRefetchDone (hl : l < 384) (hwaits : l ∈ s.cores.refetching) :
    exec (.opListRefetchDone l) s = .next { s with cores := { s.cores with
      refetching := s.cores.refetching.filter (fun m => m ≠ l)
      bufFirst := Tab.set 0 l (s.fld (Fld.seqNext l)) s.cores.bufFirst } } := by
  simp only [exec, execOpListRefetchDone, if_pos hwaits]
  exact ifUnit_true (decide_eq_true hl)

/-- Settles O10: the records one by one, then the count registers, then LOOP by its count. -/
theorem sequencerRecordsIssue : Obligations.SequencerRecordsIssue := by
  unfold Obligations.SequencerRecordsIssue
  refine ⟨fun s l r => ⟨seqRecord_next, seqRecord_next, exec_fence_free, seqRecord_next, fun h => ?phaseDone, exec_endStep_free,
    fun hl hwaits => ?refetchDone⟩, fun s l r => ?counts, fun s l r h => ?loop⟩
  case phaseDone => exact ⟨_, exec_phaseDone h, State.phaseDone_passed r.phase, State.phaseDone_seqNext r.phase⟩
  case refetchDone => exact ⟨_, exec_opListRefetchDone hl hwaits, by simp, Tab.get_set_same _ _ _ _, rfl⟩
  case counts =>
    intro wrote
    have hwrote {c : Instr} {op v : Nat} (h : s.issues l r 0 op = true)
        (e : exec c s = .next ((s.advance l).setCount l r.dst v)) : wrote c v := by
      have hl := State.issues_list h
      have hstatus {hi lo : Nat} : (Fld.mk (Reg.seqStatus l) hi lo).key ≠ Reg.count l r.dst := (Reg.count_ne_seqStatus l r.dst).symm
      refine ⟨_, e, State.setCount_count _ _ _ _, ?next, ?state, ?wait, fun k hcount hkey hwaited hcounter => ?others, ?rest⟩
      case next => exact (State.setCount_fld v hstatus).trans State.advance_seqNext
      case state => exact (State.setCount_fld v hstatus).trans (State.advance_seqState hl)
      case wait => exact (State.setCount_fld v hstatus).trans (State.advance_seqWait hl)
      case others => exact (State.reg_setReg_other _ _ hcount).trans (State.advance_reg_other hkey hwaited hcounter)
      case rest => rw [State.setCount_frame, State.advance_frame]
    exact ⟨fun h => hwrote h (exec_setc h), fun h => hwrote h (exec_addc h), fun h => hwrote h (exec_subc h)⟩
  case loop =>
    have hmoved : { s.advance l with regs := s.regs, cores := s.cores } = s :=
      congrArg (fun t : State => { t with cores := s.cores }) (State.advance_frame s.regs)
    by_cases hcount : s.count l r.loopCnt = 0
    · exact ⟨_, exec_loop_ends h hcount, hmoved, by rw [State.advance_cores],
        fun _ => ⟨State.advance_seqNext, State.advance_cores s l⟩, fun hne => absurd hcount hne⟩
    · refine ⟨_, exec_loop_jumps h hcount, ?frame, by rw [State.jump_inflight, State.advance_cores],
        fun hzero => absurd hzero hcount, fun _ => ⟨?target, fun hfirst hback hnear => ?buffered, fun hbefore => ?refetch⟩⟩
      case frame =>
        rw [State.jump_frame]
        exact hmoved
      case target => rw [State.jump_seqNext, Nat.mod_eq_of_lt (OpRecord.loopTarget_lt r)]
      case buffered =>
        rw [State.jump_buffered (by rwa [State.advance_cores]) hback hnear, State.advance_cores]
      case refetch => rw [State.jump_refetches (by rwa [State.advance_cores]), State.advance_cores]

end Sys2Proof.Machine

/-! O11: records that do not issue (R153, R154, R179). -/
namespace Sys2Proof.Machine

variable {s : State} {l : ListId} {r : OpRecord} {u op : Nat} {units : List Nat} {f : State → State}
  {run : State → InFlight → State × InFlight}

/-- What the command of a record that does not issue leaves: all as it was where the record is not its list's next, and its
sequencer held where a condition of R154 holds it. -/
def State.keptBack (s : State) (l : ListId) (r : OpRecord) (t : State) : Prop :=
  (s.gate l r = .notNext → t = s) ∧ ∀ w j, s.gate l r = .held w j → t = s.holdSeq l w j

theorem State.seqRecord_keptBack (hunit : r.unit = 0) (hop : r.opcode = op) : s.keptBack l r (s.seqRecord l r op f) :=
  ⟨fun h => State.seqRecord_notNext h, fun _ _ h => State.seqRecord_held h hunit hop⟩

theorem State.issueOp_keptBack : s.keptBack l r (s.issueOp l r run) :=
  ⟨fun h => State.issueOp_notNext h, fun _ _ h => State.issueOp_held h⟩

/-- A further condition of a record matters only where the record's gate is open. -/
theorem State.keptBack_of_ready {c : Prop} [Decidable (s.gate l r = .ready ∧ c)] {t t' : State} (h : s.keptBack l r t') :
    s.keptBack l r (if s.gate l r = .ready ∧ c then t else t') := by
  obtain ⟨hnext, hheld⟩ := h
  refine ⟨fun hg => ?_, fun w j hg => ?_⟩
  · rw [if_neg (by simp [hg]), hnext hg]
  · rw [if_neg (by simp [hg]), hheld w j hg]

theorem State.keptBack.answer {t : State} {ok : Bool} (h : s.keptBack l r t) (hok : ok = true) :
    (s.gate l r = .notNext → ifUnit ok t = .next s) ∧
      ∀ w j, s.gate l r = .held w j → ifUnit ok t = .next (s.holdSeq l w j) := by
  obtain ⟨hnext, hheld⟩ := h
  rw [ifUnit_true hok]
  exact ⟨fun hg => congrArg _ (hnext hg), fun w j hg => congrArg _ (hheld w j hg)⟩

theorem State.coreOp_keptBack (hl : l < 192) (hunit : r.unit ∈ units) (hop : r.opcode = op) :
    s.keptBack l r (if coreRecord l r units op then s.issueOp l r run else s) := by
  rw [if_pos (by simp [coreRecord, hl, hunit, hop])]
  exact State.issueOp_keptBack

theorem State.marrowOp_keptBack (hunit : r.unit = 5) (hop : r.opcode = op) :
    s.keptBack l r (s.issueMarrow l r op none run) := by
  rw [State.issueMarrow, if_pos ⟨hunit, hop, .inl rfl⟩]
  exact State.issueOp_keptBack

/-- A FENCE with an op of its units in flight waits. -/
theorem exec_fence_held (h : s.issues l r 0 6 = true) (hbusy : ∃ o ∈ s.listOps l, o.record.unit ∈ fenceUnits l r.fenceMask) :
    exec (.fence l r) s = .next (s.holdSeq l 6 11) := by
  have hany : (s.listOps l).any (fun o => o.record.unit ∈ fenceUnits l r.fenceMask) = true := by simpa using hbusy
  exact (ifUnit_true (decide_eq_true (State.issues_list h))).trans
    (congrArg _ (if_pos ⟨State.issues_gate h, State.issues_unit h, State.issues_opcode h, hany⟩))

/-- An END_STEP with an op of its list in flight waits. -/
theorem exec_endStep_held (h : s.issues l r 0 9 = true) (hbusy : s.listOps l ≠ []) :
    exec (.endStep l r) s = .next (s.holdSeq l 6 11) := by
  have hany : (!(s.listOps l).isEmpty) = true := by simpa using hbusy
  exact (ifUnit_true (decide_eq_true (State.issues_list h))).trans
    (congrArg _ (if_pos ⟨State.issues_gate h, State.issues_unit h, State.issues_opcode h, hany⟩))

/-- Settles O11, family by family: sequencer records, ops of a core, ops of a Marrow engine, FENCE and END_STEP. -/
theorem heldRecordsWait : Obligations.HeldRecordsWait := by
  unfold Obligations.HeldRecordsWait
  intro s l r same
  refine ⟨fun hunit => ?sequencer, fun hcore hunit => ?matrix, fun hcore hunit => ?vector, fun hmarrow hunit => ?marrow,
    exec_fence_held, exec_endStep_held⟩
  case sequencer =>
    have record {op f} (hop : r.opcode = op) (hl : l < 384) :=
      (State.seqRecord_keptBack (s := s) (l := l) (f := f) hunit hop).answer (ok := listOk l) (decide_eq_true hl)
    refine ⟨record, record, record, record, record, record, fun hop hl => ?fence, record, record, fun hop hl => ?endStep⟩
    case fence => exact (State.keptBack_of_ready (State.seqRecord_keptBack hunit hop)).answer (decide_eq_true hl)
    case endStep => exact (State.keptBack_of_ready (State.seqRecord_keptBack hunit hop)).answer (decide_eq_true hl)
  case matrix =>
    have hunits : r.unit ∈ [1, 2] := by simpa using hunit
    have record {op run} (hop : r.opcode = op) (_ : l < 384) :=
      (State.coreOp_keptBack (s := s) (run := run) hcore hunits hop).answer (decide_eq_true hcore)
    exact ⟨record, record, record, record⟩
  case vector =>
    have hunits : r.unit ∈ [3] := List.mem_singleton.mpr hunit
    have record {op run} (hop : r.opcode = op) (_ : l < 384) :=
      (State.coreOp_keptBack (s := s) (run := run) hcore hunits hop).answer (decide_eq_true hcore)
    exact ⟨record, record⟩
  case marrow =>
    have record {op run} (hop : r.opcode = op) (hl : l < 384) :=
      (State.marrowOp_keptBack (s := s) (l := l) (run := run) hunit hop).answer (ok := marrowOk l) (by simp [marrowOk, hmarrow, hl])
    exact ⟨record, record, record⟩

end Sys2Proof.Machine

/-! O13: the ops of the Marrow engines issue (R153, R251). A command checks its engine, unit and opcode; one of MINDEX or MTILE also
checks the kind in the op's descriptor. -/
namespace Sys2Proof.Machine

variable {s : State} {l : ListId} {r : OpRecord} {op kind : Nat} {run : State → InFlight → State × InFlight}

theorem marrowOp_issues {want : Option Nat} (hl : 192 ≤ l) (h : s.issues l r 5 op = true)
    (hkind : want.isNone ∨ want = some (s.rdLE (stackScratch (marrowStack l) + r.desc) 1)) :
    ifUnit (marrowOk l) (s.issueMarrow l r op want run) = .next (s.issued l r run) := by
  have hok : marrowOk l = true := by simp [marrowOk, hl, State.issues_list h]
  rw [ifUnit_true hok, State.issueMarrow, if_pos ⟨State.issues_unit h, State.issues_opcode h, hkind⟩, State.issueOp_issues h]

theorem marrowOp_issues_any (hl : 192 ≤ l) (h : s.issues l r 5 op = true) :
    ifUnit (marrowOk l) (s.issueMarrow l r op none run) = .next (s.issued l r run) := marrowOp_issues hl h (.inl rfl)

theorem marrowOp_issues_kind (hl : 192 ≤ l) (h : s.issues l r 5 op = true)
    (hkind : s.rdLE (stackScratch (marrowStack l) + r.desc) 1 = kind) :
    ifUnit (marrowOk l) (s.issueMarrow l r op (some kind) run) = .next (s.issued l r run) :=
  marrowOp_issues hl h (.inr (congrArg some hkind.symm))

/-- Settles O13: each command is the check of its engine around the issue of its op. -/
theorem marrowOpsIssue : Obligations.MarrowOpsIssue := by
  unfold Obligations.MarrowOpsIssue
  intro s l r hl kind
  refine ⟨marrowOp_issues_any hl, marrowOp_issues_any hl, marrowOp_issues_any hl, fun h => ?gatherScatter, fun h => ?tiles⟩
  case gatherScatter => exact ⟨marrowOp_issues_kind hl h, marrowOp_issues_kind hl h, marrowOp_issues_kind hl h⟩
  case tiles =>
    exact ⟨marrowOp_issues_kind hl h, marrowOp_issues_kind hl h, marrowOp_issues_kind hl h, marrowOp_issues_kind hl h⟩

end Sys2Proof.Machine

/-! O15: what happens to ops in flight (R156, R157, R174, R175, R228, R229). -/
namespace Sys2Proof.Machine

variable {s : State} {l : ListId} {id req tile : Nat} {o : InFlight} {data : List Byte} {v : Bool}

-- completion (R156)

/-- Nothing starts where no op of the engine is ready. -/
theorem State.startNext_none {u n : Nat} (h : s.startable l u = none) : s.startNext l u n = s := by
  cases n with
  | zero => rfl
  | succ n =>
    unfold State.startNext
    rw [h, ite_self]

theorem exec_opCompletion_running {p : InFlight} (ho : s.op? id = some o) (hunit : o.record.unit ≠ 4) (hrun : s.running o = true)
    (hp : (s.startQueued o).op? id = some p) :
    exec (.opCompletion id) s = .next (((s.startQueued o).completeOp p).startQueued o) := by
  simp only [exec, execOpCompletion, ho, if_pos (And.intro hunit hrun), hp]

-- requests of transfers (R174, R396)

section
variable {r : Request} (ho : s.op? id = some o) (hr : o.requests.find? (fun r => decide (r.num = req) && r.sent) = some r)
  (hunit : o.record.unit = 4)
include ho hr hunit

theorem exec_transferRequestComplete_moved (hpath : r.path = .memory ∨ r.path = .hostWrite) :
    exec (.transferRequestComplete id req data true) s =
      .next ((s.bump64 (Reg.seqCounter o.list 3) 1).requestDone o req none) := by
  obtain hpath | hpath := hpath
  all_goals simp only [exec, execTransferRequestComplete, ho, hr, if_pos hunit, hpath, if_true]

theorem exec_transferRequestComplete_read (hpath : r.path = .hostRead) :
    exec (.transferRequestComplete id req data true) s =
      .next ((s.bump64 (Reg.seqCounter o.list 3) 1).requestDone o req (some (padTo r.len data))) := by
  simp only [exec, execTransferRequestComplete, ho, hr, if_pos hunit, hpath, if_true]

/-- A host-window request that does not complete ends its op with ADDRESS_FAULT (R396). -/
theorem exec_transferRequestComplete_fails (hpath : r.path = .hostRead ∨ r.path = .hostWrite) :
    exec (.transferRequestComplete id req data false) s =
      .next ((s.bump64 (Reg.seqCounter o.list 3) 1).requestDone (o.failed Status.addressFault r.addr) req none) := by
  obtain hpath | hpath := hpath
  all_goals simp only [exec, execTransferRequestComplete, ho, hr, if_pos hunit, hpath, Bool.false_eq_true, if_false]

end

-- tags (R175)

theorem exec_tagGrant_sends {r : Request} (hfree : s.tagsUsed < 45056) (hnext : s.nextUnsent l = some (o, r))
    (hturn : (roundRobin s.cores.tagTurn).find? (fun m => (s.nextUnsent m).isSome && decide (s.outstanding m < 256)) = some l) :
    exec .tagGrant s =
      .next ({ s.sendReq o r with cores := { (s.sendReq o r).cores with tagTurn := (l + 1) % 192 } }).settle := by
  simp only [exec, execTagGrant, if_pos hfree, hturn, hnext]

-- rereads of queue counts (R157)

theorem exec_queueWaitReread_waits {r : OpRecord} (hl : l < 384) (hstate : s.fld (Fld.seqState l) = 1)
    (hwait : s.fld (Fld.seqWait l) = 3) (hr : (s.list l)[s.fld (Fld.seqNext l)]? = some r) :
    exec (.queueWaitReread l) s = .next (if s.preWait l r then s.setSeq l 0 0 else s.countWait l) := by
  simp only [exec, execQueueWaitReread, if_pos (And.intro hstate hwait), hr]
  exact ifUnit_true (decide_eq_true hl)

-- tiles that fail their checksum (R228, R229)

section
variable (ho : s.op? id = some o) (hwaits : o.awaits tile = true)
include ho hwaits

theorem exec_checksumReloadDone_awaited (hfirst : tile ∉ o.replaying) :
    exec (.checksumReloadDone id tile v) s = .next (
      let s1 := (s.badRead (s.badIn (tile * 4096) 4096)).countFails [tile]
      if v && !s.badTile tile then s.tileRecovered o tile 2
      else if s1.replayable tile then s1.setOp { o with replaying := o.replaying ++ [tile] } else s1.tileLost o tile) := by
  simp only [exec, execChecksumReloadDone, ho]
  rw [if_neg (by simp [hwaits, hfirst])]

theorem exec_producerReplay_awaited {s1 : State} {o1 : InFlight} {e : Replay} (hreplays : tile ∈ o.replaying)
    (hreplay : s.replayOf tile = some (s1, o1, e)) :
    exec (.producerReplay id tile v) s = .next (
      let s2 := s.writePiece .firmware (some (s.tag (tile * 4096))) (tile * 4096) (s1.rdNew (tile * 4096) 4096)
      let s3 := if tile * 4096 < hbmBytes then s2.bump32 (Reg.ckReplay (s2.stackOf (tile * 4096))) 1 else s2
      let s4 := (s3.onRecord (fun r => { r with replays := r.replays + 1 })).excursion 4
      if v then s4.tileRecovered o tile 3 else (s4.countFails [tile]).tileLost o tile) := by
  simp only [exec, execProducerReplay, ho, hreplay]
  rw [if_neg (by simp [hwaits, hreplays])]
  rfl

end

/-- Settles O15, event by event. -/
theorem opsInFlightGoOn : Obligations.OpsInFlightGoOn := by
  unfold Obligations.OpsInFlightGoOn
  intro s
  refine ⟨fun id o ho hunit hrun => ⟨fun p hp => exec_opCompletion_running ho hunit hrun hp, State.startNext_none⟩,
    fun id o req r data ho hr hunit => ⟨exec_transferRequestComplete_moved ho hr hunit,
      exec_transferRequestComplete_read ho hr hunit, exec_transferRequestComplete_fails ho hr hunit⟩,
    fun l o r hfree _ hnext hturn => exec_tagGrant_sends hfree hnext hturn,
    fun l r hl hstate hwait hr => ?reread, fun id o tile v ho hwaits hfirst => ?reload,
    fun id o tile v s1 o1 e ho hwaits hreplays hreplay => exec_producerReplay_awaited ho hwaits hreplays hreplay⟩
  case reread =>
    have hexec := exec_queueWaitReread_waits hl hstate hwait hr
    refine ⟨fun hreached => ⟨_, hexec, ?_, ?_⟩, fun hshort => ?_⟩
    · rw [if_pos hreached]; exact State.setSeq_seqState hl 0 0
    · rw [if_pos hreached]; exact State.setSeq_seqWait hl 0 0
    · rw [hexec, if_neg (fun hreached => Bool.false_ne_true (hshort.symm.trans hreached))]
  case reload =>
    intro s1
    have hexec := exec_checksumReloadDone_awaited (v := v) ho hwaits hfirst
    refine ⟨fun hv hgood => ?verifies, fun hfails => ?fails⟩
    case verifies => rw [hexec, if_pos (by rw [hv, hgood]; rfl)]
    case fails =>
      have hbad : (v && !s.badTile tile) = false := by
        obtain h | h := hfails
        all_goals simp [h]
      rw [if_neg (fun hgood => Bool.false_ne_true (hbad.symm.trans hgood))] at hexec
      refine ⟨fun h => ?replays, fun h => ?lost⟩
      case replays => rw [hexec, if_pos h]
      case lost => rw [hexec, if_neg (fun hreplays => Bool.false_ne_true (h.symm.trans hreplays))]

end Sys2Proof.Machine

/-! What a posted write of the host leaves of the link (R291, R387): no write raises it or takes it down. -/
namespace Sys2Proof.Machine

variable {s : State}

theorem State.linkUp_foldl {α : Type} {f : State → α → State} (hf : ∀ t a, (f t a).host.linkUp = t.host.linkUp) (l : List α) :
    ∀ s : State, (l.foldl f s).host.linkUp = s.host.linkUp := by
  induction l with
  | nil => intro s; rfl
  | cons a r ih => intro s; rw [List.foldl_cons, ih, hf]

-- events

@[simp] theorem State.signalVector_linkUp (v : Nat) : (s.signalVector v).host.linkUp = s.host.linkUp := by
  unfold State.signalVector
  split
  · rfl
  · split
    · split <;> rfl
    · rfl

@[simp] theorem State.writeEvent_linkUp (e : Event) : (s.writeEvent e).host.linkUp = s.host.linkUp := by
  unfold State.writeEvent
  cases e.vector with
  | none => rfl
  | some v => exact State.signalVector_linkUp v

@[simp] theorem State.setHeld_linkUp (es : List Event) : (s.setHeld es).host.linkUp = s.host.linkUp := rfl

@[simp] theorem State.writeHeld_linkUp (es : List Event) : ∀ s : State, (s.writeHeld es).host.linkUp = s.host.linkUp := by
  induction es with
  | nil => intro s; rfl
  | cons e r ih =>
    intro s
    unfold State.writeHeld
    split
    · rw [ih, State.writeEvent_linkUp]
    · rfl

@[simp] theorem State.ringEvent_linkUp (e : Event) : (s.ringEvent e).host.linkUp = s.host.linkUp := by
  unfold State.ringEvent
  split
  · exact State.writeEvent_linkUp e
  · split <;> rfl

@[simp] theorem State.postEvent_linkUp (e : Event) : (s.postEvent e).host.linkUp = s.host.linkUp := by
  have hibi : ((s.ringEvent e).eventIbi e).host = (s.ringEvent e).host :=
    (State.eventIbi_same _ e (within_self _) (State.same_self _)).host_eq (by decide)
  have hdatagram : (s.postEvent e).host = ((s.ringEvent e).eventIbi e).host :=
    (State.eventDatagram_same _ e (within_self _) (State.same_self _)).host_eq (by decide)
  rw [hdatagram, hibi, State.ringEvent_linkUp]

@[simp] theorem State.flushEvents_linkUp : s.flushEvents.host.linkUp = s.host.linkUp := by
  unfold State.flushEvents
  refine (State.linkUp_foldl (fun t l => ?_) _ _).trans (State.writeHeld_linkUp _ s)
  split
  · split
    · rw [State.postEvent_linkUp]
    · rfl
  · rfl

-- doorbells and pages

@[simp] theorem State.ring_linkUp (k : Nat) : (s.ring k).host.linkUp = s.host.linkUp := by
  unfold State.ring
  split
  · rfl
  · split
    · rw [State.post_host]; rfl
    · rfl

@[simp] theorem State.writePage_linkUp (k offset : Nat) (bs : List Byte) :
    (s.writePage k offset bs).host.linkUp = s.host.linkUp := by
  unfold State.writePage
  split <;> rfl

@[simp] theorem State.clearDone_linkUp (mask : Nat) : (s.clearDone mask).host.linkUp = s.host.linkUp := by
  rw [State.clearDone_eq]
  refine State.linkUp_foldl (fun t k => ?_) _ s
  unfold State.clearDoneOf
  split <;> rfl

-- the event ring's registers and BAR0

@[simp] theorem State.writeEvtCtrl_linkUp (v : Nat) : (s.writeEvtCtrl v).host.linkUp = s.host.linkUp := by
  have hsize : (s.sizeRing v).host.linkUp = s.host.linkUp := by
    unfold State.sizeRing
    split <;> rfl
  unfold State.writeEvtCtrl
  split
  · rfl
  · dsimp only
    split
    · rw [State.flushEvents_linkUp]; exact hsize
    · exact hsize

@[simp] theorem State.writeEvtHead_linkUp (v : Nat) : (s.writeEvtHead v).host.linkUp = s.host.linkUp :=
  State.flushEvents_linkUp

@[simp] theorem State.writeMsix_linkUp (i v : Nat) : (s.writeMsix i v).host.linkUp = s.host.linkUp := by
  unfold State.writeMsix
  dsimp only
  split
  · rw [State.signalVector_linkUp]; rfl
  · rfl

@[simp] theorem State.writeHalf_linkUp (key : Nat) (high : Bool) (mask v : Nat) :
    (s.writeHalf key high mask v).host.linkUp = s.host.linkUp := rfl

@[simp] theorem State.writeWord_linkUp (o v : Nat) : (s.writeWord o v).host.linkUp = s.host.linkUp := by
  unfold State.writeWord
  simp only [apply_ite State.host, apply_ite HostIf.linkUp, State.writeHalf_linkUp, State.ring_linkUp, State.clearDone_linkUp,
    State.writeEvtCtrl_linkUp, State.writeEvtHead_linkUp, State.writeMsix_linkUp, ite_self]

@[simp] theorem State.pageWrite_linkUp (k : Nat) (a : Bar0Access) : (s.pageWrite k a).host.linkUp = s.host.linkUp := by
  unfold State.pageWrite
  dsimp only
  split
  · exact State.writePage_linkUp ..
  · rw [State.writePage_linkUp, State.writePage_linkUp]

@[simp] theorem State.bar0Write_linkUp (a : Bar0Access) : (s.bar0Write a).host.linkUp = s.host.linkUp := by
  unfold State.bar0Write
  simp only [apply_ite State.host, apply_ite HostIf.linkUp, State.bump_host, State.pageWrite_linkUp, State.writeWord_linkUp, ite_self]

-- BAR2 and the producer slots

@[simp] theorem State.bar2Write_linkUp (offset : Nat) (data : List Byte) :
    (s.bar2Write offset data).host.linkUp = s.host.linkUp := by
  unfold State.bar2Write State.hostFault
  dsimp only
  split
  · split
    · rfl
    · rw [State.postEvent_linkUp]; rfl
  · rw [(State.write_same s .host _ data (within_self _) s.same_self).host_eq (by decide)]

@[simp] theorem State.hostDrop_linkUp (q : Nat) (noRoom : Bool) : (s.hostDrop q noRoom).host.linkUp = s.host.linkUp := by
  unfold State.hostDrop
  rw [State.postEvent_linkUp]
  split <;> rfl

/-- Where no queue is defined, a write to a producer slot is dropped. -/
theorem State.hostPiece_linkUp (hq : s.qdefs = []) (offset : Nat) (bs : List Byte) :
    (s.hostPiece offset bs).host.linkUp = s.host.linkUp := by
  have hnone : s.qdef? (offset / 64) = none := by rw [State.qdef?, hq]; rfl
  unfold State.hostPiece
  rw [if_pos (.inr (.inr (by rw [hnone]; rfl))), State.hostDrop_linkUp]

-- posted writes in their order

theorem State.carryWrite_linkUp (hq : s.qdefs = []) (w : HostWrite) : (s.carryWrite w).host.linkUp = s.host.linkUp := by
  unfold State.carryWrite
  split
  · rfl
  · cases w with
    | slot o bs => exact State.hostPiece_linkUp hq o bs
    | doorbell k => exact State.ring_linkUp k
    | page k o bs => exact State.writePage_linkUp k o bs
    | doneClear m => exact State.clearDone_linkUp m
    | evtEnable v => exact State.writeEvtCtrl_linkUp v
    | evtHead v => exact State.writeEvtHead_linkUp v
    | bar0 a => exact State.bar0Write_linkUp a
    | bar2 o bs => exact State.bar2Write_linkUp o bs

theorem State.postWrite_linkUp (hq : s.qdefs = []) (w : HostWrite) : (s.postWrite w).host.linkUp = s.host.linkUp := by
  unfold State.postWrite
  split
  · rfl
  · exact State.carryWrite_linkUp hq w

theorem State.postWrite_qdefs (w : HostWrite) : (s.postWrite w).qdefs = s.qdefs :=
  (State.postWrite_same s w (within_self _) s.same_self).qdefs_eq (by decide)

theorem State.releasePosted_qdefs : s.releasePosted.qdefs = s.qdefs :=
  (State.releasePosted_same s (within_self _) s.same_self).qdefs_eq (by decide)

theorem State.postWrites_linkUp (ws : List HostWrite) : ∀ {s : State}, s.qdefs = [] →
    (ws.foldl (fun t w => t.postWrite w) s).host.linkUp = s.host.linkUp := by
  induction ws with
  | nil => intro s _; rfl
  | cons w r ih =>
    intro s hq
    rw [List.foldl_cons, ih ((State.postWrite_qdefs w).trans hq), State.postWrite_linkUp hq]

/-- Writes that go on leave the link as it is, where no queue can take them. -/
theorem State.releasePosted_linkUp (hq : s.qdefs = []) : s.releasePosted.host.linkUp = s.host.linkUp :=
  State.postWrites_linkUp s.host.posted (s := s.onHost (fun h => { h with posted := [] })) hq

theorem State.carryWrite_closed (h : s.host.linkUp = false) (w : HostWrite) : s.carryWrite w = s := by
  unfold State.carryWrite
  exact if_pos (by simp [State.barOpen, h])

/-- A write that takes its turn while the link is down changes no register. -/
theorem State.postWrite_closed (h : s.host.linkUp = false) (w : HostWrite) :
    (s.postWrite w).regs = s.regs ∧ (s.postWrite w).host.linkUp = false := by
  unfold State.postWrite
  split
  · exact ⟨rfl, h⟩
  · rw [State.carryWrite_closed h]
    exact ⟨rfl, h⟩

theorem State.postWrites_closed (ws : List HostWrite) : ∀ {s : State}, s.host.linkUp = false →
    (ws.foldl (fun t w => t.postWrite w) s).regs = s.regs := by
  induction ws with
  | nil => intro s _; rfl
  | cons w r ih =>
    intro s h
    obtain ⟨hregs, hlink⟩ := State.postWrite_closed h w
    rw [List.foldl_cons, ih hlink, hregs]

/-- Nothing of the writes that wait reaches the registers while the link is down. -/
theorem State.releasePosted_closed (h : s.host.linkUp = false) : s.releasePosted.regs = s.regs :=
  State.postWrites_closed s.host.posted (s := s.onHost (fun h => { h with posted := [] })) h

end Sys2Proof.Machine

/-! O50: the end of POWER_STATE_SET to PS2 takes the ports down after it has set the power state (R426, R427). A port that goes down
can lose a peer, and then the ops that can complete do (R351, R352). The statement leaves open which lists the ops in flight are of,
so it also speaks of a device with an op of a list so large that the register of its phases would be DEV_STATE. -/
namespace Sys2Proof.Machine

variable {s u x : State} {k p : Nat} {l : Long}

-- what the end of a long command leaves of a register, seen from the state that it answers

theorem State.endLong_reg (hk : Reg.Still k) (status detail : Nat) : (s.endLong l status detail).reg k = s.reg k := by
  unfold State.endLong
  dsimp only
  split
  · rw [State.postEvent_reg hk.tail hk.held hk.lost]; rfl
  · rfl

theorem State.endLong_linkUp (status detail : Nat) : (s.endLong l status detail).host.linkUp = s.host.linkUp := by
  unfold State.endLong
  dsimp only
  split
  · rw [State.postEvent_linkUp]
  · rfl

theorem State.endLong_qdefs (status detail : Nat) : (s.endLong l status detail).qdefs = s.qdefs :=
  (State.endLong_same s l status detail (within_self _) s.same_self).qdefs_eq (by decide)

/-- Two states that the end of a command takes to one state agree on a register that no event moves, where the link is down and no
queue is defined: no write of the host that waits in one of them can tell them apart. -/
theorem State.reg_of_endLong_eq {status detail : Nat} (hk : Reg.Still k) (hlink : x.host.linkUp = false) (hq : x.qdefs = [])
    (h : (u.endLong l status detail).releasePosted = (x.endLong l status detail).releasePosted) : u.reg k = x.reg k := by
  have hqdefs : (u.endLong l status detail).qdefs = [] := by
    rw [← State.releasePosted_qdefs, h, State.releasePosted_qdefs, State.endLong_qdefs, hq]
  have hx : (x.endLong l status detail).host.linkUp = false := by rw [State.endLong_linkUp, hlink]
  have hu : (u.endLong l status detail).host.linkUp = false := by
    rw [← State.releasePosted_linkUp hqdefs, h, State.releasePosted_linkUp (by rw [State.endLong_qdefs, hq]), hx]
  calc u.reg k
    _ = (u.endLong l status detail).releasePosted.reg k := by
      rw [State.reg_congr (State.releasePosted_closed hu), State.endLong_reg hk]
    _ = x.reg k := by rw [h, State.reg_congr (State.releasePosted_closed hx), State.endLong_reg hk]

-- the commands on the way

/-- A long command that ends well is carried out, and the host's writes go on. -/
theorem exec_longCommandDone_carries {e : Ending} (hk : k < 64) (he : e.status = Status.success)
    (hl : s.host.longs.find? (fun y => decide (y.mbx = k) && decide (y.ended = none) &&
      (decide (y.code ∈ endedByDone) || decide (e.status = Status.internalError))) = some l) :
    exec (.longCommandDone k e) s = .next (s.carryOut l).releasePosted := by
  have hown : ¬ (l.code = 0x102 ∧ k = srcDevice) := by unfold srcDevice; omega
  have hinside : outsideStatus l e.status ≠ true := by
    rw [he]
    simp [outsideStatus, Status.success, Status.storageError, Status.moduleError, Status.internalError]
  simp only [exec, execLongCommandDone, hl, if_neg hown, if_neg hinside]
  exact ifUnit_true (by simp [mbxOk, hk])

theorem State.carryOut_retention (hcode : l.code = 0x701) (hstate : fieldLE l.body 0 4 = 2) (hmay : s.mayEnter 2 = true)
    (hwas : s.fld Fld.pstate ≠ 2) : s.carryOut l = (s.setPstate 2).enterRetention.endLong l Status.success 0 := by
  unfold State.carryOut
  rw [hcode]
  simp only [State.endPowerState, hstate, hmay]
  simp [hwas]

/-- A fold whose steps all leave its start as it is. -/
theorem foldl_fixed_of_mem {α β : Type} {f : β → α → β} {b : β} (as : List α) (h : ∀ a ∈ as, f b a = b) : as.foldl f b = b := by
  induction as with
  | nil => rfl
  | cons a r ih => rw [List.foldl_cons, h a List.mem_cons_self, ih fun c hc => h c (List.mem_cons_of_mem a hc)]

/-- Port 47 alone is not down yet. -/
theorem State.enterRetention_last (hdown : ∀ p < 47, s.fld (Fld.portState p) = 0) (hlast : s.fld (Fld.portState 47) ≠ 0) :
    s.enterRetention.regs = (s.portDown 47).regs ∧ s.enterRetention.host = (s.portDown 47).host := by
  have hrest : (List.range 47).foldl (fun s p => if s.fld (Fld.portState p) = 0 then s else s.portDown p) s = s :=
    foldl_fixed_of_mem _ fun p hp => if_pos (hdown p (List.mem_range.mp hp))
  have hall : (List.range 48).foldl (fun s p => if s.fld (Fld.portState p) = 0 then s else s.portDown p) s = s.portDown 47 := by
    rw [List.range_succ, List.foldl_append, hrest, List.foldl_cons, List.foldl_nil, if_neg hlast]
  unfold State.enterRetention
  rw [hall]
  exact ⟨rfl, rfl⟩

-- a port that goes down

theorem State.announce_reg (hk : Reg.Still k) (p : Nat) : (s.announce p).reg k = s.reg k :=
  State.reg_foldl (fun _ _ => State.sendTx_reg hk _) _ _

theorem State.redirect_reg (hk : Reg.Still k) (txs : List Tx) : (s.redirect txs).reg k = s.reg k := by
  refine State.reg_foldl (fun t tx => ?_) _ _
  split
  · rfl
  · exact State.sendTx_reg hk tx

/-- The state of a port that goes down set, and what waited for it gone. -/
def State.closePort (s : State) (p : Nat) : State :=
  ((s.setFld (Fld.portState p) 0).setFld (Fld.portLanes p) 0).setPort p { Port.zero with lanesLost := (s.port p).lanesLost }

theorem State.portDown_reg (hk : Reg.Still k) (p : Nat) : (s.portDown p).reg k = (State.reroute s (s.closePort p)).reg k :=
  (State.announce_reg hk p).trans (State.redirect_reg hk _)

theorem State.portDown_host (p : Nat) : (s.portDown p).host = (State.reroute s (s.closePort p)).host :=
  ((State.announce_same _ p (within_self _) (State.same_self _)).host_eq (by decide)).trans
    ((State.redirect_same _ _ (within_self _) (State.same_self _)).host_eq (by decide))

theorem State.noteSpares_unidentified (h : s.fld Fld.idValid ≠ 1) : s.noteSpares = s := by
  simp [State.noteSpares, h]

/-- One peer with unacknowledged requests, to which no route is left. -/
theorem State.reroute_loses {old : State} {g : Nat} (htargets : s.targets = [g]) (hid : s.fld Fld.idValid ≠ 1)
    (hroute : (s.route? g).isNone = true) : State.reroute old s = s.markLost g 3 := by
  unfold State.reroute
  rw [htargets, State.noteSpares_unidentified hid, List.foldl_cons, List.foldl_nil, if_pos hroute]

/-- A peer marked lost before what waited for it goes on: counted, its event posted, and its requests and ops at their end. -/
def State.noteLost (s : State) (g cause : Nat) : State :=
  let s1 := ({ s with fabric := { s.fabric with lost := s.fabric.lost ++ [g] } }).bump Fld.lostPeers 1
  let s2 := s1.postEvent (s1.newEvent 0x14 Status.targetLost (srcPeer g) 2 (g + cause * 2 ^ 16))
  let hit := s2.cores.inflight.filter (fun o => s2.waitsOn o g)
  let s3 := hit.foldl (fun s o =>
    let addr := match s.fabric.out.find? (fun r => decide (r.dst = g) && decide (r.op = o.id)) with
      | some r => r.tx.addr
      | none => 0
    s.setOp (o.lostTo g addr)) s2
  s3.onFabric (fun f => { f with
    out := f.out.filter (fun r => r.dst ≠ g)
    colls := f.colls.filter (fun c => !(hit.any (fun o => o.id = c.op)))
    invalWait := f.invalWait.foldl (fun t e => Tab.set [] e.1 (e.2.filter (fun h => h ≠ g)) t) [] })

theorem State.markLost_unlaunched {g cause : Nat} (hnew : s.isLost g = false) (hl : (s.noteLost g cause).fabric.launches = []) :
    s.markLost g cause = (s.noteLost g cause).afterWrites := by
  have hmark : s.markLost g cause =
      (((s.noteLost g cause).fabric.launches.map (fun l => l.1)).foldl (fun s i => s.dropChild i g) (s.noteLost g cause)).afterWrites :=
    if_neg (by rw [hnew]; exact Bool.false_ne_true)
  rw [hmark, hl]
  rfl

-- an op of a list that no sequencer runs

/-- The number of the list whose phases would lie where DEV_STATE is. -/
def strayList : ListId := 1048256

/-- A NOP of that list whose completion record has been handed to its slot. -/
def strayOp : InFlight where
  id := 0
  list := strayList
  index := 0
  record := 0
  status := 0
  flags := 0
  cnt := Counters.zero
  issue := 0
  digest := 0
  fault := 0
  requests := []
  got := []
  crcs := []
  pending := .done
  fingerprint := 0
  replayable := false
  reloading := []
  replaying := []
  queued := false
  recorded := true
  idx := 0

theorem State.finishOp_strayOp (hstep : s.tick.stepRunning = false) :
    s.finishOp strayOp = ((s.dropOp 0).refreshPhases strayList).countStalls strayOp := by
  have hended : ((s.dropOp 0).refreshPhases strayList).checkStepEnd = (s.dropOp 0).refreshPhases strayList := by
    unfold State.checkStepEnd
    exact if_neg (by simp [State.refreshPhases, hstep])
  have hunit : strayOp.record.unit ≠ 3 := by decide
  have hvary : strayOp.record.mayVary = false := by decide
  have hsignal : strayOp.record.sigEn = false := by decide
  have hstatus : strayOp.status = 0 := rfl
  have hplain : s.finishOp strayOp = ((s.dropOp strayOp.id).refreshPhases strayOp.list).checkStepEnd.countStalls strayOp := by
    simp [State.finishOp, State.varied, State.signalFrom, hunit, hvary, hsignal, hstatus]
  exact hplain.trans (congrArg (fun t => State.countStalls t strayOp) hended)

theorem State.settle_strayOp (hin : s.cores.inflight = [strayOp]) (hwaits : s.memory.waits = []) (hrank : s.fabric.rankWait = [])
    (hstep : s.tick.stepRunning = false) : s.settle = ((s.dropOp 0).refreshPhases strayList).countStalls strayOp := by
  have hfound : s.op? 0 = some strayOp := by simp [State.op?, hin, strayOp]
  have hready : s.unfinished strayOp = false := by simp [State.unfinished, State.hasWaits, hwaits, hrank, strayOp]
  have hcomplete : s.completeOp strayOp = s.finishOp strayOp := by
    unfold State.completeOp
    rw [hready]; rfl
  have hone : s.settle = s.settleOp strayOp := by
    unfold State.settle
    rw [hin]
    simp only [List.map_cons, List.map_nil, List.foldl_cons, List.foldl_nil]
    rw [show strayOp.id = 0 from rfl, hfound]
  rw [hone, show s.settleOp strayOp = s.completeOp strayOp from rfl, hcomplete, State.finishOp_strayOp hstep]

/-- With nothing waiting to be written or answered, only ops go on. -/
theorem State.afterWrites_idle (hwaits : s.memory.waits = []) (hcommit : s.fabric.commit = []) (hserving : s.fabric.serving = []) :
    s.afterWrites = s.settle := by
  have hretry : s.retryWrites = s := by
    unfold State.retryWrites
    rw [hwaits]
    exact congrArg (fun m => { s with memory := { s.memory with waits := m } }) hwaits.symm
  have hpull : s.pullAll = s := by unfold State.pullAll; rw [hcommit]; rfl
  have hserve : s.finishServes = s := by unfold State.finishServes; rw [hserving]; rfl
  rw [State.afterWrites, hretry, hpull, hserve]

theorem State.finishedPhases_none {l : ListId} (hruns : s.fld (Fld.seqState l) ≠ 2) (hpassed : s.cores.passed = []) :
    s.finishedPhases l = 0 := by
  unfold State.finishedPhases
  refine foldl_fixed_of_mem _ fun p _ => if_neg ?_
  simp [hruns, hpassed, Tab.get, Tab.find?, bitOf]

/-- A part of a field that is cleared reads 0. -/
theorem getBits_setBits_zero (r : Word64) {hi lo hi' lo' : Nat} (hh : hi < 64) (hl : lo ≤ hi) (hin : lo ≤ lo') (hin' : hi' ≤ hi)
    (hl' : lo' ≤ hi') : getBits (setBits r hi lo 0) hi' lo' = 0 := by
  apply Nat.eq_of_testBit_eq
  intro i
  rw [testBit_getBits, getLsbD_setBits r hi lo 0 _ hh hl, Nat.zero_testBit]
  by_cases h : i < hi' - lo' + 1
  · rw [if_pos ⟨by omega, by omega⟩]; simp
  · simp [h]

theorem State.countStalls_reg {o : InFlight} (h : ∀ j, k ≠ Reg.seqCounter o.list j) : (s.countStalls o).reg k = s.reg k :=
  State.reg_foldl (fun _ j => State.bump64_reg (h j) _) _ _

theorem State.countStalls_host (o : InFlight) : (s.countStalls o).host = s.host :=
  (State.countStalls_same s o (within_self _) s.same_self).host_eq (by decide)

/-- The phases of the stray list, once its op has completed, have cleared the power state in DEV_STATE. -/
theorem State.strayPhases_devPstate (hruns : s.fld (Fld.seqState strayList) ≠ 2) (hpassed : s.cores.passed = []) :
    (((s.dropOp 0).refreshPhases strayList).countStalls strayOp).fld Fld.devPstate = 0 := by
  have hpage : Reg.seqPage strayOp.list = Reg.bar0 := by decide
  have hcounters : ∀ j, Reg.devState ≠ Reg.seqCounter strayOp.list j := fun j => by
    unfold Reg.seqCounter Reg.devState
    omega
  have hphases : (s.dropOp 0).finishedPhases strayList = 0 := State.finishedPhases_none (s := s.dropOp 0) hruns hpassed
  rw [State.fld_congr (State.countStalls_reg hcounters), State.refreshPhases, hphases]
  change getBits ((((s.dropOp 0).setReg Reg.devState _)).reg Reg.devState) 27 25 = 0
  rw [State.reg_setReg_same]
  exact getBits_setBits_zero _ (by decide) (by decide) (by decide) (by decide) (by decide)

-- the device

/-- A request to a device of another pod, to which no route leads. -/
def lostRequest : OutReq where
  dst := 256
  seq := 0
  tx := ⟨0, 0, false, false, false, false, false, 0, 256, 0, 0, 0, 0, 0, 0, []⟩
  op := 1
  req := 0
  resends := 0
  deadline := 0
  waiting := false

/-- POWER_STATE_SET to PS2, accepted on mailbox 0. -/
def retentionCommand : Long := ⟨0, 0x701, 0, false, none, toLE 4 2, []⟩

/-- A device just reset, but for ports 0 to 46, which are down, and what is in flight. -/
def strayDevice : State :=
  { State.reset with
    regs := (List.range 47).map (fun p => (Reg.portStatus p, 0)) ++ [(Reg.identity, 0)]
    cores := { Cores.zero with inflight := [strayOp] }
    fabric := { Fabric.zero with out := [lostRequest] }
    host := { HostIf.zero with longs := [retentionCommand] } }

/-- The device as port 47 goes down under the command. -/
def strayPorts : State := (strayDevice.setPstate 2).closePort 47

/-- The device as the peer without a route is lost to it. -/
def strayLoss : State := strayPorts.noteLost 256 3

theorem strayDevice_portsDown : ∀ p < 47, (strayDevice.setPstate 2).fld (Fld.portState p) = 0 := by decide

theorem strayPorts_loses : State.reroute (strayDevice.setPstate 2) strayPorts = strayLoss.afterWrites := by
  have htargets : strayPorts.targets = [256] := by decide
  have hid : strayPorts.fld Fld.idValid ≠ 1 := by decide
  have hroute : (strayPorts.route? 256).isNone = true := by decide
  rw [State.reroute_loses htargets hid hroute]
  exact State.markLost_unlaunched rfl rfl

theorem strayLoss_settles : strayLoss.afterWrites = ((strayLoss.dropOp 0).refreshPhases strayList).countStalls strayOp :=
  (State.afterWrites_idle rfl rfl rfl).trans (State.settle_strayOp rfl rfl rfl rfl)

theorem strayLoss_devPstate : strayLoss.afterWrites.fld Fld.devPstate = 0 := by
  rw [strayLoss_settles]
  exact State.strayPhases_devPstate (by decide) rfl

theorem strayLoss_linkUp : strayLoss.afterWrites.host.linkUp = false := by
  rw [strayLoss_settles, State.countStalls_host]
  rfl

/-- The device as it is in PS2. -/
def strayRetained : State := (strayDevice.setPstate 2).enterRetention

theorem strayRetained_devPstate : strayRetained.fld Fld.devPstate = 0 := by
  obtain ⟨hregs, -⟩ := State.enterRetention_last strayDevice_portsDown (by decide)
  calc strayRetained.fld Fld.devPstate
    _ = ((strayDevice.setPstate 2).portDown 47).fld Fld.devPstate := State.fld_congr (State.reg_congr hregs _)
    _ = (State.reroute (strayDevice.setPstate 2) strayPorts).fld Fld.devPstate :=
      State.fld_congr (State.portDown_reg Reg.still_devState 47)
    _ = 0 := by rw [strayPorts_loses, strayLoss_devPstate]

theorem strayRetained_linkUp : strayRetained.host.linkUp = false := by
  obtain ⟨-, hhost⟩ := State.enterRetention_last strayDevice_portsDown (by decide)
  rw [strayRetained, hhost, State.portDown_host]
  exact (congrArg (fun t => t.host.linkUp) strayPorts_loses).trans strayLoss_linkUp

theorem strayRetained_qdefs : strayRetained.qdefs = [] :=
  (State.enterRetention_same _ (within_self _) (State.same_self _)).qdefs_eq (by decide)

/-- Refutes O50: in `strayDevice` a command to enter PS2 ends with success, and DEV_STATE then shows power state 0. Lists are numbered
up to 383 (R407) and no op is in flight without a job, so the state is none of a running device: the statement lacks a premise on the
lists of the ops in flight. -/
theorem not_longCommandsDoTheirWork : ¬ Obligations.LongCommandsDoTheirWork := by
  unfold Obligations.LongCommandsDoTheirWork
  intro h
  have hfind : strayDevice.host.longs.find? (fun y => decide (y.mbx = 0) && decide (y.ended = none) &&
      (decide (y.code ∈ endedByDone) || decide (Status.success = Status.internalError))) = some retentionCommand := by decide
  have hexec : exec (.longCommandDone 0 ⟨Status.success, 0⟩) strayDevice =
      .next (strayRetained.endLong retentionCommand Status.success 0).releasePosted := by
    rw [exec_longCommandDone_carries (by decide) rfl hfind, State.carryOut_retention rfl (by decide) (by decide) (by decide)]
    rfl
  obtain ⟨-, -, -, -, -, -, -, -, -, -, -, ⟨-, henters, -⟩, -⟩ :=
    h strayDevice 0 ⟨Status.success, 0⟩ retentionCommand (by decide) hfind
  obtain ⟨u, hu, -, hshows, -⟩ := henters rfl rfl (by decide)
  have hsame : u.fld Fld.devPstate = strayRetained.fld Fld.devPstate :=
    State.fld_congr (State.reg_of_endLong_eq Reg.still_devState strayRetained_linkUp strayRetained_qdefs
      (Host.Outcome.next.inj (hu.symm.trans hexec)))
  rw [strayRetained_devPstate, hshows] at hsame
  exact absurd hsame (by decide)

end Sys2Proof.Machine

/-! O23: what the scrubber and the readers of a stack find in a line, and the rows that fail of it (R223, R224, R228, R231). -/
namespace Sys2Proof.Machine

/-- A read that finds one line it cannot correct counts the line and fails its row, as the scrubber does (R231, R240). -/
theorem State.badRead_line (s : State) (line ch pc row : Nat) : s.badRead [(line, ch, pc, row)] =
    (s.bump32 (Reg.errUncorr (s.stackOf (line * 64))) 1).rowFails (s.stackOf (line * 64)) ch pc row (line * 64) := rfl

/-- Settles O23: the device has the row, so the command does what the finding asks for. -/
theorem rowsFailAsR231Says : Obligations.RowsFailAsR231Says := by
  unfold Obligations.RowsFailAsR231Says
  intro s st ch pc row addr hst hch hpc noted
  have hrow : (decide (st < 12) && decide (ch < 32) && decide (pc < 2)) = true := by simp [hst, hch, hpc]
  refine ⟨?uncorrectable, ?correctedAgain, ?corrected, ?clean, fun line => State.badRead_line s line ch pc row⟩
  case uncorrectable => exact ifUnit_true hrow
  case correctedAgain => exact ifUnit_true hrow
  case corrected => exact ifUnit_true hrow
  case clean => exact ifUnit_true hrow

end Sys2Proof.Machine

/-! Pages and channels of a stack (R208, R232 to R235): what their operations leave of the registers and of the tables of the
memory-side dies. -/
namespace Sys2Proof.Machine

variable {s : State} {st ch : Nat}

-- registers of the stacks' pages

/-- The registers of the cores and of the stacks lie below those that traffic, faults and events move. -/
theorem Reg.still_of_lt {k : Nat} (hk : k < 0x70000) : Reg.Still k where
  port p := by simp only [Reg.portTx, Reg.portPage]; omega
  logged := Nat.ne_of_lt (Nat.lt_of_lt_of_le hk (by decide))
  absorbed := Nat.ne_of_lt (Nat.lt_of_lt_of_le hk (by decide))
  tail := Nat.ne_of_lt (Nat.lt_of_lt_of_le hk (by decide))
  held := Nat.ne_of_lt (Nat.lt_of_lt_of_le hk (by decide))
  lost := Nat.ne_of_lt (Nat.lt_of_lt_of_le hk (by decide))

theorem Reg.chanStatus_lt (hst : st < 12) (hch : ch < 32) : Reg.chanStatus st ch < Reg.reserve := by
  simp only [Reg.chanStatus, Reg.hbmPage, Reg.reserve]; omega

theorem Reg.stackPool_lt (hst : st < 12) : Reg.stackPool st < Reg.reserve := by
  simp only [Reg.stackPool, Reg.hbmPage, Reg.reserve]; omega

theorem Reg.stackCap_lt (hst : st < 12) : Reg.stackCap st < Reg.reserve := by
  simp only [Reg.stackCap, Reg.hbmPage, Reg.reserve]; omega

theorem Reg.still_chanStatus (hst : st < 12) (hch : ch < 32) : Reg.Still (Reg.chanStatus st ch) :=
  Reg.still_of_lt (Nat.lt_trans (Reg.chanStatus_lt hst hch) (by decide))

theorem Reg.still_stackCap (hst : st < 12) : Reg.Still (Reg.stackCap st) :=
  Reg.still_of_lt (Nat.lt_trans (Reg.stackCap_lt hst) (by decide))

/-- The channels' registers of a stack stand above the stack's own. -/
theorem Reg.chanStatus_ne_stack (hch : ch < 32) {o : Nat} (ho : o < 0x100) (t : Nat) :
    Reg.chanStatus st ch ≠ Reg.hbmPage t + o := by
  simp only [Reg.chanStatus, Reg.hbmPage]; omega

theorem Reg.reserve_ne_stackPool (t : Nat) : Reg.reserve ≠ Reg.stackPool t := by
  simp only [Reg.reserve, Reg.stackPool, Reg.hbmPage]; omega

-- fields that an operation does not write

theorem State.setFld_fld {f g : Fld} (v : Nat) (h : g.key ≠ f.key) : (s.setFld f v).fld g = s.fld g :=
  State.fld_congr (State.reg_setFld_other _ _ _ _ h)

theorem State.bump_fld {f g : Fld} (n : Nat) (h : g.key ≠ f.key) : (s.bump f n).fld g = s.fld g :=
  State.setFld_fld _ h

theorem State.onMemory_fld (f : Memory → Memory) (g : Fld) : (s.onMemory f).fld g = s.fld g := rfl

theorem State.logFault_fld {f : Fld} (hf : Reg.Still f.key) (cls unit sub outcome time detail : Nat) :
    (s.logFault cls unit sub outcome time detail).fld f = s.fld f :=
  State.fld_congr (State.logFault_reg hf ..)

theorem State.logFault_memory (cls unit sub outcome time detail : Nat) :
    (s.logFault cls unit sub outcome time detail).memory = s.memory := rfl

theorem State.setFld_chanState (st ch v : Nat) : (s.setFld (Fld.chanState st ch) v).fld (Fld.chanState st ch) = v % 4 :=
  State.fld_setFld_same _ (Fld.chanState st ch) v (by decide : 31 < 64) (by decide : 30 ≤ 31)

theorem State.usePages_fld {t n : Nat} {f : Fld} (h : f.key ≠ Reg.stackPool t) : (s.usePages t n).fld f = s.fld f :=
  State.setFld_fld _ h

theorem State.freePool_fld {t n : Nat} {f : Fld} (h : f.key ≠ Reg.stackPool t) : (s.freePool t n).fld f = s.fld f :=
  State.setFld_fld _ h

theorem State.fld_lt (f : Fld) : s.fld f < 2 ^ (f.hi - f.lo + 1) := Nat.mod_lt _ (Nat.two_pow_pos _)

/-- A field that has room counts on. -/
theorem State.fld_bump_same {f : Fld} {n : Nat} (hh : f.hi < 64) (hl : f.lo ≤ f.hi)
    (hn : s.fld f + n < 2 ^ (f.hi - f.lo + 1)) : (s.bump f n).fld f = s.fld f + n := by
  unfold State.bump
  rw [State.fld_setFld_same _ _ _ hh hl, Nat.min_eq_left (by omega), Nat.mod_eq_of_lt hn]

/-- A field counted on by nothing reads what it read. -/
theorem State.fld_bump_zero (f : Fld) (hh : f.hi < 64) (hl : f.lo ≤ f.hi) : (s.bump f 0).fld f = s.fld f :=
  State.fld_bump_same hh hl (State.fld_lt f)

-- pages taken from the reserve

/-- Taking a channel's pages from the reserve is a run of pages used and free values drawn. -/
theorem State.useReserve_induction {P : State → Prop} (huse : ∀ u t n, P u → P (u.usePages t n))
    (hfresh : ∀ u : State, P u → P u.fresh.2) (hs : P s) (st : Nat) : P (s.useReserve st) := by
  unfold State.useReserve
  exact List.foldlRecOn (motive := fun a : State × Nat => P a.1) _ _ (huse _ _ _ hs)
    (fun _ ha _ _ => huse _ _ _ (hfresh _ ha))

theorem State.useReserve_fld {f : Fld} (h : ∀ t, f.key ≠ Reg.stackPool t) (st : Nat) : (s.useReserve st).fld f = s.fld f :=
  State.useReserve_induction (P := fun u => u.fld f = s.fld f) (fun _ t _ hu => (State.usePages_fld (h t)).trans hu)
    (fun _ hu => hu) rfl st

/-- Of the tables of the memory-side dies only the count of pages in use changes. -/
theorem State.useReserve_memory (st : Nat) : ∃ used, (s.useReserve st).memory = { s.memory with used := used } :=
  State.useReserve_induction (P := fun u => ∃ used, u.memory = { s.memory with used := used })
    (fun u t n ⟨used, hu⟩ => ⟨_, by rw [State.usePages, State.refreshPool, State.setFld_memory, State.onMemory_memory, hu]⟩)
    (fun _ hu => hu) ⟨s.memory.used, rfl⟩ st

-- map-out (R234, R235)

/-- A channel in service that the reserve takes migrates out. -/
theorem State.mapOut_migrates (hst : st < 12) (hch : ch < 32) (hserves : s.fld (Fld.chanState st ch) = 0)
    (hfree : 24576 ≤ s.fld Fld.freePages) :
    (s.mapOut st ch).memory.chanMig = s.memory.chanMig ++ [(st, ch)] ∧ (s.mapOut st ch).fld (Fld.chanState st ch) = 1 := by
  simp only [State.mapOut, hserves, ne_eq, not_true_eq_false, false_and, if_false, hfree, if_true]
  constructor
  case left =>
    obtain ⟨used, hused⟩ := State.useReserve_memory
      (s := (s.setFld (Fld.chanState st ch) 1).setFld Fld.freePages (s.fld Fld.freePages - 24576)) st
    exact congrArg (·.chanMig ++ [(st, ch)]) hused
  case right =>
    rw [State.logFault_fld (Reg.still_chanStatus hst hch), State.onMemory_fld,
      State.useReserve_fld (Reg.chanStatus_ne_stack hch (by decide)), State.setFld_fld _ (Nat.ne_of_lt (Reg.chanStatus_lt hst hch))]
    exact State.setFld_chanState st ch _

/-- A channel in service that the reserve does not take stays in service, its pages lost to the next admission. -/
theorem State.mapOut_keeps (hst : st < 12) (hch : ch < 32) (hserves : s.fld (Fld.chanState st ch) = 0)
    (hfree : s.fld Fld.freePages < 24576) :
    (s.mapOut st ch).memory.chanStuck = s.memory.chanStuck ++ [(st, ch)] ∧ (s.mapOut st ch).fld (Fld.chanState st ch) = 3 ∧
      (s.mapOut st ch).fld (Fld.capNext st) = s.fld (Fld.capNext st) - 1472 := by
  have hcap : Reg.chanStatus st ch ≠ Reg.stackCap st := Reg.chanStatus_ne_stack hch (by decide) st
  have hlt : s.fld (Fld.capNext st) < 2 ^ 16 := State.fld_lt (Fld.capNext st)
  have hserving : decide ((0 : Nat) = 3) = false := rfl
  simp only [State.mapOut, hserves, ne_eq, not_true_eq_false, false_and, if_false, Nat.not_le.mpr hfree, hserving,
    Bool.false_eq_true]
  refine ⟨rfl, ?state, ?capacity⟩
  case state =>
    rw [State.logFault_fld (Reg.still_chanStatus hst hch), State.onMemory_fld, State.setFld_fld _ hcap]
    exact State.setFld_chanState st ch _
  case capacity =>
    rw [State.logFault_fld (Reg.still_stackCap hst), State.onMemory_fld,
      State.fld_setFld_same _ (Fld.capNext st) _ (by decide : 31 < 64) (by decide : 16 ≤ 31)]
    exact Nat.mod_eq_of_lt (Nat.lt_of_le_of_lt (Nat.sub_le _ _) hlt)

/-- The repairs of a memory-side die: the rows soft-repaired, and those marked for hard repair (R232). -/
def Memory.repairs (m : Memory) : List (Nat × Nat × Nat × Nat) × List (Nat × Nat × Nat × Nat) := (m.remapped, m.hardPending)

theorem Memory.repairs_channels (m : Memory) (stuck mig : List (Nat × Nat)) :
    Memory.repairs { m with chanStuck := stuck, chanMig := mig } = m.repairs := rfl

theorem State.useReserve_repairs (st : Nat) : (s.useReserve st).memory.repairs = s.memory.repairs := by
  obtain ⟨used, hused⟩ := State.useReserve_memory (s := s) st
  rw [hused]; rfl

theorem State.mapOut_repairs (st ch : Nat) : (s.mapOut st ch).memory.repairs = s.memory.repairs := by
  unfold State.mapOut
  dsimp only
  split
  · rfl
  · split
    · rw [State.logFault_memory, State.onMemory_memory, Memory.repairs_channels, State.useReserve_repairs, State.setFld_memory,
        State.setFld_memory]
      split <;> rfl
    · split <;> rfl

theorem State.keepRetired_repairs (st ch page : Nat) : (s.keepRetired st ch page).memory.repairs = s.memory.repairs := by
  unfold State.keepRetired
  dsimp only
  split
  · exact State.mapOut_repairs st ch
  · rfl

-- page tests stopped (R473, R479)

theorem State.pageFault_repairs (st ch page : Nat) : (s.pageFault st ch page).memory.repairs = s.memory.repairs := by
  have hothers (l : List (Nat × Nat × Nat)) (t : State) :
      (l.foldl (fun s p => s.freePool p.1 1) t).memory.repairs = t.memory.repairs :=
    List.foldlRecOn (motive := fun u : State => u.memory.repairs = t.memory.repairs) _ _ rfl (fun _ hu _ _ => hu)
  unfold State.pageFault
  dsimp only
  split
  · exact (State.keepRetired_repairs st ch page).trans (hothers _ _)
  · exact hothers _ _

section
variable (hidle : s.memory.pageTest = [])
include hidle

/-- Where no page is under test, a row failure leaves the tables of the memory-side dies to its repair. -/
theorem State.pageFault_memory (st ch page : Nat) : (s.pageFault st ch page).memory = s.memory := by
  have hsame : { s.memory with pageTest := [] } = s.memory := by rw [← hidle]
  simp only [State.pageFault, hidle, List.not_mem_nil, decide_false, Bool.false_eq_true, if_false, List.filter_nil, List.foldl_nil]
  exact hsame

theorem State.pageFault_fld (st ch page : Nat) (f : Fld) (hf : f.key < Reg.reserve ∨ f = Fld.freePages) :
    (s.pageFault st ch page).fld f = s.fld f := by
  simp only [State.pageFault, hidle, List.not_mem_nil, decide_false, Bool.false_eq_true, if_false, List.filter_nil, List.foldl_nil,
    List.length_nil]
  obtain hkey | rfl := hf
  · rw [State.setFld_fld _ (Nat.ne_of_lt (Nat.lt_trans hkey (by decide))), State.bump_fld 0 (Nat.ne_of_lt hkey)]
    rfl
  · rw [State.setFld_fld _ (by decide), State.fld_bump_zero Fld.freePages (by decide) (by decide)]
    rfl

theorem State.pageFault_freePages (st ch page : Nat) : (s.pageFault st ch page).fld Fld.freePages = s.fld Fld.freePages :=
  State.pageFault_fld hidle st ch page Fld.freePages (.inr rfl)

theorem State.pageFault_poolFree (hst : st < 12) (ch page : Nat) :
    (s.pageFault st ch page).fld (Fld.poolFree st) = s.fld (Fld.poolFree st) :=
  State.pageFault_fld hidle st ch page (Fld.poolFree st) (.inl (Reg.stackPool_lt hst))

theorem State.pageFault_capNext (hst : st < 12) (ch page : Nat) :
    (s.pageFault st ch page).fld (Fld.capNext st) = s.fld (Fld.capNext st) :=
  State.pageFault_fld hidle st ch page (Fld.capNext st) (.inl (Reg.stackCap_lt hst))

theorem State.pageFault_chanRetired (hst : st < 12) (hch : ch < 32) (page : Nat) :
    (s.pageFault st ch page).fld (Fld.chanRetired st ch) = s.fld (Fld.chanRetired st ch) :=
  State.pageFault_fld hidle st ch page (Fld.chanRetired st ch) (.inl (Reg.chanStatus_lt hst hch))

theorem State.pageFault_chanState (hst : st < 12) (hch : ch < 32) (page : Nat) :
    (s.pageFault st ch page).fld (Fld.chanState st ch) = s.fld (Fld.chanState st ch) :=
  State.pageFault_fld hidle st ch page (Fld.chanState st ch) (.inl (Reg.chanStatus_lt hst hch))

end

-- a page retired (R233)

theorem State.absorbWithin_memory (cls unit sub outcome bound detail : Nat) :
    (s.absorbWithin cls unit sub outcome bound detail).memory = s.memory :=
  (State.absorbWithin_same s cls unit sub outcome bound detail (within_self _) s.same_self).memory_eq (by decide)

theorem State.logFault_hardPending (cls unit sub outcome time detail : Nat) :
    (s.logFault cls unit sub outcome time detail).mram.hardPending = s.mram.hardPending := by
  obtain ⟨log, hlog⟩ := State.logFault_eq (s := s) cls unit sub outcome time detail
  rw [hlog]; rfl

theorem State.absorbWithin_hardPending (cls unit sub outcome bound detail : Nat) :
    (s.absorbWithin cls unit sub outcome bound detail).mram.hardPending = s.mram.hardPending := by
  unfold State.absorbWithin State.absorb
  rw [State.logFault_hardPending, State.startSlow_mram]
  rfl

/-- A page of a channel that may retire one more moves to its stack's pool. -/
theorem State.retirePage_migrates {page : Nat} (hst : st < 12) (hch : ch < 32) (hpage : (st, ch, page) ∉ s.memory.pageMig)
    (hroom : s.fld (Fld.chanRetired st ch) < 32) (hpool : s.fld (Fld.poolFree st) ≠ 0) (addr : Nat) :
    (s.retirePage st ch page addr).memory.pageMig = s.memory.pageMig ++ [(st, ch, page)] ∧
      (s.retirePage st ch page addr).fld (Fld.chanRetired st ch) = s.fld (Fld.chanRetired st ch) + 1 ∧
      (s.retirePage st ch page addr).memory.repairs = s.memory.repairs := by
  have hlimit : ¬(32 < s.fld (Fld.chanRetired st ch) + 1 ∨ s.fld (Fld.poolFree st) = 0) := by omega
  have hstack {o : Nat} (ho : o < 0x100) := Reg.chanStatus_ne_stack (st := st) hch ho st
  simp only [State.retirePage, if_neg hpage, if_neg hlimit, State.absorbWithin_memory]
  refine ⟨rfl, ?_, rfl⟩
  rw [State.absorbWithin_fld (Reg.still_chanStatus hst hch), State.onMemory_fld, State.usePages_fld (hstack (by decide)),
    State.setFld_fld _ (Nat.ne_of_lt (Reg.chanStatus_lt hst hch)), State.bump_fld 1 (hstack (o := 0) (by decide))]
  exact State.fld_bump_same (f := Fld.chanRetired st ch) (by decide : 7 < 64) (by decide : 0 ≤ 7)
    (Nat.lt_of_lt_of_le (Nat.add_lt_add_right hroom 1) (by decide : 33 ≤ 2 ^ 8))

/-- A page that its channel or its stack's pool has no room for takes its channel with it (R234). -/
theorem State.retirePage_mapsOut {page : Nat} (hpage : (st, ch, page) ∉ s.memory.pageMig)
    (hlimit : 32 ≤ s.fld (Fld.chanRetired st ch) ∨ s.fld (Fld.poolFree st) = 0) (addr : Nat) :
    s.retirePage st ch page addr = s.mapOut st ch := by
  rw [State.retirePage, if_neg hpage, if_pos (by omega)]

-- a row that fails (R231 to R233)

/-- A failing row that is not repaired: it was remapped before, or its pseudo-channel has no spare row left. -/
def State.unrepairable (s : State) (st ch pc row : Nat) : Prop :=
  (st, ch, pc, row) ∈ s.memory.remapped ∨
    64 ≤ (s.memory.remapped.filter (fun r => r.1 = st && r.2.1 = ch && r.2.2.1 = pc)).length

section
variable {pc row : Nat}

/-- What stopping the page tests does bears on no row. -/
theorem State.pageFault_unrepairable (page : Nat) :
    (s.pageFault st ch page).unrepairable st ch pc row ↔ s.unrepairable st ch pc row := by
  have hrows : (s.pageFault st ch page).memory.remapped = s.memory.remapped :=
    congrArg Prod.fst (State.pageFault_repairs st ch page)
  rw [State.unrepairable, State.unrepairable, hrows]

/-- A row that can be repaired is remapped and marked for hard repair. -/
theorem State.rowFails_repairs (hrow : ¬s.unrepairable st ch pc row) (addr : Nat) :
    (s.rowFails st ch pc row addr).memory.repairs =
        (s.memory.remapped ++ [(st, ch, pc, row)], s.memory.hardPending ++ [(st, ch, pc, row)]) ∧
      (s.rowFails st ch pc row addr).mram.hardPending = s.memory.hardPending ++ [(st, ch, pc, row)] := by
  obtain ⟨hremapped, hpending⟩ := Prod.mk.inj (State.pageFault_repairs (s := s) st ch (s.pageOf addr))
  have hrow' := hrow ∘ (State.pageFault_unrepairable (s.pageOf addr)).mp
  rw [State.unrepairable] at hrow'
  simp only [State.rowFails, if_neg hrow', State.absorbWithin_memory, State.absorbWithin_hardPending]
  rw [← hremapped, ← hpending]
  exact ⟨rfl, rfl⟩

/-- A row that cannot be repaired has its page retired. -/
theorem State.rowFails_retires (hrow : s.unrepairable st ch pc row) (addr : Nat) :
    s.rowFails st ch pc row addr =
      (s.pageFault st ch (s.pageOf addr)).retirePage st ch ((s.pageFault st ch (s.pageOf addr)).pageOf addr) addr := by
  have hrow' := (State.pageFault_unrepairable (s.pageOf addr)).mpr hrow
  rw [State.unrepairable] at hrow'
  rw [State.rowFails]
  exact if_pos hrow'

theorem State.rowFails_mem (addr : Nat) : (s.rowFails st ch pc row addr).mem = s.mem :=
  (State.rowFails_same s st ch pc row addr (within_self _) s.same_self).mem_eq (by decide)

end

end Sys2Proof.Machine

/-! O24: what a failing row does where no page is under test, and the ends of migrations, copies and commits (R54, R232 to R235,
R336, R369). -/
namespace Sys2Proof.Machine

variable {s : State} {st ch pc row addr : Nat}

-- a row that fails again

theorem State.pageOf_congr {t : State} (h : t.memory = s.memory) (addr : Nat) : t.pageOf addr = s.pageOf addr := by
  unfold State.pageOf State.channel State.place
  rw [h]

section
variable (hrow : s.unrepairable st ch pc row) (hidle : s.memory.pageTest = []) (hpage : (st, ch, s.pageOf addr) ∉ s.memory.pageMig)
include hrow hidle

theorem State.rowFails_retires_idle :
    s.rowFails st ch pc row addr = (s.pageFault st ch (s.pageOf addr)).retirePage st ch (s.pageOf addr) addr := by
  rw [State.rowFails_retires hrow, State.pageOf_congr (State.pageFault_memory hidle st ch _)]

variable (hst : st < 12) (hch : ch < 32)
include hpage hst hch

/-- While its channel and its stack's pool have room, the page of such a row migrates (R233). -/
theorem State.rowFails_migratesPage (hroom : s.fld (Fld.chanRetired st ch) < 32) (hpool : s.fld (Fld.poolFree st) ≠ 0) :
    (s.rowFails st ch pc row addr).memory.pageMig = s.memory.pageMig ++ [(st, ch, s.pageOf addr)] ∧
      (s.rowFails st ch pc row addr).fld (Fld.chanRetired st ch) = s.fld (Fld.chanRetired st ch) + 1 ∧
      (s.rowFails st ch pc row addr).memory.remapped = s.memory.remapped := by
  have hmemory := State.pageFault_memory hidle st ch (s.pageOf addr)
  have hretired := State.pageFault_chanRetired hidle hst hch (s.pageOf addr)
  have hfree := State.pageFault_poolFree hidle hst ch (s.pageOf addr)
  rw [State.rowFails_retires_idle hrow hidle, ← hretired, ← hmemory]
  obtain ⟨hmig, hcount, hrepairs⟩ :=
    State.retirePage_migrates hst hch (hmemory ▸ hpage) (hretired ▸ hroom) (hfree ▸ hpool) addr
  exact ⟨hmig, hcount, congrArg Prod.fst hrepairs⟩

section
variable (hlimit : 32 ≤ s.fld (Fld.chanRetired st ch) ∨ s.fld (Fld.poolFree st) = 0)
include hlimit

/-- Past that the channel is mapped out, or kept without a reserve (R234, R235). -/
theorem State.rowFails_mapsOut : s.rowFails st ch pc row addr = (s.pageFault st ch (s.pageOf addr)).mapOut st ch := by
  rw [State.rowFails_retires_idle hrow hidle]
  apply State.retirePage_mapsOut
  · rwa [State.pageFault_memory hidle]
  · rwa [State.pageFault_chanRetired hidle hst hch, State.pageFault_poolFree hidle hst]

variable (hserves : s.fld (Fld.chanState st ch) = 0)
include hserves

theorem State.rowFails_migratesChannel (hfree : 24576 ≤ s.fld Fld.freePages) :
    (s.rowFails st ch pc row addr).memory.chanMig = s.memory.chanMig ++ [(st, ch)] ∧
      (s.rowFails st ch pc row addr).fld (Fld.chanState st ch) = 1 := by
  rw [State.rowFails_mapsOut hrow hidle hpage hst hch hlimit, ← State.pageFault_memory hidle st ch (s.pageOf addr)]
  exact State.mapOut_migrates hst hch ((State.pageFault_chanState hidle hst hch _).trans hserves)
    (by rwa [State.pageFault_freePages hidle])

theorem State.rowFails_keepsChannel (hfree : s.fld Fld.freePages < 24576) :
    (s.rowFails st ch pc row addr).memory.chanStuck = s.memory.chanStuck ++ [(st, ch)] ∧
      (s.rowFails st ch pc row addr).fld (Fld.chanState st ch) = 3 ∧
      (s.rowFails st ch pc row addr).fld (Fld.capNext st) = s.fld (Fld.capNext st) - 1472 := by
  rw [State.rowFails_mapsOut hrow hidle hpage hst hch hlimit, ← State.pageFault_memory hidle st ch (s.pageOf addr),
    ← State.pageFault_capNext hidle hst ch (s.pageOf addr)]
  exact State.mapOut_keeps hst hch ((State.pageFault_chanState hidle hst hch _).trans hserves)
    (by rwa [State.pageFault_freePages hidle])

end

end

-- the ends of migrations

/-- A page whose migration ends is retired (R233). -/
theorem exec_pageMigrationDone_migrating {page : Nat} (hst : st < 12) (hch : ch < 32) (hpage : (st, ch, page) ∈ s.memory.pageMig) :
    exec (.pageMigrationDone st ch page) s = .next (s.onMemory (fun m => { m with
      pageMig := m.pageMig.filter (fun p => p ≠ (st, ch, page))
      retired := m.retired.filter (fun p => p ≠ (st, ch, page)) ++ [(st, ch, page)] })) :=
  (ifUnit_true (by simp [hst, hch])).trans (congrArg _ (if_pos hpage))

/-- A channel whose migration has ended: it reads mapped out, and its pages have returned to its stack's pool (R234). -/
def State.channelMigrated (s : State) (st ch : Nat) : State :=
  let n := s.fld (Fld.chanRetired st ch)
  let s1 := s.onMemory (fun m => { m with
    chanMig := m.chanMig.filter (fun p => p ≠ (st, ch))
    retired := m.retired.filter (fun p => !(p.1 = st && p.2.1 = ch))
    pageMig := m.pageMig.filter (fun p => !(p.1 = st && p.2.1 = ch)) })
  let s2 := ((s1.setFld (Fld.chanState st ch) 2).bump (Fld.chanOut st) 1).setFld (Fld.chanRetired st ch) 0
  ((s2.setFld (Fld.stackRetired st) (s2.fld (Fld.stackRetired st) - n)).bump Fld.freePages n).freePool st n

/-- The channels that were kept in service follow it out as far as the reserve now goes (R235). -/
theorem exec_channelMigrationDone_migrating (hst : st < 12) (hch : ch < 32) (hchan : (st, ch) ∈ s.memory.chanMig) :
    exec (.channelMigrationDone st ch) s = .next (s.channelMigrated st ch).mapStuck :=
  (ifUnit_true (by simp [hst, hch])).trans (congrArg _ (if_pos hchan))

theorem State.channelMigrated_fields (hst : st < 12) (hch : ch < 32) :
    (s.channelMigrated st ch).fld (Fld.chanState st ch) = 2 ∧ (s.channelMigrated st ch).fld (Fld.chanRetired st ch) = 0 := by
  have hstack {o : Nat} (ho : o < 0x100) := Reg.chanStatus_ne_stack (st := st) hch ho st
  have hreserve := Nat.ne_of_lt (Reg.chanStatus_lt hst hch)
  unfold State.channelMigrated
  constructor
  · rw [State.freePool_fld (hstack (by decide)), State.bump_fld _ hreserve, State.setFld_fld _ (hstack (o := 0) (by decide)),
      State.fld_setFld_other _ (Fld.chanRetired st ch) (Fld.chanState st ch) 0 (by decide : 7 < 64) (by decide : 0 ≤ 7)
        (by decide : 30 ≤ 31) (.inr (.inr (by decide : 7 < 30))),
      State.bump_fld 1 (hstack (o := 0) (by decide)), State.setFld_chanState]
  · rw [State.freePool_fld (hstack (by decide)), State.bump_fld _ hreserve, State.setFld_fld _ (hstack (o := 0) (by decide))]
    exact State.fld_setFld_same _ (Fld.chanRetired st ch) 0 (by decide : 7 < 64) (by decide : 0 ≤ 7)

theorem State.channelMigrated_lists : (st, ch) ∉ (s.channelMigrated st ch).memory.chanMig ∧
    ∀ p ∈ (s.channelMigrated st ch).memory.retired, ¬(p.1 = st ∧ p.2.1 = ch) := by
  have hmig : (s.channelMigrated st ch).memory.chanMig = s.memory.chanMig.filter (fun p => p ≠ (st, ch)) := rfl
  have hretired : (s.channelMigrated st ch).memory.retired = s.memory.retired.filter (fun p => !(p.1 = st && p.2.1 = ch)) := rfl
  rw [hmig, hretired]
  refine ⟨by simp, fun p hp ⟨hstack, hchan⟩ => ?_⟩
  have hother := (List.mem_filter.mp hp).2
  simp [hstack, hchan] at hother

theorem State.channelMigrated_mem : (s.channelMigrated st ch).mem = s.mem := rfl

-- the ends of copies and commits

/-- A granule's undo copy made, what waited for it goes on (R54). -/
theorem exec_undoCopyDone_copied {g : Nat} {u : Undo} (hcopy : Tab.find? s.memory.undo g = some u) (hdue : u.done = false) :
    exec (.undoCopyDone g) s =
      .next (s.onMemory (fun m => { m with undo := Tab.put g { u with done := true } m.undo })).goOn := by
  simp only [exec, execUndoCopyDone, hcopy, hdue, Bool.false_eq_true, if_false]

/-- A granule saved before its write, what waited for it goes on (R369). -/
theorem exec_cbwCopyDone_saved {g : Nat} {im : Image} (hcopy : Tab.find? s.ckpt.grans g = some (.saving im)) :
    exec (.cbwCopyDone g) s =
      .next ({ s with ckpt := { s.ckpt with grans := Tab.put g (.saved im) s.ckpt.grans } } : State).goOn := by
  simp only [exec, execCbwCopyDone, hcopy]

/-- The requests at a line commit once it is free (R336). -/
theorem exec_lineCommit_queued {line : Nat} (hqueue : s.queueAt line ≠ []) :
    exec (.lineCommit line) s = .next
      (((((s.at_ (s.busyUntil line)).pull line (((s.at_ (s.busyUntil line)).queueAt line).length + 1)).finishServes).settle).releaseHeld) :=
  congrArg _ (if_neg hqueue)

/-- Settles O24: the row by whether it can be repaired and what room is left, then each end of a migration, a copy and a commit. -/
theorem failedRowsAreRepairedOrRetired : Obligations.FailedRowsAreRepairedOrRetired := by
  unfold Obligations.FailedRowsAreRepairedOrRetired
  refine ⟨fun s st ch pc row addr hst hch => ?row, fun s => ⟨?page, ?channel, fun g u => exec_undoCopyDone_copied,
    fun g im => exec_cbwCopyDone_saved, fun line => exec_lineCommit_queued⟩⟩
  case row =>
    have hmem : (s.rowFails st ch pc row addr).mem = s.mem := State.rowFails_mem addr
    refine ⟨fun hnew hspare => ?_, fun hrow hidle hpage => ⟨fun hroom hpool => ?_, fun hlimit hserves => ⟨?_, ?_⟩⟩⟩
    · obtain ⟨htables, hpending⟩ := State.rowFails_repairs (not_or.mpr ⟨hnew, hspare⟩) addr
      obtain ⟨hremapped, hmarked⟩ := Prod.mk.inj htables
      exact ⟨hremapped, hmarked, hpending, hmem⟩
    · obtain ⟨hmig, hcount, hremapped⟩ := State.rowFails_migratesPage hrow hidle hpage hst hch hroom hpool
      exact ⟨hmig, hcount, hremapped, hmem⟩
    · exact State.rowFails_migratesChannel hrow hidle hpage hst hch hlimit hserves
    · exact State.rowFails_keepsChannel hrow hidle hpage hst hch hlimit hserves
  case page =>
    intro st ch page hst hch hpage
    exact ⟨_, exec_pageMigrationDone_migrating hst hch hpage, by simp, rfl, rfl, rfl⟩
  case channel =>
    intro st ch hst hch hchan
    obtain ⟨hstate, hretired⟩ := State.channelMigrated_fields (s := s) hst hch
    obtain ⟨hmig, hpages⟩ := State.channelMigrated_lists (s := s) (st := st) (ch := ch)
    exact ⟨_, exec_channelMigrationDone_migrating hst hch hchan, hstate, hretired, hmig, hpages, rfl⟩

end Sys2Proof.Machine

/-! Queues: what a queue reads after an update of the state, and what a reservation, a slot and a window fetch make of it (R283 to
R287). -/
namespace Sys2Proof.Machine

variable {s : State} {q : Nat} {w : Reservation}

-- one queue read after an update

@[simp] theorem State.queue_setQueue_same (x : Queue) : (s.setQueue q x).queue q = x := by
  simp [State.queue]

theorem State.queue_setQueue_other {r : Nat} (x : Queue) (h : r ≠ q) : (s.setQueue q x).queue r = s.queue r := by
  simp [State.queue, Tab.find?_put_other _ _ h]

@[simp] theorem State.queue_refreshEngine (t r : Nat) : (s.refreshEngine t).queue r = s.queue r := rfl

@[simp] theorem State.queue_bump64 (k n r : Nat) : (s.bump64 k n).queue r = s.queue r := rfl

-- reservations (R285)

/-- The packet of a reservation granted at position `p`. -/
def Reservation.packetAt (w : Reservation) (p : Nat) : Packet :=
  ⟨p, w.size, w.prod, w.entries.zipIdx.map (fun e => (e.2, e.1)), [], w.origin⟩

/-- The queue with a reservation granted: the packet takes the next positions, behind those before it. -/
def Queue.granted (x : Queue) (w : Reservation) : Queue :=
  { x with pos := { x.pos with p := x.pos.p + w.size }, packets := x.packets ++ [w.packetAt x.pos.p] }

/-- For an op of this device the grant changes the queue and the engine's registers only. -/
theorem State.reserve_op {id : Nat} (h : w.origin = .op id) :
    s.reserve q w = ((s.setQueue q ((s.queue q).granted w)).refreshEngine (s.qHome q)).bump64 (Reg.queRoomWait (s.qHome q))
      (w.roomWait s.now) := by
  simp only [State.reserve, Queue.granted, Reservation.packetAt, h]

theorem State.canReserve_iff {n : Nat} : s.canReserve q n = true ↔ (s.queue q).resident = true ∧ (s.queue q).writeback = false ∧
    s.openPackets (s.qHome q) < 2048 ∧ n ≤ s.qRoom q := by
  simp only [State.canReserve, Bool.and_eq_true, Bool.not_eq_true', decide_eq_true_eq, and_assoc]
  exact and_congr_right fun _ => ⟨fun ⟨htracker, hroom, hfree⟩ => ⟨hfree, htracker, hroom⟩,
    fun ⟨hfree, htracker, hroom⟩ => ⟨htracker, hroom, hfree⟩⟩

theorem State.mayGrant_iff :
    s.mayGrant q w = true ↔ s.canReserve q w.size = true ∧ (w.origin = .host → s.hasWaits .host = false) := by
  simp only [State.mayGrant, Bool.and_eq_true, Bool.not_eq_true', Bool.and_eq_false_imp, decide_eq_true_eq]

section
variable {rest : List Reservation} (hw : (s.queue q).waiting = w :: rest)
include hw

/-- The first reservation that cannot be granted holds back every later one (R285). -/
theorem State.grantWaiting_holds (hno : s.mayGrant q w = false) (n : Nat) : s.grantWaiting q n = s := by
  cases n with
  | zero => rfl
  | succ n => simp [State.grantWaiting, hw, hno]

theorem State.grantWaiting_grants (hyes : s.mayGrant q w = true) (n : Nat) : s.grantWaiting q (n + 1) =
    ((s.setQueue q { s.queue q with waiting := rest }).reserve q w).grantWaiting q n := by
  simp [State.grantWaiting, hw, hyes]

end

/-- Reservations wait: the slot is asked for, those that can be are granted, and which lack room is noted. -/
theorem State.grants_waiting (h : (s.queue q).waiting ≠ []) : s.grants q =
    ((s.needSlot q).grantWaiting q ((s.needSlot q).queue q).waiting.length).noteRoom q :=
  if_neg (by simpa using h)

theorem State.grants_nil (h : (s.queue q).waiting = []) : s.grants q = s := if_pos (by simp [h])

-- slots and windows (R283, R284)

@[simp] theorem State.slotTaken_queue : (s.slotTaken q).queue q = { s.queue q with fetching := true, slotSince := none } := by
  simp only [State.slotTaken, State.queue_setQueue_same]

/-- A refill changes nothing of the queue but the head window. -/
theorem State.refillHead_queue : ∃ h, (s.refillHead q).queue q = { s.queue q with head := h } :=
  ⟨_, State.queue_setQueue_same _⟩

theorem State.fetched_queue : ((s.fetched q).queue q).resident = true ∧ ((s.fetched q).queue q).fetching = false := by
  obtain ⟨h, hrefill⟩ := State.refillHead_queue (s := s.setQueue q { s.queue q with resident := true, fetching := false }) (q := q)
  simp [State.fetched, hrefill]

end Sys2Proof.Machine

/-! The release of positions (R286): the landed prefix of a packet, when the packet is open, and how far L follows. -/
namespace Sys2Proof.Machine

variable {k : Packet} {thr l m : Nat}

/-- The first `m` entries of the packet have landed. -/
def Packet.LandedTo (k : Packet) (m : Nat) : Prop := ∀ i, i < m → i ∈ k.landed

/-- A run from 0 that ends at `r` is as long as `r`. -/
theorem length_takeWhile_range {p : Nat → Bool} {n r : Nat} (hr : r ≤ n) (hrun : ∀ i, i < r → p i = true)
    (hstop : r < n → p r = false) : ((List.range n).takeWhile p).length = r := by
  obtain ⟨d, rfl⟩ := Nat.exists_eq_add_of_le hr
  rw [List.range_add, List.takeWhile_append_of_pos (by simpa using hrun)]
  cases d with
  | zero => simp
  | succ d => simp [List.range_succ_eq_map, hstop (by omega)]

/-- Entries landed once each and inside the packet are all of it when they are as many as it has. -/
theorem Packet.length_landed_iff (hnodup : k.landed.Nodup) (hin : ∀ i ∈ k.landed, i < k.size) :
    k.landed.length = k.size ↔ k.LandedTo k.size := by
  have hsub : k.landed ⊆ List.range k.size := fun i hi => List.mem_range.mpr (hin i hi)
  constructor
  · intro hlen i hi
    by_cases hmem : i ∈ k.landed
    · exact hmem
    · have hmore := (List.nodup_cons.mpr ⟨hmem, hnodup⟩).length_le_of_subset
        (List.cons_subset.mpr ⟨List.mem_range.mpr hi, hsub⟩)
      rw [List.length_cons, List.length_range] at hmore
      omega
  · intro hall
    have hle := hnodup.length_le_of_subset hsub
    have hge := List.nodup_range.length_le_of_subset (fun i hi => hall i (List.mem_range.mp hi))
    rw [List.length_range] at hle hge
    exact Nat.le_antisymm hle hge

/-- The packet opens with its last entry at threshold 0, and with its first min(T, n) at threshold T (R286). -/
theorem Packet.isOpen_iff (hnodup : k.landed.Nodup) (hin : ∀ i ∈ k.landed, i < k.size) :
    k.isOpen thr = true ↔ k.LandedTo (if thr = 0 then k.size else min thr k.size) := by
  by_cases hthr : thr = 0
  · simp [Packet.isOpen, hthr, Packet.length_landed_iff hnodup hin]
  · simp [Packet.isOpen, hthr, Packet.LandedTo]

theorem Packet.LandedTo.mono (h : k.LandedTo k.size) (hm : m ≤ k.size) : k.LandedTo m :=
  fun i hi => h i (by omega)

/-- From `off` inside the landed prefix, the run of landed entries goes to the prefix's end `m`. -/
theorem Packet.length_run {off : Nat} (hoff : off ≤ m) (hm : m ≤ k.size) (hlands : k.LandedTo m)
    (hstop : m < k.size → m ∉ k.landed) :
    ((List.range (k.size - off)).takeWhile (fun i => decide ((off + i) ∈ k.landed))).length = m - off := by
  refine length_takeWhile_range (by omega) (fun i hi => decide_eq_true (hlands _ (by omega))) (fun h => decide_eq_false ?_)
  rw [Nat.add_sub_cancel' hoff]
  exact hstop (by omega)

section
variable {rest : List Packet}

/-- L stays before a packet that is not open. -/
theorem advanceL_closed (h : k.isOpen thr = false) : advanceL thr (k :: rest) l = l := by
  simp [advanceL, h]

variable (hlo : k.start ≤ l) (hhi : l ≤ k.start + k.size) (hopen : k.isOpen thr = true)
include hlo hhi hopen

/-- Where the landed prefix of an open packet ends at `m`, L stops there, or passes to the next packet when that is its end. -/
theorem advanceL_open (hl : l - k.start ≤ m) (hm : m ≤ k.size) (hlands : k.LandedTo m) (hstop : m < k.size → m ∉ k.landed) :
    advanceL thr (k :: rest) l = if m = k.size then advanceL thr rest (k.start + k.size) else k.start + m := by
  have hrun := Packet.length_run hl hm hlands hstop
  have hend : l - k.start + (m - (l - k.start)) = m := Nat.add_sub_cancel' hl
  have hL : l + (m - (l - k.start)) = k.start + m := by omega
  rw [advanceL, if_pos ⟨hlo, hhi, hopen⟩]
  simp only [hrun, hend, hL]
  split
  case isTrue hwhole => rw [hwhole]
  case isFalse => rfl

theorem advanceL_prefix (hl : l - k.start ≤ m) (hm : m < k.size) (hlands : k.LandedTo m) (hnext : m ∉ k.landed) :
    advanceL thr (k :: rest) l = k.start + m := by
  rw [advanceL_open hlo hhi hopen hl (Nat.le_of_lt hm) hlands (fun _ => hnext), if_neg (Nat.ne_of_lt hm)]

theorem advanceL_whole (hlands : k.LandedTo k.size) :
    advanceL thr (k :: rest) l = advanceL thr rest (k.start + k.size) := by
  rw [advanceL_open hlo hhi hopen (by omega) (Nat.le_refl _) hlands (fun h => absurd h (Nat.lt_irrefl _)), if_pos rfl]

end

/-- Settles O26: the grant by its conditions and the head of the waiting list, then L by whether its packet is open and whole. -/
theorem reservationsAreGrantedInOrder : Obligations.ReservationsAreGrantedInOrder := by
  unfold Obligations.ReservationsAreGrantedInOrder
  refine ⟨fun s q => ⟨fun w id horigin => ?granted, fun n => State.canReserve_iff, fun w => State.mayGrant_iff,
    fun w rest n hw => ⟨fun hno => State.grantWaiting_holds hw hno n, fun hyes => State.grantWaiting_grants hw hyes n⟩⟩,
    fun thr k rest l hnodup hin hlo hhi => ?released⟩
  case granted =>
    intro t
    have ht : t = _ := State.reserve_op horigin
    rw [ht]
    exact ⟨by simp [Queue.granted], ⟨w.packetAt (s.queue q).pos.p, by simp [Queue.granted], rfl, rfl, rfl⟩,
      fun r hr => State.queue_setQueue_other _ hr, rfl⟩
  case released =>
    have hopens := Packet.isOpen_iff (thr := thr) hnodup hin
    have hmin : (if thr = 0 then k.size else min thr k.size) ≤ k.size := by split <;> omega
    exact ⟨hopens, advanceL_closed, fun hopen m => advanceL_prefix hlo hhi hopen,
      fun hlands => advanceL_whole hlo hhi (hopens.mpr (Packet.LandedTo.mono hlands hmin)) hlands⟩

end Sys2Proof.Machine

/-! What happens at a queue engine, and the host's writes to producer slots (R284, R287, R291, R367). -/
namespace Sys2Proof.Machine

variable {s : State} {q : Nat}

section
variable (hq : q < 1048576)
include hq

theorem exec_reservationGrant : exec (.reservationGrant q) s = .next ((s.grants q).releaseHeld.releasePosted) :=
  ifUnit_true (decide_eq_true hq)

theorem exec_trackerGrant (h : s.openPackets (s.qHome q) < 2048) :
    exec (.trackerGrant q) s = .next ((s.grants q).releaseHeld.releasePosted) :=
  (ifUnit_true (decide_eq_true hq)).trans (congrArg _ (if_pos h))

theorem exec_entryLanding {pos : Nat} {k : Packet} (hk : (s.queue q).packetOf pos = some k) (hw : (s.queue q).writeback = false) :
    exec (.entryLanding q pos) s = .next (((s.landAt k.origin q pos).afterLanding q k.origin).releaseHeld.releasePosted) := by
  simp [exec, execEntryLanding, queueOk, ifUnit, hq, hk, hw, State.goOnAll]

theorem exec_windowFetchDone (h : (s.queue q).fetching = true) : exec (.windowFetchDone q) s =
    .next ((((s.fetched q).grants q).serveDeqs q).releaseHeld.releasePosted) :=
  (ifUnit_true (decide_eq_true hq)).trans (congrArg _ (if_pos h))

theorem exec_headWindowRefill (hr : (s.queue q).resident = true) (hw : (s.queue q).writeback = false) :
    exec (.headWindowRefill q) s = .next (((s.refillHead q).serveDeqs q).releaseHeld.releasePosted) :=
  (ifUnit_true (decide_eq_true hq)).trans (congrArg _ (if_pos (by simp [hr, hw])))

/-- A slot that can be had is taken, and the queue's state fetched. -/
theorem exec_slotGrant_taken {since : Nat} (h : (s.queue q).slotSince = some since) (hgive : (s.giveSlot q).2 = true) :
    exec (.slotGrant q) s = .next (((s.giveSlot q).1.slotTaken q).refreshEngine (s.qHome q)) := by
  rcases hs1 : s.giveSlot q with ⟨s1, ok⟩
  rw [hs1] at hgive
  subst hgive
  simp [exec, execSlotGrant, queueOk, ifUnit, hq, h, hs1]

theorem exec_slotGrant_none (h : (s.queue q).slotSince = none) : exec (.slotGrant q) s = .next s := by
  simp [exec, execSlotGrant, queueOk, ifUnit, hq, h]

end

-- the end of a capture's write-back (R367)

/-- The queue takes accesses again, and the tick record marks that some waited. -/
def State.writebackOver (s : State) (q : Nat) : State :=
  let s0 := s.setQueue q { s.queue q with writeback := false }
  if (s.queue q).accessWaits then s0.excursion 3 else s0

/-- What arrived for a packet during the write-back lands. -/
def State.landPacket (q : Nat) (s : State) (k : Packet) : State :=
  ((List.range k.size).foldl (fun s i => s.landAt k.origin q (k.start + i)) s).afterLanding q k.origin

theorem exec_queueWritebackDone (hq : q < 1048576) (hw : (s.queue q).writeback = true) :
    exec (.queueWritebackDone q) s = .next ((((((s.writebackOver q).queue q).packets.foldl (State.landPacket q)
      (s.writebackOver q)).grants q).refillHead q).serveDeqs q).releaseHeld.releasePosted :=
  (ifUnit_true (decide_eq_true hq)).trans (congrArg _ (if_neg (by simp [hw])))

-- the host's writes (R291)

theorem exec_hostEnqueue {offset : Nat} {data : List Byte} (h : offset + data.length ≤ 262144 * 64) :
    exec (.hostEnqueue offset data) s = .next ((slotPieces offset data).foldl (fun s p => s.takeWrite (.slot p.1 p.2)) s) :=
  ifUnit_true (decide_eq_true h)

/-- A whole entry at its slot is one piece. -/
theorem slotPieces_entry (h : Nat) {data : List Byte} (hlen : data.length = 64) : slotPieces (h * 64) data = [(h * 64, data)] := by
  have hne : data ≠ [] := List.ne_nil_of_length_eq_add_one hlen
  simp [slotPieces, hne, hlen, chunksOf, List.take_of_length_le, List.drop_of_length_le]

/-- A whole entry of a queue that the host feeds is a reservation of one entry. -/
theorem State.hostPiece_entry {h : Nat} {data : List Byte} (hlen : data.length = 64)
    (hfed : (s.qdef? h).any (fun d => d.hostFed) = true) :
    s.hostPiece (h * 64) data = s.ask h (.of 1 1 [data] .host s.now) := by
  simp [State.hostPiece, hlen, hfed]

theorem exec_hostEnqueue_entry {h : Nat} {data : List Byte} (hh : h < 262144) (hlen : data.length = 64)
    (hpass : s.writesPass = true) (hfed : (s.qdef? h).any (fun d => d.hostFed) = true) :
    exec (.hostEnqueue (h * 64) data) s = .next (s.ask h (.of 1 1 [data] .host s.now)) := by
  rw [exec_hostEnqueue (by omega), slotPieces_entry h hlen, List.foldl_cons, List.foldl_nil, State.takeWrite_passes hpass]
  simp [State.carryWrite, State.barOpen_of_passes hpass, State.hostPiece_entry hlen hfed]

/-- Once 1 ms has passed, what can be granted is, and the write is dropped where its queue still lacks room. -/
theorem exec_hostEnqueueDrop_held {since : Nat} (hhold : s.oldestHold = some (q, since)) : exec .hostEnqueueDrop s =
    .next ((if ((s.at_ (since + us 1000)).grants q).oldestHold = some (q, since) ∧
        ((s.at_ (since + us 1000)).grants q).lacksRoom q = true
      then ((s.at_ (since + us 1000)).grants q).dropHeld q else (s.at_ (since + us 1000)).grants q).releaseHeld.releasePosted) := by
  simp only [exec, execHostEnqueueDrop, hhold, State.goOnAll]

theorem exec_hostEnqueueDrop_none (h : s.oldestHold = none) : exec .hostEnqueueDrop s = .next s := by
  simp only [exec, execHostEnqueueDrop, h]

/-- Settles O27: each event at a queue engine by its own lemma, then the host's writes by whether they pass, wait or are dropped. -/
theorem queueEnginesAndHostEnqueuesGoOn : Obligations.QueueEnginesAndHostEnqueuesGoOn := by
  unfold Obligations.QueueEnginesAndHostEnqueuesGoOn
  refine ⟨fun s q hq => ?engine, fun s => ?host⟩
  case engine =>
    refine ⟨fun h => ?_, fun h => ?_, fun hfree h => ?_, fun pos k => exec_entryLanding hq,
      fun h => ⟨exec_windowFetchDone hq h, State.fetched_queue⟩, fun since h hgive => ?slot, exec_slotGrant_none hq,
      exec_headWindowRefill hq, exec_queueWritebackDone hq⟩
    · rw [exec_reservationGrant hq, State.grants_waiting h]
    · rw [exec_reservationGrant hq, State.grants_nil h]
    · rw [exec_trackerGrant hq hfree, State.grants_waiting h]
    case slot => exact ⟨_, exec_slotGrant_taken hq h hgive, by simp, by simp, by simp⟩
  case host =>
    refine ⟨fun offset data => exec_hostEnqueue, fun h data hh hlen hopen hheld hposted => ?_,
      fun w => ⟨State.takeWrite_closed, State.takeWrite_held⟩, fun q since hhold => ⟨fun hgone => ?_, fun hsame hlacks => ?_⟩,
      exec_hostEnqueueDrop_none⟩
    · exact exec_hostEnqueue_entry hh hlen (State.writesPass_iff.mpr ⟨hopen, hheld, hposted⟩)
    · rw [exec_hostEnqueueDrop_held hhold, if_neg (fun hboth => hgone.elim (absurd hboth.1) (Bool.eq_false_iff.mp · hboth.2))]
    · rw [exec_hostEnqueueDrop_held hhold, if_pos ⟨hsame, hlacks⟩]

end Sys2Proof.Machine

/-! O35: answers to this device's requests and the deadlines of the waits for them (R319 to R322, R351, R352), and the timers of a home
and of its senders (R198, R199, R340, R343, R347). -/
namespace Sys2Proof.Machine

variable {s : State}

-- answers (R319, R352)

theorem State.arrives_here {tx : Tx} (hdst : tx.dst = s.gdn) (f : State → State) : s.arrives tx f = f s := if_pos hdst

section
variable {tx : Tx} (htype : tx.type = 0xF) (hdst : tx.dst = s.gdn)
include htype hdst

theorem exec_fabricReply_lost (hlost : s.isLost tx.src = true) : exec (.fabricReply tx) s = .next (s.bump64 Reg.fabLate 1) := by
  simp [exec, execFabricReply, State.arrives_here hdst, htype, hlost]

variable (hlost : s.isLost tx.src = false)
include hlost

theorem exec_fabricReply_answers {r : OutReq} (hr : s.answered tx = some r) :
    exec (.fabricReply tx) s = .next ((s.takeAnswer r tx).afterReply tx.src) := by
  simp [exec, execFabricReply, State.arrives_here hdst, htype, hlost, hr]

/-- A reply that answers nothing is discarded, and counted where it comes from no peer. -/
theorem exec_fabricReply_unasked (hr : s.answered tx = none) :
    exec (.fabricReply tx) s = .next (if s.fromPeer tx then s else s.malformed) := by
  simp [exec, execFabricReply, State.arrives_here hdst, htype, hlost, hr]
end

-- deadlines (R321, R322)

section
variable {peer seq : Nat} {r : OutReq}
  (hr : s.fabric.out.find? (fun r => decide (r.dst = peer) && decide (r.seq = seq) && !r.waiting) = some r)
include hr

theorem exec_replyDeadline_resends (hmay : r.resends < 3) : exec (.replyDeadline peer seq) s =
    .next (((s.at_ r.deadline).resend peer true).absorbWithin 0x10 (peer % 2 ^ 16) 0 0 100000 (r.tx.addr % 2 ^ 44 / 2 ^ 12)) := by
  simp only [exec, execReplyDeadline, hr, if_pos hmay]

theorem exec_replyDeadline_loses (hdone : 3 ≤ r.resends) :
    exec (.replyDeadline peer seq) s = .next (((s.at_ r.deadline).markLost peer 0).startCredits).releaseHeld := by
  simp only [exec, execReplyDeadline, hr, if_neg (Nat.not_lt.mpr hdone)]
end

theorem exec_pendingNoticeSend (peer : Nat) :
    exec (.pendingNoticeSend peer) s = .next (if s.holdsFor peer then s.sendTx (s.mkTx 8 1 peer 0 0 []) else s) := rfl

theorem exec_fabricWaitDeadline {peer : Nat} {o : InFlight} {os : List InFlight}
    (ho : s.cores.inflight.filter (fun o => s.waitsFor peer o) = o :: os) : exec (.fabricWaitDeadline peer) s =
      .next (((s.at_ (s.tick.stepTime + o.issue + s.waitDeadline * s.slowFactor peer / 16)).markLost peer 1).startCredits).releaseHeld := by
  simp only [exec, execFabricWaitDeadline, ho]

theorem State.markLost_lost {g : Nat} (h : s.isLost g = true) (cause : Nat) : s.markLost g cause = s := if_pos h

-- the home's timers (R343, R347)

theorem exec_leekEntryExpiry {e : Leek} {es : List Leek} (he : s.fabric.leek = e :: es) :
    exec .leekEntryExpiry s = .next ((s.at_ (e.time + us 500)).leekNext).releaseHeld := by
  simp only [exec, execLeekEntryExpiry, he]

theorem exec_cressWindowClose {line : Nat} {e : Cress} (he : s.fabric.cress.find? (fun e => e.line = line) = some e) :
    exec (.cressWindowClose line) s = .next ((s.at_ (e.opened + 64)).closeCress e).releaseHeld := by
  simp only [exec, execCressWindowClose, he]

-- ranks (R198, R199)

/-- The atomic whose turn it is at an address leaves those that wait, and the next rank's turn comes. -/
def State.takeTurn (s : State) (addr : Nat) : State :=
  s.onFabric (fun f => { f with
    rankWait := f.rankWait.filter (fun v => !(v.addr = addr && v.rank = Tab.get 0 s.fabric.rankNext addr))
    rankNext := Tab.set 0 addr (Tab.get 0 s.fabric.rankNext addr + 1) f.rankNext })

/-- The atomic of its rank given up once it has waited for the fabric wait deadline. -/
def State.endRankWait (s : State) (w : RankWait) (addr rank : Nat) : State :=
  (s.at_ (w.since + s.waitDeadline)).onFabric (fun f => { f with
    rankWait := f.rankWait.filter (fun v => !(v.addr = addr && v.rank = rank)) })

section
variable {addr : Nat} {w : RankWait} (hw : s.fabric.rankWait.find? (fun w => decide (w.addr = addr) &&
  decide (w.rank = Tab.get 0 s.fabric.rankNext addr)) = some w)
include hw

theorem exec_rankedAtomicApply_remote {src seq stream : Nat} (horigin : w.origin = .remote src seq stream) :
    let t := (s.takeTurn addr).atomic w.origin w.opByte addr w.operand 0
    exec (.rankedAtomicApply addr) s =
      .next ((t.2.journal (t.2.rankTx w src seq stream) t.1).answerLater (t.2.rankTx w src seq stream)).releaseHeld := by
  simp only [exec, execRankedAtomicApply, hw, horigin, State.takeTurn]

theorem exec_rankedAtomicApply_op {id : Nat} {o : InFlight} (horigin : w.origin = .op id)
    (ho : ((s.takeTurn addr).atomic w.origin w.opByte addr w.operand 0).2.op? id = some o) (hold : w.oldAt = 0) :
    exec (.rankedAtomicApply addr) s = .next (((s.takeTurn addr).atomic w.origin w.opByte addr w.operand 0).2.setOp
      { o with cnt := o.cnt.count ((s.takeTurn addr).atomicTally w.origin w.opByte addr w.operand) }).settle := by
  rw [horigin] at ho ⊢
  simp only [exec, execRankedAtomicApply, hw, horigin, State.takeTurn] at ho ⊢
  simp only [ho, hold, if_true]
end

section
variable {addr rank : Nat} {w : RankWait}
  (hw : s.fabric.rankWait.find? (fun w => decide (w.addr = addr) && decide (w.rank = rank)) = some w)
include hw

theorem exec_rankWaitDeadline_remote {src seq stream : Nat} (horigin : w.origin = .remote src seq stream) :
    exec (.rankWaitDeadline addr rank) s = .next ((s.endRankWait w addr rank).refuseRequest
      ((s.endRankWait w addr rank).rankTx w src seq stream) Status.addressFault).releaseHeld := by
  simp only [exec, execRankWaitDeadline, hw, horigin, State.endRankWait]

theorem exec_rankWaitDeadline_op {id : Nat} {o : InFlight} (horigin : w.origin = .op id)
    (ho : (s.endRankWait w addr rank).op? id = some o) :
    exec (.rankWaitDeadline addr rank) s = .next ((s.endRankWait w addr rank).putOp (o.failed Status.addressFault addr)) := by
  rw [State.endRankWait] at ho
  simp only [exec, execRankWaitDeadline, hw, horigin, State.endRankWait, ho]
end

-- spacing (R340)

theorem exec_congestionNoticeExpiry {home : Nat} {c : Congest}
    (hc : s.fabric.congestIn.find? (fun c => c.home = home) = some c) : exec (.congestionNoticeExpiry home) s =
      .next (((s.at_ c.expiry).onFabric (fun f => { f with congestIn := f.congestIn.filter (fun c => c.home ≠ home) })).endSpacing home) := by
  simp only [exec, execCongestionNoticeExpiry, hc]

theorem exec_throttleGap {home : Nat} {c : Congest} {r : OutReq} (hc : s.spacing? home = some c)
    (hr : s.fabric.out.find? (fun r => decide (r.dst = home) && r.waiting) = some r) (hroom : s.unacked home < 1024) :
    exec (.throttleGap home) s = .next (((s.at_ (c.last + c.gap)).sendNext home).bump64 Reg.throttleWait
      ((s.at_ (c.last + c.gap)).now + us 100 - r.deadline)) := by
  simp only [exec, execThrottleGap, hc, hr, if_neg (Nat.not_le.mpr hroom)]

/-- Settles O35: each answer, deadline and timer by its own lemma. -/
theorem repliesDeadlinesAndTimers : Obligations.RepliesDeadlinesAndTimers := by
  unfold Obligations.RepliesDeadlinesAndTimers
  refine ⟨fun s => ⟨fun tx htype hdst => ?reply, fun peer seq r hr => ?deadline, fun peer hholds => ?holds, fun peer hfree => ?free,
    fun peer o os => exec_fabricWaitDeadline, fun g cause hlost => State.markLost_lost hlost cause⟩,
    fun s => ⟨fun e es => exec_leekEntryExpiry, fun line e => exec_cressWindowClose, fun addr w hw => ?turn,
      fun addr rank w hw => ?rank, fun home c => exec_congestionNoticeExpiry, fun home c r => exec_throttleGap⟩⟩
  case reply =>
    refine ⟨exec_fabricReply_lost htype hdst, fun r hlost => exec_fabricReply_answers htype hdst hlost, fun hlost hr hpeer => ?_,
      fun hlost hr hstranger => ?_⟩
    · rw [exec_fabricReply_unasked htype hdst hlost hr, if_pos hpeer]
    · rw [exec_fabricReply_unasked htype hdst hlost hr, if_neg (Bool.eq_false_iff.mp hstranger)]
  case deadline => exact ⟨fun hdone _ => ⟨_, exec_replyDeadline_loses hr hdone, rfl⟩, exec_replyDeadline_resends hr⟩
  case holds => rw [exec_pendingNoticeSend, if_pos hholds]
  case free => rw [exec_pendingNoticeSend, if_neg (Bool.eq_false_iff.mp hfree)]
  case turn =>
    exact ⟨fun src seq stream => exec_rankedAtomicApply_remote hw, fun id o horigin ho hold => exec_rankedAtomicApply_op hw horigin ho hold⟩
  case rank =>
    exact ⟨fun src seq stream => exec_rankWaitDeadline_remote hw, fun id o => exec_rankWaitDeadline_op hw⟩

end Sys2Proof.Machine

/-! O31: a flit that arrives on a port (R303 to R305): refused where it is not whole, and otherwise taken by its sequence. -/
namespace Sys2Proof.Machine

variable {s : State} {p : Nat} {fec : FecResult} {flit : List Byte}

-- ports

@[simp] theorem State.port_setPort (p : Nat) (x : Port) : (s.setPort p x).port p = x := Tab.get_set_same _ _ _ _

theorem State.port_congr {t : State} (h : t.fabric = s.fabric) (p : Nat) : t.port p = s.port p := by unfold State.port; rw [h]

theorem portOk_of_lt (hp : p < 48) : portOk p = true := decide_eq_true hp

-- the codeword and the flit's own check

/-- What the codeword's outcome counts (R304). -/
def State.countFec (s : State) (p : Nat) : FecResult → State
  | .clean => s
  | .corrected => s.bump64 (Reg.portFecCorr p) 1
  | .uncorrectable => s.bump64 (Reg.portFecUncorr p) 1

theorem State.countFec_leaves (fec : FecResult) :
    (s.countFec p fec).fabric = s.fabric ∧ (s.countFec p fec).sent = s.sent ∧ (s.countFec p fec).mem = s.mem := by
  cases fec <;> exact ⟨rfl, rfl, rfl⟩

theorem State.countFec_correctable (hfec : fec ≠ .uncorrectable) :
    s.countFec p fec = if fec = .corrected then s.bump64 (Reg.portFecCorr p) 1 else s := by
  cases fec with
  | clean => rfl
  | corrected => rfl
  | uncorrectable => exact absurd rfl hfec

theorem flitGood_iff : flitGood fec flit = true ↔
    fec ≠ .uncorrectable ∧ flit.length = 256 ∧ (crc64 (flit.take 248)).toNat = fieldLE flit 248 8 := by
  simp [flitGood, and_assoc]

-- what a flit does on its port

/-- The command with the outcome of the codeword counted once. -/
theorem exec_flitReceive (hp : p < 48) : exec (.flitReceive p fec flit) s = .next (
    if !s.carries p then s
    else if !flitGood fec flit then (s.countFec p fec).send (.linkAck p true ((s.countFec p fec).lastFlit p))
    else
      let h := fieldLE flit 0 8
      let t := (s.countFec p fec).takeFlit p flit
      let u := if bitOf h 31 || bitOf h 30 then t.linkAcked p (bitsOf h 47 32) else t
      if bitOf h 30 then u.nakked p else u) := by
  refine (ifUnit_true (portOk_of_lt hp)).trans ?_
  cases fec <;> rfl

theorem exec_flitReceive_closed (hp : p < 48) (hcarries : s.carries p = false) : exec (.flitReceive p fec flit) s = .next s := by
  rw [exec_flitReceive hp, hcarries]
  rfl

section
variable (hp : p < 48) (hcarries : s.carries p = true)
include hp hcarries

theorem exec_flitReceive_refuses (hbad : flitGood fec flit = false) : exec (.flitReceive p fec flit) s =
    .next ((s.countFec p fec).send (.linkAck p true ((s.countFec p fec).lastFlit p))) := by
  rw [exec_flitReceive hp, hcarries, hbad]
  rfl

/-- A whole flit is taken by its sequence; then its acknowledgement is, and a nak names the last flit accepted, so it acknowledges too. -/
theorem exec_flitReceive_takes (hgood : flitGood fec flit = true) :
    let h := fieldLE flit 0 8
    let t := (s.countFec p fec).takeFlit p flit
    let u := if bitOf h 31 || bitOf h 30 then t.linkAcked p (bitsOf h 47 32) else t
    exec (.flitReceive p fec flit) s = .next (if bitOf h 30 then u.nakked p else u) := by
  simp only [exec_flitReceive hp, hcarries, hgood, Bool.not_true, Bool.false_eq_true, if_false]
end

-- a flit by its sequence (R305)

theorem State.takeFlit_mem : (s.takeFlit p flit).mem = s.mem := by
  unfold State.takeFlit
  dsimp only
  split
  · rfl
  · split <;> rfl

/-- The flit that is expected is acknowledged, and the port expects the next one and has back the credits that it brings. -/
theorem State.takeFlit_inOrder (hseq : bitsOf (fieldLE flit 0 8) 63 48 = (s.port p).expect) :
    let h := fieldLE flit 0 8
    (s.takeFlit p flit).sent = s.sent ++ [Sent.linkAck p false (bitsOf h 63 48)] ∧
      ((s.takeFlit p flit).port p).expect = (bitsOf h 63 48 + 1) % 2 ^ 16 ∧
      ((s.takeFlit p flit).port p).unacked = (s.port p).unacked ∧
      Tab.get 0 ((s.takeFlit p flit).port p).used (bitsOf h 29 26) =
        Tab.get 0 (s.port p).used (bitsOf h 29 26) - bitsOf h 25 18 := by
  have htake : s.takeFlit p flit = (((s.setPort p _).bump64 (Reg.portRx p) 1).send
    (Sent.linkAck p false (bitsOf (fieldLE flit 0 8) 63 48))) := if_pos hseq
  have hport := (congrArg (fun t => State.port t p) htake).trans (State.port_setPort p _)
  refine ⟨congrArg State.sent htake, ?_, ?_, ?_⟩ <;> simp only [hport, Tab.get_set_same]

/-- A flit out of order changes no port; it is acknowledged again where it lies behind what is expected, and refused ahead of it. -/
theorem State.takeFlit_outOfOrder (hseq : bitsOf (fieldLE flit 0 8) 63 48 ≠ (s.port p).expect) : s.takeFlit p flit =
    s.send (.linkAck p (!decide (((s.port p).expect + 2 ^ 16 - bitsOf (fieldLE flit 0 8) 63 48) % 2 ^ 16 < 2 ^ 15)) (s.lastFlit p)) := by
  unfold State.takeFlit
  rw [if_neg hseq]
  split
  case isTrue h => rw [decide_eq_true h]; rfl
  case isFalse h => rw [decide_eq_false h]; rfl

/-- Settles O31: the flit by whether its port carries traffic, whether it is whole, and whether it is the one expected. -/
theorem flitsAreAcceptedInOrder : Obligations.FlitsAreAcceptedInOrder := by
  unfold Obligations.FlitsAreAcceptedInOrder
  intro s p fec flit hp h seq x last
  refine ⟨exec_flitReceive_closed hp, fun hcarries => ⟨fun hbad => ?bad, fun hfec hlen hcrc => ?good⟩⟩
  case bad =>
    have hbad' : flitGood fec flit = false := by
      rw [Bool.eq_false_iff, Ne, flitGood_iff]
      rintro ⟨hfec, hlen, hcrc⟩
      rcases hbad with h | h | h
      · exact hfec h
      · exact h hlen
      · exact h hcrc
    obtain ⟨hfabric, hsent, hmem⟩ := State.countFec_leaves (s := s) (p := p) fec
    refine ⟨_, exec_flitReceive_refuses hp hcarries hbad', ?_, hfabric, hmem⟩
    rw [State.send_sent, hsent, State.lastFlit, State.port_congr hfabric]
  case good =>
    have htakes := exec_flitReceive_takes hp hcarries (flitGood_iff.mpr ⟨hfec, hlen, hcrc⟩)
    obtain ⟨hfabric, hsent, hmem⟩ := State.countFec_leaves (s := s) (p := p) fec
    have hport : (s.countFec p fec).port p = s.port p := State.port_congr hfabric p
    refine ⟨(s.countFec p fec).takeFlit p flit, fun h31 h30 => ?_, fun h31 h30 => ?_, fun h30 => ?_,
      by rw [State.countFec_correctable hfec], State.takeFlit_mem.trans hmem, fun hseq => ?order, fun hseq => ?gap⟩
    · simpa [h, h30, h31] using htakes
    · simpa [h, h30, h31] using htakes
    · simpa [h, h30] using htakes
    case order =>
      have hinOrder := State.takeFlit_inOrder (s := s.countFec p fec) (p := p) (flit := flit) (by rw [hport]; exact hseq)
      rwa [hport, hsent] at hinOrder
    case gap =>
      rw [State.takeFlit_outOfOrder (by rw [hport]; exact hseq), State.send_sent, State.lastFlit, hport, hsent]
      exact ⟨hport, rfl⟩

end Sys2Proof.Machine

/-! O32: a new request of a peer at its home (R316 to R320): held, or served by its type (R288 to R293, R317, R319, R346). -/
namespace Sys2Proof.Machine

variable {s : State} {tx : Tx}

-- a request that is new

theorem State.serves_iff {type : Nat} : s.serves tx type = true ↔ tx.type = type ∧ tx.dst = s.gdn ∧ s.halted = false ∧
    s.fromPeer tx = true ∧ s.marked tx.src tx.seq = false ∧ s.holding tx.src tx.seq = false := by
  simp [State.serves, and_assoc]

theorem State.serves_type {type : Nat} (h : s.serves tx type = true) : tx.type = type := (State.serves_iff.mp h).1

theorem State.serveRequest_new {type : Nat} (h : s.serves tx type = true) (dup f : State → State) :
    s.serveRequest tx type dup f = f s := by
  obtain ⟨htype, hdst, hruns, hpeer, hmarked, hholding⟩ := State.serves_iff.mp h
  simp [State.serveRequest, State.arrives, htype, hdst, hruns, hpeer, hmarked, hholding]

-- the commands of requests; each may have to wait, and what had to goes on after it

/-- The request is taken now: held, or served. -/
def State.takesNow (s : State) (tx : Tx) : State := (s.takeRequest s.now tx).releaseHeld

theorem exec_readRequest_new (h : s.serves tx 1 = true) : exec (.readRequest tx) s = .next (s.takesNow tx) :=
  congrArg _ (State.serveRequest_new h _ _)

/-- A write into no launch's payload is a request as any other (R356). -/
theorem exec_writeRequest_new (hlaunch : s.launchFor tx = none) (h : s.serves tx 2 = true) :
    exec (.writeRequest tx) s = .next (s.takesNow tx) := by
  have hnone : (if tx.type = 2 ∧ tx.dst = s.gdn ∧ !s.halted then s.launchFor tx else none) = none := by rw [hlaunch, ite_self]
  simp only [exec, execWriteRequest, hnone]
  exact congrArg _ (State.serveRequest_new h _ _)

theorem exec_atomicRequest_new (h : s.serves tx 3 = true) : exec (.atomicRequest tx) s = .next (s.takesNow tx) :=
  congrArg _ (State.serveRequest_new h _ _)

theorem exec_creditRequest_new (h : s.serves tx 4 = true) : exec (.creditRequest tx) s = .next (s.takesNow tx) :=
  congrArg _ (State.serveRequest_new h _ _)

theorem exec_enqueueTransaction_new (h : s.serves tx 5 = true) : exec (.enqueueTransaction tx) s = .next (s.takesNow tx) :=
  congrArg _ (State.serveRequest_new h _ _)

theorem exec_dequeueTransaction_new (h : s.serves tx 6 = true) : exec (.dequeueTransaction tx) s = .next (s.takesNow tx) :=
  congrArg _ (State.serveRequest_new h _ _)

theorem exec_collectiveContribution_new (h : s.serves tx 7 = true) : exec (.collectiveContribution tx) s =
    .next (((s.mark tx.src tx.seq).reply tx 0 [] false).takeContribution tx) :=
  congrArg _ (State.serveRequest_new h _ _)

theorem State.takesNow_holds (h : s.mustHold tx = true) :
    s.takesNow tx = (s.onFabric (fun f => { f with held := f.held ++ [(s.now, tx)] })).releaseHeld := by
  rw [State.takesNow, State.takeRequest, if_pos h]

theorem State.takesNow_serves (h : s.mustHold tx = false) : s.takesNow tx = (s.serveNow tx).releaseHeld := by
  rw [State.takesNow, State.takeRequest, if_neg (Bool.eq_false_iff.mp h)]

-- service by type

theorem State.serveNow_read (h : tx.type = 1) : s.serveNow tx = s.serveRead tx := by simp only [State.serveNow, h]
theorem State.serveNow_write (h : tx.type = 2) : s.serveNow tx = s.serveWriteReq tx := by simp only [State.serveNow, h]
theorem State.serveNow_atomic (h : tx.type = 3) : s.serveNow tx = s.serveAtomicReq tx := by simp only [State.serveNow, h]
theorem State.serveNow_credit (h : tx.type = 4) : s.serveNow tx = s.serveCredit tx := by simp only [State.serveNow, h]
theorem State.serveNow_enqueue (h : tx.type = 5) : s.serveNow tx = s.serveEnqueue tx := by simp only [State.serveNow, h]
theorem State.serveNow_dequeue (h : tx.type = 6) : s.serveNow tx = s.serveDequeue tx := by simp only [State.serveNow, h]

theorem State.serveRead_refused (h : s.remoteOk tx false tx.len = false) : s.serveRead tx = s.refuseRequest tx Status.addressFault :=
  if_pos (by rw [h]; rfl)

theorem State.serveRead_reaches (h : s.remoteOk tx false tx.len = true) : s.serveRead tx =
    if rangeOf (txAddr tx) = .hbm then if s.badLines tx then s.refuseRequest tx Status.integrityFault else s.arriveInOrder tx
    else ((txLines tx).foldl (fun s l => s.noteTile tx l) s).answerRead tx (s.rd (txAddr tx) tx.len) [] :=
  if_neg (by rw [h]; simp)

theorem State.serveWriteReq_reaches (hlen : tx.data.length = tx.len) (h : s.remoteOk tx true tx.len = true) : s.serveWriteReq tx =
    if rangeOf (txAddr tx) = .hbm then s.arriveInOrder tx else (s.write (originOf tx) (txAddr tx) tx.data).answerLater tx :=
  if_neg (by simp [h, hlen])

theorem State.serveAtomicReq_ok (h : s.atomicOk tx = true) (hlines : s.badLines tx = false) : s.serveAtomicReq tx =
    if s.leekReady then s.serveAtomic tx else s.onFabric (fun f => { f with leekWait := f.leekWait ++ [(s.now, tx)] }) := by
  simp [State.serveAtomicReq, h, hlines]

/-- A credit that its producer asks for is asked of its queue (R290). -/
theorem State.serveCredit_producer {d : QDef} {m : Nat} (hd : s.qdef? (tx.addr % 2 ^ 20) = some d)
    (hm : d.landing? tx.word = some m) (hproducer : d.producer = remoteAgentWord tx.src tx.stream) :
    s.serveCredit tx = s.ask (tx.addr % 2 ^ 20) (.of m tx.word [] (originOf tx) s.now) := by
  simp only [State.serveCredit, hd, hm, hproducer, ne_eq, not_true_eq_false, if_false]

/-- Entries of a packet for which a credit was granted are taken (R288). -/
theorem State.serveEnqueue_granted {d : QDef} {c : Credit} {k : Packet} (hd : s.qdef? (tx.addr % 2 ^ 20) = some d)
    (hc : s.fabric.credits.find? (fun c => decide (c.queue = tx.addr % 2 ^ 20) && decide (c.src = tx.src) &&
      decide (c.seq = tx.word)) = some c) (hk : (s.queue (tx.addr % 2 ^ 20)).packetOf c.start = some k) :
    s.serveEnqueue tx = s.takeEntries (tx.addr % 2 ^ 20) d k tx := by
  simp only [State.serveEnqueue, hd, hc, hk]

/-- The entries at `c` on claimed for a dequeue of a peer. -/
def State.claim (s : State) (q : Nat) (tx : Tx) : State :=
  s.setQueue q { s.queue q with
    pos := { (s.queue q).pos with c := (s.queue q).pos.c + tx.word }
    deqs := (s.queue q).deqs ++ [⟨(s.queue q).pos.c, tx.word, [], originOf tx⟩] }

/-- A consumer's new dequeue claims its entries once its queue has a slot (R292). -/
theorem State.serveDequeue_claims {d : QDef} (hd : s.qdef? (tx.addr % 2 ^ 20) = some d)
    (hconsumer : d.consumer = remoteAgentWord tx.src tx.stream) (hlo : 1 ≤ tx.word) (hhi : tx.word ≤ 256)
    (hnew : ∀ d ∈ (s.queue (tx.addr % 2 ^ 20)).deqs, d.origin ≠ originOf tx) : s.serveDequeue tx =
      ((((s.needSlot (tx.addr % 2 ^ 20)).claim (tx.addr % 2 ^ 20) tx).refillHead (tx.addr % 2 ^ 20)).serveDeqs (tx.addr % 2 ^ 20)) := by
  have hfirst : ((s.queue (tx.addr % 2 ^ 20)).deqs.any fun d => decide (d.origin = originOf tx)) = false := by simpa using hnew
  have hconsumes : ((s.qdef? (tx.addr % 2 ^ 20)).any fun d => decide (d.consumer = remoteAgentWord tx.src tx.stream)) = true := by
    rw [hd]; exact decide_eq_true hconsumer
  unfold State.serveDequeue
  rw [if_neg (Bool.eq_false_iff.mp hfirst), hconsumes, if_neg (by simp; omega)]
  rfl

/-- Settles O32: each request by its type, first whether it has to wait and then how it is served. -/
theorem requestsAreServedAtHome : Obligations.RequestsAreServedAtHome := by
  unfold Obligations.RequestsAreServedAtHome
  intro s tx lines q starts
  have hstarts {c : Instr} {type : Nat} (hexec : s.serves tx type = true → exec c s = .next (s.takesNow tx)) : starts c type :=
    fun h => ⟨fun hhold => by rw [hexec h, State.takesNow_holds hhold], fun hfree => by rw [hexec h, State.takesNow_serves hfree]⟩
  refine ⟨hstarts exec_readRequest_new, fun hlaunch => hstarts (exec_writeRequest_new hlaunch), hstarts exec_atomicRequest_new,
    hstarts exec_creditRequest_new, hstarts exec_enqueueTransaction_new, hstarts exec_dequeueTransaction_new,
    fun h hfree hok => ?read, fun h hfree hbad => ?readRefused, fun h hfree hlaunch hlen hok => ?write, fun h hfree hok hlines => ?atomic,
    fun h hfree d m hd hm hproducer => ?credit, fun h hfree d c k hd hc hk => ?enqueue,
    fun h hfree d hd hconsumer hlo hhi hnew => ?dequeue, exec_collectiveContribution_new⟩
  case read =>
    rw [exec_readRequest_new h, State.takesNow_serves hfree, State.serveNow_read (State.serves_type h), State.serveRead_reaches hok]
    refine ⟨fun hrange => by rw [if_neg hrange], fun hrange hlines => ?_, fun hrange hlines => ?_⟩
    · rw [if_pos hrange, if_neg (Bool.eq_false_iff.mp hlines)]
    · rw [if_pos hrange, if_pos hlines]
  case readRefused =>
    rw [exec_readRequest_new h, State.takesNow_serves hfree, State.serveNow_read (State.serves_type h), State.serveRead_refused hbad]
  case write =>
    rw [exec_writeRequest_new hlaunch h, State.takesNow_serves hfree, State.serveNow_write (State.serves_type h),
      State.serveWriteReq_reaches hlen hok]
    exact ⟨fun hrange => by rw [if_pos hrange], fun hrange => by rw [if_neg hrange]⟩
  case atomic =>
    rw [exec_atomicRequest_new h, State.takesNow_serves hfree, State.serveNow_atomic (State.serves_type h),
      State.serveAtomicReq_ok hok hlines]
    exact ⟨fun hready => by rw [if_pos hready], fun hfull => by rw [if_neg (Bool.eq_false_iff.mp hfull)]⟩
  case credit =>
    rw [exec_creditRequest_new h, State.takesNow_serves hfree, State.serveNow_credit (State.serves_type h),
      State.serveCredit_producer hd hm hproducer]
  case enqueue =>
    rw [exec_enqueueTransaction_new h, State.takesNow_serves hfree, State.serveNow_enqueue (State.serves_type h),
      State.serveEnqueue_granted hd hc hk]
  case dequeue =>
    rw [exec_dequeueTransaction_new h, State.takesNow_serves hfree, State.serveNow_dequeue (State.serves_type h),
      State.serveDequeue_claims hd hconsumer hlo hhi hnew]
    rfl

end Sys2Proof.Machine

/-! What a lost peer and all that goes on after it leave of the device's links (R312, R351, R352): the routes across pods and the
status of each port. -/
namespace Sys2Proof.Machine

/-- The routes across pods and the status of each port are those of `z`. -/
structure State.Links (s z : State) : Prop where
  routes : s.fabric.routes = z.fabric.routes
  status : ∀ p < 48, s.reg (Reg.portStatus p) = z.reg (Reg.portStatus p)

/-- A register that is no port's status. -/
@[reducible] def Reg.OffPorts (k : Nat) : Prop := k < 0x70000 ∨ 0x73000 ≤ k ∨ k % 0x100 ≠ 0

theorem Reg.OffPorts.ne {k : Nat} (hk : Reg.OffPorts k) {p : Nat} (hp : p < 48) : Reg.portStatus p ≠ k := by
  simp only [Reg.portStatus, Reg.portPage]; omega

theorem Reg.offPorts_portPage {p o : Nat} (ho : o < 0x100) (hpos : o ≠ 0) : Reg.OffPorts (Reg.portPage p + o) := by
  simp only [Reg.portPage]; omega

/-- The sequencers' pages and what they count lie past the ports. -/
theorem Reg.offPorts_seqPage (l o : Nat) : Reg.OffPorts (Reg.seqPage l + o) := by
  unfold Reg.seqPage
  split <;> omega

theorem Reg.offPorts_count (l i : Nat) : Reg.OffPorts (Reg.count l i) := by
  rw [Reg.count, Nat.add_assoc]; exact Reg.offPorts_seqPage ..

theorem Reg.offPorts_seqCounter (l j : Nat) : Reg.OffPorts (Reg.seqCounter l j) := by
  rw [Reg.seqCounter, Nat.add_assoc]; exact Reg.offPorts_seqPage ..

theorem Reg.offPorts_waited (l : Nat) : Reg.OffPorts (Reg.waited l) := by
  unfold Reg.waited; omega

theorem Reg.offPorts_cbwUsed (t : Nat) : Reg.OffPorts (Reg.cbwUsed t) := by
  unfold Reg.cbwUsed; omega

theorem Reg.still_portStatus {p : Nat} (hp : p < 48) : Reg.Still (Reg.portStatus p) where
  port q := Reg.OffPorts.ne (Reg.offPorts_portPage (by decide) (by decide)) hp
  logged := Reg.OffPorts.ne (by decide) hp
  absorbed := Reg.OffPorts.ne (by decide) hp
  tail := Reg.OffPorts.ne (by decide) hp
  held := Reg.OffPorts.ne (by decide) hp
  lost := Reg.OffPorts.ne (by decide) hp

variable {s z : State}

theorem State.links_self : s.Links s := ⟨rfl, fun _ _ => rfl⟩

/-- A state with these routes and these registers. -/
theorem State.Links.of_eq {t : State} (h : s.Links z) (hroutes : t.fabric.routes = s.fabric.routes) (hregs : t.regs = s.regs) :
    t.Links z :=
  ⟨hroutes.trans h.routes, fun p hp => (State.reg_congr hregs _).trans (h.status p hp)⟩

/-- An operation whose mask lacks registers and fabric. -/
theorem State.Links.of_same {t : State} {M : Nat} (h : s.Links z) (hsame : t.same M s) (hregs : M.testBit 1 = false)
    (hfabric : M.testBit 17 = false) : t.Links z :=
  h.of_eq (congrArg Fabric.routes (hsame.fabric_eq hfabric)) (hsame.regs_eq hregs)

theorem State.Links.setReg (h : s.Links z) {k : Nat} (hk : Reg.OffPorts k) (v : Word64) : (s.setReg k v).Links z :=
  ⟨h.routes, fun p hp => (State.reg_setReg_other s v (hk.ne hp)).trans (h.status p hp)⟩

theorem State.Links.setFld (h : s.Links z) {f : Fld} (hf : Reg.OffPorts f.key) (v : Nat) : (s.setFld f v).Links z := h.setReg hf _

theorem State.Links.bump (h : s.Links z) {f : Fld} (hf : Reg.OffPorts f.key) (n : Nat) : (s.bump f n).Links z := h.setFld hf _

theorem State.Links.bump64 (h : s.Links z) {k : Nat} (hk : Reg.OffPorts k) (n : Nat) : (s.bump64 k n).Links z :=
  h.bump (f := ⟨k, 63, 0⟩) hk n

theorem State.Links.bump32 (h : s.Links z) {k : Nat} (hk : Reg.OffPorts k) (n : Nat) : (s.bump32 k n).Links z :=
  h.bump (f := ⟨k, 31, 0⟩) hk n

theorem State.Links.onFabric (h : s.Links z) {f : Fabric → Fabric} (hf : (f s.fabric).routes = s.fabric.routes) :
    (s.onFabric f).Links z := h.of_eq hf rfl

theorem State.Links.ite {c : Prop} [Decidable c] {t u : State} (ht : c → t.Links z) (hu : ¬c → u.Links z) :
    (if c then t else u).Links z := by
  split
  case isTrue h => exact ht h
  case isFalse h => exact hu h

theorem State.Links.foldl {α : Type} {f : State → α → State} (hf : ∀ t a, t.Links z → (f t a).Links z) (l : List α) (h : s.Links z) :
    (l.foldl f s).Links z :=
  List.foldlRecOn (motive := fun t => t.Links z) l f h (fun t ht a _ => hf t a ht)

-- what is sent (R303 to R306, R312)

theorem State.Links.send (h : s.Links z) (x : Sent) : (s.send x).Links z := h.of_eq rfl rfl

theorem State.Links.setPort (h : s.Links z) (p : Nat) (x : Port) : (s.setPort p x).Links z := h.of_eq rfl rfl

theorem State.Links.sendBy (h : s.Links z) (p : Nat) (tx : Tx) : (s.sendBy p tx).Links z := by
  unfold State.sendBy
  split
  · exact ((h.setPort _ _).bump64 (Reg.offPorts_portPage (by decide) (by decide)) _).send _
  · exact h.setPort _ _

theorem State.Links.sendTx (h : s.Links z) (tx : Tx) : (s.sendTx tx).Links z := by
  unfold State.sendTx
  split
  · refine State.Links.sendBy ?_ _ tx
    exact h.of_eq rfl rfl
  · exact h

theorem State.Links.triggerPeers (h : s.Links z) (op addr word : Nat) : (s.triggerPeers op addr word).Links z :=
  h.foldl (fun _ _ ht => ht.sendTx _) _

theorem State.Links.announce (h : s.Links z) (p : Nat) : (s.announce p).Links z := h.foldl (fun _ _ ht => ht.sendTx _) _

theorem State.Links.redirect (h : s.Links z) (txs : List Tx) : (s.redirect txs).Links z := by
  refine h.foldl (fun t tx ht => ?_) _
  split
  · exact ht
  · exact ht.sendTx tx

theorem State.Links.reply (h : s.Links z) (tx : Tx) (word : Nat) (data : List Byte) (crc : Bool) :
    (s.reply tx word data crc).Links z := h.sendTx _

theorem State.Links.refuse (h : s.Links z) (tx : Tx) (status : Nat) : (s.refuse tx status).Links z := h.sendTx _

/-- Requests that wait anew for their answers, sent once more (R320). -/
theorem State.Links.resend (h : s.Links z) (g : Nat) (counted : Bool) : (s.resend g counted).Links z := by
  refine State.Links.bump64 (State.Links.foldl (fun _ _ ht => ht.sendTx _) _ ?_) (by decide) _
  exact h.of_eq rfl rfl

-- events (R403, R408)

theorem State.Links.postEvent (h : s.Links z) (e : Event) : (s.postEvent e).Links z where
  routes := (congrArg Fabric.routes ((State.postEvent_same s e (within_self _) s.same_self).fabric_eq (by decide))).trans h.routes
  status p hp :=
    have hk := Reg.still_portStatus hp
    (State.postEvent_reg hk.tail hk.held hk.lost e).trans (h.status p hp)

theorem State.Links.endLong (h : s.Links z) (l : Long) (status detail : Nat) : (s.endLong l status detail).Links z := by
  unfold State.endLong
  refine State.Links.ite (fun _ => State.Links.postEvent ?_ _) (fun _ => ?_)
  · exact h.of_eq rfl rfl
  · exact h.of_eq rfl rfl

theorem State.Links.endLongCode (h : s.Links z) (code status detail : Nat) : (s.endLongCode code status detail).Links z := by
  unfold State.endLongCode
  split
  · exact h.endLong _ _ _
  · exact h

-- writes (R54, R325, R369)

theorem State.Links.store (h : s.Links z) (o : Origin) (a : Nat) (bs : List Byte) (tag : Option Tag) : (s.store o a bs tag).Links z :=
  h.of_same (State.store_same o a bs tag (within_self _) s.same_self) (by decide) (by decide)

theorem State.Links.invalidate (h : s.Links z) (line : Nat) : (s.invalidate line).Links z := by
  unfold State.invalidate
  refine State.Links.ite (fun _ => h) (fun _ => State.Links.bump64 (State.Links.foldl (fun _ _ ht => ht.sendTx _) _ ?_) (by decide) _)
  exact h.of_eq rfl rfl

theorem State.Links.commitWrite (h : s.Links z) (w : WaitWrite) : (s.commitWrite w).1.Links z := by
  unfold State.commitWrite
  split
  · exact h.foldl (fun _ _ ht => ht.invalidate _) _
  · exact h.store _ _ _ _

theorem State.Links.undoFills (h : s.Links z) : s.undoFills.Links z := by
  unfold State.undoFills
  refine State.Links.ite (fun _ => State.Links.triggerPeers ?_ _ _ _) (fun _ => ?_)
  · exact h.of_eq rfl rfl
  · exact h.of_eq rfl rfl

theorem State.Links.countStall (h : s.Links z) (w : WaitWrite) : (s.countStall w).Links z := by
  unfold State.countStall
  split
  · exact h.bump64 (by decide) _
  · exact h

theorem State.Links.excursion (h : s.Links z) (i : Nat) : (s.excursion i).Links z := h.of_eq rfl rfl

theorem State.Links.serveWrite (h : s.Links z) (w : WaitWrite) : (s.serveWrite w).1.Links z := by
  unfold State.serveWrite
  split
  case h_1 => exact h.commitWrite w
  case h_2 => exact h.undoFills.commitWrite w
  case h_3 => exact h
  case h_4 => exact h.excursion _
  case h_5 =>
    refine (((State.Links.bump32 ?_ (Reg.offPorts_cbwUsed _) 1).bump64 (by decide) 1).excursion _)
    exact (h.countStall w).of_eq rfl rfl
  case h_6 => exact h.of_eq rfl rfl

theorem State.Links.serveWrites (ws : List WaitWrite) : ∀ {s : State}, s.Links z → (s.serveWrites ws).Links z := by
  induction ws with
  | nil => exact fun h => h
  | cons w r ih =>
    intro s h
    unfold State.serveWrites
    split
    · exact ih (h.of_eq rfl rfl)
    · have hw := h.serveWrite w
      rcases hserve : s.serveWrite w with ⟨s1, _ | w1⟩ <;> rw [hserve] at hw
      · exact ih hw
      · exact ih (hw.of_eq rfl rfl)

theorem State.Links.retryWrites (h : s.Links z) : s.retryWrites.Links z := State.Links.serveWrites _ (h.of_eq rfl rfl)

theorem State.Links.write (h : s.Links z) (o : Origin) (a : Nat) (bs : List Byte) : (s.write o a bs).Links z := by
  refine h.foldl (fun t piece ht => ?_) _
  unfold State.writePiece
  split
  · exact State.Links.serveWrites _ ht
  · split
    · exact State.Links.serveWrites _ ht
    · exact ht.store _ _ _ _

-- requests of peers that go on (R319, R336, R339, R346)

theorem State.Links.mark (h : s.Links z) (g seq : Nat) : (s.mark g seq).Links z := by
  unfold State.mark
  split
  · exact h
  · exact h.onFabric rfl

theorem State.Links.applyAtomic (h : s.Links z) (tx : Tx) : (s.applyAtomic tx).Links z :=
  ((h.write _ _ _).onFabric rfl).setFld (by decide) _

theorem State.Links.commitAt (h : s.Links z) (v : Serve) (line : Nat) : (s.commitAt v line).Links z := by
  unfold State.commitAt
  split
  · exact h
  · split
    · exact (h.foldl (fun _ _ ht => ht.applyAtomic _) _).bump64 (by decide) _
    · exact h.write _ _ _

theorem State.Links.congestNotice (h : s.Links z) (g gap : Nat) : (s.congestNotice g gap).Links z :=
  ((h.onFabric rfl).sendTx _).bump64 (by decide) 1

theorem State.Links.relieved (h : s.Links z) (line : Nat) : (s.relieved line).Links z := by
  unfold State.relieved
  split
  · refine State.Links.foldl (fun t e ht => ?_) _ (h.onFabric rfl)
    split
    · exact ht.congestNotice _ _
    · exact ht
  · exact h

theorem State.Links.noteTile (h : s.Links z) (tx : Tx) (line : Nat) : (s.noteTile tx line).Links z :=
  h.of_same (State.noteTile_same s tx line (within_self _) s.same_self) (by decide) (by decide)

theorem State.Links.pull (line n : Nat) : ∀ {s : State}, s.Links z → (s.pull line n).Links z := by
  induction n with
  | zero => exact fun h => h
  | succ n ih =>
    intro s h
    unfold State.pull
    split
    · exact h
    · dsimp only
      split
      · exact ih (h.onFabric rfl)
      · split
        · exact h
        · split
          · exact ih (((h.foldl (fun _ _ ht => ht.noteTile _ _) _).onFabric rfl).onFabric rfl |>.relieved _)
          · split
            · exact h
            · exact ih (((((h.commitAt _ _).onFabric rfl).onFabric rfl).onFabric rfl).relieved _)

theorem State.Links.pullAll (h : s.Links z) : s.pullAll.Links z := h.foldl (fun _ _ ht => State.Links.pull _ _ ht) _

theorem State.Links.answerRead (h : s.Links z) (tx : Tx) (bs : List Byte) (lines : Tab (List Byte)) :
    (s.answerRead tx bs lines).Links z := by
  unfold State.answerRead
  dsimp only
  split
  · exact ((h.mark _ _).reply _ _ _ _).foldl (fun _ _ ht => (ht.onFabric rfl).sendTx _) _
  · exact (h.mark _ _).reply _ _ _ _

theorem State.Links.sealRemote (h : s.Links z) (tx : Tx) : (s.sealRemote tx).Links z :=
  h.of_same (State.sealRemote_same s tx (within_self _) s.same_self) (by decide) (by decide)

theorem State.Links.endTile (h : s.Links z) (tx : Tx) : (s.endTile tx).Links z :=
  h.of_same (State.endTile_same s tx (within_self _) s.same_self) (by decide) (by decide)

theorem State.Links.answerWrite (h : s.Links z) (tx : Tx) : (s.answerWrite tx).Links z := by
  unfold State.answerWrite
  split
  · exact ((h.endTile tx).mark _ _).refuse _ _
  · exact (((h.sealRemote tx).endTile tx).mark _ _).reply _ _ _ _

theorem State.Links.answerAtomic (h : s.Links z) (tx : Tx) : (s.answerAtomic tx).Links z := by
  unfold State.answerAtomic
  split
  · exact (h.mark _ _).reply _ _ _ _
  · exact h.mark _ _

theorem State.Links.finishServes (h : s.Links z) : s.finishServes.Links z := by
  refine h.foldl (fun t v ht => ?_) _
  split
  · have hanswered := State.Links.foldl (z := z) (s := t.onFabric (fun f => { f with serving := f.serving.filter (fun u => u.id ≠ v.id) }))
      (f := fun s t =>
        if t.type = 1 then s.answerRead t (servedData v t) v.data
        else if t.type = 2 then s.answerWrite t
        else if t.type = 5 then (s.mark t.src t.seq).reply t 0 (Tab.get [] v.data 0) false
        else s.answerAtomic t) (fun u tx hu => ?_) v.members (ht.onFabric rfl)
    · dsimp only
      split
      · exact hanswered.bump64 (by decide) _
      · exact hanswered
    · split
      · exact hu.answerRead _ _ _
      · split
        · exact hu.answerWrite _
        · split
          · exact (hu.mark _ _).reply _ _ _ _
          · exact hu.answerAtomic _
  · exact ht

-- ops that complete (R156, R159 to R161, R176)

theorem State.Links.setOp (h : s.Links z) (o : InFlight) : (s.setOp o).Links z := h.of_eq rfl rfl

theorem State.Links.enterStopped (h : s.Links z) (src : Nat) : (s.enterStopped src).Links z := by
  unfold State.enterStopped
  refine State.Links.ite (fun _ => h) (fun _ => ?_)
  have htold : ((({ s with tick := { s.tick with stopped := some src, overrun := none, rerun := false } } : State).triggerPeers
      2 0 src).setDevState 5).Links z := by
    refine ((State.Links.triggerPeers ?_ _ _ _).setFld (f := Fld.state) (by decide) _).setFld (f := Fld.alert) (by decide) _
    exact h.of_eq rfl rfl
  refine State.Links.ite (fun _ => ?_) (fun _ => ?_)
  · exact (htold.postEvent _).of_eq rfl rfl
  · exact htold.postEvent _

theorem State.Links.countWait (h : s.Links z) (l : ListId) : (s.countWait l).Links z := by
  unfold State.countWait
  split
  · exact (h.bump64 (Reg.offPorts_seqCounter _ _) _).setReg (Reg.offPorts_waited _) _
  · exact h

theorem State.Links.setSeq (h : s.Links z) (l state wait : Nat) : (s.setSeq l state wait).Links z :=
  (((h.countWait l).setFld (f := Fld.seqState l) (Reg.offPorts_seqPage l 0) _).setFld (f := Fld.seqWait l) (Reg.offPorts_seqPage l 0) _).setReg
    (Reg.offPorts_waited _) _

theorem State.Links.stopSeq (h : s.Links z) (l : ListId) : (s.stopSeq l).Links z := by
  unfold State.stopSeq
  dsimp only
  split
  · exact (h.setSeq _ _ _).enterStopped _
  · exact h.setSeq _ _ _

theorem State.Links.refreshPhases (h : s.Links z) (l : ListId) : (s.refreshPhases l).Links z :=
  h.setFld (f := Fld.finished l) (Reg.offPorts_seqPage l 4) _

theorem State.Links.setCount (h : s.Links z) (l i v : Nat) : (s.setCount l i v).Links z := h.setReg (Reg.offPorts_count _ _) _

theorem State.Links.signalFrom (h : s.Links z) (l : ListId) (r : OpRecord) : (s.signalFrom l r).Links z := by
  unfold State.signalFrom
  split
  · exact h.setCount _ _ _
  · exact h

theorem State.Links.checkStepEnd (h : s.Links z) : s.checkStepEnd.Links z := by
  unfold State.checkStepEnd
  split
  · have hended := (h.of_eq (t := { s with tick := { s.tick with stepRunning := false } }) rfl rfl).setFld
      (f := ⟨Reg.stepIndex, 63, 0⟩) (by decide) (s.fld ⟨Reg.stepIndex, 63, 0⟩ + 1)
    dsimp only
    split
    · exact hended.of_eq rfl rfl
    · split
      · refine State.Links.write ?_ _ _ _
        split
        · exact hended.of_eq rfl rfl
        · exact hended
      · split
        · exact hended.of_eq rfl rfl
        · exact hended
  · exact h

theorem State.Links.countStalls (h : s.Links z) (o : InFlight) : (s.countStalls o).Links z :=
  h.foldl (fun _ _ ht => ht.bump64 (Reg.offPorts_seqCounter _ _) _) _

theorem State.Links.finishOp (h : s.Links z) (o : InFlight) : (s.finishOp o).Links z := by
  have hdropped : (s.dropOp o.id).Links z := h.of_eq rfl rfl
  unfold State.finishOp
  dsimp only
  refine State.Links.countStalls ?_ o
  have hcounted : (if o.record.unit = 3 ∧ o.record.opcode = 2 then (s.dropOp o.id).setCount o.list o.record.dst o.idx
      else s.dropOp o.id).Links z := by
    split
    · exact hdropped.setCount _ _ _
    · exact hdropped
  generalize (if o.record.unit = 3 ∧ o.record.opcode = 2 then (s.dropOp o.id).setCount o.list o.record.dst o.idx
      else s.dropOp o.id) = u at hcounted ⊢
  have hvaried : (if s.varied o then (u.bump64 Reg.numVary 1).setFld Fld.varSeen 1 else u).Links z := by
    split
    · exact (hcounted.bump64 (by decide) 1).setFld (by decide) _
    · exact hcounted
  split
  · exact ((hvaried.refreshPhases _).signalFrom _ _).checkStepEnd
  · exact ((hvaried.refreshPhases _).postEvent _).stopSeq _

theorem State.Links.writeRecord (h : s.Links z) (o : InFlight) : (s.writeRecord o).Links z := by
  unfold State.writeRecord
  refine State.Links.ite (fun _ => h.write _ _ _) (fun _ => State.Links.write ?_ _ _ _)
  exact h.of_eq rfl rfl

theorem State.Links.logReplay (h : s.Links z) (o : InFlight) : (s.logReplay o).Links z := h.of_eq rfl rfl

theorem State.Links.completeOp (h : s.Links z) (o : InFlight) : (s.completeOp o).Links z := by
  unfold State.completeOp
  refine State.Links.ite (fun _ => h) (fun _ => State.Links.ite (fun _ => h.finishOp o) (fun _ => State.Links.ite (fun _ => ?_) (fun _ => ?_)))
  · exact ((h.logReplay _).writeRecord _).setOp _
  · exact (((h.logReplay _).writeRecord _).setOp _).finishOp _

theorem State.Links.sealRange (h : s.Links z) (o : InFlight) (a n : Nat) : (s.sealRange o a n).1.Links z :=
  h.of_same (State.sealRange_same s o a n (within_self _) s.same_self) (by decide) (by decide)

theorem State.Links.settleOp (h : s.Links z) (o : InFlight) : (s.settleOp o).Links z := by
  unfold State.settleOp
  split
  · split
    · exact h
    · rename_i a n _ _
      have hsealed : (if rangeOf a = .host then (s, o) else s.sealRange o a n).1.Links z := by
        split
        · exact h
        · exact h.sealRange o a n
      exact (hsealed.setOp _).completeOp _
  · split
    · exact h.completeOp o
    · exact h

theorem State.Links.settle (h : s.Links z) : s.settle.Links z := by
  refine h.foldl (fun t i ht => ?_) _
  split
  · exact ht.settleOp _
  · exact ht

theorem State.Links.afterWrites (h : s.Links z) : s.afterWrites.Links z := h.retryWrites.pullAll.finishServes.settle

-- a lost peer (R351, R352, R358, R359)

theorem State.Links.setLaunch (h : s.Links z) (id : Nat) (l : Launch) : (s.setLaunch id l).Links z := h.of_eq rfl rfl

theorem State.Links.launchDoneCheck (h : s.Links z) (id : Nat) : (s.launchDoneCheck id).Links z := by
  unfold State.launchDoneCheck
  split
  · exact h
  · refine State.Links.ite (fun _ => State.Links.ite (fun _ => State.Links.endLongCode (h.setLaunch id _) _ _ _) (fun _ => ?_)) (fun _ => h)
    split
    · exact (h.setLaunch id _).sendTx _
    · exact h

theorem State.Links.dropChild (h : s.Links z) (id g : Nat) : (s.dropChild id g).Links z := by
  unfold State.dropChild
  split
  · exact h
  · exact State.Links.ite (fun _ => ((h.setLaunch id _).postEvent _).launchDoneCheck _) (fun _ => h)

theorem State.Links.noteLost (h : s.Links z) (g cause : Nat) : (s.noteLost g cause).Links z := by
  unfold State.noteLost
  refine State.Links.onFabric (State.Links.foldl (fun _ _ ht => ht.setOp _) _ (State.Links.postEvent
    (State.Links.bump ?_ (f := Fld.lostPeers) (by decide) 1) _)) ?_
  · exact h.of_eq rfl rfl
  · rfl

theorem State.Links.markLost (h : s.Links z) (g cause : Nat) : (s.markLost g cause).Links z := by
  unfold State.markLost
  split
  · exact h
  · exact (State.Links.foldl (fun _ _ ht => ht.dropChild _ _) _ (h.noteLost g cause)).afterWrites

/-- What changing routes does once the spare ports have been noted (R312, R320, R351). -/
theorem State.Links.reroute (old : State) (h : s.noteSpares.Links z) : (State.reroute old s).Links z :=
  State.Links.foldl (fun _ _ ht => .ite (fun _ => ht.markLost _ _) (fun _ => .ite (fun _ => ht) (fun _ => ht.resend _ _))) _ h

end Sys2Proof.Machine

/-! O30: lanes lost, ports that retrain or go down, and ports that come up (R299, R300, R307 to R309). -/
namespace Sys2Proof.Machine

variable {s : State} {p : Nat}

-- the fields of a port's status

theorem State.announce_fld {f : Fld} (hf : Reg.Still f.key) (q : Nat) : (s.announce q).fld f = s.fld f :=
  State.fld_congr (State.announce_reg hf q)

theorem State.setFld_portState (v : Nat) : (s.setFld (Fld.portState p) v).fld (Fld.portState p) = v % 8 :=
  State.fld_setFld_same s (Fld.portState p) v (by decide : 31 < 64) (by decide : 29 ≤ 31)

theorem State.setFld_portLanes (v : Nat) : (s.setFld (Fld.portLanes p) v).fld (Fld.portLanes p) = v % 16 :=
  State.fld_setFld_same s (Fld.portLanes p) v (by decide : 28 < 64) (by decide : 25 ≤ 28)

theorem State.setFld_portPeer (v : Nat) : (s.setFld (Fld.portPeer p) v).fld (Fld.portPeer p) = v % 65536 :=
  State.fld_setFld_same s (Fld.portPeer p) v (by decide : 15 < 64) (by decide : 0 ≤ 15)

/-- A port's state is set beside what stands below it in the register, and beside every other register. -/
theorem State.setFld_portState_other {g : Fld} (hlo : g.lo ≤ g.hi) (hg : g.key ≠ Reg.portStatus p ∨ g.hi < 29) (v : Nat) :
    (s.setFld (Fld.portState p) v).fld g = s.fld g :=
  State.fld_setFld_other s (Fld.portState p) g v (by decide : 31 < 64) (by decide : 29 ≤ 31) hlo (hg.imp_right .inl)

/-- Lanes are set beside the state above them. -/
theorem State.setFld_portLanes_state (v : Nat) :
    (s.setFld (Fld.portLanes p) v).fld (Fld.portState p) = s.fld (Fld.portState p) :=
  State.fld_setFld_other s (Fld.portLanes p) (Fld.portState p) v (by decide : 28 < 64) (by decide : 25 ≤ 28) (by decide : 29 ≤ 31)
    (.inr (.inr (by decide : 28 < 29)))

theorem State.setPort_fld (x : Port) (f : Fld) : (s.setPort p x).fld f = s.fld f := rfl

theorem Reg.portStatus_injective {q : Nat} (h : Reg.portStatus p = Reg.portStatus q) : p = q := by
  simp only [Reg.portStatus, Reg.portPage] at h; omega

-- spare ports noted (R300)

/-- Noting the spare ports is a run of slots remembered and of spare ports that no longer stand by. -/
theorem State.noteSpares_induction {P : State → Prop} (hs : P s)
    (hused : ∀ (t : State) used, P t → P { t with fabric := { t.fabric with spareUsed := used } })
    (hspare : ∀ (t : State) q v, t.fld (Fld.portState q) = 5 → v = 2 ∨ v = 3 → P t → P ((t.setFld (Fld.portState q) v).announce q)) :
    P s.noteSpares := by
  unfold State.noteSpares
  refine List.foldlRecOn (motive := P) _ _ hs (fun t ht e _ => ?_)
  dsimp only
  split
  · split
    case isTrue hstands =>
      refine hspare _ e.2 _ hstands ?_ (hused t _ ht)
      split
      · exact .inl rfl
      · exact .inr rfl
    case isFalse => exact hused t _ ht
  · exact ht

theorem State.noteSpares_routes : s.noteSpares.fabric.routes = s.fabric.routes :=
  State.noteSpares_induction (P := fun t => t.fabric.routes = s.fabric.routes) rfl (fun _ _ ht => ht)
    (fun _ q _ _ _ ht => (State.links_self.announce q).routes.trans ht)

theorem State.noteSpares_mem : s.noteSpares.mem = s.mem :=
  (State.noteSpares_same s (within_self _) s.same_self).mem_eq (by decide)

/-- Of a port's status nothing below the state changes. -/
theorem State.noteSpares_fld {f : Fld} (hf : Reg.Still f.key) (hlo : f.lo ≤ f.hi) (hhi : f.hi < 29) :
    s.noteSpares.fld f = s.fld f :=
  State.noteSpares_induction (P := fun t => t.fld f = s.fld f) rfl (fun _ _ ht => ht)
    (fun _ q _ _ _ ht => (State.announce_fld hf q).trans ((State.setFld_portState_other hlo (.inr hhi) _).trans ht))

/-- A spare port that stood by reads 2 or 3 from then on, and every other port's state is as it was. -/
theorem State.noteSpares_portState (hp : p < 48) : s.noteSpares.fld (Fld.portState p) = s.fld (Fld.portState p) ∨
    s.fld (Fld.portState p) = 5 ∧ (s.noteSpares.fld (Fld.portState p) = 2 ∨ s.noteSpares.fld (Fld.portState p) = 3) := by
  have hstill : Reg.Still (Fld.portState p).key := Reg.still_portStatus hp
  refine State.noteSpares_induction (P := fun t => t.fld (Fld.portState p) = s.fld (Fld.portState p) ∨
    s.fld (Fld.portState p) = 5 ∧ (t.fld (Fld.portState p) = 2 ∨ t.fld (Fld.portState p) = 3)) (.inl rfl) (fun _ _ ht => ht)
    (fun t q v hstands hv ht => ?_)
  rw [State.announce_fld hstill]
  rcases Decidable.em (p = q) with rfl | hpq
  · have hwas : s.fld (Fld.portState p) = 5 := by omega
    rw [State.setFld_portState]
    exact .inr ⟨hwas, by omega⟩
  · rw [State.setFld_portState_other (by decide : 29 ≤ 31) (.inl (hpq ∘ Reg.portStatus_injective))]
    exact ht

-- what sending leaves of a port's lanes

theorem lanesOf_lt (p : Nat) : lanesOf p < 16 := by
  unfold lanesOf
  repeat' split
  all_goals decide

/-- What a port remembers of its lanes: whether it retrains, and which are lost. -/
def Port.laneState (x : Port) : Bool × List Nat := (x.retraining, x.lanesLost)

theorem State.setPort_laneState {x : Port} {q : Nat} (hx : x.laneState = (s.port q).laneState) :
    ((s.setPort q x).port p).laneState = (s.port p).laneState := by
  rcases Decidable.em (p = q) with rfl | hpq
  · rw [State.port_setPort, hx]
  · exact congrArg Port.laneState (Tab.get_set_other _ _ _ hpq)

theorem State.injectTx_laneState (q : Nat) (tx : Tx) : ((s.injectTx q tx).port p).laneState = (s.port p).laneState := by
  unfold State.injectTx
  extract_lets x fs c
  clear_value fs
  exact State.setPort_laneState (s := s) (q := q) rfl

theorem State.sendBy_laneState (q : Nat) (tx : Tx) : ((s.sendBy q tx).port p).laneState = (s.port p).laneState := by
  unfold State.sendBy
  split
  · exact State.injectTx_laneState q tx
  · exact State.setPort_laneState rfl

theorem State.sendTx_laneState (tx : Tx) : ((s.sendTx tx).port p).laneState = (s.port p).laneState := by
  unfold State.sendTx
  split
  · exact State.sendBy_laneState _ _
  · rfl

theorem State.sendTxs_laneState {α : Type} {f : State → α → Tx} (l : List α) :
    ((l.foldl (fun t a => t.sendTx (f t a)) s).port p).laneState = (s.port p).laneState :=
  List.foldlRecOn (motive := fun t : State => (t.port p).laneState = (s.port p).laneState) _ _ rfl
    (fun _ ht _ _ => (State.sendTx_laneState _).trans ht)

theorem State.announce_laneState (q : Nat) : ((s.announce q).port p).laneState = (s.port p).laneState :=
  State.sendTxs_laneState _

theorem State.startSlow_laneState (o : OwnSlow) : ((s.startSlow o).port p).laneState = (s.port p).laneState := by
  unfold State.startSlow State.sendSlow
  dsimp only
  split
  · rfl
  · exact State.sendTxs_laneState _

theorem State.absorbWithin_laneState (cls unit sub outcome bound detail : Nat) :
    ((s.absorbWithin cls unit sub outcome bound detail).port p).laneState = (s.port p).laneState := by
  unfold State.absorbWithin State.absorb
  obtain ⟨log, hlog⟩ := State.logFault_eq (s := ((((s.upTo bound).2.bump64 Reg.faultAbsorbed 1).excursion 4).startSlow
    ⟨2, cls * 2 ^ 32 + unit * 2 ^ 16 + sub, 0x20, some ((s.upTo bound).2.now + (s.upTo bound).1)⟩)) cls unit sub outcome (s.upTo bound).1 detail
  exact (congrArg (fun t => (State.port t p).laneState) hlog).trans (State.startSlow_laneState _)

-- lanes lost (R307, R308)

theorem State.stopLaneTests_idle (h : ∀ x ∈ s.fabric.ports, x.2.testing = none) (p : Nat) : s.stopLaneTests p = s :=
  foldl_fixed_of_mem _ fun e he => if_neg (by simp [h e he])

theorem State.endLaneTest_idle (h : (s.port p).testing = none) : s.endLaneTest p = s := if_neg (by simp [h])

/-- A lane removed from a port's. -/
def State.loseLane (s : State) (p lane : Nat) : State := s.setPort p { s.port p with lanesLost := (s.port p).lanesLost ++ [lane] }

section
variable {lane : Nat} {f : LaneFault} (hp : p < 48) (hlane : lane < lanesOf p) (hcarries : s.carries p = true)
  (hnew : lane ∉ (s.port p).lanesLost) (htest : (s.port p).testing = none) (htests : ∀ x ∈ s.fabric.ports, x.2.testing = none)
include hp hlane hcarries hnew htest htests

/-- A lane in service is lost where no lane is under test. -/
theorem exec_laneLoss : exec (.laneLoss p lane f) s = .next (
    if fewerLanes (s.fld (Fld.portLanes p)) = 0 then ((s.loseLane p lane).portDown p).absorbPort p
    else ((s.loseLane p lane).retrainTo p (fewerLanes (s.fld (Fld.portLanes p)))).absorbWithin 9 p lane 0 2000 0) := by
  have hunit : (portOk p && decide (lane < portLanes p)) = true := by
    rw [portLanes_eq, portOk_of_lt hp, decide_eq_true hlane]; rfl
  refine (ifUnit_true hunit).trans (congrArg _ ?_)
  rw [if_neg (by simp [hcarries, hnew]), State.stopLaneTests_idle htests, State.endLaneTest_idle htest]
  rfl
end

theorem fewerLanes_half {n : Nat} (h : n = 2 ∨ n = 4 ∨ n = 8) : fewerLanes n = n / 2 ∧ n / 2 ≠ 0 := by
  rcases h with rfl | rfl | rfl <;> decide

/-- A port that retrains shows the lanes that it retrains onto. -/
theorem State.retrainTo_fields (hp : p < 48) {n : Nat} (hn : n < 16) :
    (s.retrainTo p n).fld (Fld.portLanes p) = n ∧ (s.retrainTo p n).fld (Fld.portState p) = 1 ∧
      ((s.retrainTo p n).port p).laneState = (true, (s.port p).lanesLost) := by
  unfold State.retrainTo
  refine ⟨?_, ?_, ?_⟩
  · rw [State.announce_fld (Reg.still_portStatus hp), State.setPort_fld, State.setFld_portLanes, Nat.mod_eq_of_lt hn]
  · rw [State.announce_fld (Reg.still_portStatus hp), State.setPort_fld, State.setFld_portLanes_state, State.setFld_portState]
  · rw [State.announce_laneState, State.port_setPort]
    rfl

theorem State.closePort_fields : (s.closePort p).fld (Fld.portState p) = 0 ∧ (s.closePort p).fld (Fld.portLanes p) = 0 := by
  unfold State.closePort
  rw [State.setPort_fld, State.setPort_fld, State.setFld_portLanes_state, State.setFld_portState, State.setFld_portLanes]
  exact ⟨rfl, rfl⟩

/-- A port that has gone down shows no link and no lanes, whatever the loss of routes sets off. -/
theorem State.portDown_fields (hp : p < 48) :
    (s.portDown p).fld (Fld.portState p) = 0 ∧ (s.portDown p).fld (Fld.portLanes p) = 0 := by
  have hstill := Reg.still_portStatus hp
  have hstatus : (s.portDown p).reg (Reg.portStatus p) = (s.closePort p).noteSpares.reg (Reg.portStatus p) :=
    (State.portDown_reg hstill p).trans ((State.links_self.reroute s).status p hp)
  obtain ⟨hstate, hlanes⟩ := State.closePort_fields (s := s) (p := p)
  constructor
  · rw [State.fld_congr (f := Fld.portState p) hstatus]
    have hspares := State.noteSpares_portState (s := s.closePort p) hp
    omega
  · rw [State.fld_congr (f := Fld.portLanes p) hstatus, State.noteSpares_fld hstill (by decide : 25 ≤ 28) (by decide : 28 < 29), hlanes]

theorem State.absorbPort_fld {f : Fld} (hf : Reg.Still f.key) (p : Nat) : (s.absorbPort p).fld f = s.fld f := by
  unfold State.absorbPort
  split
  · exact State.absorbWithin_fld hf ..
  · split
    · exact State.absorbWithin_fld hf ..
    · rfl

-- retraining ends (R307)

/-- The port carries traffic again on the lanes that it has. -/
def State.retrained (s : State) (p : Nat) : State :=
  (s.setPort p { s.port p with retraining := false }).setFld (Fld.portState p) (s.trainedState p (s.fld (Fld.portLanes p)))

/-- What the other side has not acknowledged replayed, and counted. -/
def State.replayAll (s : State) (p : Nat) (fs : List (Nat × List Byte)) : State :=
  ((s.send (.linkReplay p fs)).bump64 (Reg.portReplay p) 1).onRecord (fun r => { r with replays := r.replays + 1 })

theorem exec_laneRetrainDone_idle (hp : p < 48) (h : (s.port p).retraining = false) : exec (.laneRetrainDone p) s = .next s :=
  (ifUnit_true (portOk_of_lt hp)).trans (congrArg _ (if_pos (by rw [h]; rfl)))

theorem exec_laneRetrainDone (hp : p < 48) (h : (s.port p).retraining = true) : exec (.laneRetrainDone p) s =
    .next ((State.reroute s ((if (s.port p).unacked = [] then s.retrained p else (s.retrained p).replayAll p (s.port p).unacked).flushPort p
      (s.port p).backlog.length)).announce p) :=
  (ifUnit_true (portOk_of_lt hp)).trans (congrArg _ (if_neg (by rw [h]; simp)))

-- link-up (R299, R300, R309)

/-- The port's peer known, and all that it remembered of its last link gone. -/
def State.meetPeer (s : State) (p peer : Nat) : State := (s.setPort p Port.zero).setFld (Fld.portPeer p) peer

/-- A port that has trained with a peer: miswired, or with its lanes. -/
def State.trained (s : State) (p peer lanes : Nat) : State :=
  if s.miswired p peer then (s.setFld (Fld.portState p) 4).setFld (Fld.portLanes p) 0
  else (s.setFld (Fld.portLanes p) lanes).setFld (Fld.portState p) (s.trainedState p lanes)

/-- Once no port trains any more, PORT_RETRAIN ends (R335). -/
def State.endTraining (s : State) : State :=
  if (List.range 48).any (fun q => s.fld (Fld.portState q) = 1) then s else s.endLongCode 0x0809 Status.success 0

theorem exec_linkUp {peer lanes : Nat} (hp : p < 48) (hpeer : peer < 65536) (hlo : 1 ≤ lanes) (hhi : lanes ≤ lanesOf p)
    (htrains : s.fld (Fld.portState p) = 1 ∧ (s.port p).retraining = false ∨ s.fld (Fld.portState p) = 6) :
    exec (.linkUp p peer lanes) s = .next ((((s.meetPeer p peer).trained p peer lanes).noteSpares).announce p).endTraining := by
  have hunit : (portOk p && decide (1 ≤ lanes ∧ lanes ≤ portLanes p) && decide (peer < 65536)) = true := by
    rw [portLanes_eq, portOk_of_lt hp, decide_eq_true hpeer, decide_eq_true ⟨hlo, hhi⟩]; rfl
  exact (ifUnit_true hunit).trans (congrArg _ (if_pos (htrains.imp_left (And.imp_right (by rintro h; rw [h]; rfl)))))

theorem State.endTraining_fld {f : Fld} (hf : Reg.Still f.key) : s.endTraining.fld f = s.fld f := by
  unfold State.endTraining State.endLongCode
  split
  · rfl
  · split
    · exact State.fld_congr (State.endLong_reg hf _ _)
    · rfl

theorem State.endTraining_mem : s.endTraining.mem = s.mem := by
  unfold State.endTraining
  split
  · rfl
  · exact (State.endLongCode_same s _ _ _ (within_self _) s.same_self).mem_eq (by decide)

theorem State.announce_mem (q : Nat) : (s.announce q).mem = s.mem :=
  (State.announce_same s q (within_self _) s.same_self).mem_eq (by decide)

theorem State.trained_mem (peer lanes : Nat) : (s.trained p peer lanes).mem = s.mem := by
  unfold State.trained
  split <;> rfl

theorem State.trained_peer (peer lanes : Nat) : (s.trained p peer lanes).fld (Fld.portPeer p) = s.fld (Fld.portPeer p) := by
  have hlanes (t : State) (v : Nat) : (t.setFld (Fld.portLanes p) v).fld (Fld.portPeer p) = t.fld (Fld.portPeer p) :=
    State.fld_setFld_other t (Fld.portLanes p) (Fld.portPeer p) v (by decide : 28 < 64) (by decide : 25 ≤ 28) (by decide : 0 ≤ 15)
      (.inr (.inl (by decide : 15 < 25)))
  have hstate (t : State) (v : Nat) : (t.setFld (Fld.portState p) v).fld (Fld.portPeer p) = t.fld (Fld.portPeer p) :=
    State.setFld_portState_other (by decide : 0 ≤ 15) (.inr (by decide : 15 < 29)) v
  unfold State.trained
  split
  · rw [hlanes, hstate]
  · rw [hstate, hlanes]

theorem State.trained_miswired {peer lanes : Nat} (h : s.miswired p peer = true) :
    (s.trained p peer lanes).fld (Fld.portState p) = 4 ∧ (s.trained p peer lanes).fld (Fld.portLanes p) = 0 := by
  rw [State.trained, if_pos h]
  rw [State.setFld_portLanes_state, State.setFld_portState, State.setFld_portLanes]
  exact ⟨rfl, rfl⟩

theorem State.trainedState_mem (p n : Nat) : s.trainedState p n = 5 ∨ s.trainedState p n = 2 ∨ s.trainedState p n = 3 := by
  unfold State.trainedState
  dsimp only
  split
  · exact .inl rfl
  · split
    · exact .inr (.inl rfl)
    · exact .inr (.inr rfl)

theorem State.trained_wired {peer lanes : Nat} (h : s.miswired p peer = false) (hlanes : lanes < 16) :
    (s.trained p peer lanes).fld (Fld.portState p) ≠ 4 ∧ (s.trained p peer lanes).fld (Fld.portLanes p) = lanes := by
  rw [State.trained, if_neg (Bool.eq_false_iff.mp h)]
  constructor
  · have hstates := State.trainedState_mem (s := s) p lanes
    rw [State.setFld_portState]
    omega
  · rw [State.setFld_portState_other (by decide : 25 ≤ 28) (.inr (by decide : 28 < 29)), State.setFld_portLanes, Nat.mod_eq_of_lt hlanes]

/-- Whether a peer is the one that R299 names depends on the device's own number only. -/
theorem State.miswired_congr {t : State} (h : t.reg Reg.fabDevId = s.reg Reg.fabDevId) (p peer : Nat) :
    t.miswired p peer = s.miswired p peer := by
  have hfld (hi lo : Nat) : t.fld ⟨Reg.fabDevId, hi, lo⟩ = s.fld ⟨Reg.fabDevId, hi, lo⟩ := State.fld_congr h
  have hgdn : t.gdn = s.gdn := by simp only [State.gdn, Fld.pod, Fld.sled, Fld.slot, hfld]
  have hwired : t.wiredTo p = s.wiredTo p := by simp only [State.wiredTo, State.neighbour, hgdn]
  rw [State.miswired, State.miswired, hwired, Fld.idValid, hfld]

theorem State.meetPeer_miswired (hp : p < 48) (peer : Nat) : (s.meetPeer p peer).miswired p peer = s.miswired p peer :=
  State.miswired_congr (State.reg_setFld_other _ _ _ _ (by simp only [Fld.portPeer, Reg.portStatus, Reg.portPage, Reg.fabDevId]; omega)) p peer

theorem State.miswired_iff {peer : Nat} : s.miswired p peer = true ↔ p < 40 ∧ s.fld Fld.idValid = 1 ∧ peer ≠ s.wiredTo p := by
  simp [State.miswired, and_assoc]

/-- Settles O30: lanes lost by how many are left, the end of retraining, and link-up by whether the peer is the one named. -/
theorem lanesStepDownAndPortsComeUp : Obligations.LanesStepDownAndPortsComeUp := by
  unfold Obligations.LanesStepDownAndPortsComeUp
  refine ⟨fun s p lane f hp hlane => ⟨fun hcarries hnew htest htests => ⟨fun _ hlanes => ?steps, fun hlanes => ?down⟩,
    fun s1 hs1 hretrains => ?retrained, exec_laneRetrainDone_idle hp⟩, fun s p peer lanes hp hpeer hlo hhi htrains => ?up⟩
  case steps =>
    obtain ⟨hhalf, hsome⟩ := fewerLanes_half hlanes
    have hstill := Reg.still_portStatus hp
    obtain ⟨hnow, hstate, hport⟩ := State.retrainTo_fields (s := s.loseLane p lane) hp
      (n := s.fld (Fld.portLanes p) / 2) (by omega)
    rw [exec_laneLoss hp hlane hcarries hnew htest htests, hhalf, if_neg hsome]
    have hleft := (State.absorbWithin_laneState 9 p lane 0 2000 0).trans hport
    refine ⟨_, rfl, ?_, congrArg Prod.fst hleft, ?_, (congrArg Prod.snd hleft).trans ?_, ?_⟩
    · rw [State.absorbWithin_fld hstill, hnow]
    · rw [State.absorbWithin_fld hstill, hstate]
    · rw [State.loseLane, State.port_setPort]
    · rw [State.absorbWithin_mem]; exact State.announce_mem p
  case down =>
    have hstill := Reg.still_portStatus hp
    obtain ⟨hstate, hnone⟩ := State.portDown_fields (s := s.loseLane p lane) hp
    rw [exec_laneLoss hp hlane hcarries hnew htest htests, hlanes]
    exact ⟨_, rfl, (State.absorbPort_fld hstill p).trans hstate, (State.absorbPort_fld hstill p).trans hnone⟩
  case retrained =>
    subst hs1
    rw [exec_laneRetrainDone hp hretrains]
    exact ⟨fun hacked => by rw [if_pos hacked]; rfl, fun hunacked => by rw [if_neg hunacked]; rfl⟩
  case up =>
    have hstill := Reg.still_portStatus hp
    have hlow {g : Fld} (hkey : g.key = Reg.portStatus p) (hlo : g.lo ≤ g.hi) (hhi : g.hi < 29) (t : State) :
        ((t.noteSpares.announce p).endTraining).fld g = t.fld g := by
      rw [← hkey] at hstill
      rw [State.endTraining_fld hstill, State.announce_fld hstill, State.noteSpares_fld hstill hlo hhi]
    have hstate (t : State) : ((t.noteSpares.announce p).endTraining).fld (Fld.portState p) = t.noteSpares.fld (Fld.portState p) := by
      rw [State.endTraining_fld hstill, State.announce_fld hstill]
    have hwired : (s.meetPeer p peer).miswired p peer = s.miswired p peer := State.meetPeer_miswired hp peer
    have hspares := State.noteSpares_portState (s := (s.meetPeer p peer).trained p peer lanes) hp
    refine ⟨_, exec_linkUp hp hpeer hlo hhi htrains, ?_, ?_, fun hpod hid hother => ?_, fun hfits => ?_⟩
    · rw [hlow (g := Fld.portPeer p) rfl (by decide : 0 ≤ 15) (by decide : 15 < 29), State.trained_peer, State.meetPeer, State.setFld_portPeer,
        Nat.mod_eq_of_lt hpeer]
    · rw [State.endTraining_mem, State.announce_mem, State.noteSpares_mem, State.trained_mem]; rfl
    · obtain ⟨hmis, hnone⟩ := State.trained_miswired (lanes := lanes) (hwired.trans (State.miswired_iff.mpr ⟨hpod, hid, hother⟩))
      rw [hstate, hlow (g := Fld.portLanes p) rfl (by decide : 25 ≤ 28) (by decide : 28 < 29)]
      exact ⟨by omega, hnone⟩
    · have hnot : s.miswired p peer = false := by
        rw [Bool.eq_false_iff, Ne, State.miswired_iff]
        rintro ⟨hpod, hid, hother⟩
        rcases hfits with h | h | h
        · omega
        · omega
        · exact hother h
      have hfew : lanes < 16 := Nat.lt_of_le_of_lt hhi (lanesOf_lt p)
      obtain ⟨hup, hall⟩ := State.trained_wired (hwired.trans hnot) hfew
      rw [hstate, hlow (g := Fld.portLanes p) rfl (by decide : 25 ≤ 28) (by decide : 28 < 29)]
      exact ⟨hall, by omega⟩

end Sys2Proof.Machine

/-! O45: the settings of the network, storage, fabric, power, tests and keys (R309, R335, R417, R419, R432, R446, R471, R503). -/
namespace Sys2Proof.Machine

variable {s : State} {k n : Nat} {m : Msg}

-- commands and their checks

theorem mbxOk_of_takes {code want : Nat} (h : s.takes k code want = true) : mbxOk k = true := decide_eq_true (State.takes_lt h)

theorem State.takes_len {code want : Nat} (h : s.takes k code want = true) : (s.msg k).len = want := by
  simp only [State.takes, Bool.and_eq_true, decide_eq_true_eq] at h
  exact h.1.2

/-- No listed field is wrong. -/
theorem firstBad_none_iff {l : List (Bool × Nat)} : firstBad l = none ↔ ∀ e ∈ l, e.1 = false := by
  simp [firstBad]

theorem firstBad_cons {b : Bool} {i : Nat} {l : List (Bool × Nat)} : firstBad ((b, i) :: l) = none ↔ b = false ∧ firstBad l = none := by
  simp [firstBad_none_iff]

/-- A command of a mailbox that passes its checks is carried out. -/
theorem ifUnit_command {code : Nat} {want : Msg → Nat} {bad : State → Msg → Option Nat} {f : State → Msg → State}
    (h : s.takes k code n = true) (hwant : want (s.msg k) = n) (hbad : bad s (s.msg k) = none) :
    ifUnit (mbxOk k) (s.command k code want bad f) = .next (f s (s.msg k)) := by
  rw [ifUnit_true (mbxOk_of_takes h), State.command_takes h hwant hbad]

-- no job is admitted or being admitted

theorem State.bound_iff : s.bound = true ↔ ¬(s.job = none ∧ s.fld Fld.state ≠ 2) := by
  unfold State.bound
  cases s.job <;> simp

section
variable (hfree : s.job = none ∧ s.fld Fld.state ≠ 2)
include hfree
theorem State.bound_free : s.bound = false := by
  rw [Bool.eq_false_iff, Ne, State.bound_iff, Decidable.not_not]; exact hfree
end

-- network and storage (R417, R419)

/-- The network settings of both ports. -/
def State.setNet (s : State) (net : List Byte) : State := s.onHost (fun h => { h with net := net })

theorem State.setNet_parts (net : List Byte) :
    (s.setNet net).mem = s.mem ∧ (s.setNet net).job = s.job ∧ (s.setNet net).host.net = net := ⟨rfl, rfl, rfl⟩

theorem exec_netConfig (hm : s.msg k = m) (h : s.takes k 0x10 128 = true)
    (hok : firstBad (netEntryBad m 0 ++ netEntryBad m 64) = none) : exec (.netConfig k) s =
      .next (if s.bound then s.wrongState k m else (s.setNet m.body).done k m []) := by
  subst hm
  exact ifUnit_command h rfl hok

/-- A target's entry is deleted, or written anew and connected. -/
def State.setTarget (s : State) (m : Msg) : State :=
  if bitOf (m.get 1 1) 3 then s.onHost (fun h => { h with targets := Tab.del (m.get 0 1) h.targets })
  else s.connectTarget (m.get 0 1) m.body

theorem exec_storageTargetSet (hm : s.msg k = m) (h : s.takes k 0x11 320 = true) (hnum : m.get 0 1 ≤ 15) (hflags : m.get 1 1 ≤ 15)
    (h4 : nonZero m 4 4 = false) (h18 : nonZero m 0x18 8 = false) (hff : nonZero m 0xFF 33 = false)
    (h120 : nonZero m 0x120 32 = false) : exec (.storageTargetSet k) s =
      .next (if s.bound then s.wrongState k m else (s.setTarget m).done k m []) := by
  subst hm
  refine (ifUnit_command h rfl ?_).trans (congrArg _ (ite_congr rfl (fun _ => rfl) (fun _ => ?_)))
  · rw [firstBad_none_iff]
    simp [hnum, hflags, h4, h18, hff, h120]
  · unfold State.setTarget
    split <;> rfl

theorem State.sendIf_host (c : Bool) (x : Sent) : (if c then s.send x else s).host = s.host := by
  split <;> rfl

theorem State.setTarget_targets (m : Msg) :
    (bitOf (m.get 1 1) 3 = true → (s.setTarget m).host.targets = Tab.del (m.get 0 1) s.host.targets) ∧
    (bitOf (m.get 1 1) 3 = false → (s.setTarget m).host.targets = Tab.put (m.get 0 1)
      ⟨m.body, if bitOf (m.get 1 1) 0 then 1 else 0, if bitOf (m.get 1 1) 1 then 1 else 0, 0, 0, 0⟩ s.host.targets) := by
  unfold State.setTarget
  refine ⟨fun hdel => by rw [if_pos hdel]; rfl, fun hput => ?_⟩
  rw [if_neg (Bool.eq_false_iff.mp hput), State.connectTarget]
  exact congrArg HostIf.targets ((State.sendIf_host _ _).trans (State.sendIf_host _ _))

theorem State.setTarget_mem (m : Msg) : (s.setTarget m).mem = s.mem := by
  unfold State.setTarget
  split
  · rfl
  · exact (State.connectTarget_same s _ _ (within_self _) s.same_self).mem_eq (by decide)

theorem State.setTarget_job (m : Msg) : (s.setTarget m).job = s.job := by
  unfold State.setTarget
  split
  · rfl
  · exact (State.connectTarget_same s _ _ (within_self _) s.same_self).job_eq (by decide)

-- the device's number (R309)

/-- The device's pod and sled known. -/
def State.identify (s : State) (pod sled : Nat) : State := ((s.setFld Fld.pod pod).setFld Fld.sled sled).setFld Fld.idValid 1

theorem exec_fabricSetIdentity (hm : s.msg k = m) (h : s.takes k 0x801 4 = true) (hnum : m.get 0 4 < 2 ^ 13) : exec (.fabricSetIdentity k) s =
    .next (if s.bound then s.wrongState k m else (s.identify (m.get 0 1) (m.get 1 1)).done k m []) := by
  subst hm
  refine ifUnit_command h rfl ?_
  rw [firstBad_none_iff]
  simpa using hnum

/-- The two low bytes of a number of 4. -/
theorem Msg.get_bytes (m : Msg) : m.get 0 1 < 256 ∧ m.get 1 1 ≤ m.get 0 4 / 256 := by
  simp only [Msg.get, fieldLE, slice]
  match m.body with
  | [] => decide
  | [a] => simpa [ofLE] using a.isLt
  | a :: b :: r =>
    have ha : a.toNat < 256 := a.isLt
    simp only [List.drop_zero, List.take_succ_cons, List.take_zero, List.drop_succ_cons, ofLE]
    omega

theorem State.identify_fields {pod sled : Nat} (hpod : pod < 256) (hsled : sled < 32) :
    (s.identify pod sled).fld Fld.pod = pod ∧ (s.identify pod sled).fld Fld.sled = sled ∧ (s.identify pod sled).fld Fld.idValid = 1 := by
  unfold State.identify
  refine ⟨?_, ?_, State.fld_setFld_same _ Fld.idValid 1 (by decide) (by decide)⟩
  · rw [State.fld_setFld_other _ Fld.idValid Fld.pod 1 (by decide) (by decide) (by decide) (by decide),
      State.fld_setFld_other _ Fld.sled Fld.pod sled (by decide) (by decide) (by decide) (by decide),
      State.fld_setFld_same _ Fld.pod pod (by decide) (by decide)]
    exact Nat.mod_eq_of_lt hpod
  · rw [State.fld_setFld_other _ Fld.idValid Fld.sled 1 (by decide) (by decide) (by decide) (by decide),
      State.fld_setFld_same _ Fld.sled sled (by decide) (by decide)]
    exact Nat.mod_eq_of_lt hsled

-- the owner's keys (R446)

/-- The keys that the message sets: none where it erases them. -/
def Msg.ownerKeys (m : Msg) : Option (List Byte) := if m.get 0 4 = 1 then none else some (slice m.body 4 436)

theorem exec_ownerKeySet (hm : s.msg k = m) (h : s.takes k 0x605 440 = true) (hkey : m.get 0 4 = 1 ∨
    (m.get 0 4 = 0 ∧ m.get 4 4 % 2 = 1 ∧ 65537 ≤ m.get 4 4 ∧ 128 ≤ m.get 8 1)) :
    exec (.ownerKeySet k) s = .next (if s.bound then s.wrongState k m
      else if s.fld Fld.policy = 2 then s.denied k m 0 else (s.setOwnerKeys m.ownerKeys).done k m []) := by
  subst hm
  refine ifUnit_command h rfl ?_
  rw [firstBad_none_iff]
  rcases hkey with herase | ⟨hset, hodd, hexp, hmod⟩
  · simp [herase]
  · simp [hset, hodd, hexp, hmod]

theorem State.setOwnerKeys_sec (keys : Option (List Byte)) : (s.setOwnerKeys keys).sec.ownerKeys = keys :=
  List.foldlRecOn (motive := fun t : State => t.sec.ownerKeys = keys) _ _ rfl (fun _ ht _ _ => ht)

-- power and tests (R432, R471)

theorem exec_powerCapSet (hm : s.msg k = m) (h : s.takes k 0x702 4 = true) (hcap : 1500 ≤ m.get 0 2 ∧ m.get 0 2 ≤ 3600)
    (hmult : 20 ≤ m.get 2 2 ∧ m.get 2 2 ≤ 80) : exec (.powerCapSet k) s =
      .next ((s.onPower (fun p => { p with next := some (m.get 0 2, m.get 2 2) })).done k m []) := by
  subst hm
  refine ifUnit_command h rfl ?_
  rw [firstBad_none_iff]
  simp [hcap, hmult]

theorem exec_onlineTestSet (hm : s.msg k = m) (h : s.takes k 0x711 4 = true) (hset : m.get 0 4 < 2 ^ 20)
    (hlo : 1 ≤ m.get 0 4 / 16) (hhi : m.get 0 4 / 16 ≤ 720) : exec (.onlineTestSet k) s =
      .next ((s.onTests (fun t => { t with setting := some (m.get 0 4) })).done k m []) := by
  have hperiod : m.get 0 4 / 16 % 65536 = m.get 0 4 / 16 := Nat.mod_eq_of_lt (by omega)
  have hgood : ¬(2 ^ 20 ≤ m.get 0 4 ∨ m.get 0 4 / 16 % 65536 < 1 ∨ 720 < m.get 0 4 / 16 % 65536) := by
    rw [hperiod]; omega
  subst hm
  refine ifUnit_command h rfl ?_
  rw [firstBad_none_iff]
  simpa using hgood

-- routes across pods (R335)

theorem exec_routeSetOptical (hm : s.msg k = m) (hsome : 0 < m.get 0 1) (h1 : nonZero m 1 3 = false)
    (hok : firstBad (routesBad m (podOf s.gdn)) = none) (h : s.takes k 0x807 (4 + 8 * m.get 0 1) = true) :
    exec (.routeSetOptical k) s = .next (if s.bound then s.wrongState k m
      else (State.reroute s (s.onFabric (fun f => { f with
        routes := (List.range (m.get 0 1)).map (fun i => routeOf (slice m.body (4 + 8 * i) 8)) }))).done k m []) := by
  subst hm
  refine ifUnit_command h (if_neg ?_) ?_
  · rw [State.takes_len h]; omega
  · rw [firstBad_none_iff] at hok ⊢
    simpa [h1, Nat.ne_of_gt hsome] using hok

/-- What new routes set off does not change them again. -/
theorem State.reroute_routes (old : State) (rs : List Route) :
    (State.reroute old (s.onFabric (fun f => { f with routes := rs }))).fabric.routes = rs :=
  (State.links_self.reroute old).routes.trans State.noteSpares_routes

-- peers and groups (R335, R503)

/-- The peers that a message adds are well formed, no peers as of its tick, and named once. -/
def State.AddsPeers (s : State) (m : Msg) : Prop :=
  ∀ e ∈ peerWords m, e.2 < 2 ^ 18 ∧ (∀ p ∈ (s.asOf (m.get 8 8)).fabric.peers, p.2.gdn ≠ e.2 % 65536) ∧
    ∀ d ∈ peerWords m, d.1 < e.1 → d.2 % 65536 ≠ e.2 % 65536

theorem State.AddsPeers.unknown (h : s.AddsPeers m) : List.find? (fun (e : Nat × Nat) =>
    (s.asOf (m.get 8 8)).fabric.peers.any (fun p => p.2.gdn = e.2 % 65536) ||
      (peerWords m).any (fun d => decide (d.1 < e.1) && decide (d.2 % 65536 = e.2 % 65536))) (peerWords m) = none := by
  rw [List.find?_eq_none]
  intro e he
  obtain ⟨-, hpeers, hwords⟩ := h e he
  simpa using ⟨fun a b => hpeers (a, b), fun a b => hwords (a, b)⟩

theorem exec_peerAdd (hm : s.msg k = m) (hjob : s.job.isSome = true) (hsoon : s.tooSoon (m.get 8 8) = none)
    (h4 : nonZero m 4 4 = false) (hlo : 1 ≤ m.get 0 4) (hhi : m.get 0 4 ≤ 1008) (hnew : s.AddsPeers m)
    (hroom : (s.asOf (m.get 8 8)).fabric.peers.length + m.get 0 4 ≤ 65536) (h : s.takes k 0x803 (16 + 4 * m.get 0 4) = true) :
    exec (.peerAdd k) s = .next ((s.accept (m.get 8 8) (.peerAdd ((peerWords m).map (fun e => Peer.ofWord e.2)))).done k m []) := by
  subst hm
  have hlen := State.takes_len h
  have hcount : (peerWords (s.msg k)).length = (s.msg k).get 0 4 := by simp [peerWords]
  refine (ifUnit_command h ?length ?fields).trans ?accepted
  case length =>
    rw [peerLength, if_neg (by omega), if_pos ⟨hlo, hhi⟩]
    omega
  case fields =>
    rw [firstBad_cons, firstBad_cons, if_pos hhi, firstBad_none_iff, List.forall_mem_map]
    refine ⟨?_, h4, fun e he => ?_⟩
    · simp; omega
    · simpa using (hnew e he).1
  case accepted => simp [State.admitted, hjob, hnew.unknown, hcount, hsoon, Nat.not_lt.mpr hroom]

/-- The peers that a message removes are peers as of its tick, and in no group. -/
def State.RemovesPeers (s : State) (m : Msg) : Prop :=
  ∀ e ∈ removeNumbers m, (∃ p ∈ (s.asOf (m.get 8 8)).fabric.peers, p.2.gdn = e.2) ∧ (s.asOf (m.get 8 8)).grouped e.2 = false

theorem State.RemovesPeers.known (h : s.RemovesPeers m) : List.find? (fun (e : Nat × Nat) =>
    !(s.asOf (m.get 8 8)).fabric.peers.any (fun p => p.2.gdn = e.2)) (removeNumbers m) = none := by
  rw [List.find?_eq_none]
  intro e he
  obtain ⟨⟨p, hp, hgdn⟩, -⟩ := h e he
  simpa using ⟨p.1, p.2, hp, hgdn⟩

theorem State.RemovesPeers.ungrouped (h : s.RemovesPeers m) :
    List.find? (fun (e : Nat × Nat) => (s.asOf (m.get 8 8)).grouped e.2) (removeNumbers m) = none := by
  rw [List.find?_eq_none]
  intro e he
  obtain ⟨-, hgroup⟩ := h e he
  simp [hgroup]

theorem exec_peerRemove (hm : s.msg k = m) (hjob : s.job.isSome = true) (hsoon : s.tooSoon (m.get 8 8) = none)
    (h4 : nonZero m 4 4 = false) (hlo : 1 ≤ m.get 0 4) (hhi : m.get 0 4 ≤ 2016)
    (hpad : m.get 0 4 % 2 = 1 → nonZero m (16 + 2 * m.get 0 4) 2 = false) (hknown : s.RemovesPeers m)
    (h : s.takes k 0x804 (16 + (2 * m.get 0 4 + 3) / 4 * 4) = true) : exec (.peerRemove k) s =
      .next ((s.accept (m.get 8 8) (.peerRemove ((removeNumbers m).map (fun e => e.2)))).done k m []) := by
  subst hm
  have hlen := State.takes_len h
  refine (ifUnit_command h ?length ?fields).trans ?accepted
  case length => rw [peerLength, if_neg (by omega), if_pos ⟨hlo, hhi⟩]
  case fields =>
    rw [firstBad_cons, firstBad_cons, firstBad_cons]
    refine ⟨?_, h4, ?_, rfl⟩
    · simp; omega
    · simpa using hpad
  case accepted => simp only [State.admitted, hjob, hknown.known, hknown.ungrouped, hsoon]; rfl

theorem exec_groupSet {b : List Byte} (hm : s.msg k = m) (hb : slice m.body 24 (m.get 16 4) = b) (hjob : s.job.isSome = true)
    (hsoon : s.tooSoon (m.get 0 8) = none) (h20 : nonZero m 20 4 = false) (hinline : m.get 8 8 = 0) (hsize : b.length = m.get 16 4)
    (hmin : 8 ≤ b.length) (hwhole : b.length = groupSize (groupCount b)) (hgood : groupBad b (s.asOf (m.get 0 8)).fabric.peers = none)
    (hroom : (s.asOf (m.get 0 8)).fabric.groups.length < 1024) (hhead : 24 ≤ m.len)
    (h : s.takes k 0x806 (24 + m.get 16 4) = true) : exec (.groupSet k []) s =
      .next ((s.accept (m.get 0 8) (.groupSet (fieldLE b 0 2) (groupMembers b))).done k m []) := by
  subst hm
  have hbytes : groupBytes (s.msg k) [] = b := (if_pos hinline).trans hb
  refine (ifUnit_command h ?length ?fields).trans ?accepted
  case length => rw [if_neg (Nat.not_lt.mpr hhead), if_pos hinline]
  case fields =>
    rw [firstBad_cons, firstBad_cons, firstBad_cons, hbytes]
    refine ⟨h20, ?_, ?_, rfl⟩
    · simp [hinline]
    · simp [← hsize, ← hwhole, hmin]
  case accepted =>
    simp only [State.admitted, hjob, hbytes, hgood, hsoon, hinline, if_true, if_neg (fun hfull => Nat.not_le.mpr hroom (And.left hfull))]
    rfl

/-- Settles O45: each setting by its own lemma, for a device that no job binds, one that a job binds, and one with a job. -/
theorem deviceSettingsTakeEffect : Obligations.DeviceSettingsTakeEffect := by
  unfold Obligations.DeviceSettingsTakeEffect
  intro s k m sets refused free netOk targetOk
  have hstored {c : Instr} {code want : Nat} {P : State → Prop} {t : State} {u : State}
      (hexec : s.takes k code want = true → exec c s = .next (if s.bound then u else t.done k m []))
      (hfree : free) (hmem : t.mem = s.mem) (hjob : t.job = s.job) (hP : P t) : sets c code want P := fun h =>
    ⟨t, (hexec h).trans (congrArg _ (if_neg (Bool.eq_false_iff.mp (State.bound_free hfree)))), hmem, hjob, hP⟩
  have hbarred {c : Instr} {code want : Nat} {t : State}
      (hexec : s.takes k code want = true → exec c s = .next (if s.bound then s.wrongState k m else t))
      (hbound : ¬free) : refused c code want := fun h =>
    (hexec h).trans (congrArg _ (if_pos (State.bound_iff.mpr hbound)))
  refine ⟨fun hfree hok => ?_, fun hbound hok => ?_, fun hfree hok => ?_, fun hbound hok => ?_, fun hfree hnum => ?_, fun hbound hnum => ?_,
    ⟨fun hfree hkey hpolicy => ?_, fun hfree hkey hpolicy h => ?_, fun hbound hkey => ?_⟩, fun hlo hhi hmin hmax h => ?_,
    fun hset hlo hhi h => ?_, fun hsome h1 hok => ⟨fun hfree h => ?_, fun hbound => ?_⟩,
    fun hjob hsoon h4 => ⟨fun hlo hhi hnew hroom h => ?_, fun hlo hhi hpad hknown h => ?_⟩,
    fun hjob hsoon h20 hinline hsize hmin hwhole hgood hroom hhead h => ?_⟩
  · obtain ⟨hmem, hjob, hnet⟩ := State.setNet_parts (s := s) m.body
    exact hstored (fun h => exec_netConfig rfl h hok) hfree hmem hjob hnet
  · exact hbarred (fun h => exec_netConfig rfl h hok) hbound
  · obtain ⟨hnum, hflags, h4, h18, hff, h120⟩ := hok
    refine hstored (fun h => exec_storageTargetSet rfl h hnum hflags h4 h18 hff h120) hfree ?_ ?_ ?_
    · exact State.setTarget_mem m
    · exact State.setTarget_job m
    · exact State.setTarget_targets m
  · obtain ⟨hnum, hflags, h4, h18, hff, h120⟩ := hok
    exact hbarred (fun h => exec_storageTargetSet rfl h hnum hflags h4 h18 hff h120) hbound
  · obtain ⟨hpod, hsled⟩ := Msg.get_bytes m
    refine hstored (fun h => exec_fabricSetIdentity rfl h hnum) hfree ?_ ?_ ?_
    · rfl
    · rfl
    · exact State.identify_fields hpod (by omega)
  · exact hbarred (fun h => exec_fabricSetIdentity rfl h hnum) hbound
  · refine hstored (fun h => (exec_ownerKeySet rfl h hkey).trans (by rw [if_neg hpolicy])) hfree ?_ ?_ ?_
    · exact (State.setOwnerKeys_same s _ (within_self _) s.same_self).mem_eq (by decide)
    · exact (State.setOwnerKeys_same s _ (within_self _) s.same_self).job_eq (by decide)
    · exact State.setOwnerKeys_sec _
  · exact (exec_ownerKeySet rfl h hkey).trans
      (congrArg _ ((if_neg (Bool.eq_false_iff.mp (State.bound_free hfree))).trans (if_pos hpolicy)))
  · exact hbarred (fun h => exec_ownerKeySet rfl h hkey) hbound
  · exact ⟨_, exec_powerCapSet rfl h ⟨hlo, hhi⟩ ⟨hmin, hmax⟩, rfl, rfl, rfl, rfl⟩
  · exact ⟨_, exec_onlineTestSet rfl h hset hlo hhi, rfl, rfl, rfl, rfl⟩
  · rw [exec_routeSetOptical rfl hsome h1 hok h, if_neg (Bool.eq_false_iff.mp (State.bound_free hfree))]
    exact ⟨_, rfl, State.reroute_routes s _⟩
  · exact hbarred (fun h => exec_routeSetOptical rfl hsome h1 hok h) hbound
  · exact ⟨_, exec_peerAdd rfl hjob hsoon h4 hlo hhi hnew hroom h, rfl, rfl, rfl, rfl⟩
  · exact ⟨_, exec_peerRemove rfl hjob hsoon h4 hlo hhi hpad hknown h, rfl, rfl, rfl, rfl⟩
  · exact ⟨_, exec_groupSet rfl rfl hjob hsoon h20 hinline hsize hmin hwhole hgood hroom hhead h, rfl, rfl, rfl, rfl⟩

end Sys2Proof.Machine

/-! O36: a node of a launch tree (R355 to R359, R341). -/
namespace Sys2Proof.Machine

variable {s : State} {id : Nat} {l : Launch}

-- traffic leaves the launches of this device

theorem State.sendBy_fabric (s : State) (p : Nat) (tx : Tx) :
    ∃ ports, (s.sendBy p tx).fabric = { s.fabric with ports := ports } := by
  unfold State.sendBy
  split
  · exact ⟨_, rfl⟩
  · exact ⟨_, rfl⟩

/-- Sending a transaction changes the ports and the routes in use, and nothing else of the fabric. -/
theorem State.sendTx_fabric (s : State) (tx : Tx) :
    ∃ ports chosen, (s.sendTx tx).fabric = { s.fabric with ports := ports, chosen := chosen } := by
  unfold State.sendTx
  split
  · obtain ⟨ports, h⟩ := State.sendBy_fabric _ _ tx
    exact ⟨ports, _, h⟩
  · exact ⟨_, _, rfl⟩

theorem State.launchTx_launches (op dst id low word : Nat) : (s.launchTx op dst id low word).fabric.launches = s.fabric.launches := by
  obtain ⟨ports, chosen, h⟩ := State.sendTx_fabric s { s.mkTx 0x8 op dst (id % 2 ^ 32 * 2 ^ 32 + low) word [] with stream := 0x8000 }
  rw [State.launchTx, h]

/-- A launch is found as it was set, also after a launch transaction. -/
theorem State.setLaunch_launchTx_found (op dst low word : Nat) :
    Tab.find? ((s.setLaunch id l).launchTx op dst id low word).fabric.launches id = some l := by
  rw [State.launchTx_launches]
  exact Tab.find?_put_same _ _ _

-- commands of a node whose launch runs here (R356, R357)

section
variable (hl : Tab.find? s.fabric.launches id = some l)
include hl

theorem exec_launchChunkForward {child : Nat} (hchild : child ∈ l.children) (hheld : Tab.get 0 l.next child < l.held)
    (hroom : s.chunksInFlight id l child < 8) (hlost : s.isLost child = false) :
    exec (.launchChunkForward id child) s = .next (s.forwardChunk id l child (Tab.get 0 l.next child)) := by
  simp [exec, execLaunchChunkForward, hl, hchild, hheld, hroom, hlost]

theorem exec_launchHeartbeatSend :
    exec (.launchHeartbeatSend id) s = .next (l.children.foldl (fun s c => s.launchTx 6 c id 0 l.held) s) := by
  simp only [exec, execLaunchHeartbeatSend, hl]

theorem exec_launchAdoptTimeout (hwaits : l.reattaching = true) :
    exec (.launchAdoptTimeout id) s = .next ((s.at_ (l.lastHeard + us 2000)).orphan id l) := by
  simp only [exec, execLaunchAdoptTimeout, hl, if_pos hwaits]

section
variable {p : Nat} (hparent : l.parent = some p) (hrank : l.rank ≠ 0) (hopen : l.doneSent = false)
include hparent hrank hopen

theorem exec_launchParentSilence_orphan (hnone : l.grandparent = none) : exec (.launchParentSilence id) s = .next
    (((s.at_ (l.lastHeard + us 2000)).launchEvent id p 0).orphan id { l with parent := none, refused := l.refused ++ [p] }) := by
  simp [exec, execLaunchParentSilence, hl, hparent, hrank, hopen, hnone]

/-- The node asks its grandparent to take it in, and waits for that from now on. -/
theorem exec_launchParentSilence_reattaches {g : Nat} (hgrand : l.grandparent = some g) :
    let u := (s.at_ (l.lastHeard + us 2000)).launchEvent id p 0
    exec (.launchParentSilence id) s = .next ((u.setLaunch id { l with
      parent := none, refused := l.refused ++ [p], reattaching := true, lastHeard := u.now }).launchTx 7 g id 0 l.held) := by
  simp only [exec, execLaunchParentSilence, hl, hparent, hgrand]
  exact congrArg _ (if_neg (by simp [hrank, hopen]))
end
end

-- what the nodes around it say (R341, R357, R359)

/-- The launch of a node that takes in the sender of a request to reattach. -/
def Launch.adopt (l : Launch) (tx : Tx) : Launch := { l with
  children := l.children.filter (fun c => c ≠ tx.src) ++ [tx.src]
  finished := l.finished.filter (fun c => c ≠ tx.src)
  next := Tab.set 0 tx.src tx.word l.next }

section
variable {tx : Tx} {op : Nat} (hl : Tab.find? s.fabric.launches id = some l) (htype : tx.type = 8) (hdst : tx.dst = s.gdn)
  (hid : tx.addr / 2 ^ 32 % 2 ^ 32 = id)
include hl htype hdst hid

/-- A launch control transaction for a broadcast that runs here is taken. -/
theorem State.launchControl_takes (hop : tx.op = op) (f : State → Nat → Launch → State) : s.launchControl tx op f = f s id l := by
  rw [State.launchControl, State.arrives_here hdst, if_neg (by simp [htype, hop]), hid, hl]

theorem exec_launchHeartbeat (hop : tx.op = 6) (hparent : l.parent = some tx.src) :
    exec (.launchHeartbeat tx) s = .next (s.setLaunch id { l with lastHeard := s.now }) :=
  congrArg _ ((State.launchControl_takes hl htype hdst hid hop _).trans (if_pos hparent))

theorem exec_launchReattach (hop : tx.op = 7) : exec (.launchReattach tx) s =
    .next ((s.setLaunch id (l.adopt tx)).launchTx 8 tx.src id 0 (l.parent.getD (2 ^ 16))) := by
  refine congrArg _ ((State.launchControl_takes hl htype hdst hid hop _).trans
    (congrArg ((s.setLaunch id (l.adopt tx)).launchTx 8 tx.src id 0) ?_))
  cases l.parent <;> rfl

theorem exec_launchAdopt (hop : tx.op = 8) (hwaits : l.reattaching = true) (hgrand : l.grandparent = some tx.src) :
    exec (.launchAdopt tx) s = .next ((s.setLaunch id { l with
      parent := some tx.src, grandparent := if bitOf tx.word 16 then none else some (tx.word % 65536),
      reattaching := false, gotBytes := 0, lastHeard := s.now }).launchDoneCheck id) :=
  congrArg _ ((State.launchControl_takes hl htype hdst hid hop _).trans (if_pos (by simp [hwaits, hgrand])))

theorem exec_launchDone (hop : tx.op = 9) (hchild : tx.src ∈ l.children) (hfresh : tx.src ∉ l.finished) :
    exec (.launchDone tx) s = .next ((s.setLaunch id { l with
      finished := l.finished ++ [tx.src], done := l.done + tx.word % 2 ^ 17, failed := l.failed + tx.addr % 2 ^ 17 }).launchDoneCheck id) :=
  congrArg _ ((State.launchControl_takes hl htype hdst hid hop _).trans (if_pos (by simp [hchild, hfresh])))
end

/-- Settles O36: each command and transaction by its own lemma; what a node sends leaves the launch that it has set. -/
theorem launchTreesCarryOn : Obligations.LaunchTreesCarryOn := by
  unfold Obligations.LaunchTreesCarryOn
  intro s id l hl
  refine ⟨fun child => exec_launchChunkForward hl, exec_launchHeartbeatSend hl, fun p hparent hrank hopen => ⟨fun g hgrand => ?silence, ?orphan⟩,
    exec_launchAdoptTimeout hl, fun tx htype hdst hid => ⟨exec_launchHeartbeat hl htype hdst hid, fun hop => ?reattach,
      exec_launchAdopt hl htype hdst hid, exec_launchDone hl htype hdst hid⟩⟩
  case silence =>
    refine ⟨_, _, exec_launchParentSilence_reattaches hl hparent hrank hopen hgrand,
      State.setLaunch_launchTx_found _ _ _ _, rfl, rfl, List.mem_append_right _ (List.mem_singleton_self p), rfl⟩
  case orphan => exact exec_launchParentSilence_orphan hl hparent hrank hopen
  case reattach =>
    refine ⟨_, l.adopt tx, exec_launchReattach hl htype hdst hid hop, State.setLaunch_launchTx_found _ _ _ _,
      List.mem_append_right _ (List.mem_singleton_self _), Tab.get_set_same _ _ _ _, rfl, ?_⟩
    exact (State.launchTx_same _ _ _ _ _ _ (within_self _) (State.same_self _)).mem_eq (by decide)

end Sys2Proof.Machine

/-! O48: the clause of SELF_TEST with the links (R402, R475). Ports that the test takes down can lose a child of a launch tree (R351, R358),
and the root whose last child is lost ends its LAUNCH_BROADCAST (R359): it has left the commands that run once SELF_TEST has joined them. -/
namespace Sys2Proof.Machine

variable {s z : State} {k : Nat} {m : Msg}

-- a long command starts among others

/-- A long command accepted: its message is answered, and it has joined those that run. -/
def State.accepted (s : State) (k : Nat) (m : Msg) (ext : List Byte) : State :=
  (s.answer k m Status.accepted 0 []).onHost (fun h => { h with longs := h.longs ++ [Long.of k m ext] })

theorem State.startLong_joins {f : State → State} {conflicts : List Nat} (hmay : s.mayStart m.code conflicts = true) (hlongs : s.host.longs ≠ []) :
    s.startLong k m conflicts f = f (s.accepted k m []) :=
  (State.startLongExt_starts hmay).resolve_right fun hnone => hlongs hnone.2

/-- Every port taken down for a test of the links, and shown as one without a link. -/
def State.unlink (s : State) : State := (List.range 48).foldl (fun s p => (s.portDown p).setFld (Fld.portState p) 6) s

theorem exec_selfTest_links {found ending : Nat} {units : List TestUnit} (hm : s.msg k = m) (hunits : units.all selfTestUnit = true)
    (h : s.takes k 0x710 4 = true) (hmask : m.get 0 4 ≤ 255) (hlinks : bitOf (m.get 0 4) 7 = true) (hps0 : s.fld Fld.pstate = 0)
    (hfree : s.job = none ∧ s.fld Fld.state ≠ 2) (hmay : s.mayStart m.code [] = true) (hlongs : s.host.longs ≠ []) :
    exec (.selfTest k found ending units) s =
      .next ((s.accepted k m []).onTests (fun t => { t with self := some (found, ending, units) })).unlink := by
  subst hm
  have hunit : (mbxOk k && units.all selfTestUnit) = true := by rw [mbxOk_of_takes h, hunits]; rfl
  have hstarts : ¬((!s.ps0 || s.bound) = true) := by simp [State.ps0, hps0, State.bound_free hfree]
  refine (ifUnit_true hunit).trans (congrArg _ ((State.command_takes h rfl ?_).trans ?_))
  · rw [firstBad_none_iff]
    simpa using hmask
  · rw [if_neg hstarts, State.startLong_joins hmay hlongs, if_pos hlinks]
    rfl

-- ports that go down where no request is on its way

theorem State.sendTx_out (tx : Tx) : (s.sendTx tx).fabric.out = s.fabric.out := by
  obtain ⟨ports, chosen, h⟩ := s.sendTx_fabric tx
  rw [h]

theorem State.announce_out (p : Nat) : (s.announce p).fabric.out = s.fabric.out :=
  List.foldlRecOn (motive := fun t : State => t.fabric.out = s.fabric.out) _ _ rfl (fun _ ht _ _ => (State.sendTx_out _).trans ht)

theorem State.redirect_out (txs : List Tx) : (s.redirect txs).fabric.out = s.fabric.out := by
  refine List.foldlRecOn (motive := fun t : State => t.fabric.out = s.fabric.out) _ _ rfl (fun t ht tx _ => ?_)
  split
  · exact ht
  · exact (State.sendTx_out _).trans ht

theorem State.noteSpares_out : s.noteSpares.fabric.out = s.fabric.out :=
  State.noteSpares_induction (P := fun t => t.fabric.out = s.fabric.out) rfl (fun _ _ ht => ht)
    (fun _ q _ _ _ ht => (State.announce_out q).trans ht)

theorem State.noteSpares_host : s.noteSpares.host = s.host :=
  (State.noteSpares_same s (within_self _) s.same_self).host_eq (by decide)

theorem State.portDown_out (p : Nat) : (s.portDown p).fabric.out = (State.reroute s (s.closePort p)).fabric.out :=
  (State.announce_out p).trans (State.redirect_out _)

/-- No request is on its way, and the host's side is that of `z`. -/
def State.Quiet (z s : State) : Prop := s.fabric.out = [] ∧ s.host = z.host

theorem State.Quiet.portDown (h : State.Quiet z s) (p : Nat) : State.Quiet z (s.portDown p) := by
  obtain ⟨hout, hhost⟩ := h
  have hreroute : State.reroute s (s.closePort p) = (s.closePort p).noteSpares := by
    have htargets : (s.closePort p).targets = [] := by
      unfold State.targets
      rw [show (s.closePort p).fabric.out = [] from hout]
      rfl
    unfold State.reroute
    rw [htargets, List.foldl_nil]
  constructor
  · rw [State.portDown_out, hreroute, State.noteSpares_out]
    exact hout
  · rw [State.portDown_host, hreroute, State.noteSpares_host]
    exact hhost

theorem State.Quiet.setFld (h : State.Quiet z s) (f : Fld) (v : Nat) : State.Quiet z (s.setFld f v) := h

/-- Once the first port is down and no request is on its way, the others change nothing of the host's side. -/
theorem State.unlink_host (h : (s.portDown 0).fabric.out = []) : s.unlink.host = (s.portDown 0).host := by
  have hfirst : State.Quiet (s.portDown 0) (s.portDown 0) := ⟨h, rfl⟩
  have hrest : State.Quiet (s.portDown 0) s.unlink := by
    unfold State.unlink
    rw [List.range_succ_eq_map, List.foldl_cons]
    refine List.foldlRecOn (motive := State.Quiet (s.portDown 0)) _ _ ?_ (fun t ht p _ => ?_)
    · exact hfirst.setFld (Fld.portState 0) 6
    · exact (ht.portDown p).setFld (Fld.portState p) 6
  exact hrest.2

-- the device

/-- The root of launch 9: it holds the payload and has verified it, and its one child, device 1, has not sent done yet. -/
def rootLaunch : Launch where
  mbx := 1
  rank := 0
  parent := none
  grandparent := none
  children := [1]
  length := 65536
  dest := 0
  sha := []
  held := 1
  next := [(1, 1)]
  gotBytes := 0
  done := 1
  failed := 0
  finished := []
  ended := true
  refused := []
  reattaching := false
  doneSent := false
  lastHeard := 0

/-- A write of the last chunk to the child, which it has not acknowledged. -/
def chunkWrite : OutReq where
  dst := 1
  seq := 0
  tx := ⟨2, 0, false, false, false, false, false, 0, 1, 0, 0x8000, 0, 512, 2 ^ 48, 0, []⟩
  op := firmwareOp
  req := 9
  resends := 0
  deadline := 0
  waiting := false

/-- LAUNCH_BROADCAST, accepted on mailbox 1. -/
def launchCommand : Long := ⟨1, 0x80A, 0, false, none, [], []⟩

/-- A device in READY whose port to device 1 alone is in service. It is the root of a launch, and mailbox 0 holds SELF_TEST with bit 7 of
its mask set. -/
def launchRoot : State :=
  { State.reset with
    regs := [(Reg.portStatus 0, 0x48000001), (Reg.devState, 0x10000000)]
    fabric := { Fabric.zero with out := [chunkWrite], launches := [(9, rootLaunch)] }
    host := { HostIf.zero with
      mbx := [(0, .posted)], pages := [(0, 0x10), (1, 0x07), (8, 4), (32, 0x80)], order := [0], longs := [launchCommand] } }

/-- The device with SELF_TEST accepted. -/
def launchTested : State :=
  (launchRoot.accepted 0 (launchRoot.msg 0) []).onTests (fun t => { t with self := some (0, 0, []) })

/-- The device as its child is lost to it. -/
def launchLoss : State := (launchTested.closePort 0).markLost 1 3

theorem launchRoot_asked : launchRoot.takes 0 0x710 4 = true := by decide

theorem launchRoot_ps0 : launchRoot.fld Fld.pstate = 0 := by decide

theorem launchRoot_free : launchRoot.job = none ∧ launchRoot.fld Fld.state ≠ 2 := by decide

theorem launchRoot_mayStart : launchRoot.mayStart 0x710 [] = true := by decide

theorem launchRoot_starts : exec (.selfTest 0 0 0 []) launchRoot = .next launchTested.unlink :=
  exec_selfTest_links rfl rfl launchRoot_asked (by decide) (by decide) launchRoot_ps0 launchRoot_free launchRoot_mayStart (List.cons_ne_nil _ _)

theorem launchTested_loses : State.reroute launchTested (launchTested.closePort 0) = launchLoss := by
  have htargets : (launchTested.closePort 0).targets = [1] := by decide
  have hid : (launchTested.closePort 0).fld Fld.idValid ≠ 1 := by decide
  have hroute : ((launchTested.closePort 0).route? 1).isNone = true := by decide
  exact State.reroute_loses htargets hid hroute

/-- Nothing is on its way to the lost child any more, and the root's command has ended with the totals. -/
theorem launchLoss_ends : launchLoss.fabric.out = [] ∧ launchCommand ∉ launchLoss.host.longs := by decide

theorem launchTested_ends : launchCommand ∉ launchTested.unlink.host.longs := by
  obtain ⟨hout, hended⟩ := launchLoss_ends
  rw [State.unlink_host (by rw [State.portDown_out, launchTested_loses, hout]), State.portDown_host, launchTested_loses]
  exact hended

/-- Refutes O48: in `launchRoot` SELF_TEST may start, for no conflict with LAUNCH_BROADCAST is named (R402). Its test of the links takes down
the port to the last child, which is lost and dropped, and LAUNCH_BROADCAST completes: the commands that run afterwards are not those that
ran before with SELF_TEST behind them. The statement lacks a premise that no launch runs while the links are tested. -/
theorem not_longCommandsAreAccepted : ¬ Obligations.LongCommandsAreAccepted := by
  unfold Obligations.LongCommandsAreAccepted
  intro h
  obtain ⟨-, -, -, -, -, -, -, -, -, -, -, hself, -⟩ := h launchRoot 0 0 0 [] []
  obtain ⟨hstarts, -⟩ := hself rfl launchRoot_asked ⟨by decide, launchRoot_ps0, launchRoot_free⟩
  obtain ⟨t, hexec, hlongs, -⟩ := hstarts launchRoot_mayStart
  obtain rfl : launchTested.unlink = t := Host.Outcome.next.inj (launchRoot_starts.symm.trans hexec)
  have hruns : launchCommand ∈ launchTested.unlink.host.longs := by
    rw [hlongs]
    exact List.mem_append_left _ (List.mem_singleton_self _)
  exact launchTested_ends hruns

end Sys2Proof.Machine

namespace Sys2Proof.Machine

/-! O1: what a step is. -/

/-- Settles O1: a step is the execution of the front command. -/
theorem stepRunsFrontCommand : Obligations.StepRunsFrontCommand := by
  unfold Obligations.StepRunsFrontCommand
  intro c rest s
  rfl

end Sys2Proof.Machine

namespace Sys2Proof.Machine

/-! Bytes of messages: the length of little-endian fields, what a field reads back, and the parts of a message put together of fields. -/

section
variable {n v off : Nat} {a r : List Byte}

@[simp] theorem length_toLE (n v : Nat) : (toLE n v).length = n := by
  induction n generalizing v with
  | zero => rfl
  | succ n ih => simp [toLE, ih]

theorem ofLE_toLE (n v : Nat) : ofLE (toLE n v) = v % 256 ^ n := by
  induction n generalizing v with
  | zero => simp [toLE, ofLE, Nat.mod_one]
  | succ n ih =>
    rw [toLE, ofLE, ih, BitVec.toNat_ofNat, Nat.pow_succ' (m := 256), Nat.mod_mul]

theorem drop_skip (h : a.length ≤ off) : (a ++ r).drop off = r.drop (off - a.length) := by
  rw [List.drop_append, List.drop_eq_nil_of_le h, List.nil_append]

theorem slice_head (h : a.length = n) : slice (a ++ r) 0 n = a := List.take_left' h

theorem slice_skip (h : a.length ≤ off) : slice (a ++ r) off n = slice r (off - a.length) n := by
  rw [slice, slice, drop_skip h]

theorem fieldLE_head : fieldLE (toLE n v ++ r) 0 n = v % 256 ^ n := by
  rw [fieldLE, slice_head (length_toLE n v), ofLE_toLE]

theorem fieldLE_toLE : fieldLE (toLE n v) 0 n = v % 256 ^ n := by
  rw [← List.append_nil (toLE n v), fieldLE_head]

theorem fieldLE_skip (h : a.length ≤ off) : fieldLE (a ++ r) off n = fieldLE r (off - a.length) n := by
  rw [fieldLE, fieldLE, slice_skip h]

@[simp] theorem length_sha384Bytes (bs : List Byte) : (sha384Bytes bs).length = 48 := by
  rw [sha384Bytes, List.length_reverse, length_toLE]

end

/-! O57: I3C and JTAG (R498, R499). -/

variable {s : State} {a : Nat}

theorem exec_i3cEntdaa_takes (hgood : s.board.standbyGood = true) (hnone : s.board.i3cAddr = none) :
    exec (.i3cEntdaa a) s = .next ((s.onBoard (fun b => { b with i3cAddr := some a })).send (.i3cAddr a)) :=
  congrArg _ (if_pos ⟨hgood, hnone⟩)

theorem exec_i3cSetdasa_takes (hgood : s.board.standbyGood = true) (hnone : s.board.i3cAddr = none) :
    exec (.i3cSetdasa (0x30 + s.board.straps.slot) a) s =
      .next ((s.onBoard (fun b => { b with i3cAddr := some a })).send (.i3cAddr a)) :=
  congrArg _ (if_pos ⟨hgood, hnone, rfl⟩)

theorem exec_i3cSetdasa_other {x : Nat} (hx : x ≠ 0x30 + s.board.straps.slot) : exec (.i3cSetdasa x a) s = .next s :=
  congrArg _ (if_neg fun h => hx h.2.2)

/-- A device that has a dynamic address takes no other. -/
theorem exec_i3cAddress_kept (hsome : s.board.i3cAddr.isSome = true) (x : Nat) :
    exec (.i3cSetdasa x a) s = .next s ∧ exec (.i3cEntdaa a) s = .next s := by
  have hne : s.board.i3cAddr ≠ none := Option.isSome_iff_ne_none.mp hsome
  exact ⟨congrArg _ (if_neg fun h => hne h.2.1), congrArg _ (if_neg fun h => hne h.2)⟩

theorem exec_i3cPrivateWrite_offset {data : List Byte} (haddr : s.board.i3cAddr = some a) (hlen : data.length = 4) :
    exec (.i3cPrivateWrite a data) s = .next (s.onBoard (fun b => { b with i3cOffset := some (ofLE data) })) :=
  congrArg _ (if_pos ⟨haddr, hlen⟩)

theorem exec_i3cPrivateWrite_ignored {data : List Byte} (h : s.board.i3cAddr ≠ some a ∨ data.length ≠ 4) :
    exec (.i3cPrivateWrite a data) s = .next s :=
  congrArg _ (if_neg fun hboth => h.elim (fun h => h hboth.1) (fun h => h hboth.2))

theorem exec_i3cPrivateRead_ignored (haddr : s.board.i3cAddr ≠ some a) (len : Nat) : exec (.i3cPrivateRead a len) s = .next s :=
  congrArg _ (if_pos haddr)

theorem exec_i3cPrivateRead_register {x : Nat} (haddr : s.board.i3cAddr = some a) (hx : s.board.i3cOffset = some x)
    (halign : x % 4 = 0) (hview : x < 0x400000) (len : Nat) :
    exec (.i3cPrivateRead a len) s = .next (s.send (.i3cData ((s.regBytes x 4).take len))) := by
  simp only [exec, execI3cPrivateRead, haddr, hx, halign, hview, ne_eq, not_true_eq_false, and_self, if_true, if_false]

theorem exec_i3cPrivateRead_open (haddr : s.board.i3cAddr = some a) (hnone : s.board.i3cOffset = none) (len : Nat) :
    exec (.i3cPrivateRead a len) s = .next (s.fresh.2.send (.i3cData ((toLE 4 s.fresh.1.toNat).take len))) := by
  simp only [exec, execI3cPrivateRead, haddr, hnone, ne_eq, not_true_eq_false, if_false]

/-- What IDCODE shifts out (R499): 1, 11 bits of the manufacturer's code, 16 of the part, 4 of the stepping. -/
theorem idcode_fields (stepping : Nat) (jedec : BitVec 11) :
    (stepping % 16 * 2 ^ 28 + 0x6604 * 2 ^ 12 + jedec.toNat * 2 + 1) % 2 = 1 ∧
    (stepping % 16 * 2 ^ 28 + 0x6604 * 2 ^ 12 + jedec.toNat * 2 + 1) / 2 ^ 12 % 2 ^ 16 = 0x6604 := by
  have := jedec.isLt
  omega

/-- Settles O57: I3C by the address and the offset that the device holds, and JTAG by its power and COLD_RST_N. -/
theorem sidebandReachesRegistersAndPins : Obligations.SidebandReachesRegistersAndPins := by
  unfold Obligations.SidebandReachesRegistersAndPins
  intro s a
  refine ⟨⟨fun hgood hnone => ⟨exec_i3cSetdasa_takes hgood hnone, exec_i3cEntdaa_takes hgood hnone⟩,
      fun x hx => exec_i3cSetdasa_other hx, fun hsome x => exec_i3cAddress_kept hsome x⟩,
    fun haddr => ⟨fun data hlen => exec_i3cPrivateWrite_offset haddr hlen, fun data hlen => exec_i3cPrivateWrite_ignored (.inr hlen),
      fun x len hx halign hview => exec_i3cPrivateRead_register haddr hx halign hview len,
      fun len hnone => ⟨_, _, exec_i3cPrivateRead_open haddr hnone len, rfl, ?_⟩⟩,
    fun haddr data len => ⟨exec_i3cPrivateWrite_ignored (.inl haddr), exec_i3cPrivateRead_ignored haddr len⟩,
    fun pins preload => ⟨fun hgood => ⟨?_, ?_, ?_, fun hcold => ?_, fun hcold => ?_⟩, fun hcold => ?_, fun hgood => ?_⟩⟩
  · rw [List.length_take, length_toLE]
  · exact ⟨_, congrArg Host.Outcome.next (if_pos hgood), rfl, rfl, rfl⟩
  · obtain ⟨hone, hpart⟩ := idcode_fields Config.stepping.toNat Config.jedec
    exact ⟨_, _, congrArg Host.Outcome.next (if_pos hgood), rfl, rfl, hone, hpart, rfl⟩
  · exact ⟨_, congrArg Host.Outcome.next (if_pos hgood), rfl, rfl, rfl, rfl, rfl⟩
  · exact ⟨_, (if_pos hcold).trans (congrArg Host.Outcome.next (if_pos hgood)), rfl, rfl, rfl⟩
  · exact ⟨_, (if_pos hcold).trans (congrArg Host.Outcome.next (if_pos hgood)), rfl, rfl, rfl, rfl⟩
  · have hhigh : ¬s.board.coldRstLow = true := Bool.eq_false_iff.mp hcold
    exact ⟨if_neg hhigh, if_neg hhigh⟩
  · have hoff : ¬s.board.standbyGood = true := Bool.eq_false_iff.mp hgood
    exact ⟨congrArg _ (if_neg hoff), congrArg _ (if_neg hoff), congrArg _ (if_neg hoff)⟩

end Sys2Proof.Machine

namespace Sys2Proof.Machine

/-! SPDM (R448 to R450): the fields of a response, and how the device answers. -/

section
variable {code p1 p2 off n : Nat} {content : List Byte}

theorem spdmBytes_eq : spdmBytes code p1 p2 content = toLE 1 0x13 ++ (toLE 1 code ++ (toLE 1 p1 ++ (toLE 1 p2 ++ content))) := by
  simp only [spdmBytes, List.append_assoc]

@[simp] theorem spdmBytes_version : fieldLE (spdmBytes code p1 p2 content) 0 1 = 0x13 := by
  rw [spdmBytes_eq, fieldLE_head]
  rfl

@[simp] theorem spdmBytes_code : fieldLE (spdmBytes code p1 p2 content) 1 1 = code % 256 := by
  rw [spdmBytes_eq, fieldLE_skip (by simp)]
  exact fieldLE_head

@[simp] theorem spdmBytes_p1 : fieldLE (spdmBytes code p1 p2 content) 2 1 = p1 % 256 := by
  rw [spdmBytes_eq, fieldLE_skip (by simp), fieldLE_skip (by simp)]
  exact fieldLE_head

@[simp] theorem spdmBytes_p2 : fieldLE (spdmBytes code p1 p2 content) 3 1 = p2 % 256 := by
  rw [spdmBytes_eq, fieldLE_skip (by simp), fieldLE_skip (by simp), fieldLE_skip (by simp)]
  exact fieldLE_head

@[simp] theorem spdmBytes_length : (spdmBytes code p1 p2 content).length = 4 + content.length := by
  simp only [spdmBytes, List.length_append, length_toLE, Nat.reduceAdd]

theorem spdmBytes_drop (h : 4 ≤ off) : (spdmBytes code p1 p2 content).drop off = content.drop (off - 4) := drop_skip h

theorem spdmBytes_slice (h : 4 ≤ off) : slice (spdmBytes code p1 p2 content) off n = slice content (off - 4) n := slice_skip h

theorem spdmBytes_field (h : 4 ≤ off) : fieldLE (spdmBytes code p1 p2 content) off n = fieldLE content (off - 4) n := fieldLE_skip h

end

/-! O56: each request where SPDM is up. -/

variable {s : State} {n m : Nat} {b : Bool} {nonce : List Byte}

section
variable (hup : s.spdmUp = true)
include hup

theorem State.onSpdm_up (f : State → State) : s.onSpdm f = .next (f s) := congrArg _ (if_pos hup)

theorem exec_getCertificate_portion {offset : Nat} (hoff : offset ≤ rsaChain.length) (len : Nat) :
    exec (.getCertificate 0 offset len) s = .next (s.spdm 0x02 0 0 (toLE 2 (slice rsaChain offset len).length ++
      toLE 2 (rsaChain.length - offset - (slice rsaChain offset len).length) ++ slice rsaChain offset len)) := by
  show execGetCertificate _ _ _ s = _
  rw [execGetCertificate, State.onSpdm_up hup, if_neg (by omega)]

theorem exec_getCertificate_otherSlot (hslot : n ≠ 0) (offset len : Nat) :
    exec (.getCertificate n offset len) s = .next (s.spdmError 1) := by
  show execGetCertificate _ _ _ s = _
  rw [execGetCertificate, State.onSpdm_up hup, if_pos (.inl hslot)]

theorem exec_challenge_otherSlot (hslot : n ≠ 0) : exec (.challenge n nonce) s = .next (s.spdmError 1) := by
  show execChallenge _ _ s = _
  rw [execChallenge, State.onSpdm_up hup, if_pos hslot]

theorem exec_challenge_erased (hkeys : s.fld Fld.keysErased = 1) : exec (.challenge 0 nonce) s = .next (s.spdmError 5) := by
  show execChallenge _ _ s = _
  rw [execChallenge, State.onSpdm_up hup, if_neg (not_not_intro rfl), if_pos hkeys]

theorem exec_challenge_signs (hkeys : s.fld Fld.keysErased ≠ 1) : exec (.challenge 0 nonce) s =
    .next (s.fresh.2.signSpdm 0x03 0 1 (sha384Bytes rsaChain) (toLE 2 0) (toLE 32 s.fresh.1.toNat) nonce) := by
  show execChallenge _ _ s = _
  rw [execChallenge, State.onSpdm_up hup, if_neg (not_not_intro rfl), if_neg hkeys]

theorem exec_getMeasurements_unknown (h7 : 7 < n) (hall : n ≠ 0xFF) :
    exec (.getMeasurements n b nonce) s = .next (s.spdmError 1) := by
  show execGetMeasurements _ _ _ s = _
  rw [execGetMeasurements, State.onSpdm_up hup, if_pos ⟨h7, hall⟩]

theorem exec_getMeasurements_erased (h7 : n ≤ 7) (hkeys : s.fld Fld.keysErased = 1) :
    exec (.getMeasurements n true nonce) s = .next (s.spdmError 5) := by
  show execGetMeasurements _ _ _ s = _
  rw [execGetMeasurements, State.onSpdm_up hup, if_neg (by omega), if_pos ⟨rfl, hkeys⟩]

/-- Index 0 asks for the number of measurements. -/
theorem exec_getMeasurements_count : exec (.getMeasurements 0 false nonce) s =
    .next (s.fresh.2.spdm 0x60 7 0 (toLE 1 0 ++ toLE 3 0 ++ [] ++ toLE 32 s.fresh.1.toNat ++ toLE 2 0)) := by
  show execGetMeasurements _ _ _ s = _
  rw [execGetMeasurements, State.onSpdm_up hup]
  rfl

theorem exec_getMeasurements_one (h1 : 1 ≤ n) (h7 : n ≤ 7) : exec (.getMeasurements n false nonce) s =
    .next (s.fresh.2.spdm 0x60 0 0 (toLE 1 1 ++ toLE 3 (s.measureBlock n).length ++ s.measureBlock n ++
      toLE 32 s.fresh.1.toNat ++ toLE 2 0)) := by
  have hids : (if n = 0 then [] else if n = 0xFF then [1, 2, 3, 4, 5, 6, 7] else [n]) = [n] :=
    (if_neg (by omega)).trans (if_neg (by omega))
  show execGetMeasurements _ _ _ s = _
  rw [execGetMeasurements, State.onSpdm_up hup, if_neg (by omega), if_neg (by simp), hids, if_neg (c := n = 0) (by omega)]
  simp only [List.flatMap_cons, List.flatMap_nil, List.append_nil, List.length_cons, List.length_nil, Bool.false_eq_true, if_false,
    Nat.zero_add]

theorem exec_chunkGet_refused (h : s.sec.chunks = [] ∨ n ≠ s.sec.chunkHandle ∨ m ≠ s.sec.chunkNext) :
    exec (.chunkGet n m) s = .next (s.spdmError 1) := by
  show execChunkGet _ _ s = _
  rw [execChunkGet, State.onSpdm_up hup, if_pos h]

theorem exec_vendorDefinedRequest_unknown (h : ∀ e ∈ s.sec.signed, e.1 ≠ nonce) :
    exec (.vendorDefinedRequest false nonce) s = .next (s.spdmError 1) := by
  have hfind : s.sec.signed.find? (fun e => decide (e.1 = nonce)) = none :=
    List.find?_eq_none.mpr fun e he => by simpa using h e he
  show execVendorDefinedRequest _ _ s = _
  rw [execVendorDefinedRequest, State.onSpdm_up hup, if_neg (by decide), hfind]

end

/-- The chunk that CHUNK_GET takes off a large response of these bytes, and the state as it leaves it. -/
def State.chunk (s : State) : List Byte := s.sec.chunks.take ((s.upTo 0xFFFF).1 + 1)
def State.chunkTaken (s : State) : State :=
  let s1 := (s.upTo 0xFFFF).2
  { s1 with sec := { s1.sec with chunks := s.sec.chunks.drop ((s.upTo 0xFFFF).1 + 1), chunkNext := s.sec.chunkNext + 1 } }

theorem State.chunk_length (s : State) : s.chunk.length < 2 ^ 32 := by
  have hcut : (s.upTo 0xFFFF).1 < 0xFFFF + 1 := Nat.mod_lt _ (by decide)
  have hle : s.chunk.length ≤ (s.upTo 0xFFFF).1 + 1 := List.length_take_le _ _
  omega

theorem State.chunk_ne_nil (h : s.sec.chunks ≠ []) : s.chunk ≠ [] := by
  simp [State.chunk, List.take_eq_nil_iff, h]

theorem exec_chunkGet_next (hup : s.spdmUp = true) (h : s.sec.chunks ≠ []) :
    exec (.chunkGet s.sec.chunkHandle s.sec.chunkNext) s = .next (s.chunkTaken.spdm 0x06 (if s.chunkTaken.sec.chunks = [] then 1 else 0)
      s.sec.chunkHandle (toLE 2 s.sec.chunkNext ++ toLE 2 0 ++ toLE 4 s.chunk.length ++
        (if s.sec.chunkNext = 0 then toLE 4 s.sec.chunks.length else []) ++ s.chunk)) := by
  show execChunkGet _ _ s = _
  rw [execChunkGet, State.onSpdm_up hup, if_neg (by simp [h])]
  rfl

/-- An ERROR is 4 bytes, with its code in the first parameter. -/
theorem spdmError_fields (e : Nat) (he : e < 256) : (spdmBytes 0x7F e 0 []).length = 4 ∧ fieldLE (spdmBytes 0x7F e 0 []) 1 1 = 0x7F ∧
    fieldLE (spdmBytes 0x7F e 0 []) 2 1 = e :=
  ⟨spdmBytes_length, spdmBytes_code, spdmBytes_p1.trans (Nat.mod_eq_of_lt he)⟩

/-- CHALLENGE_AUTH (R449): the chain's digest, then the nonce, and the signature over what was asked and what stands before it. -/
theorem signed_challenge_fields {v w : Nat} :
    let body := spdmBytes 0x03 0 1 (sha384Bytes rsaChain ++ toLE 32 v ++ toLE 2 w)
    let r := body ++ toLE 384 (Config.rsaSign (nonce ++ body)).toNat
    fieldLE r 1 1 = 0x03 ∧ slice r 4 48 = sha384Bytes rsaChain ∧ r.length = 4 + 48 + 32 + 2 + 384 ∧
      r.drop 86 = toLE 384 (Config.rsaSign (nonce ++ r.take 86)).toNat := by
  intro body r
  have hlen : body.length = 86 := by simp [body]
  refine ⟨?_, ?_, ?_, ?_⟩
  · simp [r, body, spdmBytes_eq, fieldLE_skip, fieldLE_head]
  · simp [r, body, spdmBytes_eq, slice_skip, slice_head]
  · simp [r, hlen]
  · rw [List.drop_left' hlen, List.take_left' hlen]

/-- CHUNK_RESPONSE (R449): the chunk's length, and the chunk after the size of the whole, which the first carries. -/
theorem chunk_fields (h : s.sec.chunks ≠ []) {last : Nat} :
    let r := spdmBytes 0x06 last s.sec.chunkHandle (toLE 2 s.sec.chunkNext ++ toLE 2 0 ++ toLE 4 s.chunk.length ++
      (if s.sec.chunkNext = 0 then toLE 4 s.sec.chunks.length else []) ++ s.chunk)
    0 < fieldLE r 8 4 ∧ r.drop (if s.sec.chunkNext = 0 then 16 else 12) = s.sec.chunks.take (fieldLE r 8 4) := by
  intro r
  have hfield : fieldLE r 8 4 = s.chunk.length := by
    simpa [r, spdmBytes_field, fieldLE_skip, fieldLE_head] using s.chunk_length
  have htake : s.sec.chunks.take s.chunk.length = s.chunk := by
    rw [State.chunk, List.length_take, ← List.take_eq_take_min]
  rw [hfield, htake]
  refine ⟨List.length_pos_of_ne_nil (State.chunk_ne_nil h), ?_⟩
  split <;> next hseq => simp [r, hseq, spdmBytes_drop, drop_skip]

/-- Settles O56, request by request: silent before the end of stage 2, and then each answer by its fields. -/
theorem spdmRequestsAreAnswered : Obligations.SpdmRequestsAreAnswered := by
  unfold Obligations.SpdmRequestsAreAnswered
  intro s nonce n m b answers code error
  have herror {c : Instr} {e : Nat} (he : e < 256) (h : exec c s = .next (s.spdmError e)) : answers c (fun r => error r e) :=
    ⟨_, _, h, rfl, spdmError_fields e he, rfl⟩
  refine ⟨fun hdown c hc => ?_, fun hup => ⟨?_, ?_, ?_, ?_, fun off len hoff => ?_,
    fun hslot off len => herror (by decide) (exec_getCertificate_otherSlot hup hslot off len),
    fun hslot => herror (by decide) (exec_challenge_otherSlot hup hslot),
    fun hkeys => herror (by decide) (exec_challenge_erased hup hkeys), fun hkeys => ?_,
    fun h7 hall => herror (by decide) (exec_getMeasurements_unknown hup h7 hall), ?_, fun h1 h7 => ?_,
    fun hkeys h7 => herror (by decide) (exec_getMeasurements_erased hup h7 hkeys),
    fun h => herror (by decide) (exec_chunkGet_refused hup h), fun h => ?_, ?_,
    fun h => herror (by decide) (exec_vendorDefinedRequest_unknown hup h), ?_⟩⟩
  · have hsilent : ¬s.spdmUp = true := Bool.eq_false_iff.mp hdown
    simp only [List.mem_cons, List.not_mem_nil, or_false] at hc
    rcases hc with rfl | rfl | rfl | rfl | rfl | rfl | rfl | rfl | rfl | rfl <;> exact congrArg _ (if_neg hsilent)
  · refine ⟨_, _, congrArg Host.Outcome.next (if_pos hup), rfl, ?_, rfl⟩
    simp [code, fieldLE_skip, fieldLE_head, fieldLE_toLE]
  · refine ⟨_, _, congrArg Host.Outcome.next (if_pos hup), rfl, ?_, rfl⟩
    simp [code, spdmBytes_field, fieldLE_skip, fieldLE_head]
  · have hasym : m &&& 8 < 256 ^ 4 := Nat.and_le_right.trans_lt (by decide)
    have hhash : n &&& 2 < 256 ^ 4 := Nat.and_le_right.trans_lt (by decide)
    refine ⟨_, _, congrArg Host.Outcome.next (if_pos hup), rfl, ?_, rfl⟩
    simpa [code, spdmBytes_field, fieldLE_skip, fieldLE_head] using And.intro hasym hhash
  · refine ⟨_, _, congrArg Host.Outcome.next (if_pos hup), rfl, ⟨spdmBytes_code, ?_⟩, rfl⟩
    rw [spdmBytes_drop (le_refl 4), List.drop_zero]
  · refine ⟨_, _, exec_getCertificate_portion hup hoff len, rfl, ⟨spdmBytes_code, ?_⟩, rfl⟩
    rw [spdmBytes_drop (by decide), List.drop_left' (by simp)]
  · have hheld : s.fld Fld.keysErased ≠ 1 := by omega
    exact ⟨_, _, exec_challenge_signs hup hheld, rfl, signed_challenge_fields, rfl⟩
  · refine ⟨_, _, exec_getMeasurements_count hup, rfl, ⟨spdmBytes_code, spdmBytes_p1, ?_⟩, rfl⟩
    simp [spdmBytes_field, fieldLE_head]
  · refine ⟨_, _, exec_getMeasurements_one hup h1 h7, rfl, ⟨spdmBytes_code, ?_, ?_⟩, rfl⟩
    · simp [spdmBytes_field, fieldLE_head]
    · simp [spdmBytes_slice, slice_skip, slice_head]
  · exact ⟨_, _, exec_chunkGet_next hup h, rfl, ⟨spdmBytes_code, chunk_fields h⟩, rfl⟩
  · refine ⟨_, _, congrArg Host.Outcome.next (if_pos hup), rfl, ⟨spdmBytes_code, spdmBytes_p1, ?_⟩, rfl⟩
    rw [spdmBytes_length, length_toLE]
  · exact ⟨_, _, congrArg Host.Outcome.next (if_pos hup), rfl, ⟨⟨spdmBytes_length, spdmBytes_code, spdmBytes_p1⟩,
      spdmBytes_p2.trans (Nat.mod_mod n 256)⟩, rfl⟩

end Sys2Proof.Machine

namespace Sys2Proof.Machine

/-! O46: the time match of a snapshot that SNAP_TRIGGER has fired before its time. -/

/-- A snapshot is armed for the trusted time 1 (source 0x1), and held already: SNAP_TRIGGER has fired it at time 0. -/
def heldEarly : State := { State.reset with snap := { Snap.zero with arm := some ⟨1, false, 0, 0, 1, 0⟩, held := true } }

/-- The armed time comes, and counts as missed. -/
theorem heldEarly_misses : exec .snapshotTimeMatch heldEarly = .next ((heldEarly.at_ 1).bump Fld.snpMissed 1) := rfl

theorem heldEarly_missed : ((heldEarly.at_ 1).bump Fld.snpMissed 1).fld Fld.snpMissed ≠ heldEarly.fld Fld.snpMissed := by decide

/-- Refutes O46: in `heldEarly` the armed time has yet to come, so SNAPSHOT_TIME_MATCH is no event without occasion: it counts a missed
trigger (R459), as the statement's own words have it. Its clause that a held snapshot leaves the state lacks the premise that the armed
time is not after the trusted time. -/
theorem not_snapshotsLatchOnTheirTrigger : ¬ Obligations.SnapshotsLatchOnTheirTrigger := by
  unfold Obligations.SnapshotsLatchOnTheirTrigger
  intro h
  obtain ⟨-, -, harmed, -⟩ := h heldEarly 0 ⟨2, 0, false, false, false, false, false, 0, 0, 0, 0, 0, 0, 0, 0, []⟩ 0 0
  obtain ⟨-, -, hleaves, -⟩ := harmed _ rfl
  have hsame : (heldEarly.at_ 1).bump Fld.snpMissed 1 = heldEarly :=
    Host.Outcome.next.inj (heldEarly_misses.symm.trans (hleaves (.inr rfl)))
  exact heldEarly_missed (congrArg (fun s : State => s.fld Fld.snpMissed) hsame)

end Sys2Proof.Machine

namespace Sys2Proof.Machine

/-! O49: what an event changes of the host's side, and the end of a long command (R400, R407, R408). -/

variable {s : State}

/-- Of the host's side, a vector changes the pending bits alone. -/
theorem State.signalVector_host (v : Nat) : ∃ p, (s.signalVector v).host = { s.host with msixPending := p } := by
  unfold State.signalVector
  split
  · exact ⟨_, rfl⟩
  · split
    · split <;> exact ⟨_, rfl⟩
    · exact ⟨_, rfl⟩

theorem State.writeEvent_host (e : Event) : ∃ p, (s.writeEvent e).host = { s.host with msixPending := p } := by
  unfold State.writeEvent
  cases e.vector with
  | none => exact ⟨_, rfl⟩
  | some v => exact State.signalVector_host v

/-- Of the host's side, an event placed in the ring changes the pending bits and the held events alone. -/
theorem State.ringEvent_host (e : Event) : ∃ p es, (s.ringEvent e).host = { s.host with msixPending := p, held := es } := by
  unfold State.ringEvent
  split
  · obtain ⟨p, hp⟩ := State.writeEvent_host (s := s) e
    exact ⟨p, _, hp⟩
  · split <;> exact ⟨_, _, rfl⟩

theorem State.postEvent_host_eq (e : Event) : (s.postEvent e).host = (s.ringEvent e).host :=
  ((State.eventDatagram_same _ e (within_self _) (State.same_self _)).host_eq (by decide)).trans
    ((State.eventIbi_same _ e (within_self _) (State.same_self _)).host_eq (by decide))

theorem State.postEvent_host (e : Event) : ∃ p es, (s.postEvent e).host = { s.host with msixPending := p, held := es } := by
  rw [State.postEvent_host_eq]
  exact State.ringEvent_host e

@[simp] theorem State.postEvent_longs (e : Event) : (s.postEvent e).host.longs = s.host.longs := by
  obtain ⟨p, es, h⟩ := State.postEvent_host (s := s) e
  rw [h]

/-- Where the held events leave room, a long command ends with its event. -/
theorem State.endLong_posts (hroom : s.host.held.length < 1024) (l : Long) (status detail : Nat) : s.endLong l status detail =
    (s.onHost (fun h => { h with longs := h.longs.filter (fun x => x ≠ l) })).postEvent (s.doneEvent l status detail) :=
  if_pos (by simp [hroom])

theorem State.endLong_keeps (hshut : s.ringOpen = false) (hfull : 1024 ≤ s.host.held.length) (l : Long) (status detail : Nat) :
    s.endLong l status detail = s.onHost (fun h => { h with
      longs := h.longs.filter (fun x => x ≠ l) ++ [{ l with ended := some (status, detail) }] }) :=
  if_neg (by simp [hshut, hfull])

/-- A ring that can take it takes an event where none is held. -/
theorem State.ringEvent_open (hopen : s.ringOpen = true) (hnone : s.host.held = []) (e : Event) : s.ringEvent e = s.writeEvent e :=
  if_pos (by simp [hopen, hnone])

theorem State.ringEvent_shut (hshut : s.ringOpen = false) (hroom : s.host.held.length < 1024) (e : Event) :
    s.ringEvent e = s.setHeld (s.host.held ++ [e]) :=
  (if_neg (by simp [hshut])).trans (if_pos hroom)

theorem State.writeEvent_tail (e : Event) :
    ((s.writeEvent e).reg Reg.evtTail).toNat = ((s.reg Reg.evtTail).toNat + 1) % 2 ^ 32 := by
  have hnext : ((s.reg Reg.evtTail).toNat + 1) % 2 ^ 32 < 2 ^ 64 := (Nat.mod_lt _ (by decide)).trans (by decide)
  have htail : (s.writeEvent e).reg Reg.evtTail = BitVec.ofNat 64 (((s.reg Reg.evtTail).toNat + 1) % 2 ^ 32) := by
    unfold State.writeEvent
    cases e.vector with
    | none => exact State.reg_setReg_same _ _ _
    | some v => exact (State.reg_congr (State.signalVector_regs v) _).trans (State.reg_setReg_same _ _ _)
  rw [htail, BitVec.toNat_ofNat, Nat.mod_eq_of_lt hnext]

/-- Settles O49: the event of a long command's end, and the ring that takes an event or has it held. -/
theorem longCommandsEndWithTheirEvent : Obligations.LongCommandsEndWithTheirEvent := by
  unfold Obligations.LongCommandsEndWithTheirEvent
  intro s l status detail
  refine ⟨fun hroom => ⟨?_, State.endLong_posts hroom l status detail⟩, fun hshut hfull => State.endLong_keeps hshut hfull l status detail,
    fun hopen hnone _ _ e => ?_, fun hshut hroom e => ?_⟩
  · rw [State.endLong_posts hroom, State.postEvent_longs]
    rfl
  · obtain ⟨p, hp⟩ := State.writeEvent_host (s := s) e
    rw [State.ringEvent_open hopen hnone]
    exact ⟨(congrArg HostIf.held hp).trans hnone, State.writeEvent_tail e⟩
  · rw [State.ringEvent_shut hshut hroom]
    exact ⟨rfl, State.setHeld_reg (by decide) _⟩

end Sys2Proof.Machine

namespace Sys2Proof.Machine

/-! O40: the PCIe link, its resets, its errors and its configuration writes (R387 to R389, R396, R410, R427). -/

variable {s : State}

/-- The lane count of the link (R387), as DEV_LINK codes it for the strapped width. -/
def State.strappedLanes (s : State) : Nat := if s.board.straps.width = 3 then 0 else if s.board.straps.width = 2 then 8 else 4

theorem State.strappedLanes_lt (s : State) : s.strappedLanes < 16 := by
  unfold State.strappedLanes
  split
  · decide
  · split <;> decide

/-- The link with a width and a rate, before what waited for it goes on. -/
def State.linked (s : State) (width rate : Nat) : State :=
  ((s.setFld Fld.linkWidth width).setFld Fld.linkRate rate).onHost (fun h => { h with linkUp := true })

theorem State.linked_fld (width rate : Nat) (f : Fld) :
    (s.linked width rate).fld f = ((s.setFld Fld.linkWidth width).setFld Fld.linkRate rate).fld f := rfl

theorem State.linked_rate (width : Nat) {rate : Nat} (h : rate ≤ 7) : (s.linked width rate).fld Fld.linkRate = rate := by
  have hfits : rate < 2 ^ 4 := by omega
  rw [State.linked_fld, State.fld_setFld_same _ _ _ (by decide) (by decide)]
  exact Nat.mod_eq_of_lt hfits

theorem State.linked_width {width : Nat} (h : width < 16) (rate : Nat) : (s.linked width rate).fld Fld.linkWidth = width := by
  rw [State.linked_fld, State.fld_setFld_other _ _ _ _ (by decide) (by decide) (by decide) (by decide),
    State.fld_setFld_same _ _ _ (by decide) (by decide)]
  exact Nat.mod_eq_of_lt h

theorem exec_pcieLinkUp {rate : Nat} (hrate : 1 ≤ rate) (hperst : s.board.perstLow = false) (hcold : s.heldCold = false)
    (hps : s.fld Fld.pstate < 3) : exec (.pcieLinkUp rate) s = .next (s.linked s.strappedLanes (min rate 7)).flushEvents := by
  refine congrArg Host.Outcome.next (if_neg ?_)
  simp only [hperst, hcold, Bool.false_eq_true, false_or]
  omega

section
variable (hup : s.host.linkUp = true)
include hup

theorem exec_functionLevelReset : exec .functionLevelReset s = .next s.functionReset := congrArg Host.Outcome.next (if_pos hup)

theorem exec_pcieHotReset : exec .pcieHotReset s = .next (s.onHost (fun h => { h with posted := [] })).functionReset :=
  congrArg Host.Outcome.next (if_pos hup)

theorem exec_poisonedTlp (write : Bool) (id req : Nat) :
    exec (.poisonedTlp write id req) s = .next (if write then s.send .aer else (s.send .aer).failHostReq id req) :=
  congrArg Host.Outcome.next (if_neg (by simp [hup]))

theorem exec_pcieConfigurationWrite (c : PcieConfig) : exec (.pcieConfigurationWrite c) s = .next (match c with
    | .busMaster true => (s.onHost (fun h => { h with busMaster := true })).flushEvents
    | .busMaster false => (s.onHost (fun h => { h with busMaster := false })).failHostWindow
    | .powerD3hot d3 => (s.onHost (fun h => { h with d3hot := d3 })).flushEvents
    | .resizeBar2 gib => if gib ∈ [1, 2, 4, 8, 16, 32, 64] then s.onHost (fun h => { h with bar2Gib := gib }) else s
    | .msixEnable on => s.onHost (fun h => { h with msixOn := on })) :=
  congrArg Host.Outcome.next (if_neg (by simp [hup]))

end

/-- Without the link there is no reset of the function. -/
theorem exec_functionReset_linkDown (hdown : s.host.linkUp = false) :
    exec .functionLevelReset s = .next s ∧ exec .pcieHotReset s = .next s := by
  have hnot : ¬s.host.linkUp = true := Bool.eq_false_iff.mp hdown
  exact ⟨congrArg Host.Outcome.next (if_neg hnot), congrArg Host.Outcome.next (if_neg hnot)⟩

/-- A host-window request under way ends with ADDRESS_FAULT. -/
theorem State.failHostReq_ends {id req : Nat} {o : InFlight} {r : Request} (hop : s.op? id = some o)
    (hreq : o.requests.find? (fun r => decide (r.num = req) && (decide (r.path = .hostRead) || decide (r.path = .hostWrite))) = some r) :
    s.failHostReq id req = s.requestDone (o.failed Status.addressFault r.addr) req none := by
  unfold State.failHostReq
  rw [hop]
  simp only [hreq]

/-- Settles O40, event by event: what the link and the function are told while the link is up, and what they are without it. -/
theorem pcieEventsTakeEffect : Obligations.PcieEventsTakeEffect := by
  unfold Obligations.PcieEventsTakeEffect
  intro s
  refine ⟨fun rate hrate hperst hcold hps => ⟨_, exec_pcieLinkUp hrate hperst hcold hps, ?_, ?_, ?_⟩, rfl,
    fun hup => ⟨exec_functionLevelReset hup, exec_pcieHotReset hup,
      fun id req => ⟨exec_poisonedTlp hup true id req, exec_poisonedTlp hup false id req⟩,
      fun b => exec_pcieConfigurationWrite hup (.msixEnable b), fun g hg => ?_, fun g hg => ?_,
      exec_pcieConfigurationWrite hup (.busMaster false)⟩,
    exec_functionReset_linkDown, fun id req o r hop hreq => congrArg Host.Outcome.next (State.failHostReq_ends hop hreq)⟩
  · rw [State.flushEvents_linkUp]
    rfl
  · rw [State.flushEvents_fld (by decide) (by decide) (by decide), State.linked_rate _ (Nat.min_le_right rate 7)]
  · rw [State.flushEvents_fld (by decide) (by decide) (by decide), State.linked_width s.strappedLanes_lt]
    rfl
  · exact (exec_pcieConfigurationWrite hup (.resizeBar2 g)).trans (congrArg Host.Outcome.next (if_pos hg))
  · exact (exec_pcieConfigurationWrite hup (.resizeBar2 g)).trans (congrArg Host.Outcome.next (if_neg hg))

end Sys2Proof.Machine

namespace Sys2Proof.Machine

/-! O22: queries of the network, and datagrams to the remote mailboxes (R403, R417, R451). -/

variable {s : State}

section
variable {q : NetQuery}

theorem exec_arpRequest (hport : q.port < 2) :
    exec (.arpRequest q) s = .next (if s.vlanOk q ∧ s.ownIpv4 q then s.send (.arpReply q) else s) := by
  show execArpRequest q s = _
  simp only [execArpRequest, ifUnit_true (decide_eq_true hport), Bool.and_eq_true]

theorem exec_neighbourDiscovery (hport : q.port < 2) :
    exec (.neighbourDiscovery q) s = .next (if s.vlanOk q ∧ s.ownIpv6 q then s.send (.ndReply q) else s) := by
  show execNeighbourDiscovery q s = _
  simp only [execNeighbourDiscovery, ifUnit_true (decide_eq_true hport), Bool.and_eq_true]

theorem exec_icmpEcho (hport : q.port < 2) :
    exec (.icmpEcho q) s = .next (if s.vlanOk q ∧ (s.ownIpv4 q ∨ s.ownIpv6 q) then s.send (.echoReply q) else s) := by
  show execIcmpEcho q s = _
  simp only [execIcmpEcho, ifUnit_true (decide_eq_true hport), Bool.and_eq_true, Bool.or_eq_true]

theorem State.vlanOk_tagged (htag : bitOf (s.netField q.port 6 2) 12 = true) :
    s.vlanOk q = true ↔ q.vlan = s.netField q.port 6 2 % 4096 := by
  rw [State.vlanOk, if_pos htag, decide_eq_true_iff]

theorem State.vlanOk_untagged (htag : bitOf (s.netField q.port 6 2) 12 = false) : s.vlanOk q = true ↔ q.vlan = 0 := by
  rw [State.vlanOk, if_neg (Bool.eq_false_iff.mp htag), decide_eq_true_iff]

theorem State.ownIpv4_none (haddr : s.netField q.port 8 4 = 0) : s.ownIpv4 q = false := by
  simp [State.ownIpv4, haddr]

end

section
variable {d : Datagram}

/-- The length of a datagram's message, the mailbox it is for, and that mailbox's last response. -/
def remoteLength (d : Datagram) : Nat := 32 + fieldLE d.bytes 8 2
def remoteMailbox (d : Datagram) : Nat := 48 + fieldLE d.bytes 4 1 % 16
def State.keptFor (s : State) (d : Datagram) : List Byte × List Byte := Tab.get ([], []) s.host.remoteKept (remoteMailbox d)

/-- Operator key `i` signs the datagram, with a counter that its mailbox has not taken yet (R451). -/
def State.signs (s : State) (d : Datagram) (i : Nat) : Bool :=
  Config.rsaVerifies (s.operatorKey i) (slice d.bytes (remoteLength d) 8 ++ d.bytes.take (remoteLength d)) (slice d.bytes (remoteLength d + 8) 384) &&
    decide (Tab.get 0 s.host.remoteCount (i * 64 + remoteMailbox d) ≤ fieldLE d.bytes (remoteLength d) 8)

/-- A datagram that is no repetition, by its length and by the key that signs it. -/
def State.takeSigned (s : State) (d : Datagram) : State :=
  if d.bytes.length ≠ remoteLength d + 392 ∨ 4096 < remoteLength d then s.bump Fld.authFail 1
  else
    match (List.range (min 4 (fieldLE s.remoteRecord 1 1))).find? (s.signs d) with
    | some key => s.takeRemote d (remoteMailbox d) key (d.bytes.take (remoteLength d)) (fieldLE d.bytes (remoteLength d) 8)
    | none => s.bump Fld.authFail 1

theorem exec_remoteMailboxDatagram (hport : d.port < 2) : exec (.remoteMailboxDatagram d) s = .next (
    if d.fragment then s.onHost (fun h => { h with ipFragments := h.ipFragments + 1 })
    else if s.fld Fld.remoteMbx ≠ 1 ∨ d.dstPort ≠ 47001 ∨ !s.served then s
    else if d.bytes = (s.keptFor d).1 ∧ (s.keptFor d).1 ≠ [] then s.resendKept d (s.keptFor d).2
    else s.takeSigned d) := by
  show execRemoteMailboxDatagram d s = _
  rw [execRemoteMailboxDatagram, ifUnit_true (decide_eq_true hport)]
  rfl

section
variable (hport : d.port < 2)
include hport

theorem exec_remoteMailboxDatagram_fragment (hfrag : d.fragment = true) :
    exec (.remoteMailboxDatagram d) s = .next (s.onHost (fun h => { h with ipFragments := h.ipFragments + 1 })) := by
  rw [exec_remoteMailboxDatagram hport, if_pos hfrag]

variable (hwhole : d.fragment = false)
include hwhole

theorem exec_remoteMailboxDatagram_ignored (h : s.fld Fld.remoteMbx ≠ 1 ∨ d.dstPort ≠ 47001) :
    exec (.remoteMailboxDatagram d) s = .next s := by
  rw [exec_remoteMailboxDatagram hport, if_neg (Bool.eq_false_iff.mp hwhole), if_pos (h.imp_right .inl)]

variable (hon : s.fld Fld.remoteMbx = 1) (hto : d.dstPort = 47001) (hserved : s.served = true)
include hon hto hserved

theorem exec_remoteMailboxDatagram_served : exec (.remoteMailboxDatagram d) s = .next (
    if d.bytes = (s.keptFor d).1 ∧ (s.keptFor d).1 ≠ [] then s.resendKept d (s.keptFor d).2 else s.takeSigned d) := by
  rw [exec_remoteMailboxDatagram hport, if_neg (Bool.eq_false_iff.mp hwhole), if_neg (by simp [hon, hto, hserved])]

theorem exec_remoteMailboxDatagram_repeated (hsame : d.bytes = (s.keptFor d).1) (hkept : (s.keptFor d).1 ≠ []) :
    exec (.remoteMailboxDatagram d) s = .next (s.resendKept d (s.keptFor d).2) := by
  rw [exec_remoteMailboxDatagram_served hport hwhole hon hto hserved, if_pos ⟨hsame, hkept⟩]

theorem exec_remoteMailboxDatagram_new (hnew : d.bytes ≠ (s.keptFor d).1) :
    exec (.remoteMailboxDatagram d) s = .next (s.takeSigned d) := by
  rw [exec_remoteMailboxDatagram_served hport hwhole hon hto hserved, if_neg fun h => hnew h.1]

end

theorem State.takeSigned_wrongLength (hlen : d.bytes.length ≠ remoteLength d + 392) : s.takeSigned d = s.bump Fld.authFail 1 :=
  if_pos (.inl hlen)

theorem State.signs_iff {i : Nat} : s.signs d i = true ↔
    Config.rsaVerifies (s.operatorKey i) (slice d.bytes (remoteLength d) 8 ++ d.bytes.take (remoteLength d)) (slice d.bytes (remoteLength d + 8) 384) = true ∧
      Tab.get 0 s.host.remoteCount (i * 64 + remoteMailbox d) ≤ fieldLE d.bytes (remoteLength d) 8 := by
  rw [State.signs, Bool.and_eq_true, decide_eq_true_iff]

section
variable (hlen : d.bytes.length = remoteLength d + 392) (hfits : remoteLength d ≤ 4096)
include hlen hfits

theorem State.takeSigned_unsigned (hnone : ∀ i, i < min 4 (fieldLE s.remoteRecord 1 1) → ¬s.signs d i = true) :
    s.takeSigned d = s.bump Fld.authFail 1 := by
  have hfind : (List.range (min 4 (fieldLE s.remoteRecord 1 1))).find? (s.signs d) = none :=
    List.find?_eq_none.mpr fun i hi => hnone i (List.mem_range.mp hi)
  rw [State.takeSigned, if_neg (by omega), hfind]

theorem State.takeSigned_signed {i : Nat} (hi : i < min 4 (fieldLE s.remoteRecord 1 1)) (hsigns : s.signs d i = true)
    (hfirst : ∀ j, j < i → ¬s.signs d j = true) :
    s.takeSigned d = s.takeRemote d (remoteMailbox d) i (d.bytes.take (remoteLength d)) (fieldLE d.bytes (remoteLength d) 8) := by
  have hfind : (List.range (min 4 (fieldLE s.remoteRecord 1 1))).find? (s.signs d) = some i :=
    List.find?_range_eq_some.mpr ⟨hsigns, List.mem_range.mpr hi, fun j hj => by simpa using hfirst j hj⟩
  rw [State.takeSigned, if_neg (by omega), hfind]

end

end

/-- Settles O22: the queries by the port's address and tag, and a datagram by what it is and who signs it. -/
theorem datagramsAreAnsweredOrAuthenticated : Obligations.DatagramsAreAnsweredOrAuthenticated := by
  unfold Obligations.DatagramsAreAnsweredOrAuthenticated
  refine ⟨fun s q hport => ⟨exec_arpRequest hport, exec_neighbourDiscovery hport, exec_icmpEcho hport, State.ownIpv4_none,
    State.vlanOk_tagged, State.vlanOk_untagged⟩, fun s d hport => ?_⟩
  intro n k kept fits
  have hfits (i : Nat) : fits i ↔ s.signs d i = true := State.signs_iff.symm
  refine ⟨fun hfrag => ⟨_, exec_remoteMailboxDatagram_fragment hport hfrag, rfl, rfl⟩,
    fun hwhole h => exec_remoteMailboxDatagram_ignored hport hwhole h,
    fun hwhole hon hto hserved => ?_⟩
  have hnext {t : State} (hnew : d.bytes ≠ kept.1) (ht : s.takeSigned d = t) : exec (.remoteMailboxDatagram d) s = .next t :=
    ht ▸ exec_remoteMailboxDatagram_new hport hwhole hon hto hserved hnew
  refine ⟨exec_remoteMailboxDatagram_repeated hport hwhole hon hto hserved, fun hnew hlen => ?_,
      fun hnew hlen hn hnone => ?_, fun i hnew hlen hn hi hsigns hfirst => ?_⟩
  · exact hnext hnew (State.takeSigned_wrongLength hlen)
  · exact hnext hnew (State.takeSigned_unsigned hlen hn fun i hi => (hfits i).not.mp (hnone i hi))
  · exact hnext hnew (State.takeSigned_signed hlen hn hi ((hfits i).mp hsigns) fun j hj => (hfits j).not.mp (hfirst j hj))

end Sys2Proof.Machine

namespace Sys2Proof.Machine

/-! O41: a message as its page holds it, and the response that a command leaves there (R397, R399 to R401, R404). -/

variable {s t : State} {k : Nat} {m : Msg}

-- messages as bytes

/-- The fields of a message fit their places, and its length is that of its body. -/
def Msg.Fits (m : Msg) : Prop :=
  m.code < 2 ^ 16 ∧ m.status < 2 ^ 16 ∧ m.seq < 2 ^ 32 ∧ m.flags < 2 ^ 16 ∧ m.cap < 2 ^ 32 ∧ m.buf < 2 ^ 64 ∧ m.detail < 2 ^ 64 ∧
    m.len = m.body.length ∧ m.body.length ≤ 4064

theorem Msg.bytes_eq (m : Msg) : m.bytes = toLE 2 m.code ++ (toLE 2 m.status ++ (toLE 4 m.seq ++ (toLE 2 m.len ++ (toLE 2 m.flags ++
    (toLE 4 m.cap ++ (toLE 8 m.buf ++ (toLE 8 m.detail ++ m.body))))))) := by
  simp only [Msg.bytes, List.append_assoc]

theorem Msg.length_bytes (m : Msg) : m.bytes.length = 32 + m.body.length := by
  simp only [Msg.bytes, List.length_append, length_toLE]

theorem Msg.bytes_len (h : m.Fits) : fieldLE m.bytes 8 2 = m.body.length := by
  obtain ⟨-, -, -, -, -, -, -, hlen, hbody⟩ := h
  simp [Msg.bytes_eq, fieldLE_skip, fieldLE_head, hlen]
  omega

theorem Msg.of_bytes (h : m.Fits) : Msg.of m.bytes = m := by
  have hlen := Msg.bytes_len h
  obtain ⟨hcode, hstatus, hseq, hflags, hcap, hbuf, hdetail, heq, hbody⟩ := h
  have hwhole : slice m.bytes 0x20 (min (fieldLE m.bytes 8 2) 4064) = m.body := by
    rw [hlen, Nat.min_eq_left hbody]
    simp [Msg.bytes_eq, slice, drop_skip]
  simp only [Msg.of, hwhole]
  simp only [Msg.bytes_eq, fieldLE_head, fieldLE_skip, length_toLE, Nat.reduceLeDiff, Nat.reduceSub]
  have hlen16 : m.len < 2 ^ 16 := by omega
  simp only [Nat.reducePow] at *
  simp only [Nat.mod_eq_of_lt hlen16, Nat.mod_eq_of_lt hcode, Nat.mod_eq_of_lt hstatus, Nat.mod_eq_of_lt hseq, Nat.mod_eq_of_lt hflags,
    Nat.mod_eq_of_lt hcap, Nat.mod_eq_of_lt hbuf, Nat.mod_eq_of_lt hdetail]

-- messages in pages

theorem State.pageBytes_congr (h : t.host.pages = s.host.pages) (off n : Nat) : t.pageBytes k off n = s.pageBytes k off n := by
  rw [State.pageBytes, State.pageBytes, h]

theorem State.msg_congr (h : t.host.pages = s.host.pages) : t.msg k = s.msg k := by
  simp only [State.msg, State.pageBytes_congr h]

theorem State.pageBytes_setPage_same {bs : List Byte} {off n : Nat} (h : off + n ≤ bs.length) :
    (s.setPage k 0 bs).pageBytes k off n = slice bs off n := by
  have hlen : (slice bs off n).length = n := by simp [slice]; omega
  refine List.ext_getElem (by simp [State.pageBytes, hlen]) fun i hi _ => ?_
  have hin : i < n := by simpa [State.pageBytes] using hi
  have hbyte := State.get_setPage_inside (s := s) (k := k) (off := 0) (i := off + i) (bs := bs) (by omega)
  simp only [State.pageBytes, List.getElem_map, List.getElem_range, slice, List.getElem_take, List.getElem_drop]
  have haddr : k * 4096 + off + i = k * 4096 + 0 + (off + i) := by omega
  rw [haddr, hbyte]

theorem State.pageBytes_setPage_other {bs : List Byte} {j off n : Nat} (hj : j ≠ k) (hbs : bs.length ≤ 4096) (hn : off + n ≤ 4096) :
    (s.setPage k 0 bs).pageBytes j off n = s.pageBytes j off n := by
  unfold State.pageBytes
  refine List.map_congr_left fun i hi => ?_
  have hin : i < n := List.mem_range.mp hi
  have hout : j * 4096 + off + i < k * 4096 + 0 ∨ k * 4096 + 0 + bs.length ≤ j * 4096 + off + i := by omega
  exact State.get_setPage_outside hout

theorem State.msg_setPage_same (h : m.Fits) : (s.setPage k 0 m.bytes).msg k = m := by
  have hlen : m.body.length ≤ 4064 := h.2.2.2.2.2.2.2.2
  have hfield : ofLE ((s.setPage k 0 m.bytes).pageBytes k 8 2) = m.body.length := by
    rw [State.pageBytes_setPage_same (by rw [Msg.length_bytes]; omega)]
    exact Msg.bytes_len h
  have hall : (s.setPage k 0 m.bytes).pageBytes k 0 (32 + m.body.length) = m.bytes := by
    rw [State.pageBytes_setPage_same (by rw [Msg.length_bytes]; omega), ← Msg.length_bytes]
    simp [slice]
  simp only [State.msg, hfield, Nat.min_eq_left hlen, hall, Msg.of_bytes h]

theorem State.msg_setPage_other {bs : List Byte} {j : Nat} (hj : j ≠ k) (hbs : bs.length ≤ 4096) :
    (s.setPage k 0 bs).msg j = s.msg j := by
  simp only [State.msg, State.pageBytes_setPage_other hj hbs (show 8 + 2 ≤ 4096 by decide)]
  rw [State.pageBytes_setPage_other hj hbs (by omega)]

-- responses

/-- The response to a message, of a result that fits its page. -/
def Msg.response (m : Msg) (status detail : Nat) (result : List Byte) : Msg :=
  { m with status := status, len := result.length, flags := m.flags % 2 + 2, cap := result.length, detail := detail, body := result }

/-- The response in its page, the mailbox done and out of the doorbell order. -/
def State.putResponse (s : State) (k : Nat) (r : Msg) : State :=
  ((((s.setPage k 0 r.bytes).setMbx k .done).setBusy k false).setDone k true).onHost (fun h => { h with
    order := h.order.filter (fun j => j ≠ k) })

/-- Two host sides hold the same messages: the pages, the mailboxes' states, the doorbell order and the long commands. -/
structure SameMail (h h' : HostIf) : Prop where
  pages : h.pages = h'.pages
  mbx : h.mbx = h'.mbx
  order : h.order = h'.order
  longs : h.longs = h'.longs

theorem SameMail.refl (h : HostIf) : SameMail h h := ⟨rfl, rfl, rfl, rfl⟩

theorem State.signalVector_mail (v : Nat) : SameMail (s.signalVector v).host s.host := by
  obtain ⟨p, h⟩ := State.signalVector_host (s := s) v
  rw [h]
  exact ⟨rfl, rfl, rfl, rfl⟩

/-- A response to a local mailbox is put into its page, and its vector signalled where it asks for that. -/
theorem State.answer_local (hlocal : s.isRemote k = false) {result : List Byte} (hfits : result.length ≤ 4064) (status detail : Nat) :
    s.answer k m status detail result = if m.flags % 2 = 1 then (s.putResponse k (m.response status detail result)).signalVector k
      else s.putResponse k (m.response status detail result) := by
  have hsmall : ¬4064 < result.length := by omega
  simp only [State.answer, hlocal, hsmall, decide_false, Bool.false_and, Bool.false_eq_true, false_and, if_false, Nat.min_eq_left hfits,
    List.take_of_length_le hfits]
  rfl

theorem State.putResponse_pages (r : Msg) : (s.putResponse k r).host.pages = (s.setPage k 0 r.bytes).host.pages := by
  simp only [State.putResponse, State.onHost_host, State.setDone, State.setBusy, State.setMbx, State.setFld_host]

theorem State.putResponse_mbxState (r : Msg) (j : Nat) : (s.putResponse k r).mbxState j = if j = k then .done else s.mbxState j := by
  have hmbx : (s.putResponse k r).host.mbx = ((s.setPage k 0 r.bytes).setMbx k .done).host.mbx := by
    simp only [State.putResponse, State.onHost_host, State.setDone, State.setBusy, State.setFld_host]
  rw [State.mbxState_congr hmbx, State.mbxState_setMbx]
  rfl

theorem State.putResponse_order (r : Msg) : k ∉ (s.putResponse k r).host.order := by
  simp [State.putResponse, State.onHost_host]

theorem State.putResponse_reg {x : Nat} (hbusy : x ≠ Reg.mbxBusy) (hdone : x ≠ Reg.mbxDone) (r : Msg) :
    (s.putResponse k r).reg x = s.reg x := by
  unfold State.putResponse
  rw [State.reg_congr (State.onHost_regs _ _), State.setDone, State.reg_setFld_other _ _ _ _ hdone, State.setBusy,
    State.reg_setFld_other _ _ _ _ hbusy]
  rfl

theorem State.putResponse_longs (r : Msg) : (s.putResponse k r).host.longs = s.host.longs := by
  simp only [State.putResponse, State.onHost_host, State.setDone, State.setBusy, State.setMbx, State.setFld_host, State.setPage]

theorem Msg.response_fits {status detail : Nat} {result : List Byte} (hcode : m.code < 2 ^ 16) (hseq : m.seq < 2 ^ 32) (hbuf : m.buf < 2 ^ 64)
    (hstatus : status < 2 ^ 16) (hdetail : detail < 2 ^ 64) (hfits : result.length ≤ 4064) : (m.response status detail result).Fits := by
  have hflags : m.flags % 2 + 2 < 2 ^ 16 := by omega
  have hcap : result.length < 2 ^ 32 := by omega
  exact ⟨hcode, hstatus, hseq, hflags, hcap, hbuf, hdetail, rfl, hfits⟩

section
variable {status detail : Nat} {result : List Byte} (hlocal : s.isRemote k = false) (hfits : result.length ≤ 4064)
include hlocal hfits

theorem State.answer_mail : SameMail (s.answer k m status detail result).host (s.putResponse k (m.response status detail result)).host := by
  rw [State.answer_local hlocal hfits]
  split
  · exact State.signalVector_mail k
  · exact SameMail.refl _

theorem State.answer_regs : (s.answer k m status detail result).regs = (s.putResponse k (m.response status detail result)).regs := by
  rw [State.answer_local hlocal hfits]
  split
  · exact State.signalVector_regs k
  · rfl

theorem State.answer_msg (j : Nat) : (s.answer k m status detail result).msg j =
    (s.setPage k 0 (m.response status detail result).bytes).msg j := by
  have hpages := (State.answer_mail (m := m) (status := status) (detail := detail) hlocal hfits).pages
  exact State.msg_congr (hpages.trans (State.putResponse_pages _))

theorem State.answer_mbxState (j : Nat) : (s.answer k m status detail result).mbxState j = if j = k then .done else s.mbxState j := by
  rw [State.mbxState_congr (State.answer_mail hlocal hfits).mbx, State.putResponse_mbxState]

theorem State.answer_order : k ∉ (s.answer k m status detail result).host.order := by
  rw [(State.answer_mail hlocal hfits).order]
  exact State.putResponse_order _

theorem State.answer_longs : (s.answer k m status detail result).host.longs = s.host.longs := by
  rw [(State.answer_mail hlocal hfits).longs, State.putResponse_longs]

theorem State.answer_reg {x : Nat} (hbusy : x ≠ Reg.mbxBusy) (hdone : x ≠ Reg.mbxDone) :
    (s.answer k m status detail result).reg x = s.reg x := by
  rw [State.reg_congr (State.answer_regs hlocal hfits), State.putResponse_reg hbusy hdone]

end

/-- Outside the host's side, the registers and what is sent, a response changes nothing. -/
theorem State.answer_frame (status detail : Nat) (result : List Byte) : s.answer k m status detail result = { s with
    host := (s.answer k m status detail result).host, regs := (s.answer k m status detail result).regs,
    sent := (s.answer k m status detail result).sent } := by
  have h := State.answer_same s k m status detail result (within_self _) s.same_self
  generalize s.answer k m status detail result = t at h
  cases t
  simp only [State.mk.injEq, true_and, and_true]
  exact ⟨h.pending_eq (by decide), h.mem_eq (by decide), h.tags_eq (by decide), h.job_eq (by decide), h.cores_eq (by decide),
    h.tick_eq (by decide), h.time_eq (by decide), h.streams_eq (by decide), h.changes_eq (by decide), h.slow_eq (by decide),
    h.ownSlow_eq (by decide), h.qdefs_eq (by decide), h.queues_eq (by decide), h.slots_eq (by decide), h.memory_eq (by decide),
    h.ckpt_eq (by decide), h.fabric_eq (by decide), h.power_eq (by decide), h.mram_eq (by decide), h.sec_eq (by decide),
    h.snap_eq (by decide), h.board_eq (by decide), h.tests_eq (by decide), h.freeCount_eq (by decide)⟩

-- the checks of a command

/-- Mailbox `k` holds a posted message, and is first in doorbell order. -/
def State.first (s : State) (k : Nat) : Prop := s.host.order.head? = some k ∧ s.mbxState k = .posted

section
variable {code : Nat} {want : Msg → Nat} {bad : State → Msg → Option Nat} {f : State → Msg → State}

theorem State.command_notFirst (h : ¬s.first k) : s.command k code want bad f = s := if_pos (.inr (not_and_or.mp h))

variable (hserved : s.served = true) (hfirst : s.first k)
include hserved hfirst

theorem State.first_executes : ¬((!s.served) = true ∨ s.host.order.head? ≠ some k ∨ s.mbxState k ≠ .posted) := by
  obtain ⟨horder, hposted⟩ := hfirst
  simp [hserved, horder, hposted]

theorem State.command_otherCode (h : (s.msg k).code ≠ code) : s.command k code want bad f = s :=
  (if_neg (State.first_executes hserved hfirst)).trans (if_pos h)

variable (hcode : (s.msg k).code = code)
include hcode

theorem State.command_refused (h : s.bootRefuses code = true) : s.command k code want bad f = s.wrongState k (s.msg k) := by
  simp only [State.command, if_neg (State.first_executes hserved hfirst), hcode, h, if_true, ne_eq, not_true_eq_false, if_false]

variable (hready : s.bootRefuses code = false)
include hready

theorem State.command_badLength (h : (s.msg k).len ≠ want (s.msg k)) :
    s.command k code want bad f = s.reject k (s.msg k) Status.badLength (want (s.msg k)) := by
  simp only [State.command, if_neg (State.first_executes hserved hfirst), hcode, hready, if_pos h, ne_eq, not_true_eq_false, if_false,
    Bool.false_eq_true]

/-- A fault in the header has no offset in the body: the detail is open. -/
theorem State.command_badHeader (hlen : (s.msg k).len = want (s.msg k)) (h : s.headerOk k (s.msg k) = false) :
    s.command k code want bad f = s.fresh.2.badField k (s.msg k) (s.fresh.1.toNat % 2 ^ 64) := by
  simp only [State.command, if_neg (State.first_executes hserved hfirst), hcode, hready, hlen, h, ne_eq, not_true_eq_false, if_false,
    Bool.false_eq_true, Bool.not_false, if_true]

end

theorem exec_unknownCommand (hk : k < 64) (hserved : s.served = true) (hfirst : s.first k) (hcode : (s.msg k).code ∉ commandCodes) :
    exec (.unknownCommand k) s = .next (s.reject k (s.msg k) Status.unknownCommand 0) := by
  obtain ⟨horder, hposted⟩ := hfirst
  have hunknown : s.served ∧ s.host.order.head? = some k ∧ s.mbxState k = .posted ∧ !((s.msg k).code ∈ commandCodes) :=
    ⟨hserved, horder, hposted, by simpa using hcode⟩
  have hok : mbxOk k = true := decide_eq_true hk
  show ifUnit (mbxOk k) _ = _
  rw [ifUnit_true hok, if_pos hunknown]

/-- Settles O41: the checks of a command in their order, whatever the command, and the response by its page, its mailbox and its registers. -/
theorem commandsAreCheckedThenAnswered : Obligations.CommandsAreCheckedThenAnswered := by
  unfold Obligations.CommandsAreCheckedThenAnswered
  refine ⟨fun s k hk hserved => ?_, fun s k m status detail result hk hlocal hcode hseq hbuf hstatus hdetail hfits => ?_⟩
  · intro m first alike
    have hok : mbxOk k = true := decide_eq_true hk
    have hchecks {c : Instr} {code n : Nat} {bad : State → Msg → Option Nat} {f : State → Msg → State}
        (hexec : exec c s = ifUnit (mbxOk k) (s.command k code (fun _ => n) bad f)) : alike c code n := by
      rw [ifUnit_true hok] at hexec
      refine ⟨fun h => ?_, fun hfirst h => ?_, fun hfirst hcode hready hlen => ?_, fun hfirst hcode hready hlen h =>
        ⟨_, s.fresh.1.toNat % 2 ^ 64, ?_, rfl⟩⟩
      · rw [hexec, State.command_notFirst h]
      · rw [hexec, State.command_otherCode hserved hfirst h]
      · rw [hexec, State.command_badLength hserved hfirst hcode hready hlen]
        rfl
      · rw [hexec, State.command_badHeader hserved hfirst hcode hready hlen h]
        rfl
    refine ⟨hchecks rfl, hchecks rfl, hchecks rfl, hchecks rfl, hchecks rfl, hchecks rfl, hchecks rfl, hchecks rfl, hchecks rfl,
      fun hfirst hcode hboot => ?_, fun hfirst hcode => exec_unknownCommand hk hserved hfirst hcode⟩
    have hrefuses : s.bootRefuses 0x303 = true := by simp [State.bootRefuses, hboot]
    show ifUnit (mbxOk k) _ = _
    rw [ifUnit_true hok, State.command_refused hserved hfirst hcode hrefuses]
    rfl
  · have hr : (m.response status detail result).Fits := Msg.response_fits hcode hseq hbuf hstatus hdetail hfits
    have hpage : (m.response status detail result).bytes.length ≤ 4096 := by
      rw [Msg.length_bytes]
      exact Nat.add_le_add_left hfits 32
    exact ⟨(State.answer_msg hlocal hfits k).trans (State.msg_setPage_same hr),
      (State.answer_mbxState hlocal hfits k).trans (if_pos rfl), State.answer_order hlocal hfits,
      fun j hj => (State.answer_mbxState hlocal hfits j).trans (if_neg hj), State.answer_frame _ _ _,
      State.answer_longs hlocal hfits, fun x hbusy hdone => State.answer_reg hlocal hfits hbusy hdone,
      fun j _ hj => (State.answer_msg hlocal hfits j).trans (State.msg_setPage_other hj hpage)⟩

end Sys2Proof.Machine

namespace Sys2Proof.Machine

/-! What a change of power, a new nonce and a reset leave of the registers (R180, R422, R430, R433, R453). -/

variable {s : State} {k : Nat}

theorem State.reg_foldl_mem {α : Type} {f : State → α → State} (l : List α) (hf : ∀ t, ∀ a ∈ l, (f t a).reg k = t.reg k) (s : State) :
    (l.foldl f s).reg k = s.reg k :=
  List.foldlRecOn (motive := fun t => t.reg k = s.reg k) l f rfl fun t ht a ha => (hf t a ha).trans ht

-- a change of power

/-- A register outside the sequencers' and the power manager's. -/
structure Reg.Steady (k : Nat) : Prop where
  seq : k < 0x100000 ∨ 0x2C0000 ≤ k
  waited : k < 0x400000000
  power : k < 0x90000 ∨ 0x90040 ≤ k

/-- A steady register that neither traffic nor events move. -/
structure Reg.Calm (k : Nat) : Prop extends Reg.Steady k where
  still : Reg.Still k

/-- A port's flit count lies 8 bytes into its page. -/
theorem Reg.portTx_mod (p : Nat) : Reg.portTx p % 0x100 = 8 := by
  simp only [Reg.portTx, Reg.portPage]
  omega

theorem Reg.still_of_mod (hk : k % 0x100 ≠ 8) (hlow : k < 0xC0008 ∨ 0xC0020 ≤ k) (hring : k < Reg.evtTail ∨ Reg.evtHeld < k) : Reg.Still k where
  port p hp := hk (by rw [hp, Reg.portTx_mod])
  logged hp := by rw [hp, Reg.faultLogged] at hlow; omega
  absorbed hp := by rw [hp, Reg.faultAbsorbed] at hlow; omega
  tail hp := by rw [hp] at hring; exact absurd hring (by decide)
  held hp := by rw [hp] at hring; exact absurd hring (by decide)
  lost hp := by rw [hp] at hring; exact absurd hring (by decide)

theorem Reg.calm_of_lt (hk : k < 0x70000) : Reg.Calm k := ⟨⟨by omega, by omega, by omega⟩, Reg.still_of_lt hk⟩

theorem Reg.calm_devState : Reg.Calm Reg.devState := ⟨⟨by decide, by decide, by decide⟩, Reg.still_devState⟩
theorem Reg.calm_boot : Reg.Calm Reg.boot := ⟨⟨by decide, by decide, by decide⟩, Reg.still_of_mod (by decide) (by decide) (by decide)⟩
theorem Reg.calm_boardStatus : Reg.Calm Reg.boardStatus := ⟨⟨by decide, by decide, by decide⟩, Reg.still_of_mod (by decide) (by decide) (by decide)⟩
theorem Reg.calm_fabDevId : Reg.Calm Reg.fabDevId := ⟨⟨by decide, by decide, by decide⟩, Reg.still_of_mod (by decide) (by decide) (by decide)⟩
theorem Reg.calm_secStatus : Reg.Calm Reg.secStatus := ⟨⟨by decide, by decide, by decide⟩, Reg.still_of_mod (by decide) (by decide) (by decide)⟩

theorem State.waitCounter_le {l j : Nat} (h : s.waitCounter l = some j) : j ≤ 15 := by
  unfold State.waitCounter at h
  split at h
  · exact absurd h (by simp)
  · split at h <;> simp_all <;> omega

theorem Reg.seqCounter_bounds {l j : Nat} (hl : l < 384) (hj : j ≤ 15) : 0x100000 ≤ Reg.seqCounter l j ∧ Reg.seqCounter l j < 0x2C0000 := by
  simp only [Reg.seqCounter, Reg.seqPage]
  split <;> omega

theorem State.countWait_reg (hk : Reg.Steady k) {l : Nat} (hl : l < 384) : (s.countWait l).reg k = s.reg k := by
  unfold State.countWait
  split
  next j hj =>
    have hcounter : k ≠ Reg.seqCounter l j := by
      have hbounds := Reg.seqCounter_bounds hl (State.waitCounter_le hj)
      have hseq := hk.seq
      omega
    have hwaited : k ≠ Reg.waited l := by
      have hlow := hk.waited
      simp only [Reg.waited]
      omega
    rw [State.reg_setReg_other _ _ hwaited, State.bump64_reg hcounter]
  · rfl

theorem State.settleWaits_reg (hk : Reg.Steady k) : s.settleWaits.reg k = s.reg k :=
  State.reg_foldl_mem _ (fun _ _ hl => State.countWait_reg hk (List.mem_range.mp hl)) s

theorem State.endSlow_reg (hk : Reg.Still k) (cause unit : Nat) : (s.endSlow cause unit).reg k = s.reg k := by
  unfold State.endSlow
  split
  · exact State.sendSlow_reg hk _ _
  · rfl

section
variable (hk : Reg.Steady k)
include hk

theorem State.setFld_power_reg {f : Fld} (hf : 0x90000 ≤ f.key ∧ f.key < 0x90040) (v : Nat) : (s.setFld f v).reg k = s.reg k := by
  have hpower := hk.power
  exact State.reg_setFld_other _ _ _ _ (by omega)

theorem State.countIntervene_reg : s.countIntervene.reg k = s.reg k := by
  unfold State.countIntervene
  split
  next t _ =>
    have hother : k ≠ Reg.pwrIntervene := by
      have hpower := hk.power
      simp only [Reg.pwrIntervene]
      omega
    rw [State.reg_congr (State.onPower_regs _ _), State.bump64_reg hother]
  · rfl

end

/-- The parts of a change of power: what sequencers have waited and what interventions have lasted counted, the clocks and the other
limits shown, and the intervention with its notices. -/
def State.waitsCounted (s : State) : State :=
  (if (List.range 4).any (fun d => decide (s.fld (Fld.clkMult d) ≠ s.dieClock d)) then s.settleWaits else s).countIntervene

def State.clocksShown (s : State) : State :=
  (List.range 4).foldl (fun s d => (s.setFld (Fld.clkMult d) (s.dieClock d)).setFld (Fld.clkReason d) (s.clockReason d)) s

def State.limitsShown (s : State) : State :=
  let s2 := ((s.setFld Fld.duty ((List.range 4).foldl (fun m d => min m (s.dieDuty d)) 16)).setFld Fld.bwCap s.power.bandwidth).setFld Fld.brake
    (if s.braking then 1 else 0)
  s2.setFld Fld.fastLimit (if s2.power.fastSince.isSome then 1 else 0)

def State.intervened (s : State) : State :=
  ((s.setFld Fld.intervening 1).onPower (fun p => { p with since := some s.now })).excursion 1

def State.interventionShown (s : State) : State :=
  if s.intervenes then
    if s.intervened.ownSlow.any (fun o => o.cause = 1 && o.factor = s.intervened.powerFactor) then s.intervened
    else s.intervened.beginSlow 1 0 s.intervened.powerFactor
  else ((s.setFld Fld.intervening 0).onPower (fun p => { p with since := none })).endSlow 1 0

theorem State.refreshPower_eq : s.refreshPower = s.waitsCounted.clocksShown.limitsShown.interventionShown := rfl

section
variable (hk : Reg.Steady k)
include hk

theorem State.waitsCounted_reg : s.waitsCounted.reg k = s.reg k := by
  unfold State.waitsCounted
  rw [State.countIntervene_reg hk]
  split
  · exact State.settleWaits_reg hk
  · rfl

theorem State.clocksShown_reg : s.clocksShown.reg k = s.reg k := by
  refine State.reg_foldl_mem _ (fun t d hd => ?_) s
  have hdie : 0x90000 ≤ Reg.pwrClk d ∧ Reg.pwrClk d < 0x90040 := by
    have := List.mem_range.mp hd
    simp only [Reg.pwrClk]
    omega
  rw [State.setFld_power_reg hk hdie, State.setFld_power_reg hk hdie]

theorem State.limitsShown_reg : s.limitsShown.reg k = s.reg k := by
  unfold State.limitsShown
  rw [State.setFld_power_reg hk (by decide), State.setFld_power_reg hk (by decide), State.setFld_power_reg hk (by decide),
    State.setFld_power_reg hk (by decide)]

theorem State.intervened_reg : s.intervened.reg k = s.reg k := by
  unfold State.intervened
  rw [State.excursion_reg, State.reg_congr (State.onPower_regs _ _), State.setFld_power_reg hk (by decide)]

end

section
variable (hk : Reg.Calm k)
include hk

theorem State.interventionShown_reg : s.interventionShown.reg k = s.reg k := by
  unfold State.interventionShown
  split
  · split
    · exact State.intervened_reg hk.toSteady
    · rw [State.beginSlow, State.startSlow_reg hk.still, State.intervened_reg hk.toSteady]
  · rw [State.endSlow_reg hk.still, State.reg_congr (State.onPower_regs _ _), State.setFld_power_reg hk.toSteady (by decide)]

theorem State.refreshPower_reg : s.refreshPower.reg k = s.reg k := by
  rw [State.refreshPower_eq, State.interventionShown_reg hk, State.limitsShown_reg hk.toSteady, State.clocksShown_reg hk.toSteady,
    State.waitsCounted_reg hk.toSteady]

end

theorem State.refreshPower_fld {f : Fld} (hf : Reg.Calm f.key) : s.refreshPower.fld f = s.fld f := State.fld_congr (State.refreshPower_reg hf)

-- the nonce

theorem State.drawNonce_reg (hk : ∀ i < 8, k ≠ Reg.nonce i) : s.drawNonce.reg k = s.reg k :=
  State.reg_foldl_mem _ (fun _ i hi => State.reg_setReg_other _ _ (hk i (List.mem_range.mp hi))) s.fresh.2

/-- The nonce's registers lie from 0xA0020 to 0xA0040. -/
theorem Reg.ne_nonce (hk : k < 0xA0020 ∨ 0xA0040 ≤ k) : ∀ i < 8, k ≠ Reg.nonce i := by
  intro i hi
  simp only [Reg.nonce]
  omega

-- a reset

theorem Tab.find?_filter_key {α : Type} (keep : Nat → Bool) (t : Tab α) (k : Nat) :
    Tab.find? (t.filter (fun e => keep e.1)) k = if keep k then Tab.find? t k else none := by
  induction t with
  | nil => simp [Tab.find?]
  | cons e r ih =>
    obtain ⟨a, v⟩ := e
    by_cases hak : a = k
    · subst hak
      by_cases hkeep : keep a = true <;> simp_all [Tab.find?]
    · by_cases hkeep : keep a = true <;> simp [hkeep, Tab.find?, hak, ih]

/-- After a reset a register that it keeps reads what it read, and another its reset value. -/
theorem State.restart_reg (keep : Nat → Bool) (memory : Memory) (hnonce : k < 0xA0020 ∨ 0xA0040 ≤ k) (halert : k ≠ Reg.boardStatus)
    (hlead : k ≠ Reg.fabDevId) : (s.restart keep memory).reg k = if keep k then s.reg k else Reg.resetValue k := by
  unfold State.restart
  rw [State.drawNonce_reg (Reg.ne_nonce hnonce), State.reg_setFld_other _ _ _ _ hlead, State.reg_setFld_other _ _ _ _ halert]
  unfold State.reg
  rw [Tab.find?_filter_key]
  split <;> rfl

theorem State.coldReset_reg (hnonce : k < 0xA0020 ∨ 0xA0040 ≤ k) (halert : k ≠ Reg.boardStatus) (hlead : k ≠ Reg.fabDevId) :
    s.coldReset.reg k = if Reg.keptCold k then s.reg k else Reg.resetValue k := by
  unfold State.coldReset
  rw [State.reg_congr (State.onBoard_regs _ _), State.restart_reg _ _ hnonce halert hlead]

/-- The counts of retired cores and failed engines are set again after a warm reset. -/
theorem State.warmReset_reg (hnonce : k < 0xA0020 ∨ 0xA0040 ≤ k) (halert : k ≠ Reg.boardStatus) (hlead : k ≠ Reg.fabDevId)
    (hcores : k < 0x10400 ∨ 0x10410 ≤ k) (hmarrow : k < 0x50400 ∨ 0x50430 ≤ k) :
    s.warmReset.reg k = if Reg.keptWarm k then s.endPageTests.reg k else Reg.resetValue k := by
  unfold State.warmReset
  rw [State.reg_foldl_mem, State.reg_foldl_mem]
  · rw [State.reg_congr (State.onBoard_regs _ _), State.restart_reg _ _ hnonce halert hlead]
  · intro t d hd
    have hd4 : d < 4 := List.mem_range.mp hd
    exact State.reg_setFld_other _ _ _ _ (by simp only [Fld.dieRetired, Reg.dieCore]; omega)
  · intro t d hd
    have hd12 : d < 12 := List.mem_range.mp hd
    exact State.reg_setFld_other _ _ _ _ (by simp only [Fld.mrwFailed, Reg.mrwDie]; omega)

/-- The beginning of a boot changes the boot register alone of those that a change of power leaves. -/
theorem State.beginBoot_reg (hk : Reg.Calm k) (hboot : k ≠ Reg.boot) : s.beginBoot.reg k = s.reg k := by
  unfold State.beginBoot
  rw [State.refreshPower_reg hk, State.reg_setFld_other _ _ _ _ hboot, State.reg_setFld_other _ _ _ _ hboot]

theorem State.beginBoot_stage : s.beginBoot.fld Fld.bootStage = 1 := by
  unfold State.beginBoot
  rw [State.refreshPower_fld Reg.calm_boot, State.fld_setFld_other _ _ _ _ (by decide) (by decide) (by decide) (by decide),
    State.fld_setFld_same _ _ _ (by decide) (by decide)]
  rfl

theorem State.beginBoot_warm : s.beginBoot.fld Fld.warm = if s.board.warmBoot then 1 else 0 := by
  unfold State.beginBoot
  rw [State.refreshPower_fld Reg.calm_boot, State.fld_setFld_same _ _ _ (by decide) (by decide)]
  show (if s.board.warmBoot then 1 else 0) % 2 = _
  split <;> rfl

/-- A reset leaves no debug level. -/
theorem State.fld_debug_of_reset {t : State} (h : t.reg Reg.devState = Reg.resetValue Reg.devState) : t.fld Fld.debug = 0 := by
  have hbits : t.fld Fld.debug = getBits (t.reg Reg.devState) 24 23 := rfl
  rw [hbits, h]
  decide

theorem State.warmReset_debug : s.warmReset.fld Fld.debug = 0 := by
  refine State.fld_debug_of_reset ?_
  rw [State.warmReset_reg (by decide) (by decide) (by decide) (by decide) (by decide), if_neg (by decide)]

theorem State.warmReboot_debug : s.warmReboot.fld Fld.debug = 0 := by
  unfold State.warmReboot
  rw [State.fld_congr (State.beginBoot_reg Reg.calm_devState (by decide)), State.warmReset_debug]

end Sys2Proof.Machine

namespace Sys2Proof.Machine

/-! O47: the debug level (R452 to R456). -/

variable {s : State} {k level : Nat} {m : Msg}

-- the level, and what unlocking and locking change

theorem State.setDebug_debug (h : level ≤ 3) : (s.setDebug level).fld Fld.debug = level := by
  have hlevel : ((s.setFld Fld.debug level).setFld Fld.secDebug level).fld Fld.debug = level := by
    rw [State.setFld_fld _ (by decide), State.fld_setFld_same _ _ _ (by decide) (by decide)]
    exact Nat.mod_eq_of_lt (by show level < 4; omega)
  unfold State.setDebug
  split
  · rw [State.fld_congr (State.reg_setReg_other _ _ (by decide)), hlevel]
  · exact hlevel

theorem State.setDebug_expiry (h : level < 2) : (s.setDebug level).reg Reg.d2Expiry = 0 := by
  unfold State.setDebug
  rw [if_pos h, State.reg_setReg_same]

theorem State.drawNonce_fld {f : Fld} (hf : f.key < 0xA0020 ∨ 0xA0040 ≤ f.key) : s.drawNonce.fld f = s.fld f :=
  State.fld_congr (State.drawNonce_reg (Reg.ne_nonce hf))

/-- An unlock never lowers the level. -/
theorem State.unlocked_debug (h : level ≤ 3) : (s.unlocked level).fld Fld.debug = max level (s.fld Fld.debug) := by
  unfold State.unlocked
  rw [State.drawNonce_fld (by decide)]
  split
  next hlow => rw [State.setDebug_debug h]; exact (Nat.max_eq_left (Nat.le_of_lt hlow)).symm
  next hhigh => exact (Nat.max_eq_right (Nat.not_lt.mp hhigh)).symm

theorem State.unlocked_fails : (s.unlocked level).sec.fails = 0 := by
  have hnonce (t : State) : t.drawNonce.sec = t.sec := (State.drawNonce_same t (within_self _) t.same_self).sec_eq (by decide)
  have hdebug (t : State) : (t.setDebug level).sec = t.sec := (State.setDebug_same t level (within_self _) t.same_self).sec_eq (by decide)
  unfold State.unlocked
  rw [hnonce]
  split
  · rw [hdebug]
  · rfl

theorem State.unlocked_job : (s.unlocked level).job = s.job :=
  (State.unlocked_same s level (within_self _) s.same_self).job_eq (by decide)

theorem State.unlocked_mem : (s.unlocked level).mem = s.mem :=
  (State.unlocked_same s level (within_self _) s.same_self).mem_eq (by decide)

/-- Where the level is reached already, an unlock changes no register but the nonce's. -/
theorem State.unlocked_reg {x : Nat} (hnonce : x < 0xA0020 ∨ 0xA0040 ≤ x) (h : level ≤ s.fld Fld.debug) :
    (s.unlocked level).reg x = s.reg x := by
  unfold State.unlocked
  rw [State.drawNonce_reg (Reg.ne_nonce hnonce)]
  split
  next hlow => exact absurd hlow (Nat.not_lt.mpr h)
  · rfl

-- D3

theorem State.enterD3_debug : s.enterD3.fld Fld.debug = 3 := by
  unfold State.enterD3
  exact State.setDebug_debug (le_refl 3)

/-- The security page shows what an entry to D3 sets. -/
theorem State.enterD3_secStatus {f : Fld} (hkey : f.key = Reg.secStatus) (hlo : f.lo ≤ f.hi) (hoff : f.hi < 27 ∨ 28 < f.lo) : s.enterD3.fld f =
    ((s.dropJob.scrubDevice.clearJobRegs.setFld Fld.keysErased 1).setFld Fld.sstate 4).fld f := by
  unfold State.enterD3 State.setDebug
  rw [if_neg (by decide), State.fld_setFld_other _ _ _ _ (by decide) (by decide) hlo (.inr hoff), State.setFld_fld _ (by rw [hkey]; decide)]

theorem State.enterD3_sstate : s.enterD3.fld Fld.sstate = 4 := by
  rw [State.enterD3_secStatus rfl (by decide) (by decide), State.fld_setFld_same _ _ _ (by decide) (by decide)]
  rfl

theorem State.enterD3_keysErased : s.enterD3.fld Fld.keysErased = 1 := by
  rw [State.enterD3_secStatus rfl (by decide) (by decide), State.fld_setFld_other _ _ _ _ (by decide) (by decide) (by decide) (by decide),
    State.fld_setFld_same _ _ _ (by decide) (by decide)]
  rfl

theorem State.dropJob_job : s.dropJob.job = none := by
  unfold State.dropJob
  exact List.foldlRecOn (motive := fun t : State => t.job = none) _ _ rfl fun _ h _ _ => h

theorem State.enterD3_job : s.enterD3.job = none := by
  have hregs (t : State) : t.clearJobRegs.job = t.job := (State.clearJobRegs_same t (within_self _) t.same_self).job_eq (by decide)
  have hscrub (t : State) : t.scrubDevice.job = t.job := (State.scrubDevice_same t (within_self _) t.same_self).job_eq (by decide)
  have hdebug (t : State) : (t.setDebug 3).job = t.job := (State.setDebug_same t 3 (within_self _) t.same_self).job_eq (by decide)
  unfold State.enterD3
  rw [hdebug, State.setFld_job, State.setFld_job, hregs, hscrub, State.dropJob_job]

-- DEBUG_UNLOCK

/-- The bytes of a credential in host memory are read from there. -/
def State.readCred (s : State) (m : Msg) : State := s.send (.hostRead (m.get 8 8) (m.get 16 8))

/-- A DEBUG_UNLOCK with a body of nothing to object to: level 1 takes no credential, the others one from host memory. -/
structure State.UnlockAsked (s : State) (k : Nat) : Prop where
  takes : s.takes k 0x505 32 = true
  low : 1 ≤ (s.msg k).get 0 1
  high : (s.msg k).get 0 1 ≤ 3
  zero2 : nonZero (s.msg k) 2 2 = false
  zero24 : nonZero (s.msg k) 24 8 = false
  noSource : (s.msg k).get 0 1 = 1 → (s.msg k).get 1 1 = 2
  fromHost : (s.msg k).get 0 1 ≠ 1 → (s.msg k).get 1 1 = 0

theorem unlockBody_firstBad {source : Nat} {rest2 rest24 : Bool} (hlow : 1 ≤ level) (hhigh : level ≤ 3) (h2 : rest2 = false)
    (h24 : rest24 = false) (hnone : level = 1 → source = 2) (hhost : level ≠ 1 → source = 0) :
    firstBad [(decide (level = 0 ∨ 3 < level), 0), (decide (2 < source ∨ (level = 1 ∧ source ≠ 2)), 1), (rest2, 2), (rest24, 24)] = none := by
  simp only [firstBad_cons, h2, h24, decide_eq_false_iff_not, true_and]
  exact ⟨by omega, by omega, rfl⟩

section
variable {ext : List Byte} (hask : s.UnlockAsked k)
include hask

theorem exec_debugUnlock_denied (h : s.sec.lockout.isSome = true ∨ s.mayUnlock ((s.msg k).get 0 1) = false) :
    exec (.debugUnlock k ext) s = .next (s.denied k (s.msg k) ((s.msg k).get 0 1)) := by
  refine (ifUnit_command hask.takes rfl ?fields).trans (congrArg Host.Outcome.next ?unlocks)
  case fields => exact unlockBody_firstBad hask.low hask.high hask.zero2 hask.zero24 hask.noSource hask.fromHost
  rcases h with h | h
  · simp only [h, if_true]
  · simp only [h, Bool.not_false, if_true, ite_self]

variable (hfree : s.sec.lockout = none) (hmay : s.mayUnlock ((s.msg k).get 0 1) = true)
include hfree hmay

theorem exec_debugUnlock_first (hlevel : (s.msg k).get 0 1 = 1) :
    exec (.debugUnlock k ext) s = .next ((s.unlocked 1).done k (s.msg k) []) := by
  have hsource : (s.msg k).get 1 1 = 2 := hask.noSource hlevel
  rw [hlevel] at hmay
  refine (ifUnit_command hask.takes rfl ?fields).trans (congrArg Host.Outcome.next ?unlocks)
  case fields => exact unlockBody_firstBad hask.low hask.high hask.zero2 hask.zero24 hask.noSource hask.fromHost
  simp only [hfree, Option.isSome_none, hmay, hlevel, hsource, Bool.not_true, Bool.false_eq_true, if_false, if_true, Nat.reduceEqDiff,
    false_and]

theorem exec_debugUnlock_credential (hlevel : (s.msg k).get 0 1 ≠ 1) : exec (.debugUnlock k ext) s = .next (
    if (s.msg k).get 0 1 = 2 then
      if s.d2Token ext then (((s.readCred (s.msg k)).unlocked 2).setReg Reg.d2Expiry (BitVec.ofNat 64 (fieldLE ext 0x68 8))).done k (s.msg k) []
      else (s.readCred (s.msg k)).failUnlock k (s.msg k)
    else if s.d3Grant ext then ((s.readCred (s.msg k)).enterD3.unlocked 3).done k (s.msg k) []
    else (s.readCred (s.msg k)).failUnlock k (s.msg k)) := by
  have hsource : (s.msg k).get 1 1 = 0 := hask.fromHost hlevel
  have htoken : (s.send (.hostRead ((s.msg k).get 8 8) ((s.msg k).get 16 8))).d2Token ext = s.d2Token ext := rfl
  have hgrant : (s.send (.hostRead ((s.msg k).get 8 8) ((s.msg k).get 16 8))).d3Grant ext = s.d3Grant ext := rfl
  refine (ifUnit_command hask.takes rfl ?fields).trans (congrArg Host.Outcome.next ?unlocks)
  case fields => exact unlockBody_firstBad hask.low hask.high hask.zero2 hask.zero24 hask.noSource hask.fromHost
  simp only [hfree, Option.isSome_none, hmay, hsource, hlevel, Bool.not_true, Bool.false_eq_true, if_false, if_true, Nat.reduceEqDiff,
    false_and, htoken, hgrant, State.readCred, Nat.zero_ne_one]

theorem exec_debugUnlock_token (hlevel : (s.msg k).get 0 1 = 2) (h : s.d2Token ext = true) : exec (.debugUnlock k ext) s = .next (
    (((s.readCred (s.msg k)).unlocked 2).setReg Reg.d2Expiry (BitVec.ofNat 64 (fieldLE ext 0x68 8))).done k (s.msg k) []) := by
  have hother : (s.msg k).get 0 1 ≠ 1 := by rw [hlevel]; decide
  rw [exec_debugUnlock_credential hask hfree hmay hother, if_pos hlevel, if_pos h]

theorem exec_debugUnlock_grant (hlevel : (s.msg k).get 0 1 = 3) (h : s.d3Grant ext = true) : exec (.debugUnlock k ext) s = .next (
    ((s.readCred (s.msg k)).enterD3.unlocked 3).done k (s.msg k) []) := by
  have hother : (s.msg k).get 0 1 ≠ 1 := by rw [hlevel]; decide
  have hnot : (s.msg k).get 0 1 ≠ 2 := by rw [hlevel]; decide
  rw [exec_debugUnlock_credential hask hfree hmay hother, if_neg hnot, if_pos h]

theorem exec_debugUnlock_fails (hother : (s.msg k).get 0 1 ≠ 1)
    (h : ¬((s.msg k).get 0 1 = 2 ∧ s.d2Token ext = true ∨ (s.msg k).get 0 1 = 3 ∧ s.d3Grant ext = true)) :
    exec (.debugUnlock k ext) s = .next ((s.readCred (s.msg k)).failUnlock k (s.msg k)) := by
  obtain ⟨htoken, hgrant⟩ := not_or.mp h
  have hlow := hask.low
  have hhigh := hask.high
  rw [exec_debugUnlock_credential hask hfree hmay hother]
  by_cases h2 : (s.msg k).get 0 1 = 2
  · rw [if_pos h2, if_neg fun ht => htoken ⟨h2, ht⟩]
  · have h3 : (s.msg k).get 0 1 = 3 := by
      generalize (s.msg k).get 0 1 = level at h2 hother hlow hhigh
      omega
    rw [if_neg h2, if_neg fun hg => hgrant ⟨h3, hg⟩]

end

-- a failing unlock

/-- A failing unlock before its response: it is counted, and the eighth in a row locks unlocks out for 1 s (R455). -/
def State.unlockFailed (s : State) : State :=
  let s1 := s.bump Fld.authFail 1
  { s1 with sec := { s1.sec with
    fails := if s1.sec.fails + 1 = 8 then 0 else s1.sec.fails + 1
    lockout := if s1.sec.fails + 1 = 8 then some (s1.now + 1000000000) else s1.sec.lockout } }

theorem State.failUnlock_eq : s.failUnlock k m = s.unlockFailed.answer k m Status.denied (m.get 0 1) [] := rfl

theorem State.unlockFailed_debug : s.unlockFailed.fld Fld.debug = s.fld Fld.debug := by
  show (s.bump Fld.authFail 1).fld Fld.debug = _
  rw [State.bump_fld 1 (by decide)]

theorem State.unlockFailed_authFail : s.unlockFailed.fld Fld.authFail =
    min (s.fld Fld.authFail + 1) (2 ^ (Fld.authFail.hi - Fld.authFail.lo + 1) - 1) := by
  show (s.bump Fld.authFail 1).fld Fld.authFail = _
  rw [State.bump, State.fld_setFld_same _ _ _ (by decide) (by decide)]
  exact Nat.mod_eq_of_lt ((Nat.min_le_right _ _).trans_lt (by decide))

theorem State.unlockFailed_eighth (h : s.sec.fails = 7) :
    s.unlockFailed.sec.lockout = some (s.unlockFailed.now + 1000000000) ∧ s.unlockFailed.sec.fails = 0 := by
  have h8 : s.sec.fails + 1 = 8 := by omega
  exact ⟨if_pos h8, if_pos h8⟩

theorem State.unlockFailed_counts (h : s.sec.fails ≠ 7) :
    s.unlockFailed.sec.lockout = s.sec.lockout ∧ s.unlockFailed.sec.fails = s.sec.fails + 1 := by
  have h8 : ¬s.sec.fails + 1 = 8 := by omega
  exact ⟨if_neg h8, if_neg h8⟩

-- DEBUG_LOCK and the ends of a token and of a lockout

theorem State.d2Ends_regs : s.d2Ends.regs = s.regs := (State.d2Ends_same s (within_self _) s.same_self).regs_eq (by decide)
theorem State.d2Ends_mem : s.d2Ends.mem = s.mem := (State.d2Ends_same s (within_self _) s.same_self).mem_eq (by decide)
theorem State.d2Ends_job : s.d2Ends.job = s.job := (State.d2Ends_same s (within_self _) s.same_self).job_eq (by decide)
theorem State.setDebug_mem : (s.setDebug level).mem = s.mem := (State.setDebug_same s level (within_self _) s.same_self).mem_eq (by decide)
theorem State.setDebug_job : (s.setDebug level).job = s.job := (State.setDebug_same s level (within_self _) s.same_self).job_eq (by decide)

/-- A level lowered, from D2 with the end of its halts. -/
def State.lowered (s : State) (level : Nat) : State := if s.fld Fld.debug = 2 then (s.setDebug level).d2Ends else s.setDebug level

theorem State.lowered_debug (h : level ≤ 3) : (s.lowered level).fld Fld.debug = level := by
  unfold State.lowered
  split
  · rw [State.fld_congr (State.reg_congr State.d2Ends_regs _), State.setDebug_debug h]
  · exact State.setDebug_debug h

theorem State.lowered_mem : (s.lowered level).mem = s.mem := by
  unfold State.lowered
  split
  · rw [State.d2Ends_mem, State.setDebug_mem]
  · exact State.setDebug_mem

theorem State.lowered_job : (s.lowered level).job = s.job := by
  unfold State.lowered
  split
  · rw [State.d2Ends_job, State.setDebug_job]
  · exact State.setDebug_job

theorem exec_debugLock (htakes : s.takes k 0x506 4 = true) (hlevel : (s.msg k).get 0 4 ≤ 3) : exec (.debugLock k) s = .next (
    if s.fld Fld.debug ≤ (s.msg k).get 0 4 then s.done k (s.msg k) []
    else if s.fld Fld.debug = 3 then s.warmReboot
    else (s.lowered ((s.msg k).get 0 4)).done k (s.msg k) []) := by
  have hfield : (decide (3 < (s.msg k).get 0 4)) = false := decide_eq_false (Nat.not_lt.mpr hlevel)
  refine (ifUnit_command htakes rfl ?fields).trans rfl
  case fields => exact firstBad_cons.mpr ⟨hfield, rfl⟩

theorem exec_d2TokenExpiry (h : s.fld Fld.debug = 2) :
    exec .d2TokenExpiry s = .next ((s.at_ ((s.reg Reg.d2Expiry).toNat + 1)).setDebug 1).d2Ends := congrArg Host.Outcome.next (if_pos h)

theorem State.warmReboot_stage : s.warmReboot.fld Fld.bootStage = 1 := State.beginBoot_stage

theorem State.beginBoot_job : s.beginBoot.job = s.job :=
  (State.refreshPower_same _ (within_self _) (State.same_self _)).job_eq (by decide)

theorem State.restart_job (keep : Nat → Bool) (memory : Memory) : (s.restart keep memory).job = none := by
  have hnonce (t : State) : t.drawNonce.job = t.job := (State.drawNonce_same t (within_self _) t.same_self).job_eq (by decide)
  unfold State.restart
  rw [hnonce, State.setFld_job, State.setFld_job]
  rfl

theorem State.warmReset_job : s.warmReset.job = none := by
  unfold State.warmReset
  refine List.foldlRecOn (motive := fun t : State => t.job = none) _ _ ?_ fun _ h _ _ => h
  refine List.foldlRecOn (motive := fun t : State => t.job = none) _ _ ?_ fun _ h _ _ => h
  rw [State.onBoard_job, State.restart_job]

theorem State.warmReboot_job : s.warmReboot.job = none := by
  unfold State.warmReboot
  rw [State.beginBoot_job, State.warmReset_job]

theorem exec_unlockLockoutExpiry_ends {x : Nat} (h : s.sec.lockout = some x) :
    exec .unlockLockoutExpiry s = .next { s.at_ x with sec := { s.sec with lockout := none } } := by
  refine congrArg Host.Outcome.next ?_
  rw [h]

theorem exec_unlockLockoutExpiry_none (h : s.sec.lockout = none) : exec .unlockLockoutExpiry s = .next s := by
  refine congrArg Host.Outcome.next ?_
  rw [h]

theorem State.readCred_fld (f : Fld) : (s.readCred m).fld f = s.fld f := rfl

/-- What a token leaves: the level, its end, and the job as it was. -/
theorem State.token_leaves (expiry : Word64) : (((s.readCred m).unlocked 2).setReg Reg.d2Expiry expiry).sec.fails = 0 ∧
    (((s.readCred m).unlocked 2).setReg Reg.d2Expiry expiry).fld Fld.debug = max 2 (s.fld Fld.debug) ∧
    (((s.readCred m).unlocked 2).setReg Reg.d2Expiry expiry).reg Reg.d2Expiry = expiry ∧
    (((s.readCred m).unlocked 2).setReg Reg.d2Expiry expiry).job = s.job ∧
    (((s.readCred m).unlocked 2).setReg Reg.d2Expiry expiry).mem = s.mem := by
  refine ⟨?_, ?_, State.reg_setReg_same _ _ _, ?_, ?_⟩
  · rw [State.setReg_sec, State.unlocked_fails]
  · rw [State.fld_congr (State.reg_setReg_other _ _ (by decide)), State.unlocked_debug (by decide), State.readCred_fld]
  · rw [State.setReg_job, State.unlocked_job]
    rfl
  · rw [State.setReg_mem, State.unlocked_mem]
    rfl

/-- What a grant leaves. -/
theorem State.grant_leaves : (s.enterD3.unlocked 3).sec.fails = 0 ∧ (s.enterD3.unlocked 3).fld Fld.debug = 3 ∧
    (s.enterD3.unlocked 3).fld Fld.sstate = 4 ∧ (s.enterD3.unlocked 3).fld Fld.keysErased = 1 ∧ (s.enterD3.unlocked 3).job = none := by
  have hreached : 3 ≤ s.enterD3.fld Fld.debug := by rw [State.enterD3_debug]
  have hkept {f : Fld} (hf : f.key < 0xA0020 ∨ 0xA0040 ≤ f.key) : (s.enterD3.unlocked 3).fld f = s.enterD3.fld f :=
    State.fld_congr (State.unlocked_reg hf hreached)
  rw [hkept (by decide), hkept (by decide), hkept (by decide), State.unlocked_job]
  exact ⟨State.unlocked_fails, State.enterD3_debug, State.enterD3_sstate, State.enterD3_keysErased, State.enterD3_job⟩

/-- What a failing unlock leaves before its response. -/
theorem State.failure_leaves : (s.readCred m).unlockFailed.mem = s.mem ∧ (s.readCred m).unlockFailed.job = s.job ∧
    (s.readCred m).unlockFailed.fld Fld.debug = s.fld Fld.debug ∧ (s.readCred m).unlockFailed.fld Fld.authFail =
      min (s.fld Fld.authFail + 1) (2 ^ (Fld.authFail.hi - Fld.authFail.lo + 1) - 1) := by
  rw [State.unlockFailed_debug, State.unlockFailed_authFail, State.readCred_fld, State.readCred_fld]
  exact ⟨rfl, rfl, rfl, rfl⟩

/-- Settles O47: the table and the lockout first, then the credential of each level; locking and the ends of a token and of a lockout. -/
theorem debugLevelsFollowTheirTable : Obligations.DebugLevelsFollowTheirTable := by
  unfold Obligations.DebugLevelsFollowTheirTable
  intro s k ext m level ask deniedNow granted good
  have hasked (h : ask) : s.UnlockAsked k := by
    simp only [ask, ite_prop_iff_and] at h
    obtain ⟨htakes, hlow, hhigh, h2, h24, hnone, hhost⟩ := h
    exact ⟨htakes, hlow, hhigh, h2, h24, hnone, hhost⟩
  refine ⟨fun h hdenied => exec_debugUnlock_denied (hasked h) hdenied, fun h hfree hmay => ⟨fun hlevel => ?_, fun hlevel hgood => ?_,
      fun hlevel hgood => ?_, fun hlevel hbad => ?_⟩,
    fun htakes hlevel => ⟨fun hlow => ?_, fun hhigh h3 => ?_, fun hhigh h3 => ?_⟩, fun h2 => ?_, fun h2 => ?_, fun x hx => ?_,
    exec_unlockLockoutExpiry_none⟩
  · exact ⟨_, exec_debugUnlock_first (hasked h) hfree hmay hlevel, State.unlocked_fails, State.unlocked_debug (by decide), State.unlocked_job,
      State.unlocked_mem⟩
  · have htoken : s.d2Token ext = true := hgood.elim (fun h => h.2) (fun h => absurd (hlevel.symm.trans h.1) (by decide))
    exact ⟨_, exec_debugUnlock_token (hasked h) hfree hmay hlevel htoken, State.token_leaves _⟩
  · have hgrant : s.d3Grant ext = true := hgood.elim (fun h => absurd (hlevel.symm.trans h.1) (by decide)) (fun h => h.2)
    exact ⟨_, exec_debugUnlock_grant (hasked h) hfree hmay hlevel hgrant, State.grant_leaves⟩
  · obtain ⟨hmem, hjob, hdebug, hcount⟩ := State.failure_leaves (s := s) (m := m)
    refine ⟨(s.readCred m).unlockFailed, exec_debugUnlock_fails (hasked h) hfree hmay hlevel hbad, hmem, hjob, hdebug, hcount,
      fun h7 => State.unlockFailed_eighth h7, fun h7 => ?_⟩
    obtain ⟨hlockout, hfails⟩ := State.unlockFailed_counts (s := s.readCred m) h7
    exact ⟨hlockout.trans hfree, hfails⟩
  · rw [exec_debugLock htakes hlevel, if_pos hlow]
    rfl
  · rw [exec_debugLock htakes hlevel, if_neg (Nat.not_le.mpr hhigh), if_neg h3]
    exact ⟨_, rfl, State.lowered_debug hlevel, State.lowered_mem, State.lowered_job⟩
  · rw [exec_debugLock htakes hlevel, if_neg (Nat.not_le.mpr hhigh), if_pos h3]
    exact ⟨_, rfl, State.warmReboot_debug, State.warmReboot_stage, State.warmReboot_job⟩
  · refine ⟨_, exec_d2TokenExpiry h2, ?_, ?_, ?_, ?_⟩
    · rw [State.fld_congr (State.reg_congr State.d2Ends_regs _), State.setDebug_debug (by decide)]
    · rw [State.reg_congr State.d2Ends_regs, State.setDebug_expiry (by decide)]
    · rw [State.d2Ends_mem, State.setDebug_mem, State.at_mem]
    · rw [State.d2Ends_job, State.setDebug_job]
      exact (State.at__same s _ (within_self _) s.same_self).job_eq (by decide)
  · exact congrArg Host.Outcome.next (if_neg h2)
  · exact ⟨_, exec_unlockLockoutExpiry_ends hx, rfl, State.at_mem s x⟩

end Sys2Proof.Machine

namespace Sys2Proof.Machine

/-! O53: the supplies and the reset pins (R411, R412, R422, R425, R426, R490 to R492). -/

variable {s t z : State} {k : Nat}

-- what every reset clears, and what it keeps besides registers

/-- Nothing is left in `t` of the work that `z` held; the MRAM, the module's slots and the commands to come are as in `z`. -/
structure State.Blank (z t : State) : Prop where
  job : t.job = none
  mem : t.mem = []
  tags : t.tags = []
  queues : t.queues = []
  mram : t.mram = z.mram
  slotA : t.ckpt.slotA = z.ckpt.slotA
  slotB : t.ckpt.slotB = z.ckpt.slotB
  peers : t.fabric.peers = []
  longs : t.host.longs = []
  targets : t.host.targets = []
  pending : t.pending = z.pending

theorem State.Blank.onBoard (h : State.Blank z t) (f : Board → Board) : State.Blank z (t.onBoard f) := ⟨h.1, h.2, h.3, h.4, h.5, h.6, h.7, h.8, h.9, h.10, h.11⟩

theorem State.Blank.setFld (h : State.Blank z t) (f : Fld) (v : Nat) : State.Blank z (t.setFld f v) :=
  ⟨h.1, h.2, h.3, h.4, h.5, h.6, h.7, h.8, h.9, h.10, h.11⟩

theorem State.Blank.drawNonce (h : State.Blank z t) : State.Blank z t.drawNonce := by
  have hsame := State.drawNonce_same t (within_self _) t.same_self
  exact ⟨(hsame.job_eq (by decide)).trans h.job, (hsame.mem_eq (by decide)).trans h.mem, (hsame.tags_eq (by decide)).trans h.tags,
    (hsame.queues_eq (by decide)).trans h.queues, (hsame.mram_eq (by decide)).trans h.mram, (hsame.ckpt_eq (by decide)) ▸ h.slotA,
    (hsame.ckpt_eq (by decide)) ▸ h.slotB, (hsame.fabric_eq (by decide)) ▸ h.peers, (hsame.host_eq (by decide)) ▸ h.longs,
    (hsame.host_eq (by decide)) ▸ h.targets, (hsame.pending_eq (by decide)).trans h.pending⟩

theorem State.sendSlow_peers (factor cause : Nat) : (s.sendSlow factor cause).fabric.peers = s.fabric.peers := by
  unfold State.sendSlow
  split
  · rfl
  · refine List.foldlRecOn (motive := fun t : State => t.fabric.peers = s.fabric.peers) _ _ rfl fun t ht g _ => ?_
    obtain ⟨ports, chosen, h⟩ := t.sendTx_fabric (t.slowNoticeTx g factor cause)
    rw [h]
    exact ht

theorem State.endSlow_peers (cause unit : Nat) : (s.endSlow cause unit).fabric.peers = s.fabric.peers := by
  unfold State.endSlow
  split
  · exact State.sendSlow_peers _ _
  · rfl

theorem State.interventionShown_peers : s.interventionShown.fabric.peers = s.fabric.peers := by
  unfold State.interventionShown
  split
  · split
    · rfl
    · exact State.sendSlow_peers _ _
  · exact State.endSlow_peers 1 0

theorem State.refreshPower_peers : s.refreshPower.fabric.peers = s.fabric.peers := by
  have hcounted : s.waitsCounted.fabric = s.fabric := by
    unfold State.waitsCounted
    rw [(State.countIntervene_same _ (within_self _) (State.same_self _)).fabric_eq (by decide)]
    split
    · exact (State.settleWaits_same s (within_self _) s.same_self).fabric_eq (by decide)
    · rfl
  have hclocks : s.waitsCounted.clocksShown.fabric = s.waitsCounted.fabric :=
    List.foldlRecOn (motive := fun t : State => t.fabric = s.waitsCounted.fabric) _ _ rfl fun t ht _ _ => by
      rw [State.setFld_fabric, State.setFld_fabric]
      exact ht
  have hlimits (t : State) : t.limitsShown.fabric = t.fabric := by
    unfold State.limitsShown
    rw [State.setFld_fabric, State.setFld_fabric, State.setFld_fabric, State.setFld_fabric]
  rw [State.refreshPower_eq, State.interventionShown_peers, hlimits, hclocks, hcounted]

theorem State.Blank.beginBoot (h : State.Blank z t) : State.Blank z t.beginBoot := by
  obtain ⟨hjob, hmem, htags, hqueues, hmram, hA, hB, hpeers, hlongs, htargets, hpending⟩ :=
    (h.setFld Fld.bootStage 1).setFld Fld.warm (if t.board.warmBoot then 1 else 0)
  unfold State.beginBoot
  generalize (t.setFld Fld.bootStage 1).setFld Fld.warm (if t.board.warmBoot then 1 else 0) = u at *
  have hsame := State.refreshPower_same u (within_self _) u.same_self
  exact ⟨(hsame.job_eq (by decide)).trans hjob, (hsame.mem_eq (by decide)).trans hmem, (hsame.tags_eq (by decide)).trans htags,
    (hsame.queues_eq (by decide)).trans hqueues, (hsame.mram_eq (by decide)).trans hmram, (hsame.ckpt_eq (by decide)) ▸ hA,
    (hsame.ckpt_eq (by decide)) ▸ hB, State.refreshPower_peers.trans hpeers, (hsame.host_eq (by decide)) ▸ hlongs,
    (hsame.host_eq (by decide)) ▸ htargets, (hsame.pending_eq (by decide)).trans hpending⟩

theorem State.restart_blank (keep : Nat → Bool) (memory : Memory) : State.Blank s (s.restart keep memory) := by
  unfold State.restart
  refine State.Blank.drawNonce (State.Blank.setFld (State.Blank.setFld ?_ _ _) _ _)
  exact ⟨rfl, rfl, rfl, rfl, rfl, rfl, rfl, rfl, rfl, rfl, rfl⟩

theorem State.coldReset_blank : State.Blank s s.coldReset := (State.restart_blank _ _).onBoard _

theorem State.endPageTests_same_self : s.endPageTests.same 32770 s := State.endPageTests_same s (within_self _) s.same_self

theorem State.warmReset_blank : State.Blank s s.warmReset := by
  have hsame := State.endPageTests_same_self (s := s)
  have hblank : State.Blank s (s.endPageTests.restart Reg.keptWarm s.endPageTests.memory.warm) := by
    obtain ⟨hjob, hmem, htags, hqueues, hmram, hA, hB, hpeers, hlongs, htargets, hpending⟩ :=
      State.restart_blank (s := s.endPageTests) Reg.keptWarm s.endPageTests.memory.warm
    exact ⟨hjob, hmem, htags, hqueues, hmram.trans (hsame.mram_eq (by decide)), hA.trans (congrArg Ckpt.slotA (hsame.ckpt_eq (by decide))),
      hB.trans (congrArg Ckpt.slotB (hsame.ckpt_eq (by decide))), hpeers, hlongs, htargets, hpending.trans (hsame.pending_eq (by decide))⟩
  unfold State.warmReset
  refine List.foldlRecOn (motive := State.Blank s) _ _ ?_ fun _ h _ _ => h.setFld _ _
  exact List.foldlRecOn (motive := State.Blank s) _ _ (hblank.onBoard _) fun _ h _ _ => h.setFld _ _

-- the board through a reset

theorem State.drawNonce_board : s.drawNonce.board = s.board := (State.drawNonce_same s (within_self _) s.same_self).board_eq (by decide)

theorem State.restart_board (keep : Nat → Bool) (memory : Memory) : (s.restart keep memory).board =
    { s.board with modPerstLow := true, pwrOffOk := false, internalHold := false, warmDue := none } := by
  unfold State.restart
  rw [State.drawNonce_board]
  rfl

theorem State.coldReset_board : s.coldReset.board =
    { s.board with modPerstLow := true, pwrOffOk := false, internalHold := false, warmDue := none, warmBoot := false } := by
  unfold State.coldReset
  rw [State.onBoard_board, State.restart_board]

theorem State.warmReset_board : s.warmReset.board =
    { s.board with modPerstLow := true, pwrOffOk := false, internalHold := false, warmDue := none, warmBoot := true } := by
  have hboard : s.endPageTests.board = s.board := State.endPageTests_same_self.board_eq (by decide)
  unfold State.warmReset
  refine List.foldlRecOn (motive := fun t : State => t.board = _) _ _ ?_ fun _ h _ _ => h
  refine List.foldlRecOn (motive := fun t : State => t.board = _) _ _ ?_ fun _ h _ _ => h
  rw [State.onBoard_board, State.restart_board, hboard]

theorem State.beginBoot_board : s.beginBoot.board = s.board :=
  (State.refreshPower_same _ (within_self _) (State.same_self _)).board_eq (by decide)

-- the registers through a warm reset

/-- The pages of a test return to their stack's pool and to the reserve; no register below the stacks' pages changes. -/
theorem State.freePool_reg (hk : k < Reg.hbmPage 0) (st n : Nat) : (s.freePool st n).reg k = s.reg k := by
  have hother : k ≠ (Fld.poolFree st).key := by
    simp only [Fld.poolFree, Reg.stackPool, Reg.hbmPage] at *
    omega
  unfold State.freePool State.refreshPool
  rw [State.reg_setFld_other _ _ _ _ hother]
  rfl

theorem State.endPageTests_time : s.endPageTests.reg Reg.tckTime = s.reg Reg.tckTime := by
  unfold State.endPageTests
  have hbelow : Reg.tckTime < Reg.hbmPage 0 := by decide
  rw [State.reg_foldl (fun _ _ => State.freePool_reg hbelow _ _), State.bump, State.reg_setFld_other _ _ _ _ (by decide)]
  rfl

/-- Without tests of pages, their end changes the reserve's register at most. -/
theorem State.endPageTests_none (h : s.memory.pageTest = []) (hk : k ≠ Reg.reserve) : s.endPageTests.reg k = s.reg k := by
  unfold State.endPageTests
  rw [h, List.foldl_nil, State.bump, State.reg_setFld_other _ _ _ _ hk]
  rfl

theorem State.warmReset_now : s.warmReset.now = s.now := by
  unfold State.now
  rw [State.warmReset_reg (by decide) (by decide) (by decide) (by decide) (by decide), if_pos (by decide), State.endPageTests_time]

theorem State.warmReboot_now : s.warmReboot.now = s.now := by
  have hboot : s.warmReboot.reg Reg.tckTime = s.warmReset.reg Reg.tckTime := State.beginBoot_reg (Reg.calm_of_lt (by decide)) (by decide)
  calc s.warmReboot.now = s.warmReset.now := congrArg BitVec.toNat hboot
    _ = s.now := State.warmReset_now

theorem Reg.hbmPage_bounds (hlow : Reg.hbmPage 0 ≤ k) (hhigh : k < Reg.hbmPage 12) : 0x40000 ≤ k ∧ k < 0x4C000 := ⟨hlow, hhigh⟩

/-- The stacks' register pages are kept (R240). -/
theorem State.warmReset_hbmPage (hlow : Reg.hbmPage 0 ≤ k) (hhigh : k < Reg.hbmPage 12) (htests : s.memory.pageTest = []) :
    s.warmReset.reg k = s.reg k := by
  obtain ⟨h4, hC⟩ := Reg.hbmPage_bounds hlow hhigh
  have hkept : Reg.keptWarm k = true := by simp [Reg.keptWarm, hlow, hhigh]
  have hother {x : Nat} (hx : x < 0x40000 ∨ 0x4C000 ≤ x) : k ≠ x := by omega
  rw [State.warmReset_reg (by omega) (hother (by decide)) (hother (by decide)) (by omega) (by omega), if_pos hkept,
    State.endPageTests_none htests (hother (by decide))]

theorem State.coldReset_debug : s.coldReset.fld Fld.debug = 0 := by
  refine State.fld_debug_of_reset ?_
  rw [State.coldReset_reg (by decide) (by decide) (by decide), if_neg (by decide)]

theorem State.coldReset_boot : s.coldReset.reg Reg.boot = Reg.resetValue Reg.boot := by
  rw [State.coldReset_reg (by decide) (by decide) (by decide), if_neg (by decide)]

-- the pins

/-- The straps sampled at the release of cold reset. -/
def State.strapped (s : State) (st : Straps) : State :=
  (((s.onBoard (fun b => { b with coldRstLow := false, straps := st })).setFld Fld.slot st.slot).setFld Fld.boardSlot st.slot).setFld
    Fld.boardWidth st.width

theorem State.strapped_slot {st : Straps} (h : st.slot < 8) : (s.strapped st).fld Fld.slot = st.slot := by
  unfold State.strapped
  rw [State.setFld_fld _ (by decide), State.setFld_fld _ (by decide), State.fld_setFld_same _ _ _ (by decide) (by decide)]
  exact Nat.mod_eq_of_lt h

theorem State.strapped_width {st : Straps} (h : st.width < 4) : (s.strapped st).fld Fld.boardWidth = st.width := by
  unfold State.strapped
  rw [State.fld_setFld_same _ _ _ (by decide) (by decide)]
  exact Nat.mod_eq_of_lt h

theorem State.strapped_stage (st : Straps) : (s.strapped st).fld Fld.bootStage = s.fld Fld.bootStage := by
  unfold State.strapped
  rw [State.setFld_fld _ (by decide), State.setFld_fld _ (by decide), State.setFld_fld _ (by decide)]
  rfl

theorem State.beginBoot_fld {f : Fld} (hf : Reg.Calm f.key) (hboot : f.key ≠ Reg.boot) : s.beginBoot.fld f = s.fld f :=
  State.fld_congr (State.beginBoot_reg hf hboot)

theorem exec_coldResetRelease {st : Straps} (hlow : s.board.coldRstLow = true) (hgood : s.board.standbyGood = true) (htest : st.testEn = false) :
    exec (.coldResetRelease st) s = .next (if (s.strapped st).board.vin12Good then (s.strapped st).beginBoot
      else (s.strapped st).onBoard (fun b => { b with internalHold := true })) := by
  refine congrArg Host.Outcome.next (if_neg ?_)
  simp [hlow, hgood, htest]

theorem State.Blank.clean (h : State.Blank z t) (hlevel : t.fld Fld.debug = 0) : t.job = none ∧ t.mem = [] ∧ t.tags = [] ∧ t.queues = [] ∧
    t.mram = z.mram ∧ t.ckpt.slotA = z.ckpt.slotA ∧ t.ckpt.slotB = z.ckpt.slotB ∧ t.fabric.peers = [] ∧ t.host.longs = [] ∧
    t.host.targets = [] ∧ t.fld Fld.debug = 0 ∧ t.pending = z.pending :=
  ⟨h.job, h.mem, h.tags, h.queues, h.mram, h.slotA, h.slotB, h.peers, h.longs, h.targets, hlevel, h.pending⟩

theorem State.coldReset_fld_boot {f : Fld} (hf : f.key = Reg.boot) (hzero : getBits (Reg.resetValue Reg.boot) f.hi f.lo = 0) :
    s.coldReset.fld f = 0 := by
  unfold State.fld
  rw [hf, State.coldReset_boot, hzero]

/-- A device whose supply fails: a cold reset, held until the supplies are good again. -/
def State.supplyLost (s : State) : State := (s.coldReset.setFld Fld.bootFail 5).onBoard (fun b => { b with internalHold := !b.coldRstLow })

theorem State.supplyLost_blank : State.Blank s s.supplyLost := (State.coldReset_blank.setFld _ _).onBoard _

theorem State.supplyLost_fld (f : Fld) : s.supplyLost.fld f = (s.coldReset.setFld Fld.bootFail 5).fld f := by
  unfold State.supplyLost
  exact State.fld_congr (State.reg_congr (State.onBoard_regs _ _) _)

theorem State.supplyLost_debug : s.supplyLost.fld Fld.debug = 0 := by
  rw [State.supplyLost_fld, State.setFld_fld _ (by decide), State.coldReset_debug]

theorem State.supplyLost_bootFail : s.supplyLost.fld Fld.bootFail = 5 := by
  rw [State.supplyLost_fld, State.fld_setFld_same _ _ _ (by decide) (by decide)]
  rfl

theorem State.supplyLost_internalHold (h : s.board.coldRstLow = false) : s.supplyLost.board.internalHold = true := by
  unfold State.supplyLost
  rw [State.onBoard_board, State.setFld_board, State.coldReset_board]
  simp [h]

/-- A warm reset of the device's own: all but what its row keeps is blank, and the boot begins. -/
theorem State.warmReboot_blank : State.Blank s s.warmReboot := State.warmReset_blank.beginBoot

theorem State.warmReboot_warm : s.warmReboot.fld Fld.warm = 1 := by
  unfold State.warmReboot
  rw [State.beginBoot_warm, State.warmReset_board]
  rfl

theorem State.warmReboot_warmDue : s.warmReboot.board.warmDue = none := by
  unfold State.warmReboot
  rw [State.beginBoot_board, State.warmReset_board]

/-- PERST# for 100 µs outside a cold reset. -/
def State.perst (s : State) : State :=
  (s.warmReset.onHost (fun h => { h with linkUp := false })).onBoard (fun b => { b with perstLow := true })

theorem State.perst_reg : s.perst.reg k = s.warmReset.reg k := by
  unfold State.perst
  rw [State.reg_congr (State.onBoard_regs _ _), State.reg_congr (State.onHost_regs _ _)]

theorem State.Blank.linkDown (h : State.Blank z t) : State.Blank z (t.onHost (fun h => { h with linkUp := false })) :=
  ⟨h.1, h.2, h.3, h.4, h.5, h.6, h.7, h.8, h.9, h.10, h.11⟩

theorem State.perst_blank : State.Blank s s.perst := State.warmReset_blank.linkDown.onBoard _

theorem State.perst_warmBoot : s.perst.board.warmBoot = true := by
  unfold State.perst
  rw [State.onBoard_board, State.onHost_board, State.warmReset_board]

theorem exec_perstAssert_held {micros : Nat} (hlong : 100 ≤ micros) (hheld : s.heldCold = true) : exec (.perstAssert micros) s =
    .next ((s.onHost (fun h => { h with linkUp := false })).onBoard (fun b => { b with perstLow := true })) := by
  refine congrArg Host.Outcome.next ((if_neg (Nat.not_lt.mpr hlong)).trans ?_)
  rw [if_pos hheld]

theorem exec_perstAssert_warm {micros : Nat} (hlong : 100 ≤ micros) (hheld : s.heldCold = false) :
    exec (.perstAssert micros) s = .next s.perst := by
  refine congrArg Host.Outcome.next ((if_neg (Nat.not_lt.mpr hlong)).trans ?_)
  rw [if_neg (Bool.eq_false_iff.mp hheld)]
  rfl

/-- PERST# released: a warm boot begins where one waits for it. -/
def State.perstReleased (s : State) : State := s.onBoard (fun b => { b with perstLow := false })

theorem exec_perstDeassert : exec .perstDeassert s = .next (
    if s.board.perstLow && s.board.warmBoot && decide (s.perstReleased.fld Fld.bootStage = 0) && !s.perstReleased.heldCold then
      s.perstReleased.beginBoot else s.perstReleased) := rfl

theorem State.beginBoot_mem : s.beginBoot.mem = s.mem := (State.refreshPower_same _ (within_self _) (State.same_self _)).mem_eq (by decide)

/-- The supplies are good, and the straps' slot is the device's. -/
def State.holdReleased (s : State) : State :=
  (s.onBoard (fun b => { b with internalHold := false, vin12Good := true })).setFld Fld.slot s.board.straps.slot

theorem exec_internalResetRelease : exec .internalResetRelease s =
    .next (if s.board.internalHold && s.board.standbyGood then s.holdReleased.beginBoot else s) := rfl

theorem exec_fwActivateWarmReset_due {x : Nat} (h : s.board.warmDue = some x) : exec .fwActivateWarmReset s = .next (s.at_ x).warmReboot := by
  refine congrArg Host.Outcome.next ?_
  rw [h]

theorem exec_fwActivateWarmReset_none (h : s.board.warmDue = none) : exec .fwActivateWarmReset s = .next s := by
  refine congrArg Host.Outcome.next ?_
  rw [h]

/-- A time that has passed changes nothing of what a reset keeps. -/
theorem State.Blank.of_at {x : Nat} (h : State.Blank (s.at_ x) t) : State.Blank s t := by
  obtain ⟨hjob, hmem, htags, hqueues, hmram, hA, hB, hpeers, hlongs, htargets, hpending⟩ := h
  have hsame := State.at__same s x (within_self _) s.same_self
  exact ⟨hjob, hmem, htags, hqueues, hmram.trans (hsame.mram_eq (by decide)), hA.trans (congrArg Ckpt.slotA (hsame.ckpt_eq (by decide))),
    hB.trans (congrArg Ckpt.slotB (hsame.ckpt_eq (by decide))), hpeers, hlongs, htargets, hpending.trans (hsame.pending_eq (by decide))⟩

-- what each pin comes to

theorem exec_standbySupplyGood_first (hoff : s.board.standbyGood = false) : exec .standbySupplyGood s =
    .next ((s.onBoard (fun b => { b with standbyGood := true })).setReg Reg.tckTime 0) :=
  congrArg Host.Outcome.next (if_neg (Bool.eq_false_iff.mp hoff))

theorem exec_coldResetRelease_ignored {st : Straps} (h : s.board.coldRstLow = false ∨ s.board.standbyGood = false ∨ st.testEn = true) :
    exec (.coldResetRelease st) s = .next s := by
  refine congrArg Host.Outcome.next (if_pos ?_)
  simpa only [Bool.not_eq_true'] using h

theorem coldResetRelease_samples {st : Straps} (hlow : s.board.coldRstLow = true) (hgood : s.board.standbyGood = true) (htest : st.testEn = false)
    (hslot : st.slot < 8) (hwidth : st.width < 4) : ∃ t, exec (.coldResetRelease st) s = .next t ∧ t.board.straps = st ∧
      t.board.coldRstLow = false ∧ t.fld Fld.slot = st.slot ∧ t.fld Fld.boardWidth = st.width ∧
      (s.board.vin12Good = true → t.fld Fld.bootStage = 1) ∧
      (s.board.vin12Good = false → t.board.internalHold = true ∧ t.fld Fld.bootStage = s.fld Fld.bootStage) := by
  refine ⟨_, exec_coldResetRelease hlow hgood htest, ?_⟩
  have hvin : (s.strapped st).board.vin12Good = s.board.vin12Good := rfl
  rw [hvin]
  split
  next hv =>
    rw [State.beginBoot_board, State.beginBoot_fld Reg.calm_fabDevId (by decide), State.beginBoot_fld Reg.calm_boardStatus (by decide),
      State.strapped_slot hslot, State.strapped_width hwidth]
    exact ⟨rfl, rfl, rfl, rfl, fun _ => State.beginBoot_stage, fun hbad => absurd (hbad.symm.trans hv) (by decide)⟩
  next hv =>
    have hfld (f : Fld) : ((s.strapped st).onBoard (fun b => { b with internalHold := true })).fld f = (s.strapped st).fld f :=
      State.fld_congr (State.reg_congr (State.onBoard_regs _ _) _)
    rw [hfld, hfld, hfld, State.strapped_slot hslot, State.strapped_width hwidth, State.strapped_stage]
    exact ⟨rfl, rfl, rfl, rfl, fun hgood => absurd hgood hv, fun _ => ⟨rfl, rfl⟩⟩

theorem State.onBoard_fld_eq (f : Board → Board) (g : Fld) : (s.onBoard f).fld g = s.fld g :=
  State.fld_congr (State.reg_congr (State.onBoard_regs _ _) _)

theorem internalResetRelease_boots (hhold : s.board.internalHold = true) (hgood : s.board.standbyGood = true) (hslot : s.board.straps.slot < 8) :
    ∃ t, exec .internalResetRelease s = .next t ∧ t.board.internalHold = false ∧ t.fld Fld.bootStage = 1 ∧
      t.fld Fld.slot = s.board.straps.slot := by
  refine ⟨s.holdReleased.beginBoot, ?_, ?_, State.beginBoot_stage, ?_⟩
  · rw [exec_internalResetRelease, hhold, hgood]
    rfl
  · rw [State.beginBoot_board]
    rfl
  · rw [State.beginBoot_fld Reg.calm_fabDevId (by decide), State.holdReleased, State.fld_setFld_same _ _ _ (by decide) (by decide)]
    exact Nat.mod_eq_of_lt hslot

theorem exec_internalResetRelease_ignored (h : s.board.internalHold = false ∨ s.board.standbyGood = false) :
    exec .internalResetRelease s = .next s := by
  refine congrArg Host.Outcome.next (if_neg ?_)
  rcases h with h | h <;> simp [h]

theorem State.perst_linkUp : s.perst.host.linkUp = false := by
  unfold State.perst
  rw [State.onBoard_host, State.onHost_host]

theorem State.perst_perstLow : s.perst.board.perstLow = true := by
  unfold State.perst
  rw [State.onBoard_board]

theorem State.perst_debug : s.perst.fld Fld.debug = 0 := (State.fld_congr State.perst_reg).trans State.warmReset_debug

theorem State.perst_now : s.perst.now = s.now := by
  rw [← State.warmReset_now (s := s), State.now, State.now, State.perst_reg]

theorem State.perstReleased_fld (f : Fld) : s.perstReleased.fld f = s.fld f := State.onBoard_fld_eq _ f

theorem State.perstReleased_heldCold : s.perstReleased.heldCold = s.heldCold := by
  unfold State.heldCold
  rw [State.perstReleased_fld]
  rfl

theorem perstDeassert_releases : ∃ t, exec .perstDeassert s = .next t ∧ t.board.perstLow = false ∧ t.mem = s.mem ∧
    (s.board.perstLow = true → s.board.warmBoot = true → s.fld Fld.bootStage = 0 → s.heldCold = false → t.fld Fld.bootStage = 1 ∧
      t.fld Fld.warm = 1) := by
  refine ⟨_, exec_perstDeassert, ?_⟩
  rw [State.perstReleased_fld, State.perstReleased_heldCold]
  split
  next hboot =>
    obtain ⟨⟨⟨-, hwarm⟩, -⟩, -⟩ : ((s.board.perstLow = true ∧ s.board.warmBoot = true) ∧ s.fld Fld.bootStage = 0) ∧ s.heldCold = false := by
      simpa using hboot
    have hboard : s.perstReleased.board.warmBoot = true := hwarm
    rw [State.beginBoot_board, State.beginBoot_mem, State.beginBoot_stage, State.beginBoot_warm, if_pos hboard]
    exact ⟨rfl, rfl, fun _ _ _ _ => ⟨rfl, rfl⟩⟩
  next hnot =>
    exact ⟨rfl, rfl, fun hlow hwarm hstage hheld => absurd (by simp [hlow, hwarm, hstage, hheld]) hnot⟩

theorem State.coldRst_clean : State.Blank s (s.coldReset.onBoard (fun b => { b with coldRstLow := true })) := State.coldReset_blank.onBoard _

theorem State.warmReboot_at_now {x : Nat} (hx : x < 2 ^ 64) : (s.at_ x).warmReboot.now = max s.now x := by
  rw [State.warmReboot_now, State.now_at_ s x hx]

/-- Settles O53: pin by pin, from what a reset clears and what its row keeps. -/
theorem resetsFollowThePins : Obligations.ResetsFollowThePins := by
  unfold Obligations.ResetsFollowThePins
  intro s st micros clean
  refine ⟨fun hoff => ⟨_, exec_standbySupplyGood_first hoff, rfl, ?_, rfl⟩, fun hgood => congrArg Host.Outcome.next (if_pos hgood),
    fun hlow hgood htest hslot hwidth => coldResetRelease_samples hlow hgood htest hslot hwidth, exec_coldResetRelease_ignored,
    ⟨s.coldReset.onBoard (fun b => { b with coldRstLow := true }), rfl, State.coldRst_clean.clean ?_, rfl, ?_, ?_⟩,
    ⟨s.supplyLost.onBoard (fun b => { b with vin12Good := false }), rfl, (State.supplyLost_blank.onBoard _).clean ?_, rfl, ?_,
      State.supplyLost_internalHold⟩,
    ⟨s.supplyLost.onBoard (fun b => { b with standbyGood := false, i3cAddr := none, i3cOffset := none, jtag := 1 }), rfl,
      (State.supplyLost_blank.onBoard _).clean ?_, rfl, rfl⟩,
    internalResetRelease_boots, exec_internalResetRelease_ignored,
    fun hshort => congrArg Host.Outcome.next (if_pos hshort), fun hlong hheld => ⟨_, exec_perstAssert_warm hlong hheld,
      State.perst_blank.clean State.perst_debug, State.perst_now, State.perst_linkUp, State.perst_perstLow, State.perst_warmBoot,
      fun k hlow hhigh htests => State.perst_reg.trans (State.warmReset_hbmPage hlow hhigh htests)⟩,
    exec_perstAssert_held, perstDeassert_releases,
    fun h3 => ⟨s.warmReboot, congrArg Host.Outcome.next (if_pos h3), State.warmReboot_blank.clean State.warmReboot_debug,
      State.warmReboot_stage, State.warmReboot_warm⟩, fun h3 => congrArg Host.Outcome.next (if_neg h3),
    fun x hdue hx => ⟨(s.at_ x).warmReboot, exec_fwActivateWarmReset_due hdue, State.warmReboot_blank.of_at.clean State.warmReboot_debug,
      State.warmReboot_at_now hx, State.warmReboot_stage, State.warmReboot_warmDue⟩, exec_fwActivateWarmReset_none⟩
  · rw [State.now, State.reg_setReg_same]
    rfl
  · rw [State.onBoard_fld_eq, State.coldReset_debug]
  · rw [State.onBoard_fld_eq, State.coldReset_fld_boot rfl (by decide)]
  · rw [State.onBoard_fld_eq, State.coldReset_fld_boot rfl (by decide)]
  · rw [State.onBoard_fld_eq, State.supplyLost_debug]
  · rw [State.onBoard_fld_eq, State.supplyLost_bootFail]
  · rw [State.onBoard_fld_eq, State.supplyLost_debug]

end Sys2Proof.Machine

namespace Sys2Proof.Machine

/-! O54: stage 2 of a boot in which a slow notice leaves by a port that does not exist. -/

variable {s : State} {k : Nat}

-- what stage 2 changes of the registers before the power page is brought up to date

theorem State.setFld_below_reg {f : Fld} (hk : 0x60000 ≤ k) (hf : f.key < 0x60000) (v : Nat) : (s.setFld f v).reg k = s.reg k :=
  State.reg_setFld_other _ _ _ _ (Nat.ne_of_gt (Nat.lt_of_lt_of_le hf hk))

section
variable (hk : 0x60000 ≤ k)
include hk

theorem State.refreshDie_past {die : Nat} (hdie : die < 4) : (s.refreshDie die).reg k = s.reg k :=
  State.refreshDie_reg (by simp only [Reg.dieCore]; omega)

theorem State.placeCores_past {die : Nat} (hdie : die < 4) : (s.placeCores die).reg k = s.reg k := by
  unfold State.placeCores
  rw [State.refreshDie_past hk hdie]
  refine List.foldlRecOn (motive := fun acc : State × List Nat => acc.1.reg k = s.reg k) _ _ rfl fun acc hacc i hi => ?_
  have hcore : Reg.coreMap (die * 48 + i) < 0x60000 := by
    have hi48 : i < 48 := List.mem_range.mp hi
    simp only [Reg.coreMap]
    omega
  split
  · split
    · exact (State.setFld_below_reg hk hcore _).trans hacc
    · exact (State.setFld_below_reg hk hcore _).trans hacc
  · exact hacc

theorem State.moveList_past {m : Nat} (hm : m < 192) (e : Nat) : (s.moveList m e).reg k = s.reg k := by
  have hmap : Reg.mrwMap m < 0x60000 := by
    simp only [Reg.mrwMap]
    omega
  unfold State.moveList State.bump
  rw [State.setFld_below_reg hk hmap, State.setFld_below_reg hk hmap, State.setFld_below_reg hk hmap]

theorem State.evacuate_past {st : Nat} (hst : st < 12) (e : Nat) : (s.evacuate st e).reg k = s.reg k := by
  unfold State.evacuate
  refine State.reg_foldl_mem _ (fun t m hm => ?_) s
  have hm192 : m < 192 := by
    unfold State.listsOn at hm
    obtain ⟨i, hi, rfl⟩ := List.mem_map.mp (List.mem_filter.mp hm).1
    have hi16 := List.mem_range.mp hi
    omega
  split
  · exact State.moveList_past hk hm192 _
  · exact State.setFld_below_reg hk (by simp only [Fld.mrwState, Reg.mrwMap]; omega) 3

theorem State.refreshMarrow_past {st : Nat} (hst : st < 12) : (s.refreshMarrow st).reg k = s.reg k := by
  have hdie : Reg.mrwDie st < 0x60000 := by
    simp only [Reg.mrwDie]
    omega
  unfold State.refreshMarrow
  rw [State.setFld_below_reg hk hdie, State.setFld_below_reg hk hdie, State.setFld_below_reg hk hdie]

theorem State.placeLists_past {st : Nat} (hst : st < 12) : (s.placeLists st).reg k = s.reg k := by
  unfold State.placeLists
  rw [State.refreshMarrow_past hk hst, State.reg_foldl_mem, State.reg_foldl_mem]
  · exact fun t e _ => State.evacuate_past hk hst e
  · intro t i hi
    have hi16 : i < 16 := List.mem_range.mp hi
    exact State.setFld_below_reg hk (by simp only [Fld.mrwMoves, Reg.mrwMap]; omega) 0

end

/-- Stage 2 up to the records: every core and every list placed. -/
def State.placed (s : State) : State :=
  (List.range 12).foldl (fun s t => s.placeLists t) ((List.range 4).foldl (fun s d => s.placeCores d) s)

theorem State.placed_past (hk : 0x60000 ≤ k) : s.placed.reg k = s.reg k := by
  unfold State.placed
  rw [State.reg_foldl_mem, State.reg_foldl_mem]
  · exact fun t d hd => State.placeCores_past hk (List.mem_range.mp hd)
  · exact fun t d hd => State.placeLists_past hk (List.mem_range.mp hd)

/-- Placing changes registers alone. -/
theorem State.placed_same {z : State} (h : s.same 2 z) : s.placed.same 2 z := by
  unfold State.placed
  refine List.foldlRecOn (motive := fun t : State => t.same 2 z) _ _ ?_ fun t ht st _ => State.placeLists_same t st (within_self _) ht
  exact List.foldlRecOn (motive := fun t : State => t.same 2 z) _ _ h fun t ht d _ => State.placeCores_same t d (within_self _) ht

/-- Without a record in the MRAM, stage 2 only notes that there is none. -/
def State.noRecords (s : State) : State :=
  (({ s with sec := { s.sec with records := [] } } : State).setFld Fld.siteKey 0).setFld Fld.remoteMbx 0

theorem State.applyRecords_none (h : s.mram.newest = []) : s.applyRecords = s.noRecords := by
  have hrecords : (List.range 8).filterMap (fun i => (s.mram.record (i + 1)).map (fun r => (i + 1, r))) = [] := by
    refine List.filterMap_eq_nil_iff.mpr fun i _ => ?_
    simp [Mram.record, h, Tab.find?]
  unfold State.applyRecords
  rw [hrecords]
  rfl

theorem State.noRecords_reg (hsec : k ≠ Reg.secStatus) (hstate : k ≠ Reg.devState) : s.noRecords.reg k = s.reg k := by
  unfold State.noRecords
  rw [State.reg_setFld_other _ _ _ _ hstate, State.reg_setFld_other _ _ _ _ hsec]
  rfl

theorem State.noRecords_power : s.noRecords.power = s.power := rfl
theorem State.noRecords_fabric : s.noRecords.fabric = s.fabric := rfl
theorem State.noRecords_ownSlow : s.noRecords.ownSlow = s.ownSlow := rfl

-- a slow notice

/-- A transaction without data takes one flit. -/
theorem txSlots_length {tx : Tx} (h : tx.data = []) : (txSlots tx).length = 1 := by
  have hheader : (txHeader tx).length = 32 := by simp only [txHeader, List.length_append, length_toLE]
  obtain ⟨b, r, hbytes⟩ := List.exists_cons_of_length_eq_add_one hheader
  simp only [txSlots, h, List.append_nil, hheader]
  rw [hbytes]
  rfl

section
variable {dst p : Nat} {tx : Tx}

/-- A route in use whose first port belongs to another device: it holds while nothing is announced of that port. -/
theorem State.route?_stray (hchosen : Tab.find? s.fabric.chosen dst = some [(2, p)]) (hp : 40 ≤ p) (hid : s.gdn ≠ 2)
    (hsilent : s.fabric.announced = []) : s.route? dst = some [(2, p)] := by
  have hport : s.portOf 2 p = (2, 2) := by
    unfold State.portOf
    rw [if_neg (Ne.symm hid), hsilent]
    rfl
  have hholds : s.pathHolds dst [(2, p)] = true := by
    simp [State.pathHolds, State.hopHolds, hp, State.inService, hport]
  unfold State.route?
  rw [hchosen]
  exact if_pos hholds

/-- A transaction that leaves by a fresh port is counted there. -/
theorem State.sendTx_counts (hroute : s.route? tx.dst = some [(2, p)]) (hfresh : s.fabric.ports = []) (hp : 40 ≤ p) (hdata : tx.data = []) :
    (s.sendTx tx).reg (Reg.portTx p) = (s.bump64 (Reg.portTx p) 1).reg (Reg.portTx p) := by
  have hslots := txSlots_length hdata
  unfold State.sendTx
  rw [hroute]
  have hport (chosen : Tab (List (Nat × Nat))) : ({ s with fabric := { s.fabric with chosen := chosen } } : State).port p = Port.zero := by
    show Tab.get Port.zero s.fabric.ports p = _
    rw [hfresh]
    rfl
  have htakes (chosen : Tab (List (Nat × Nat))) : ({ s with fabric := { s.fabric with chosen := chosen } } : State).portTakes p tx = true := by
    unfold State.portTakes
    rw [hport, hslots, replayCap, if_neg (by omega)]
    rfl
  simp only [State.sendBy, htakes, if_true, State.injectTx, List.length_map, List.length_zipIdx, hslots]
  rfl

end

theorem State.fld_whole (k : Nat) : s.fld ⟨k, 63, 0⟩ = (s.reg k).toNat := Nat.mod_eq_of_lt (s.reg k).isLt

/-- A saturating count that stands below its limit goes on by one. -/
theorem State.bump64_counts (h : (s.reg k).toNat + 1 < 2 ^ 64) : ((s.bump64 k 1).reg k).toNat = (s.reg k).toNat + 1 := by
  have hbelow : s.fld ⟨k, 63, 0⟩ + 1 < 2 ^ (63 - 0 + 1) := by
    rw [State.fld_whole]
    exact h
  have hcount : (s.bump64 k 1).fld ⟨k, 63, 0⟩ = s.fld ⟨k, 63, 0⟩ + 1 :=
    State.fld_bump_same (f := ⟨k, 63, 0⟩) (show 63 < 64 by decide) (Nat.zero_le 63) hbelow
  rwa [State.fld_whole, State.fld_whole] at hcount

-- an intervention of the power manager that begins

theorem State.intervenes_duty (h : s.power.duty < 16) : s.intervenes = true := by
  have hdie : s.dieDuty 0 < 16 := (Nat.min_le_left _ _).trans_lt ((Nat.min_le_left _ _).trans_lt h)
  have hany : (List.range 4).any (fun d => s.dieDuty d < 16) = true := List.any_eq_true.mpr ⟨0, by decide, decide_eq_true hdie⟩
  unfold State.intervenes
  rw [hany, Bool.or_true, Bool.true_or]

theorem State.interventionShown_begins (hduty : s.power.duty < 16) (hnone : s.ownSlow = []) :
    s.interventionShown = s.intervened.beginSlow 1 0 s.intervened.powerFactor := by
  have hslow : s.intervened.ownSlow = [] := hnone
  unfold State.interventionShown
  rw [if_pos (State.intervenes_duty hduty), hslow]
  rfl

theorem State.countIntervene_none (h : s.power.since = none) : s.countIntervene = s := by
  unfold State.countIntervene
  rw [h]

/-- What a change of power counts and shows lies in the registers, where no intervention has begun yet. -/
theorem State.waitsCounted_same {z : State} (hsince : s.power.since = none) (h : s.same 2 z) : s.waitsCounted.same 2 z := by
  unfold State.waitsCounted
  split
  · have hsettled := State.settleWaits_same s (within_self _) s.same_self
    have hpower : s.settleWaits.power = s.power := hsettled.power_eq (by decide)
    rw [State.countIntervene_none (by rw [hpower, hsince])]
    exact State.settleWaits_same s (within_self _) h
  · rw [State.countIntervene_none hsince]
    exact h

theorem State.clocksShown_same {z : State} (h : s.same 2 z) : s.clocksShown.same 2 z := by
  unfold State.clocksShown
  exact List.foldlRecOn (motive := fun t : State => t.same 2 z) _ _ h fun t ht d _ =>
    State.setFld_same _ _ _ (within_self _) (State.setFld_same _ _ _ (within_self _) ht)

theorem State.limitsShown_same {z : State} (h : s.same 2 z) : s.limitsShown.same 2 z := by
  unfold State.limitsShown
  exact State.setFld_same _ _ _ (within_self _) (State.setFld_same _ _ _ (within_self _) (State.setFld_same _ _ _ (within_self _)
    (State.setFld_same _ _ _ (within_self _) h)))

-- the device

/-- A device in stage 2 of a cold boot, with no record in its MRAM, its duty at 4/16, and a collective partner whose route is kept as
another device's port 0xFFF900. -/
def strayBoot : State :=
  { State.reset with
    regs := [(Reg.boot, 0x20000000)]
    power := { Power.zero with duty := 4 }
    fabric := { Fabric.zero with peers := [(0, ⟨1, true, false⟩)], chosen := [(1, [(2, 0xFFF900)])] } }

/-- The port's flit count would stand where DEV_FW_VERSION stands. -/
theorem Reg.portTx_stray : Reg.portTx 0xFFF900 = Reg.fwVersion := by decide

/-- Stage 2 before the power page is brought up to date, and with its clocks and limits shown. -/
def strayPlaced : State := ((strayBoot.setReg Reg.fwVersion (Config.fwVersion.zeroExtend 64)).setFld Fld.sstate 1).placed
def strayShown : State := strayPlaced.noRecords.waitsCounted.clocksShown.limitsShown

theorem strayPlaced_same : strayPlaced.same 2 strayBoot :=
  State.placed_same (State.setFld_same _ _ _ (within_self _) (State.setReg_same _ _ (within_self _) (State.same_self _)))

theorem strayPlaced_fabric : strayPlaced.fabric = strayBoot.fabric := strayPlaced_same.fabric_eq (by decide)
theorem strayPlaced_power : strayPlaced.power = strayBoot.power := strayPlaced_same.power_eq (by decide)
theorem strayPlaced_ownSlow : strayPlaced.ownSlow = [] := strayPlaced_same.ownSlow_eq (by decide)
theorem strayPlaced_newest : strayPlaced.mram.newest = [] := congrArg Mram.newest (strayPlaced_same.mram_eq (by decide))

theorem strayShown_same : strayShown.same 2 strayPlaced.noRecords := by
  have hsince : strayPlaced.noRecords.power.since = none := by
    rw [State.noRecords_power, strayPlaced_power]
    rfl
  exact State.limitsShown_same (State.clocksShown_same (State.waitsCounted_same hsince (State.same_self _)))

theorem strayShown_fabric : strayShown.fabric = strayBoot.fabric := by
  rw [strayShown_same.fabric_eq (by decide), State.noRecords_fabric, strayPlaced_fabric]

theorem strayShown_power : strayShown.power = strayBoot.power := by
  rw [strayShown_same.power_eq (by decide), State.noRecords_power, strayPlaced_power]

theorem strayShown_ownSlow : strayShown.ownSlow = [] := by
  rw [strayShown_same.ownSlow_eq (by decide), State.noRecords_ownSlow, strayPlaced_ownSlow]

theorem strayPlaced_reg (hk : 0x60000 ≤ k) (hfw : k ≠ Reg.fwVersion) (hsec : k ≠ Reg.secStatus) : strayPlaced.reg k = strayBoot.reg k := by
  unfold strayPlaced
  rw [State.placed_past hk, State.reg_setFld_other _ _ _ _ hsec, State.reg_setReg_other _ _ hfw]

theorem strayPlaced_fwVersion : strayPlaced.reg Reg.fwVersion = Config.fwVersion.zeroExtend 64 := by
  unfold strayPlaced
  rw [State.placed_past (by decide), State.reg_setFld_other _ _ _ _ (by decide), State.reg_setReg_same]

theorem strayShown_reg (hk : Reg.Steady k) (hsec : k ≠ Reg.secStatus) (hstate : k ≠ Reg.devState) : strayShown.reg k = strayPlaced.reg k := by
  unfold strayShown
  rw [State.limitsShown_reg hk, State.clocksShown_reg hk, State.waitsCounted_reg hk, State.noRecords_reg hsec hstate]

theorem strayShown_fwVersion : strayShown.reg Reg.fwVersion = Config.fwVersion.zeroExtend 64 := by
  rw [strayShown_reg ⟨by decide, by decide, by decide⟩ (by decide) (by decide), strayPlaced_fwVersion]

/-- The device's global number is 0. -/
theorem strayShown_gdn : strayShown.gdn = 0 := by
  have hreg : strayShown.reg Reg.fabDevId = strayBoot.reg Reg.fabDevId := by
    rw [strayShown_reg Reg.calm_fabDevId.toSteady (by decide) (by decide), strayPlaced_reg (by decide) (by decide) (by decide)]
  have hfld {f : Fld} (hf : f.key = Reg.fabDevId) : strayShown.fld f = strayBoot.fld f := State.fld_congr (hf ▸ hreg)
  rw [State.gdn, hfld rfl, hfld rfl, hfld rfl]
  decide

/-- The state whose slow notice goes out: the intervention is begun and remembered. -/
theorem State.sendSlow_one {peer : Nat} (hpartners : s.partners = [peer]) (factor cause : Nat) :
    (s.sendSlow factor cause) = (s.sendTx (s.slowNoticeTx peer factor cause)).excursion 7 := by
  unfold State.sendSlow
  rw [hpartners]
  rfl

theorem State.partners_congr {t : State} (hpeers : t.fabric.peers = s.fabric.peers) (hid : t.gdn = s.gdn) : t.partners = s.partners := by
  unfold State.partners
  rw [hpeers, hid]

/-- A slowdown remembered, before its notices go out. -/
def State.slowKept (s : State) (o : OwnSlow) : State :=
  { s with ownSlow := s.ownSlow.filter (fun p => !(p.cause = o.cause && p.unit = o.unit)) ++ [o] }

theorem State.startSlow_eq (o : OwnSlow) : s.startSlow o = (s.slowKept o).sendSlow ((s.slowKept o).slowOf o.cause) o.cause := rfl
theorem State.slowKept_partners (o : OwnSlow) : (s.slowKept o).partners = s.partners := rfl
theorem State.slowKept_fabric (o : OwnSlow) : (s.slowKept o).fabric = s.fabric := rfl
theorem State.slowKept_bump64 (o : OwnSlow) (k n : Nat) : ((s.slowKept o).bump64 k n).reg k = (s.bump64 k n).reg k := rfl

/-- The notice of an intervention that begins leaves by the stray port, and is counted there. -/
theorem State.beginSlow_counts {p cause unit factor : Nat} (hpartners : s.partners = [1])
    (hchosen : Tab.find? s.fabric.chosen 1 = some [(2, p)]) (hid : s.gdn ≠ 2) (hsilent : s.fabric.announced = [])
    (hfresh : s.fabric.ports = []) (hp : 40 ≤ p) :
    (s.beginSlow cause unit factor).reg (Reg.portTx p) = (s.bump64 (Reg.portTx p) 1).reg (Reg.portTx p) := by
  have hroute (o : OwnSlow) : (s.slowKept o).route? 1 = some [(2, p)] := State.route?_stray hchosen hp hid hsilent
  unfold State.beginSlow
  rw [State.startSlow_eq, State.sendSlow_one ((State.slowKept_partners _).trans hpartners), State.excursion_reg,
    State.sendTx_counts (hroute _) ((congrArg Fabric.ports (State.slowKept_fabric _)).trans hfresh) hp rfl, State.slowKept_bump64]

theorem strayIntervened_reg : strayShown.intervened.reg Reg.fwVersion = Config.fwVersion.zeroExtend 64 := by
  rw [State.intervened_reg ⟨by decide, by decide, by decide⟩, strayShown_fwVersion]

theorem strayIntervened_gdn : strayShown.intervened.gdn = 0 := by
  have hfld {f : Fld} (hf : f.key = Reg.fabDevId) : strayShown.intervened.fld f = strayShown.fld f :=
    State.fld_congr (hf ▸ State.intervened_reg Reg.calm_fabDevId.toSteady)
  have hid := strayShown_gdn
  unfold State.gdn at *
  rw [hfld rfl, hfld rfl, hfld rfl, hid]

theorem State.intervened_fabric : s.intervened.fabric = s.fabric := rfl

theorem strayIntervened_fabric : strayShown.intervened.fabric = strayBoot.fabric := by
  rw [State.intervened_fabric, strayShown_fabric]

theorem strayIntervened_partners : strayShown.intervened.partners = [1] := by
  unfold State.partners
  rw [strayIntervened_fabric, strayIntervened_gdn]
  decide

theorem stray_counts : strayPlaced.noRecords.refreshPower.reg Reg.fwVersion ≠ Config.fwVersion.zeroExtend 64 := by
  have hshown : strayPlaced.noRecords.refreshPower = strayShown.interventionShown := by rw [State.refreshPower_eq, strayShown]
  have hbegins : strayPlaced.noRecords.refreshPower = strayShown.intervened.beginSlow 1 0 strayShown.intervened.powerFactor := by
    have hduty : strayShown.power.duty < 16 := by
      rw [strayShown_power]
      decide
    rw [hshown, State.interventionShown_begins hduty strayShown_ownSlow]
  have hcount := State.beginSlow_counts (p := 0xFFF900) (cause := 1) (unit := 0) (factor := strayShown.intervened.powerFactor)
    strayIntervened_partners (by rw [strayIntervened_fabric]; rfl) (by rw [strayIntervened_gdn]; decide)
    (by rw [strayIntervened_fabric]; rfl) (by rw [strayIntervened_fabric]; rfl) (by decide)
  rw [Reg.portTx_stray] at hcount
  have hbelow : (strayShown.intervened.reg Reg.fwVersion).toNat + 1 < 2 ^ 64 := by
    have hwidth := Config.fwVersion.isLt
    rw [strayIntervened_reg, BitVec.toNat_setWidth_of_le (by decide)]
    omega
  intro h
  rw [hbegins, hcount] at h
  have hnext := State.bump64_counts hbelow
  rw [h, strayIntervened_reg] at hnext
  omega

theorem strayBoot_boots : strayBoot.booting = true ∧ max 1 (strayBoot.fld Fld.bootStage) = 2 := by decide

/-- What the end of stage 2 comes to there. -/
theorem strayBoot_done : exec (.bootStageComplete .ok 0 []) strayBoot = .next (strayPlaced.noRecords.refreshPower.setFld Fld.bootStage 3) := by
  obtain ⟨hboots, hstage⟩ := strayBoot_boots
  have hrecords : strayPlaced.applyRecords = strayPlaced.noRecords := State.applyRecords_none strayPlaced_newest
  have hdone : strayBoot.stageDone 2 0 [] = strayPlaced.applyRecords.refreshPower := rfl
  rw [← hrecords, ← hdone]
  refine congrArg Host.Outcome.next ?_
  rw [hstage]
  simp only [hboots, Bool.not_true, Bool.false_or, Nat.reduceEqDiff, decide_false, Bool.false_and, Bool.false_eq_true, if_false]

/-- Refutes O54: in `strayBoot` the end of stage 2 begins a power intervention, whose slow notice (R57) takes the route kept to its peer. The
statement lacks a premise that a route in use leaves by a port that exists: the flit count of port 0xFFF900 stands at DEV_FW_VERSION, which
the notice counts on. -/
theorem not_bootAndRecoveryGoStageByStage : ¬ Obligations.BootAndRecoveryGoStageByStage := by
  unfold Obligations.BootAndRecoveryGoStageByStage
  intro h
  obtain ⟨hboots, hstage⟩ := strayBoot_boots
  obtain ⟨-, hpasses⟩ := h.1 strayBoot 0 []
  obtain ⟨-, hsecond, -⟩ := hpasses hboots
  obtain ⟨t, hexec, -, hversion⟩ := hsecond hstage
  obtain rfl : strayPlaced.noRecords.refreshPower.setFld Fld.bootStage 3 = t := Host.Outcome.next.inj (strayBoot_done.symm.trans hexec)
  rw [State.reg_setFld_other _ _ _ _ (by decide)] at hversion
  exact stray_counts hversion

end Sys2Proof.Machine

namespace Sys2Proof.Machine

/-! O51, the reasoning rules: the slots of the module, what a write leaves of the checkpoint, and responses of every mailbox. -/

variable {s t : State} {k i : Nat} {x : Slot}

-- slots

theorem State.slot_congr (hA : t.ckpt.slotA = s.ckpt.slotA) (hB : t.ckpt.slotB = s.ckpt.slotB) (i : Nat) : t.slot i = s.slot i := by
  rw [State.slot, State.slot, hA, hB]

theorem State.slot_of_ckpt (h : t.ckpt = s.ckpt) (i : Nat) : t.slot i = s.slot i := State.slot_congr (by rw [h]) (by rw [h]) i

theorem State.slot_setSlot_same (i : Nat) (x : Slot) : (s.setSlot i x).slot i = x := by
  by_cases hi : i = 0
  · subst hi
    rfl
  · simp [State.setSlot, State.slot, State.onCkpt, State.setReg, hi]

theorem State.slot_setSlot_other (hi : i ≤ 1) (x : Slot) : (s.setSlot i x).slot (1 - i) = s.slot (1 - i) := by
  obtain rfl | rfl : i = 0 ∨ i = 1 := by omega
  · rfl
  · rfl

/-- The slots apart, a slot's write changes nothing of the checkpoint. -/
theorem State.setSlot_ckpt (i : Nat) (x : Slot) : (s.setSlot i x).ckpt = { s.ckpt with
    slotA := if i = 0 then x else s.ckpt.slotA, slotB := if i = 0 then s.ckpt.slotB else x } := by
  by_cases hi : i = 0 <;> simp [State.setSlot, State.onCkpt, State.setReg, hi]

/-- The register of a slot's generation. -/
def Reg.ckpGen (i : Nat) : Nat := if i = 0 then Reg.ckpGenA else Reg.ckpGenB

theorem State.reg_setSlot_gen (i : Nat) (x : Slot) :
    (s.setSlot i x).reg (Reg.ckpGen i) = BitVec.ofNat 64 (if x.committed then x.gen else 0) :=
  State.reg_setReg_same _ _ _

theorem State.reg_setSlot_other {r : Nat} (hA : r ≠ Reg.ckpGenA) (hB : r ≠ Reg.ckpGenB) (i : Nat) (x : Slot) :
    (s.setSlot i x).reg r = s.reg r := by
  have hr : r ≠ Reg.ckpGen i := by
    unfold Reg.ckpGen
    split
    · exact hA
    · exact hB
  exact State.reg_setReg_other _ _ hr

theorem State.targetSlot_le (s : State) : s.targetSlot ≤ 1 := by
  unfold State.targetSlot
  dsimp only
  split_ifs <;> decide

-- a write's copies

/-- Of the checkpoint, only the granules' copies differ. -/
def Ckpt.SameButCopies (c c' : Ckpt) : Prop := c = { c' with grans := c.grans }

theorem Ckpt.SameButCopies.of_eq {c c' : Ckpt} (h : c = c') : c.SameButCopies c' := by subst h; rfl

theorem Ckpt.SameButCopies.trans {a b c : Ckpt} (hab : a.SameButCopies b) (hbc : b.SameButCopies c) : a.SameButCopies c := by
  unfold Ckpt.SameButCopies at *
  rw [hab, hbc]

theorem State.commitWrite_ckpt (w : WaitWrite) : (s.commitWrite w).1.ckpt = s.ckpt :=
  (State.commitWrite_same s w (within_self _) s.same_self).ckpt_eq (by decide)

theorem State.undoFills_ckpt : s.undoFills.ckpt = s.ckpt := (State.undoFills_same s (within_self _) s.same_self).ckpt_eq (by decide)

theorem State.serveWrite_copies (w : WaitWrite) : (s.serveWrite w).1.ckpt.SameButCopies s.ckpt := by
  unfold State.serveWrite
  split
  · exact .of_eq (State.commitWrite_ckpt w)
  · exact .of_eq ((State.commitWrite_ckpt w).trans State.undoFills_ckpt)
  · exact .of_eq rfl
  · exact .of_eq rfl
  · rfl
  · exact .of_eq rfl

theorem State.serveWrites_copies (ws : List WaitWrite) : ∀ s : State, (s.serveWrites ws).ckpt.SameButCopies s.ckpt := by
  induction ws with
  | nil => exact fun s => .of_eq rfl
  | cons w ws ih =>
    intro s
    have hw := State.serveWrite_copies (s := s) w
    unfold State.serveWrites
    split
    · exact ih _
    split
    case h_1 s1 e => exact (ih s1).trans (by rw [e] at hw; exact hw)
    case h_2 s1 w1 e => exact (ih _).trans (by rw [e] at hw; exact hw)

theorem State.writePiece_copies (o : Origin) (tag : Option Tag) (a : Nat) (bs : List Byte) :
    (s.writePiece o tag a bs).ckpt.SameButCopies s.ckpt := by
  unfold State.writePiece
  split
  · exact State.serveWrites_copies _ s
  split
  · exact State.serveWrites_copies _ s
  · exact .of_eq ((State.store_same o a bs tag (within_self _) s.same_self).ckpt_eq (by decide))

/-- A write leaves the slots and what the running checkpoint and exporting are. -/
theorem State.write_copies (o : Origin) (a : Nat) (bs : List Byte) : (s.write o a bs).ckpt.SameButCopies s.ckpt := by
  unfold State.write
  induction tilePieces a bs generalizing s with
  | nil => exact .of_eq rfl
  | cons p ps ih => exact ih.trans (State.writePiece_copies o none p.1 p.2)

/-- Two states between which only writes lie: the checkpoint but for its copies, the running step and the job are the same. -/
structure State.Undisturbed (t s : State) : Prop where
  ckpt : t.ckpt.SameButCopies s.ckpt
  step : t.tick.SameStep s.tick
  job : t.job = s.job

theorem State.Undisturbed.refl (s : State) : s.Undisturbed s := ⟨.of_eq rfl, .rfl, rfl⟩

theorem State.Undisturbed.trans {a b c : State} (hab : a.Undisturbed b) (hbc : b.Undisturbed c) : a.Undisturbed c :=
  ⟨hab.ckpt.trans hbc.ckpt, hab.step.trans hbc.step, hab.job.trans hbc.job⟩

theorem State.Undisturbed.bump64 (h : t.Undisturbed s) (r n : Nat) : (t.bump64 r n).Undisturbed s := ⟨h.ckpt, h.step, h.job⟩

theorem State.Undisturbed.setQueue (h : t.Undisturbed s) (q : Nat) (x : Queue) : (t.setQueue q x).Undisturbed s := ⟨h.ckpt, h.step, h.job⟩

theorem State.Undisturbed.foldl {α : Type} {f : State → α → State} (h : ∀ s a, (f s a).Undisturbed s) (as : List α) :
    ∀ s : State, (as.foldl f s).Undisturbed s := by
  induction as with
  | nil => exact fun s => .refl s
  | cons a as ih => exact fun s => (ih (f s a)).trans (h s a)

theorem State.write_undisturbed (o : Origin) (a : Nat) (bs : List Byte) : (s.write o a bs).Undisturbed s :=
  ⟨State.write_copies o a bs, State.write_sameStep o a bs, (State.write_same s o a bs (within_self _) s.same_self).job_eq (by decide)⟩

-- the queues at the capture instant

theorem State.spill_undisturbed (o : Origin) (counted : Bool) (q a : Nat) (bs : List Byte) : (s.spill o counted q a bs).Undisturbed s := by
  unfold State.spill
  split
  · exact .refl s
  dsimp only
  split
  · exact (State.write_undisturbed _ _ _).bump64 _ _
  · exact State.write_undisturbed _ _ _

theorem State.writeBack_undisturbed (o : Origin) (q : Nat) : (s.writeBack o q).Undisturbed s := by
  unfold State.writeBack
  exact (State.Undisturbed.foldl (fun s e => State.spill_undisturbed _ _ _ _ _) _ s).setQueue _ _

theorem State.saveRecord_undisturbed (o : Origin) (q : Nat) : (s.saveRecord o q).Undisturbed s := by
  unfold State.saveRecord
  split
  · exact .refl s
  · exact State.write_undisturbed _ _ _

theorem State.captureQueue_undisturbed (q : Nat) : (s.captureQueue q).Undisturbed s := by
  unfold State.captureQueue
  split
  · exact .refl s
  split
  · exact .refl s
  · exact ((State.saveRecord_undisturbed _ _).trans (State.writeBack_undisturbed _ _)).setQueue _ _

-- the capture

/-- The state with the job's queues written back (R367). -/
def State.queuesSaved (s : State) : State := (s.qdefs.map (fun e => e.1)).foldl (fun s q => s.captureQueue q) s

theorem State.queuesSaved_undisturbed : s.queuesSaved.Undisturbed s :=
  State.Undisturbed.foldl (fun _ q => State.captureQueue_undisturbed q) _ s

/-- What the target slot takes at the capture instant (R365, R374). -/
def State.latched (s : State) : Slot := { Slot.empty with
  gen := s.ckpt.gen
  captureTick := s.tick.stepTick
  stepIndex := s.fld ⟨Reg.stepIndex, 63, 0⟩
  captureTime := s.tick.stepTime
  context := s.contextBytes }

/-- The state whose target slot has the context, and whose copy of these granules begins. -/
def State.copyBegun (s : State) (gs : Tab Gran) : State :=
  let s2 := (((s.setSlot s.targetSlot s.latched).send (.moduleWrite s.targetSlot 0)).toModule 4096).onCkpt (fun c => { c with
    grans := gs, writing := some s.targetSlot })
  let s3 := ((s2.setFld Fld.ckpSlot s.targetSlot).setReg Reg.ckpTotal (BitVec.ofNat 64 gs.length)).setReg Reg.ckpDone 0
  (s3.setReg Reg.ckpCaptureTick (BitVec.ofNat 64 s3.tick.stepTick)).setFld Fld.ckpState 2

theorem exec_checkpointCapture_due (hdue : s.captureDue = true) : exec .checkpointCapture s = .next (
    let gs := s.queuesSaved.pieceGranules (s.queuesSaved.job.map (fun j => j.pieces)).toList.flatten
    if gs = [] then (s.queuesSaved.copyBegun gs).writeManifest s.queuesSaved.targetSlot else s.queuesSaved.copyBegun gs) :=
  congrArg Host.Outcome.next (if_neg (by rw [hdue]; decide))

theorem exec_checkpointCapture_notDue (hdue : s.captureDue = false) : exec .checkpointCapture s = .next s :=
  congrArg Host.Outcome.next (if_pos (by rw [hdue]; rfl))

theorem State.copyBegun_slot (gs : Tab Gran) (i : Nat) : (s.copyBegun gs).slot i = (s.setSlot s.targetSlot s.latched).slot i :=
  State.slot_congr rfl rfl i

theorem State.copyBegun_state (gs : Tab Gran) : (s.copyBegun gs).fld Fld.ckpState = 2 :=
  State.fld_setFld_same _ _ _ (by decide) (by decide)

theorem State.copyBegun_done (gs : Tab Gran) : (s.copyBegun gs).reg Reg.ckpDone = 0 := by
  unfold State.copyBegun
  rw [State.reg_setFld_other _ _ _ _ (by decide), State.reg_setReg_other _ _ (by decide), State.reg_setReg_same]

theorem State.copyBegun_tick (gs : Tab Gran) : (s.copyBegun gs).reg Reg.ckpCaptureTick = BitVec.ofNat 64 s.tick.stepTick := by
  unfold State.copyBegun
  rw [State.reg_setFld_other _ _ _ _ (by decide), State.reg_setReg_same]
  rfl

-- manifest and commit record

theorem Slot.length_commitRecord (x : Slot) (s : State) (i : Nat) (rs : List ShardRec) : (x.commitRecord s i rs).length = 4096 := by
  simp only [Slot.commitRecord, List.length_append, length_toLE, length_sha384Bytes, List.length_replicate]

/-- A slot with its records, manifest and commit record (R374). -/
def Slot.closed (x : Slot) (s : State) (i : Nat) (j : Job) : Slot :=
  let rs := x.records s j.pieces
  let x1 : Slot := { x with manifest := x.manifestOf s j rs, shard := shardBytes rs, data := [], context := [] }
  { x1 with commit := x1.commitRecord s i rs }

/-- The state with a slot's manifest and commit record on their way to the module. -/
def State.closing (s : State) (i : Nat) (x : Slot) (n : Nat) : State :=
  ((((((s.setSlot i x).send (.moduleWrite i 1)).send .moduleFlush).send (.moduleWrite i 2)).send .moduleFlush).toModule n).setFld
    Fld.ckpState 3

theorem State.writeManifest_some {j : Job} (hj : s.job = some j) (i : Nat) : ∃ n, s.writeManifest i = s.closing i ((s.slot i).closed s i j) n := by
  unfold State.writeManifest
  rw [hj]
  exact ⟨_, rfl⟩

theorem State.writeManifest_none (hj : s.job = none) (i : Nat) : s.writeManifest i = s := by
  unfold State.writeManifest
  rw [hj]

theorem State.closing_slot (i : Nat) (x : Slot) (n j : Nat) : (s.closing i x n).slot j = (s.setSlot i x).slot j :=
  State.slot_congr rfl rfl j

theorem State.closing_ckpt (i : Nat) (x : Slot) (n : Nat) : (s.closing i x n).ckpt = (s.setSlot i x).ckpt := rfl

theorem State.closing_state (i : Nat) (x : Slot) (n : Nat) : (s.closing i x n).fld Fld.ckpState = 3 :=
  State.fld_setFld_same _ _ _ (by decide) (by decide)

theorem State.closing_reg {r : Nat} (hA : r ≠ Reg.ckpGenA) (hB : r ≠ Reg.ckpGenB) (hbytes : r ≠ Reg.moduleBytes) (hstatus : r ≠ Reg.ckpStatus)
    (i : Nat) (x : Slot) (n : Nat) : (s.closing i x n).reg r = s.reg r := by
  unfold State.closing State.toModule State.bump64 State.bump
  rw [State.reg_setFld_other _ _ _ _ hstatus, State.reg_setFld_other _ _ _ _ hbytes]
  exact State.reg_setSlot_other hA hB i x

/-- What the last granule leaves: the target's identity, the other slot, and what is not the checkpoint's. -/
structure State.Closes (t s : State) (i : Nat) : Prop where
  committed : (t.slot i).committed = (s.slot i).committed
  gen : (t.slot i).gen = (s.slot i).gen
  captureTick : (t.slot i).captureTick = (s.slot i).captureTick
  other : i ≤ 1 → t.slot (1 - i) = s.slot (1 - i)
  grans : t.ckpt.grans = s.ckpt.grans
  writing : t.ckpt.writing = s.ckpt.writing
  done : t.reg Reg.ckpDone = s.reg Reg.ckpDone
  tick : t.reg Reg.ckpCaptureTick = s.reg Reg.ckpCaptureTick
  mem : t.mem = s.mem
  tags : t.tags = s.tags
  job : t.job = s.job

theorem State.writeManifest_closes (s : State) (i : Nat) : (s.writeManifest i).Closes s i := by
  cases hj : s.job with
  | none =>
    rw [State.writeManifest_none hj]
    exact ⟨rfl, rfl, rfl, fun _ => rfl, rfl, rfl, rfl, rfl, rfl, rfl, rfl⟩
  | some j =>
    obtain ⟨n, h⟩ := State.writeManifest_some hj i
    rw [h]
    have hslot := State.closing_slot (s := s) i ((s.slot i).closed s i j) n
    have hsame : (s.closing i ((s.slot i).closed s i j) n).slot i = (s.slot i).closed s i j := (hslot i).trans (State.slot_setSlot_same i _)
    refine ⟨by rw [hsame]; rfl, by rw [hsame]; rfl, by rw [hsame]; rfl, fun hi => (hslot _).trans (State.slot_setSlot_other hi _), ?_, ?_,
      State.closing_reg (by decide) (by decide) (by decide) (by decide) i _ n, State.closing_reg (by decide) (by decide) (by decide) (by decide) i _ n,
      rfl, rfl, rfl⟩
    · rw [State.closing_ckpt, State.setSlot_ckpt]
    · rw [State.closing_ckpt, State.setSlot_ckpt]

theorem State.writeManifest_state (hj : s.job.isSome = true) (i : Nat) : (s.writeManifest i).fld Fld.ckpState = 3 := by
  obtain ⟨j, hj⟩ := Option.isSome_iff_exists.mp hj
  obtain ⟨n, h⟩ := State.writeManifest_some hj i
  rw [h]
  exact State.closing_state i _ n

theorem State.writeManifest_commit (hj : s.job.isSome = true) (i : Nat) : ((s.writeManifest i).slot i).commit.length = 4096 := by
  obtain ⟨j, hj⟩ := Option.isSome_iff_exists.mp hj
  obtain ⟨n, h⟩ := State.writeManifest_some hj i
  rw [h, State.closing_slot, State.slot_setSlot_same]
  exact Slot.length_commitRecord _ _ _ _

-- the capture is taken

theorem State.targetSlot_congr (h : t.ckpt.SameButCopies s.ckpt) : t.targetSlot = s.targetSlot := by
  unfold State.targetSlot
  rw [h]

/-- The copy of a state between which and `s` only writes lie begins as the capture of `s` says. -/
structure State.Captures (t s : State) : Prop where
  writing : t.ckpt.writing = some s.targetSlot
  committed : (t.slot s.targetSlot).committed = false
  gen : (t.slot s.targetSlot).gen = s.ckpt.gen
  captureTick : (t.slot s.targetSlot).captureTick = s.tick.stepTick
  other : t.slot (1 - s.targetSlot) = s.slot (1 - s.targetSlot)
  done : t.reg Reg.ckpDone = 0
  tick : t.reg Reg.ckpCaptureTick = BitVec.ofNat 64 s.tick.stepTick
  job : t.job = s.job

theorem State.copyBegun_captures (gs : Tab Gran) : (s.copyBegun gs).Captures s := by
  have hslot : (s.copyBegun gs).slot s.targetSlot = s.latched := (State.copyBegun_slot gs _).trans (State.slot_setSlot_same _ _)
  refine ⟨?_, by rw [hslot]; rfl, by rw [hslot]; rfl, by rw [hslot]; rfl, ?_, State.copyBegun_done gs, State.copyBegun_tick gs, ?_⟩
  · rfl
  · rw [State.copyBegun_slot, State.slot_setSlot_other s.targetSlot_le]
  · rfl

theorem State.Captures.of_undisturbed {y : State} (h : t.Captures y) (hy : y.Undisturbed s) : t.Captures s := by
  have htarget := State.targetSlot_congr hy.ckpt
  have hslot : ∀ i, y.slot i = s.slot i := State.slot_congr (by rw [hy.ckpt]) (by rw [hy.ckpt])
  have hgen : y.ckpt.gen = s.ckpt.gen := by rw [hy.ckpt]
  obtain ⟨hwriting, hcommitted, hg, htick, hother, hdone, hreg, hjob⟩ := h
  rw [htarget] at hwriting hcommitted hg htick hother
  rw [hy.step.stepTick] at htick hreg
  exact ⟨hwriting, hcommitted, hg.trans hgen, htick, hother.trans (hslot _), hdone, hreg, hjob.trans hy.job⟩

theorem State.Captures.of_closes {y : State} (hy : y.Captures s) (h : t.Closes y s.targetSlot) : t.Captures s :=
  ⟨h.writing.trans hy.writing, h.committed.trans hy.committed, h.gen.trans hy.gen, h.captureTick.trans hy.captureTick,
    (h.other s.targetSlot_le).trans hy.other, h.done.trans hy.done, h.tick.trans hy.tick, h.job.trans hy.job⟩

/-- A capture that is due: the target latched, and the copy begun, or with no granule to copy the manifest written at once. -/
theorem State.captureDue_captures (hdue : s.captureDue = true) : ∃ t, exec .checkpointCapture s = .next t ∧ t.Captures s ∧
    (t.ckpt.grans ≠ [] → t.fld Fld.ckpState = 2) ∧ (t.ckpt.grans = [] → s.job.isSome = true → t.fld Fld.ckpState = 3) := by
  have hsaved := State.queuesSaved_undisturbed (s := s)
  refine ⟨_, exec_checkpointCapture_due hdue, ?_⟩
  dsimp only
  generalize s.queuesSaved.pieceGranules (s.queuesSaved.job.map (fun j => j.pieces)).toList.flatten = gs
  have hbegun := (State.copyBegun_captures (s := s.queuesSaved) gs).of_undisturbed hsaved
  split
  case isTrue hnone =>
    have hcloses := State.writeManifest_closes (s.queuesSaved.copyBegun gs) s.queuesSaved.targetSlot
    have hgrans : (s.queuesSaved.copyBegun gs).ckpt.grans = gs := rfl
    refine ⟨hbegun.of_closes (State.targetSlot_congr hsaved.ckpt ▸ hcloses), fun h => absurd (hcloses.grans.trans (hgrans.trans hnone)) h,
      fun _ hj => State.writeManifest_state ?_ _⟩
    rw [hbegun.job]
    exact hj
  case isFalse hsome =>
    exact ⟨hbegun, fun _ => State.copyBegun_state gs, fun h => absurd h hsome⟩

end Sys2Proof.Machine

namespace Sys2Proof.Machine

/-! O51: the copy granule by granule, the commit, and checkpoints that are abandoned or discarded (R368, R374, R376, R384). -/

variable {s t : State} {k i g : Nat} {x : Slot}

-- a 32-bit counter register

theorem setBits_low32 {r : Word64} (hr : r.toNat < 2 ^ 32) (v : Nat) : setBits r 31 0 v = BitVec.ofNat 64 (v % 2 ^ 32) := by
  have hclear : r &&& ~~~(BitVec.ofNat 64 ((2 ^ (31 - 0 + 1) - 1) <<< 0)) = 0#64 := by
    refine BitVec.eq_of_getLsbD_eq fun i hi => ?_
    have hmask : (BitVec.ofNat 64 ((2 ^ (31 - 0 + 1) - 1) <<< 0)).getLsbD i = decide (i < 32) := by
      rw [BitVec.getLsbD_ofNat, decide_eq_true hi, Bool.true_and]
      exact Nat.testBit_two_pow_sub_one 32 i
    rw [BitVec.getLsbD_and, BitVec.getLsbD_not, hmask, decide_eq_true hi, Bool.true_and, BitVec.getLsbD_zero]
    by_cases hlow : i < 32
    · simp [hlow]
    · have hbit : r.getLsbD i = false := Nat.testBit_lt_two_pow (lt_of_lt_of_le hr (Nat.pow_le_pow_right (by decide) (by omega)))
      rw [hbit, Bool.false_and]
  unfold setBits
  dsimp only
  rw [hclear, BitVec.zero_or]
  rfl

theorem State.bump32_counts {r : Nat} (hr : (s.reg r).toNat < 2 ^ 32 - 1) : ((s.bump32 r 1).reg r).toNat = (s.reg r).toNat + 1 := by
  have hfld : s.fld ⟨r, 31, 0⟩ = (s.reg r).toNat := Nat.mod_eq_of_lt (by simp only [Nat.shiftRight_zero]; omega)
  have hreg : (s.bump32 r 1).reg r = setBits (s.reg r) 31 0 (min (s.fld ⟨r, 31, 0⟩ + 1) (2 ^ (31 - 0 + 1) - 1)) := State.reg_setReg_same _ _ _
  rw [hreg, setBits_low32 (by omega), hfld, BitVec.toNat_ofNat]
  omega

-- one granule

/-- The image of a granule that goes to the module: the one saved before a write, or what stands there (R368). -/
def State.copyOf (s : State) (g : Nat) : Image :=
  match Tab.find? s.ckpt.grans g with
  | some (.saved im) => im
  | _ => s.imageOf g

/-- The state with a granule's image in its slot and on the module. -/
def State.granuleTaken (s : State) (i g : Nat) (im : Image) : State :=
  let s1 := (s.setSlot i { s.slot i with data := Tab.put g im (s.slot i).data }).onCkpt (fun c => { c with grans := Tab.del g c.grans })
  ((s1.bump32 Reg.ckpDone 1).toModule (65536 + 128)).send (.moduleWrite i 3)

/-- The place of a saved granule in the reserve freed. -/
def State.placeFreed (s : State) (stack : Nat) (saved : Bool) : State :=
  if saved then s.setReg (Reg.cbwUsed stack) (BitVec.ofNat 64 ((s.reg (Reg.cbwUsed stack)).toNat - 1)) else s

/-- The manifest follows the last granule. -/
def State.closedIfLast (s : State) (i : Nat) : State := if s.ckpt.grans = [] then s.writeManifest i else s

theorem exec_parsnipGranuleDone_takes (hwriting : s.ckpt.writing = some i) (hstate : s.fld Fld.ckpState = 2)
    (hnext : s.nextGranule (granuleStack g) = some g) : ∃ saved, exec (.parsnipGranuleDone g) s =
      .next (((s.granuleTaken i g (s.copyOf g)).placeFreed (granuleStack g) saved).closedIfLast i).goOn := by
  have harm : exec (.parsnipGranuleDone g) s = execParsnipGranuleDone g s := rfl
  rw [harm, execParsnipGranuleDone, hwriting, hstate, decide_eq_true hnext, State.copyOf]
  cases hfind : Tab.find? s.ckpt.grans g with
  | none => exact ⟨false, rfl⟩
  | some y =>
    cases y with
    | saved im => exact ⟨true, rfl⟩
    | pending => exact ⟨false, rfl⟩
    | saving im => exact ⟨false, rfl⟩

theorem exec_parsnipGranuleDone_void (h : s.ckpt.writing = none ∨ s.fld Fld.ckpState ≠ 2 ∨ s.nextGranule (granuleStack g) ≠ some g) :
    exec (.parsnipGranuleDone g) s = .next s := by
  refine congrArg Host.Outcome.next ?_
  split
  next hwriting hstate hnext =>
    rcases h with h | h | h
    · rw [h] at hwriting
      cases hwriting
    · exact absurd hstate h
    · exact absurd (of_decide_eq_true hnext) h
  · rfl

theorem State.setSlot_grans (i : Nat) (x : Slot) : (s.setSlot i x).ckpt.grans = s.ckpt.grans := by rw [State.setSlot_ckpt]
theorem State.setSlot_exporting (i : Nat) (x : Slot) : (s.setSlot i x).ckpt.exporting = s.ckpt.exporting := by rw [State.setSlot_ckpt]

theorem State.onCkpt_reg (f : Ckpt → Ckpt) (r : Nat) : (s.onCkpt f).reg r = s.reg r := rfl
theorem State.toModule_reg {r : Nat} (n : Nat) (h : r ≠ Reg.moduleBytes) : (s.toModule n).reg r = s.reg r := State.bump64_reg h n
theorem State.bump32_reg {c r : Nat} (n : Nat) (h : r ≠ c) : (s.bump32 c n).reg r = s.reg r := State.reg_setFld_other _ _ _ _ h

theorem State.granuleTaken_grans (im : Image) : (s.granuleTaken i g im).ckpt.grans = Tab.del g s.ckpt.grans := by
  have hgrans : (s.granuleTaken i g im).ckpt.grans = Tab.del g (s.setSlot i { s.slot i with data := Tab.put g im (s.slot i).data }).ckpt.grans := rfl
  rw [hgrans, State.setSlot_grans]

theorem State.granuleTaken_slot (im : Image) : (s.granuleTaken i g im).slot i = { s.slot i with data := Tab.put g im (s.slot i).data } := by
  have hslot : (s.granuleTaken i g im).slot i = (s.setSlot i { s.slot i with data := Tab.put g im (s.slot i).data }).slot i :=
    State.slot_congr rfl rfl i
  rw [hslot, State.slot_setSlot_same]

theorem State.granuleTaken_state (im : Image) : (s.granuleTaken i g im).fld Fld.ckpState = s.fld Fld.ckpState := by
  refine State.fld_congr ?_
  unfold State.granuleTaken
  dsimp only
  rw [State.send_reg, State.toModule_reg _ (by decide), State.bump32_reg _ (by decide), State.onCkpt_reg,
    State.reg_setSlot_other (by decide) (by decide)]

theorem State.granuleTaken_done (im : Image) (hdone : (s.reg Reg.ckpDone).toNat < 2 ^ 32 - 1) :
    ((s.granuleTaken i g im).reg Reg.ckpDone).toNat = (s.reg Reg.ckpDone).toNat + 1 := by
  have hsame : ((s.setSlot i { s.slot i with data := Tab.put g im (s.slot i).data }).onCkpt (fun c => { c with grans := Tab.del g c.grans })).reg
      Reg.ckpDone = s.reg Reg.ckpDone := by
    rw [State.onCkpt_reg, State.reg_setSlot_other (by decide) (by decide)]
  unfold State.granuleTaken
  dsimp only
  rw [State.send_reg, State.toModule_reg _ (by decide), State.bump32_counts (by rw [hsame]; exact hdone), hsame]

theorem State.placeFreed_ckpt (stack : Nat) (saved : Bool) : (s.placeFreed stack saved).ckpt = s.ckpt := by cases saved <;> rfl
theorem State.placeFreed_mem (stack : Nat) (saved : Bool) : (s.placeFreed stack saved).mem = s.mem := by cases saved <;> rfl
theorem State.placeFreed_tags (stack : Nat) (saved : Bool) : (s.placeFreed stack saved).tags = s.tags := by cases saved <;> rfl
theorem State.placeFreed_job (stack : Nat) (saved : Bool) : (s.placeFreed stack saved).job = s.job := by cases saved <;> rfl

/-- The registers of the reserve lie behind those of the copy's progress. -/
theorem State.placeFreed_reg {r stack : Nat} (hr : r < 0x80040) (saved : Bool) : (s.placeFreed stack saved).reg r = s.reg r := by
  cases saved with
  | false => rfl
  | true => exact State.reg_setReg_other _ _ (by unfold Reg.cbwUsed; omega)

theorem State.closedIfLast_open (h : s.ckpt.grans ≠ []) : s.closedIfLast i = s := if_neg h

theorem State.closedIfLast_closes (s : State) (i : Nat) : (s.closedIfLast i).Closes s i := by
  unfold State.closedIfLast
  split
  · exact State.writeManifest_closes s i
  · exact ⟨rfl, rfl, rfl, fun _ => rfl, rfl, rfl, rfl, rfl, rfl, rfl, rfl⟩

/-- What the copy of one granule comes to, before the requests that waited for it go on. -/
theorem State.granule_copied (s : State) (i g : Nat) (saved : Bool) : ∀ u,
    u = ((s.granuleTaken i g (s.copyOf g)).placeFreed (granuleStack g) saved).closedIfLast i →
      u.ckpt.grans = Tab.del g s.ckpt.grans ∧ u.mem = s.mem ∧ u.tags = s.tags ∧ u.job = s.job ∧
      ((s.reg Reg.ckpDone).toNat < 2 ^ 32 - 1 → (u.reg Reg.ckpDone).toNat = (s.reg Reg.ckpDone).toNat + 1) ∧
      (u.ckpt.grans ≠ [] → Tab.find? (u.slot i).data g = some (s.copyOf g) ∧ u.fld Fld.ckpState = s.fld Fld.ckpState) ∧
      (u.ckpt.grans = [] → s.job.isSome = true → u.fld Fld.ckpState = 3 ∧ (u.slot i).commit.length = 4096) := by
  rintro u rfl
  generalize hy : (s.granuleTaken i g (s.copyOf g)).placeFreed (granuleStack g) saved = y
  have hckpt : y.ckpt = (s.granuleTaken i g (s.copyOf g)).ckpt := by rw [← hy, State.placeFreed_ckpt]
  have hjob : y.job = s.job := by rw [← hy, State.placeFreed_job]; rfl
  have hgrans : y.ckpt.grans = Tab.del g s.ckpt.grans := by rw [hckpt, State.granuleTaken_grans]
  have hcloses := State.closedIfLast_closes y i
  refine ⟨hcloses.grans.trans hgrans, hcloses.mem.trans (by rw [← hy, State.placeFreed_mem]; rfl),
    hcloses.tags.trans (by rw [← hy, State.placeFreed_tags]; rfl), hcloses.job.trans hjob, fun hdone => ?counted, fun hopen => ?open_, fun hlast hj => ?last⟩
  case counted =>
    rw [hcloses.done, ← hy, State.placeFreed_reg (by decide), State.granuleTaken_done _ hdone]
  case open_ =>
    rw [State.closedIfLast_open (hcloses.grans ▸ hopen)]
    refine ⟨?_, ?_⟩
    · rw [State.slot_of_ckpt hckpt, State.granuleTaken_slot, Tab.find?_put_same]
    · rw [← hy, State.fld_congr (State.placeFreed_reg (by decide) saved), State.granuleTaken_state]
  case last =>
    have hlasty : y.closedIfLast i = y.writeManifest i := if_pos (hcloses.grans.symm.trans hlast)
    have hjy : y.job.isSome = true := by rw [hjob]; exact hj
    rw [hlasty]
    exact ⟨State.writeManifest_state hjy i, State.writeManifest_commit hjy i⟩

-- the commit

theorem State.ckpIdle_ckpt : s.ckpIdle.ckpt = s.ckpt := by
  unfold State.ckpIdle
  split <;> rfl

theorem State.ckpIdle_mem : s.ckpIdle.mem = s.mem := by
  unfold State.ckpIdle
  split <;> rfl

theorem State.ckpIdle_state : s.ckpIdle.fld Fld.ckpState = if s.ckpt.exporting.isSome then 4 else 0 := by
  unfold State.ckpIdle
  cases s.ckpt.exporting with
  | none => exact State.fld_setFld_same _ _ _ (by decide) (by decide)
  | some e =>
    refine (State.fld_setFld_other _ _ _ _ (by decide) (by decide) (by decide) (by decide)).trans ?_
    exact State.fld_setFld_same _ _ _ (by decide) (by decide)

/-- The state whose slot is committed (R374). -/
def State.committed (s : State) (i : Nat) : State :=
  ((s.setSlot i { s.slot i with committed := true }).onCkpt (fun c => { c with writing := none })).ckpIdle.setFld Fld.ckpLast Status.success

theorem exec_checkpointCommit_commits (hwriting : s.ckpt.writing = some i) (hstate : s.fld Fld.ckpState = 3) :
    exec .checkpointCommit s = .next ((s.committed i).endLongCode 0x401 Status.success 0) := by
  have harm : exec .checkpointCommit s = execCheckpointCommit s := rfl
  rw [harm, execCheckpointCommit, hwriting]
  exact congrArg Host.Outcome.next (if_pos hstate)

theorem exec_checkpointCommit_void (h : s.ckpt.writing = none ∨ s.fld Fld.ckpState ≠ 3) : exec .checkpointCommit s = .next s := by
  have harm : exec .checkpointCommit s = execCheckpointCommit s := rfl
  rw [harm, execCheckpointCommit]
  cases hwriting : s.ckpt.writing with
  | none => rfl
  | some i => exact congrArg Host.Outcome.next (if_neg (h.resolve_left (by rw [hwriting]; exact Option.some_ne_none i)))

theorem State.committed_ckpt (i : Nat) : (s.committed i).ckpt = { (s.setSlot i { s.slot i with committed := true }).ckpt with writing := none } := by
  unfold State.committed
  rw [State.setFld_ckpt, State.ckpIdle_ckpt]
  rfl

theorem State.committed_slot (i j : Nat) : (s.committed i).slot j = (s.setSlot i { s.slot i with committed := true }).slot j :=
  State.slot_congr (by rw [State.committed_ckpt]) (by rw [State.committed_ckpt]) j

theorem State.committed_mem (i : Nat) : (s.committed i).mem = s.mem := by
  unfold State.committed
  rw [State.setFld_mem, State.ckpIdle_mem]
  rfl

theorem State.committed_last (i : Nat) : (s.committed i).fld Fld.ckpLast = Status.success :=
  State.fld_setFld_same _ _ _ (by decide) (by decide)

theorem State.committed_state (i : Nat) : (s.committed i).fld Fld.ckpState = if s.ckpt.exporting.isSome then 4 else 0 := by
  have hexport : ((s.setSlot i { s.slot i with committed := true }).onCkpt (fun c => { c with writing := none })).ckpt.exporting =
      s.ckpt.exporting := State.setSlot_exporting i _
  unfold State.committed
  rw [State.fld_setFld_other _ _ _ _ (by decide) (by decide) (by decide) (by decide), State.ckpIdle_state, hexport]

end Sys2Proof.Machine

namespace Sys2Proof.Machine

/-! O51: checkpoints that are abandoned, fail or are discarded, and the settling theorem (R376, R384). -/

variable {s t : State} {k i : Nat} {m : Msg} {status detail : Nat} {result : List Byte}

-- responses of every mailbox, local or remote

/-- The response to a message, of a result of any length (R400). -/
def Msg.reply (m : Msg) (status detail : Nat) (result : List Byte) : Msg :=
  let big := decide (4064 < result.length)
  let whole := m.buf ≠ 0 && decide (result.length ≤ m.cap)
  { m with
    status := status
    len := min result.length 4064
    flags := m.flags % 2 + 2 + (if big && !whole then 4 else 0)
    cap := result.length
    detail := detail
    body := result.take 4064 }

/-- The state with a result that does not fit the page sent to the host's buffer. -/
def State.bufferSent (s : State) (m : Msg) (result : List Byte) : State :=
  if decide (4064 < result.length) = true ∧ m.buf ≠ 0 then s.send (.hostWrite m.buf (result.take m.cap)) else s

theorem State.bufferSent_host : (s.bufferSent m result).host = s.host := by
  unfold State.bufferSent
  split <;> rfl

theorem State.bufferSent_regs : (s.bufferSent m result).regs = s.regs := by
  unfold State.bufferSent
  split <;> rfl

/-- A response fills the mailbox's page and ends its message; a remote one is kept too and sent out (R403). -/
theorem State.answer_puts (s : State) (k : Nat) (m : Msg) (status detail : Nat) (result : List Byte) :
    SameMail (s.answer k m status detail result).host ((s.bufferSent m result).putResponse k (m.reply status detail result)).host ∧
      (s.answer k m status detail result).regs = ((s.bufferSent m result).putResponse k (m.reply status detail result)).regs := by
  by_cases hremote : s.isRemote k = true
  · generalize hput : (s.bufferSent m result).putResponse k (m.reply status detail result) = y
    have hkept : s.answer k m status detail result = (y.onHost (fun h => { h with
        remoteKept := Tab.put k ((Tab.get ([], []) h.remoteKept k).1, (m.reply status detail result).bytes) h.remoteKept })).send
          (.datagram (Tab.get (0, 0) y.host.remoteFrom k).1 (Tab.get (0, 0) y.host.remoteFrom k).2 (m.reply status detail result).bytes) := by
      rw [← hput]
      exact if_pos hremote
    rw [hkept]
    exact ⟨⟨rfl, rfl, rfl, rfl⟩, rfl⟩
  have hlocal : s.answer k m status detail result = if m.flags % 2 = 1 then
      ((s.bufferSent m result).putResponse k (m.reply status detail result)).signalVector k
      else (s.bufferSent m result).putResponse k (m.reply status detail result) := if_neg hremote
  rw [hlocal]
  split
  · exact ⟨State.signalVector_mail k, State.signalVector_regs k⟩
  · exact ⟨SameMail.refl _, rfl⟩

theorem State.answer_ends : (s.answer k m status detail result).mbxState k = .done := by
  obtain ⟨hmail, -⟩ := State.answer_puts s k m status detail result
  rw [State.mbxState_congr hmail.mbx, State.putResponse_mbxState, if_pos rfl]

theorem State.answer_keepsLongs : (s.answer k m status detail result).host.longs = s.host.longs := by
  obtain ⟨hmail, -⟩ := State.answer_puts s k m status detail result
  rw [hmail.longs, State.putResponse_longs, State.bufferSent_host]

theorem State.answer_keepsReg {x : Nat} (hbusy : x ≠ Reg.mbxBusy) (hdone : x ≠ Reg.mbxDone) :
    (s.answer k m status detail result).reg x = s.reg x := by
  obtain ⟨-, hsame⟩ := State.answer_puts s k m status detail result
  rw [State.reg_congr hsame, State.putResponse_reg hbusy hdone, State.reg_congr State.bufferSent_regs]

theorem State.answer_ckpt : (s.answer k m status detail result).ckpt = s.ckpt :=
  (State.answer_same s k m status detail result (within_self _) s.same_self).ckpt_eq (by decide)

theorem State.answer_mem : (s.answer k m status detail result).mem = s.mem :=
  (State.answer_same s k m status detail result (within_self _) s.same_self).mem_eq (by decide)

theorem State.answer_job : (s.answer k m status detail result).job = s.job :=
  (State.answer_same s k m status detail result (within_self _) s.same_self).job_eq (by decide)

-- a checkpoint that does not finish

theorem State.checkpointing_congr (hstate : t.fld Fld.ckpState = s.fld Fld.ckpState) (hckpt : t.ckpt.writing = s.ckpt.writing) :
    t.checkpointing = s.checkpointing := by
  rw [State.checkpointing, State.checkpointing, hstate, hckpt]

/-- The state with its checkpoint dropped, before the writes that waited for it go on. -/
def State.dropped (s : State) (status : Nat) : State :=
  let s1 := (s.onCkpt (fun c => { c with grans := [], writing := none })).ckpIdle
  let s2 := (List.range 12).foldl (fun s t => s.setReg (Reg.cbwUsed t) 0) s1
  let s3 := s2.qdefs.foldl (fun s e =>
    if (s.queue e.1).writeback then s.setQueue e.1 { s.queue e.1 with writeback := false } else s) s2
  s3.setFld Fld.ckpLast status

theorem foldl_keeps {α β : Type} {f : State → α → State} {p : State → β} (h : ∀ s a, p (f s a) = p s) (as : List α) :
    ∀ s : State, p (as.foldl f s) = p s := by
  induction as with
  | nil => exact fun _ => rfl
  | cons a as ih => exact fun s => (ih (f s a)).trans (h s a)

/-- What neither registers nor queues reach stays as the emptied checkpoint leaves it. -/
theorem State.dropped_keeps {β : Type} {p : State → β} (hregs : ∀ (s : State) r, p { s with regs := r } = p s)
    (hqueues : ∀ (s : State) q, p { s with queues := q } = p s) (status : Nat) :
    p (s.dropped status) = p (s.onCkpt (fun c => { c with grans := [], writing := none })) := by
  have hidle : ∀ y : State, p y.ckpIdle = p y := by
    intro y
    unfold State.ckpIdle
    split
    · exact (hregs _ _).trans (hregs _ _)
    · exact hregs _ _
  unfold State.dropped
  dsimp only
  refine (hregs _ _).trans ((foldl_keeps (fun y e => ?_) _ _).trans ((foldl_keeps (fun y r => hregs _ _) _ _).trans (hidle _)))
  split
  · exact hqueues _ _
  · rfl

theorem State.dropped_ckpt (status : Nat) : (s.dropped status).ckpt = { s.ckpt with grans := [], writing := none } :=
  State.dropped_keeps (p := State.ckpt) (fun _ _ => rfl) (fun _ _ => rfl) status

theorem State.dropped_mem (status : Nat) : (s.dropped status).mem = s.mem :=
  State.dropped_keeps (p := State.mem) (fun _ _ => rfl) (fun _ _ => rfl) status

theorem State.dropped_job (status : Nat) : (s.dropped status).job = s.job :=
  State.dropped_keeps (p := State.job) (fun _ _ => rfl) (fun _ _ => rfl) status

theorem State.dropped_host (status : Nat) : (s.dropped status).host = s.host :=
  State.dropped_keeps (p := State.host) (fun _ _ => rfl) (fun _ _ => rfl) status

theorem State.dropped_last (h : status < 2 ^ 16) : (s.dropped status).fld Fld.ckpLast = status :=
  (State.fld_setFld_same _ _ _ (by decide) (by decide)).trans (Nat.mod_eq_of_lt h)

/-- A checkpoint abandoned by its command posts no event of its own (R408). -/
theorem State.failCheckpoint_quiet (h : s.checkpointing = true) (status detail : Nat) :
    s.failCheckpoint status detail false = (s.dropped status).goOn.endLongCode 0x401 status detail := by
  unfold State.failCheckpoint
  rw [if_neg (by rw [h]; decide)]
  rfl

/-- The state of a failed checkpoint with the event that tells of it (R408). -/
def State.tellFailure (w : State) (status : Nat) : State := w.postEvent (w.newEvent 0x18 status srcDevice 1 w.ckpt.gen)

theorem State.failCheckpoint_tells (h : s.checkpointing = true) (status detail : Nat) :
    s.failCheckpoint status detail true = ((s.dropped status).goOn.tellFailure status).endLongCode 0x401 status detail := by
  have hdropped : s.dropCheckpoint status = (s.dropped status).goOn := rfl
  unfold State.failCheckpoint
  rw [if_neg (by rw [h]; decide), hdropped]
  generalize (s.dropped status).goOn = w
  rfl

theorem State.failCheckpoint_none (h : s.checkpointing = false) (status detail : Nat) (event : Bool) :
    s.failCheckpoint status detail event = s := if_pos (by rw [h]; rfl)

theorem State.answer_checkpointing : (s.answer k m status detail result).checkpointing = s.checkpointing :=
  State.checkpointing_congr (State.fld_congr (State.answer_keepsReg (by decide) (by decide))) (by rw [State.answer_ckpt])

theorem exec_ckpAbandon_idle (h : s.takes k 0x403 0 = true) (hidle : s.checkpointing = false) :
    exec (.ckpAbandon k) s = .next (s.answer k (s.msg k) Status.wrongState (s.reg Reg.devState).toNat []) := by
  refine (ifUnit_true (decide_eq_true (State.takes_lt h))).trans (congrArg Host.Outcome.next ((State.plain_takes h).trans ?_))
  exact if_neg (by rw [hidle]; decide)

theorem exec_ckpAbandon_abandons (h : s.takes k 0x403 0 = true) (hruns : s.checkpointing = true) :
    exec (.ckpAbandon k) s = .next (((s.answer k (s.msg k) Status.success 0 []).dropped Status.abandoned).goOn.endLongCode 0x401 Status.abandoned 0) := by
  refine (ifUnit_true (decide_eq_true (State.takes_lt h))).trans (congrArg Host.Outcome.next ((State.plain_takes h).trans ?_))
  rw [if_pos hruns]
  exact State.failCheckpoint_quiet (State.answer_checkpointing.trans hruns) _ _

/-- What an abandoned checkpoint leaves: its command answered, no copy, and both slots as they were. -/
theorem State.abandoned_leaves (s : State) (k : Nat) : ∀ u, u = (s.answer k (s.msg k) Status.success 0 []).dropped Status.abandoned →
    u.ckpt.grans = [] ∧ u.ckpt.writing = none ∧ u.ckpt.slotA = s.ckpt.slotA ∧ u.ckpt.slotB = s.ckpt.slotB ∧
      u.fld Fld.ckpLast = Status.abandoned ∧ u.mem = s.mem ∧ u.mbxState k = .done := by
  rintro u rfl
  have hckpt := State.dropped_ckpt (s := s.answer k (s.msg k) Status.success 0 []) Status.abandoned
  rw [State.answer_ckpt] at hckpt
  refine ⟨by rw [hckpt], by rw [hckpt], by rw [hckpt], by rw [hckpt], State.dropped_last (by decide), ?_, ?_⟩
  · rw [State.dropped_mem, State.answer_mem]
  · rw [State.mbxState_congr (congrArg HostIf.mbx (State.dropped_host _)), State.answer_ends]

-- discards

theorem exec_ckpDiscard_busy (h : s.takes k 0x407 4 = true) (hslot : (s.msg k).get 0 4 ≤ 1)
    (hbusy : s.checkpointing = true ∨ s.ckpt.exporting.isSome = true) :
    exec (.ckpDiscard k) s = .next (s.answer k (s.msg k) Status.wrongState (s.reg Reg.devState).toNat []) := by
  refine (ifUnit_command h rfl ?fields).trans (congrArg Host.Outcome.next ?rest)
  case fields => exact firstBad_cons.mpr ⟨decide_eq_false (Nat.not_lt.mpr hslot), rfl⟩
  case rest => exact if_pos hbusy

/-- The state whose slot is empty, here and on the module. -/
def State.slotEmptied (s : State) (i : Nat) : State := (s.setSlot i Slot.empty).send (.moduleDeallocate i)

theorem exec_ckpDiscard_empties (h : s.takes k 0x407 4 = true) (hslot : (s.msg k).get 0 4 ≤ 1) (hidle : s.checkpointing = false)
    (hexport : s.ckpt.exporting = none) :
    exec (.ckpDiscard k) s = .next ((s.slotEmptied ((s.msg k).get 0 4)).answer k (s.msg k) Status.success 0 []) := by
  refine (ifUnit_command h rfl ?fields).trans (congrArg Host.Outcome.next ?rest)
  case fields => exact firstBad_cons.mpr ⟨decide_eq_false (Nat.not_lt.mpr hslot), rfl⟩
  case rest => exact if_neg (by simp [hidle, hexport])

theorem State.slotEmptied_slot (i j : Nat) : (s.slotEmptied i).slot j = (s.setSlot i Slot.empty).slot j := State.slot_congr rfl rfl j

theorem State.slotEmptied_gen (i : Nat) : (s.slotEmptied i).reg (if i = 0 then Reg.ckpGenA else Reg.ckpGenB) = 0 :=
  State.reg_setSlot_gen i Slot.empty

theorem State.slotEmptied_mem (i : Nat) : (s.slotEmptied i).mem = s.mem := rfl

/-- Settles O51: each command by its own lemmas, the capture over the queues' write-backs, which leave the slots. -/
theorem checkpointsAreCapturedCopiedAndCommitted : Obligations.CheckpointsAreCapturedCopiedAndCommitted := by
  unfold Obligations.CheckpointsAreCapturedCopiedAndCommitted
  intro s k
  refine ⟨exec_checkpointCapture_notDue, fun hdue => ?capture, fun g => exec_parsnipGranuleDone_void, fun g x hwriting hstate hnext => ?granule,
    exec_checkpointCommit_void, fun x hwriting hstate => ?commit, exec_ckpAbandon_idle, fun htakes hruns => ?abandon,
    fun htakes hslot => ⟨exec_ckpDiscard_busy htakes hslot, fun hidle hexport => ?discard⟩⟩
  case capture =>
    obtain ⟨t, hexec, hcaptures, hcopying, hclosed⟩ := State.captureDue_captures hdue
    exact ⟨t, hexec, hcaptures.writing, hcopying, hclosed, hcaptures.committed, hcaptures.gen, hcaptures.captureTick, hcaptures.other,
      hcaptures.done, hcaptures.tick, hcaptures.job⟩
  case granule =>
    obtain ⟨saved, hexec⟩ := exec_parsnipGranuleDone_takes hwriting hstate hnext
    have hcopied := State.granule_copied s x g saved _ rfl
    rw [hstate] at hcopied
    exact ⟨_, hexec, hcopied⟩
  case commit =>
    refine ⟨_, exec_checkpointCommit_commits hwriting hstate, ?_, fun hx => ?_, by rw [State.committed_ckpt], State.committed_last x,
      State.committed_mem x, State.committed_state x⟩
    · rw [State.committed_slot, State.slot_setSlot_same]
    · rw [State.committed_slot, State.slot_setSlot_other hx]
  case abandon => exact ⟨_, exec_ckpAbandon_abandons htakes hruns, State.abandoned_leaves s k _ rfl⟩
  case discard =>
    refine ⟨_, exec_ckpDiscard_empties htakes hslot hidle hexport, ?_, ?_, State.slotEmptied_gen _, State.slotEmptied_mem _⟩
    · rw [State.slotEmptied_slot, State.slot_setSlot_same]
    · rw [State.slotEmptied_slot, State.slot_setSlot_other hslot]

end Sys2Proof.Machine

namespace Sys2Proof.Machine

/-! O52: what the module and the storage targets do (R405, R418, R419, R492). -/

variable {s t : State} {k i v : Nat} {x : Target} {l : Long} {ok p : Bool}

-- connections

theorem exec_storageConnectionDone_port0 (hi : i < 16) (hx : Tab.find? s.host.targets i = some x) (hconn : x.conn0 = 1) :
    exec (.storageConnectionDone i 0 ok) s = .next (s.onHost (fun h => { h with
      targets := Tab.put i { x with conn0 := if ok then 2 else 3 } h.targets })) := by
  have harm : exec (.storageConnectionDone i 0 ok) s = execStorageConnectionDone i 0 ok s := rfl
  rw [harm, execStorageConnectionDone, hx, ifUnit_true (by simp [hi])]
  exact congrArg Host.Outcome.next (if_pos ⟨rfl, hconn⟩)

theorem exec_storageConnectionDone_port1 (hi : i < 16) (hx : Tab.find? s.host.targets i = some x) (hconn : x.conn1 = 1) :
    exec (.storageConnectionDone i 1 ok) s = .next (s.onHost (fun h => { h with
      targets := Tab.put i { x with conn1 := if ok then 2 else 3 } h.targets })) := by
  have harm : exec (.storageConnectionDone i 1 ok) s = execStorageConnectionDone i 1 ok s := rfl
  rw [harm, execStorageConnectionDone, hx, ifUnit_true (by simp [hi])]
  exact congrArg Host.Outcome.next ((if_neg (by simp)).trans (if_pos ⟨rfl, hconn⟩))

theorem exec_storageConnectionDone_void (hi : i < 16) (hx : Tab.find? s.host.targets i = some x) {j : Nat} (hj : j < 2)
    (hzero : j = 0 → x.conn0 ≠ 1) (hone : j = 1 → x.conn1 ≠ 1) : exec (.storageConnectionDone i j ok) s = .next s := by
  have harm : exec (.storageConnectionDone i j ok) s = execStorageConnectionDone i j ok s := rfl
  rw [harm, execStorageConnectionDone, hx, ifUnit_true (by simp [hi, hj])]
  exact congrArg Host.Outcome.next ((if_neg fun h => hzero h.1 h.2).trans (if_neg fun h => hone h.1 h.2))

-- keep-alives

/-- The keep-alives of one target: one for each port that is connected. -/
def keepAlivesOf (e : Nat × Target) : List Sent :=
  (if e.2.conn0 = 2 then [Sent.keepAlive e.1 0] else []) ++ (if e.2.conn1 = 2 then [Sent.keepAlive e.1 1] else [])

/-- The state with a target's keep-alives sent. -/
def State.keepAlive (s : State) (e : Nat × Target) : State :=
  let s1 := if e.2.conn0 = 2 then s.send (.keepAlive e.1 0) else s
  if e.2.conn1 = 2 then s1.send (.keepAlive e.1 1) else s1

theorem State.keepAlive_eq (e : Nat × Target) : s.keepAlive e = { s with sent := s.sent ++ keepAlivesOf e } := by
  unfold State.keepAlive keepAlivesOf
  by_cases h0 : e.2.conn0 = 2 <;> by_cases h1 : e.2.conn1 = 2 <;> simp [h0, h1, State.send]

theorem State.foldl_keepAlive (es : Tab Target) : ∀ s : State,
    es.foldl (fun s e => s.keepAlive e) s = { s with sent := s.sent ++ es.flatMap keepAlivesOf } := by
  induction es with
  | nil => intro s; simp
  | cons e es ih =>
    intro s
    rw [List.foldl_cons, ih, State.keepAlive_eq]
    simp

theorem exec_nvmeKeepAlive : exec .nvmeKeepAlive s = .next { s with sent := s.sent ++ s.host.targets.flatMap keepAlivesOf } :=
  congrArg Host.Outcome.next (State.foldl_keepAlive s.host.targets s)

-- an open status

/-- The NVMe status of a command that did not complete: open, of 16 bits. -/
def State.openStatus (s : State) : Nat := (s.upTo 0xFFFF).1

/-- The state with that value drawn. -/
def State.drawn (s : State) : State := { s with freeCount := s.freeCount + 1 }

theorem State.openStatus_le : s.openStatus ≤ 0xFFFF := Nat.le_of_lt_succ (Nat.mod_lt _ (by decide))

-- storage commands that do not complete

theorem longTarget_code (h : (longTarget l).isSome = true) : l.code = 0x101 ∨ l.code = 0x602 ∨ l.code = 0x604 ∨ l.code = 0x404 := by
  unfold longTarget at h
  split at h
  case isTrue hcode => omega
  split at h
  case isTrue hcode => omega
  case isFalse => cases h

/-- Of the commands with a target, the staging of an image and the writing of a record end with nothing else changed. -/
theorem State.failLong_ends (h : (longTarget l).isSome = true) (hadmit : l.code ≠ 0x101) (hexport : l.code ≠ 0x404) (status detail : Nat) :
    s.failLong l status detail = s.endLong l status detail := by
  have hcode := longTarget_code h
  unfold State.failLong
  rw [if_neg hexport, if_neg (by omega), if_neg (by omega), if_neg hadmit]

theorem exec_storageCommandTimeout_fails (hk : k < 64)
    (hl : s.host.longs.find? (fun l => decide (l.mbx = k) && decide (l.ended = none) && (longTarget l).isSome) = some l)
    (hadmit : l.code ≠ 0x101) (hexport : l.code ≠ 0x404) : exec (.storageCommandTimeout k) s =
      .next ((s.drawn.targetStatus ((longTarget l).getD 0) s.openStatus).endLong l Status.storageError s.openStatus) := by
  have hunit : (mbxOk k || decide (k = srcDevice)) = true := by rw [mbxOk, decide_eq_true hk, Bool.true_or]
  have htarget : (longTarget l).isSome = true := by
    have hfound := List.find?_some hl
    simp only [Bool.and_eq_true] at hfound
    exact hfound.2
  have harm : exec (.storageCommandTimeout k) s = execStorageCommandTimeout k s := rfl
  rw [harm, execStorageCommandTimeout, ifUnit_true hunit, hl]
  exact congrArg Host.Outcome.next (State.failLong_ends htarget hadmit hexport _ _)

theorem State.targetStatus_found (hx : Tab.find? s.host.targets i = some x) (v : Nat) : s.targetStatus i v = s.onHost (fun h => { h with
    targets := Tab.put i { x with lastStatus := v } h.targets }) := by
  unfold State.targetStatus
  rw [hx]

/-- The status of a target is all that it changes. -/
theorem State.targetStatus_frame (i v : Nat) : s.targetStatus i v = { s with host := { s.host with
    targets := (s.targetStatus i v).host.targets } } := by
  cases hx : Tab.find? s.host.targets i with
  | none =>
    have hnone : s.targetStatus i v = s := by
      unfold State.targetStatus
      rw [hx]
    rw [hnone]
  | some x =>
    rw [State.targetStatus_found hx]
    rfl

theorem State.targetStatus_longs (i v : Nat) : (s.targetStatus i v).host.longs = s.host.longs := by rw [State.targetStatus_frame]
theorem State.targetStatus_mem (i v : Nat) : (s.targetStatus i v).mem = s.mem := by rw [State.targetStatus_frame]
theorem State.targetStatus_job (i v : Nat) : (s.targetStatus i v).job = s.job := by rw [State.targetStatus_frame]

theorem State.targetStatus_shows (hx : Tab.find? s.host.targets i = some x) (v : Nat) :
    Tab.find? (s.targetStatus i v).host.targets i = some { x with lastStatus := v } := by
  rw [State.targetStatus_found hx]
  exact Tab.find?_put_same _ _ _

theorem Reg.still_ckpStatus : Reg.Still Reg.ckpStatus := Reg.still_of_mod (by decide) (by decide) (by decide)

-- exporting that ends

theorem State.endExport_none (h : s.ckpt.exporting = none) (status detail : Nat) : s.endExport status detail = s :=
  if_pos (by rw [h]; rfl)

/-- The state with its exporting over, before the command's end is told. -/
def State.exportOver (s : State) (status : Nat) : State :=
  let s1 := s.onCkpt (fun c => { c with exporting := none })
  (if s1.fld Fld.ckpState = 4 then s1.setFld Fld.ckpState 0 else s1).setFld Fld.ckpLast status

theorem State.endExport_some (h : s.ckpt.exporting = some i) (status detail : Nat) :
    s.endExport status detail = (s.exportOver status).endLongCode 0x404 status detail := if_neg (by rw [h]; exact Bool.false_ne_true)

theorem State.exportOver_frame (status : Nat) : s.exportOver status = { s with
    regs := (s.exportOver status).regs, ckpt := { s.ckpt with exporting := none } } := by
  unfold State.exportOver
  dsimp only
  split <;> rfl

theorem State.exportOver_last {status : Nat} (h : status < 2 ^ 16) : (s.exportOver status).fld Fld.ckpLast = status :=
  (State.fld_setFld_same _ _ _ (by decide) (by decide)).trans (Nat.mod_eq_of_lt h)

theorem State.endLongCode_fld {f : Fld} (hf : Reg.Still f.key) (code status detail : Nat) :
    (s.endLongCode code status detail).fld f = s.fld f := by
  unfold State.endLongCode
  split
  · exact State.fld_congr (State.endLong_reg hf status detail)
  · rfl

/-- What the end of exporting leaves. -/
theorem State.endExport_leaves (h : s.ckpt.exporting = some i) {status : Nat} (hstatus : status < 2 ^ 16) (detail : Nat) : ∀ t,
    t = s.endExport status detail →
      t.ckpt.exporting = none ∧ t.fld Fld.ckpLast = status ∧ t.mem = s.mem ∧ t.job = s.job := by
  rintro t rfl
  rw [State.endExport_some h]
  have hsame := State.endLongCode_same (s.exportOver status) 0x404 status detail (within_self _) (State.same_self _)
  refine ⟨?_, ?_, ?_, ?_⟩
  · rw [hsame.ckpt_eq (by decide), State.exportOver_frame]
  · rw [State.endLongCode_fld Reg.still_ckpStatus, State.exportOver_last hstatus]
  · rw [hsame.mem_eq (by decide), State.exportOver_frame]
  · rw [hsame.job_eq (by decide), State.exportOver_frame]

-- module commands that do not complete, and modules that come or leave

theorem exec_moduleCommandTimeout_idle (hidle : s.checkpointing = false) (hexport : s.ckpt.exporting = none) :
    exec .moduleCommandTimeout s = .next s :=
  congrArg Host.Outcome.next (if_neg (by simp [hidle, hexport]))

theorem exec_moduleCommandTimeout_fails (h : s.checkpointing = true ∨ s.ckpt.exporting.isSome = true) :
    exec .moduleCommandTimeout s =
      .next ((s.drawn.failCheckpoint Status.moduleError s.openStatus true).endExport Status.moduleError s.openStatus) :=
  congrArg Host.Outcome.next (if_pos h)

/-- The state that knows whether a module is there: none is ready any more. -/
def State.moduleSeen (s : State) (p : Bool) : State :=
  ((s.onCkpt (fun c => { c with modulePresent := p })).setFld Fld.modPresent (if p then 1 else 0)).setFld Fld.moduleReady 0

theorem exec_modPrsntChange : exec (.modPrsntChange p) s = .next (((s.moduleSeen p).drawn.failCheckpoint Status.moduleError
    (s.moduleSeen p).openStatus true).endExport Status.moduleError (s.moduleSeen p).openStatus) := rfl

theorem State.moduleSeen_ready (p : Bool) : (s.moduleSeen p).fld Fld.moduleReady = 0 :=
  State.fld_setFld_same _ _ _ (by decide) (by decide)

theorem State.moduleSeen_present (p : Bool) : (s.moduleSeen p).fld Fld.modPresent = if p then 1 else 0 := by
  unfold State.moduleSeen
  rw [State.setFld_fld _ (by decide), State.fld_setFld_same _ _ _ (by decide) (by decide)]
  cases p <;> rfl

theorem State.moduleSeen_checkpointing (p : Bool) : (s.moduleSeen p).checkpointing = s.checkpointing := by
  refine State.checkpointing_congr ?_ rfl
  unfold State.moduleSeen
  rw [State.fld_setFld_other _ _ _ _ (by decide) (by decide) (by decide) (by decide), State.setFld_fld _ (by decide)]
  rfl

/-- What a checkpoint that fails by its module leaves, before the writes that waited for it go on. -/
theorem State.dropped_leaves (s : State) {status : Nat} (hstatus : status < 2 ^ 16) : ∀ u, u = s.drawn.dropped status →
    u.ckpt.grans = [] ∧ u.ckpt.writing = none ∧ u.ckpt.slotA = s.ckpt.slotA ∧ u.ckpt.slotB = s.ckpt.slotB ∧ u.mem = s.mem ∧
      u.job = s.job ∧ u.fld Fld.ckpLast = status ∧ u.ckpt.modulePresent = s.ckpt.modulePresent := by
  rintro u rfl
  have hckpt := State.dropped_ckpt (s := s.drawn) status
  refine ⟨by rw [hckpt], by rw [hckpt], by rw [hckpt]; rfl, by rw [hckpt]; rfl, ?_, ?_, State.dropped_last hstatus, by rw [hckpt]; rfl⟩
  · rw [State.dropped_mem]
    rfl
  · rw [State.dropped_job]
    rfl

end Sys2Proof.Machine

namespace Sys2Proof.Machine

/-! O52: CKP_RESTORE (R379 to R383), and the settling theorem. -/

variable {s t : State} {k a n : Nat} {m : Msg} {j : Job} {plan : List Byte} {sources : List (List Byte)} {bytes : Nat → List Byte}

-- the command's checks

/-- What CKP_RESTORE does with a job and a plan of `n` bytes at `a`. -/
def State.restoreCommand (s : State) (k : Nat) (m : Msg) (j : Job) (a n : Nat) (sources : List (List Byte)) : State :=
  if !s.ps0 ∨ !s.fresh_ then s.wrongState k m
  else if !s.mayReach .firmware false a n ∨ rangeOf a ≠ .hbm ∨ j.pieces.any (fun p => overlaps a n p.base p.span) then s.badField k m 0
  else if !planOk (s.rd a n) then s.badField k m 8
  else s.startLong k m [0x401, 0x404] (fun y => (y.restoreRead (s.rd a n) sources).restore j (s.rd a n) (y.sourceBytes (s.rd a n) sources))

theorem exec_ckpRestore_job (h : s.takes k 0x405 16 = true) (hj : s.job = some j) :
    exec (.ckpRestore k sources) s = .next (s.restoreCommand k (s.msg k) j ((s.msg k).get 0 8) ((s.msg k).get 8 8) sources) := by
  refine (ifUnit_command h rfl rfl).trans (congrArg Host.Outcome.next ?_)
  dsimp only
  rw [hj]
  rfl

theorem exec_ckpRestore_noJob (h : s.takes k 0x405 16 = true) (hj : s.job = none) :
    exec (.ckpRestore k sources) s = .next (s.answer k (s.msg k) Status.wrongState (s.reg Reg.devState).toNat []) := by
  refine (ifUnit_command h rfl rfl).trans (congrArg Host.Outcome.next ?_)
  dsimp only
  rw [hj]
  rfl

/-- The plan lies in job HBM, readable by firmware, outside every piece (R379). -/
def State.planOutside (s : State) (j : Job) (a n : Nat) : Prop :=
  rangeOf a = .hbm ∧ s.mayReach .firmware false a n = true ∧ ∀ p ∈ j.pieces, overlaps a n p.base p.span = false

theorem State.planOutside_iff : s.planOutside j a n ↔
    ¬((!s.mayReach .firmware false a n) = true ∨ rangeOf a ≠ .hbm ∨ j.pieces.any (fun p => overlaps a n p.base p.span) = true) := by
  simp only [State.planOutside, not_or, Bool.not_eq_true', Bool.not_eq_false, List.any_eq_true, not_exists, not_and, Bool.not_eq_true, not_not,
    ne_eq]
  tauto

theorem State.restoreCommand_wrongState (hfresh : s.fresh_ = false) :
    s.restoreCommand k m j a n sources = s.answer k m Status.wrongState (s.reg Reg.devState).toNat [] :=
  if_pos (Or.inr (by rw [hfresh]; rfl))

section
variable (hps : s.fld Fld.pstate = 0) (hfresh : s.fresh_ = true)
include hps hfresh

theorem State.restoreCommand_inside (hinside : ¬s.planOutside j a n) :
    s.restoreCommand k m j a n sources = s.answer k m Status.badField 0 [] := by
  unfold State.restoreCommand
  rw [if_neg (by simp [State.ps0, hps, hfresh]), if_pos (not_not.mp (mt State.planOutside_iff.mpr hinside))]
  rfl

theorem State.restoreCommand_badPlan (hout : s.planOutside j a n) (hbad : planOk (s.rd a n) = false) :
    s.restoreCommand k m j a n sources = s.answer k m Status.badField 8 [] := by
  unfold State.restoreCommand
  rw [if_neg (by simp [State.ps0, hps, hfresh]), if_neg (State.planOutside_iff.mp hout), if_pos (by rw [hbad]; rfl)]
  rfl

theorem State.restoreCommand_starts (hout : s.planOutside j a n) (hplan : planOk (s.rd a n) = true) :
    s.restoreCommand k m j a n sources = s.startLong k m [0x401, 0x404] (fun y =>
      (y.restoreRead (s.rd a n) sources).restore j (s.rd a n) (y.sourceBytes (s.rd a n) sources)) := by
  unfold State.restoreCommand
  rw [if_neg (by simp [State.ps0, hps, hfresh]), if_neg (State.planOutside_iff.mp hout), if_neg (by rw [hplan]; decide)]
end

-- the command that starts

/-- A long command that may start is accepted: it joins those that run. -/
theorem State.startLong_accepts {f : State → State} {conflicts : List Nat} (hmay : s.mayStart m.code conflicts = true) :
    s.startLong k m conflicts f = f (s.accepted k m []) := by
  rcases State.startLongExt_starts (k := k) (ext := []) (g := f) hmay with h | ⟨h, hnone⟩
  · exact h
  · refine h.trans (congrArg f ?_)
    have hlongs : (s.answer k m Status.accepted 0 []).host.longs = [] := by rw [State.answer_keepsLongs, hnone]
    unfold State.accepted
    generalize s.answer k m Status.accepted 0 [] = y at hlongs ⊢
    simp only [State.onHost, hlongs, List.nil_append]

theorem State.accepted_longs : (s.accepted k m []).host.longs = s.host.longs ++ [Long.of k m []] :=
  congrArg (· ++ [Long.of k m []]) State.answer_keepsLongs

theorem State.accepted_ckpt : (s.accepted k m []).ckpt = s.ckpt := State.answer_ckpt
theorem State.accepted_mem : (s.accepted k m []).mem = s.mem := State.answer_mem
theorem State.accepted_job : (s.accepted k m []).job = s.job := State.answer_job
theorem State.accepted_stepIndex : (s.accepted k m []).reg Reg.stepIndex = s.reg Reg.stepIndex :=
  State.answer_keepsReg (by decide) (by decide)

theorem State.sourceBytes_congr (h : t.ckpt = s.ckpt) : t.sourceBytes plan sources = s.sourceBytes plan sources := by
  funext i
  rw [State.sourceBytes, State.sourceBytes, h]

-- what was read from the targets

theorem State.storageMoved_frame (i read written : Nat) : s.storageMoved i read written = { s with host := { s.host with
    targets := (s.storageMoved i read written).host.targets } } := by
  unfold State.storageMoved
  split <;> rfl

/-- What does not see the targets does not see what was read from them. -/
theorem State.restoreRead_keeps {β : Type} {p : State → β}
    (h : ∀ (s : State) targets, p { s with host := { s.host with targets := targets } } = p s) : p (s.restoreRead plan sources) = p s := by
  unfold State.restoreRead
  refine foldl_keeps (fun y i => ?_) _ _
  split
  · rw [State.storageMoved_frame]
    exact h _ _
  · rfl

-- the outcome kept with the command

/-- The commands with the outcome of a restore kept in the one that runs (R383). -/
def keptOutcome (f : Failure) (ls : List Long) : List Long :=
  ls.map (fun l => if l.code = 0x405 ∧ l.ended = none then { l with ext := toLE 2 f.1 ++ toLE 8 f.2 } else l)

theorem keptOutcome_none {ls : List Long} (h : ∀ l ∈ ls, ¬(l.code = 0x405 ∧ l.ended = none)) (f : Failure) : keptOutcome f ls = ls :=
  (List.map_congr_left fun l hl => if_neg (h l hl)).trans (List.map_id _)

theorem keptOutcome_started {ls : List Long} (h : ∀ l ∈ ls, ¬(l.code = 0x405 ∧ l.ended = none)) (hcode : m.code = 0x405) (f : Failure) :
    keptOutcome f (ls ++ [Long.of k m []]) = ls ++ [Long.of k m (toLE 2 f.1 ++ toLE 8 f.2)] := by
  have hruns : keptOutcome f [Long.of k m []] = [Long.of k m (toLE 2 f.1 ++ toLE 8 f.2)] := congrArg (fun x => [x]) (if_pos ⟨hcode, rfl⟩)
  unfold keptOutcome at hruns ⊢
  rw [List.map_append, hruns]
  exact congrArg (· ++ _) (keptOutcome_none h f)

theorem State.keepOutcome_longs (f : Failure) : (s.keepOutcome f).host.longs = keptOutcome f s.host.longs := rfl
theorem State.keepOutcome_mem (f : Failure) : (s.keepOutcome f).mem = s.mem := rfl
theorem State.keepOutcome_job (f : Failure) : (s.keepOutcome f).job = s.job := rfl

theorem State.keepOutcome_state (f : Failure) : (s.keepOutcome f).fld Fld.ckpState = 5 := by
  unfold State.keepOutcome
  rw [State.fld_congr (State.reg_congr (State.onHost_regs _ _) _), State.fld_setFld_same _ _ _ (by decide) (by decide)]
  rfl

theorem State.keepOutcome_reg {r : Nat} (h : r ≠ Reg.ckpStatus) (f : Failure) : (s.keepOutcome f).reg r = s.reg r := by
  unfold State.keepOutcome
  rw [State.reg_congr (State.onHost_regs _ _)]
  exact State.reg_setFld_other _ _ _ _ h

-- what is restored

/-- The context record among those of the sources. -/
def contextRec (srcs : List Source) : Option (Nat × Nat × SourceRec) := (allRecs srcs).find? (fun r => r.2.2.piece.kind = 2)

/-- The state with the pieces written, and with the context and the queues of the checkpoint where the plan asks for the same job. -/
def State.rebuilt (s : State) (j : Job) (plan : List Byte) (srcs : List Source) (rs : List (Piece × List (Nat × Nat × SourceRec))) : State :=
  let s1 := rs.foldl (fun s e => s.restorePiece e.1 e.2) s
  if fieldLE plan 4 4 % 2 = 1 then
    (match contextRec srcs with
      | some r => s1.restoreContext r.2.2.data
      | none => s1).restoreQueues j.pieces
  else s1

theorem State.restore_error {f : Failure} (h : restorePlan plan bytes j.pieces = .error f) : s.restore j plan bytes = s.keepOutcome f := by
  unfold State.restore
  rw [h]

theorem State.restore_ok {x : Source} {srcs : List Source} {rs : List (Piece × List (Nat × Nat × SourceRec))}
    (h : restorePlan plan bytes j.pieces = .ok (x :: srcs, rs)) : s.restore j plan bytes =
      ((s.rebuilt j plan (x :: srcs) rs).setReg Reg.stepIndex (BitVec.ofNat 64 x.index)).keepOutcome (Status.success, 0) := by
  unfold State.restore
  rw [h]
  rfl

theorem State.rebuilt_same (s : State) (j : Job) (plan : List Byte) (srcs : List Source) (rs : List (Piece × List (Nat × Nat × SourceRec))) :
    (s.rebuilt j plan srcs rs).same 67346510 s := by
  have hpieces : (rs.foldl (fun s e => s.restorePiece e.1 e.2) s).same 67346510 s :=
    same_foldl (fun _ _ hy => State.restorePiece_same _ _ _ (by decide) hy) s.same_self
  unfold State.rebuilt
  dsimp only
  split
  · refine State.restoreQueues_same _ _ (by decide) ?_
    split
    · exact State.restoreContext_same _ _ (by decide) hpieces
    · exact hpieces
  · exact hpieces

theorem State.rebuilt_host (srcs : List Source) (rs : List (Piece × List (Nat × Nat × SourceRec))) :
    (s.rebuilt j plan srcs rs).host = s.host := (State.rebuilt_same s j plan srcs rs).host_eq (by decide)

theorem State.rebuilt_job (srcs : List Source) (rs : List (Piece × List (Nat × Nat × SourceRec))) :
    (s.rebuilt j plan srcs rs).job = s.job := (State.rebuilt_same s j plan srcs rs).job_eq (by decide)

-- the command as a whole

theorem State.takes_msgCode {code want : Nat} (h : s.takes k code want = true) : (s.msg k).code = code := by
  simp only [State.takes, Bool.and_eq_true, decide_eq_true_eq] at h
  exact h.1.1.1.2

theorem State.mayStart_notRunning {code : Nat} {conflicts : List Nat} (h : s.mayStart code conflicts = true) :
    ∀ l ∈ s.host.longs, ¬(l.code = code ∧ l.ended = none) := by
  simp only [State.mayStart, State.runningOf, Bool.and_eq_true, Option.isNone_iff_eq_none, List.find?_eq_none, decide_eq_true_eq] at h
  intro l hl hruns
  exact h.1 l hl ⟨by rw [hruns.1]; exact List.mem_cons_self, hruns.2⟩

/-- The state in which a restore begins: its command accepted, and what its targets gave counted. -/
def State.restoreBegun (s : State) (k : Nat) (m : Msg) (plan : List Byte) (sources : List (List Byte)) : State :=
  (s.accepted k m []).restoreRead plan sources

theorem State.restoreBegun_longs : (s.restoreBegun k m plan sources).host.longs = s.host.longs ++ [Long.of k m []] :=
  (State.restoreRead_keeps (p := fun y => y.host.longs) (fun _ _ => rfl)).trans State.accepted_longs

theorem State.restoreBegun_mem : (s.restoreBegun k m plan sources).mem = s.mem :=
  (State.restoreRead_keeps (p := State.mem) (fun _ _ => rfl)).trans State.accepted_mem

theorem State.restoreBegun_job : (s.restoreBegun k m plan sources).job = s.job :=
  (State.restoreRead_keeps (p := State.job) (fun _ _ => rfl)).trans State.accepted_job

theorem State.restoreBegun_stepIndex : (s.restoreBegun k m plan sources).reg Reg.stepIndex = s.reg Reg.stepIndex :=
  (State.restoreRead_keeps (p := fun y => y.reg Reg.stepIndex) (fun _ _ => rfl)).trans State.accepted_stepIndex

section
variable (hps : s.fld Fld.pstate = 0) (hfresh : s.fresh_ = true) (hout : s.planOutside j a n) (hplan : planOk (s.rd a n) = true)
  (hcode : m.code = 0x405) (hmay : s.mayStart 0x405 [0x401, 0x404] = true)
include hps hfresh hout hplan hcode hmay

theorem State.restoreCommand_restores : s.restoreCommand k m j a n sources =
    (s.restoreBegun k m (s.rd a n) sources).restore j (s.rd a n) (s.sourceBytes (s.rd a n) sources) := by
  rw [State.restoreCommand_starts hps hfresh hout hplan, State.startLong_accepts (by rw [hcode]; exact hmay),
    State.sourceBytes_congr State.accepted_ckpt]
  rfl

/-- A restore whose plan fails keeps its failure, and nothing is written. -/
theorem State.restoreCommand_fails {f : Failure} (h : restorePlan (s.rd a n) (s.sourceBytes (s.rd a n) sources) j.pieces = .error f) : ∀ u,
    u = s.restoreCommand k m j a n sources → u.fld Fld.ckpState = 5 ∧ u.job = s.job ∧
      u.host.longs = s.host.longs ++ [Long.of k m (toLE 2 f.1 ++ toLE 8 f.2)] ∧ u.reg Reg.stepIndex = s.reg Reg.stepIndex ∧ u.mem = s.mem := by
  rintro u rfl
  rw [State.restoreCommand_restores hps hfresh hout hplan hcode hmay, State.restore_error h]
  refine ⟨State.keepOutcome_state f, ?_, ?_, ?_, ?_⟩
  · rw [State.keepOutcome_job, State.restoreBegun_job]
  · rw [State.keepOutcome_longs, State.restoreBegun_longs, keptOutcome_started (State.mayStart_notRunning hmay) hcode]
  · rw [State.keepOutcome_reg (by decide), State.restoreBegun_stepIndex]
  · rw [State.keepOutcome_mem, State.restoreBegun_mem]

/-- A restore whose plan is served keeps its success, and the step index of its sources. -/
theorem State.restoreCommand_succeeds {x : Source} {srcs : List Source} {rs : List (Piece × List (Nat × Nat × SourceRec))}
    (h : restorePlan (s.rd a n) (s.sourceBytes (s.rd a n) sources) j.pieces = .ok (x :: srcs, rs)) : ∀ u,
    u = s.restoreCommand k m j a n sources → u.fld Fld.ckpState = 5 ∧ u.job = s.job ∧
      u.host.longs = s.host.longs ++ [Long.of k m (toLE 2 Status.success ++ toLE 8 0)] ∧
      u.reg Reg.stepIndex = BitVec.ofNat 64 x.index := by
  rintro u rfl
  rw [State.restoreCommand_restores hps hfresh hout hplan hcode hmay, State.restore_ok h]
  refine ⟨State.keepOutcome_state _, ?_, ?_, ?_⟩
  · rw [State.keepOutcome_job, State.setReg_job, State.rebuilt_job, State.restoreBegun_job]
  · rw [State.keepOutcome_longs, State.setReg_host, State.rebuilt_host, State.restoreBegun_longs,
      keptOutcome_started (State.mayStart_notRunning hmay) hcode]
  · rw [State.keepOutcome_reg (by decide), State.reg_setReg_same]
end

-- a checkpoint that fails by its module

/-- What an event of the module does to a checkpoint that runs (R376, R408): it is dropped, the failure told, its command and exporting ended. -/
def State.ModuleFails (s : State) (c : Instr) : Prop := ∃ (u : State) (v : Nat),
  exec c s = .next (((u.goOn.tellFailure Status.moduleError).endLongCode 0x401 Status.moduleError v).endExport Status.moduleError v) ∧
    v ≤ 0xFFFF ∧ u.ckpt.grans = [] ∧ u.ckpt.writing = none ∧ u.ckpt.slotA = s.ckpt.slotA ∧ u.ckpt.slotB = s.ckpt.slotB ∧ u.mem = s.mem ∧
    u.job = s.job ∧ u.fld Fld.ckpLast = Status.moduleError ∧
    (c ≠ .moduleCommandTimeout → u.ckpt.modulePresent = decide (c = .modPrsntChange true))

theorem State.moduleCommandTimeout_drops (hruns : s.checkpointing = true) : s.ModuleFails .moduleCommandTimeout := by
  obtain ⟨hgrans, hwriting, hA, hB, hmem, hjob, hlast, -⟩ := State.dropped_leaves s (status := Status.moduleError) (by decide) _ rfl
  refine ⟨s.drawn.dropped Status.moduleError, s.openStatus, ?_, State.openStatus_le, hgrans, hwriting, hA, hB, hmem, hjob, hlast,
    fun h => absurd rfl h⟩
  rw [exec_moduleCommandTimeout_fails (Or.inl hruns), State.failCheckpoint_tells (s := s.drawn) hruns]

theorem State.modPrsntChange_drops (hruns : s.checkpointing = true) (p : Bool) : s.ModuleFails (.modPrsntChange p) := by
  obtain ⟨hgrans, hwriting, hA, hB, hmem, hjob, hlast, hpresent⟩ :=
    State.dropped_leaves (s.moduleSeen p) (status := Status.moduleError) (by decide) _ rfl
  refine ⟨(s.moduleSeen p).drawn.dropped Status.moduleError, (s.moduleSeen p).openStatus, ?_, State.openStatus_le, hgrans, hwriting, hA, hB,
    hmem, hjob, hlast, fun _ => hpresent.trans ?_⟩
  · rw [exec_modPrsntChange, State.failCheckpoint_tells (s := (s.moduleSeen p).drawn) ((State.moduleSeen_checkpointing p).trans hruns)]
  · cases p <;> rfl

/-- Settles O52: the restore by its command's branches, the events of module and storage each by its own lemma. -/
theorem restoresAndModuleEventsTakeEffect : Obligations.RestoresAndModuleEventsTakeEffect := by
  unfold Obligations.RestoresAndModuleEventsTakeEffect
  refine ⟨fun s k sources j => ?restore, fun s => ⟨fun i x ok hi hx => ?connection, ?keepAlive, fun k l hk hl hadmit hexport => ?storage,
    exec_moduleCommandTimeout_idle, fun hidle i hexport => ?exports, fun p hidle hexport => ?present, fun hruns c hc => ?fails⟩⟩
  case restore =>
    intro m a n plan parts outside htakes
    have hexec := fun hj => exec_ckpRestore_job (sources := sources) (j := j) htakes hj
    have hcode := State.takes_msgCode htakes
    refine ⟨exec_ckpRestore_noJob htakes, fun hj hps hfresh => (hexec hj).trans (congrArg _ (State.restoreCommand_wrongState hfresh)),
      fun hj hps hfresh hin => (hexec hj).trans (congrArg _ (State.restoreCommand_inside hps hfresh hin)),
      fun hj hps hfresh hout hbad => (hexec hj).trans (congrArg _ (State.restoreCommand_badPlan hps hfresh hout hbad)),
      fun hj hps hfresh hout hplan hmay => ⟨fun f hf => ?_, fun x srcs rs hrs => ?_⟩⟩
    · exact ⟨_, hexec hj, State.restoreCommand_fails hps hfresh hout hplan hcode hmay hf _ rfl⟩
    · exact ⟨_, hexec hj, State.restoreCommand_succeeds hps hfresh hout hplan hcode hmay hrs _ rfl⟩
  case connection =>
    exact ⟨exec_storageConnectionDone_port0 hi hx, exec_storageConnectionDone_port1 hi hx,
      fun hconn => exec_storageConnectionDone_void hi hx (by decide) (fun _ => hconn) (fun h => absurd h (by decide)),
      fun hconn => exec_storageConnectionDone_void hi hx (by decide) (fun h => absurd h (by decide)) (fun _ => hconn)⟩
  case keepAlive => exact ⟨_, exec_nvmeKeepAlive, rfl, rfl⟩
  case storage =>
    refine ⟨_, _, exec_storageCommandTimeout_fails hk hl hadmit hexport, State.openStatus_le, State.targetStatus_mem _ _,
      State.targetStatus_job _ _, State.targetStatus_longs _ _, fun i x hi hx => ?_⟩
    rw [hi]
    exact State.targetStatus_shows (s := s.drawn) hx _
  case exports =>
    refine ⟨_, exec_moduleCommandTimeout_fails (Or.inr (by rw [hexport]; rfl)), ?_⟩
    rw [State.failCheckpoint_none (s := s.drawn) hidle]
    exact State.endExport_leaves (s := s.drawn) hexport (by decide) _ _ rfl
  case present =>
    refine ⟨_, exec_modPrsntChange, ?_⟩
    rw [State.failCheckpoint_none (s := (s.moduleSeen p).drawn) ((State.moduleSeen_checkpointing p).trans hidle),
      State.endExport_none (s := (s.moduleSeen p).drawn) hexport]
    exact ⟨rfl, State.moduleSeen_present p, State.moduleSeen_ready p, rfl, rfl⟩
  case fails =>
    simp only [List.mem_cons, List.not_mem_nil, or_false] at hc
    obtain rfl | rfl | rfl := hc
    · exact State.moduleCommandTimeout_drops hruns
    · exact State.modPrsntChange_drops hruns true
    · exact State.modPrsntChange_drops hruns false

end Sys2Proof.Machine
